-- ==== Sys2Proof/Word.lean ====
section
/-! DEFINITION. The word types of the KZ256Z and the numbers of its units (R4 to R7, R9). -/
namespace Sys2Proof

/-- One byte of memory, of a queue entry, of a frame or of an object's value. -/
abbrev Byte := BitVec 8
/-- A mask of sites: bit s names site s. -/
abbrev SiteMask := BitVec 32
/-- A 160-bit microword (R123). -/
abbrev MWord := BitVec 160

/-- Sites 0 to 31 (R6). -/
abbrev SiteId := Fin 32
/-- Pin channels 0 to 255 (R4). -/
abbrev ChanId := Fin 256
/-- Octets 0 to 31 (R4). -/
abbrev OctId := Fin 32
/-- Banks 0 to 7 (R5). -/
abbrev BankId := Fin 8
/-- Spars 0 to 15 (R5). -/
abbrev SparId := Fin 16
/-- Waveform engines 0 to 7 (R6). -/
abbrev EngId := Fin 8
/-- TMUs 0 to 9: bank TMUs 0 to 7, external TMUs 8 and 9 (R5, R6). -/
abbrev TmuId := Fin 10
/-- Level DACs 0 to 191 (R5). -/
abbrev DacId := Fin 192
/-- Event lines 0 to 15 (R6). -/
abbrev EvtId := Fin 16
/-- Streams 0 to 63. -/
abbrev StreamId := Fin 64
/-- Segment table entries 0 to 65,535. -/
abbrev SegId := Fin 65536
/-- Queue pairs 0 to 8,191. -/
abbrev QueueId := Fin 8192
/-- PCI Express functions: 0 the PF, v the VF v (R570). -/
abbrev FnId := Fin 33

end Sys2Proof
end

