-- ==== Sys2Proof/Syntax.lean ====
section
/-! DEFINITION. The commands and events that the KZ256Z takes, one constructor per row of the opcode table, with their
operands. What the outside world decides (a measured value, a sampled lane, the data of a transfer, a physical error)
is an operand. -/
namespace Sys2Proof

/-- One entry of the vendor directory (Table 3.16): entry address, whether the routine uses two call-stack entries and not one,
the counters and marks that it changes, its version and its name. -/
structure VEntry where
  /-- ENTRY -/
  entry : Fin 256
  /-- STACK is 2 -/
  two : Bool := false
  /-- USES -/
  uses : BitVec 4 := 0
  /-- VERSION -/
  version : BitVec 32 := 0
  /-- NAME, at most 24 bytes -/
  name : List Byte := []
  deriving DecidableEq, Repr

/-- Segment kinds (Table 2.4). -/
inductive SegKind where
  | vector | sample
  deriving DecidableEq, Repr

/-- Home tiers of a segment (Table 2.4). -/
inductive Tier where
  | hbm | deep
  deriving DecidableEq, Repr

/-- Where a queue command came from: its function, its queue and its command identifier (Tables 13.6, 13.7). -/
structure Tag where
  /-- issuing function -/
  fn : FnId
  /-- queue pair -/
  queue : QueueId
  /-- command identifier -/
  cid : BitVec 16
  deriving DecidableEq, Repr

/-- The three paths to the object dictionary, with the identity each gives its user (R617, R637). -/
inductive Path where
  | pcie (fn : FnId) (slot : Fin 4)
  | t1s (node : Fin 64) (session : BitVec 16)
  | mbox
  deriving DecidableEq, Repr

/-- The operands of a dictionary operation (Tables 13.5, 14.8). -/
structure DictArgs where
  /-- object index -/
  index : BitVec 16 := 0
  /-- subindex -/
  sub : BitVec 8 := 0
  /-- transaction number, 0 outside a transaction -/
  txn : BitVec 16 := 0
  /-- DOMAIN offset -/
  offset : Nat := 0
  /-- bytes to read at most -/
  len : Nat := 0
  /-- apply point code (Table 14.3) -/
  apply : Nat := 0
  /-- site mask of the apply point -/
  sites : SiteMask := 0
  /-- bytes to write -/
  data : List Byte := []
  deriving DecidableEq, Repr

/-- A dictionary operation's origin: a window slot, whose registers hold the operands (R577, R578), or another path
with its operands. -/
inductive Req where
  | window (fn : FnId) (slot : Fin 4)
  | direct (p : Path) (a : DictArgs)
  deriving DecidableEq, Repr

/-- What the check of a fetched microword's SECDED code found (R114). -/
inductive Ecc where
  | ok | single | double
  deriving DecidableEq, Repr

/-- A word that CS_READ or CS_VERIFY found in error: corrected, or uncorrectable with the bits as read (R114). -/
inductive CsErr where
  | single | double (asRead : MWord)
  deriving DecidableEq, Repr

/-- What the checks of a fetched yealm found (R73). -/
inductive FetchCheck where
  | ok | ue (stack : Fin 4) | bad
  deriving DecidableEq, Repr

/-- What a transfer of the mover met: a corrected or an uncorrectable error in an item of its segment (R50, R79,
Table 2.8). -/
inductive MoverCheck where
  | ok | corrected (item : Nat) | ue (item : Nat)
  deriving DecidableEq, Repr

/-- The items that a SEG_READ reads, with what the reads met (R79). -/
structure SegItems where
  count : Nat
  met : MoverCheck := .ok
  deriving DecidableEq, Repr

/-- The segment whose migration ends, with what its transfers met (R77, R79). -/
structure MoveEnd where
  seg : SegId
  met : MoverCheck := .ok
  deriving DecidableEq, Repr

/-- What a patrol read found (R71, R72). -/
inductive PatrolFind where
  | clean | corrected | ueSegment (seg : SegId) | ueOther
  deriving DecidableEq, Repr

/-- What stood on (PE_CH, PE_CL) at the balls for a strobe element: the state at a strobe's time in EDGE mode, every state
between a window's edges in WINDOW mode, with how long each persisted (R282, R284). -/
structure Sample where
  /-- vector of the frame -/
  vec : Nat
  /-- channel -/
  chan : ChanId
  /-- strobe 0 to 3, or window 0 or 1 -/
  strobe : Nat
  /-- lane states, each with its duration in fs -/
  seen : List (Bool × Bool × Nat)
  deriving DecidableEq, Repr

/-- What was transferred before a DMA failure, by the command it hit (R594). -/
inductive DmaCut where
  | segWrite (seg : SegId) (first : Nat) (data : List Byte)
  | streamFeed (data : List Byte)
  | csWrite (addr : Nat) (words : List MWord)
  | cqWrite
  | other
  deriving DecidableEq, Repr

/-- The 64-bit registers of BAR0 (Tables 13.3, 13.4). -/
inductive Reg64 where
  | fnCmds | fnRdBytes | fnWrBytes | qSqBase | qCqBase
  deriving DecidableEq, Repr

/-- A register of a function that is written: BAR0 from an offset on, or one of the configuration space with its fields (Table 13.1):
Device Control with the enable of 10-bit tags (Max_Payload_Size and Max_Read_Request_Size as powers of two of 128 bytes), MSI-X
Control, the power state, and the AER status registers, whose bits a 1 clears. -/
inductive RegW where
  | bar (off : Nat)
  | devControl (tag10 : Bool) (mps : Fin 3) (mrrs : Fin 6)
  | msixControl (enable mask : Bool)
  | power (d3hot : Bool)
  | aer (uncorrectable correctable : BitVec 32)
  deriving DecidableEq, Repr

/-- A register of a function that is read: BAR0 from an offset on, or one of the configuration space (Table 13.1). -/
inductive RegR where
  | bar (off : Nat)
  | ids | classCode | devControl | msixControl | power | aer | serialNumber
  deriving DecidableEq, Repr

/-- How an upload of results ran (R343, R344): whole; stopped at an uncorrectable error in HBM or in the deep store, with
the items copied and the stack or channel; or stopped at an entry that was overwritten before it was copied. -/
inductive Upload where
  | whole
  | dataError (copied : Nat) (deep : Bool) (unit : Fin 4)
  | overwritten (copied : Nat)
  deriving DecidableEq, Repr

/-- A withy that relocks: an octet's, or a TMU's. -/
inductive Withy where
  | octet (o : OctId) | tmu (u : TmuId)
  deriving DecidableEq, Repr

/-- A unit that can be retired (Table 16.5). -/
inductive RUnit where
  | chan (c : ChanId) | spar (p : SparId) | tmu (u : TmuId) | engine (e : EngId)
  deriving DecidableEq, Repr

/-- What a native or live calibration measured of a channel (Table 10.3). -/
structure ChanMeas where
  /-- channel -/
  chan : ChanId
  /-- d of each element, fs -/
  d : List Int := []
  /-- linearity table -/
  lin : List Byte := []
  /-- RT; none when no transition arrived -/
  rt : Option Int := none
  /-- RT_DE -/
  rtDe : Option Int := none
  /-- RET -/
  ret : Option Int := none
  deriving DecidableEq, Repr

/-- What a calibration measured of a spar. -/
structure SparMeas where
  /-- spar 0 or 1 of the bank -/
  spar : Fin 2
  /-- d of each element, fs -/
  d : List Int
  /-- linearity table -/
  lin : List Byte
  deriving DecidableEq, Repr

/-- What native calibration measured of a bank: its channels, its spars, TMUs with their linearity, DACs with the gain and
offset trims that the two-point measurement gives, and CALREF's frequency in mHz. -/
structure BankMeas where
  /-- channels -/
  chans : List ChanMeas
  /-- spars -/
  spars : List SparMeas
  /-- TMUs -/
  tmus : List (TmuId × List Byte)
  /-- DACs -/
  dacs : List (DacId × Int × Int)
  /-- CALREF in the MTR time base -/
  calref : Nat
  deriving DecidableEq, Repr

/-- The channel that LIVE_NOW names, with what the references measure before a block: CALREF in mHz, CALV in uV (R439). -/
structure LiveReq where
  chan : ChanId
  freq : Nat
  volt : Nat
  deriving DecidableEq, Repr

/-- What the references measure: CALREF in mHz and CALV in uV (R439). -/
structure RefMeas where
  freq : Nat
  volt : Nat
  deriving DecidableEq, Repr

/-- What a completed calibration block ends (R451): nothing yet, a native part's measurement, the bank TMU, a spar, a
channel calibrated directly, or one channel of a legacy pass. -/
inductive CalDone where
  | more | native | tmu (lin : List Byte) | spar (m : SparMeas) | direct (d : List Int) | legacy (c : ChanId) (u : Int)
  deriving DecidableEq, Repr

/-- A measurement in ALIGN (R456, R466): a lane with too few transitions, a lane's mean residual, or RT. -/
inductive AlignMeas where
  | skip (de : Bool) | mean (de : Bool) (v : Int) | rt (v : Int)
  deriving DecidableEq, Repr

/-- A sensor of the management subsystem (R660). -/
inductive Sensor where
  | thermal (i : Fin 24) | rail (r : Fin 14) | vin | iin
  deriving DecidableEq, Repr

/-- Why a checkpoint starts (R42, R671, R675, R677): the records after the newest CKPT_END exceed 4 MiB, the oldest live sector has
reached REFRESH_AGE, compaction is promoted, or a sector is marked for rewriting. -/
inductive Compact where
  | tail | age | space | rewrite
  deriving DecidableEq, Repr

/-- The Ethernet addresses of a frame. -/
structure FrameMacs where
  /-- destination -/
  dst : BitVec 48
  /-- source -/
  src : BitVec 48
  deriving DecidableEq, Repr

/-- A token written to a DOMAIN object, and the path on which its writer is answered (R475). -/
structure TokenWrite where
  /-- path -/
  path : Path
  /-- the bytes written -/
  data : List Byte
  deriving DecidableEq, Repr

/-- A NOR program or erase that ends (R666, R667): the operation, and the die on which a sector failed, with true for a
sector of the journal region. -/
structure NorEnd where
  /-- an erase, as against a program -/
  erase : Bool := false
  /-- a sector that failed -/
  failed : Option (Fin 2 × Bool) := none
  deriving DecidableEq, Repr

/-- What the scrub found in a page (R677): nothing, a journal sector to be refreshed, or a sector of another region. -/
inductive ScrubFind where
  | clean | journal | other
  deriving DecidableEq, Repr

/-- What the persistent store or an apply point concerns: a transaction record, or the n-th write outside a transaction
that waits (R613, R626, R631). -/
inductive Work where
  | txn (k : Fin 8) | out (n : Nat)
  deriving DecidableEq, Repr

/-- The commands and events of the KZ256Z: the rows of the opcode table, in its order. -/
inductive Instr where
  /-- SEG_ALLOC: Queue command that allocates the lowest FREE segment entry as OPEN, or refuses in the stated
  order (R63). -/
  | segAlloc (t : Tag) (kind : SegKind) (home : Tier) (len : Nat)
  /-- SEG_WRITE: Queue command that checks and stores yealms or sample granules into an OPEN segment, stopping
  at the first failing yealm (R64). -/
  | segWrite (t : Tag) (n : SegId) (first count : Nat) (data : List Byte)
  /-- SEG_SEAL: Queue command that checks a fully written OPEN segment and makes it INACTIVE (R65). -/
  | segSeal (t : Tag) (n : SegId)
  /-- SEG_UNSEAL: Queue command that returns an INACTIVE segment to OPEN (R62). -/
  | segUnseal (t : Tag) (n : SegId)
  /-- SEG_READ: Queue command that copies segment data to a host buffer (R774). -/
  | segRead (t : Tag) (n : SegId) (first : Nat) (count : SegItems)
  /-- SEG_MIGRATE: Queue command that moves an INACTIVE segment to a new home tier (R62). -/
  | segMigrate (t : Tag) (n : SegId) (home : Tier)
  /-- SEG_MIGRATE_DONE: Completion of a segment migration, after which the segment becomes referencable again
  (R62). -/
  | segMigrateDone (n : MoveEnd)
  /-- SEG_FREE: Queue command that returns an unreferenced segment entry to FREE (R62). -/
  | segFree (t : Tag) (n : SegId)
  /-- SEG_QUERY: Queue command that returns a segment's state, kind, home, length, references and format (R62). -/
  | segQuery (t : Tag) (n : SegId)
  /-- STREAM_OPEN: Queue command that allocates a stream ring and binds a FEED queue to a CLOSED stream (R62). -/
  | streamOpen (t : Tag) (n : StreamId) (q : QueueId) (octets : BitVec 32) (beats : Fin 4)
  /-- STREAM_RESET: Queue command that empties an unreferenced stream's ring and returns it to OPEN with
  pointers at 0 (R62). -/
  | streamReset (t : Tag) (n : StreamId)
  /-- STREAM_CLOSE: Queue command that releases an unreferenced stream's ring and makes it CLOSED (R62). -/
  | streamClose (t : Tag) (n : StreamId)
  /-- STREAM_FEED: FEED queue entry whose yealms the stream engine checks and writes into the bound stream's
  ring (R84). -/
  | streamFeed (t : Tag) (data : List Byte)
  /-- STREAM_FEED_RESUME: A held feed entry proceeds once the ring has room for all its yealms (R83). -/
  | streamFeedResume (n : StreamId)
  /-- RESULT_BUF: RESULT queue entry that posts a host buffer into which capture records are packed (R591). -/
  | resultBuf (t : Tag) (len : Nat)
  /-- RESULT_BUF_TIMEOUT: A result buffer is completed 100 us after its first record when no further record
  arrives (R591). -/
  | resultBufTimeout (q : QueueId)
  /-- CS_WRITE: Queue command that load-checks and stores microwords in the customer region of the control store
  (R121). -/
  | csWrite (t : Tag) (addr : Nat) (words : List MWord)
  /-- CS_READ: Queue command that copies control-store words to the host, correcting single-bit errors (R114). -/
  | csRead (t : Tag) (addr count : Nat) (errs : List (Nat × CsErr))
  /-- CS_VERIFY: Queue command that ECC-checks a control-store range and returns its CRC-32C and error counts
  (R114). -/
  | csVerify (t : Tag) (addr count : Nat) (errs : List (Nat × CsErr))
  /-- CS_DOMAIN_WRITE: Write of microword images to 2206h.01, stored from 2205h.01 under the load checks (R122). -/
  | csDomainWrite (p : Path) (l : List Byte)
  /-- LOAD: Site command that fixes membership and moves an IDLE site with channels to LOADED (R184). -/
  | load (t : Option Tag) (mask : SiteMask)
  /-- UNLOAD: Site command that returns a LOADED, STOPPED or FAULTED site to IDLE (R184). -/
  | unload (t : Option Tag) (mask : SiteMask)
  /-- ARM: Site command that runs the arming checks and on success reserves, references and starts the sequencer
  in ARMED (R188). -/
  | arm (t : Option Tag) (mask : SiteMask)
  /-- START: Site command that starts a set of ARMED command-mode sites together once all are READY (R191). -/
  | start (t : Option Tag) (mask : SiteMask)
  /-- START_WHEN_READY: Named sites leave ARMED and their formatters take frame 0 in the first SCLK in which all
  are READY (R191). -/
  | startWhenReady (mask : SiteMask)
  /-- PAUSE: Site command that requests a PAUSE interrupt of a pausable RUNNING site (R194). -/
  | pause (t : Option Tag) (mask : SiteMask)
  /-- RESUME: Site command that resumes a PAUSED site once its FIFO again holds 16 frames (R197). -/
  | resume (t : Option Tag) (mask : SiteMask)
  /-- STOP: Site command that stops an ARMED or PAUSED site at once, or requests a STOP interrupt of a RUNNING
  one (R184). -/
  | stop (t : Option Tag) (mask : SiteMask)
  /-- ABORT: Site command that ends an ARMED or PAUSED site at once, or requests an ABORT interrupt of a RUNNING
  one (R184). -/
  | abort (t : Option Tag) (mask : SiteMask)
  /-- RESET: Site command that releases references and returns a STOPPED or FAULTED site to LOADED (R184). -/
  | reset (t : Option Tag) (mask : SiteMask)
  /-- READY: An ARMED site reports READY once frames 0 to 20 are issued, staging is full and engine heads are
  loaded (R190). -/
  | ready (i : SiteId)
  /-- SITE_STOPPED: The site enters STOPPED once the last frame's results are latched and logged (R198). -/
  | siteStopped (i : SiteId)
  /-- SITE_PAUSED: The site enters PAUSED once the results of the last frame before the pause are latched
  (R196). -/
  | sitePaused (i : SiteId)
  /-- RESUME_RUNNING: The site re-enters RUNNING when its formatters take the first frame after the pause
  (R197). -/
  | resumeRunning (i : SiteId)
  /-- FAIL_READ: Queue command that copies fail-log entries of a site to the host (R342). -/
  | failRead (t : Tag) (i : SiteId) (first count : Nat) (run : Upload)
  /-- CAPTURE_READ: Queue command that copies capture-region bytes of a site to the host (R342). -/
  | captureRead (t : Tag) (i : SiteId) (offset len : Nat) (run : Upload)
  /-- TMU_ARM: Host command that starts an arming of a host-owned TMU (R408). -/
  | tmuArm (t : Option Tag) (u : TmuId)
  /-- TMU_DISARM: Host command that ends the arming of a host-owned TMU (R408). -/
  | tmuDisarm (t : Option Tag) (u : TmuId)
  /-- READ: Dictionary read on any path, returning the value in force or staged, or a DOMAIN segment (R612). -/
  | read (r : Req)
  /-- WRITE: Dictionary write on any path, staged in a transaction or committed at once outside one (R613). -/
  | write (r : Req)
  /-- BEGIN: Dictionary operation that opens a transaction and returns its number (R616). -/
  | begin (r : Req)
  /-- COMMIT: Dictionary operation that validates a transaction against its projected state and makes it PENDING
  or FAILED (R623). -/
  | commit (r : Req)
  /-- ROLLBACK: Dictionary operation that discards an OPEN or PENDING transaction (R622). -/
  | rollback (r : Req)
  /-- JOURNAL_RECORD_DURABLE: The persistent store reports a transaction's journal record durable and the
  transaction becomes PENDING (R626). -/
  | journalRecordDurable (w : Work) (ok : Bool)
  /-- APPLY_POINT: A PENDING transaction reaches its apply point and its objects change in one SCLK after the
  state rules are rechecked (R627). -/
  | applyPoint (w : Work)
  /-- COMMIT_MARK_DURABLE: A transaction's commit mark becomes durable and the transaction ends APPLIED and is
  reported (R631). -/
  | commitMarkDurable (w : Work)
  /-- TXN_TIMEOUT: An OPEN transaction not named for TXN_TIMEOUT is rolled back and ends TIMED_OUT (R621). -/
  | txnTimeout (k : Fin 8)
  /-- DOMAIN_WRITE_TIMEOUT: An outside DOMAIN write that receives no segment for TXN_TIMEOUT is discarded and
  its lock released (R635). -/
  | domainWriteTimeout (key : BitVec 24)
  /-- DOMAIN_SNAPSHOT_EXPIRY: A reader's DOMAIN read snapshot is dropped after TXN_TIMEOUT without a read
  (R636). -/
  | domainSnapshotExpiry (key : BitVec 24)
  /-- KDP_FRAME: Receipt of a KDP frame, ignored and counted in KDP_BAD when malformed or misaddressed (R643). -/
  | kdpFrame (macs : FrameMacs) (bytes : List Byte)
  /-- ACK: A KDP ACK with the notification's SEQ ends the outstanding notification (R647). -/
  | ack (seq : BitVec 16)
  /-- NOTIFY_REPEAT: An unacknowledged notification is repeated every t_kdp_nrep and dropped after the 8th
  transmission (R647). -/
  | notifyRepeat
  /-- PLCA_BEACON_LOST: No PLCA beacon for 4 ms moves the port to CSMA/CD and raises the source (R642). -/
  | plcaBeaconLost
  /-- PLCA_BEACON: A PLCA beacon returns the port to PLCA (R642). -/
  | plcaBeacon
  /-- MAILBOX_REQUEST: A mailbox message carrying a KDP service header is executed as a dictionary operation
  (R639). -/
  | mailboxRequest (bytes : List Byte)
  /-- CREATE: Queue configuration command that makes a queue pair ACTIVE (R581). -/
  | create (f : FnId)
  /-- DELETE: Queue configuration command that stops fetching and puts a queue in DELETING (R582). -/
  | delete (f : FnId)
  /-- QUEUE_ABSENT: A DELETING queue becomes ABSENT when its last in-flight command ends (R582). -/
  | queueAbsent (q : QueueId)
  /-- Q_READ: Queue configuration command that loads the registers with a queue's values (R581). -/
  | qRead (f : FnId)
  /-- SQ_TAIL_DOORBELL: Write of a submission-queue tail doorbell (R583). -/
  | sqTailDoorbell (f : FnId) (q : QueueId) (v : BitVec 16)
  /-- CQ_HEAD_DOORBELL: Write of a completion-queue head doorbell, which may resume fetching (R583). -/
  | cqHeadDoorbell (f : FnId) (q : QueueId) (v : BitVec 16)
  /-- SQ_FETCH: The queue manager fetches a submission entry, checks it and dispatches it to its unit (R595). -/
  | sqFetch (q : QueueId) (e : BitVec 512) (l : List (BitVec 128))
  /-- COMPLETION_POST: The device writes a completion entry after the command's data writes (R588). -/
  | completionPost (t : Tag)
  /-- INTERRUPT_COALESCE_TIMER: ITIME expiry signals a CQ's MSI-X vector for unsignalled entries (R600). -/
  | interruptCoalesceTimer (q : QueueId)
  /-- EVENT_POST: A site event is written to the site's EVENT queue from its FIFO (R592). -/
  | eventPost (i : SiteId)
  /-- Q_DMA_ERROR: A DMA failure ends the command with Q_DMA_ERROR (R594). -/
  | qDmaError (t : Tag) (cut : DmaCut)
  /-- BAR64_HALF_READ: A 4-byte read of a 64-bit register half, latching the whole value on the low half (R575); and every other
  read of a function's registers (R574): len bytes of BAR0, or a register of the configuration space whole. -/
  | bar64HalfRead (f : FnId) (r : RegR) (len : Nat)
  /-- BAR64_HALF_WRITE: A 4-byte write of a 64-bit register half, held until the high half is written (R576). -/
  | bar64HalfWrite (f : FnId) (r : Reg64) (high : Bool) (v : BitVec 32)
  /-- REGISTER_WRITE: Write of a register that has no behaviour of its own (R574): the bytes d in BAR0, or the fields that w
  carries. -/
  | registerWrite (f : FnId) (w : RegW) (d : List Byte)
  /-- PCIE_LINK_DOWN: Loss of the data link deletes queues, rolls back slot transactions and resets MSI-X
  (R601). -/
  | pcieLinkDown
  /-- PCIE_LINK_DEGRADED: Link training to a lower speed or width raises the degraded source (R569). -/
  | pcieLinkDegraded (speed : Fin 5) (width : Fin 4)
  /-- FLR: Function-level reset deletes the function's queues and rolls back its transactions (R602). -/
  | flr (f : FnId) (frsOn : Bool)
  /-- VF_ENABLE_CHANGE: Clearing VF Enable or lowering NumVFs removes VFs and passes their sites to the PF
  (R573). -/
  | vfEnableChange (enable : Bool) (n : FnId) (frsOn : Bool)
  /-- D3HOT_TO_D0: A function returns from D3hot to D0 and an FRS message is sent (R604). -/
  | d3hotToD0 (f : FnId) (frsOn : Bool)
  /-- CONT: Execution of a microword with OP CONT, issuing one frame and acting on its other fields (R125). -/
  | cont (i : SiteId) (c : Ecc)
  /-- JMP: Execution of a microword with OP JMP (R129). -/
  | jmp (i : SiteId) (c : Ecc)
  /-- CALL: Execution of a microword with OP CALL, pushing a return entry (R136). -/
  | call (i : SiteId) (c : Ecc)
  /-- RET: Execution of a microword with OP RET, popping an entry (R136). -/
  | ret (i : SiteId) (c : Ecc)
  /-- LOOP: Execution of a microword with OP LOOP (R131). -/
  | loop (i : SiteId) (c : Ecc)
  /-- WAIT: Execution of a microword with OP WAIT (R127). -/
  | wait (i : SiteId) (c : Ecc)
  /-- WAITT: Execution of a microword with OP WAITT (R132). -/
  | waitt (i : SiteId) (c : Ecc)
  /-- HALT: Execution of a microword with OP HALT, whose frame is the site's last (R184). -/
  | halt (i : SiteId) (c : Ecc)
  /-- OP_PAUSE: Execution of a microword with OP PAUSE, pausing the site or acting as HALT (R195). -/
  | opPause (i : SiteId) (c : Ecc)
  /-- HOSTEVT: Execution of a microword with OP HOSTEVT, posting an entry to the site's event queue (R127). -/
  | hostevt (i : SiteId) (c : Ecc)
  /-- ABORT_FORCED: An ABORT waiting longer than ABORT_WAIT becomes a park (R159). -/
  | abortForced (i : SiteId)
  /-- SAFE_POINT_STARVATION: The watchdog reaching 4,096 executions without a safe point parks the site (R163). -/
  | safePointStarvation (i : SiteId)
  /-- FRAME_TAKE: The site's formatters take one frame from the frame FIFO (R21). -/
  | frameTake (i : SiteId)
  /-- YEALM_FETCH: The tier controller delivers a yealm into a site's prefetch buffer (R90). -/
  | yealmFetch (i : SiteId) (e : Fin 64) (idx : Nat) (beyond : Bool) (c : FetchCheck)
  /-- UNDER_RUN: A frame slot falls due while the pending frame cannot be assembled and the under-run action
  applies (R97). -/
  | underRun (i : SiteId)
  /-- PAD_FRAME: A pad frame fills a frame slot under PAD (R99). -/
  | padFrame (i : SiteId)
  /-- STALL_END: The stalled word's vectors arrive and its frame is assembled, closing any pad record (R154). -/
  | stallEnd (i : SiteId)
  /-- MOVER_REFILL: The mover completes a transfer of deep-store yealms into a staging window or head (R77). -/
  | moverRefill (i : SiteId) (e : Fin 64) (n : Nat) (c : MoverCheck)
  /-- PATROL_READ: HBM patrol reads and corrects a location at its slot (R71). -/
  | patrolRead (stack : Fin 4) (f : PatrolFind) (sweepEnd : Bool)
  /-- SITE_PARK: A park order puts the site in FAULTED, discards untaken frames and drives slath state (R186). -/
  | sitePark (i : SiteId) (src : BitVec 16)
  /-- COMPARE_RESULT_LATCH: A frame's compare results are latched and delivered to every consumer in one SCLK
  (R293). -/
  | compareResultLatch (i : SiteId) (samples : List Sample)
  /-- FAIL_LOG_ENQUEUE: A frame's fail-log entries enter the site FIFO or the site enters count-only (R324). -/
  | failLogEnqueue (i : SiteId)
  /-- FAIL_LOG_WRITE: The fail-log writer writes one entry from a site FIFO to HBM (R322). -/
  | failLogWrite
  /-- SPILL_EXTENT: The mover completes the copy of the oldest fail extent into the spill area and frees it
  (R332). -/
  | spillExtent (i : SiteId)
  /-- CAPTURE_RECORD: A capture record is appended to the capture region or routed to the result queue (R339). -/
  | captureRecord (i : SiteId) (queue : Bool)
  /-- EVT_QUALIFY: A PIN or MARKER input completes W active samples and an edge is qualified (R203). -/
  | evtQualify (n : EvtId) (gap : Nat)
  /-- GLITCH: A short active pulse is discarded (R204). -/
  | glitch (n : EvtId) (gap width : Nat)
  /-- EVT_OVERRUN: An edge on a disarmed qualifier is coalesced (R205). -/
  | evtOverrun (n : EvtId) (gap : Nat)
  /-- EVT_HOST: Write of EVT_HOST qualifies HOST events in the SCLK after its apply point (R206). -/
  | evtHost (mask : BitVec 16)
  /-- EVT_LATCH: Six SCLK after qualification, the event's latched copy is set in every assigned active site
  (R207). -/
  | evtLatch (n : EvtId)
  /-- EVT_STUCK: An input active for STUCK_TIMEOUT samples is masked (R208). -/
  | evtStuck (n : EvtId)
  /-- EVT_RELEASE: A masked input is released after W inactive samples (R209). -/
  | evtRelease (n : EvtId)
  /-- RIDGE_PULSE: A ridge pulse is registered and the ridge set evaluated (R556). -/
  | ridgePulse (ph : Fin 1250000)
  /-- RIDGE_IGNORED: A rising edge within 80 SCLK of a registered one is not registered (R557). -/
  | ridgeIgnored (ph : Fin 1250000)
  /-- RIDGE_FIRE_START: Write of 1 to RIDGE_FIRE starts the ridge generator (R554). -/
  | ridgeFireStart
  /-- RIDGE_FIRE_STOP: Write of 2 to RIDGE_FIRE stops the periodic generator (R554). -/
  | ridgeFireStop
  /-- RIDGE_GENERATE: The generator emits a 4-SCLK ridge pulse on RIDGE_OUT (R554). -/
  | ridgeGenerate
  /-- RIDGE_CAL: Clock command that measures ridge arrivals with TMU 8 and sets RIDGE_EPS and SKEW_TRIM (R559). -/
  | ridgeCal
  /-- RIDGE_CAL_DONE: Ridge calibration ends, applying new values or failing with RIDGE_CAL_FAIL (R559). It carries
  the edges that arrived within 10 s, their mean phase and its deviation in fs, and whether the 10 s are over. -/
  | ridgeCalDone (edges : Nat) (phi sdev : Int) (late : Bool)
  /-- WFE_START: A START registered at a waveform engine enters DEAD and sets the slot grid (R373). -/
  | wfeStart (i : SiteId)
  /-- WFE_STOP: A STOP registered at a waveform engine, taken at the first eligible boundary (R373). -/
  | wfeStop (i : SiteId)
  /-- WFE_JUMP: A JUMP request registered at a waveform engine (R377). -/
  | wfeJump (i : SiteId)
  /-- WFE_TRIGGER: A TRIGGER registered at a waveform engine releases a waiting step or sets TRIG_PENDING
  (R374). -/
  | wfeTrigger (i : SiteId)
  /-- WFE_FLIST: An FLIST request registered at a waveform engine (R383). -/
  | wfeFlist (i : SiteId)
  /-- GRANULE_BOUNDARY: At a granule boundary the engine ends dead time, starts plays, takes jumps, STOP or
  FLIST (R369). -/
  | granuleBoundary (e : EngId)
  /-- WF_SAMPLE_LATE: A granule whose data is missing is output as PARK_WORD and a recovery dead time begins
  (R389). -/
  | wfSampleLate (e : EngId)
  /-- WF_RECOVERY_END: The recovery dead time ends and the play resumes (R389). -/
  | wfRecoveryEnd (e : EngId)
  /-- WF_SAMPLE_UE: An uncorrectable error in sample data fails the segment and faults the engine (R390). -/
  | wfSampleUe (e : EngId) (stack : Fin 4)
  /-- TMUC_ARM: A site's TMUC ARM registered at the TMU starts an arming (R409). -/
  | tmucArm (i : SiteId)
  /-- TMUC_START: A site's TMUC START opens the start gate of a GATED arming (R415). -/
  | tmucStart (i : SiteId)
  /-- TMUC_STOP: A site's TMUC STOP opens the next stop gate of a GATED arming (R415). -/
  | tmucStop (i : SiteId)
  /-- TMUC_DISARM: A site's TMUC DISARM ends the arming (R411). -/
  | tmucDisarm (i : SiteId)
  /-- TMU_EDGE_CAPTURE: A TMU element captures an edge of its source (R414). -/
  | tmuEdgeCapture (u : TmuId) (elem : Fin 9) (coarse : BitVec 40) (fine : Fin 2048) (rise : Bool) (at_ : Int)
  /-- TMU_STOP_TIMEOUT: A used stop not captured within TIMEOUT is missed (R417). -/
  | tmuStopTimeout (u : TmuId) (k : Fin 8)
  /-- FREQUENCY_GATE_END: A FREQUENCY gate ends and the mean period is formed (R420). -/
  | frequencyGateEnd (u : TmuId)
  /-- TMU_SAMPLE_COMPLETE: A sample completes and its values enter the statistics; the arming may end (R425). -/
  | tmuSampleComplete (u : TmuId)
  /-- TMU_UNLOCK: A TMU master withy unlocks and the arming ends UNLOCKED (R403). -/
  | tmuUnlock (u : TmuId)
  /-- TMU_CAL_RELEASE: Calibration releases a TMU and a WAIT_CAL arming proceeds (R427). -/
  | tmuCalRelease (u : TmuId)
  /-- WITHY_UNLOCK: An octet's master withy unlocks and parks its sites (R254). -/
  | withyUnlock (o : OctId)
  /-- WITHY_RELOCK: An unlocked withy relocks once its clock is good (R255). -/
  | withyRelock (w : Withy)
  /-- PE_LOS: Input swing below threshold for 1 us sets LOS (R267). -/
  | peLos (c : ChanId)
  /-- LOS_CLEAR: Swing at or above threshold for 1 us clears LOS (R268). -/
  | losClear (c : ChanId)
  /-- NATIVE: Calibration command that starts a native run of the named parts and banks (R443). -/
  | native (parts : BitVec 6) (banks : BitVec 8) (fm vm : Nat)
  /-- NATIVE_BANK_COMPLETE: A bank's native parts complete and its results are published or discarded (R447). -/
  | nativeBankComplete (b : BankId) (r : BankMeas)
  /-- NATIVE_ABORT: Calibration command that ends the native run after the measurement in progress (R448). -/
  | nativeAbort
  /-- LIVE_NOW: Calibration command that queues one eligible channel for live calibration (R450). -/
  | liveNow (c : LiveReq)
  /-- CAL_TICK: Every 100 ms the controller reads bank temperatures and queues eligible channels (R450). It carries what the
  references measure and the error of each voltage DAC that the pass reads, in 1/16 LSB (R439, R467). -/
  | calTick (refs : RefMeas) (dacs : List (DacId × Int))
  /-- CAL_BLOCK_END: A calibration measurement block completes (R451). -/
  | calBlockEnd (b : BankId) (x : CalDone) (fm vm : Nat)
  /-- CALREF_RECOVERED: Live calibration resumes after CALREF passes for 1 s (R439). -/
  | calrefRecovered
  /-- DIRECT_CAL_ABANDON: Direct calibration is abandoned within 200 us when the channel's site is armed (R453). -/
  | directCalAbandon (b : BankId)
  /-- SHADOW_JOIN: A shadowing engine joins a channel at a frame boundary (R455). -/
  | shadowJoin (b : BankId)
  /-- ALIGN_MEASURE: A lane residual measurement completes and the spar trim is adjusted or the calibration
  abandoned (R456). -/
  | alignMeasure (b : BankId) (m : AlignMeas)
  /-- SWAP_REQUEST: The controller requests a SWAP interrupt of the channel's site (R457). -/
  | swapRequest (b : BankId)
  /-- SPAR_SWITCH: The serving engine changes between two frames at an eave point (R457). -/
  | sparSwitch (i : SiteId)
  /-- MEASURE_PUBLISH: A MEASURE result is published in offset steps of at most 2,500 fs (R458). -/
  | measurePublish (b : BankId) (d : List Int)
  /-- RETURN_STEP: An EAVE step moves the spar trim toward the own engine (R459). -/
  | returnStep (b : BankId) (dd de : Option Int)
  /-- SWAP_BACK_COMPLETE: The balls return to the own engine and the channel's calibration is recorded (R460). It names the
  bank and the spar that served. -/
  | swapBackComplete (b : BankId) (p : SparId)
  /-- SWAP_WAIT_EXPIRY: A SWAP not switched within SWAP_WAIT is withdrawn (R461). -/
  | swapWaitExpiry (b : BankId)
  /-- SPAR_RECLAIM: A swap spar needed by the collector is returned at an eave point or after 1 ms (R38). -/
  | sparReclaim (p : SparId)
  /-- LEGACY_PASS_END: A legacy pass ends and offsets are moved toward the bank mean (R470). -/
  | legacyPassEnd (b : BankId)
  /-- SEAL_TOKEN: Write of a seal token that opens a seal-open session or is refused (R474). -/
  | sealToken (t : TokenWrite)
  /-- SEAL_CLOSE: Write of 1 to SEAL_CLOSE closes the session (R476). -/
  | sealClose (v : Bool)
  /-- SEAL_DURATION_EXPIRY: The open session closes at the end of its DURATION (R476). -/
  | sealDurationExpiry
  /-- LVL_LOAD: Write of LVL_LOAD issues bank or device load strobes (R495). -/
  | lvlLoad (v : BitVec 16)
  /-- LOAD_STROBE: A bank's load strobe loads every pending DAC code, holding groups as the deglitcher requires
  (R496). -/
  | loadStrobe (b : BankId)
  /-- DEGLITCH_RELEASE: Held outputs of a group are released together t_dg_hold after the strobe (R497). -/
  | deglitchRelease (b : BankId)
  /-- RERANGE_END: Re-ranging ends and the hold is released after t_dg_hold (R499). -/
  | rerangeEnd (d : DacId)
  /-- LVL_COMPLIANCE: A current DAC outside compliance for 10 us sets COMPLIANCE or OPEN_LOAD (R500). -/
  | lvlCompliance (d : DacId) (openLoad : Bool)
  /-- LVL_OVERLOAD: A voltage DAC in current limit for 10 us sets OVERLOAD (R501). -/
  | lvlOverload (d : DacId)
  /-- LVL_REF_FAULT: A bank string reference outside ±1 % clears REF_OK (R503). -/
  | lvlRefFault (b : BankId) (outside : Bool)
  /-- REF_EDGE_ABSENT: A reference's edge-absence detector trips and the reference is declared failed (R530). -/
  | refEdgeAbsent (r : Fin 2)
  /-- PLL_LOCK_LOSS: A PLL locked to a reference loses lock and the reference is declared failed (R530). -/
  | pllLockLoss (r : Fin 2)
  /-- MONITOR_WINDOW: Each 1 ms monitor window updates MUTUAL_DEV, SSC detection and mismatch judgement (R530). -/
  | monitorWindow (dev : Int) (modulation : Nat)
  /-- SSC_DETECTED_CLEAR: SSC_DETECTED returns to 0 after 1 s without a modulated window (R518). -/
  | sscDetectedClear
  /-- REF_GOOD: A reference becomes GOOD after t_ref_qual of edges and PLL lock (R531). -/
  | refGood (r : Fin 2)
  /-- GROUP_RESTART: A stopped group restarts on its fallback or on a qualified reference (R533). -/
  | groupRestart (g : Fin 3)
  /-- CLOCK_RESTART: Both references failed; the device resumes bring-up from P1 once a reference is GOOD
  (R539). -/
  | clockRestart
  /-- SWITCH: Clock command for a planned switch of a group to a named source (R542). -/
  | switch (g : Fin 3) (r : Fin 2)
  /-- PLANNED_SWITCH_DONE: A planned switch completes and the domains restart 16 cycles later (R543). -/
  | plannedSwitchDone (g : Fin 3)
  /-- AUTO_REVERT: A group on its fallback returns to its primary after 100 ms GOOD (R541). -/
  | autoRevert (g : Fin 3)
  /-- DUTCLK_CHANGE: A DUT clock setting change stops the output and restarts it within t_dut_relock (R551). -/
  | dutclkChange (k : Fin 8)
  /-- DUTCLK_RESTART: The DUT clock output restarts with a full-width first pulse (R551). -/
  | dutclkRestart (k : Fin 8)
  /-- FAULT_RAISE: A source raise reaches the collector and takes the effects of its severity (R698). -/
  | faultRaise (n : Nat) (ext : List (BitVec 16 × SiteMask))
  /-- RAIL_DISAGREE: A dual-rail pair agreeing for more than 2 collector clocks raises RAIL_DISAGREE (R695). -/
  | railDisagree (src : BitVec 16) (back : Option Bool)
  /-- SELFTEST_VERDICT: A targeted self-test ends with a verdict, possibly escalating and retiring (R707). -/
  | selftestVerdict (src : Option (BitVec 16)) (pass : Bool) (units : List RUnit)
  /-- SELFTEST_DEFERRED: A test still waiting after SELFTEST_WAIT receives DEFERRED (R709). -/
  | selftestDeferred (src : BitVec 16)
  /-- DEFERRED_TEST_FAIL: A deferred test run later fails and raises DEFERRED_TEST_FAIL (R709). -/
  | deferredTestFail (src : BitVec 16) (units : List RUnit)
  /-- RETIREMENT_DURABLE: A retirement record becomes durable and the unit is retired with spar substitution
  (R710). -/
  | retirementDurable
  /-- HANDLING_END: Handling ends and the episode becomes HELD or CLEARED (R705). -/
  | handlingEnd
  /-- FAULT_CLEAR: Write of FAULT_CLEAR clears HELD episodes whose causes are inactive (R706). -/
  | faultClear (p : Path) (num : BitVec 32)
  /-- TEST: Self-test command that runs a unit's targeted test and reports the verdict (R712). -/
  | test (u : RUnit)
  /-- UNRETIRE: Self-test command that tests a retired unit and frees it on a pass (R712). -/
  | unretire (u : RUnit)
  /-- LOCKSTEP_MISMATCH: A lockstep difference stops both cores and restarts firmware (R653). -/
  | lockstepMismatch
  /-- SPAD_COLLISION: Both ports write one scratchpad word in one clock (R656); and every other access of a clock in
  the management memory map (Table 15.1, R654 to R657): the word of an address at port A, the processor's in machine or user mode, and
  at port B, the fabric's, none where the port is idle. An access that enables no byte lane is a read. -/
  | spadCollision (pa pb : Option (BitVec 32)) (machine : Bool) (enA enB : BitVec 4) (a b : BitVec 32)
  /-- SCRATCHPAD_SELFTEST_CHUNK: The self-test saves, march-tests and restores one 64-word chunk (R658). -/
  | scratchpadSelftestChunk (k : Fin 4) (accessed fails : Bool)
  /-- FAULT_CHECK_CONVERSION: A sensor's fault-check conversion is compared with its limits (R660). -/
  | faultCheckConversion (x : Sensor) (v : Int)
  /-- TELEMETRY_CONVERSION: A telemetry conversion refreshes a sensor's averaged value (R660). -/
  | telemetryConversion (x : Sensor) (v : Int)
  /-- EVLOG_ENTRY: An event-log entry enters the RAM buffer or is dropped (R664). -/
  | evlogEntry
  /-- EVLOG_PROGRAM: Buffered event-log entries are programmed into the ring of both dies (R664). -/
  | evlogProgram (n : Nat)
  /-- NOR_PROGRAM_DONE: A NOR program or erase completes and is verified on both dies (R666). -/
  | norProgramDone (e : NorEnd)
  /-- COMPACTION: Compaction writes a new checkpoint epoch and frees ring sectors (R674). -/
  | compaction (why : Compact)
  /-- NOR_SCRUB: The 7-day scrub reads every page and refreshes sectors needing correction (R677). -/
  | norScrub (f : ScrubFind)
  /-- ERASE_SUSPEND: A background erase is suspended within 50 us for foreground work (R678). -/
  | eraseSuspend (resume : Bool)
  /-- JOURNAL_BUDGET: More than 3,000 persistent commits in an hour raise JOURNAL_BUDGET (R679). -/
  | journalBudget
  /-- FW_IMAGE: Segment write of a firmware image into the inactive slot, checked at its last segment (R681). -/
  | fwImage (p : Path) (offset : Nat) (data : List Byte)
  /-- ACTIVATE: Firmware command that makes a VALID inactive slot TRIAL (R682). -/
  | activate
  /-- CONFIRM: Firmware command that makes the running TRIAL slot ACTIVE and advances fuses (R682). -/
  | confirm
  /-- CANCEL: Firmware command that returns an unbooted TRIAL slot to VALID (R682). -/
  | cancel
  /-- ERASE: Firmware command that makes the inactive slot EMPTY (R682). -/
  | erase
  /-- CONFIRM_WINDOW_EXPIRY: No CONFIRM within CONFIRM_WINDOW reverts to the previous slot at the next reset
  (R683). -/
  | confirmWindowExpiry
  /-- LC_TOKEN: Write of a lifecycle token that performs a transition or is refused (R684). -/
  | lcToken (t : List Byte)
  /-- SEAL_KEY: Write of the seal-verification key during the key window (R687). -/
  | sealKey (k : List Byte)
  /-- KEY_WINDOW_EXPIRY: The key window ends with no key installed (R687). -/
  | keyWindowExpiry
  /-- TAMPER: TAMPER_N low for 10 us zeroises, closes sessions and wipes the secure partition (R688). -/
  | tamper
  /-- POWER_ON: VIN rising through 4.4 V starts bring-up from P0 (R730). -/
  | powerOn (node : Fin 64)
  /-- PHASE_END: A bring-up phase completes its work and the next phase starts (R721). -/
  | phaseEnd (tamperLow drsOn : Bool)
  /-- P1_FALLBACK_START: A group starts on its fallback 1 ms after the fallback is GOOD without the primary
  (R722). -/
  | p1FallbackStart (g : Fin 3)
  /-- BOOT_ROM: The boot ROM chooses, checks and loads a firmware image (R723). -/
  | bootRom (words : List (Nat × MWord)) (dir : List VEntry) (version : BitVec 32)
  /-- KZ_FWLOAD: JTAG instruction writing an image into slot A when no slot boots (R724). -/
  | kzFwload (img : List Byte)
  /-- JOURNAL_REPLAY: P3 replays the checkpoint and marked records to restore P and S objects (R671). It carries what
  die 0 and die 1 read, with the record's JSEQ, where that is not what was programmed there. -/
  | journalReplay (d0 d1 : List (Nat × List Byte))
  /-- HBM_TRAINING: HBM stacks are trained, or HBM is taken out of service (R726). -/
  | hbmTraining (failed : Option (Fin 4))
  /-- DDR5_TRAINING: DDR5 channels are trained from the stored record or fully (R727). -/
  | ddr5Training (caps : Vector Nat 8) (recordServes : Bool) (failed : List (Fin 4)) (record : List Byte)
  /-- QUICK_SELF_TEST: P5 runs the quick self-test of every unit (R729). -/
  | quickSelfTest (failing : List (BitVec 16))
  /-- PERST: PERST_N low for 1 us resets the device and holds at the end of P3 (R733). -/
  | perst
  /-- PERST_DEASSERT: PERST_N deasserted lets bring-up continue with P4 (R733). -/
  | perstDeassert
  /-- DEVICE: DEV_RESET 01h, a device reset taking effect 1 ms after the answer (R734). -/
  | device
  /-- FIRMWARE: DEV_RESET 02h, a firmware reset taking effect 1 ms after the answer (R734). -/
  | firmware
  /-- RESET_TAKES_EFFECT: An accepted reset parks sites, completes NOR programs and clears state (R731). -/
  | resetTakesEffect
  /-- VIN_PFW: VIN below PFW_THRESHOLD for t_pfw_det sets PFW_ACTIVE (R736). -/
  | vinPfw
  /-- PFW_CLEAR: VIN 200 mV above the threshold for 1 ms clears PFW_ACTIVE (R736). -/
  | pfwClear
  /-- UVLO: VIN below 4.2 V stops every domain and undrives outputs (R739). -/
  | uvlo
  /-- VIN_LOW: VIN below 4.5 V for 10 us raises VIN_LOW (R740). -/
  | vinLow (back : Bool)
  /-- VIN_HIGH: VIN above 18.5 V for 10 us raises VIN_HIGH (R740). -/
  | vinHigh (back : Bool)
  /-- PCIE_LINK_UP: The PCI Express data link comes up after training and LINK_SPEED and LINK_WIDTH take the
  trained values, letting waiting site events be posted (R568). -/
  | pcieLinkUp (speed : Fin 5) (width : Fin 4)
  /-- TAMPER_RELEASE: TAMPER_N returns high, TAMPER_ACTIVE clears and seal tokens and key installs are no longer
  refused on that ground (R688). -/
  | tamperRelease
  /-- REF_QUALIFYING: Edges reappear on an ABSENT reference and its state becomes QUALIFYING, starting the
  qualification time and the P1 budget (R531). -/
  | refQualifying (r : Fin 2)
  /-- LVL_DETECT_CLEAR: A compliance, open-load or overload condition absent for 10 us clears its STATUS bit
  (R500). -/
  | lvlDetectClear (d : DacId) (which : Fin 3)
  /-- DIMM_TEMP_READ: Every 32 ms the device reads each DIMM hub's temperature over the sideband bus into
  DIMM_TEMP_MAX (R760). -/
  | dimmTempRead (first : Int) (rest : List Int)
  deriving DecidableEq, Repr

end Sys2Proof
end

