-- ==== Sys2Proof/WellFormed.lean ====
section
/-! DEFINITION. Well-formed commands: operands within the fields and buffers that the manual gives them (Tables 2.4, 3.2,
7.6, 13.5, 13.6, 14.1, 14.7, 14.8). -/
namespace Sys2Proof

/-- A 32-bit field. -/
def u32 (n : Nat) : Bool := decide (n < 2 ^ 32)
/-- A 64-bit field. -/
def u64 (n : Nat) : Bool := decide (n < 2 ^ 64)

/-- The operands of a dictionary operation fit their fields (Tables 13.5, 14.8). -/
def DictArgs.wf (a : DictArgs) : Bool := u32 a.offset && decide (a.len ≤ 4096) && decide (a.apply < 4) && decide (a.data.length ≤ 4096)

/-- A dictionary operation's origin carries operands that fit. -/
def Req.wf : Req → Bool
  | .window _ _ => true
  | .direct _ a => a.wf

/-- A register write lies in BAR0; a register of the configuration space carries its fields. -/
def RegW.wf (w : RegW) (d : List Byte) : Bool :=
  match w with
  | .bar off => decide (1 ≤ d.length) && decide (off + d.length ≤ 2 ^ 20)
  | _ => d.isEmpty

/-- A register read lies in BAR0. -/
def RegR.wf (r : RegR) (len : Nat) : Bool :=
  match r with
  | .bar off => decide (1 ≤ len) && decide (off + len ≤ 2 ^ 20)
  | _ => true

/-- The command's operands fit their fields. -/
def Instr.wf : Instr → Bool
  | .segAlloc _ _ _ len => u32 len
  | .segWrite _ _ first count data =>
    u32 first && decide (1 ≤ count) && u32 count && (data.length == 4096 * count || data.length == 128 * count)
  | .segSeal _ _ => true
  | .segUnseal _ _ => true
  | .segRead _ _ first count => u32 first && decide (1 ≤ count.count) && u32 count.count
  | .segMigrate _ _ _ => true
  | .segMigrateDone _ => true
  | .segFree _ _ => true
  | .segQuery _ _ => true
  | .streamOpen _ _ _ _ _ => true
  | .streamReset _ _ => true
  | .streamClose _ _ => true
  | .streamFeed _ data => data.length % 4096 == 0 && decide (data.length ≤ 2 ^ 32)
  | .streamFeedResume _ => true
  | .resultBuf _ len => u32 len
  | .resultBufTimeout _ => true
  | .csWrite _ addr words => decide (addr < 0x20000) && decide (1 ≤ words.length) && decide (words.length ≤ 4096)
  | .csRead _ addr count errs =>
    decide (addr < 0x20000) && decide (1 ≤ count) && decide (count ≤ 4096) && errs.all (fun e => decide (addr ≤ e.1) && decide (e.1 < addr + count))
  | .csVerify _ addr count errs =>
    decide (addr < 0x20000) && decide (1 ≤ count) && decide (count ≤ 0x20000) && errs.all (fun e => decide (addr ≤ e.1) && decide (e.1 < addr + count))
  | .csDomainWrite _ l => decide (l.length ≤ 81920)
  | .load _ _ => true
  | .unload _ _ => true
  | .arm _ _ => true
  | .start _ _ => true
  | .startWhenReady _ => true
  | .pause _ _ => true
  | .resume _ _ => true
  | .stop _ _ => true
  | .abort _ _ => true
  | .reset _ _ => true
  | .ready _ => true
  | .siteStopped _ => true
  | .sitePaused _ => true
  | .resumeRunning _ => true
  | .failRead _ _ first count _ => u64 first && u32 count
  | .captureRead _ _ offset len _ => u64 offset && u32 len
  | .tmuArm _ _ => true
  | .tmuDisarm _ _ => true
  | .read r => r.wf
  | .write r => r.wf
  | .begin r => r.wf
  | .commit r => r.wf
  | .rollback r => r.wf
  | .journalRecordDurable _ _ => true
  | .applyPoint _ => true
  | .commitMarkDurable _ => true
  | .txnTimeout _ => true
  | .domainWriteTimeout _ => true
  | .domainSnapshotExpiry _ => true
  | .kdpFrame _ bytes => decide (bytes.length ≤ 1500)
  | .ack _ => true
  | .notifyRepeat => true
  | .plcaBeaconLost => true
  | .plcaBeacon => true
  | .mailboxRequest bytes => decide (bytes.length ≤ 8192)
  | .create _ => true
  | .delete _ => true
  | .queueAbsent _ => true
  | .qRead _ => true
  | .sqTailDoorbell _ _ _ => true
  | .cqHeadDoorbell _ _ _ => true
  | .sqFetch _ _ _ => true
  | .completionPost _ => true
  | .interruptCoalesceTimer _ => true
  | .eventPost _ => true
  | .qDmaError _ _ => true
  | .bar64HalfRead _ r len => r.wf len
  | .bar64HalfWrite _ _ _ _ => true
  | .registerWrite _ w d => w.wf d
  | .pcieLinkDown => true
  | .pcieLinkDegraded _ _ => true
  | .flr _ _ => true
  | .vfEnableChange _ _ _ => true
  | .d3hotToD0 _ _ => true
  | .cont _ _ => true
  | .jmp _ _ => true
  | .call _ _ => true
  | .ret _ _ => true
  | .loop _ _ => true
  | .wait _ _ => true
  | .waitt _ _ => true
  | .halt _ _ => true
  | .opPause _ _ => true
  | .hostevt _ _ => true
  | .abortForced _ => true
  | .safePointStarvation _ => true
  | .frameTake _ => true
  | .yealmFetch _ _ _ _ _ => true
  | .underRun _ => true
  | .padFrame _ => true
  | .stallEnd _ => true
  | .moverRefill _ _ _ _ => true
  | .patrolRead _ _ _ => true
  | .sitePark _ _ => true
  | .compareResultLatch _ samples => samples.all (fun x => decide (x.vec < 4) && decide (x.strobe < 4) && !x.seen.isEmpty)
  | .failLogEnqueue _ => true
  | .failLogWrite => true
  | .spillExtent _ => true
  | .captureRecord _ _ => true
  | .evtQualify _ _ => true
  | .glitch _ _ _ => true
  | .evtOverrun _ _ => true
  | .evtHost _ => true
  | .evtLatch _ => true
  | .evtStuck _ => true
  | .evtRelease _ => true
  | .ridgePulse _ => true
  | .ridgeIgnored _ => true
  | .ridgeFireStart => true
  | .ridgeFireStop => true
  | .ridgeGenerate => true
  | .ridgeCal => true
  | .ridgeCalDone _ _ _ _ => true
  | .wfeStart _ => true
  | .wfeStop _ => true
  | .wfeJump _ => true
  | .wfeTrigger _ => true
  | .wfeFlist _ => true
  | .granuleBoundary _ => true
  | .wfSampleLate _ => true
  | .wfRecoveryEnd _ => true
  | .wfSampleUe _ _ => true
  | .tmucArm _ => true
  | .tmucStart _ => true
  | .tmucStop _ => true
  | .tmucDisarm _ => true
  | .tmuEdgeCapture _ _ _ _ _ _ => true
  | .tmuStopTimeout _ _ => true
  | .frequencyGateEnd _ => true
  | .tmuSampleComplete _ => true
  | .tmuUnlock _ => true
  | .tmuCalRelease _ => true
  | .withyUnlock _ => true
  | .withyRelock _ => true
  | .peLos _ => true
  | .losClear _ => true
  | .native _ _ _ _ => true
  | .nativeBankComplete _ _ => true
  | .nativeAbort => true
  | .liveNow _ => true
  | .calTick _ dacs => dacs.all (fun e => decide (e.2.natAbs < 2 ^ 31))
  | .calBlockEnd _ _ _ _ => true
  | .calrefRecovered => true
  | .directCalAbandon _ => true
  | .shadowJoin _ => true
  | .alignMeasure _ _ => true
  | .swapRequest _ => true
  | .sparSwitch _ => true
  | .measurePublish _ _ => true
  | .returnStep _ _ _ => true
  | .swapBackComplete _ _ => true
  | .swapWaitExpiry _ => true
  | .sparReclaim _ => true
  | .legacyPassEnd _ => true
  | .sealToken t => decide (t.data.length ≤ 192)
  | .sealClose _ => true
  | .sealDurationExpiry => true
  | .lvlLoad _ => true
  | .loadStrobe _ => true
  | .deglitchRelease _ => true
  | .rerangeEnd _ => true
  | .lvlCompliance _ _ => true
  | .lvlOverload _ => true
  | .lvlRefFault _ _ => true
  | .refEdgeAbsent _ => true
  | .pllLockLoss _ => true
  | .monitorWindow dev _ => decide (dev.natAbs < 2 ^ 31)
  | .sscDetectedClear => true
  | .refGood _ => true
  | .groupRestart _ => true
  | .clockRestart => true
  | .switch _ _ => true
  | .plannedSwitchDone _ => true
  | .autoRevert _ => true
  | .dutclkChange _ => true
  | .dutclkRestart _ => true
  | .faultRaise _ _ => true
  | .railDisagree _ _ => true
  | .selftestVerdict _ _ _ => true
  | .selftestDeferred _ => true
  | .deferredTestFail _ _ => true
  | .retirementDurable => true
  | .handlingEnd => true
  | .faultClear _ _ => true
  | .test _ => true
  | .unretire _ => true
  | .lockstepMismatch => true
  | .spadCollision _ _ _ _ _ _ _ => true
  | .scratchpadSelftestChunk _ _ _ => true
  | .faultCheckConversion _ v => decide (v.natAbs < 2 ^ 31)
  | .telemetryConversion _ v => decide (v.natAbs < 2 ^ 31)
  | .evlogEntry => true
  | .evlogProgram _ => true
  | .norProgramDone _ => true
  | .compaction _ => true
  | .norScrub _ => true
  | .eraseSuspend _ => true
  | .journalBudget => true
  | .fwImage _ offset data => u32 offset && decide (data.length ≤ 4096)
  | .activate => true
  | .confirm => true
  | .cancel => true
  | .erase => true
  | .confirmWindowExpiry => true
  | .lcToken t => decide (t.length ≤ 248)
  | .sealKey k => decide (k.length ≤ 96)
  | .keyWindowExpiry => true
  | .tamper => true
  | .powerOn _ => true
  | .phaseEnd _ _ => true
  | .p1FallbackStart _ => true
  | .bootRom words dir _ =>
    words.all (fun e => decide (e.1 < 0x2000)) && dir.all (fun e => decide (e.name.length ≤ 24))
  | .kzFwload img => decide (img.length ≤ 16777216)
  | .journalReplay _ _ => true
  | .hbmTraining _ => true
  | .ddr5Training _ _ _ record => decide (record.length ≤ 65536)
  | .quickSelfTest _ => true
  | .perst => true
  | .perstDeassert => true
  | .device => true
  | .firmware => true
  | .resetTakesEffect => true
  | .vinPfw => true
  | .pfwClear => true
  | .uvlo => true
  | .vinLow _ => true
  | .vinHigh _ => true
  | .pcieLinkUp _ _ => true
  | .tamperRelease => true
  | .refQualifying _ => true
  | .lvlDetectClear _ _ => true
  | .dimmTempRead first rest => decide (first.natAbs < 2 ^ 31) && rest.all (fun v => decide (v.natAbs < 2 ^ 31))

end Sys2Proof
end

