-- ==== Sys2Proof/Config.lean ====
section
/-! DEFINITION. What one device fixes and the manual leaves open: the device's own constants and the free values.
None has a body, so nothing can be proved of the value of any of them. -/
namespace Sys2Proof.Config
open Sys2Proof

/-- 1140h.01 VENDOR_ID: by device (Table 13.12). -/
opaque vendorId : BitVec 16
/-- 1000h.04 SILICON_REV: by device (Table 14.11). -/
opaque siliconRev : BitVec 16
/-- 1100h.02 MAC_ADDR bits 47 to 0: by device (Table 14.11). -/
opaque macAddr : BitVec 48
/-- 1000h.03 SERIAL: by device (Table 14.11). -/
opaque serial : List Byte
/-- The Device Serial Number of the configuration space: by device (Table 13.1). -/
opaque deviceSerial : BitVec 64
/-- 7820h.01 ROOT_KEY_HASH: fused (Table 15.12). -/
opaque rootKeyHash : List Byte

/-- The words of the boot ROM: by device (Table 15.1). -/
opaque bootRom : Nat → BitVec 32

/-- FREE VALUE: the n-th value that the manual leaves open, drawn by the step from the counter State.free. -/
opaque freeInt : Nat → Int
/-- FREE VALUE: the n-th byte string that the manual leaves open (a challenge, a nonce). -/
opaque freeBytes : Nat → List Byte

/-- FREE VALUE: the error of the sine table's points 0 to 4,095, in units of 2^-40; R360 bounds it, and the sine stage
applies that bound (Machine/Wave.lean). -/
opaque sineError : Nat → Int

/-- FREE VALUE: the delay in fs of a channel's own pad path in near loopback: PE_DD to PE_CH by channel, PE_DE to PE_CL by
256 + channel (R295). -/
opaque padPath : Nat → Int

/-- SHA-384 (the manual names it and defines no other value): left as an uninterpreted function. -/
opaque sha384 : List Byte → List Byte
/-- Whether 96 bytes are a point of the curve P-384 (the manual names the curve): left as an uninterpreted function. -/
opaque p384Point : List Byte → Bool
/-- ECDSA verification of a message's signature under a key: left as an uninterpreted function. -/
opaque ecdsaOk : (key msg sig : List Byte) → Bool

end Sys2Proof.Config
end

