-- ==== Sys2Proof/Machine/Objects.lean ====
section
/-! DEFINITION. The object dictionary's tables (R609 to R615 and the object tables of every chapter): for each
object its subindex, name, value type, access code, persistence class, default and range (Tables 0.5, 0.6, 14.1). -/
namespace Sys2Proof.Machine.Objects
open Sys2Proof

/-- Value types (R610, Table 14.1); u and i give the size in bytes. -/
inductive Ty where
  | bool | u (n : Nat) | i (n : Nat) | f32 | str | domain (max : Nat)
  deriving DecidableEq, Repr

/-- Access codes (Table 0.5). -/
inductive Acc where
  | const | ro | rw | wo | rwt | sealed
  deriving DecidableEq, Repr

/-- Persistence classes (Table 0.6); const objects have none (R3). -/
inductive Per where
  | none | V | P | S
  deriving DecidableEq, Repr

/-- Range checks of the object tables: rng a range, mul a multiple of m, orv one further value, oneOf a list,
rsv reserved bits that must be zero (R14). -/
inductive Chk where
  | any | rng (lo hi : Int) | mul (m : Int) (c : Chk) | orv (v : Int) (c : Chk) | oneOf (l : List Int)
  | rsv (mask : Nat) (c : Chk)
  deriving DecidableEq, Repr

/-- The subindexes of a row: one, a range, or one in each of the 16 edge sets (R229). -/
inductive Sel where
  | one (s : Nat) | rng (lo hi : Nat) | step (lo : Nat)
  deriving DecidableEq, Repr

/-- One row of an object table. -/
structure Row where
  /-- subindexes -/
  sel : Sel
  /-- the manual's name -/
  name : String
  /-- value type -/
  ty : Ty
  /-- access code -/
  acc : Acc
  /-- persistence class -/
  per : Per
  /-- default of the table; where it depends on the unit, see dflt -/
  dv : Int
  /-- range and reserved bits -/
  chk : Chk
  deriving DecidableEq, Repr

/-- The rows at base index + unit for the units 0 to count - 1. -/
structure Group where
  /-- base index -/
  base : Nat
  /-- number of units -/
  count : Nat
  /-- rows -/
  rows : List Row
  deriving DecidableEq, Repr

/-- The objects at 1000h (rule and table of its chapter). -/
def rows1000 : List Row :=
  [⟨.one 0x01, "VENDOR_NAME", .str, .const, .none, 0, .any⟩,
   ⟨.one 0x02, "PRODUCT", .str, .const, .none, 0, .any⟩,
   ⟨.one 0x03, "SERIAL", .str, .const, .none, 0, .any⟩,
   ⟨.one 0x04, "SILICON_REV", (.u 2), .const, .none, 0, .any⟩,
   ⟨.one 0x05, "DICT_VERSION", (.u 4), .const, .none, 65536, .any⟩]

/-- The objects at 1008h (rule and table of its chapter). -/
def rows1008 : List Row :=
  [⟨.one 0x01, "FAM_MEMBER", (.u 1), .const, .none, 4, .any⟩,
   ⟨.one 0x02, "FAM_BANKS", (.u 1), .const, .none, 8, .any⟩,
   ⟨.one 0x03, "FAM_CHANNELS", (.u 2), .const, .none, 256, .any⟩,
   ⟨.one 0x04, "FAM_SITES", (.u 1), .const, .none, 32, .any⟩,
   ⟨.one 0x05, "FAM_SPARS", (.u 1), .const, .none, 16, .any⟩,
   ⟨.one 0x06, "FAM_LEVEL_DACS", (.u 2), .const, .none, 192, .any⟩,
   ⟨.one 0x07, "FAM_TMUS", (.u 1), .const, .none, 10, .any⟩,
   ⟨.one 0x08, "FAM_WF_ENGINES", (.u 1), .const, .none, 8, .any⟩,
   ⟨.one 0x09, "FAM_HBM_STACKS", (.u 1), .const, .none, 4, .any⟩,
   ⟨.one 0x0a, "FAM_DDR5_CHANNELS", (.u 1), .const, .none, 4, .any⟩]

/-- The objects at 1100h (rule and table of its chapter). -/
def rows1100 : List Row :=
  [⟨.one 0x01, "NODE_ID", (.u 1), .ro, .V, 0, .any⟩,
   ⟨.one 0x02, "MAC_ADDR", (.u 8), .const, .none, 0, .any⟩,
   ⟨.one 0x03, "PLCA_EN", .bool, .rw, .P, 1, .any⟩,
   ⟨.one 0x04, "PLCA_TO", (.u 1), .rw, .P, 32, (.rng 1 255)⟩,
   ⟨.one 0x05, "PLCA_BURST_CNT", (.u 1), .rw, .P, 0, (.rng 0 255)⟩,
   ⟨.one 0x06, "PLCA_BURST_TMR", (.u 1), .rw, .P, 128, (.rng 1 255)⟩,
   ⟨.one 0x07, "PLCA_STATUS", .bool, .ro, .V, 0, .any⟩,
   ⟨.one 0x08, "SEG_MAX", (.u 2), .const, .none, 1024, .any⟩,
   ⟨.one 0x09, "T1S_WRITE", .bool, .rw, .P, 1, .any⟩,
   ⟨.one 0x0a, "NOTIFY_NODE", (.u 1), .rw, .P, 0, (.rng 0 63)⟩,
   ⟨.one 0x0b, "NOTIFY_EN", .bool, .rw, .P, 0, .any⟩,
   ⟨.one 0x0c, "KDP_RX", (.u 4), .ro, .V, 0, .any⟩,
   ⟨.one 0x0d, "KDP_RETX", (.u 4), .ro, .V, 0, .any⟩,
   ⟨.one 0x0e, "KDP_BAD", (.u 4), .ro, .V, 0, .any⟩,
   ⟨.one 0x0f, "NOTIFY_LOST", (.u 4), .ro, .V, 0, .any⟩]

/-- The objects at 1140h (rule and table of its chapter). -/
def rows1140 : List Row :=
  [⟨.one 0x01, "VENDOR_ID", (.u 2), .const, .none, 0, .any⟩,
   ⟨.one 0x02, "PF_DEVICE_ID", (.u 2), .const, .none, 9568, .any⟩,
   ⟨.one 0x03, "VF_DEVICE_ID", (.u 2), .const, .none, 9569, .any⟩,
   ⟨.one 0x04, "LINK_SPEED", (.u 1), .ro, .V, 0, .any⟩,
   ⟨.one 0x05, "LINK_WIDTH", (.u 1), .ro, .V, 0, .any⟩,
   ⟨.one 0x06, "NUM_VFS", (.u 1), .ro, .V, 0, .any⟩,
   ⟨.one 0x07, "TAG10", .bool, .ro, .V, 0, .any⟩,
   ⟨.one 0x08, "MPS", (.u 2), .ro, .V, 128, .any⟩,
   ⟨.one 0x09, "MRRS", (.u 2), .ro, .V, 512, .any⟩,
   ⟨.one 0x0a, "LINK_DOWNS", (.u 4), .ro, .V, 0, .any⟩,
   ⟨.one 0x0b, "INFLIGHT", (.u 2), .ro, .V, 0, .any⟩,
   ⟨.one 0x0c, "TAGS_OUT", (.u 2), .ro, .V, 0, .any⟩]

/-- The objects at 1141h (rule and table of its chapter). -/
def rows1141 : List Row :=
  [⟨.rng 0x01 0x20, "QP_QUOTA", (.u 2), .rw, .P, 256, (.rng 0 8192)⟩]

/-- The objects at 1142h (rule and table of its chapter). -/
def rows1142 : List Row :=
  [⟨.rng 0x01 0x20, "SITE_FUNC", (.u 1), .rw, .P, 0, (.rng 0 32)⟩]

/-- The objects at 1150h (rule and table of its chapter). -/
def rows1150 : List Row :=
  [⟨.one 0x01, "WEIGHT", (.u 1), .rw, .P, 8, (.rng 1 255)⟩,
   ⟨.one 0x02, "FN_SITE_MASK", (.u 4), .ro, .V, 0, .any⟩,
   ⟨.one 0x03, "QUEUES", (.u 2), .ro, .V, 0, .any⟩,
   ⟨.one 0x04, "FN_INFLIGHT_NOW", (.u 2), .ro, .V, 0, .any⟩]

/-- The objects at 1180h (rule and table of its chapter). -/
def rows1180 : List Row :=
  [⟨.one 0x01, "EVT_LOST", (.u 4), .ro, .V, 0, .any⟩,
   ⟨.one 0x02, "EVT_WAITING", (.u 1), .ro, .V, 0, .any⟩]

/-- The objects at 1200h (rule and table of its chapter). -/
def rows1200 : List Row :=
  [⟨.one 0x01, "TXN_TIMEOUT", (.i 8), .rw, .P, 10000000000000000, (.rng 1000000000000000 600000000000000000)⟩,
   ⟨.one 0x02, "TXN_OPEN", (.u 1), .ro, .V, 0, .any⟩,
   ⟨.one 0x03, "APPLIES", (.u 8), .ro, .V, 0, .any⟩,
   ⟨.one 0x04, "TIMEOUTS", (.u 4), .ro, .V, 0, .any⟩,
   ⟨.one 0x05, "STAGING_MAX", (.u 4), .const, .none, 65536, .any⟩,
   ⟨.one 0x06, "TXN_MAX", (.u 1), .const, .none, 8, .any⟩]

/-- The objects at 1210h (rule and table of its chapter). -/
def rows1210 : List Row :=
  [⟨.one 0x01, "TXN_NUM", (.u 2), .ro, .V, 0, .any⟩,
   ⟨.one 0x02, "TXN_STATE", (.u 1), .ro, .V, 0, .any⟩,
   ⟨.one 0x03, "TXN_PATH", (.u 1), .ro, .V, 0, .any⟩,
   ⟨.one 0x04, "TXN_OWNER", (.u 4), .ro, .V, 0, .any⟩,
   ⟨.one 0x05, "STAGED_BYTES", (.u 4), .ro, .V, 0, .any⟩,
   ⟨.one 0x06, "APPLY_KIND", (.u 1), .ro, .V, 0, .any⟩,
   ⟨.one 0x07, "APPLY_SITES", (.u 4), .ro, .V, 0, .any⟩,
   ⟨.one 0x08, "TXN_STATUS", (.u 2), .ro, .V, 0, .any⟩,
   ⟨.one 0x09, "FIRST_OBJECT", (.u 4), .ro, .V, 0, .any⟩,
   ⟨.one 0x0a, "DETAIL", (.u 8), .ro, .V, 0, .any⟩]

/-- The objects at 1800h (rule and table of its chapter). -/
def rows1800 : List Row :=
  [⟨.one 0x01, "UTC_NOW", (.u 8), .rw, .V, 0, .any⟩,
   ⟨.one 0x02, "UTC_SET", .bool, .ro, .V, 0, .any⟩]

/-- The objects at 1810h (rule and table of its chapter). -/
def rows1810 : List Row :=
  [⟨.one 0x01, "EVLOG_OLDEST", (.u 8), .ro, .V, 0, .any⟩,
   ⟨.one 0x02, "EVLOG_NEXT", (.u 8), .ro, .V, 0, .any⟩,
   ⟨.one 0x03, "EVLOG_FROM", (.u 8), .rw, .V, 0, .any⟩,
   ⟨.one 0x04, "EVLOG_LOST", (.u 4), .ro, .V, 0, .any⟩]

/-- The objects at 1811h (rule and table of its chapter). -/
def rows1811 : List Row :=
  [⟨.one 0x01, "EVLOG_DATA", (.domain 65536), .ro, .V, 0, .any⟩]

/-- The objects at 2000h (rule and table of its chapter). -/
def rows2000 : List Row :=
  [⟨.one 0x01, "SITES", (.u 1), .const, .none, 32, .any⟩,
   ⟨.one 0x02, "RIDGE_ARM", .bool, .rw, .V, 0, .any⟩,
   ⟨.one 0x03, "RIDGE_STARTS", (.u 4), .ro, .V, 0, .any⟩,
   ⟨.one 0x04, "RIDGE_SKIPPED", (.u 4), .ro, .V, 0, .any⟩,
   ⟨.one 0x05, "SITES_RUNNING", (.u 4), .ro, .V, 0, .any⟩]

/-- The objects at 2010h (rule and table of its chapter). -/
def rows2010 : List Row :=
  [⟨.one 0x01, "SITE_CMD", (.u 8), .wo, .V, 0, (.rsv 0xFFFFFF00 .any)⟩,
   ⟨.one 0x02, "CMD_COUNT", (.u 4), .ro, .V, 0, .any⟩]

/-- The objects at 2020h (rule and table of its chapter). -/
def rows2020 : List Row :=
  [⟨.rng 0x01 0x04, "CHAN_MASK0", (.u 8), .rw, .V, 0, .any⟩,
   ⟨.one 0x05, "SITE_OCTETS", (.u 4), .ro, .V, 0, .any⟩,
   ⟨.one 0x06, "BEATS", (.u 1), .rw, .V, 2, (.rng 0 2)⟩,
   ⟨.one 0x07, "PAUSABLE", .bool, .rw, .V, 0, .any⟩,
   ⟨.one 0x08, "START_MODE", (.u 1), .rw, .V, 0, (.rng 0 1)⟩,
   ⟨.one 0x09, "BOARD_RT", (.u 1), .rw, .V, 0, (.rng 0 48)⟩,
   ⟨.one 0x0a, "RESUME_SRC", (.u 1), .rw, .V, 0, (.rng 0 16)⟩]

/-- The objects at 2040h (rule and table of its chapter). -/
def rows2040 : List Row :=
  [⟨.one 0x01, "STATE", (.u 1), .ro, .V, 0, .any⟩,
   ⟨.one 0x02, "READY", .bool, .ro, .V, 0, .any⟩,
   ⟨.one 0x03, "STOP_CAUSE", (.u 1), .ro, .V, 0, .any⟩,
   ⟨.one 0x04, "FAULT_SOURCE", (.u 2), .ro, .V, 0, .any⟩,
   ⟨.one 0x05, "LAST_CMD_STATUS", (.u 2), .ro, .V, 0, .any⟩,
   ⟨.one 0x06, "HORIZON", (.u 2), .ro, .V, 32, .any⟩,
   ⟨.one 0x07, "MIN_BOARD_RT", (.u 1), .ro, .V, 0, .any⟩,
   ⟨.one 0x08, "EVT_LATCHED", (.u 2), .ro, .V, 0, .any⟩,
   ⟨.one 0x09, "CYCLE", (.u 8), .ro, .V, 0, .any⟩,
   ⟨.one 0x0a, "PAUSES", (.u 4), .ro, .V, 0, .any⟩]

/-- The objects at 2200h (rule and table of its chapter). -/
def rows2200 : List Row :=
  [⟨.one 0x01, "CS_WORDS", (.u 4), .const, .none, 131072, .any⟩,
   ⟨.one 0x02, "CUST_BASE", (.u 4), .const, .none, 8192, .any⟩,
   ⟨.one 0x03, "CUST_LIMIT", (.u 4), .const, .none, 131071, .any⟩,
   ⟨.one 0x04, "CS_CE_COUNT", (.u 8), .ro, .V, 0, .any⟩,
   ⟨.one 0x05, "CS_UE_COUNT", (.u 8), .ro, .V, 0, .any⟩,
   ⟨.one 0x06, "CS_LAST_STATUS", (.u 2), .ro, .V, 0, .any⟩,
   ⟨.one 0x07, "CS_LAST_ADDR", (.u 4), .ro, .V, 0, .any⟩]

/-- The objects at 2201h (rule and table of its chapter). -/
def rows2201 : List Row :=
  [⟨.one 0x01, "VENDOR_VERSION", (.u 4), .ro, .V, 0, .any⟩,
   ⟨.one 0x02, "VENDOR_CRC", (.u 4), .ro, .V, 0, .any⟩,
   ⟨.one 0x03, "VENDOR_ENTRIES", (.u 2), .ro, .V, 0, .any⟩,
   ⟨.one 0x04, "VENDOR_DIR", (.domain 8192), .ro, .V, 0, .any⟩]

/-- The objects at 2205h (rule and table of its chapter). -/
def rows2205 : List Row :=
  [⟨.one 0x01, "CS_DOMAIN_ADDR", (.u 4), .rw, .V, 8192, (.rng 0x2000 0x1FFFF)⟩]

/-- The objects at 2206h (rule and table of its chapter). -/
def rows2206 : List Row :=
  [⟨.one 0x01, "CS_DOMAIN", (.domain 81920), .rw, .V, 0, .any⟩]

/-- The objects at 2210h (rule and table of its chapter). -/
def rows2210 : List Row :=
  [⟨.one 0x01, "START_ADDR", (.u 4), .rw, .V, 8192, (.rng 0x2000 0x1FFFF)⟩,
   ⟨.one 0x02, "WIN_BASE", (.u 4), .rw, .V, 8192, (.rng 0x2000 0x1FFFF)⟩,
   ⟨.one 0x03, "WIN_LIMIT", (.u 4), .rw, .V, 131071, (.rng 0x2000 0x1FFFF)⟩,
   ⟨.one 0x04, "VEC_PER_FRAME", (.u 1), .rw, .V, 4, (.oneOf [1, 2, 4])⟩,
   ⟨.one 0x05, "ABORT_WAIT", (.i 8), .rw, .V, 1000000000, (.rng 1000000 10000000000000)⟩,
   ⟨.one 0x06, "INIT_TSET", (.u 1), .rw, .V, 0, (.rng 0 63)⟩]

/-- The objects at 2230h (rule and table of its chapter). -/
def rows2230 : List Row :=
  [⟨.one 0x01, "PC", (.u 4), .ro, .V, 0, .any⟩,
   ⟨.one 0x02, "LAST_SAFE_PC", (.u 4), .ro, .V, 0, .any⟩,
   ⟨.one 0x03, "STACK_DEPTH", (.u 1), .ro, .V, 0, .any⟩,
   ⟨.one 0x04, "PENDING_INT", (.u 1), .ro, .V, 0, .any⟩,
   ⟨.one 0x05, "FRAMES", (.u 8), .ro, .V, 0, .any⟩,
   ⟨.one 0x06, "EXECUTIONS", (.u 8), .ro, .V, 0, .any⟩,
   ⟨.one 0x07, "SINCE_SAFE", (.u 2), .ro, .V, 0, .any⟩,
   ⟨.one 0x08, "MAX_SINCE_SAFE", (.u 2), .ro, .V, 0, .any⟩,
   ⟨.one 0x09, "REP_LEFT", (.u 2), .ro, .V, 0, .any⟩,
   ⟨.one 0x0a, "HOST_FLAG", .bool, .rw, .V, 0, .any⟩,
   ⟨.one 0x0b, "STICKY_FAIL", .bool, .ro, .V, 0, .any⟩,
   ⟨.one 0x0c, "LAST_SEQ_FAULT", (.u 2), .ro, .V, 0, .any⟩]

/-- The objects at 2250h (rule and table of its chapter). -/
def rows2250 : List Row :=
  [⟨.rng 0x01 0x10, "LC0", (.u 4), .rw, .V, 0, .any⟩,
   ⟨.rng 0x11 0x20, "MARK0", (.u 8), .ro, .V, 0, .any⟩]

/-- The objects at 2270h (rule and table of its chapter). -/
def rows2270 : List Row :=
  [⟨.rng 0x01 0x40, "PARAM0", (.u 4), .rw, .V, 0, .any⟩]

/-- The objects at 2400h (rule and table of its chapter). -/
def rows2400 : List Row :=
  [⟨.one 0x01, "HBM_CAPACITY", (.u 8), .const, .none, 154618822656, .any⟩,
   ⟨.one 0x02, "HBM_FREE", (.u 8), .ro, .V, 0, .any⟩,
   ⟨.one 0x03, "DDR5_INSTALLED", (.u 8), .ro, .V, 0, .any⟩,
   ⟨.one 0x04, "DDR5_FREE", (.u 8), .ro, .V, 0, .any⟩,
   ⟨.one 0x05, "DIMM_PRESENT", (.u 1), .ro, .V, 0, .any⟩,
   ⟨.one 0x06, "SEG_USED", (.u 4), .ro, .V, 0, .any⟩,
   ⟨.one 0x07, "STREAMS_OPEN", (.u 1), .ro, .V, 0, .any⟩]

/-- The objects at 2401h (rule and table of its chapter). -/
def rows2401 : List Row :=
  [⟨.rng 0x01 0x06, "ADM_BUDGET", (.u 4), .const, .none, 0, .any⟩]

/-- The objects at 2402h (rule and table of its chapter). -/
def rows2402 : List Row :=
  [⟨.rng 0x01 0x06, "ADM_RESERVED", (.u 4), .ro, .V, 0, .any⟩]

/-- The objects at 2403h (rule and table of its chapter). -/
def rows2403 : List Row :=
  [⟨.one 0x01, "REFUSED_SITE", (.u 1), .ro, .V, 255, .any⟩,
   ⟨.one 0x02, "REFUSED_STATUS", (.u 2), .ro, .V, 0, .any⟩,
   ⟨.one 0x03, "REFUSED_SUM", (.u 4), .ro, .V, 0, .any⟩,
   ⟨.one 0x04, "REFUSED_BUDGET", (.u 4), .ro, .V, 0, .any⟩]

/-- The objects at 2405h (rule and table of its chapter). -/
def rows2405 : List Row :=
  [⟨.one 0x01, "PATROL_SWEEPS", (.u 8), .ro, .V, 0, .any⟩,
   ⟨.one 0x02, "HBM_CE", (.u 8), .ro, .V, 0, .any⟩,
   ⟨.one 0x03, "HBM_UE", (.u 8), .ro, .V, 0, .any⟩]

/-- The objects at 2406h (rule and table of its chapter). -/
def rows2406 : List Row :=
  [⟨.one 0x01, "DDR5_CE", (.u 8), .ro, .V, 0, .any⟩,
   ⟨.one 0x02, "DDR5_UE", (.u 8), .ro, .V, 0, .any⟩,
   ⟨.one 0x03, "DIMM_TEMP_MAX", (.i 4), .ro, .V, 0, .any⟩]

/-- The objects at 2440h (rule and table of its chapter). -/
def rows2440 : List Row :=
  [⟨.one 0x01, "DECL_FETCH", (.u 4), .rw, .V, 0, (.rng 0 2000000)⟩,
   ⟨.one 0x02, "DECL_FAIL", (.u 4), .rw, .V, 0, (.rng 0 1000000)⟩,
   ⟨.one 0x03, "DECL_SAMPLE", (.u 4), .rw, .V, 0, (.rng 0 200000)⟩,
   ⟨.one 0x04, "DECL_DEEP", (.u 4), .rw, .V, 0, (.rng 0 140000)⟩,
   ⟨.one 0x05, "DECL_STREAM", (.u 4), .rw, .V, 0, (.rng 0 24000)⟩,
   ⟨.one 0x06, "DECL_SPILL", (.u 4), .rw, .V, 0, (.rng 0 140000)⟩,
   ⟨.one 0x07, "STAGE_WINDOW", (.u 4), .rw, .V, 16384, (.rng 1024 65536)⟩,
   ⟨.one 0x08, "SEG_UNDERRUN_ACTION", (.u 1), .rw, .V, 0, (.rng 0 1)⟩,
   ⟨.one 0x09, "RESERVED_NOW", .bool, .ro, .V, 0, .any⟩,
   ⟨.one 0x0a, "OVER_RES_COUNT", (.u 4), .ro, .V, 0, .any⟩,
   ⟨.one 0x0b, "PAD_FRAMES", (.u 8), .ro, .V, 0, .any⟩,
   ⟨.one 0x0c, "SEG_UNDERRUN_FLAG", .bool, .ro, .V, 0, .any⟩,
   ⟨.one 0x0d, "LAST_ARM_STATUS", (.u 2), .ro, .V, 0, .any⟩]

/-- The objects at 2460h (rule and table of its chapter). -/
def rows2460 : List Row :=
  [⟨.rng 0x01 0x40, "SOURCE_ENTRY", (.u 4), .rw, .V, 0, (.rsv 0x1FFF0000 .any)⟩]

/-- The objects at 2480h (rule and table of its chapter). -/
def rows2480 : List Row :=
  [⟨.one 0x01, "STATE", (.u 1), .ro, .V, 0, .any⟩,
   ⟨.one 0x02, "OWNER_SITE", (.u 1), .rw, .V, 255, (.orv 255 (.rng 0 31))⟩,
   ⟨.one 0x03, "FEED_QUEUE", (.u 2), .ro, .V, 65535, .any⟩,
   ⟨.one 0x04, "WINDOW", (.u 4), .rw, .V, 16384, (.rng 0 16384)⟩,
   ⟨.one 0x05, "PRIME", (.u 4), .rw, .V, 4096, (.rng 1 65536)⟩,
   ⟨.one 0x06, "UNDERRUN_ACTION", (.u 1), .rw, .V, 0, (.rng 0 1)⟩,
   ⟨.one 0x07, "UNDERRUN_FLAG", .bool, .ro, .V, 0, .any⟩,
   ⟨.one 0x08, "UNDERRUN_COUNT", (.u 4), .ro, .V, 0, .any⟩,
   ⟨.one 0x09, "PAD_FRAMES", (.u 8), .ro, .V, 0, .any⟩,
   ⟨.one 0x0a, "WR_PTR", (.u 8), .ro, .V, 0, .any⟩,
   ⟨.one 0x0b, "RD_PTR", (.u 8), .ro, .V, 0, .any⟩,
   ⟨.one 0x0c, "HIGH", (.u 8), .ro, .V, 0, .any⟩,
   ⟨.one 0x0d, "RETAIN", (.u 8), .ro, .V, 0, .any⟩,
   ⟨.one 0x0e, "LAST_STATUS", (.u 2), .ro, .V, 0, .any⟩]

/-- The objects at 2600h (rule and table of its chapter). -/
def rows2600 : List Row :=
  [⟨.one 0x01, "LOG_CEILING", (.u 4), .const, .none, 64000, .any⟩,
   ⟨.one 0x02, "ENTRY_SIZE", (.u 1), .const, .none, 32, .any⟩,
   ⟨.one 0x03, "LOG_RATE_NOW", (.u 4), .ro, .V, 0, .any⟩]

/-- The objects at 2610h (rule and table of its chapter). -/
def rows2610 : List Row :=
  [⟨.one 0x01, "LOG_EXTENTS", (.u 4), .rw, .V, 1, (.rng 0 73600)⟩,
   ⟨.one 0x02, "LOG_FULL_ACTION", (.u 1), .rw, .V, 0, (.rng 0 2)⟩,
   ⟨.one 0x03, "SPILL_SIZE", (.u 4), .rw, .V, 0, (.rng 0 1048576)⟩,
   ⟨.one 0x04, "CAP_EXTENTS", (.u 4), .rw, .V, 0, (.rng 0 73600)⟩,
   ⟨.one 0x05, "CAP_FULL_ACTION", (.u 1), .rw, .V, 0, (.rng 0 1)⟩]

/-- The objects at 2630h (rule and table of its chapter). -/
def rows2630 : List Row :=
  [⟨.one 0x01, "LOG_WRITTEN", (.u 8), .ro, .V, 0, .any⟩,
   ⟨.one 0x02, "LOG_OLDEST", (.u 8), .ro, .V, 0, .any⟩,
   ⟨.one 0x03, "FAIL_VECTORS", (.u 8), .ro, .V, 0, .any⟩,
   ⟨.one 0x04, "COUNT_ONLY", .bool, .ro, .V, 0, .any⟩,
   ⟨.one 0x05, "CO_CAUSE", (.u 1), .ro, .V, 0, .any⟩,
   ⟨.one 0x06, "CO_CYCLE", (.u 8), .ro, .V, 0, .any⟩,
   ⟨.one 0x07, "LOG_LOST", (.u 8), .ro, .V, 0, .any⟩,
   ⟨.one 0x08, "PAD_RECORDS", (.u 4), .ro, .V, 0, .any⟩,
   ⟨.one 0x09, "CAP_WRITTEN", (.u 8), .ro, .V, 0, .any⟩,
   ⟨.one 0x0a, "CAP_LOST", (.u 8), .ro, .V, 0, .any⟩,
   ⟨.one 0x0b, "SPILLED", (.u 8), .ro, .V, 0, .any⟩,
   ⟨.one 0x0c, "CYCLE_WRAPS", (.u 4), .ro, .V, 0, .any⟩]

/-- The objects at 2650h (rule and table of its chapter). -/
def rows2650 : List Row :=
  [⟨.one 0x01, "FF_VALID", .bool, .ro, .V, 0, .any⟩,
   ⟨.one 0x02, "FF_SOURCE", (.u 4), .ro, .V, 0, .any⟩,
   ⟨.one 0x03, "FF_ORDINAL", (.u 8), .ro, .V, 0, .any⟩,
   ⟨.one 0x04, "FF_CYCLE", (.u 8), .ro, .V, 0, .any⟩,
   ⟨.one 0x05, "FF_FRAME", (.u 8), .ro, .V, 0, .any⟩,
   ⟨.one 0x06, "FF_TSET", (.u 1), .ro, .V, 0, .any⟩,
   ⟨.one 0x07, "FF_BEATS", (.u 1), .ro, .V, 0, .any⟩,
   ⟨.rng 0x08 0x0b, "FF_MAP0", (.u 8), .ro, .V, 0, .any⟩]

/-- The objects at 2680h (rule and table of its chapter). -/
def rows2680 : List Row :=
  [⟨.rng 0x01 0x20, "PIN_FAILS", (.u 4), .ro, .V, 0, .any⟩]

/-- The objects at 3000h (rule and table of its chapter). -/
def rows3000 : List Row :=
  [⟨.one 0x01, "ES_SEL0", (.u 8), .rw, .V, 0, .any⟩,
   ⟨.one 0x02, "ES_SEL1", (.u 8), .rw, .V, 0, .any⟩,
   ⟨.one 0x03, "ES_SEL2", (.u 8), .rw, .V, 0, .any⟩,
   ⟨.one 0x04, "ES_SEL3", (.u 8), .rw, .V, 0, .any⟩,
   ⟨.one 0x05, "WITHY_LOCKED", .bool, .ro, .V, 0, .any⟩,
   ⟨.rng 0x06 0x0f, "ELEM_STEP0", .f32, .ro, .V, 0, .any⟩,
   ⟨.one 0x10, "CMP_MASK", .bool, .rw, .V, 0, .any⟩,
   ⟨.one 0x11, "CMP_TERM", .bool, .rw, .V, 0, .any⟩,
   ⟨.one 0x12, "SLATH_MODE", (.u 1), .rw, .V, 0, (.rng 0 1)⟩,
   ⟨.one 0x13, "WF_ENGINE", (.u 1), .rw, .V, 255, (.orv 255 (.rng 0 7))⟩,
   ⟨.one 0x14, "WF_BIT", (.u 1), .rw, .V, 0, (.rng 0 15)⟩,
   ⟨.one 0x15, "LANE_SWAP", (.u 1), .rw, .P, 0, (.rsv 0xF0 .any)⟩,
   ⟨.one 0x16, "LANE_INV", (.u 1), .rw, .P, 0, (.rsv 0xF0 .any)⟩,
   ⟨.one 0x17, "CHCL_EXCHANGE", .bool, .rw, .P, 0, .any⟩,
   ⟨.one 0x18, "LOOPBACK", .bool, .rw, .V, 0, .any⟩,
   ⟨.one 0x19, "LOS", .bool, .ro, .V, 0, .any⟩,
   ⟨.one 0x1a, "CMP_BOTH_COUNT", (.u 4), .ro, .V, 0, .any⟩,
   ⟨.one 0x1b, "XBAR_STATE", (.u 1), .ro, .V, 0, .any⟩,
   ⟨.one 0x1c, "DRIVE_MEM", (.u 1), .ro, .V, 16, .any⟩,
   ⟨.one 0x1d, "EXP_MEM", (.u 1), .ro, .V, 12, .any⟩,
   ⟨.one 0x1e, "PATTERN_CAUSE", (.u 1), .ro, .V, 0, .any⟩]

/-- The objects at 3100h (rule and table of its chapter). -/
def rows3100 : List Row :=
  [⟨.rng 0x01 0x0a, "OFS0", (.i 8), .ro, .P, 0, .any⟩,
   ⟨.one 0x0b, "RT", (.i 8), .ro, .P, 0, .any⟩,
   ⟨.one 0x0c, "RT_DE", (.i 8), .ro, .P, 0, .any⟩,
   ⟨.one 0x0d, "RET", (.i 8), .ro, .P, 0, .any⟩,
   ⟨.one 0x0e, "OUT", (.i 8), .ro, .P, 0, .any⟩,
   ⟨.one 0x0f, "OUT_DE", (.i 8), .ro, .P, 0, .any⟩,
   ⟨.one 0x10, "CAL_TEMP", (.i 4), .ro, .P, 0, .any⟩,
   ⟨.one 0x11, "CAL_TIME", (.u 8), .ro, .P, 0, .any⟩,
   ⟨.one 0x12, "CAL_COUNT", (.u 4), .ro, .P, 0, .any⟩,
   ⟨.one 0x13, "CAL_KIND", (.u 1), .ro, .P, 0, .any⟩,
   ⟨.one 0x14, "CAL_STATUS", (.u 1), .ro, .V, 0, .any⟩,
   ⟨.one 0x15, "CAL_ENABLE", .bool, .rw, .P, 1, .any⟩,
   ⟨.one 0x16, "LIN", (.domain 25640), .ro, .P, 0, .any⟩,
   ⟨.one 0x17, "DRIFT", (.i 8), .ro, .V, 0, .any⟩,
   ⟨.one 0x18, "LAST_DELTA", (.i 8), .ro, .V, 0, .any⟩,
   ⟨.rng 0x20 0x29, "BASE_OFS0", (.i 8), .sealed, .S, 0, .any⟩,
   ⟨.one 0x2a, "BASE_RT", (.i 8), .sealed, .S, 0, .any⟩,
   ⟨.one 0x2b, "BASE_RET", (.i 8), .sealed, .S, 0, .any⟩,
   ⟨.one 0x2c, "BASE_TEMP", (.i 4), .sealed, .S, 0, .any⟩,
   ⟨.one 0x2d, "BASE_TIME", (.u 8), .sealed, .S, 0, .any⟩,
   ⟨.one 0x2e, "BASE_SEAL", (.u 4), .sealed, .S, 0, .any⟩]

/-- The objects at 3400h (rule and table of its chapter). -/
def rows3400 : List Row :=
  [⟨.one 0x01, "TS_VALID", .bool, .rw, .V, 0, .any⟩,
   ⟨.one 0x02, "PERIOD", (.i 8), .rw, .V, 10000000, .any⟩,
   ⟨.step 0x10, "ES_CTRL", (.u 2), .rw, .V, 0, (.rsv 0xF0C0 .any)⟩,
   ⟨.step 0x11, "DRV0", (.i 8), .rw, .V, 0, .any⟩,
   ⟨.step 0x12, "DRV1", (.i 8), .rw, .V, 0, .any⟩,
   ⟨.step 0x13, "DRV2", (.i 8), .rw, .V, 0, .any⟩,
   ⟨.step 0x14, "DRV3", (.i 8), .rw, .V, 0, .any⟩,
   ⟨.step 0x15, "DEN_ON", (.i 8), .rw, .V, 0, .any⟩,
   ⟨.step 0x16, "DEN_OFF", (.i 8), .rw, .V, 0, .any⟩,
   ⟨.step 0x17, "STB0", (.i 8), .rw, .V, 0, .any⟩,
   ⟨.step 0x18, "STB1", (.i 8), .rw, .V, 0, .any⟩,
   ⟨.step 0x19, "STB2", (.i 8), .rw, .V, 0, .any⟩,
   ⟨.step 0x1a, "STB3", (.i 8), .rw, .V, 0, .any⟩]

/-- The objects at 4000h (rule and table of its chapter). -/
def rows4000 : List Row :=
  [⟨.one 0x01, "SPARS", (.u 1), .const, .none, 16, .any⟩]

/-- The objects at 4010h (rule and table of its chapter). -/
def rows4010 : List Row :=
  [⟨.one 0x01, "SPAR_STATE", (.u 1), .ro, .V, 0, .any⟩,
   ⟨.one 0x02, "SPAR_CHAN", (.u 2), .ro, .V, 65535, .any⟩,
   ⟨.rng 0x03 0x0c, "SPAR_DELAY0", (.i 8), .ro, .P, 0, .any⟩,
   ⟨.one 0x0d, "SPAR_CAL_TEMP", (.i 4), .ro, .P, 0, .any⟩,
   ⟨.one 0x0e, "SPAR_CAL_TIME", (.u 8), .ro, .P, 0, .any⟩,
   ⟨.one 0x0f, "SWAPS", (.u 4), .ro, .P, 0, .any⟩,
   ⟨.one 0x10, "TRIM_DD", (.i 8), .ro, .V, 0, .any⟩,
   ⟨.one 0x11, "TRIM_DE", (.i 8), .ro, .V, 0, .any⟩,
   ⟨.one 0x12, "ALIGN_RESID", (.i 8), .ro, .V, 0, .any⟩,
   ⟨.one 0x13, "ALIGN_SKIP", (.u 1), .ro, .V, 0, .any⟩,
   ⟨.one 0x14, "SPAR_LIN", (.domain 25640), .ro, .P, 0, .any⟩]

/-- The objects at 4400h (rule and table of its chapter). -/
def rows4400 : List Row :=
  [⟨.one 0x01, "WF_ENGINES", (.u 1), .const, .none, 8, .any⟩,
   ⟨.one 0x02, "WF_SLOT", (.i 8), .const, .none, 78125, .any⟩,
   ⟨.one 0x03, "WF_HEADS", (.u 1), .const, .none, 16, .any⟩,
   ⟨.one 0x04, "WF_HEAD_LEN", (.u 2), .const, .none, 512, .any⟩]

/-- The objects at 4410h (rule and table of its chapter). -/
def rows4410 : List Row :=
  [⟨.one 0x01, "WF_SITE", (.u 1), .rw, .V, 255, (.orv 255 (.rng 0 31))⟩,
   ⟨.one 0x02, "RATE_DIV", (.u 1), .rw, .V, 0, (.rng 0 10)⟩,
   ⟨.one 0x03, "OUT_CODING", (.u 1), .rw, .V, 0, (.rng 0 1)⟩,
   ⟨.one 0x04, "PARK_WORD", (.u 2), .rw, .V, 0, .any⟩,
   ⟨.one 0x05, "DC_OFFSET", (.i 2), .rw, .V, 0, (.rng (-32768) 32767)⟩,
   ⟨.one 0x06, "SUM_MASK", (.u 1), .rw, .V, 0, .any⟩]

/-- The objects at 4420h (rule and table of its chapter). -/
def rows4420 : List Row :=
  [⟨.one 0x01, "WF_STATE", (.u 1), .ro, .V, 0, .any⟩,
   ⟨.one 0x02, "STEP", (.u 2), .ro, .V, 0, .any⟩,
   ⟨.one 0x03, "PLAYS_LEFT", (.u 2), .ro, .V, 0, .any⟩,
   ⟨.one 0x04, "GRANULES", (.u 8), .ro, .V, 0, .any⟩,
   ⟨.one 0x05, "F_NOW", (.u 8), .ro, .V, 0, .any⟩,
   ⟨.one 0x06, "JUMPS_TAKEN", (.u 4), .ro, .V, 0, .any⟩,
   ⟨.one 0x07, "JUMPS_LATE", (.u 4), .ro, .V, 0, .any⟩,
   ⟨.one 0x08, "JUMPS_REPLACED", (.u 4), .ro, .V, 0, .any⟩,
   ⟨.one 0x09, "JUMPS_IGNORED", (.u 4), .ro, .V, 0, .any⟩,
   ⟨.one 0x0a, "TRIG_PENDING", .bool, .ro, .V, 0, .any⟩,
   ⟨.one 0x0b, "LATE_GRANULES", (.u 8), .ro, .V, 0, .any⟩,
   ⟨.one 0x0c, "CLIP_COUNT", (.u 8), .ro, .V, 0, .any⟩,
   ⟨.one 0x0d, "CMD_IGNORED", (.u 4), .ro, .V, 0, .any⟩,
   ⟨.one 0x0e, "MK_NOW", (.u 1), .ro, .V, 0, .any⟩,
   ⟨.one 0x0f, "LAST_WF_FAULT", (.u 2), .ro, .V, 0, .any⟩]

/-- The objects at 4430h (rule and table of its chapter). -/
def rows4430 : List Row :=
  [⟨.one 0x01, "FLIST", (.domain 32768), .rw, .V, 0, .any⟩,
   ⟨.one 0x02, "PLIST", (.domain 16384), .rw, .V, 0, .any⟩,
   ⟨.one 0x03, "ALIST", (.domain 16384), .rw, .V, 0, .any⟩,
   ⟨.one 0x04, "SEQ", (.domain 32768), .rw, .V, 0, .any⟩,
   ⟨.one 0x05, "TABLE_FIRST", (.u 2), .rw, .V, 0, (.rng 0 16383)⟩]

/-- The objects at 4800h (rule and table of its chapter). -/
def rows4800 : List Row :=
  [⟨.one 0x01, "TMUS", (.u 1), .const, .none, 10, .any⟩,
   ⟨.one 0x02, "COARSE_STEP", (.i 8), .const, .none, 156250, .any⟩,
   ⟨.one 0x03, "FINE_CODES", (.u 2), .const, .none, 2048, .any⟩]

/-- The objects at 4801h (rule and table of its chapter). -/
def rows4801 : List Row :=
  [⟨.rng 0x01 0x0a, "OWNER", (.u 1), .rw, .V, 255, (.orv 255 (.orv 128 (.rng 0 31)))⟩]

/-- The objects at 4810h (rule and table of its chapter). -/
def rows4810 : List Row :=
  [⟨.rng 0x01 0x04, "SLOT0", (.u 1), .rw, .V, 255, (.orv 255 (.rng 0 9))⟩]

/-- The objects at 4830h (rule and table of its chapter). -/
def rows4830 : List Row :=
  [⟨.one 0x01, "MODE", (.u 1), .rw, .V, 0, (.rng 0 2)⟩,
   ⟨.one 0x02, "START_SRC", (.u 2), .rw, .V, 0, .any⟩,
   ⟨.rng 0x03 0x0a, "STOP_SRC0", (.u 2), .rw, .V, 0, .any⟩,
   ⟨.one 0x0b, "SAMPLES", (.u 4), .rw, .V, 1, (.rng 1 4294967295)⟩,
   ⟨.one 0x0c, "GATE_MODE", (.u 1), .rw, .V, 0, (.rng 0 1)⟩,
   ⟨.one 0x0d, "QUAL", (.u 1), .rw, .V, 0, (.rng 0 2)⟩,
   ⟨.one 0x0e, "TIMEOUT", (.i 8), .rw, .V, 1000000000, (.mul 1250000 (.rng 10000000 100000000000000000))⟩,
   ⟨.one 0x0f, "PERIOD_EDGES", (.u 4), .rw, .V, 1, (.rng 1 16777215)⟩,
   ⟨.one 0x10, "GATE_TIME", (.i 8), .rw, .V, 1000000000000, (.mul 1250000 (.rng 1000000000 10000000000000000))⟩,
   ⟨.one 0x11, "ACCUM", .bool, .rw, .V, 0, .any⟩,
   ⟨.one 0x12, "LIMIT_LO", (.i 8), .rw, .V, 0, .any⟩,
   ⟨.one 0x13, "LIMIT_HI", (.i 8), .rw, .V, 0, .any⟩,
   ⟨.one 0x14, "LIMIT_EN", .bool, .rw, .V, 0, .any⟩]

/-- The objects at 4840h (rule and table of its chapter). -/
def rows4840 : List Row :=
  [⟨.one 0x01, "STATE", (.u 1), .ro, .V, 0, .any⟩,
   ⟨.one 0x02, "CAL_HOLD", .bool, .ro, .V, 0, .any⟩,
   ⟨.one 0x03, "END_STATUS", (.u 1), .ro, .V, 0, .any⟩,
   ⟨.one 0x04, "SAMPLES_DONE", (.u 4), .ro, .V, 0, .any⟩,
   ⟨.one 0x05, "OUT_OF_LIMITS", .bool, .ro, .V, 0, .any⟩,
   ⟨.one 0x06, "CAL_WAITS", (.u 4), .ro, .V, 0, .any⟩,
   ⟨.one 0x07, "CAL_WAIT_MAX", (.i 8), .ro, .V, 0, .any⟩,
   ⟨.one 0x08, "CMD_IGNORED", (.u 4), .ro, .V, 0, .any⟩,
   ⟨.one 0x09, "LOCKED", .bool, .ro, .V, 0, .any⟩]

/-- The objects at 4850h (rule and table of its chapter). -/
def rows4850 : List Row :=
  [⟨.one 0x01, "COUNT", (.u 4), .ro, .V, 0, .any⟩,
   ⟨.one 0x02, "MISSED", (.u 4), .ro, .V, 0, .any⟩,
   ⟨.one 0x03, "FIRST_RAW", (.i 8), .ro, .V, 0, .any⟩,
   ⟨.one 0x04, "S1_LO", (.u 8), .ro, .V, 0, .any⟩,
   ⟨.one 0x05, "S1_HI", (.i 8), .ro, .V, 0, .any⟩,
   ⟨.one 0x06, "S2_LO", (.u 8), .ro, .V, 0, .any⟩,
   ⟨.one 0x07, "S2_HI", (.u 8), .ro, .V, 0, .any⟩,
   ⟨.one 0x08, "MIN_RAW", (.i 8), .ro, .V, 0, .any⟩,
   ⟨.one 0x09, "MAX_RAW", (.i 8), .ro, .V, 0, .any⟩,
   ⟨.one 0x0a, "LAST_RAW", (.i 8), .ro, .V, 0, .any⟩,
   ⟨.one 0x0b, "MEAN", (.i 8), .ro, .V, 0, .any⟩,
   ⟨.one 0x0c, "SDEV", (.i 8), .ro, .V, 0, .any⟩,
   ⟨.one 0x0d, "MIN", (.i 8), .ro, .V, 0, .any⟩,
   ⟨.one 0x0e, "MAX", (.i 8), .ro, .V, 0, .any⟩,
   ⟨.one 0x0f, "LAST", (.i 8), .ro, .V, 0, .any⟩,
   ⟨.one 0x10, "EXCLUDED", (.u 4), .ro, .V, 0, .any⟩,
   ⟨.one 0x11, "QUAL_REJECT", (.u 4), .ro, .V, 0, .any⟩]

/-- The objects at 48A0h (rule and table of its chapter). -/
def rows48A0 : List Row :=
  [⟨.one 0x01, "TMU_CMD", (.u 2), .wo, .V, 0, (.rsv 0xF0 .any)⟩,
   ⟨.one 0x02, "TMU_CMD_STATUS", (.u 2), .ro, .V, 0, .any⟩]

/-- The objects at 5000h (rule and table of its chapter). -/
def rows5000 : List Row :=
  [⟨.one 0x01, "KIND", (.u 1), .const, .none, 0, .any⟩,
   ⟨.one 0x02, "RANGE", (.u 1), .rw, .V, 0, .any⟩,
   ⟨.one 0x03, "TARGET_V", (.i 4), .rw, .V, 0, .any⟩,
   ⟨.one 0x04, "TARGET_I", (.i 4), .rw, .V, 0, .any⟩,
   ⟨.one 0x05, "ROLE", (.u 1), .ro, .V, 0, .any⟩,
   ⟨.one 0x06, "PARK_RANGE", (.u 1), .rw, .P, 0, .any⟩,
   ⟨.one 0x07, "PARK_V", (.i 4), .rw, .P, 0, .any⟩,
   ⟨.one 0x08, "PARK_I", (.i 4), .rw, .P, 0, .any⟩,
   ⟨.one 0x09, "CODE", (.u 2), .ro, .V, 0, .any⟩,
   ⟨.one 0x0a, "PENDING", (.u 2), .ro, .V, 0, .any⟩,
   ⟨.one 0x0b, "STATUS", (.u 1), .ro, .V, 64, .any⟩,
   ⟨.one 0x0c, "VOUT", (.i 4), .ro, .V, 0, .any⟩,
   ⟨.one 0x0d, "DAC_STROBES", (.u 4), .ro, .V, 0, .any⟩]

/-- The objects at 50C0h (rule and table of its chapter). -/
def rows50C0 : List Row :=
  [⟨.one 0x01, "GROUP_SEL", (.u 8), .rw, .P, 0, .any⟩,
   ⟨.one 0x02, "LOAD_MODE", (.u 1), .rw, .V, 0, (.rng 0 2)⟩,
   ⟨.one 0x03, "REF_OK", .bool, .ro, .V, 0, .any⟩,
   ⟨.one 0x04, "BANK_STROBES", (.u 4), .ro, .V, 0, .any⟩]

/-- The objects at 50D0h (rule and table of its chapter). -/
def rows50D0 : List Row :=
  [⟨.one 0x01, "LVL_DACS", (.u 1), .const, .none, 192, .any⟩,
   ⟨.one 0x02, "LVL_LOAD", (.u 2), .wo, .V, 0, (.rsv 0xFE00 .any)⟩,
   ⟨.one 0x03, "PARK_SOURCE", (.u 1), .ro, .V, 0, .any⟩]

/-- The objects at 50E0h (rule and table of its chapter). -/
def rows50E0 : List Row :=
  [⟨.rng 0x01 0x07, "GROUP_MAP", (.u 1), .rw, .P, 0, .any⟩]

/-- The objects at 5400h (rule and table of its chapter). -/
def rows5400 : List Row :=
  [⟨.one 0x01, "LIVE_MODE", (.u 1), .rw, .P, 0, (.rng 0 2)⟩,
   ⟨.one 0x02, "TEMP_TRIGGER", (.i 4), .rw, .P, 2000, (.rng 500 8000)⟩,
   ⟨.one 0x03, "MAX_AGE", (.u 4), .rw, .P, 0, (.rng 0 8760)⟩,
   ⟨.one 0x04, "ALIGN_TOL", (.i 8), .rw, .P, 1000, (.rng 250 2500)⟩,
   ⟨.one 0x05, "SWAP_WAIT", (.i 8), .rw, .P, 10000000000000000, (.rng 1000000000000 3600000000000000000)⟩,
   ⟨.one 0x06, "RT_TRACK", .bool, .rw, .P, 0, .any⟩,
   ⟨.one 0x07, "LIVE_LEVELS", .bool, .rw, .P, 0, .any⟩,
   ⟨.one 0x08, "COMMIT_BUDGET", (.u 2), .rw, .P, 600, (.rng 60 1500)⟩,
   ⟨.one 0x09, "CAL_CMD", (.u 4), .wo, .V, 0, .any⟩,
   ⟨.one 0x0a, "CAL_STATE", (.u 1), .ro, .V, 0, .any⟩,
   ⟨.one 0x0b, "CAL_LAST_STATUS", (.u 2), .ro, .V, 0, .any⟩,
   ⟨.one 0x0c, "CAL_FAIL_CHAN", (.u 2), .ro, .V, 65535, .any⟩,
   ⟨.one 0x0d, "TIMEBASE_ERR", (.i 4), .ro, .P, 0, .any⟩,
   ⟨.one 0x0e, "COMMITS_HOUR", (.u 2), .ro, .V, 0, .any⟩]

/-- The objects at 5410h (rule and table of its chapter). -/
def rows5410 : List Row :=
  [⟨.one 0x01, "BANK_TEMP", (.i 4), .ro, .V, 0, .any⟩,
   ⟨.one 0x02, "BANK_MAX_DIFF", (.i 4), .ro, .V, 0, .any⟩,
   ⟨.one 0x03, "PROMOTED", .bool, .ro, .V, 0, .any⟩,
   ⟨.one 0x04, "SUSPENDED", .bool, .ro, .V, 0, .any⟩,
   ⟨.one 0x05, "QUEUED", (.u 2), .ro, .V, 0, .any⟩,
   ⟨.one 0x06, "DENIED", (.i 8), .ro, .V, 0, .any⟩,
   ⟨.one 0x07, "TMU_CAL_TEMP", (.i 4), .ro, .P, 0, .any⟩,
   ⟨.one 0x08, "TMU_CAL_TIME", (.u 8), .ro, .P, 0, .any⟩,
   ⟨.one 0x09, "TMU_LIN", (.domain 1048576), .ro, .P, 0, .any⟩]

/-- The objects at 5430h (rule and table of its chapter). -/
def rows5430 : List Row :=
  [⟨.one 0x01, "TREF_ID", .str, .rw, .P, 0, .any⟩,
   ⟨.one 0x02, "TREF_FREQ", (.u 8), .rw, .P, 0, (.rng 10000000000 250000000000)⟩,
   ⟨.one 0x03, "TREF_UNC", (.u 4), .rw, .P, 0, .any⟩,
   ⟨.one 0x04, "TREF_DUE", (.u 8), .rw, .P, 0, .any⟩,
   ⟨.one 0x05, "FIXTURE_ID", .str, .rw, .P, 0, .any⟩,
   ⟨.one 0x06, "FIXTURE_DELAY", (.i 8), .rw, .P, 0, (.rng (-20000000) 20000000)⟩]

/-- The objects at 5431h (rule and table of its chapter). -/
def rows5431 : List Row :=
  [⟨.one 0x01, "VREF_ID", .str, .rw, .P, 0, .any⟩,
   ⟨.one 0x02, "VREF_VALUE", (.i 4), .rw, .P, 0, (.rng 1000000 4500000)⟩,
   ⟨.one 0x03, "VREF_UNC", (.i 4), .rw, .P, 0, .any⟩,
   ⟨.one 0x04, "VREF_DUE", (.u 8), .rw, .P, 0, .any⟩]

/-- The objects at 5438h (rule and table of its chapter). -/
def rows5438 : List Row :=
  [⟨.one 0x01, "SEAL_CHALLENGE", (.domain 48), .ro, .V, 0, .any⟩,
   ⟨.one 0x02, "SEAL_TOKEN", (.domain 192), .wo, .V, 0, .any⟩,
   ⟨.one 0x03, "SEAL_STATE", (.u 1), .ro, .V, 0, .any⟩,
   ⟨.one 0x04, "SEAL_SESSION", (.u 4), .ro, .P, 0, .any⟩,
   ⟨.one 0x05, "SEAL_CLOSE", .bool, .wo, .V, 0, .any⟩,
   ⟨.one 0x06, "SEAL_LEFT", (.i 8), .ro, .V, 0, .any⟩,
   ⟨.one 0x07, "SEAL_SCOPE", (.u 2), .ro, .V, 0, .any⟩,
   ⟨.one 0x08, "SEAL_OPERATOR", .str, .ro, .V, 0, .any⟩]

/-- The objects at 5439h (rule and table of its chapter). -/
def rows5439 : List Row :=
  [⟨.one 0x01, "S_TREF_ID", .str, .sealed, .S, 0, .any⟩,
   ⟨.one 0x02, "S_TREF_FREQ", (.u 8), .sealed, .S, 0, .any⟩,
   ⟨.one 0x03, "S_TREF_DUE", (.u 8), .sealed, .S, 0, .any⟩,
   ⟨.one 0x04, "S_FIXTURE_DELAY", (.i 8), .sealed, .S, 0, .any⟩,
   ⟨.one 0x05, "S_VREF_ID", .str, .sealed, .S, 0, .any⟩,
   ⟨.one 0x06, "S_VREF_VALUE", (.i 4), .sealed, .S, 0, .any⟩,
   ⟨.one 0x07, "S_VREF_DUE", (.u 8), .sealed, .S, 0, .any⟩,
   ⟨.one 0x08, "S_SEAL_TIME", (.u 8), .sealed, .S, 0, .any⟩,
   ⟨.one 0x09, "S_OPERATOR", .str, .sealed, .S, 0, .any⟩,
   ⟨.one 0x0a, "S_SESSION", (.u 4), .sealed, .S, 0, .any⟩]

/-- The objects at 5440h (rule and table of its chapter). -/
def rows5440 : List Row :=
  [⟨.one 0x01, "GAIN_TRIM", (.i 4), .ro, .P, 0, .any⟩,
   ⟨.one 0x02, "OFFSET_TRIM", (.i 4), .ro, .P, 0, .any⟩,
   ⟨.one 0x03, "LVL_CAL_TEMP", (.i 4), .ro, .P, 0, .any⟩,
   ⟨.one 0x04, "LVL_CAL_TIME", (.u 8), .ro, .P, 0, .any⟩,
   ⟨.one 0x05, "BASE_GAIN", (.i 4), .sealed, .S, 0, .any⟩,
   ⟨.one 0x06, "BASE_OFFSET", (.i 4), .sealed, .S, 0, .any⟩,
   ⟨.one 0x07, "BASE_LVL_TIME", (.u 8), .sealed, .S, 0, .any⟩,
   ⟨.one 0x08, "BASE_LVL_SEAL", (.u 4), .sealed, .S, 0, .any⟩]

/-- The objects at 6000h (rule and table of its chapter). -/
def rows6000 : List Row :=
  [⟨.one 0x01, "MTR_STATE", (.u 1), .ro, .V, 0, .any⟩,
   ⟨.one 0x02, "REFCLK_STATE", (.u 1), .ro, .V, 0, .any⟩,
   ⟨.one 0x03, "MUTUAL_DEV", (.i 4), .ro, .V, 0, .any⟩,
   ⟨.one 0x04, "REFCLK_SSC", (.u 1), .rw, .P, 0, (.rng 0 1)⟩,
   ⟨.one 0x05, "SSC_DETECTED", .bool, .ro, .V, 0, .any⟩,
   ⟨.one 0x06, "MISMATCH_BLAME", (.u 1), .rw, .P, 0, (.rng 0 1)⟩,
   ⟨.one 0x07, "HM_DEGRADED_OK", .bool, .rw, .P, 0, .any⟩,
   ⟨.one 0x08, "STANDBY_MODE", (.u 1), .rw, .P, 0, (.rng 0 1)⟩,
   ⟨.one 0x09, "AUTO_REVERT", .bool, .rw, .P, 1, .any⟩,
   ⟨.one 0x0a, "CLK_STOPS", (.u 4), .ro, .V, 0, .any⟩,
   ⟨.one 0x0b, "LAST_STOP_TIME", (.i 8), .ro, .V, 0, .any⟩]

/-- The objects at 6001h (rule and table of its chapter). -/
def rows6001 : List Row :=
  [⟨.one 0x01, "SOURCE", (.u 1), .ro, .V, 255, .any⟩,
   ⟨.one 0x02, "GROUP_STATE", (.u 1), .ro, .V, 1, .any⟩,
   ⟨.one 0x03, "DEGRADED", .bool, .ro, .V, 0, .any⟩,
   ⟨.one 0x04, "SWITCHES", (.u 4), .ro, .V, 0, .any⟩]

/-- The objects at 6008h (rule and table of its chapter). -/
def rows6008 : List Row :=
  [⟨.one 0x01, "CLK_CMD", (.u 4), .wo, .V, 0, (.rsv 0x00FFFC00 .any)⟩,
   ⟨.one 0x02, "CLK_CMD_STATUS", (.u 2), .ro, .V, 0, .any⟩,
   ⟨.one 0x03, "CLK_CMD_BUSY", .bool, .ro, .V, 0, .any⟩]

/-- The objects at 6010h (rule and table of its chapter). -/
def rows6010 : List Row :=
  [⟨.one 0x01, "MGMT_FREQ", (.u 2), .rw, .P, 400, (.oneOf [100, 200, 300, 400])⟩,
   ⟨.one 0x02, "NOR_FREQ", (.u 2), .rw, .P, 100, (.rng 25 133)⟩]

/-- The objects at 6020h (rule and table of its chapter). -/
def rows6020 : List Row :=
  [⟨.one 0x01, "GATE_EN", (.u 8), .rw, .V, 274877906943, (.rsv 0xFFFFFFC000000000 .any)⟩]

/-- The objects at 6030h (rule and table of its chapter). -/
def rows6030 : List Row :=
  [⟨.one 0x01, "DUTCLK_FREQ", (.u 8), .rw, .V, 100000000000, (.rng 1000000000 1600000000000)⟩,
   ⟨.one 0x02, "SSC_PROFILE", (.u 1), .rw, .V, 0, (.rng 0 2)⟩,
   ⟨.one 0x03, "SSC_DEPTH", (.u 2), .rw, .V, 0, (.rng 0 5000)⟩,
   ⟨.one 0x04, "SSC_RATE", (.u 4), .rw, .V, 31500, (.rng 20000 100000)⟩,
   ⟨.one 0x05, "DUTCLK_ACTUAL", (.u 8), .ro, .V, 0, .any⟩]

/-- The objects at 6040h (rule and table of its chapter). -/
def rows6040 : List Row :=
  [⟨.one 0x01, "RIDGE_MODE", (.u 1), .rw, .P, 0, (.rng 0 2)⟩,
   ⟨.one 0x02, "RIDGE_PATH", (.i 8), .rw, .P, 0, (.rng 0 20000000)⟩,
   ⟨.one 0x03, "RIDGE_PERIOD", (.u 4), .rw, .V, 0, (.orv 0 (.rng 80 8000000))⟩,
   ⟨.one 0x04, "RIDGE_FIRE", (.u 1), .wo, .V, 0, (.rng 1 2)⟩,
   ⟨.one 0x05, "RIDGE_CAL_N", (.u 4), .rw, .V, 65536, (.rng 1024 16777216)⟩,
   ⟨.one 0x06, "RIDGE_EPS", (.i 8), .ro, .P, 1250000, .any⟩,
   ⟨.one 0x07, "SKEW_TRIM", (.i 8), .ro, .P, 0, .any⟩,
   ⟨.one 0x08, "RIDGE_PHASE", (.i 8), .ro, .P, 0, .any⟩,
   ⟨.one 0x09, "RIDGE_SDEV", (.i 8), .ro, .V, 0, .any⟩,
   ⟨.one 0x0a, "RIDGE_COUNT", (.u 8), .ro, .V, 0, .any⟩,
   ⟨.one 0x0b, "RIDGE_IGNORED", (.u 4), .ro, .V, 0, .any⟩,
   ⟨.one 0x0c, "RIDGE_CAL_TIME", (.u 8), .ro, .P, 0, .any⟩,
   ⟨.one 0x0d, "RIDGE_CAL_TEMP", (.i 4), .ro, .P, 0, .any⟩]

/-- The objects at 6400h (rule and table of its chapter). -/
def rows6400 : List Row :=
  [⟨.one 0x01, "EVT_RAW", (.u 2), .ro, .V, 0, .any⟩,
   ⟨.one 0x02, "EVT_HOST", (.u 2), .wo, .V, 0, .any⟩,
   ⟨.one 0x03, "EVT_MASKED", (.u 2), .ro, .V, 0, .any⟩,
   ⟨.one 0x04, "MK_STATE", (.u 2), .ro, .V, 0, .any⟩]

/-- The objects at 6410h (rule and table of its chapter). -/
def rows6410 : List Row :=
  [⟨.one 0x01, "EVT_SRC", (.u 1), .rw, .V, 0, (.rng 0 3)⟩,
   ⟨.one 0x02, "EVT_SRC_MK", (.u 1), .rw, .V, 0, (.rng 0 15)⟩,
   ⟨.one 0x03, "EVT_ACTIVE_LOW", .bool, .rw, .V, 0, .any⟩,
   ⟨.one 0x04, "QUAL_WIDTH", (.u 1), .rw, .V, 4, (.rng 2 255)⟩,
   ⟨.one 0x05, "STUCK_TIMEOUT", (.u 8), .rw, .V, 0, (.rng 0 4294967296)⟩,
   ⟨.one 0x06, "EVT_SITES", (.u 4), .rw, .V, 0, .any⟩,
   ⟨.one 0x07, "QUAL_COUNT", (.u 8), .ro, .V, 0, .any⟩,
   ⟨.one 0x08, "OVERRUN", (.u 4), .ro, .V, 0, .any⟩,
   ⟨.one 0x09, "GLITCH", (.u 4), .ro, .V, 0, .any⟩,
   ⟨.one 0x0a, "STUCK_COUNT", (.u 4), .ro, .V, 0, .any⟩]

/-- The objects at 6430h (rule and table of its chapter). -/
def rows6430 : List Row :=
  [⟨.one 0x01, "MK_SRC_KIND", (.u 1), .rw, .V, 0, (.rng 0 3)⟩,
   ⟨.one 0x02, "MK_SRC_NUM", (.u 1), .rw, .V, 0, (.rng 0 31)⟩,
   ⟨.one 0x03, "MK_SRC_SITES", (.u 4), .rw, .V, 0, .any⟩,
   ⟨.one 0x04, "MK_ACTIVE_LOW", .bool, .rw, .V, 0, .any⟩,
   ⟨.one 0x05, "MK_DELAY", (.i 8), .rw, .V, 0, (.rng 0 10000000)⟩]

/-- The objects at 7000h (rule and table of its chapter). -/
def rows7000 : List Row :=
  [⟨.one 0x01, "RAISES", (.u 8), .ro, .V, 0, .any⟩,
   ⟨.one 0x02, "EPISODES", (.u 4), .ro, .V, 0, .any⟩,
   ⟨.one 0x04, "UNCLEARED", (.u 1), .ro, .V, 0, .any⟩,
   ⟨.one 0x05, "MAX_UNCLEARED", (.u 1), .ro, .V, 0, .any⟩,
   ⟨.one 0x06, "PIN_STATE", .bool, .ro, .V, 1, .any⟩,
   ⟨.one 0x07, "HANDLING", (.u 1), .ro, .V, 255, .any⟩,
   ⟨.one 0x09, "FAULT_CLEAR", (.u 4), .wo, .V, 0, .any⟩,
   ⟨.one 0x0a, "CLEAR_STATUS", (.u 2), .ro, .V, 0, .any⟩,
   ⟨.one 0x0b, "OVERFLOWS", (.u 4), .ro, .V, 0, .any⟩]

/-- The objects at 7008h (rule and table of its chapter). -/
def rows7008 : List Row :=
  [⟨.one 0x01, "NOTIFY_MIN", (.u 1), .rw, .P, 2, (.rng 1 5)⟩,
   ⟨.one 0x02, "SELFTEST_WAIT", (.i 8), .rw, .P, 10000000000000000, (.rng 1000000000000000 600000000000000000)⟩,
   ⟨.one 0x03, "SELFTEST_EN", .bool, .rw, .P, 1, .any⟩]

/-- The objects at 7010h (rule and table of its chapter). -/
def rows7010 : List Row :=
  [⟨.rng 0x01 0x40, "SEV_RULE0", (.u 8), .rw, .P, 0, .any⟩]

/-- The objects at 7018h (rule and table of its chapter). -/
def rows7018 : List Row :=
  [⟨.one 0x01, "QUERY_SRC", (.u 2), .rw, .V, 0, .any⟩,
   ⟨.one 0x02, "Q_SEVERITY", (.u 1), .ro, .V, 0, .any⟩,
   ⟨.one 0x03, "Q_DEFAULT", (.u 1), .ro, .V, 0, .any⟩,
   ⟨.one 0x04, "Q_RAISES", (.u 4), .ro, .V, 0, .any⟩,
   ⟨.one 0x05, "Q_TRANSIENT", (.u 4), .ro, .V, 0, .any⟩,
   ⟨.one 0x06, "Q_PERSISTENT", (.u 4), .ro, .P, 0, .any⟩,
   ⟨.one 0x07, "Q_ACTIVE", .bool, .ro, .V, 0, .any⟩,
   ⟨.one 0x08, "Q_LAST_EPISODE", (.u 4), .ro, .V, 0, .any⟩]

/-- The objects at 7020h (rule and table of its chapter). -/
def rows7020 : List Row :=
  [⟨.one 0x01, "EP_NUM", (.u 4), .ro, .V, 0, .any⟩,
   ⟨.one 0x02, "EP_STATE", (.u 1), .ro, .V, 0, .any⟩,
   ⟨.one 0x03, "EP_SOURCE", (.u 2), .ro, .V, 0, .any⟩,
   ⟨.one 0x04, "EP_SEVERITY", (.u 1), .ro, .V, 0, .any⟩,
   ⟨.one 0x05, "EP_OPEN_TIME", (.u 8), .ro, .V, 0, .any⟩,
   ⟨.one 0x06, "EP_MERGED", (.u 4), .ro, .V, 0, .any⟩,
   ⟨.rng 0x07 0x0e, "EP_CAUSE0", (.u 4), .ro, .V, 0, .any⟩,
   ⟨.one 0x0f, "EP_SITES", (.u 4), .ro, .V, 0, .any⟩,
   ⟨.one 0x10, "EP_RETIRED", (.u 1), .ro, .V, 0, .any⟩,
   ⟨.one 0x11, "EP_DETAIL", (.u 4), .ro, .V, 0, .any⟩,
   ⟨.one 0x12, "EP_CLEAR_TIME", (.u 8), .ro, .V, 0, .any⟩]

/-- The objects at 7060h (rule and table of its chapter). -/
def rows7060 : List Row :=
  [⟨.one 0x01, "RETIRED_UNITS", (.u 1), .ro, .V, 0, .any⟩]

/-- The objects at 7061h (rule and table of its chapter). -/
def rows7061 : List Row :=
  [⟨.rng 0x01 0x20, "RETIRE0", (.u 4), .ro, .P, 0, .any⟩]

/-- The objects at 7068h (rule and table of its chapter). -/
def rows7068 : List Row :=
  [⟨.one 0x01, "ST_CMD", (.u 4), .wo, .V, 0, (.rsv 0x00F80000 .any)⟩,
   ⟨.one 0x02, "ST_STATUS", (.u 2), .ro, .V, 0, .any⟩,
   ⟨.one 0x03, "ST_VERDICT", (.u 1), .ro, .V, 0, .any⟩,
   ⟨.one 0x04, "ST_BUSY", .bool, .ro, .V, 0, .any⟩]

/-- The objects at 7400h (rule and table of its chapter). -/
def rows7400 : List Row :=
  [⟨.one 0x01, "LOCKSTEP_ERRORS", (.u 4), .ro, .P, 0, .any⟩,
   ⟨.one 0x02, "BOOTS", (.u 4), .ro, .P, 0, .any⟩]

/-- The objects at 7401h (rule and table of its chapter). -/
def rows7401 : List Row :=
  [⟨.one 0x01, "PRIORITY_PORT", (.u 1), .rw, .P, 0, (.rng 0 1)⟩,
   ⟨.one 0x02, "COLLISIONS", (.u 4), .ro, .V, 0, .any⟩,
   ⟨.one 0x03, "SPT_SWEEPS", (.u 4), .ro, .V, 0, .any⟩,
   ⟨.one 0x04, "SPT_DEFERRED", (.u 4), .ro, .V, 0, .any⟩,
   ⟨.one 0x05, "SPT_SKIPPED", (.u 4), .ro, .V, 0, .any⟩]

/-- The objects at 7410h (rule and table of its chapter). -/
def rows7410 : List Row :=
  [⟨.one 0x01, "TELEM_PERIOD", (.i 8), .rw, .P, 10000000000000, (.rng 1000000000000 100000000000000)⟩]

/-- The objects at 7420h (rule and table of its chapter). -/
def rows7420 : List Row :=
  [⟨.one 0x01, "TEMP", (.i 4), .ro, .V, 0, .any⟩,
   ⟨.one 0x02, "TEMP_PEAK", (.i 4), .ro, .V, 0, .any⟩,
   ⟨.one 0x03, "WARN_LIMIT", (.i 4), .rw, .P, 100000, (.rng 50000 125000)⟩,
   ⟨.one 0x04, "CRIT_LIMIT", (.i 4), .rw, .P, 115000, (.rng 50000 125000)⟩]

/-- The objects at 7440h (rule and table of its chapter). -/
def rows7440 : List Row :=
  [⟨.one 0x01, "VIN", (.i 4), .ro, .V, 0, .any⟩,
   ⟨.one 0x02, "IIN", (.u 4), .ro, .V, 0, .any⟩,
   ⟨.one 0x03, "PIN", (.u 4), .ro, .V, 0, .any⟩,
   ⟨.one 0x04, "IIN_LIMIT", (.u 4), .rw, .P, 55000, (.rng 1000 60000)⟩]

/-- The objects at 7450h (rule and table of its chapter). -/
def rows7450 : List Row :=
  [⟨.one 0x01, "RAIL_V", (.i 4), .ro, .V, 0, .any⟩,
   ⟨.one 0x02, "RAIL_NOM", (.i 4), .const, .none, 0, .any⟩]

/-- The objects at 7460h (rule and table of its chapter). -/
def rows7460 : List Row :=
  [⟨.one 0x01, "NOR_COPIES", (.u 1), .ro, .V, 3, .any⟩,
   ⟨.rng 0x02 0x03, "FREE0", (.u 2), .ro, .V, 0, .any⟩,
   ⟨.one 0x04, "LIVE_BYTES", (.u 4), .ro, .V, 0, .any⟩,
   ⟨.one 0x05, "TAIL_BYTES", (.u 4), .ro, .V, 0, .any⟩,
   ⟨.one 0x06, "PCOMMITS_HOUR", (.u 2), .ro, .V, 0, .any⟩,
   ⟨.one 0x07, "LOW_SPACE", .bool, .ro, .V, 0, .any⟩,
   ⟨.one 0x08, "ERASE_MAX", (.u 4), .ro, .V, 0, .any⟩,
   ⟨.one 0x09, "WEAR_USED", (.u 2), .ro, .V, 0, .any⟩,
   ⟨.one 0x0a, "REFRESH_AGE", (.u 1), .rw, .P, 5, (.rng 1 10)⟩,
   ⟨.one 0x0b, "RETIRED", (.u 1), .ro, .V, 0, .any⟩,
   ⟨.one 0x0c, "TORN", (.u 4), .ro, .V, 0, .any⟩,
   ⟨.one 0x0d, "REPLAY_TIME", (.i 8), .ro, .V, 0, .any⟩]

/-- The objects at 7470h (rule and table of its chapter). -/
def rows7470 : List Row :=
  [⟨.one 0x01, "ACTIVE_SLOT", (.u 1), .ro, .V, 0, .any⟩,
   ⟨.rng 0x02 0x03, "SLOT_STATE_A", (.u 1), .ro, .V, 0, .any⟩,
   ⟨.rng 0x04 0x05, "SLOT_VERSION_A", (.u 4), .ro, .V, 0, .any⟩,
   ⟨.rng 0x06 0x07, "SLOT_SVN_A", (.u 1), .ro, .V, 0, .any⟩,
   ⟨.one 0x08, "FW_IMAGE", (.domain 16777216), .wo, .V, 0, .any⟩,
   ⟨.one 0x09, "FW_CMD", (.u 1), .wo, .V, 0, (.rng 1 4)⟩,
   ⟨.one 0x0a, "FW_STATUS", (.u 2), .ro, .V, 0, .any⟩,
   ⟨.one 0x0b, "CONFIRM_WINDOW", (.i 8), .rw, .P, 600000000000000000, (.rng 60000000000000000 3600000000000000000)⟩]

/-- The objects at 7480h (rule and table of its chapter). -/
def rows7480 : List Row :=
  [⟨.one 0x01, "PHASE", (.u 1), .ro, .V, 0, .any⟩,
   ⟨.one 0x02, "LAST_RESET", (.u 1), .ro, .V, 0, .any⟩,
   ⟨.one 0x03, "RESET_PHASE", (.u 1), .ro, .V, 0, .any⟩,
   ⟨.one 0x04, "BRINGUP_TIME", (.i 8), .ro, .V, 0, .any⟩,
   ⟨.one 0x05, "TRAIN_KIND", (.u 1), .ro, .V, 0, .any⟩,
   ⟨.one 0x06, "DEV_RESET", (.u 1), .wo, .V, 0, (.rng 1 2)⟩,
   ⟨.one 0x07, "DEV_RESET_STATUS", (.u 2), .ro, .V, 0, .any⟩,
   ⟨.one 0x08, "FORCE_FULL_TRAIN", .bool, .rw, .P, 0, .any⟩]

/-- The objects at 7481h (rule and table of its chapter). -/
def rows7481 : List Row :=
  [⟨.rng 0x01 0x06, "PHASE_TIME0", (.i 8), .ro, .V, 0, .any⟩]

/-- The objects at 7482h (rule and table of its chapter). -/
def rows7482 : List Row :=
  [⟨.one 0x01, "PFW_THRESHOLD", (.i 4), .rw, .P, 4500000, (.rng 4500000 16000000)⟩,
   ⟨.one 0x02, "PFW_ACTIVE", .bool, .ro, .V, 0, .any⟩,
   ⟨.one 0x03, "PFW_COUNT", (.u 4), .ro, .V, 0, .any⟩]

/-- The objects at 7483h (rule and table of its chapter). -/
def rows7483 : List Row :=
  [⟨.one 0x01, "TRAIN_RECORD", (.domain 65536), .ro, .P, 0, .any⟩,
   ⟨.one 0x02, "TRAIN_VALID", .bool, .ro, .V, 0, .any⟩]

/-- The objects at 7800h (rule and table of its chapter). -/
def rows7800 : List Row :=
  [⟨.one 0x01, "LIFECYCLE", (.u 1), .ro, .P, 0, .any⟩,
   ⟨.one 0x02, "LC_CHALLENGE", (.domain 48), .ro, .V, 0, .any⟩,
   ⟨.one 0x03, "LC_TOKEN", (.domain 248), .wo, .V, 0, .any⟩,
   ⟨.one 0x04, "LC_STATUS", (.u 2), .ro, .V, 0, .any⟩,
   ⟨.one 0x05, "TAMPER_COUNT", (.u 4), .ro, .P, 0, .any⟩,
   ⟨.one 0x06, "TAMPER_ACTIVE", .bool, .ro, .V, 0, .any⟩]

/-- The objects at 7810h (rule and table of its chapter). -/
def rows7810 : List Row :=
  [⟨.one 0x01, "SEAL_KEY", (.domain 96), .wo, .V, 0, .any⟩,
   ⟨.one 0x02, "KEY_STATE", (.u 1), .ro, .V, 0, .any⟩,
   ⟨.one 0x03, "KEY_WINDOW_LEFT", (.i 8), .ro, .V, 0, .any⟩,
   ⟨.one 0x04, "SEAL_KEY_HASH", (.domain 48), .ro, .V, 0, .any⟩]

/-- The objects at 7820h (rule and table of its chapter). -/
def rows7820 : List Row :=
  [⟨.one 0x01, "ROOT_KEY_HASH", (.domain 48), .const, .none, 0, .any⟩,
   ⟨.one 0x02, "FUSED_SVN", (.u 1), .ro, .V, 0, .any⟩]

/-- The objects at 8000h (rule and table of its chapter). -/
def rows8000 : List Row :=
  [⟨.rng 0x01 0x10, "CUST_V", (.u 8), .rw, .V, 0, .any⟩]

/-- The objects at 8080h (rule and table of its chapter). -/
def rows8080 : List Row :=
  [⟨.rng 0x01 0x10, "CUST_P", (.u 8), .rw, .P, 0, .any⟩]

/-- The row groups in ascending index: base index, how many units, rows. -/
def groups : List Group :=
  [⟨0x1000, 1, rows1000⟩,
   ⟨0x1008, 1, rows1008⟩,
   ⟨0x1100, 1, rows1100⟩,
   ⟨0x1140, 1, rows1140⟩,
   ⟨0x1141, 1, rows1141⟩,
   ⟨0x1142, 1, rows1142⟩,
   ⟨0x1150, 33, rows1150⟩,
   ⟨0x1180, 32, rows1180⟩,
   ⟨0x1200, 1, rows1200⟩,
   ⟨0x1210, 8, rows1210⟩,
   ⟨0x1800, 1, rows1800⟩,
   ⟨0x1810, 1, rows1810⟩,
   ⟨0x1811, 1, rows1811⟩,
   ⟨0x2000, 1, rows2000⟩,
   ⟨0x2010, 1, rows2010⟩,
   ⟨0x2020, 32, rows2020⟩] ++
  [⟨0x2040, 32, rows2040⟩,
   ⟨0x2200, 1, rows2200⟩,
   ⟨0x2201, 1, rows2201⟩,
   ⟨0x2205, 1, rows2205⟩,
   ⟨0x2206, 1, rows2206⟩,
   ⟨0x2210, 32, rows2210⟩,
   ⟨0x2230, 32, rows2230⟩,
   ⟨0x2250, 32, rows2250⟩,
   ⟨0x2270, 32, rows2270⟩,
   ⟨0x2400, 1, rows2400⟩,
   ⟨0x2401, 1, rows2401⟩,
   ⟨0x2402, 1, rows2402⟩,
   ⟨0x2403, 1, rows2403⟩,
   ⟨0x2405, 1, rows2405⟩,
   ⟨0x2406, 1, rows2406⟩,
   ⟨0x2440, 32, rows2440⟩] ++
  [⟨0x2460, 32, rows2460⟩,
   ⟨0x2480, 64, rows2480⟩,
   ⟨0x2600, 1, rows2600⟩,
   ⟨0x2610, 32, rows2610⟩,
   ⟨0x2630, 32, rows2630⟩,
   ⟨0x2650, 32, rows2650⟩,
   ⟨0x2680, 8, rows2680⟩,
   ⟨0x3000, 256, rows3000⟩,
   ⟨0x3100, 256, rows3100⟩,
   ⟨0x3400, 2048, rows3400⟩,
   ⟨0x4000, 1, rows4000⟩,
   ⟨0x4010, 16, rows4010⟩,
   ⟨0x4400, 1, rows4400⟩,
   ⟨0x4410, 8, rows4410⟩,
   ⟨0x4420, 8, rows4420⟩,
   ⟨0x4430, 8, rows4430⟩] ++
  [⟨0x4800, 1, rows4800⟩,
   ⟨0x4801, 1, rows4801⟩,
   ⟨0x4810, 32, rows4810⟩,
   ⟨0x4830, 10, rows4830⟩,
   ⟨0x4840, 10, rows4840⟩,
   ⟨0x4850, 80, rows4850⟩,
   ⟨0x48a0, 1, rows48A0⟩,
   ⟨0x5000, 192, rows5000⟩,
   ⟨0x50c0, 8, rows50C0⟩,
   ⟨0x50d0, 1, rows50D0⟩,
   ⟨0x50e0, 32, rows50E0⟩,
   ⟨0x5400, 1, rows5400⟩,
   ⟨0x5410, 10, rows5410⟩,
   ⟨0x5430, 1, rows5430⟩,
   ⟨0x5431, 1, rows5431⟩,
   ⟨0x5438, 1, rows5438⟩] ++
  [⟨0x5439, 1, rows5439⟩,
   ⟨0x5440, 192, rows5440⟩,
   ⟨0x6000, 1, rows6000⟩,
   ⟨0x6001, 3, rows6001⟩,
   ⟨0x6008, 1, rows6008⟩,
   ⟨0x6010, 1, rows6010⟩,
   ⟨0x6020, 1, rows6020⟩,
   ⟨0x6030, 8, rows6030⟩,
   ⟨0x6040, 1, rows6040⟩,
   ⟨0x6400, 1, rows6400⟩,
   ⟨0x6410, 16, rows6410⟩,
   ⟨0x6430, 16, rows6430⟩,
   ⟨0x7000, 1, rows7000⟩,
   ⟨0x7008, 1, rows7008⟩,
   ⟨0x7010, 1, rows7010⟩,
   ⟨0x7018, 1, rows7018⟩] ++
  [⟨0x7020, 32, rows7020⟩,
   ⟨0x7060, 1, rows7060⟩,
   ⟨0x7061, 1, rows7061⟩,
   ⟨0x7068, 1, rows7068⟩,
   ⟨0x7400, 1, rows7400⟩,
   ⟨0x7401, 4, rows7401⟩,
   ⟨0x7410, 1, rows7410⟩,
   ⟨0x7420, 24, rows7420⟩,
   ⟨0x7440, 1, rows7440⟩,
   ⟨0x7450, 14, rows7450⟩,
   ⟨0x7460, 1, rows7460⟩,
   ⟨0x7470, 1, rows7470⟩,
   ⟨0x7480, 1, rows7480⟩,
   ⟨0x7481, 1, rows7481⟩,
   ⟨0x7482, 1, rows7482⟩,
   ⟨0x7483, 1, rows7483⟩] ++
  [⟨0x7800, 1, rows7800⟩,
   ⟨0x7810, 1, rows7810⟩,
   ⟨0x7820, 1, rows7820⟩,
   ⟨0x8000, 128, rows8000⟩,
   ⟨0x8080, 128, rows8080⟩]

/-- The key of an object: index.sub as one number. -/
def ob (idx sub : Nat) : Nat := idx * 256 + sub

/-- Whether a row holds a subindex. -/
def Sel.has (s : Sel) (sub : Nat) : Bool :=
  match s with
  | .one a => sub == a
  | .rng lo hi => decide (lo ≤ sub) && decide (sub ≤ hi)
  | .step lo => decide (lo ≤ sub) && decide (sub ≤ lo + 180) && (sub - lo) % 12 == 0

/-- The group that holds an index, if any (R615: every other index is absent). -/
def groupOf (idx : Nat) : Option Group :=
  groups.find? (fun g => decide (g.base ≤ idx) && decide (idx < g.base + g.count))

/-- The row of an object, if it exists. -/
def rowOf (k : Nat) : Option Row :=
  match groupOf (k / 256) with
  | none => none
  | some g => g.rows.find? (fun r => r.sel.has (k % 256))

/-- The subindexes of a row in ascending order. -/
def Sel.list (s : Sel) : List Nat :=
  match s with
  | .one a => [a]
  | .rng lo hi => (List.range (hi + 1 - lo)).map (· + lo)
  | .step lo => (List.range 16).map (fun e => lo + 12 * e)

/-- The highest subindex in use at an index, the value of subindex 00h (R609). -/
def maxSub (g : Group) : Nat :=
  (g.rows.map (fun r => (r.sel.list).foldl max 0)).foldl max 0

/-- GROUP_MAP defaults (R485): the DACs of a level group by role. -/
def groupMapDflt (grp role : Nat) : Int :=
  let b : Nat := grp / 4
  let g : Nat := grp % 4
  let off : Nat :=
    match role with
    | 0 => 4 * g
    | 1 => 4 * g + 1
    | 2 => 4 * g + 2
    | 3 => 4 * g + 3
    | 4 => 4 * g + 1
    | 5 => 16 + 2 * g
    | _ => 17 + 2 * g
  (24 * b + off : Nat)

/-- Nominal rail voltages in microvolts (Table 15.2). -/
def railNom (r : Nat) : Int :=
  match r with
  | 0 => 750000 | 1 => 850000 | 2 => 900000 | 3 => 1200000 | 4 => 1100000 | 5 => 400000 | 6 => 1800000
  | 7 => 1100000 | 8 => 850000 | 9 => 1200000 | 10 => 6000000 | 11 => -3300000 | 12 => 850000 | 13 => 1800000
  | _ => 0

/-- The default of an object (the tables; for the objects that Tables 0.2 to 18 leave to the device or to the
unit, the values that the assumption log names). -/
def dflt (k : Nat) : Int :=
  let idx := k / 256
  let sub := k % 256
  if idx = 0x2401 then
    (match sub with | 1 => 2000000 | 2 => 1000000 | 3 => 200000 | 4 => 250000 | 5 => 24000 | 6 => 140000 | _ => 0)
  else if idx = 0x1142 then (if 1 ≤ sub ∧ sub ≤ 32 then (sub : Int) else 0)
  else if 0x5000 ≤ idx ∧ idx < 0x50C0 ∧ sub = 1 then (if (idx - 0x5000) % 24 < 16 then 0 else 1)
  else if 0x50E0 ≤ idx ∧ idx < 0x5100 then
    (if 1 ≤ sub ∧ sub ≤ 7 then groupMapDflt (idx - 0x50E0) (sub - 1) else 0)
  else if idx = 0x1140 ∧ sub = 1 then (Config.vendorId.toNat : Int)
  else if idx = 0x1000 ∧ sub = 4 then (Config.siliconRev.toNat : Int)
  else if idx = 0x1100 ∧ sub = 2 then (Config.macAddr.toNat : Int)
  else if 0x7450 ≤ idx ∧ idx < 0x745E ∧ sub = 2 then railNom (idx - 0x7450)
  else
    match rowOf k with
    | none => 0
    | some r => r.dv

/-- The largest value of a row's type: where its saturating counters stay. -/
def Ty.maxVal : Ty → Int
  | .bool => 1
  | .u n => (256 ^ n : Nat) - 1
  | .i n => (256 ^ n / 2 : Nat) - 1
  | .f32 => 4294967295
  | .str => 255
  | .domain m => m

end Sys2Proof.Machine.Objects
end

