-- ==== Sys2Proof/Machine/Keys.lean ====
section
/-! DEFINITION. The names of the objects: K.<area>_<NAME> is the key of the object that the manual calls NAME at that
area (unit, then position in a range or edge set, as arguments). Written from the object tables of the chapters. -/
namespace Sys2Proof.Machine.K
open Sys2Proof.Machine.Objects

/-- 1000h.01h VENDOR_NAME -/
abbrev id_VENDOR_NAME : Nat := ob 0x1000 0x01
/-- 1000h.02h PRODUCT -/
abbrev id_PRODUCT : Nat := ob 0x1000 0x02
/-- 1000h.03h SERIAL -/
abbrev id_SERIAL : Nat := ob 0x1000 0x03
/-- 1000h.04h SILICON_REV -/
abbrev id_SILICON_REV : Nat := ob 0x1000 0x04
/-- 1000h.05h DICT_VERSION -/
abbrev id_DICT_VERSION : Nat := ob 0x1000 0x05
/-- 1008h.01h FAM_MEMBER -/
abbrev fam_FAM_MEMBER : Nat := ob 0x1008 0x01
/-- 1008h.02h FAM_BANKS -/
abbrev fam_FAM_BANKS : Nat := ob 0x1008 0x02
/-- 1008h.03h FAM_CHANNELS -/
abbrev fam_FAM_CHANNELS : Nat := ob 0x1008 0x03
/-- 1008h.04h FAM_SITES -/
abbrev fam_FAM_SITES : Nat := ob 0x1008 0x04
/-- 1008h.05h FAM_SPARS -/
abbrev fam_FAM_SPARS : Nat := ob 0x1008 0x05
/-- 1008h.06h FAM_LEVEL_DACS -/
abbrev fam_FAM_LEVEL_DACS : Nat := ob 0x1008 0x06
/-- 1008h.07h FAM_TMUS -/
abbrev fam_FAM_TMUS : Nat := ob 0x1008 0x07
/-- 1008h.08h FAM_WF_ENGINES -/
abbrev fam_FAM_WF_ENGINES : Nat := ob 0x1008 0x08
/-- 1008h.09h FAM_HBM_STACKS -/
abbrev fam_FAM_HBM_STACKS : Nat := ob 0x1008 0x09
/-- 1008h.0Ah FAM_DDR5_CHANNELS -/
abbrev fam_FAM_DDR5_CHANNELS : Nat := ob 0x1008 0x0a
/-- 1100h.01h NODE_ID -/
abbrev net_NODE_ID : Nat := ob 0x1100 0x01
/-- 1100h.02h MAC_ADDR -/
abbrev net_MAC_ADDR : Nat := ob 0x1100 0x02
/-- 1100h.03h PLCA_EN -/
abbrev net_PLCA_EN : Nat := ob 0x1100 0x03
/-- 1100h.04h PLCA_TO -/
abbrev net_PLCA_TO : Nat := ob 0x1100 0x04
/-- 1100h.05h PLCA_BURST_CNT -/
abbrev net_PLCA_BURST_CNT : Nat := ob 0x1100 0x05
/-- 1100h.06h PLCA_BURST_TMR -/
abbrev net_PLCA_BURST_TMR : Nat := ob 0x1100 0x06
/-- 1100h.07h PLCA_STATUS -/
abbrev net_PLCA_STATUS : Nat := ob 0x1100 0x07
/-- 1100h.08h SEG_MAX -/
abbrev net_SEG_MAX : Nat := ob 0x1100 0x08
/-- 1100h.09h T1S_WRITE -/
abbrev net_T1S_WRITE : Nat := ob 0x1100 0x09
/-- 1100h.0Ah NOTIFY_NODE -/
abbrev net_NOTIFY_NODE : Nat := ob 0x1100 0x0a
/-- 1100h.0Bh NOTIFY_EN -/
abbrev net_NOTIFY_EN : Nat := ob 0x1100 0x0b
/-- 1100h.0Ch KDP_RX -/
abbrev net_KDP_RX : Nat := ob 0x1100 0x0c
/-- 1100h.0Dh KDP_RETX -/
abbrev net_KDP_RETX : Nat := ob 0x1100 0x0d
/-- 1100h.0Eh KDP_BAD -/
abbrev net_KDP_BAD : Nat := ob 0x1100 0x0e
/-- 1100h.0Fh NOTIFY_LOST -/
abbrev net_NOTIFY_LOST : Nat := ob 0x1100 0x0f
/-- 1140h.01h VENDOR_ID -/
abbrev pcie_VENDOR_ID : Nat := ob 0x1140 0x01
/-- 1140h.02h PF_DEVICE_ID -/
abbrev pcie_PF_DEVICE_ID : Nat := ob 0x1140 0x02
/-- 1140h.03h VF_DEVICE_ID -/
abbrev pcie_VF_DEVICE_ID : Nat := ob 0x1140 0x03
/-- 1140h.04h LINK_SPEED -/
abbrev pcie_LINK_SPEED : Nat := ob 0x1140 0x04
/-- 1140h.05h LINK_WIDTH -/
abbrev pcie_LINK_WIDTH : Nat := ob 0x1140 0x05
/-- 1140h.06h NUM_VFS -/
abbrev pcie_NUM_VFS : Nat := ob 0x1140 0x06
/-- 1140h.07h TAG10 -/
abbrev pcie_TAG10 : Nat := ob 0x1140 0x07
/-- 1140h.08h MPS -/
abbrev pcie_MPS : Nat := ob 0x1140 0x08
/-- 1140h.09h MRRS -/
abbrev pcie_MRRS : Nat := ob 0x1140 0x09
/-- 1140h.0Ah LINK_DOWNS -/
abbrev pcie_LINK_DOWNS : Nat := ob 0x1140 0x0a
/-- 1140h.0Bh INFLIGHT -/
abbrev pcie_INFLIGHT : Nat := ob 0x1140 0x0b
/-- 1140h.0Ch TAGS_OUT -/
abbrev pcie_TAGS_OUT : Nat := ob 0x1140 0x0c
/-- 1141h.01h to .20h QP_QUOTA -/
abbrev qp_QP_QUOTA (j : Nat) : Nat := ob 0x1141 (0x01 + j)
/-- 1142h.01h to .20h SITE_FUNC -/
abbrev sf_SITE_FUNC (j : Nat) : Nat := ob 0x1142 (0x01 + j)
/-- 1150h + i.01h WEIGHT -/
abbrev fn_WEIGHT (i : Nat) : Nat := ob (0x1150 + i) 0x01
/-- 1150h + i.02h FN_SITE_MASK -/
abbrev fn_FN_SITE_MASK (i : Nat) : Nat := ob (0x1150 + i) 0x02
/-- 1150h + i.03h QUEUES -/
abbrev fn_QUEUES (i : Nat) : Nat := ob (0x1150 + i) 0x03
/-- 1150h + i.04h FN_INFLIGHT_NOW -/
abbrev fn_FN_INFLIGHT_NOW (i : Nat) : Nat := ob (0x1150 + i) 0x04
/-- 1180h + i.01h EVT_LOST -/
abbrev se_EVT_LOST (i : Nat) : Nat := ob (0x1180 + i) 0x01
/-- 1180h + i.02h EVT_WAITING -/
abbrev se_EVT_WAITING (i : Nat) : Nat := ob (0x1180 + i) 0x02
/-- 1200h.01h TXN_TIMEOUT -/
abbrev te_TXN_TIMEOUT : Nat := ob 0x1200 0x01
/-- 1200h.02h TXN_OPEN -/
abbrev te_TXN_OPEN : Nat := ob 0x1200 0x02
/-- 1200h.03h APPLIES -/
abbrev te_APPLIES : Nat := ob 0x1200 0x03
/-- 1200h.04h TIMEOUTS -/
abbrev te_TIMEOUTS : Nat := ob 0x1200 0x04
/-- 1200h.05h STAGING_MAX -/
abbrev te_STAGING_MAX : Nat := ob 0x1200 0x05
/-- 1200h.06h TXN_MAX -/
abbrev te_TXN_MAX : Nat := ob 0x1200 0x06
/-- 1210h + i.01h TXN_NUM -/
abbrev tr_TXN_NUM (i : Nat) : Nat := ob (0x1210 + i) 0x01
/-- 1210h + i.02h TXN_STATE -/
abbrev tr_TXN_STATE (i : Nat) : Nat := ob (0x1210 + i) 0x02
/-- 1210h + i.03h TXN_PATH -/
abbrev tr_TXN_PATH (i : Nat) : Nat := ob (0x1210 + i) 0x03
/-- 1210h + i.04h TXN_OWNER -/
abbrev tr_TXN_OWNER (i : Nat) : Nat := ob (0x1210 + i) 0x04
/-- 1210h + i.05h STAGED_BYTES -/
abbrev tr_STAGED_BYTES (i : Nat) : Nat := ob (0x1210 + i) 0x05
/-- 1210h + i.06h APPLY_KIND -/
abbrev tr_APPLY_KIND (i : Nat) : Nat := ob (0x1210 + i) 0x06
/-- 1210h + i.07h APPLY_SITES -/
abbrev tr_APPLY_SITES (i : Nat) : Nat := ob (0x1210 + i) 0x07
/-- 1210h + i.08h TXN_STATUS -/
abbrev tr_TXN_STATUS (i : Nat) : Nat := ob (0x1210 + i) 0x08
/-- 1210h + i.09h FIRST_OBJECT -/
abbrev tr_FIRST_OBJECT (i : Nat) : Nat := ob (0x1210 + i) 0x09
/-- 1210h + i.0Ah DETAIL -/
abbrev tr_DETAIL (i : Nat) : Nat := ob (0x1210 + i) 0x0a
/-- 1800h.01h UTC_NOW -/
abbrev utc_UTC_NOW : Nat := ob 0x1800 0x01
/-- 1800h.02h UTC_SET -/
abbrev utc_UTC_SET : Nat := ob 0x1800 0x02
/-- 1810h.01h EVLOG_OLDEST -/
abbrev ev_EVLOG_OLDEST : Nat := ob 0x1810 0x01
/-- 1810h.02h EVLOG_NEXT -/
abbrev ev_EVLOG_NEXT : Nat := ob 0x1810 0x02
/-- 1810h.03h EVLOG_FROM -/
abbrev ev_EVLOG_FROM : Nat := ob 0x1810 0x03
/-- 1810h.04h EVLOG_LOST -/
abbrev ev_EVLOG_LOST : Nat := ob 0x1810 0x04
/-- 1811h.01h EVLOG_DATA -/
abbrev evd_EVLOG_DATA : Nat := ob 0x1811 0x01
/-- 2000h.01h SITES -/
abbrev sg_SITES : Nat := ob 0x2000 0x01
/-- 2000h.02h RIDGE_ARM -/
abbrev sg_RIDGE_ARM : Nat := ob 0x2000 0x02
/-- 2000h.03h RIDGE_STARTS -/
abbrev sg_RIDGE_STARTS : Nat := ob 0x2000 0x03
/-- 2000h.04h RIDGE_SKIPPED -/
abbrev sg_RIDGE_SKIPPED : Nat := ob 0x2000 0x04
/-- 2000h.05h SITES_RUNNING -/
abbrev sg_SITES_RUNNING : Nat := ob 0x2000 0x05
/-- 2010h.01h SITE_CMD -/
abbrev sc_SITE_CMD : Nat := ob 0x2010 0x01
/-- 2010h.02h CMD_COUNT -/
abbrev sc_CMD_COUNT : Nat := ob 0x2010 0x02
/-- 2020h + i.01h to .04h CHAN_MASK0 -/
abbrev cf_CHAN_MASK (i : Nat) (j : Nat) : Nat := ob (0x2020 + i) (0x01 + j)
/-- 2020h + i.05h SITE_OCTETS -/
abbrev cf_SITE_OCTETS (i : Nat) : Nat := ob (0x2020 + i) 0x05
/-- 2020h + i.06h BEATS -/
abbrev cf_BEATS (i : Nat) : Nat := ob (0x2020 + i) 0x06
/-- 2020h + i.07h PAUSABLE -/
abbrev cf_PAUSABLE (i : Nat) : Nat := ob (0x2020 + i) 0x07
/-- 2020h + i.08h START_MODE -/
abbrev cf_START_MODE (i : Nat) : Nat := ob (0x2020 + i) 0x08
/-- 2020h + i.09h BOARD_RT -/
abbrev cf_BOARD_RT (i : Nat) : Nat := ob (0x2020 + i) 0x09
/-- 2020h + i.0Ah RESUME_SRC -/
abbrev cf_RESUME_SRC (i : Nat) : Nat := ob (0x2020 + i) 0x0a
/-- 2040h + i.01h STATE -/
abbrev st_STATE (i : Nat) : Nat := ob (0x2040 + i) 0x01
/-- 2040h + i.02h READY -/
abbrev st_READY (i : Nat) : Nat := ob (0x2040 + i) 0x02
/-- 2040h + i.03h STOP_CAUSE -/
abbrev st_STOP_CAUSE (i : Nat) : Nat := ob (0x2040 + i) 0x03
/-- 2040h + i.04h FAULT_SOURCE -/
abbrev st_FAULT_SOURCE (i : Nat) : Nat := ob (0x2040 + i) 0x04
/-- 2040h + i.05h LAST_CMD_STATUS -/
abbrev st_LAST_CMD_STATUS (i : Nat) : Nat := ob (0x2040 + i) 0x05
/-- 2040h + i.06h HORIZON -/
abbrev st_HORIZON (i : Nat) : Nat := ob (0x2040 + i) 0x06
/-- 2040h + i.07h MIN_BOARD_RT -/
abbrev st_MIN_BOARD_RT (i : Nat) : Nat := ob (0x2040 + i) 0x07
/-- 2040h + i.08h EVT_LATCHED -/
abbrev st_EVT_LATCHED (i : Nat) : Nat := ob (0x2040 + i) 0x08
/-- 2040h + i.09h CYCLE -/
abbrev st_CYCLE (i : Nat) : Nat := ob (0x2040 + i) 0x09
/-- 2040h + i.0Ah PAUSES -/
abbrev st_PAUSES (i : Nat) : Nat := ob (0x2040 + i) 0x0a
/-- 2200h.01h CS_WORDS -/
abbrev cs_CS_WORDS : Nat := ob 0x2200 0x01
/-- 2200h.02h CUST_BASE -/
abbrev cs_CUST_BASE : Nat := ob 0x2200 0x02
/-- 2200h.03h CUST_LIMIT -/
abbrev cs_CUST_LIMIT : Nat := ob 0x2200 0x03
/-- 2200h.04h CS_CE_COUNT -/
abbrev cs_CS_CE_COUNT : Nat := ob 0x2200 0x04
/-- 2200h.05h CS_UE_COUNT -/
abbrev cs_CS_UE_COUNT : Nat := ob 0x2200 0x05
/-- 2200h.06h CS_LAST_STATUS -/
abbrev cs_CS_LAST_STATUS : Nat := ob 0x2200 0x06
/-- 2200h.07h CS_LAST_ADDR -/
abbrev cs_CS_LAST_ADDR : Nat := ob 0x2200 0x07
/-- 2201h.01h VENDOR_VERSION -/
abbrev vd_VENDOR_VERSION : Nat := ob 0x2201 0x01
/-- 2201h.02h VENDOR_CRC -/
abbrev vd_VENDOR_CRC : Nat := ob 0x2201 0x02
/-- 2201h.03h VENDOR_ENTRIES -/
abbrev vd_VENDOR_ENTRIES : Nat := ob 0x2201 0x03
/-- 2201h.04h VENDOR_DIR -/
abbrev vd_VENDOR_DIR : Nat := ob 0x2201 0x04
/-- 2205h.01h CS_DOMAIN_ADDR -/
abbrev csa_CS_DOMAIN_ADDR : Nat := ob 0x2205 0x01
/-- 2206h.01h CS_DOMAIN -/
abbrev csd_CS_DOMAIN : Nat := ob 0x2206 0x01
/-- 2210h + i.01h START_ADDR -/
abbrev sq_START_ADDR (i : Nat) : Nat := ob (0x2210 + i) 0x01
/-- 2210h + i.02h WIN_BASE -/
abbrev sq_WIN_BASE (i : Nat) : Nat := ob (0x2210 + i) 0x02
/-- 2210h + i.03h WIN_LIMIT -/
abbrev sq_WIN_LIMIT (i : Nat) : Nat := ob (0x2210 + i) 0x03
/-- 2210h + i.04h VEC_PER_FRAME -/
abbrev sq_VEC_PER_FRAME (i : Nat) : Nat := ob (0x2210 + i) 0x04
/-- 2210h + i.05h ABORT_WAIT -/
abbrev sq_ABORT_WAIT (i : Nat) : Nat := ob (0x2210 + i) 0x05
/-- 2210h + i.06h INIT_TSET -/
abbrev sq_INIT_TSET (i : Nat) : Nat := ob (0x2210 + i) 0x06
/-- 2230h + i.01h PC -/
abbrev sr_PC (i : Nat) : Nat := ob (0x2230 + i) 0x01
/-- 2230h + i.02h LAST_SAFE_PC -/
abbrev sr_LAST_SAFE_PC (i : Nat) : Nat := ob (0x2230 + i) 0x02
/-- 2230h + i.03h STACK_DEPTH -/
abbrev sr_STACK_DEPTH (i : Nat) : Nat := ob (0x2230 + i) 0x03
/-- 2230h + i.04h PENDING_INT -/
abbrev sr_PENDING_INT (i : Nat) : Nat := ob (0x2230 + i) 0x04
/-- 2230h + i.05h FRAMES -/
abbrev sr_FRAMES (i : Nat) : Nat := ob (0x2230 + i) 0x05
/-- 2230h + i.06h EXECUTIONS -/
abbrev sr_EXECUTIONS (i : Nat) : Nat := ob (0x2230 + i) 0x06
/-- 2230h + i.07h SINCE_SAFE -/
abbrev sr_SINCE_SAFE (i : Nat) : Nat := ob (0x2230 + i) 0x07
/-- 2230h + i.08h MAX_SINCE_SAFE -/
abbrev sr_MAX_SINCE_SAFE (i : Nat) : Nat := ob (0x2230 + i) 0x08
/-- 2230h + i.09h REP_LEFT -/
abbrev sr_REP_LEFT (i : Nat) : Nat := ob (0x2230 + i) 0x09
/-- 2230h + i.0Ah HOST_FLAG -/
abbrev sr_HOST_FLAG (i : Nat) : Nat := ob (0x2230 + i) 0x0a
/-- 2230h + i.0Bh STICKY_FAIL -/
abbrev sr_STICKY_FAIL (i : Nat) : Nat := ob (0x2230 + i) 0x0b
/-- 2230h + i.0Ch LAST_SEQ_FAULT -/
abbrev sr_LAST_SEQ_FAULT (i : Nat) : Nat := ob (0x2230 + i) 0x0c
/-- 2250h + i.01h to .10h LC0 -/
abbrev lc_LC (i : Nat) (j : Nat) : Nat := ob (0x2250 + i) (0x01 + j)
/-- 2250h + i.11h to .20h MARK0 -/
abbrev lc_MARK (i : Nat) (j : Nat) : Nat := ob (0x2250 + i) (0x11 + j)
/-- 2270h + i.01h to .40h PARAM0 -/
abbrev pa_PARAM (i : Nat) (j : Nat) : Nat := ob (0x2270 + i) (0x01 + j)
/-- 2400h.01h HBM_CAPACITY -/
abbrev hm_HBM_CAPACITY : Nat := ob 0x2400 0x01
/-- 2400h.02h HBM_FREE -/
abbrev hm_HBM_FREE : Nat := ob 0x2400 0x02
/-- 2400h.03h DDR5_INSTALLED -/
abbrev hm_DDR5_INSTALLED : Nat := ob 0x2400 0x03
/-- 2400h.04h DDR5_FREE -/
abbrev hm_DDR5_FREE : Nat := ob 0x2400 0x04
/-- 2400h.05h DIMM_PRESENT -/
abbrev hm_DIMM_PRESENT : Nat := ob 0x2400 0x05
/-- 2400h.06h SEG_USED -/
abbrev hm_SEG_USED : Nat := ob 0x2400 0x06
/-- 2400h.07h STREAMS_OPEN -/
abbrev hm_STREAMS_OPEN : Nat := ob 0x2400 0x07
/-- 2401h.01h to .06h ADM_BUDGET -/
abbrev ab_ADM_BUDGET (j : Nat) : Nat := ob 0x2401 (0x01 + j)
/-- 2402h.01h to .06h ADM_RESERVED -/
abbrev ar_ADM_RESERVED (j : Nat) : Nat := ob 0x2402 (0x01 + j)
/-- 2403h.01h REFUSED_SITE -/
abbrev rf_REFUSED_SITE : Nat := ob 0x2403 0x01
/-- 2403h.02h REFUSED_STATUS -/
abbrev rf_REFUSED_STATUS : Nat := ob 0x2403 0x02
/-- 2403h.03h REFUSED_SUM -/
abbrev rf_REFUSED_SUM : Nat := ob 0x2403 0x03
/-- 2403h.04h REFUSED_BUDGET -/
abbrev rf_REFUSED_BUDGET : Nat := ob 0x2403 0x04
/-- 2405h.01h PATROL_SWEEPS -/
abbrev hs_PATROL_SWEEPS : Nat := ob 0x2405 0x01
/-- 2405h.02h HBM_CE -/
abbrev hs_HBM_CE : Nat := ob 0x2405 0x02
/-- 2405h.03h HBM_UE -/
abbrev hs_HBM_UE : Nat := ob 0x2405 0x03
/-- 2406h.01h DDR5_CE -/
abbrev ds_DDR5_CE : Nat := ob 0x2406 0x01
/-- 2406h.02h DDR5_UE -/
abbrev ds_DDR5_UE : Nat := ob 0x2406 0x02
/-- 2406h.03h DIMM_TEMP_MAX -/
abbrev ds_DIMM_TEMP_MAX : Nat := ob 0x2406 0x03
/-- 2440h + i.01h DECL_FETCH -/
abbrev md_DECL_FETCH (i : Nat) : Nat := ob (0x2440 + i) 0x01
/-- 2440h + i.02h DECL_FAIL -/
abbrev md_DECL_FAIL (i : Nat) : Nat := ob (0x2440 + i) 0x02
/-- 2440h + i.03h DECL_SAMPLE -/
abbrev md_DECL_SAMPLE (i : Nat) : Nat := ob (0x2440 + i) 0x03
/-- 2440h + i.04h DECL_DEEP -/
abbrev md_DECL_DEEP (i : Nat) : Nat := ob (0x2440 + i) 0x04
/-- 2440h + i.05h DECL_STREAM -/
abbrev md_DECL_STREAM (i : Nat) : Nat := ob (0x2440 + i) 0x05
/-- 2440h + i.06h DECL_SPILL -/
abbrev md_DECL_SPILL (i : Nat) : Nat := ob (0x2440 + i) 0x06
/-- 2440h + i.07h STAGE_WINDOW -/
abbrev md_STAGE_WINDOW (i : Nat) : Nat := ob (0x2440 + i) 0x07
/-- 2440h + i.08h SEG_UNDERRUN_ACTION -/
abbrev md_SEG_UNDERRUN_ACTION (i : Nat) : Nat := ob (0x2440 + i) 0x08
/-- 2440h + i.09h RESERVED_NOW -/
abbrev md_RESERVED_NOW (i : Nat) : Nat := ob (0x2440 + i) 0x09
/-- 2440h + i.0Ah OVER_RES_COUNT -/
abbrev md_OVER_RES_COUNT (i : Nat) : Nat := ob (0x2440 + i) 0x0a
/-- 2440h + i.0Bh PAD_FRAMES -/
abbrev md_PAD_FRAMES (i : Nat) : Nat := ob (0x2440 + i) 0x0b
/-- 2440h + i.0Ch SEG_UNDERRUN_FLAG -/
abbrev md_SEG_UNDERRUN_FLAG (i : Nat) : Nat := ob (0x2440 + i) 0x0c
/-- 2440h + i.0Dh LAST_ARM_STATUS -/
abbrev md_LAST_ARM_STATUS (i : Nat) : Nat := ob (0x2440 + i) 0x0d
/-- 2460h + i.01h to .40h SOURCE_ENTRY -/
abbrev sl_SOURCE_ENTRY (i : Nat) (j : Nat) : Nat := ob (0x2460 + i) (0x01 + j)
/-- 2480h + i.01h STATE -/
abbrev sm_STATE (i : Nat) : Nat := ob (0x2480 + i) 0x01
/-- 2480h + i.02h OWNER_SITE -/
abbrev sm_OWNER_SITE (i : Nat) : Nat := ob (0x2480 + i) 0x02
/-- 2480h + i.03h FEED_QUEUE -/
abbrev sm_FEED_QUEUE (i : Nat) : Nat := ob (0x2480 + i) 0x03
/-- 2480h + i.04h WINDOW -/
abbrev sm_WINDOW (i : Nat) : Nat := ob (0x2480 + i) 0x04
/-- 2480h + i.05h PRIME -/
abbrev sm_PRIME (i : Nat) : Nat := ob (0x2480 + i) 0x05
/-- 2480h + i.06h UNDERRUN_ACTION -/
abbrev sm_UNDERRUN_ACTION (i : Nat) : Nat := ob (0x2480 + i) 0x06
/-- 2480h + i.07h UNDERRUN_FLAG -/
abbrev sm_UNDERRUN_FLAG (i : Nat) : Nat := ob (0x2480 + i) 0x07
/-- 2480h + i.08h UNDERRUN_COUNT -/
abbrev sm_UNDERRUN_COUNT (i : Nat) : Nat := ob (0x2480 + i) 0x08
/-- 2480h + i.09h PAD_FRAMES -/
abbrev sm_PAD_FRAMES (i : Nat) : Nat := ob (0x2480 + i) 0x09
/-- 2480h + i.0Ah WR_PTR -/
abbrev sm_WR_PTR (i : Nat) : Nat := ob (0x2480 + i) 0x0a
/-- 2480h + i.0Bh RD_PTR -/
abbrev sm_RD_PTR (i : Nat) : Nat := ob (0x2480 + i) 0x0b
/-- 2480h + i.0Ch HIGH -/
abbrev sm_HIGH (i : Nat) : Nat := ob (0x2480 + i) 0x0c
/-- 2480h + i.0Dh RETAIN -/
abbrev sm_RETAIN (i : Nat) : Nat := ob (0x2480 + i) 0x0d
/-- 2480h + i.0Eh LAST_STATUS -/
abbrev sm_LAST_STATUS (i : Nat) : Nat := ob (0x2480 + i) 0x0e
/-- 2600h.01h LOG_CEILING -/
abbrev fl_LOG_CEILING : Nat := ob 0x2600 0x01
/-- 2600h.02h ENTRY_SIZE -/
abbrev fl_ENTRY_SIZE : Nat := ob 0x2600 0x02
/-- 2600h.03h LOG_RATE_NOW -/
abbrev fl_LOG_RATE_NOW : Nat := ob 0x2600 0x03
/-- 2610h + i.01h LOG_EXTENTS -/
abbrev fc_LOG_EXTENTS (i : Nat) : Nat := ob (0x2610 + i) 0x01
/-- 2610h + i.02h LOG_FULL_ACTION -/
abbrev fc_LOG_FULL_ACTION (i : Nat) : Nat := ob (0x2610 + i) 0x02
/-- 2610h + i.03h SPILL_SIZE -/
abbrev fc_SPILL_SIZE (i : Nat) : Nat := ob (0x2610 + i) 0x03
/-- 2610h + i.04h CAP_EXTENTS -/
abbrev fc_CAP_EXTENTS (i : Nat) : Nat := ob (0x2610 + i) 0x04
/-- 2610h + i.05h CAP_FULL_ACTION -/
abbrev fc_CAP_FULL_ACTION (i : Nat) : Nat := ob (0x2610 + i) 0x05
/-- 2630h + i.01h LOG_WRITTEN -/
abbrev fr_LOG_WRITTEN (i : Nat) : Nat := ob (0x2630 + i) 0x01
/-- 2630h + i.02h LOG_OLDEST -/
abbrev fr_LOG_OLDEST (i : Nat) : Nat := ob (0x2630 + i) 0x02
/-- 2630h + i.03h FAIL_VECTORS -/
abbrev fr_FAIL_VECTORS (i : Nat) : Nat := ob (0x2630 + i) 0x03
/-- 2630h + i.04h COUNT_ONLY -/
abbrev fr_COUNT_ONLY (i : Nat) : Nat := ob (0x2630 + i) 0x04
/-- 2630h + i.05h CO_CAUSE -/
abbrev fr_CO_CAUSE (i : Nat) : Nat := ob (0x2630 + i) 0x05
/-- 2630h + i.06h CO_CYCLE -/
abbrev fr_CO_CYCLE (i : Nat) : Nat := ob (0x2630 + i) 0x06
/-- 2630h + i.07h LOG_LOST -/
abbrev fr_LOG_LOST (i : Nat) : Nat := ob (0x2630 + i) 0x07
/-- 2630h + i.08h PAD_RECORDS -/
abbrev fr_PAD_RECORDS (i : Nat) : Nat := ob (0x2630 + i) 0x08
/-- 2630h + i.09h CAP_WRITTEN -/
abbrev fr_CAP_WRITTEN (i : Nat) : Nat := ob (0x2630 + i) 0x09
/-- 2630h + i.0Ah CAP_LOST -/
abbrev fr_CAP_LOST (i : Nat) : Nat := ob (0x2630 + i) 0x0a
/-- 2630h + i.0Bh SPILLED -/
abbrev fr_SPILLED (i : Nat) : Nat := ob (0x2630 + i) 0x0b
/-- 2630h + i.0Ch CYCLE_WRAPS -/
abbrev fr_CYCLE_WRAPS (i : Nat) : Nat := ob (0x2630 + i) 0x0c
/-- 2650h + i.01h FF_VALID -/
abbrev ff_FF_VALID (i : Nat) : Nat := ob (0x2650 + i) 0x01
/-- 2650h + i.02h FF_SOURCE -/
abbrev ff_FF_SOURCE (i : Nat) : Nat := ob (0x2650 + i) 0x02
/-- 2650h + i.03h FF_ORDINAL -/
abbrev ff_FF_ORDINAL (i : Nat) : Nat := ob (0x2650 + i) 0x03
/-- 2650h + i.04h FF_CYCLE -/
abbrev ff_FF_CYCLE (i : Nat) : Nat := ob (0x2650 + i) 0x04
/-- 2650h + i.05h FF_FRAME -/
abbrev ff_FF_FRAME (i : Nat) : Nat := ob (0x2650 + i) 0x05
/-- 2650h + i.06h FF_TSET -/
abbrev ff_FF_TSET (i : Nat) : Nat := ob (0x2650 + i) 0x06
/-- 2650h + i.07h FF_BEATS -/
abbrev ff_FF_BEATS (i : Nat) : Nat := ob (0x2650 + i) 0x07
/-- 2650h + i.08h to .0Bh FF_MAP0 -/
abbrev ff_FF_MAP (i : Nat) (j : Nat) : Nat := ob (0x2650 + i) (0x08 + j)
/-- 2680h + i.01h to .20h PIN_FAILS -/
abbrev pf_PIN_FAILS (i : Nat) (j : Nat) : Nat := ob (0x2680 + i) (0x01 + j)
/-- 3000h + i.01h ES_SEL0 -/
abbrev ch_ES_SEL0 (i : Nat) : Nat := ob (0x3000 + i) 0x01
/-- 3000h + i.02h ES_SEL1 -/
abbrev ch_ES_SEL1 (i : Nat) : Nat := ob (0x3000 + i) 0x02
/-- 3000h + i.03h ES_SEL2 -/
abbrev ch_ES_SEL2 (i : Nat) : Nat := ob (0x3000 + i) 0x03
/-- 3000h + i.04h ES_SEL3 -/
abbrev ch_ES_SEL3 (i : Nat) : Nat := ob (0x3000 + i) 0x04
/-- 3000h + i.05h WITHY_LOCKED -/
abbrev ch_WITHY_LOCKED (i : Nat) : Nat := ob (0x3000 + i) 0x05
/-- 3000h + i.06h to .0Fh ELEM_STEP0 -/
abbrev ch_ELEM_STEP (i : Nat) (j : Nat) : Nat := ob (0x3000 + i) (0x06 + j)
/-- 3000h + i.10h CMP_MASK -/
abbrev ch_CMP_MASK (i : Nat) : Nat := ob (0x3000 + i) 0x10
/-- 3000h + i.11h CMP_TERM -/
abbrev ch_CMP_TERM (i : Nat) : Nat := ob (0x3000 + i) 0x11
/-- 3000h + i.12h SLATH_MODE -/
abbrev ch_SLATH_MODE (i : Nat) : Nat := ob (0x3000 + i) 0x12
/-- 3000h + i.13h WF_ENGINE -/
abbrev ch_WF_ENGINE (i : Nat) : Nat := ob (0x3000 + i) 0x13
/-- 3000h + i.14h WF_BIT -/
abbrev ch_WF_BIT (i : Nat) : Nat := ob (0x3000 + i) 0x14
/-- 3000h + i.15h LANE_SWAP -/
abbrev ch_LANE_SWAP (i : Nat) : Nat := ob (0x3000 + i) 0x15
/-- 3000h + i.16h LANE_INV -/
abbrev ch_LANE_INV (i : Nat) : Nat := ob (0x3000 + i) 0x16
/-- 3000h + i.17h CHCL_EXCHANGE -/
abbrev ch_CHCL_EXCHANGE (i : Nat) : Nat := ob (0x3000 + i) 0x17
/-- 3000h + i.18h LOOPBACK -/
abbrev ch_LOOPBACK (i : Nat) : Nat := ob (0x3000 + i) 0x18
/-- 3000h + i.19h LOS -/
abbrev ch_LOS (i : Nat) : Nat := ob (0x3000 + i) 0x19
/-- 3000h + i.1Ah CMP_BOTH_COUNT -/
abbrev ch_CMP_BOTH_COUNT (i : Nat) : Nat := ob (0x3000 + i) 0x1a
/-- 3000h + i.1Bh XBAR_STATE -/
abbrev ch_XBAR_STATE (i : Nat) : Nat := ob (0x3000 + i) 0x1b
/-- 3000h + i.1Ch DRIVE_MEM -/
abbrev ch_DRIVE_MEM (i : Nat) : Nat := ob (0x3000 + i) 0x1c
/-- 3000h + i.1Dh EXP_MEM -/
abbrev ch_EXP_MEM (i : Nat) : Nat := ob (0x3000 + i) 0x1d
/-- 3000h + i.1Eh PATTERN_CAUSE -/
abbrev ch_PATTERN_CAUSE (i : Nat) : Nat := ob (0x3000 + i) 0x1e
/-- 3100h + i.01h to .0Ah OFS0 -/
abbrev cc_OFS (i : Nat) (j : Nat) : Nat := ob (0x3100 + i) (0x01 + j)
/-- 3100h + i.0Bh RT -/
abbrev cc_RT (i : Nat) : Nat := ob (0x3100 + i) 0x0b
/-- 3100h + i.0Ch RT_DE -/
abbrev cc_RT_DE (i : Nat) : Nat := ob (0x3100 + i) 0x0c
/-- 3100h + i.0Dh RET -/
abbrev cc_RET (i : Nat) : Nat := ob (0x3100 + i) 0x0d
/-- 3100h + i.0Eh OUT -/
abbrev cc_OUT (i : Nat) : Nat := ob (0x3100 + i) 0x0e
/-- 3100h + i.0Fh OUT_DE -/
abbrev cc_OUT_DE (i : Nat) : Nat := ob (0x3100 + i) 0x0f
/-- 3100h + i.10h CAL_TEMP -/
abbrev cc_CAL_TEMP (i : Nat) : Nat := ob (0x3100 + i) 0x10
/-- 3100h + i.11h CAL_TIME -/
abbrev cc_CAL_TIME (i : Nat) : Nat := ob (0x3100 + i) 0x11
/-- 3100h + i.12h CAL_COUNT -/
abbrev cc_CAL_COUNT (i : Nat) : Nat := ob (0x3100 + i) 0x12
/-- 3100h + i.13h CAL_KIND -/
abbrev cc_CAL_KIND (i : Nat) : Nat := ob (0x3100 + i) 0x13
/-- 3100h + i.14h CAL_STATUS -/
abbrev cc_CAL_STATUS (i : Nat) : Nat := ob (0x3100 + i) 0x14
/-- 3100h + i.15h CAL_ENABLE -/
abbrev cc_CAL_ENABLE (i : Nat) : Nat := ob (0x3100 + i) 0x15
/-- 3100h + i.16h LIN -/
abbrev cc_LIN (i : Nat) : Nat := ob (0x3100 + i) 0x16
/-- 3100h + i.17h DRIFT -/
abbrev cc_DRIFT (i : Nat) : Nat := ob (0x3100 + i) 0x17
/-- 3100h + i.18h LAST_DELTA -/
abbrev cc_LAST_DELTA (i : Nat) : Nat := ob (0x3100 + i) 0x18
/-- 3100h + i.20h to .29h BASE_OFS0 -/
abbrev cc_BASE_OFS (i : Nat) (j : Nat) : Nat := ob (0x3100 + i) (0x20 + j)
/-- 3100h + i.2Ah BASE_RT -/
abbrev cc_BASE_RT (i : Nat) : Nat := ob (0x3100 + i) 0x2a
/-- 3100h + i.2Bh BASE_RET -/
abbrev cc_BASE_RET (i : Nat) : Nat := ob (0x3100 + i) 0x2b
/-- 3100h + i.2Ch BASE_TEMP -/
abbrev cc_BASE_TEMP (i : Nat) : Nat := ob (0x3100 + i) 0x2c
/-- 3100h + i.2Dh BASE_TIME -/
abbrev cc_BASE_TIME (i : Nat) : Nat := ob (0x3100 + i) 0x2d
/-- 3100h + i.2Eh BASE_SEAL -/
abbrev cc_BASE_SEAL (i : Nat) : Nat := ob (0x3100 + i) 0x2e
/-- 3400h + i.01h TS_VALID -/
abbrev ts_TS_VALID (i : Nat) : Nat := ob (0x3400 + i) 0x01
/-- 3400h + i.02h PERIOD -/
abbrev ts_PERIOD (i : Nat) : Nat := ob (0x3400 + i) 0x02
/-- 3400h + i.10h of edge set e ES_CTRL -/
abbrev ts_ES_CTRL (i : Nat) (e : Nat) : Nat := ob (0x3400 + i) (0x10 + 12 * e)
/-- 3400h + i.11h of edge set e DRV0 -/
abbrev ts_DRV0 (i : Nat) (e : Nat) : Nat := ob (0x3400 + i) (0x11 + 12 * e)
/-- 3400h + i.12h of edge set e DRV1 -/
abbrev ts_DRV1 (i : Nat) (e : Nat) : Nat := ob (0x3400 + i) (0x12 + 12 * e)
/-- 3400h + i.13h of edge set e DRV2 -/
abbrev ts_DRV2 (i : Nat) (e : Nat) : Nat := ob (0x3400 + i) (0x13 + 12 * e)
/-- 3400h + i.14h of edge set e DRV3 -/
abbrev ts_DRV3 (i : Nat) (e : Nat) : Nat := ob (0x3400 + i) (0x14 + 12 * e)
/-- 3400h + i.15h of edge set e DEN_ON -/
abbrev ts_DEN_ON (i : Nat) (e : Nat) : Nat := ob (0x3400 + i) (0x15 + 12 * e)
/-- 3400h + i.16h of edge set e DEN_OFF -/
abbrev ts_DEN_OFF (i : Nat) (e : Nat) : Nat := ob (0x3400 + i) (0x16 + 12 * e)
/-- 3400h + i.17h of edge set e STB0 -/
abbrev ts_STB0 (i : Nat) (e : Nat) : Nat := ob (0x3400 + i) (0x17 + 12 * e)
/-- 3400h + i.18h of edge set e STB1 -/
abbrev ts_STB1 (i : Nat) (e : Nat) : Nat := ob (0x3400 + i) (0x18 + 12 * e)
/-- 3400h + i.19h of edge set e STB2 -/
abbrev ts_STB2 (i : Nat) (e : Nat) : Nat := ob (0x3400 + i) (0x19 + 12 * e)
/-- 3400h + i.1Ah of edge set e STB3 -/
abbrev ts_STB3 (i : Nat) (e : Nat) : Nat := ob (0x3400 + i) (0x1a + 12 * e)
/-- 4000h.01h SPARS -/
abbrev sp0_SPARS : Nat := ob 0x4000 0x01
/-- 4010h + i.01h SPAR_STATE -/
abbrev sp_SPAR_STATE (i : Nat) : Nat := ob (0x4010 + i) 0x01
/-- 4010h + i.02h SPAR_CHAN -/
abbrev sp_SPAR_CHAN (i : Nat) : Nat := ob (0x4010 + i) 0x02
/-- 4010h + i.03h to .0Ch SPAR_DELAY0 -/
abbrev sp_SPAR_DELAY (i : Nat) (j : Nat) : Nat := ob (0x4010 + i) (0x03 + j)
/-- 4010h + i.0Dh SPAR_CAL_TEMP -/
abbrev sp_SPAR_CAL_TEMP (i : Nat) : Nat := ob (0x4010 + i) 0x0d
/-- 4010h + i.0Eh SPAR_CAL_TIME -/
abbrev sp_SPAR_CAL_TIME (i : Nat) : Nat := ob (0x4010 + i) 0x0e
/-- 4010h + i.0Fh SWAPS -/
abbrev sp_SWAPS (i : Nat) : Nat := ob (0x4010 + i) 0x0f
/-- 4010h + i.10h TRIM_DD -/
abbrev sp_TRIM_DD (i : Nat) : Nat := ob (0x4010 + i) 0x10
/-- 4010h + i.11h TRIM_DE -/
abbrev sp_TRIM_DE (i : Nat) : Nat := ob (0x4010 + i) 0x11
/-- 4010h + i.12h ALIGN_RESID -/
abbrev sp_ALIGN_RESID (i : Nat) : Nat := ob (0x4010 + i) 0x12
/-- 4010h + i.13h ALIGN_SKIP -/
abbrev sp_ALIGN_SKIP (i : Nat) : Nat := ob (0x4010 + i) 0x13
/-- 4010h + i.14h SPAR_LIN -/
abbrev sp_SPAR_LIN (i : Nat) : Nat := ob (0x4010 + i) 0x14
/-- 4400h.01h WF_ENGINES -/
abbrev wf0_WF_ENGINES : Nat := ob 0x4400 0x01
/-- 4400h.02h WF_SLOT -/
abbrev wf0_WF_SLOT : Nat := ob 0x4400 0x02
/-- 4400h.03h WF_HEADS -/
abbrev wf0_WF_HEADS : Nat := ob 0x4400 0x03
/-- 4400h.04h WF_HEAD_LEN -/
abbrev wf0_WF_HEAD_LEN : Nat := ob 0x4400 0x04
/-- 4410h + i.01h WF_SITE -/
abbrev wc_WF_SITE (i : Nat) : Nat := ob (0x4410 + i) 0x01
/-- 4410h + i.02h RATE_DIV -/
abbrev wc_RATE_DIV (i : Nat) : Nat := ob (0x4410 + i) 0x02
/-- 4410h + i.03h OUT_CODING -/
abbrev wc_OUT_CODING (i : Nat) : Nat := ob (0x4410 + i) 0x03
/-- 4410h + i.04h PARK_WORD -/
abbrev wc_PARK_WORD (i : Nat) : Nat := ob (0x4410 + i) 0x04
/-- 4410h + i.05h DC_OFFSET -/
abbrev wc_DC_OFFSET (i : Nat) : Nat := ob (0x4410 + i) 0x05
/-- 4410h + i.06h SUM_MASK -/
abbrev wc_SUM_MASK (i : Nat) : Nat := ob (0x4410 + i) 0x06
/-- 4420h + i.01h WF_STATE -/
abbrev ws_WF_STATE (i : Nat) : Nat := ob (0x4420 + i) 0x01
/-- 4420h + i.02h STEP -/
abbrev ws_STEP (i : Nat) : Nat := ob (0x4420 + i) 0x02
/-- 4420h + i.03h PLAYS_LEFT -/
abbrev ws_PLAYS_LEFT (i : Nat) : Nat := ob (0x4420 + i) 0x03
/-- 4420h + i.04h GRANULES -/
abbrev ws_GRANULES (i : Nat) : Nat := ob (0x4420 + i) 0x04
/-- 4420h + i.05h F_NOW -/
abbrev ws_F_NOW (i : Nat) : Nat := ob (0x4420 + i) 0x05
/-- 4420h + i.06h JUMPS_TAKEN -/
abbrev ws_JUMPS_TAKEN (i : Nat) : Nat := ob (0x4420 + i) 0x06
/-- 4420h + i.07h JUMPS_LATE -/
abbrev ws_JUMPS_LATE (i : Nat) : Nat := ob (0x4420 + i) 0x07
/-- 4420h + i.08h JUMPS_REPLACED -/
abbrev ws_JUMPS_REPLACED (i : Nat) : Nat := ob (0x4420 + i) 0x08
/-- 4420h + i.09h JUMPS_IGNORED -/
abbrev ws_JUMPS_IGNORED (i : Nat) : Nat := ob (0x4420 + i) 0x09
/-- 4420h + i.0Ah TRIG_PENDING -/
abbrev ws_TRIG_PENDING (i : Nat) : Nat := ob (0x4420 + i) 0x0a
/-- 4420h + i.0Bh LATE_GRANULES -/
abbrev ws_LATE_GRANULES (i : Nat) : Nat := ob (0x4420 + i) 0x0b
/-- 4420h + i.0Ch CLIP_COUNT -/
abbrev ws_CLIP_COUNT (i : Nat) : Nat := ob (0x4420 + i) 0x0c
/-- 4420h + i.0Dh CMD_IGNORED -/
abbrev ws_CMD_IGNORED (i : Nat) : Nat := ob (0x4420 + i) 0x0d
/-- 4420h + i.0Eh MK_NOW -/
abbrev ws_MK_NOW (i : Nat) : Nat := ob (0x4420 + i) 0x0e
/-- 4420h + i.0Fh LAST_WF_FAULT -/
abbrev ws_LAST_WF_FAULT (i : Nat) : Nat := ob (0x4420 + i) 0x0f
/-- 4430h + i.01h FLIST -/
abbrev wd_FLIST (i : Nat) : Nat := ob (0x4430 + i) 0x01
/-- 4430h + i.02h PLIST -/
abbrev wd_PLIST (i : Nat) : Nat := ob (0x4430 + i) 0x02
/-- 4430h + i.03h ALIST -/
abbrev wd_ALIST (i : Nat) : Nat := ob (0x4430 + i) 0x03
/-- 4430h + i.04h SEQ -/
abbrev wd_SEQ (i : Nat) : Nat := ob (0x4430 + i) 0x04
/-- 4430h + i.05h TABLE_FIRST -/
abbrev wd_TABLE_FIRST (i : Nat) : Nat := ob (0x4430 + i) 0x05
/-- 4800h.01h TMUS -/
abbrev tm0_TMUS : Nat := ob 0x4800 0x01
/-- 4800h.02h COARSE_STEP -/
abbrev tm0_COARSE_STEP : Nat := ob 0x4800 0x02
/-- 4800h.03h FINE_CODES -/
abbrev tm0_FINE_CODES : Nat := ob 0x4800 0x03
/-- 4801h.01h to .0Ah OWNER -/
abbrev tmo_OWNER (j : Nat) : Nat := ob 0x4801 (0x01 + j)
/-- 4810h + i.01h to .04h SLOT0 -/
abbrev tl_SLOT (i : Nat) (j : Nat) : Nat := ob (0x4810 + i) (0x01 + j)
/-- 4830h + i.01h MODE -/
abbrev tc_MODE (i : Nat) : Nat := ob (0x4830 + i) 0x01
/-- 4830h + i.02h START_SRC -/
abbrev tc_START_SRC (i : Nat) : Nat := ob (0x4830 + i) 0x02
/-- 4830h + i.03h to .0Ah STOP_SRC0 -/
abbrev tc_STOP_SRC (i : Nat) (j : Nat) : Nat := ob (0x4830 + i) (0x03 + j)
/-- 4830h + i.0Bh SAMPLES -/
abbrev tc_SAMPLES (i : Nat) : Nat := ob (0x4830 + i) 0x0b
/-- 4830h + i.0Ch GATE_MODE -/
abbrev tc_GATE_MODE (i : Nat) : Nat := ob (0x4830 + i) 0x0c
/-- 4830h + i.0Dh QUAL -/
abbrev tc_QUAL (i : Nat) : Nat := ob (0x4830 + i) 0x0d
/-- 4830h + i.0Eh TIMEOUT -/
abbrev tc_TIMEOUT (i : Nat) : Nat := ob (0x4830 + i) 0x0e
/-- 4830h + i.0Fh PERIOD_EDGES -/
abbrev tc_PERIOD_EDGES (i : Nat) : Nat := ob (0x4830 + i) 0x0f
/-- 4830h + i.10h GATE_TIME -/
abbrev tc_GATE_TIME (i : Nat) : Nat := ob (0x4830 + i) 0x10
/-- 4830h + i.11h ACCUM -/
abbrev tc_ACCUM (i : Nat) : Nat := ob (0x4830 + i) 0x11
/-- 4830h + i.12h LIMIT_LO -/
abbrev tc_LIMIT_LO (i : Nat) : Nat := ob (0x4830 + i) 0x12
/-- 4830h + i.13h LIMIT_HI -/
abbrev tc_LIMIT_HI (i : Nat) : Nat := ob (0x4830 + i) 0x13
/-- 4830h + i.14h LIMIT_EN -/
abbrev tc_LIMIT_EN (i : Nat) : Nat := ob (0x4830 + i) 0x14
/-- 4840h + i.01h STATE -/
abbrev tt_STATE (i : Nat) : Nat := ob (0x4840 + i) 0x01
/-- 4840h + i.02h CAL_HOLD -/
abbrev tt_CAL_HOLD (i : Nat) : Nat := ob (0x4840 + i) 0x02
/-- 4840h + i.03h END_STATUS -/
abbrev tt_END_STATUS (i : Nat) : Nat := ob (0x4840 + i) 0x03
/-- 4840h + i.04h SAMPLES_DONE -/
abbrev tt_SAMPLES_DONE (i : Nat) : Nat := ob (0x4840 + i) 0x04
/-- 4840h + i.05h OUT_OF_LIMITS -/
abbrev tt_OUT_OF_LIMITS (i : Nat) : Nat := ob (0x4840 + i) 0x05
/-- 4840h + i.06h CAL_WAITS -/
abbrev tt_CAL_WAITS (i : Nat) : Nat := ob (0x4840 + i) 0x06
/-- 4840h + i.07h CAL_WAIT_MAX -/
abbrev tt_CAL_WAIT_MAX (i : Nat) : Nat := ob (0x4840 + i) 0x07
/-- 4840h + i.08h CMD_IGNORED -/
abbrev tt_CMD_IGNORED (i : Nat) : Nat := ob (0x4840 + i) 0x08
/-- 4840h + i.09h LOCKED -/
abbrev tt_LOCKED (i : Nat) : Nat := ob (0x4840 + i) 0x09
/-- 4850h + i.01h COUNT -/
abbrev tv_COUNT (i : Nat) : Nat := ob (0x4850 + i) 0x01
/-- 4850h + i.02h MISSED -/
abbrev tv_MISSED (i : Nat) : Nat := ob (0x4850 + i) 0x02
/-- 4850h + i.03h FIRST_RAW -/
abbrev tv_FIRST_RAW (i : Nat) : Nat := ob (0x4850 + i) 0x03
/-- 4850h + i.04h S1_LO -/
abbrev tv_S1_LO (i : Nat) : Nat := ob (0x4850 + i) 0x04
/-- 4850h + i.05h S1_HI -/
abbrev tv_S1_HI (i : Nat) : Nat := ob (0x4850 + i) 0x05
/-- 4850h + i.06h S2_LO -/
abbrev tv_S2_LO (i : Nat) : Nat := ob (0x4850 + i) 0x06
/-- 4850h + i.07h S2_HI -/
abbrev tv_S2_HI (i : Nat) : Nat := ob (0x4850 + i) 0x07
/-- 4850h + i.08h MIN_RAW -/
abbrev tv_MIN_RAW (i : Nat) : Nat := ob (0x4850 + i) 0x08
/-- 4850h + i.09h MAX_RAW -/
abbrev tv_MAX_RAW (i : Nat) : Nat := ob (0x4850 + i) 0x09
/-- 4850h + i.0Ah LAST_RAW -/
abbrev tv_LAST_RAW (i : Nat) : Nat := ob (0x4850 + i) 0x0a
/-- 4850h + i.0Bh MEAN -/
abbrev tv_MEAN (i : Nat) : Nat := ob (0x4850 + i) 0x0b
/-- 4850h + i.0Ch SDEV -/
abbrev tv_SDEV (i : Nat) : Nat := ob (0x4850 + i) 0x0c
/-- 4850h + i.0Dh MIN -/
abbrev tv_MIN (i : Nat) : Nat := ob (0x4850 + i) 0x0d
/-- 4850h + i.0Eh MAX -/
abbrev tv_MAX (i : Nat) : Nat := ob (0x4850 + i) 0x0e
/-- 4850h + i.0Fh LAST -/
abbrev tv_LAST (i : Nat) : Nat := ob (0x4850 + i) 0x0f
/-- 4850h + i.10h EXCLUDED -/
abbrev tv_EXCLUDED (i : Nat) : Nat := ob (0x4850 + i) 0x10
/-- 4850h + i.11h QUAL_REJECT -/
abbrev tv_QUAL_REJECT (i : Nat) : Nat := ob (0x4850 + i) 0x11
/-- 48A0h.01h TMU_CMD -/
abbrev tk_TMU_CMD : Nat := ob 0x48A0 0x01
/-- 48A0h.02h TMU_CMD_STATUS -/
abbrev tk_TMU_CMD_STATUS : Nat := ob 0x48A0 0x02
/-- 5000h + i.01h KIND -/
abbrev da_KIND (i : Nat) : Nat := ob (0x5000 + i) 0x01
/-- 5000h + i.02h RANGE -/
abbrev da_RANGE (i : Nat) : Nat := ob (0x5000 + i) 0x02
/-- 5000h + i.03h TARGET_V -/
abbrev da_TARGET_V (i : Nat) : Nat := ob (0x5000 + i) 0x03
/-- 5000h + i.04h TARGET_I -/
abbrev da_TARGET_I (i : Nat) : Nat := ob (0x5000 + i) 0x04
/-- 5000h + i.05h ROLE -/
abbrev da_ROLE (i : Nat) : Nat := ob (0x5000 + i) 0x05
/-- 5000h + i.06h PARK_RANGE -/
abbrev da_PARK_RANGE (i : Nat) : Nat := ob (0x5000 + i) 0x06
/-- 5000h + i.07h PARK_V -/
abbrev da_PARK_V (i : Nat) : Nat := ob (0x5000 + i) 0x07
/-- 5000h + i.08h PARK_I -/
abbrev da_PARK_I (i : Nat) : Nat := ob (0x5000 + i) 0x08
/-- 5000h + i.09h CODE -/
abbrev da_CODE (i : Nat) : Nat := ob (0x5000 + i) 0x09
/-- 5000h + i.0Ah PENDING -/
abbrev da_PENDING (i : Nat) : Nat := ob (0x5000 + i) 0x0a
/-- 5000h + i.0Bh STATUS -/
abbrev da_STATUS (i : Nat) : Nat := ob (0x5000 + i) 0x0b
/-- 5000h + i.0Ch VOUT -/
abbrev da_VOUT (i : Nat) : Nat := ob (0x5000 + i) 0x0c
/-- 5000h + i.0Dh DAC_STROBES -/
abbrev da_DAC_STROBES (i : Nat) : Nat := ob (0x5000 + i) 0x0d
/-- 50C0h + i.01h GROUP_SEL -/
abbrev lb_GROUP_SEL (i : Nat) : Nat := ob (0x50C0 + i) 0x01
/-- 50C0h + i.02h LOAD_MODE -/
abbrev lb_LOAD_MODE (i : Nat) : Nat := ob (0x50C0 + i) 0x02
/-- 50C0h + i.03h REF_OK -/
abbrev lb_REF_OK (i : Nat) : Nat := ob (0x50C0 + i) 0x03
/-- 50C0h + i.04h BANK_STROBES -/
abbrev lb_BANK_STROBES (i : Nat) : Nat := ob (0x50C0 + i) 0x04
/-- 50D0h.01h LVL_DACS -/
abbrev ll_LVL_DACS : Nat := ob 0x50D0 0x01
/-- 50D0h.02h LVL_LOAD -/
abbrev ll_LVL_LOAD : Nat := ob 0x50D0 0x02
/-- 50D0h.03h PARK_SOURCE -/
abbrev ll_PARK_SOURCE : Nat := ob 0x50D0 0x03
/-- 50E0h + i.01h to .07h GROUP_MAP -/
abbrev lg_GROUP_MAP (i : Nat) (j : Nat) : Nat := ob (0x50E0 + i) (0x01 + j)
/-- 5400h.01h LIVE_MODE -/
abbrev cl_LIVE_MODE : Nat := ob 0x5400 0x01
/-- 5400h.02h TEMP_TRIGGER -/
abbrev cl_TEMP_TRIGGER : Nat := ob 0x5400 0x02
/-- 5400h.03h MAX_AGE -/
abbrev cl_MAX_AGE : Nat := ob 0x5400 0x03
/-- 5400h.04h ALIGN_TOL -/
abbrev cl_ALIGN_TOL : Nat := ob 0x5400 0x04
/-- 5400h.05h SWAP_WAIT -/
abbrev cl_SWAP_WAIT : Nat := ob 0x5400 0x05
/-- 5400h.06h RT_TRACK -/
abbrev cl_RT_TRACK : Nat := ob 0x5400 0x06
/-- 5400h.07h LIVE_LEVELS -/
abbrev cl_LIVE_LEVELS : Nat := ob 0x5400 0x07
/-- 5400h.08h COMMIT_BUDGET -/
abbrev cl_COMMIT_BUDGET : Nat := ob 0x5400 0x08
/-- 5400h.09h CAL_CMD -/
abbrev cl_CAL_CMD : Nat := ob 0x5400 0x09
/-- 5400h.0Ah CAL_STATE -/
abbrev cl_CAL_STATE : Nat := ob 0x5400 0x0a
/-- 5400h.0Bh CAL_LAST_STATUS -/
abbrev cl_CAL_LAST_STATUS : Nat := ob 0x5400 0x0b
/-- 5400h.0Ch CAL_FAIL_CHAN -/
abbrev cl_CAL_FAIL_CHAN : Nat := ob 0x5400 0x0c
/-- 5400h.0Dh TIMEBASE_ERR -/
abbrev cl_TIMEBASE_ERR : Nat := ob 0x5400 0x0d
/-- 5400h.0Eh COMMITS_HOUR -/
abbrev cl_COMMITS_HOUR : Nat := ob 0x5400 0x0e
/-- 5410h + i.01h BANK_TEMP -/
abbrev cb_BANK_TEMP (i : Nat) : Nat := ob (0x5410 + i) 0x01
/-- 5410h + i.02h BANK_MAX_DIFF -/
abbrev cb_BANK_MAX_DIFF (i : Nat) : Nat := ob (0x5410 + i) 0x02
/-- 5410h + i.03h PROMOTED -/
abbrev cb_PROMOTED (i : Nat) : Nat := ob (0x5410 + i) 0x03
/-- 5410h + i.04h SUSPENDED -/
abbrev cb_SUSPENDED (i : Nat) : Nat := ob (0x5410 + i) 0x04
/-- 5410h + i.05h QUEUED -/
abbrev cb_QUEUED (i : Nat) : Nat := ob (0x5410 + i) 0x05
/-- 5410h + i.06h DENIED -/
abbrev cb_DENIED (i : Nat) : Nat := ob (0x5410 + i) 0x06
/-- 5410h + i.07h TMU_CAL_TEMP -/
abbrev cb_TMU_CAL_TEMP (i : Nat) : Nat := ob (0x5410 + i) 0x07
/-- 5410h + i.08h TMU_CAL_TIME -/
abbrev cb_TMU_CAL_TIME (i : Nat) : Nat := ob (0x5410 + i) 0x08
/-- 5410h + i.09h TMU_LIN -/
abbrev cb_TMU_LIN (i : Nat) : Nat := ob (0x5410 + i) 0x09
/-- 5430h.01h TREF_ID -/
abbrev tf_TREF_ID : Nat := ob 0x5430 0x01
/-- 5430h.02h TREF_FREQ -/
abbrev tf_TREF_FREQ : Nat := ob 0x5430 0x02
/-- 5430h.03h TREF_UNC -/
abbrev tf_TREF_UNC : Nat := ob 0x5430 0x03
/-- 5430h.04h TREF_DUE -/
abbrev tf_TREF_DUE : Nat := ob 0x5430 0x04
/-- 5430h.05h FIXTURE_ID -/
abbrev tf_FIXTURE_ID : Nat := ob 0x5430 0x05
/-- 5430h.06h FIXTURE_DELAY -/
abbrev tf_FIXTURE_DELAY : Nat := ob 0x5430 0x06
/-- 5431h.01h VREF_ID -/
abbrev vf_VREF_ID : Nat := ob 0x5431 0x01
/-- 5431h.02h VREF_VALUE -/
abbrev vf_VREF_VALUE : Nat := ob 0x5431 0x02
/-- 5431h.03h VREF_UNC -/
abbrev vf_VREF_UNC : Nat := ob 0x5431 0x03
/-- 5431h.04h VREF_DUE -/
abbrev vf_VREF_DUE : Nat := ob 0x5431 0x04
/-- 5438h.01h SEAL_CHALLENGE -/
abbrev sk_SEAL_CHALLENGE : Nat := ob 0x5438 0x01
/-- 5438h.02h SEAL_TOKEN -/
abbrev sk_SEAL_TOKEN : Nat := ob 0x5438 0x02
/-- 5438h.03h SEAL_STATE -/
abbrev sk_SEAL_STATE : Nat := ob 0x5438 0x03
/-- 5438h.04h SEAL_SESSION -/
abbrev sk_SEAL_SESSION : Nat := ob 0x5438 0x04
/-- 5438h.05h SEAL_CLOSE -/
abbrev sk_SEAL_CLOSE : Nat := ob 0x5438 0x05
/-- 5438h.06h SEAL_LEFT -/
abbrev sk_SEAL_LEFT : Nat := ob 0x5438 0x06
/-- 5438h.07h SEAL_SCOPE -/
abbrev sk_SEAL_SCOPE : Nat := ob 0x5438 0x07
/-- 5438h.08h SEAL_OPERATOR -/
abbrev sk_SEAL_OPERATOR : Nat := ob 0x5438 0x08
/-- 5439h.01h S_TREF_ID -/
abbrev sb_S_TREF_ID : Nat := ob 0x5439 0x01
/-- 5439h.02h S_TREF_FREQ -/
abbrev sb_S_TREF_FREQ : Nat := ob 0x5439 0x02
/-- 5439h.03h S_TREF_DUE -/
abbrev sb_S_TREF_DUE : Nat := ob 0x5439 0x03
/-- 5439h.04h S_FIXTURE_DELAY -/
abbrev sb_S_FIXTURE_DELAY : Nat := ob 0x5439 0x04
/-- 5439h.05h S_VREF_ID -/
abbrev sb_S_VREF_ID : Nat := ob 0x5439 0x05
/-- 5439h.06h S_VREF_VALUE -/
abbrev sb_S_VREF_VALUE : Nat := ob 0x5439 0x06
/-- 5439h.07h S_VREF_DUE -/
abbrev sb_S_VREF_DUE : Nat := ob 0x5439 0x07
/-- 5439h.08h S_SEAL_TIME -/
abbrev sb_S_SEAL_TIME : Nat := ob 0x5439 0x08
/-- 5439h.09h S_OPERATOR -/
abbrev sb_S_OPERATOR : Nat := ob 0x5439 0x09
/-- 5439h.0Ah S_SESSION -/
abbrev sb_S_SESSION : Nat := ob 0x5439 0x0a
/-- 5440h + i.01h GAIN_TRIM -/
abbrev lt_GAIN_TRIM (i : Nat) : Nat := ob (0x5440 + i) 0x01
/-- 5440h + i.02h OFFSET_TRIM -/
abbrev lt_OFFSET_TRIM (i : Nat) : Nat := ob (0x5440 + i) 0x02
/-- 5440h + i.03h LVL_CAL_TEMP -/
abbrev lt_LVL_CAL_TEMP (i : Nat) : Nat := ob (0x5440 + i) 0x03
/-- 5440h + i.04h LVL_CAL_TIME -/
abbrev lt_LVL_CAL_TIME (i : Nat) : Nat := ob (0x5440 + i) 0x04
/-- 5440h + i.05h BASE_GAIN -/
abbrev lt_BASE_GAIN (i : Nat) : Nat := ob (0x5440 + i) 0x05
/-- 5440h + i.06h BASE_OFFSET -/
abbrev lt_BASE_OFFSET (i : Nat) : Nat := ob (0x5440 + i) 0x06
/-- 5440h + i.07h BASE_LVL_TIME -/
abbrev lt_BASE_LVL_TIME (i : Nat) : Nat := ob (0x5440 + i) 0x07
/-- 5440h + i.08h BASE_LVL_SEAL -/
abbrev lt_BASE_LVL_SEAL (i : Nat) : Nat := ob (0x5440 + i) 0x08
/-- 6000h.01h MTR_STATE -/
abbrev ck_MTR_STATE : Nat := ob 0x6000 0x01
/-- 6000h.02h REFCLK_STATE -/
abbrev ck_REFCLK_STATE : Nat := ob 0x6000 0x02
/-- 6000h.03h MUTUAL_DEV -/
abbrev ck_MUTUAL_DEV : Nat := ob 0x6000 0x03
/-- 6000h.04h REFCLK_SSC -/
abbrev ck_REFCLK_SSC : Nat := ob 0x6000 0x04
/-- 6000h.05h SSC_DETECTED -/
abbrev ck_SSC_DETECTED : Nat := ob 0x6000 0x05
/-- 6000h.06h MISMATCH_BLAME -/
abbrev ck_MISMATCH_BLAME : Nat := ob 0x6000 0x06
/-- 6000h.07h HM_DEGRADED_OK -/
abbrev ck_HM_DEGRADED_OK : Nat := ob 0x6000 0x07
/-- 6000h.08h STANDBY_MODE -/
abbrev ck_STANDBY_MODE : Nat := ob 0x6000 0x08
/-- 6000h.09h AUTO_REVERT -/
abbrev ck_AUTO_REVERT : Nat := ob 0x6000 0x09
/-- 6000h.0Ah CLK_STOPS -/
abbrev ck_CLK_STOPS : Nat := ob 0x6000 0x0a
/-- 6000h.0Bh LAST_STOP_TIME -/
abbrev ck_LAST_STOP_TIME : Nat := ob 0x6000 0x0b
/-- 6001h + i.01h SOURCE -/
abbrev cg_SOURCE (i : Nat) : Nat := ob (0x6001 + i) 0x01
/-- 6001h + i.02h GROUP_STATE -/
abbrev cg_GROUP_STATE (i : Nat) : Nat := ob (0x6001 + i) 0x02
/-- 6001h + i.03h DEGRADED -/
abbrev cg_DEGRADED (i : Nat) : Nat := ob (0x6001 + i) 0x03
/-- 6001h + i.04h SWITCHES -/
abbrev cg_SWITCHES (i : Nat) : Nat := ob (0x6001 + i) 0x04
/-- 6008h.01h CLK_CMD -/
abbrev cx_CLK_CMD : Nat := ob 0x6008 0x01
/-- 6008h.02h CLK_CMD_STATUS -/
abbrev cx_CLK_CMD_STATUS : Nat := ob 0x6008 0x02
/-- 6008h.03h CLK_CMD_BUSY -/
abbrev cx_CLK_CMD_BUSY : Nat := ob 0x6008 0x03
/-- 6010h.01h MGMT_FREQ -/
abbrev cq_MGMT_FREQ : Nat := ob 0x6010 0x01
/-- 6010h.02h NOR_FREQ -/
abbrev cq_NOR_FREQ : Nat := ob 0x6010 0x02
/-- 6020h.01h GATE_EN -/
abbrev gt_GATE_EN : Nat := ob 0x6020 0x01
/-- 6030h + i.01h DUTCLK_FREQ -/
abbrev dk_DUTCLK_FREQ (i : Nat) : Nat := ob (0x6030 + i) 0x01
/-- 6030h + i.02h SSC_PROFILE -/
abbrev dk_SSC_PROFILE (i : Nat) : Nat := ob (0x6030 + i) 0x02
/-- 6030h + i.03h SSC_DEPTH -/
abbrev dk_SSC_DEPTH (i : Nat) : Nat := ob (0x6030 + i) 0x03
/-- 6030h + i.04h SSC_RATE -/
abbrev dk_SSC_RATE (i : Nat) : Nat := ob (0x6030 + i) 0x04
/-- 6030h + i.05h DUTCLK_ACTUAL -/
abbrev dk_DUTCLK_ACTUAL (i : Nat) : Nat := ob (0x6030 + i) 0x05
/-- 6040h.01h RIDGE_MODE -/
abbrev rd_RIDGE_MODE : Nat := ob 0x6040 0x01
/-- 6040h.02h RIDGE_PATH -/
abbrev rd_RIDGE_PATH : Nat := ob 0x6040 0x02
/-- 6040h.03h RIDGE_PERIOD -/
abbrev rd_RIDGE_PERIOD : Nat := ob 0x6040 0x03
/-- 6040h.04h RIDGE_FIRE -/
abbrev rd_RIDGE_FIRE : Nat := ob 0x6040 0x04
/-- 6040h.05h RIDGE_CAL_N -/
abbrev rd_RIDGE_CAL_N : Nat := ob 0x6040 0x05
/-- 6040h.06h RIDGE_EPS -/
abbrev rd_RIDGE_EPS : Nat := ob 0x6040 0x06
/-- 6040h.07h SKEW_TRIM -/
abbrev rd_SKEW_TRIM : Nat := ob 0x6040 0x07
/-- 6040h.08h RIDGE_PHASE -/
abbrev rd_RIDGE_PHASE : Nat := ob 0x6040 0x08
/-- 6040h.09h RIDGE_SDEV -/
abbrev rd_RIDGE_SDEV : Nat := ob 0x6040 0x09
/-- 6040h.0Ah RIDGE_COUNT -/
abbrev rd_RIDGE_COUNT : Nat := ob 0x6040 0x0a
/-- 6040h.0Bh RIDGE_IGNORED -/
abbrev rd_RIDGE_IGNORED : Nat := ob 0x6040 0x0b
/-- 6040h.0Ch RIDGE_CAL_TIME -/
abbrev rd_RIDGE_CAL_TIME : Nat := ob 0x6040 0x0c
/-- 6040h.0Dh RIDGE_CAL_TEMP -/
abbrev rd_RIDGE_CAL_TEMP : Nat := ob 0x6040 0x0d
/-- 6400h.01h EVT_RAW -/
abbrev em_EVT_RAW : Nat := ob 0x6400 0x01
/-- 6400h.02h EVT_HOST -/
abbrev em_EVT_HOST : Nat := ob 0x6400 0x02
/-- 6400h.03h EVT_MASKED -/
abbrev em_EVT_MASKED : Nat := ob 0x6400 0x03
/-- 6400h.04h MK_STATE -/
abbrev em_MK_STATE : Nat := ob 0x6400 0x04
/-- 6410h + i.01h EVT_SRC -/
abbrev el_EVT_SRC (i : Nat) : Nat := ob (0x6410 + i) 0x01
/-- 6410h + i.02h EVT_SRC_MK -/
abbrev el_EVT_SRC_MK (i : Nat) : Nat := ob (0x6410 + i) 0x02
/-- 6410h + i.03h EVT_ACTIVE_LOW -/
abbrev el_EVT_ACTIVE_LOW (i : Nat) : Nat := ob (0x6410 + i) 0x03
/-- 6410h + i.04h QUAL_WIDTH -/
abbrev el_QUAL_WIDTH (i : Nat) : Nat := ob (0x6410 + i) 0x04
/-- 6410h + i.05h STUCK_TIMEOUT -/
abbrev el_STUCK_TIMEOUT (i : Nat) : Nat := ob (0x6410 + i) 0x05
/-- 6410h + i.06h EVT_SITES -/
abbrev el_EVT_SITES (i : Nat) : Nat := ob (0x6410 + i) 0x06
/-- 6410h + i.07h QUAL_COUNT -/
abbrev el_QUAL_COUNT (i : Nat) : Nat := ob (0x6410 + i) 0x07
/-- 6410h + i.08h OVERRUN -/
abbrev el_OVERRUN (i : Nat) : Nat := ob (0x6410 + i) 0x08
/-- 6410h + i.09h GLITCH -/
abbrev el_GLITCH (i : Nat) : Nat := ob (0x6410 + i) 0x09
/-- 6410h + i.0Ah STUCK_COUNT -/
abbrev el_STUCK_COUNT (i : Nat) : Nat := ob (0x6410 + i) 0x0a
/-- 6430h + i.01h MK_SRC_KIND -/
abbrev mk_MK_SRC_KIND (i : Nat) : Nat := ob (0x6430 + i) 0x01
/-- 6430h + i.02h MK_SRC_NUM -/
abbrev mk_MK_SRC_NUM (i : Nat) : Nat := ob (0x6430 + i) 0x02
/-- 6430h + i.03h MK_SRC_SITES -/
abbrev mk_MK_SRC_SITES (i : Nat) : Nat := ob (0x6430 + i) 0x03
/-- 6430h + i.04h MK_ACTIVE_LOW -/
abbrev mk_MK_ACTIVE_LOW (i : Nat) : Nat := ob (0x6430 + i) 0x04
/-- 6430h + i.05h MK_DELAY -/
abbrev mk_MK_DELAY (i : Nat) : Nat := ob (0x6430 + i) 0x05
/-- 7000h.01h RAISES -/
abbrev fz_RAISES : Nat := ob 0x7000 0x01
/-- 7000h.02h EPISODES -/
abbrev fz_EPISODES : Nat := ob 0x7000 0x02
/-- 7000h.04h UNCLEARED -/
abbrev fz_UNCLEARED : Nat := ob 0x7000 0x04
/-- 7000h.05h MAX_UNCLEARED -/
abbrev fz_MAX_UNCLEARED : Nat := ob 0x7000 0x05
/-- 7000h.06h PIN_STATE -/
abbrev fz_PIN_STATE : Nat := ob 0x7000 0x06
/-- 7000h.07h HANDLING -/
abbrev fz_HANDLING : Nat := ob 0x7000 0x07
/-- 7000h.09h FAULT_CLEAR -/
abbrev fz_FAULT_CLEAR : Nat := ob 0x7000 0x09
/-- 7000h.0Ah CLEAR_STATUS -/
abbrev fz_CLEAR_STATUS : Nat := ob 0x7000 0x0a
/-- 7000h.0Bh OVERFLOWS -/
abbrev fz_OVERFLOWS : Nat := ob 0x7000 0x0b
/-- 7008h.01h NOTIFY_MIN -/
abbrev fy_NOTIFY_MIN : Nat := ob 0x7008 0x01
/-- 7008h.02h SELFTEST_WAIT -/
abbrev fy_SELFTEST_WAIT : Nat := ob 0x7008 0x02
/-- 7008h.03h SELFTEST_EN -/
abbrev fy_SELFTEST_EN : Nat := ob 0x7008 0x03
/-- 7010h.01h to .40h SEV_RULE0 -/
abbrev fx_SEV_RULE (j : Nat) : Nat := ob 0x7010 (0x01 + j)
/-- 7018h.01h QUERY_SRC -/
abbrev fw_QUERY_SRC : Nat := ob 0x7018 0x01
/-- 7018h.02h Q_SEVERITY -/
abbrev fw_Q_SEVERITY : Nat := ob 0x7018 0x02
/-- 7018h.03h Q_DEFAULT -/
abbrev fw_Q_DEFAULT : Nat := ob 0x7018 0x03
/-- 7018h.04h Q_RAISES -/
abbrev fw_Q_RAISES : Nat := ob 0x7018 0x04
/-- 7018h.05h Q_TRANSIENT -/
abbrev fw_Q_TRANSIENT : Nat := ob 0x7018 0x05
/-- 7018h.06h Q_PERSISTENT -/
abbrev fw_Q_PERSISTENT : Nat := ob 0x7018 0x06
/-- 7018h.07h Q_ACTIVE -/
abbrev fw_Q_ACTIVE : Nat := ob 0x7018 0x07
/-- 7018h.08h Q_LAST_EPISODE -/
abbrev fw_Q_LAST_EPISODE : Nat := ob 0x7018 0x08
/-- 7020h + i.01h EP_NUM -/
abbrev ep_EP_NUM (i : Nat) : Nat := ob (0x7020 + i) 0x01
/-- 7020h + i.02h EP_STATE -/
abbrev ep_EP_STATE (i : Nat) : Nat := ob (0x7020 + i) 0x02
/-- 7020h + i.03h EP_SOURCE -/
abbrev ep_EP_SOURCE (i : Nat) : Nat := ob (0x7020 + i) 0x03
/-- 7020h + i.04h EP_SEVERITY -/
abbrev ep_EP_SEVERITY (i : Nat) : Nat := ob (0x7020 + i) 0x04
/-- 7020h + i.05h EP_OPEN_TIME -/
abbrev ep_EP_OPEN_TIME (i : Nat) : Nat := ob (0x7020 + i) 0x05
/-- 7020h + i.06h EP_MERGED -/
abbrev ep_EP_MERGED (i : Nat) : Nat := ob (0x7020 + i) 0x06
/-- 7020h + i.07h to .0Eh EP_CAUSE0 -/
abbrev ep_EP_CAUSE (i : Nat) (j : Nat) : Nat := ob (0x7020 + i) (0x07 + j)
/-- 7020h + i.0Fh EP_SITES -/
abbrev ep_EP_SITES (i : Nat) : Nat := ob (0x7020 + i) 0x0f
/-- 7020h + i.10h EP_RETIRED -/
abbrev ep_EP_RETIRED (i : Nat) : Nat := ob (0x7020 + i) 0x10
/-- 7020h + i.11h EP_DETAIL -/
abbrev ep_EP_DETAIL (i : Nat) : Nat := ob (0x7020 + i) 0x11
/-- 7020h + i.12h EP_CLEAR_TIME -/
abbrev ep_EP_CLEAR_TIME (i : Nat) : Nat := ob (0x7020 + i) 0x12
/-- 7060h.01h RETIRED_UNITS -/
abbrev ru_RETIRED_UNITS : Nat := ob 0x7060 0x01
/-- 7061h.01h to .20h RETIRE0 -/
abbrev rt_RETIRE (j : Nat) : Nat := ob 0x7061 (0x01 + j)
/-- 7068h.01h ST_CMD -/
abbrev stc_ST_CMD : Nat := ob 0x7068 0x01
/-- 7068h.02h ST_STATUS -/
abbrev stc_ST_STATUS : Nat := ob 0x7068 0x02
/-- 7068h.03h ST_VERDICT -/
abbrev stc_ST_VERDICT : Nat := ob 0x7068 0x03
/-- 7068h.04h ST_BUSY -/
abbrev stc_ST_BUSY : Nat := ob 0x7068 0x04
/-- 7400h.01h LOCKSTEP_ERRORS -/
abbrev mg_LOCKSTEP_ERRORS : Nat := ob 0x7400 0x01
/-- 7400h.02h BOOTS -/
abbrev mg_BOOTS : Nat := ob 0x7400 0x02
/-- 7401h + i.01h PRIORITY_PORT -/
abbrev spd_PRIORITY_PORT (i : Nat) : Nat := ob (0x7401 + i) 0x01
/-- 7401h + i.02h COLLISIONS -/
abbrev spd_COLLISIONS (i : Nat) : Nat := ob (0x7401 + i) 0x02
/-- 7401h + i.03h SPT_SWEEPS -/
abbrev spd_SPT_SWEEPS (i : Nat) : Nat := ob (0x7401 + i) 0x03
/-- 7401h + i.04h SPT_DEFERRED -/
abbrev spd_SPT_DEFERRED (i : Nat) : Nat := ob (0x7401 + i) 0x04
/-- 7401h + i.05h SPT_SKIPPED -/
abbrev spd_SPT_SKIPPED (i : Nat) : Nat := ob (0x7401 + i) 0x05
/-- 7410h.01h TELEM_PERIOD -/
abbrev tp_TELEM_PERIOD : Nat := ob 0x7410 0x01
/-- 7420h + i.01h TEMP -/
abbrev th_TEMP (i : Nat) : Nat := ob (0x7420 + i) 0x01
/-- 7420h + i.02h TEMP_PEAK -/
abbrev th_TEMP_PEAK (i : Nat) : Nat := ob (0x7420 + i) 0x02
/-- 7420h + i.03h WARN_LIMIT -/
abbrev th_WARN_LIMIT (i : Nat) : Nat := ob (0x7420 + i) 0x03
/-- 7420h + i.04h CRIT_LIMIT -/
abbrev th_CRIT_LIMIT (i : Nat) : Nat := ob (0x7420 + i) 0x04
/-- 7440h.01h VIN -/
abbrev vi_VIN : Nat := ob 0x7440 0x01
/-- 7440h.02h IIN -/
abbrev vi_IIN : Nat := ob 0x7440 0x02
/-- 7440h.03h PIN -/
abbrev vi_PIN : Nat := ob 0x7440 0x03
/-- 7440h.04h IIN_LIMIT -/
abbrev vi_IIN_LIMIT : Nat := ob 0x7440 0x04
/-- 7450h + i.01h RAIL_V -/
abbrev rl_RAIL_V (i : Nat) : Nat := ob (0x7450 + i) 0x01
/-- 7450h + i.02h RAIL_NOM -/
abbrev rl_RAIL_NOM (i : Nat) : Nat := ob (0x7450 + i) 0x02
/-- 7460h.01h NOR_COPIES -/
abbrev nr_NOR_COPIES : Nat := ob 0x7460 0x01
/-- 7460h.02h to .03h FREE0 -/
abbrev nr_FREE (j : Nat) : Nat := ob 0x7460 (0x02 + j)
/-- 7460h.04h LIVE_BYTES -/
abbrev nr_LIVE_BYTES : Nat := ob 0x7460 0x04
/-- 7460h.05h TAIL_BYTES -/
abbrev nr_TAIL_BYTES : Nat := ob 0x7460 0x05
/-- 7460h.06h PCOMMITS_HOUR -/
abbrev nr_PCOMMITS_HOUR : Nat := ob 0x7460 0x06
/-- 7460h.07h LOW_SPACE -/
abbrev nr_LOW_SPACE : Nat := ob 0x7460 0x07
/-- 7460h.08h ERASE_MAX -/
abbrev nr_ERASE_MAX : Nat := ob 0x7460 0x08
/-- 7460h.09h WEAR_USED -/
abbrev nr_WEAR_USED : Nat := ob 0x7460 0x09
/-- 7460h.0Ah REFRESH_AGE -/
abbrev nr_REFRESH_AGE : Nat := ob 0x7460 0x0a
/-- 7460h.0Bh RETIRED -/
abbrev nr_RETIRED : Nat := ob 0x7460 0x0b
/-- 7460h.0Ch TORN -/
abbrev nr_TORN : Nat := ob 0x7460 0x0c
/-- 7460h.0Dh REPLAY_TIME -/
abbrev nr_REPLAY_TIME : Nat := ob 0x7460 0x0d
/-- 7470h.01h ACTIVE_SLOT -/
abbrev fwm_ACTIVE_SLOT : Nat := ob 0x7470 0x01
/-- 7470h.02h to .03h SLOT_STATE_A -/
abbrev fwm_SLOT_STATE_A (j : Nat) : Nat := ob 0x7470 (0x02 + j)
/-- 7470h.04h to .05h SLOT_VERSION_A -/
abbrev fwm_SLOT_VERSION_A (j : Nat) : Nat := ob 0x7470 (0x04 + j)
/-- 7470h.06h to .07h SLOT_SVN_A -/
abbrev fwm_SLOT_SVN_A (j : Nat) : Nat := ob 0x7470 (0x06 + j)
/-- 7470h.08h FW_IMAGE -/
abbrev fwm_FW_IMAGE : Nat := ob 0x7470 0x08
/-- 7470h.09h FW_CMD -/
abbrev fwm_FW_CMD : Nat := ob 0x7470 0x09
/-- 7470h.0Ah FW_STATUS -/
abbrev fwm_FW_STATUS : Nat := ob 0x7470 0x0a
/-- 7470h.0Bh CONFIRM_WINDOW -/
abbrev fwm_CONFIRM_WINDOW : Nat := ob 0x7470 0x0b
/-- 7480h.01h PHASE -/
abbrev bu_PHASE : Nat := ob 0x7480 0x01
/-- 7480h.02h LAST_RESET -/
abbrev bu_LAST_RESET : Nat := ob 0x7480 0x02
/-- 7480h.03h RESET_PHASE -/
abbrev bu_RESET_PHASE : Nat := ob 0x7480 0x03
/-- 7480h.04h BRINGUP_TIME -/
abbrev bu_BRINGUP_TIME : Nat := ob 0x7480 0x04
/-- 7480h.05h TRAIN_KIND -/
abbrev bu_TRAIN_KIND : Nat := ob 0x7480 0x05
/-- 7480h.06h DEV_RESET -/
abbrev bu_DEV_RESET : Nat := ob 0x7480 0x06
/-- 7480h.07h DEV_RESET_STATUS -/
abbrev bu_DEV_RESET_STATUS : Nat := ob 0x7480 0x07
/-- 7480h.08h FORCE_FULL_TRAIN -/
abbrev bu_FORCE_FULL_TRAIN : Nat := ob 0x7480 0x08
/-- 7481h.01h to .06h PHASE_TIME0 -/
abbrev bp_PHASE_TIME (j : Nat) : Nat := ob 0x7481 (0x01 + j)
/-- 7482h.01h PFW_THRESHOLD -/
abbrev pw_PFW_THRESHOLD : Nat := ob 0x7482 0x01
/-- 7482h.02h PFW_ACTIVE -/
abbrev pw_PFW_ACTIVE : Nat := ob 0x7482 0x02
/-- 7482h.03h PFW_COUNT -/
abbrev pw_PFW_COUNT : Nat := ob 0x7482 0x03
/-- 7483h.01h TRAIN_RECORD -/
abbrev tn_TRAIN_RECORD : Nat := ob 0x7483 0x01
/-- 7483h.02h TRAIN_VALID -/
abbrev tn_TRAIN_VALID : Nat := ob 0x7483 0x02
/-- 7800h.01h LIFECYCLE -/
abbrev lcy_LIFECYCLE : Nat := ob 0x7800 0x01
/-- 7800h.02h LC_CHALLENGE -/
abbrev lcy_LC_CHALLENGE : Nat := ob 0x7800 0x02
/-- 7800h.03h LC_TOKEN -/
abbrev lcy_LC_TOKEN : Nat := ob 0x7800 0x03
/-- 7800h.04h LC_STATUS -/
abbrev lcy_LC_STATUS : Nat := ob 0x7800 0x04
/-- 7800h.05h TAMPER_COUNT -/
abbrev lcy_TAMPER_COUNT : Nat := ob 0x7800 0x05
/-- 7800h.06h TAMPER_ACTIVE -/
abbrev lcy_TAMPER_ACTIVE : Nat := ob 0x7800 0x06
/-- 7810h.01h SEAL_KEY -/
abbrev kk_SEAL_KEY : Nat := ob 0x7810 0x01
/-- 7810h.02h KEY_STATE -/
abbrev kk_KEY_STATE : Nat := ob 0x7810 0x02
/-- 7810h.03h KEY_WINDOW_LEFT -/
abbrev kk_KEY_WINDOW_LEFT : Nat := ob 0x7810 0x03
/-- 7810h.04h SEAL_KEY_HASH -/
abbrev kk_SEAL_KEY_HASH : Nat := ob 0x7810 0x04
/-- 7820h.01h ROOT_KEY_HASH -/
abbrev rk_ROOT_KEY_HASH : Nat := ob 0x7820 0x01
/-- 7820h.02h FUSED_SVN -/
abbrev rk_FUSED_SVN : Nat := ob 0x7820 0x02
/-- 8000h + i.01h to .10h CUST_V -/
abbrev cu_CUST_V (i : Nat) (j : Nat) : Nat := ob (0x8000 + i) (0x01 + j)
/-- 8080h + i.01h to .10h CUST_P -/
abbrev cp_CUST_P (i : Nat) (j : Nat) : Nat := ob (0x8080 + i) (0x01 + j)

end Sys2Proof.Machine.K
end

