-- ==== Sys2Proof/Machine/Store.lean ====
section
/-! DEFINITION. Sparse plain data: a list of key and value pairs in rising key order. The object dictionary,
the control store, the segment table and every other sparse memory of the model use it. -/
namespace Sys2Proof.Machine

/-- A sparse map: keys strictly rising in the canonical form (ksorted). -/
abbrev KMap (α : Type) := List (Nat × α)

/-- The value at a key, if the map lists one. -/
def kget? {α : Type} : KMap α → Nat → Option α
  | [], _ => none
  | (a, b) :: r, k => if k = a then some b else kget? r k

/-- Writes a value at a key, keeping the keys in rising order. -/
def kput {α : Type} : KMap α → Nat → α → KMap α
  | [], k, v => [(k, v)]
  | (a, b) :: r, k, v =>
    if k < a then (k, v) :: (a, b) :: r
    else if k = a then (k, v) :: r
    else (a, b) :: kput r k v

/-- Removes a key. -/
def kdel {α : Type} : KMap α → Nat → KMap α
  | [], _ => []
  | (a, b) :: r, k => if k = a then kdel r k else (a, b) :: kdel r k

/-- Every key of the map is above a bound, and the keys strictly rise. -/
def krising {α : Type} : Option Nat → KMap α → Bool
  | _, [] => true
  | none, (a, _) :: r => krising (some a) r
  | some b, (a, _) :: r => decide (b < a) && krising (some a) r

/-- The canonical key order: strictly rising. -/
def ksorted {α : Type} (m : KMap α) : Bool := krising none m

/-- The value at a key, or a value for keys that are not listed. -/
def kgetD {α : Type} (m : KMap α) (k : Nat) (d : α) : α := (kget? m k).getD d

/-- Applies a function to the listed value at a key. -/
def kmod {α : Type} (m : KMap α) (k : Nat) (f : α → α) : KMap α :=
  match kget? m k with
  | none => m
  | some v => kput m k (f v)

/-- How many entries hold a property. -/
def kcount {α : Type} (m : KMap α) (p : α → Bool) : Nat := (m.filter (fun e => p e.2)).length

end Sys2Proof.Machine
end

