-- ==== Sys2Proof/Machine/Operands.lean ====
section
/-! DEFINITION. The operand forms: bytes and numbers (R9), CRC-32C (R52), the fields of a microword (R123), of a yealm
(R52 to R57) and of log entries, read and written in one place each. -/
namespace Sys2Proof.Machine
open Sys2Proof

/-- Bits lo to lo + len - 1 of a number (R9). -/
def bits (n lo len : Nat) : Nat := n / 2 ^ lo % 2 ^ len

/-- One bit of a number. -/
def bit (n i : Nat) : Bool := n.testBit i

/-- 1 for true. -/
def b2n (b : Bool) : Nat := if b then 1 else 0

/-- 1 for true, as an object's value. -/
def b2i (b : Bool) : Int := if b then 1 else 0

/-- The mean of values, to the nearest unit; 0 of none.
[DEDUCED, assumption 88] -/
def meanOf (l : List Int) : Int :=
  let n : Int := l.length
  if n = 0 then 0 else (2 * l.foldl (· + ·) 0 + n) / (2 * n)
/-- The little-endian number of a list of bytes (R9). -/
def leNat : List Byte → Nat
  | [] => 0
  | b :: r => b.toNat + 256 * leNat r

/-- The n little-endian bytes of a number (R9). -/
def toBytes : Nat → Nat → List Byte
  | 0, _ => []
  | n + 1, v => BitVec.ofNat 8 v :: toBytes n (v / 256)

/-- The number at bytes off to off + len - 1 of a list. -/
def field (l : List Byte) (off len : Nat) : Nat := leNat ((l.drop off).take len)

/-- Cuts a list into pieces of n, at most fuel of them. -/
def chunks {α : Type} (n : Nat) : Nat → List α → List (List α)
  | 0, _ => []
  | _ + 1, [] => []
  | f + 1, l => l.take n :: chunks n f (l.drop n)

/-- A list filled up with zero bytes to a length. -/
def padTo (n : Nat) (l : List Byte) : List Byte := l ++ List.replicate (n - l.length) 0

/-- One step of the reflected CRC-32C (polynomial 1EDC_6F41h, reflected 82F6_3B78h; R52). -/
def crcBit (c : BitVec 32) : BitVec 32 :=
  if c.getLsbD 0 then (c >>> 1) ^^^ 0x82F63B78#32 else c >>> 1

/-- Eight steps. -/
def crcByte (c : BitVec 32) (b : Byte) : BitVec 32 :=
  let c := c ^^^ b.zeroExtend 32
  crcBit (crcBit (crcBit (crcBit (crcBit (crcBit (crcBit (crcBit c)))))))

/-- CRC-32C with initial value and final XOR of FFFF_FFFFh (R52). -/
def crc32c (l : List Byte) : Nat := ((l.foldl crcByte 0xFFFFFFFF#32) ^^^ 0xFFFFFFFF#32).toNat

/-- How many bits of a number are set, over its low n bits. -/
def popCount : Nat → Nat → Nat
  | 0, _ => 0
  | n + 1, v => b2n (v.testBit n) + popCount n v

/-! ### Signed and unsigned encodings (Table 14.1) -/

/-- The unsigned number of an integer in n bytes, two's complement. -/
def toUnsigned (n : Nat) (v : Int) : Nat := (v % (256 ^ n : Nat)).toNat

/-- The integer of an unsigned number in n bytes, two's complement. -/
def toSigned (n v : Nat) : Int := if 2 * v < 256 ^ n then (v : Int) else (v : Int) - (256 ^ n : Nat)

/-! ### Microword fields (Table 3.3) -/
namespace MW

/-- Bits lo to lo + len - 1 of a microword. -/
def f (w : MWord) (lo len : Nat) : Nat := (w.extractLsb' lo len).toNat

/-- SAFE [159] -/
def safe (w : MWord) : Bool := w.getLsbD 159
/-- APPLY [158] -/
def apply (w : MWord) : Bool := w.getLsbD 158
/-- OP [157:153] -/
def op (w : MWord) : Nat := f w 153 5
/-- COND [152:147] -/
def cond (w : MWord) : Nat := f w 147 6
/-- CINV [146] -/
def cinv (w : MWord) : Bool := w.getLsbD 146
/-- TGT [145:129] -/
def tgt (w : MWord) : Nat := f w 129 17
/-- LCSEL [128:125] -/
def lcsel (w : MWord) : Nat := f w 125 4
/-- LCOP [124:122] -/
def lcop (w : MWord) : Nat := f w 122 3
/-- VOP [121:118] -/
def vop (w : MWord) : Nat := f w 118 4
/-- VREP [117:102] -/
def vrep (w : MWord) : Nat := f w 102 16
/-- TSET [101:96] -/
def tset (w : MWord) : Nat := f w 96 6
/-- TSMODE [95:94] -/
def tsmode (w : MWord) : Nat := f w 94 2
/-- CMPEN [93:92] -/
def cmpen (w : MWord) : Nat := f w 92 2
/-- FAILACT [91:89] -/
def failact (w : MWord) : Nat := f w 89 3
/-- MKR [88:81] -/
def mkr (w : MWord) : Nat := f w 81 8
/-- WFE [80:73] -/
def wfe (w : MWord) : Nat := f w 73 8
/-- TMUC [72:67] -/
def tmuc (w : MWord) : Nat := f w 67 6
/-- DCR [66:51] -/
def dcr (w : MWord) : Nat := f w 51 16
/-- EVTCLR [50:35] -/
def evtclr (w : MWord) : Nat := f w 35 16
/-- IMMD [34:3] -/
def immd (w : MWord) : Nat := f w 3 32
/-- RSVD [2:0] -/
def rsvd (w : MWord) : Nat := f w 0 3

/-- The 20 bytes of a microword's image (R9). -/
def bytes (w : MWord) : List Byte := toBytes 20 w.toNat

/-- The microword of a 20-byte image. -/
def ofBytes (l : List Byte) : MWord := BitVec.ofNat 160 (leNat l)

end MW

/-! ### Yealms (Table 2.2, R53 to R57) -/
namespace Yealm

/-- Bits of the header. -/
def h (y : List Byte) (lo len : Nat) : Nat := bits (leNat (y.take 64)) lo len

/-- MAGIC -/
def magic (y : List Byte) : Nat := h y 0 32
/-- FORMAT -/
def format (y : List Byte) : Nat := h y 32 16
/-- BEATS -/
def beats (y : List Byte) : Nat := h y 48 2
/-- TSV -/
def tsv (y : List Byte) : Bool := h y 50 1 == 1
/-- SITE_WIDTH -/
def width (y : List Byte) : Nat := h y 56 8
/-- SEQ -/
def seq (y : List Byte) : Nat := h y 64 64
/-- OCT_MASK -/
def mask (y : List Byte) : Nat := h y 128 32
/-- SITE_OCTETS -/
def octets (y : List Byte) : Nat := h y 160 32
/-- VCOUNT -/
def vcount (y : List Byte) : Nat := h y 192 16
/-- FIRST -/
def first (y : List Byte) : Bool := h y 208 1 == 1
/-- LAST -/
def last (y : List Byte) : Bool := h y 209 1 == 1
/-- NUMBER -/
def number (y : List Byte) : Nat := h y 224 16
/-- STREAM -/
def stream (y : List Byte) : Bool := h y 255 1 == 1
/-- CRC -/
def crc (y : List Byte) : Nat := h y 480 32

/-- Beats per vector of a BEATS code: 1, 2 or 4. -/
def nbeats (code : Nat) : Nat := 2 ^ code

/-- Record size S (R54). -/
def recSize (y : List Byte) : Nat := b2n (tsv y) + 4 * nbeats (beats y) * popCount 32 (mask y)

/-- VMAX (R54). -/
def vmax (y : List Byte) : Nat := if recSize y = 0 then 4032 else min 4032 (4032 / recSize y)

/-- The reserved header bits are zero (R53). -/
def reservedZero (y : List Byte) : Bool :=
  h y 51 5 == 0 && h y 210 14 == 0 && h y 240 15 == 0 && h y 256 224 == 0

/-- Check 1 of R772: MAGIC and FORMAT. -/
def magicOk (y : List Byte) : Bool := magic y == 0x4D4C4559 && format y == 1

/-- Check 2 of R772: the CRC over header bytes 0 to 59 and bytes 64 to 4,095. -/
def crcOk (y : List Byte) : Bool := crc y == crc32c (y.take 60 ++ y.drop 64)

/-- Bits [7:6] of every timing-set byte are zero (R53, R56). -/
def tsReservedZero (y : List Byte) : Bool :=
  !tsv y || (List.range (vcount y)).all (fun v => field y (64 + v * recSize y) 1 / 64 == 0)

/-- Check 3 of R772: the other rules of R53, then R55. -/
def formatOk (y : List Byte) : Bool :=
  reservedZero y && beats y != 3 && decide (1 ≤ width y) && decide (width y ≤ 32) &&
  width y == popCount 32 (octets y) && (mask y &&& octets y) == mask y &&
  decide (1 ≤ vcount y) && decide (vcount y ≤ vmax y) &&
  ((y.drop (64 + vcount y * recSize y)).all (· == 0)) && tsReservedZero y &&
  (!first y || mask y == octets y)

/-- The octets of a mask in ascending number. -/
def octetList (m : Nat) : List Nat := (List.range 32).filter (fun o => m.testBit o)

/-- The timing-set byte of record v, when TSV is set (R56). -/
def tsByte (y : List Byte) (v : Nat) : Option Nat :=
  if tsv y then some (field y (64 + v * recSize y) 1 % 64) else none

/-- The slices of record v by octet (R56). -/
def slices (y : List Byte) (v : Nat) : KMap (List Byte) :=
  let n := 4 * nbeats (beats y)
  let start := 64 + v * recSize y + b2n (tsv y)
  let os := octetList (mask y)
  (os.zip (chunks n os.length (y.drop start))).map (fun p => (p.1, p.2))

/-- The pin state code of channel position p for beat k in a slice of B beats (R57). -/
def code (slice : List Byte) (nb p k : Nat) : Nat :=
  let j := p * nb + k
  bits (field slice (j / 2) 1) (if j % 2 = 0 then 0 else 4) 4

/-- A slice in which every beat of every channel position carries the given code of that position. -/
def fill (nb : Nat) (c : Nat → Nat) : List Byte :=
  (List.range (4 * nb)).map (fun b => BitVec.ofNat 8 (c (2 * b / nb) + 16 * c ((2 * b + 1) / nb)))

end Yealm
end Sys2Proof.Machine
end

