-- ==== Sys2Proof/Machine/Sources.lean ====
section
/-! DEFINITION. The fault sources of every chapter with their default severities (Table 16.1 and the tables it names;
severities as Table 16.2 numbers them). -/
namespace Sys2Proof.Machine.Src

/-- 0000h MTR_LOST: a single source. -/
abbrev MTR_LOST : Nat := 0x0000
/-- 0001h REFCLK_LOST: a single source. -/
abbrev REFCLK_LOST : Nat := 0x0001
/-- 0002h REF_MISMATCH: a single source. -/
abbrev REF_MISMATCH : Nat := 0x0002
/-- 0003h REFCLK_SSC_UNDECLARED: a single source. -/
abbrev REFCLK_SSC_UNDECLARED : Nat := 0x0003
/-- 0010h to 0012h CLOCK_LOST: timing, host and management, field network: the source of unit i. -/
abbrev CLOCK_LOST (i : Nat) : Nat := 0x0010 + i
/-- 0020h RIDGE_PHASE_DRIFT: a single source. -/
abbrev RIDGE_PHASE_DRIFT : Nat := 0x0020
/-- 1000h VIN_PFW: a single source. -/
abbrev VIN_PFW : Nat := 0x1000
/-- 1001h VIN_LOW: a single source. -/
abbrev VIN_LOW : Nat := 0x1001
/-- 1002h VIN_HIGH: a single source. -/
abbrev VIN_HIGH : Nat := 0x1002
/-- 1100h to 110Dh RAIL_LIMIT, rail 0 to 13: the source of unit i. -/
abbrev RAIL_LIMIT (i : Nat) : Nat := 0x1100 + i
/-- 1110h IIN_LIMIT: a single source. -/
abbrev IIN_LIMIT : Nat := 0x1110
/-- 2000h PCIE_LINK_DOWN: a single source. -/
abbrev PCIE_LINK_DOWN : Nat := 0x2000
/-- 2001h PCIE_LINK_DEGRADED: a single source. -/
abbrev PCIE_LINK_DEGRADED : Nat := 0x2001
/-- 2002h PCIE_UNCORRECTABLE, an uncorrectable error logged under AER: a single source. -/
abbrev PCIE_UNCORRECTABLE : Nat := 0x2002
/-- 2003h PCIE_CORRECTABLE: a single source. -/
abbrev PCIE_CORRECTABLE : Nat := 0x2003
/-- 2100h to 2120h Q_ERROR, function 0 (PF) to 32: the source of unit i. -/
abbrev Q_ERROR (i : Nat) : Nat := 0x2100 + i
/-- 2200h to 221Fh Q_EVENT_OVERFLOW, site 0 to 31: the source of unit i. -/
abbrev Q_EVENT_OVERFLOW (i : Nat) : Nat := 0x2200 + i
/-- 3000h T1S_NODE_INVALID: a single source. -/
abbrev T1S_NODE_INVALID : Nat := 0x3000
/-- 3001h PLCA_BEACON_LOST: a single source. -/
abbrev PLCA_BEACON_LOST : Nat := 0x3001
/-- 3002h KDP_NOTIFY_LOST: a single source. -/
abbrev KDP_NOTIFY_LOST : Nat := 0x3002
/-- 3003h TXN_TIMEOUT: a single source. -/
abbrev TXN_TIMEOUT : Nat := 0x3003
/-- 3004h TXN_APPLY_FAILED: a single source. -/
abbrev TXN_APPLY_FAILED : Nat := 0x3004
/-- 4000h LOCKSTEP_MISMATCH: a single source. -/
abbrev LOCKSTEP_MISMATCH : Nat := 0x4000
/-- 4001h to 4004h SPAD_COLLISION, bank 0 to 3: the source of unit i. -/
abbrev SPAD_COLLISION (i : Nat) : Nat := 0x4001 + i
/-- 4008h to 400Bh SPAD_SELFTEST_FAIL, bank 0 to 3: the source of unit i. -/
abbrev SPAD_SELFTEST_FAIL (i : Nat) : Nat := 0x4008 + i
/-- 4010h to 4011h NOR_COPY_FAIL, die 0 to 1: the source of unit i. -/
abbrev NOR_COPY_FAIL (i : Nat) : Nat := 0x4010 + i
/-- 4012h JOURNAL_MISMATCH: a single source. -/
abbrev JOURNAL_MISMATCH : Nat := 0x4012
/-- 4013h JOURNAL_LOW_SPACE: a single source. -/
abbrev JOURNAL_LOW_SPACE : Nat := 0x4013
/-- 4014h JOURNAL_BUDGET: a single source. -/
abbrev JOURNAL_BUDGET : Nat := 0x4014
/-- 4015h EVLOG_LOST: a single source. -/
abbrev EVLOG_LOST : Nat := 0x4015
/-- 4016h FW_TRIAL_REVERTED: a single source. -/
abbrev FW_TRIAL_REVERTED : Nat := 0x4016
/-- 4017h TAMPER: a single source. -/
abbrev TAMPER : Nat := 0x4017
/-- 4018h LC_TOKEN_BAD: a single source. -/
abbrev LC_TOKEN_BAD : Nat := 0x4018
/-- 4100h to 4117h TEMP_WARN, sensor 0 to 23: the source of unit i. -/
abbrev TEMP_WARN (i : Nat) : Nat := 0x4100 + i
/-- 4120h to 4137h TEMP_CRIT, sensor 0 to 23: the source of unit i. -/
abbrev TEMP_CRIT (i : Nat) : Nat := 0x4120 + i
/-- 5000h to 5003h HBM_UE, stacks 0 to 3: the source of unit i. -/
abbrev HBM_UE (i : Nat) : Nat := 0x5000 + i
/-- 5010h to 5013h HBM_CE_RATE, more than 100 corrected errors per hour in a stack: the source of unit i. -/
abbrev HBM_CE_RATE (i : Nat) : Nat := 0x5010 + i
/-- 5100h to 511Fh SUPPLY_UNDERRUN, site 0 to 31: the source of unit i. -/
abbrev SUPPLY_UNDERRUN (i : Nat) : Nat := 0x5100 + i
/-- 5120h to 513Fh SEG_OVERREAD, site 0 to 31: the source of unit i. -/
abbrev SEG_OVERREAD (i : Nat) : Nat := 0x5120 + i
/-- 5140h to 515Fh SEG_YEALM_BAD, site 0 to 31; a segment yealm failed its CRC or MAGIC check at fetch: the source of unit i. -/
abbrev SEG_YEALM_BAD (i : Nat) : Nat := 0x5140 + i
/-- 6000h to 6003h DDR5_UE, channels 0 to 3: the source of unit i. -/
abbrev DDR5_UE (i : Nat) : Nat := 0x6000 + i
/-- 6010h to 6013h DDR5_CE_RATE, channels 0 to 3: the source of unit i. -/
abbrev DDR5_CE_RATE (i : Nat) : Nat := 0x6010 + i
/-- 7000h to 703Fh STREAM_UNDERRUN, streams 0 to 63: the source of unit i. -/
abbrev STREAM_UNDERRUN (i : Nat) : Nat := 0x7000 + i
/-- 7040h to 707Fh STREAM_OVERREAD: the source of unit i. -/
abbrev STREAM_OVERREAD (i : Nat) : Nat := 0x7040 + i
/-- 7080h to 70BFh LOOP_WINDOW_OVERFLOW: the source of unit i. -/
abbrev LOOP_WINDOW_OVERFLOW (i : Nat) : Nat := 0x7080 + i
/-- 70C0h to 70FFh STREAM_YEALM_BAD, failed at fetch: the source of unit i. -/
abbrev STREAM_YEALM_BAD (i : Nat) : Nat := 0x70C0 + i
/-- 8000h to 801Fh SAFE_POINT_STARVATION, site 0 to 31: the source of unit i. -/
abbrev SAFE_POINT_STARVATION (i : Nat) : Nat := 0x8000 + i
/-- 8020h to 803Fh STACK_FAULT, site 0 to 31: the source of unit i. -/
abbrev STACK_FAULT (i : Nat) : Nat := 0x8020 + i
/-- 8040h to 805Fh CS_PROTECT, site 0 to 31: the source of unit i. -/
abbrev CS_PROTECT (i : Nat) : Nat := 0x8040 + i
/-- 8060h to 807Fh ABORT_FORCED, site 0 to 31: the source of unit i. -/
abbrev ABORT_FORCED (i : Nat) : Nat := 0x8060 + i
/-- 8080h to 809Fh SEQ_RESOURCE, site 0 to 31: the source of unit i. -/
abbrev SEQ_RESOURCE (i : Nat) : Nat := 0x8080 + i
/-- 80A0h CS_CE, a corrected control-store error: a single source. -/
abbrev CS_CE : Nat := 0x80A0
/-- 80A1h CS_UE, an uncorrectable control-store error: a single source. -/
abbrev CS_UE : Nat := 0x80A1
/-- 8100h to 810Fh EVT_STUCK, event input 0 to 15: the source of unit i. -/
abbrev EVT_STUCK (i : Nat) : Nat := 0x8100 + i
/-- 8110h to 811Fh EVT_OVERRUN, event input 0 to 15: the source of unit i. -/
abbrev EVT_OVERRUN (i : Nat) : Nat := 0x8110 + i
/-- 8120h to 813Fh PAUSE_REFUSED, site 0 to 31: the source of unit i. -/
abbrev PAUSE_REFUSED (i : Nat) : Nat := 0x8120 + i
/-- 9000h to 901Fh TSET_INVALID, site 0 to 31: the source of unit i. -/
abbrev TSET_INVALID (i : Nat) : Nat := 0x9000 + i
/-- 9020h to 903Fh WITHY_UNLOCK, octet 0 to 31: the source of unit i. -/
abbrev WITHY_UNLOCK (i : Nat) : Nat := 0x9020 + i
/-- 9040h to 905Fh PIN_PATTERN, site 0 to 31: the source of unit i. -/
abbrev PIN_PATTERN (i : Nat) : Nat := 0x9040 + i
/-- 9100h to 91FFh PE_LOS, channel 0 to 255: the source of unit i. -/
abbrev PE_LOS (i : Nat) : Nat := 0x9100 + i
/-- 9200h to 92FFh CMP_BOTH, channel 0 to 255: the source of unit i. -/
abbrev CMP_BOTH (i : Nat) : Nat := 0x9200 + i
/-- A000h to A01Fh FAIL_COUNT_ONLY, site 0 to 31: the source of unit i. -/
abbrev FAIL_COUNT_ONLY (i : Nat) : Nat := 0xA000 + i
/-- A020h to A03Fh CAPTURE_OVERFLOW, site 0 to 31: the source of unit i. -/
abbrev CAPTURE_OVERFLOW (i : Nat) : Nat := 0xA020 + i
/-- A040h to A05Fh LOG_WRAPPED, site 0 to 31: the source of unit i. -/
abbrev LOG_WRAPPED (i : Nat) : Nat := 0xA040 + i
/-- B000h to B007h WF_SAMPLE_LATE, engine 0 to 7: the source of unit i. -/
abbrev WF_SAMPLE_LATE (i : Nat) : Nat := 0xB000 + i
/-- B008h to B00Fh WF_SEQ_FAULT, engine 0 to 7: the source of unit i. -/
abbrev WF_SEQ_FAULT (i : Nat) : Nat := 0xB008 + i
/-- B010h to B017h WF_CLIP, engine 0 to 7: the source of unit i. -/
abbrev WF_CLIP (i : Nat) : Nat := 0xB010 + i
/-- B018h to B01Fh WF_CMD_IGNORED, engine 0 to 7: the source of unit i. -/
abbrev WF_CMD_IGNORED (i : Nat) : Nat := 0xB018 + i
/-- C000h to C009h TMU_UNLOCK, TMU 0 to 9: the source of unit i. -/
abbrev TMU_UNLOCK (i : Nat) : Nat := 0xC000 + i
/-- C010h to C019h TMU_MISSED, the first missed sample of an arming, TMU 0 to 9: the source of unit i. -/
abbrev TMU_MISSED (i : Nat) : Nat := 0xC010 + i
/-- D000h to D0BFh LVL_COMPLIANCE, DAC 0 to 191: the source of unit i. -/
abbrev LVL_COMPLIANCE (i : Nat) : Nat := 0xD000 + i
/-- D100h to D1BFh LVL_OPEN_LOAD, DAC 0 to 191: the source of unit i. -/
abbrev LVL_OPEN_LOAD (i : Nat) : Nat := 0xD100 + i
/-- D200h to D2BFh LVL_OVERLOAD, DAC 0 to 191: the source of unit i. -/
abbrev LVL_OVERLOAD (i : Nat) : Nat := 0xD200 + i
/-- D300h to D307h LVL_REF_FAULT, bank 0 to 7: the source of unit i. -/
abbrev LVL_REF_FAULT (i : Nat) : Nat := 0xD300 + i
/-- D308h LVL_PARK_DEFAULT: a single source. -/
abbrev LVL_PARK_DEFAULT : Nat := 0xD308
/-- E000h to E0FFh CAL_FAIL, channel 0 to 255: the source of unit i. -/
abbrev CAL_FAIL (i : Nat) : Nat := 0xE000 + i
/-- E100h to E10Fh SPAR_CAL_FAIL, spar 0 to 15: the source of unit i. -/
abbrev SPAR_CAL_FAIL (i : Nat) : Nat := 0xE100 + i
/-- E110h to E117h CAL_SUSPENDED, bank 0 to 7: the source of unit i. -/
abbrev CAL_SUSPENDED (i : Nat) : Nat := 0xE110 + i
/-- E118h to E11Fh CAL_PROMOTED, bank 0 to 7: the source of unit i. -/
abbrev CAL_PROMOTED (i : Nat) : Nat := 0xE118 + i
/-- E120h to E13Fh CAL_NO_EAVE, site 0 to 31: the source of unit i. -/
abbrev CAL_NO_EAVE (i : Nat) : Nat := 0xE120 + i
/-- E140h CALREF_LOST: a single source. -/
abbrev CALREF_LOST : Nat := 0xE140
/-- E141h SEAL_TOKEN_BAD: a single source. -/
abbrev SEAL_TOKEN_BAD : Nat := 0xE141
/-- E200h to E2FFh RT_DRIFT, channel 0 to 255: the source of unit i. -/
abbrev RT_DRIFT (i : Nat) : Nat := 0xE200 + i
/-- F000h RAIL_DISAGREE: a single source. -/
abbrev RAIL_DISAGREE : Nat := 0xF000
/-- F010h to F017h SPAR_EXHAUSTED, bank 0 to 7: the source of unit i. -/
abbrev SPAR_EXHAUSTED (i : Nat) : Nat := 0xF010 + i
/-- F020h DEFERRED_TEST_FAIL: a single source. -/
abbrev DEFERRED_TEST_FAIL : Nat := 0xF020

/-- One range of sources and its default severity. -/
structure SrcRange where
  /-- first source -/
  lo : Nat
  /-- last source -/
  hi : Nat
  /-- default severity -/
  sev : Nat
  deriving DecidableEq, Repr

/-- Every source that a chapter defines, in ascending number (R693). -/
def table : List SrcRange :=
  [⟨0x0000, 0x0000, 3⟩, ⟨0x0001, 0x0001, 3⟩, ⟨0x0002, 0x0002, 2⟩, ⟨0x0003, 0x0003, 2⟩, ⟨0x0010, 0x0012, 5⟩, ⟨0x0020, 0x0020, 2⟩, ⟨0x1000, 0x1000, 5⟩, ⟨0x1001, 0x1001, 2⟩, ⟨0x1002, 0x1002, 5⟩, ⟨0x1100, 0x110D, 5⟩, ⟨0x1110, 0x1110, 2⟩, ⟨0x2000, 0x2000, 2⟩] ++
  [⟨0x2001, 0x2001, 2⟩, ⟨0x2002, 0x2002, 2⟩, ⟨0x2003, 0x2003, 1⟩, ⟨0x2100, 0x2120, 1⟩, ⟨0x2200, 0x221F, 1⟩, ⟨0x3000, 0x3000, 2⟩, ⟨0x3001, 0x3001, 1⟩, ⟨0x3002, 0x3002, 1⟩, ⟨0x3003, 0x3003, 1⟩, ⟨0x3004, 0x3004, 1⟩, ⟨0x4000, 0x4000, 5⟩, ⟨0x4001, 0x4004, 1⟩] ++
  [⟨0x4008, 0x400B, 2⟩, ⟨0x4010, 0x4011, 2⟩, ⟨0x4012, 0x4012, 2⟩, ⟨0x4013, 0x4013, 1⟩, ⟨0x4014, 0x4014, 1⟩, ⟨0x4015, 0x4015, 1⟩, ⟨0x4016, 0x4016, 2⟩, ⟨0x4017, 0x4017, 2⟩, ⟨0x4018, 0x4018, 2⟩, ⟨0x4100, 0x4117, 2⟩, ⟨0x4120, 0x4137, 5⟩, ⟨0x5000, 0x5003, 4⟩] ++
  [⟨0x5010, 0x5013, 1⟩, ⟨0x5100, 0x511F, 4⟩, ⟨0x5120, 0x513F, 4⟩, ⟨0x5140, 0x515F, 4⟩, ⟨0x6000, 0x6003, 4⟩, ⟨0x6010, 0x6013, 1⟩, ⟨0x7000, 0x703F, 4⟩, ⟨0x7040, 0x707F, 4⟩, ⟨0x7080, 0x70BF, 4⟩, ⟨0x70C0, 0x70FF, 4⟩, ⟨0x8000, 0x801F, 4⟩, ⟨0x8020, 0x803F, 4⟩] ++
  [⟨0x8040, 0x805F, 4⟩, ⟨0x8060, 0x807F, 2⟩, ⟨0x8080, 0x809F, 1⟩, ⟨0x80A0, 0x80A0, 1⟩, ⟨0x80A1, 0x80A1, 4⟩, ⟨0x8100, 0x810F, 2⟩, ⟨0x8110, 0x811F, 1⟩, ⟨0x8120, 0x813F, 2⟩, ⟨0x9000, 0x901F, 4⟩, ⟨0x9020, 0x903F, 4⟩, ⟨0x9040, 0x905F, 4⟩, ⟨0x9100, 0x91FF, 2⟩] ++
  [⟨0x9200, 0x92FF, 1⟩, ⟨0xA000, 0xA01F, 2⟩, ⟨0xA020, 0xA03F, 2⟩, ⟨0xA040, 0xA05F, 1⟩, ⟨0xB000, 0xB007, 2⟩, ⟨0xB008, 0xB00F, 4⟩, ⟨0xB010, 0xB017, 1⟩, ⟨0xB018, 0xB01F, 1⟩, ⟨0xC000, 0xC009, 2⟩, ⟨0xC010, 0xC019, 1⟩, ⟨0xD000, 0xD0BF, 2⟩, ⟨0xD100, 0xD1BF, 2⟩] ++
  [⟨0xD200, 0xD2BF, 2⟩, ⟨0xD300, 0xD307, 4⟩, ⟨0xD308, 0xD308, 2⟩, ⟨0xE000, 0xE0FF, 2⟩, ⟨0xE100, 0xE10F, 2⟩, ⟨0xE110, 0xE117, 1⟩, ⟨0xE118, 0xE11F, 1⟩, ⟨0xE120, 0xE13F, 1⟩, ⟨0xE140, 0xE140, 2⟩, ⟨0xE141, 0xE141, 2⟩, ⟨0xE200, 0xE2FF, 2⟩, ⟨0xF000, 0xF000, 2⟩] ++
  [⟨0xF010, 0xF017, 2⟩, ⟨0xF020, 0xF020, 2⟩]

/-- The default severity of a source, none for a source that no chapter defines (R696). -/
def dfltSev (src : Nat) : Option Nat :=
  (table.find? (fun r => decide (r.lo ≤ src) && decide (src ≤ r.hi))).map SrcRange.sev

end Sys2Proof.Machine.Src
end

