-- ==== Sys2Proof/Machine/State.lean ====
section
/-! DEFINITION. The state of the KZ256Z as plain data. Every value that the object dictionary shows is held in one
place, the object store od (and blobs for STR and DOMAIN values); the structures below hold what the manual gives the
device beside the dictionary. The default value of each field is its value at reset. -/
namespace Sys2Proof.Machine
open Sys2Proof

/-- The object store: the objects whose value differs from the default of their table (Machine/Objects.lean). -/
abbrev Store := KMap Int

/-! ### Vector memory (chapter 2) -/

/-- Segment states of a table entry in use (Table 2.3); a FREE entry is not listed. -/
inductive SegSt where
  | opened | inactive | active | failed
  deriving DecidableEq, Repr

/-- One entry of the segment table (R61 to R68). -/
structure Seg where
  /-- state -/
  st : SegSt := .opened
  /-- kind -/
  kind : SegKind := .vector
  /-- home tier -/
  home : Tier := .hbm
  /-- length in yealms or granules -/
  len : Nat := 0
  /-- reference count (R66, R67) -/
  refs : Nat := 0
  /-- footprint established at the seal (R65) -/
  octets : Nat := 0
  /-- beat code established at the seal (R65) -/
  beats : Nat := 0
  /-- new home while under migration -/
  moving : Option (Tier × Tag) := none
  /-- function that allocated it (R572) -/
  owner : FnId := 0
  /-- yealms (4,096 bytes) or granules (128 bytes) by index -/
  data : KMap (List Byte) := []
  deriving DecidableEq, Repr

/-- A feed entry that the stream engine holds (R83): what is left of it. -/
structure Feed where
  /-- its command -/
  tag : Tag
  /-- yealms not yet stored -/
  rest : List (List Byte)
  /-- yealms of the entry already stored -/
  stored : Nat := 0
  deriving DecidableEq, Repr

/-- What a stream holds beside its objects (R81 to R86). -/
structure Strm where
  /-- SITE_OCTETS of STREAM_OPEN -/
  octets : Nat := 0
  /-- BEATS of STREAM_OPEN -/
  beats : Nat := 0
  /-- function that opened it -/
  owner : FnId := 0
  /-- the site that references it -/
  refBy : Option SiteId := none
  /-- LAST yealm received -/
  lastIn : Bool := false
  /-- yealms held in the ring, by sequence number -/
  ring : KMap (List Byte) := []
  /-- ordinal of the first vector of each yealm stored since the stream was opened or reset -/
  base : KMap Nat := []
  /-- ordinal after the last vector stored -/
  nextOrd : Nat := 0
  /-- held feed entries, oldest first -/
  held : List Feed := []
  deriving DecidableEq, Repr

/-- A host command that moves data of the deep store (R77, item 4): the move of a segment, or a SEG_READ or SEG_WRITE. -/
inductive MoverJob where
  | move (seg : Nat)
  | copy (t : Tag)
  deriving DecidableEq, Repr

/-- A change of a channel's LOS: channel, the SCLK in which it took place, and LOS after it (R268). -/
structure LosE where
  /-- channel -/
  chan : ChanId
  /-- SCLK -/
  at_ : Nat
  /-- LOS after it -/
  on : Bool
  deriving DecidableEq, Repr

/-- The memory tiers and the control store. -/
structure Mem where
  /-- segment table: entries in use -/
  segs : KMap Seg := []
  /-- streams 0 to 63 -/
  strms : Vector Strm 64 := Vector.replicate 64 {}
  /-- control store: written words (R113); an unlisted word is unwritten -/
  cs : KMap MWord := []
  /-- HBM is in service (R726) -/
  hbmUp : Bool := false
  /-- sites that wait together for their start (R191) -/
  starts : List SiteMask := []
  /-- position of the fail-log writer's round robin (R322) -/
  logTurn : Nat := 31
  /-- corrected errors of the last hour: unit (stack, or 4 + channel) and SCLK (Table 2.8) -/
  ceAt : List (Nat × Nat) := []
  /-- SCLK of the last CMP_BOTH raise of each channel (R285) -/
  bothAt : KMap Nat := []
  /-- SCLK of the fail-log writes of the last 1 ms (LOG_RATE_NOW) -/
  logAt : List Nat := []
  /-- host commands that wait for the mover or that it serves, in the order in which they arrived (R77) -/
  movers : List MoverJob := []
  /-- changes of LOS that a strobe still to be judged may meet, oldest first (R268) -/
  losLog : List LosE := []
  deriving DecidableEq, Repr

/-! ### What leaves the device -/

/-- What the last command sent out of the device (on a pin, on a link or into host memory). -/
inductive Output where
  /-- the answer to a dictionary operation: status, result, whole length, data -/
  | answer (p : Path) (status result total : Nat) (data : List Byte)
  /-- data written to a queue command's host buffer -/
  | hostData (t : Tag) (data : List Byte)
  /-- a completion or event entry written to a CQ: queue, entry index, entry -/
  | cqEntry (q : QueueId) (idx : Nat) (e : BitVec 128)
  /-- a read request to host memory for a queue, in bytes (R599) -/
  | memRead (fn : FnId) (q : QueueId) (len : Nat)
  /-- an MSI-X vector signalled -/
  | msix (fn : FnId) (vec : Nat)
  /-- a fetched entry dispatched to its unit (R595) -/
  | dispatch (t : Tag) (e : BitVec 512)
  /-- a KDP frame sent to an address and a node: header, service header and data bytes -/
  | kdp (mac : BitVec 48) (node : Nat) (bytes : List Byte)
  /-- a mailbox message -/
  | mail (bytes : List Byte)
  /-- a PCI Express message: CRS, DRS or FRS of a function -/
  | pcieMsg (kind : String) (fn : FnId)
  /-- the bytes returned to a read of a function's registers -/
  | barRead (fn : FnId) (d : List Byte)
  /-- a transition at the balls of lane 0 PE_DD or 1 PE_DE of a channel: programmed time after the run's origin in fs,
  level, beat-clock edge and fine setting (R249) -/
  | edge (chan : ChanId) (lane : Nat) (time : Int) (level : Bool) (coarse fine : Int)
  /-- a strobe element fires: programmed time after the run's origin in fs, beat-clock edge and fine setting (R249) -/
  | strobe (chan : ChanId) (elem : Nat) (time : Int) (coarse fine : Int)
  /-- lane 0 PE_DD or 1 PE_DE of a channel takes a level at its balls outside the edge elements: slath state (R281) and
  LOOPBACK (R295); the time counts as for an edge -/
  | lane (chan : ChanId) (lane : Nat) (time : Int) (level : Bool)
  /-- a marker output changes at a time after the run's origin, in fs -/
  | marker (m : Nat) (time : Int) (level : Bool)
  /-- RIDGE_OUT pulse -/
  | ridgeOut
  /-- DUT clock output on or off -/
  | dutClk (k : Nat) (on : Bool)
  /-- a DUT clock runs with its frequency swept in a triangle from lo to hi and back, in units of 1/2,000,000 mHz, each sweep in
  1/rate s, half of it rising (R550) -/
  | dutSweep (k lo hi rate : Nat)
  /-- MGMT, or the NOR interface, restarts at a frequency in MHz after 16 cycles of it (R523) -/
  | domSwitch (nor : Bool) (mhz : Nat)
  /-- a port reads a word of a data scratchpad bank (R657) -/
  | spadRead (portB : Bool) (bank : Fin 4) (word : Nat) (v : BitVec 32)
  /-- the word that the processor reads at an address outside the data scratchpads (R654) -/
  | busRead (addr v : BitVec 32)
  /-- an access of the processor raises a bus-error exception (R654) -/
  | busError (addr : BitVec 32)
  /-- an access of the processor in user mode raises an access-fault exception (R659) -/
  | accessFault (addr : BitVec 32)
  /-- the PE lanes of a bank's channels are driven by a native run, or again by slath state (R445) -/
  | calLanes (b : BankId) (on : Bool)
  /-- a DAC output takes a code -/
  | dac (d : DacId) (code : Nat)
  /-- every output of the device but the LVL outputs becomes undriven (R739) -/
  | undriven
  /-- a waveform engine hands over the words of its sample slots from a slot on (R352, R353) -/
  | wave (e : EngId) (slot : Nat) (words : List (BitVec 16))
  deriving DecidableEq, Repr

/-! ### Sites (chapters 3 to 7) -/

/-- One vector of a frame. -/
structure Vec where
  /-- its stored record: stream or segment, number, ordinal (R60); none for the initial vector and for pads -/
  addr : Option (Bool × Nat × Nat) := none
  /-- timing set (R148) -/
  tset : Nat := 0
  /-- timing-set byte of its record, when its yealm has TSV set (R56) -/
  tsb : Option Nat := none
  /-- slice of 4 × B bytes by octet (R57), repeated octets filled in (R58) -/
  slices : KMap (List Byte) := []
  deriving DecidableEq, Repr

/-- One beat that a strobe may judge: the expectation in force when the beat was driven (R272, R283). -/
structure Exp where
  /-- vector of the frame -/
  vec : Nat
  /-- channel -/
  chan : ChanId
  /-- beat -/
  beat : Nat
  /-- compare code 8h to Eh -/
  code : Nat
  deriving DecidableEq, Repr

/-- One frame, with the objects in force when it was assembled (R149). -/
structure Frame where
  /-- pad frame (R99) -/
  pad : Bool := false
  /-- frame number, pads excluded (R101, R139) -/
  num : Nat := 0
  /-- its vectors -/
  vecs : List Vec := []
  /-- CMPEN -/
  cmpen : Nat := 0
  /-- FAILACT -/
  failact : Nat := 0
  /-- MKR, 0 on repeated executions (R126) -/
  mkr : Nat := 0
  /-- DCR -/
  dcr : Nat := 0
  /-- vectors driven since arming before its first vector, set when the formatters take it (R311) -/
  cycle : Nat := 0
  /-- start of its first vector in units of 125 fs, set when the formatters take it (R226) -/
  start : Int := 0
  /-- expectations of its beats, set when the formatters take it -/
  exps : List Exp := []
  /-- time from which its channels stand in slath state, so that its later edges and strobes are cancelled (R241) -/
  cut : Option Int := none
  /-- the object store at its assembly -/
  od : Store := []
  /-- the STR and DOMAIN objects at its assembly -/
  blobs : KMap (List Byte) := []
  /-- strobe offsets of serving spars at its assembly (R459): by 16 × channel + element -/
  spar : KMap Int := []
  deriving DecidableEq, Repr

/-- A word that has executed and waits for its vectors (R154). -/
structure Stall where
  /-- the word -/
  word : MWord
  /-- its frame number -/
  num : Nat
  /-- first execution of the word -/
  first : Bool
  /-- source-list entry and ordinal of its first record -/
  entry : Nat
  /-- ordinal -/
  ord : Nat
  /-- operand of a taken OP HOSTEVT, posted when the frame's cycle number is known -/
  post : Option Nat := none
  deriving DecidableEq, Repr

/-- A run of pad frames (R102). -/
structure PadRun where
  /-- vectors driven since arming before its first pad vector -/
  cycle : Nat
  /-- pad vectors so far -/
  count : Nat
  /-- timing set of the pad frames -/
  tset : Nat
  /-- source-list entry and ordinal at which it was inserted -/
  at_ : Nat × Nat
  deriving DecidableEq, Repr

/-- One fail-log entry before its CRC (Table 7.2). -/
structure FailE where
  /-- KIND (Table 7.3) -/
  kind : Nat
  /-- AUX -/
  aux : Nat := 0
  /-- TSET -/
  tset : Nat := 0
  /-- MORE -/
  more : Bool := false
  /-- BEATS -/
  beats : Nat := 0
  /-- GROUP -/
  group : Nat := 0
  /-- stored record -/
  addr : Option (Bool × Nat × Nat) := none
  /-- CYCLE -/
  cycle : Nat := 0
  /-- PAYLOAD -/
  payload : Nat := 0
  deriving DecidableEq, Repr

/-- One capture record: its header fields and payload bits (Table 7.5, R338). -/
structure CapRec where
  /-- DCR of the frame -/
  dcr : Nat
  /-- stored record -/
  addr : Option (Bool × Nat × Nat)
  /-- CYCLE -/
  cycle : Nat
  /-- record index since arming -/
  seq : Nat
  /-- payload bits -/
  bits : List Bool
  deriving DecidableEq, Repr

/-- A head slot of the prefetch buffer: four yealms from a position (R90). -/
structure Head where
  /-- source-list entry -/
  entry : Nat
  /-- first yealm index -/
  idx : Nat
  /-- entry flagged HEAD, as against a loop head -/
  flagged : Bool
  /-- yealms held -/
  have_ : List Nat := []
  deriving DecidableEq, Repr

/-- What the staging area of a site holds (R74 to R76). -/
structure Staging where
  /-- deep source-list entry that the window follows -/
  entry : Option Nat := none
  /-- first yealm of the window -/
  first : Nat := 0
  /-- yealms held from there -/
  count : Nat := 0
  /-- yealms held of each head -/
  heads : KMap Nat := []
  /-- HBM extents allocated (R74) -/
  extents : Nat := 0
  deriving DecidableEq, Repr

/-- A marker change that a frame has ordered and that is still to come (R216). -/
structure MkChange where
  /-- SCLK in which the marker unit makes it -/
  due : Nat
  /-- its time after the run's origin in fs -/
  time : Int
  /-- marker -/
  m : Nat
  /-- 1 set, 2 cleared, 3 end of a pulse -/
  op : Nat
  /-- MK_DELAY of the frame, and whether the output is active low -/
  out : Int × Bool
  deriving DecidableEq, Repr

/-- An edge or a strobe that has been placed and has not fired: it fires with the setting of the engine that holds the balls
then (R457). -/
structure Placed where
  /-- the output, with the setting of the own engine -/
  out : Output
  /-- beat-clock edge and fine setting under spar 2b and under spar 2b + 1; none for a lane level -/
  alt : List (Int × Int) := []
  /-- how long after its programmed time it fires, in fs: RT for a strobe (R249) -/
  later : Int := 0
  deriving DecidableEq, Repr

/-- The drive and expectation memories of a channel after a beat that is still to be driven (R305). -/
structure MemE where
  /-- SCLK in which the beat reaches the balls -/
  due : Nat
  /-- time of the beat after the run's origin in fs -/
  time : Int
  /-- channel -/
  chan : ChanId
  /-- DRIVE_MEM -/
  drive : Nat
  /-- EXP_MEM -/
  exp : Nat
  deriving DecidableEq, Repr

/-- A change of a channel's serving engine between two frames that the formatters have reached (R297, R457). -/
structure XSwitch where
  /-- channel -/
  chan : ChanId
  /-- switch instant, in fs after the run's origin -/
  time : Int
  /-- SCLK in which it reaches the balls -/
  due : Nat
  /-- engine before it, as in XBAR_STATE -/
  old : Nat
  /-- engine after it -/
  new : Nat
  /-- 0 SWAP, 1 a changeover of the fault collector, 2 the return of a spar that the collector needs (R38) -/
  kind : Nat
  /-- XBAR_STATE has changed -/
  done : Bool := false
  deriving DecidableEq, Repr

/-- A level change on a lane of a channel in near loopback (R295): PE_DE or PE_DD, its time, the level at the pad. -/
structure LoopE where
  /-- channel -/
  chan : ChanId
  /-- true for PE_DE -/
  de : Bool
  /-- programmed time after the run's origin in fs -/
  time : Int
  /-- level after inversion -/
  level : Bool
  deriving DecidableEq, Repr

/-- What a site holds beside its objects. -/
structure Site where
  /-- next control-store address -/
  next : Nat := 0x2000
  /-- SCLK of the run's origin (R227) -/
  origin : Nat := 0
  /-- SCLK in which it starts after a ridge pulse (R192) -/
  startAt : Option Nat := none
  /-- inside a repeated word (R125) -/
  mid : Bool := false
  /-- call stack, top first: return address and saved read point (R135) -/
  stack : List (Nat × Option (Nat × Nat)) := []
  /-- read point: source-list entry -/
  entry : Nat := 0
  /-- read point: ordinal -/
  ord : Nat := 0
  /-- last vector issued (R138) -/
  lastVec : Vec := {}
  /-- executed word that waits for its vectors -/
  stall : Option Stall := none
  /-- the sequencer executes no further word -/
  halted : Bool := true
  /-- last frame of the run and its cause (R198) -/
  stopAt : Option (Nat × Nat) := none
  /-- a pause is draining (R196) -/
  pausing : Bool := false
  /-- RESUME accepted, waiting for 16 frames (R160) -/
  resuming : Bool := false
  /-- SCLK at which the pending ABORT arrived (R159) -/
  abortAt : Nat := 0
  /-- SWAP requested: spar and direction, true toward the spar (R457, R460) -/
  swap : Option (SparId × Bool) := none
  /-- SWAP taken at a safe point, waiting for an eave point -/
  swapTaken : Bool := false
  /-- frames in assembly and in the frame FIFO, oldest first (R21, R190) -/
  fifo : List Frame := []
  /-- frames taken whose results are not yet latched -/
  taken : List Frame := []
  /-- frames taken whose edges are not yet placed, because a waveform word is still to come (R289) -/
  undriven : List Frame := []
  /-- pending edges and strobes of the elements, and lane levels on their way, with the SCLK in which they reach the balls
  (R239) -/
  edges : List (Nat × Placed) := []
  /-- memories of its channels after beats that are placed and not yet driven, in order (R305) -/
  mems : List MemE := []
  /-- changes of serving engine that the formatters have reached, in order (R297, R457) -/
  xsw : List XSwitch := []
  /-- lane levels of its channels in near loopback (R295) -/
  loop : List LoopE := []
  /-- lane levels that its channels are about to drive or have driven of late, before inversion (R399) -/
  driven : List LoopE := []
  /-- its channels stand in slath state (R185, R281) -/
  inSlath : Bool := true
  /-- an ABORT taken: SCLK up to which frames may still be taken, and the frames already discarded (Table 3.11) -/
  cutAt : Option (Nat × Nat) := none
  /-- latched results by frame number: compared, failed (R139) -/
  results : KMap (Bool × Bool) := []
  /-- vector-start accumulator, units of 125 fs (R226) -/
  vstart : Int := 0
  /-- vectors driven since arming, pads included (R311): the cycle number is this modulo 2^48 -/
  cycle : Nat := 0
  /-- channels whose driver the last driven vector left on (R279) -/
  enOn : List Nat := []
  /-- channels whose PE_DD lane was left at 1 (R278) -/
  ddHi : List Nat := []
  /-- the last frame taken was a pad frame (R99, R217) -/
  padNow : Bool := false
  /-- the next address was reached as R116 permits in the vendor region -/
  vend : Bool := false
  /-- first frame whose fail orders a first-fail stop (R201) -/
  ffStop : Option Nat := none
  /-- SCLK in which the first-fail record was written -/
  ffAt : Nat := 0
  /-- frame of the eave word at which a taken SWAP is carried out (R157) -/
  eaveAt : Option Nat := none
  /-- SCLK of the last eave word of the run -/
  eaveLast : Option Nat := none
  /-- eave words whose frames are still to be taken: frame, SCLK of the word, changeovers that waited at it (R297) -/
  eaves : List (Nat × Nat × List (ChanId × Nat)) := []
  /-- the last frame taken is that of an eave word: the SCLK of the word (R38, R297) -/
  eaveOpen : Option Nat := none
  /-- SCLK at which each latched event copy was last set, with the copy before (R142, R212) -/
  evtAt : KMap (Nat × Bool) := []
  /-- PAD and CYCLE_WRAP entries that wait for their place (R320), by vectors driven before them -/
  logWait : List (Nat × FailE) := []
  /-- site marker states set and cleared by MKR, bit m (R215) -/
  mkSet : BitVec 16 := 0
  /-- site marker pulses of the frame being driven (R150) -/
  mkPulse : BitVec 16 := 0
  /-- marker changes still to come (R150, R216) -/
  mkPend : List MkChange := []
  /-- open run of pad frames -/
  pad : Option PadRun := none
  /-- source-list references held: stream, number (R66, R88) -/
  refs : List (Bool × Nat) := []
  /-- sequential slots of the prefetch buffer: entry, yealm index (R90) -/
  seqSlots : List (Nat × Nat) := []
  /-- head slots of the prefetch buffer -/
  heads : List Head := []
  /-- staging area -/
  staging : Staging := {}
  /-- fail-log entries of frames not yet offered to the FIFO, by frame, in groups judged together (R324) -/
  failPend : List (List (List FailE)) := []
  /-- the same of the frame whose results are being latched; empty between two commands -/
  failNow : List (List FailE) := []
  /-- site fail FIFO: entries with their index -/
  failFifo : List (Nat × FailE) := []
  /-- next entry index since arming (R331) -/
  failIdx : Nat := 0
  /-- fail region and spill area: entries by index -/
  failLog : KMap (List Byte) := []
  /-- entries below this index lie in the spill area (R332) -/
  spillIdx : Nat := 0
  /-- the objects 2630h as they stood after the last frame whose results and entries were all accounted for, by subindex (R348) -/
  resSnap : KMap Int := []
  /-- SCLK of the entry into count-only (R326) -/
  coAt : Nat := 0
  /-- log-wrapped and capture-overflow raises of this run already made -/
  wrapRaised : Bool := false
  /-- capture overflow already raised in this run -/
  capRaised : Bool := false
  /-- capture records in the capture buffer, oldest first (R340) -/
  capPend : List CapRec := []
  /-- next capture record number (Table 7.5) -/
  capSeq : Nat := 0
  /-- capture region: bytes by offset since arming, in units of 32 -/
  capMem : KMap (List Byte) := []
  /-- lowest capture offset still readable -/
  capOldest : Nat := 0
  /-- capture offset below which the contents were discarded (R336) -/
  capGone : Nat := 0
  /-- log entries below this index were lost with the HBM contents (R537) -/
  logDead : Nat := 0
  /-- capture bytes below this offset were lost with the HBM contents (R537) -/
  capDead : Nat := 0
  /-- next site event number since arming (Table 13.8) -/
  evSeq : Nat := 0
  /-- site events waiting for their EVENT queue (R592) -/
  evFifo : List (BitVec 128) := []
  /-- SCLK at which HOST_FLAG and PARAM entries last changed: key, old value, time (R173) -/
  recent : KMap (Int × Nat) := []
  /-- episode that parked the site (R187) -/
  parkEp : Option Nat := none
  /-- COND TMU_OUT as it stands, and before its last change, with the SCLK of the last arming's end (R413) -/
  tmuOut : Bool := false
  /-- TMU_OUT before the last arming's end -/
  tmuOutOld : Bool := false
  /-- SCLK at which an arming of the site's TMUs last ended -/
  tmuEndAt : Option Nat := none
  deriving DecidableEq, Repr

/-! ### PCI Express host interface (chapter 13) -/

/-- Queue states of a queue that is not ABSENT (Table 13.4). -/
inductive QSt where
  | active | deleting | error
  deriving DecidableEq, Repr

/-- Queue types (Table 13.4). -/
inductive QType where
  | command | feed | result | event
  deriving DecidableEq, Repr

/-- A posted result buffer (R591). -/
structure ResBuf where
  /-- its command -/
  tag : Tag
  /-- its size in bytes -/
  size : Nat
  /-- the records packed into it -/
  packed : List Byte := []
  /-- their number -/
  records : Nat := 0
  /-- SCLK of the first record -/
  since : Nat := 0
  deriving DecidableEq, Repr

/-- One queue pair that exists. -/
structure Queue where
  /-- state -/
  st : QSt := .active
  /-- type -/
  typ : QType := .command
  /-- function that created it -/
  fn : FnId := 0
  /-- SQ base address -/
  sqBase : BitVec 64 := 0
  /-- CQ base address -/
  cqBase : BitVec 64 := 0
  /-- SQ entries -/
  sqSize : Nat := 2
  /-- CQ entries -/
  cqSize : Nat := 2
  /-- Q_IRQ register: IEN, ITIME, ICOUNT, IV -/
  irq : BitVec 32 := 0
  /-- device's SQ head -/
  sqHead : Nat := 0
  /-- SQ tail of the last valid doorbell -/
  sqTail : Nat := 0
  /-- CQ head of the last valid doorbell -/
  cqHead : Nat := 0
  /-- device's CQ tail -/
  cqTail : Nat := 0
  /-- current phase of the CQ (R585) -/
  phase : Bool := true
  /-- doorbell values last written (R583) -/
  dbTail : Nat := 0
  /-- doorbell values last written (R583) -/
  dbHead : Nat := 0
  /-- entries posted since the last signal (R600) -/
  unsig : Nat := 0
  /-- SCLK of the first of them -/
  unsigAt : Nat := 0
  /-- stream bound to a FEED queue (R590) -/
  bound : Option StreamId := none
  /-- reads of the entry at its head, or of that entry's scatter list, that are outstanding (R599) -/
  fetch : Nat := 0
  /-- the entry at its head, and its scatter list, that wait for the list's reads (R599) or for every earlier command (R595) -/
  entry : Option (BitVec 512 × List (BitVec 128)) := none
  /-- bytes of that list that are still to be requested -/
  listLeft : Nat := 0
  /-- posted result buffers, oldest first (R591) -/
  bufs : List ResBuf := []
  deriving DecidableEq, Repr

/-- A command in flight (R596). -/
structure Flight where
  /-- its command -/
  tag : Tag
  /-- OPCODE of its entry -/
  opcode : Nat
  /-- its entry -/
  entry : BitVec 512 := 0
  /-- its unit has taken it (R595) -/
  taken : Bool := false
  /-- SQ head after its fetch (Table 13.7) -/
  head : Nat := 0
  /-- completion discarded, because its queue is being deleted (R582) -/
  dropped : Bool := false
  /-- bytes of its buffer that are still to be requested from host memory (R599) -/
  toRead : Nat := 0
  /-- reads of it that are outstanding -/
  tags : Nat := 0
  deriving DecidableEq, Repr

/-- A command that has ended and whose completion is not yet posted (R588). -/
structure Compl where
  /-- its command -/
  tag : Tag
  /-- status code -/
  status : Nat
  /-- RESULT -/
  result : Nat
  deriving DecidableEq, Repr

/-- One dictionary window slot (Table 13.5). -/
structure Slot where
  /-- DW_INDEX, DW_SUB, DW_TXN, DW_OFFSET, DW_LEN, DW_APPLY, DW_SITES -/
  args : DictArgs := {}
  /-- DW_IEN -/
  ien : Bool := false
  /-- DW_IV -/
  iv : BitVec 8 := 0
  /-- DW_BUSY -/
  busy : Bool := false
  /-- DW_STATUS -/
  status : Nat := 0
  /-- DW_RESULT -/
  result : Nat := 0
  /-- DW_TOTAL -/
  total : Nat := 0
  /-- DW_DATA, 4 KiB; bytes beyond the list read 0 -/
  data : List Byte := []
  deriving DecidableEq, Repr

/-- Queue configuration registers of a function (Table 13.4). -/
structure QCfg where
  /-- Q_NUM -/
  num : BitVec 13 := 0
  /-- Q_TYPE -/
  typ : BitVec 2 := 0
  /-- Q_SQ_BASE -/
  sqBase : BitVec 64 := 0
  /-- Q_CQ_BASE -/
  cqBase : BitVec 64 := 0
  /-- CQ_SIZE_M1 and SQ_SIZE_M1 -/
  sizes : BitVec 32 := 0
  /-- IEN, ITIME, ICOUNT, IV -/
  irq : BitVec 32 := 0
  /-- Q_STATE -/
  state : Nat := 0
  /-- Q_STATUS -/
  status : Nat := 0
  /-- SQ_HEAD after READ -/
  sqHead : Nat := 0
  /-- CQ_TAIL after READ -/
  cqTail : Nat := 0
  deriving DecidableEq, Repr

/-- One PCI Express function. -/
structure Fn where
  /-- FN_CMDS -/
  cmds : Nat := 0
  /-- FN_RD_BYTES -/
  rdBytes : Nat := 0
  /-- FN_WR_BYTES -/
  wrBytes : Nat := 0
  /-- FN_DB_ERRORS -/
  dbErrors : Nat := 0
  /-- latches of 64-bit reads by register (R575) -/
  latch : KMap (BitVec 64) := []
  /-- held low halves of 64-bit writes by register (R576) -/
  heldLow : KMap (BitVec 32) := []
  /-- queue configuration registers -/
  qcfg : QCfg := {}
  /-- window slots -/
  slots : Vector Slot 4 := Vector.replicate 4 {}
  /-- MSI-X table: double words written, by index (4 per vector) -/
  msix : KMap (BitVec 32) := []
  /-- MSI-X pending bits: vectors -/
  msixPend : List Nat := []
  /-- MSI-X Enable (R600) -/
  msixEnable : Bool := false
  /-- MSI-X Function Mask -/
  msixMask : Bool := false
  /-- AER uncorrectable error status (Table 13.1) -/
  aerUnc : BitVec 32 := 0
  /-- AER correctable error status -/
  aerCor : BitVec 32 := 0
  /-- power state D3hot (Table 13.1) -/
  d3hot : Bool := false
  deriving DecidableEq, Repr

/-- A weighted round robin (R598): grants of the present round by function, and the queues served in their function's round. -/
structure Arb where
  /-- grants by function -/
  used : KMap Nat := []
  /-- queues served -/
  served : List Nat := []
  deriving DecidableEq, Repr

/-- The PCI Express host interface. -/
structure HostIf where
  /-- queues that exist -/
  queues : KMap Queue := []
  /-- functions -/
  fns : Vector Fn 33 := Vector.replicate 33 {}
  /-- VF Enable (R570, R573) -/
  vfEnable : Bool := false
  /-- commands in flight -/
  flights : List Flight := []
  /-- ended commands awaiting their completion entry -/
  compl : List Compl := []
  /-- arbitration of the fetches (R598) -/
  fetches : Arb := {}
  /-- arbitration of the data reads -/
  reads : Arb := {}
  /-- arbitration of the data writes -/
  writes : Arb := {}
  /-- data writes to host memory that have not left the device (R588, R598) -/
  waiting : List (Tag × List Byte) := []
  deriving DecidableEq, Repr

/-! ### Transactions and the field network (chapter 14) -/

/-- A staged or stored value: a number, or the bytes of a STR or DOMAIN. -/
inductive SVal where
  | num (v : Int)
  | bytes (l : List Byte)
  deriving DecidableEq, Repr

/-- What a transaction waits for. -/
inductive TWait where
  | nothing | record | mark
  deriving DecidableEq, Repr

/-- A dictionary request on a path (Tables 13.5, 14.7, 14.8), kept while its answer waits for the journal (R626, R631) or
for the end of a FIRMWARE reset (R735). -/
structure Ask where
  /-- path -/
  path : Path
  /-- SERVICE: 1 READ, 2 WRITE, 3 BEGIN, 4 COMMIT, 5 ROLLBACK -/
  service : Nat
  /-- operands -/
  args : DictArgs := {}
  /-- SEQ of a field-network request -/
  seq : BitVec 16 := 0
  /-- RETRY of a field-network request -/
  retry : Nat := 0
  /-- source address of a field-network request -/
  mac : BitVec 48 := 0
  deriving DecidableEq, Repr

/-- A transaction of the device itself, by what it brings about once it is applied (R17). -/
inductive CalJob where
  /-- a bank's results of a native run; true when they hold offsets (R447) -/
  | native (b : BankId) (timing : Bool)
  /-- the bank TMU or a spar in calibration (R450, R452) -/
  | unit (b : BankId)
  /-- a channel calibrated directly (R453) -/
  | direct (b : BankId)
  /-- a trim in ALIGN (R456) -/
  | align (b : BankId)
  /-- a step in MEASURE; true when every offset then holds its new value (R458) -/
  | publish (b : BankId) (last : Bool)
  /-- a step in RETURN, with the strobe offsets of the spar that it leaves (R459) -/
  | ret (b : BankId) (ofs : KMap Int)
  /-- the record of a completed swap (R460) -/
  | back (b : BankId)
  /-- a step of a legacy pass: its channels, each with what is left of its change (R470) -/
  | legacy (b : BankId) (rest : KMap Int)
  /-- a DAC's offset trim (R467) -/
  | level (d : DacId)
  /-- ridge calibration (R559) -/
  | ridge
  /-- the record of a full training (R727) -/
  | train
  /-- a new LIFECYCLE (R685) -/
  | life (to_ : Nat)
  deriving DecidableEq, Repr

/-- One transaction record (R632), or a write outside a transaction or a transaction of the device itself in progress (R17,
R613). -/
structure Txn where
  /-- TXN_NUM -/
  num : Nat := 0
  /-- TXN_STATE: 0 FREE, 1 OPEN, 2 PENDING, 3 APPLIED, 4 FAILED, 5 ROLLED_BACK, 6 TIMED_OUT -/
  st : Nat := 0
  /-- owner (R617) -/
  owner : Path := .mbox
  /-- staged values by object -/
  staged : KMap SVal := []
  /-- session numbers that its commit writes into the records of its sealed objects (R473) -/
  extra : KMap SVal := []
  /-- APPLY_KIND -/
  kind : Nat := 0
  /-- APPLY_SITES -/
  sites : SiteMask := 0
  /-- TXN_STATUS -/
  status : Nat := 0
  /-- FIRST_OBJECT -/
  first : Nat := 0
  /-- DETAIL -/
  detail : Nat := 0
  /-- SCLK at which an operation last named it (R621) -/
  named : Nat := 0
  /-- commit order (R623, R629) -/
  order : Nat := 0
  /-- order in which it ended (R632) -/
  ended : Nat := 0
  /-- what it waits for -/
  wait : TWait := .nothing
  /-- JSEQ of its journal record -/
  jseq : Nat := 0
  /-- it was PENDING when its COMMIT was answered, so that its end is reported (R630) -/
  report : Bool := false
  /-- MSI-X vector to signal at its end, by the committing slot (R630) -/
  vector : Option (FnId × BitVec 8) := none
  /-- COMMIT or WRITE whose answer waits -/
  ask : Option Ask := none
  /-- DOMAIN writes in progress inside it (R635): bytes received, by object -/
  dom : KMap (List Byte) := []
  /-- work of the device itself that the transaction belongs to (R17) -/
  job : Option CalJob := none
  deriving DecidableEq, Repr

/-- A DOMAIN write outside a transaction in progress (R635). -/
structure DomW where
  /-- writer -/
  path : Path
  /-- object -/
  key : Nat
  /-- bytes received -/
  got : List Byte
  /-- SCLK of the last segment -/
  at_ : Nat
  deriving DecidableEq, Repr

/-- A DOMAIN read snapshot (R636). -/
structure Snap where
  /-- reader -/
  path : Path
  /-- object -/
  key : Nat
  /-- the whole value -/
  val : List Byte
  /-- SCLK of the reader's last read -/
  at_ : Nat
  deriving DecidableEq, Repr

/-- What the port keeps of a client node (R645). -/
structure Client where
  /-- SESSION of the last request executed -/
  session : BitVec 16
  /-- SEQ of the last request executed -/
  seq : BitVec 16
  /-- its source address -/
  mac : BitVec 48 := 0
  /-- the service header and data of its response, once it exists -/
  resp : Option (List Byte) := none
  deriving DecidableEq, Repr

/-- The outstanding notification (R647). -/
structure Notif where
  /-- receiver -/
  node : Nat
  /-- SEQ -/
  seq : BitVec 16
  /-- service header and data -/
  body : List Byte
  /-- transmissions so far -/
  tries : Nat := 1
  deriving DecidableEq, Repr

/-- The transaction engine and the field-network port. -/
structure Dict where
  /-- the 8 transaction records -/
  txns : Vector Txn 8 := Vector.replicate 8 {}
  /-- writes outside a transaction and transactions of the device itself in progress (R17, R613, R626, R631) -/
  outs : List Txn := []
  /-- last transaction number given (R616) -/
  lastNum : Nat := 0
  /-- order counter of PENDING and ended transactions -/
  tick : Nat := 0
  /-- DOMAIN writes outside a transaction in progress -/
  domW : List DomW := []
  /-- DOMAIN read snapshots -/
  snaps : List Snap := []
  /-- requests that wait for a stopped domain (R543) -/
  held : List Ask := []
  /-- clients by node (R645) -/
  clients : KMap Client := []
  /-- outstanding notification -/
  notif : Option Notif := none
  /-- notifications that wait, oldest first: receiver, service header and data -/
  notifQ : List (Nat × List Byte) := []
  /-- SEQ of the next notification -/
  notifSeq : BitVec 16 := 0
  deriving DecidableEq, Repr

/-! ### Fault collector (chapter 16) -/

/-- What the collector keeps of a source that has raised. -/
structure SrcStat where
  /-- Q_RAISES -/
  raises : Nat := 0
  /-- Q_TRANSIENT -/
  transient : Nat := 0
  /-- Q_PERSISTENT -/
  persistent : Nat := 0
  /-- Q_LAST_EPISODE -/
  lastEp : Nat := 0
  /-- source active (R694) -/
  active : Bool := false
  /-- its dual-rail pair agrees (R695) -/
  broken : Bool := false
  deriving DecidableEq, Repr

/-- A raise on its way to the collector: source, the sites that its chapter names for it, and EP_DETAIL. -/
structure Report where
  /-- source ID -/
  src : Nat
  /-- sites -/
  sites : SiteMask := 0
  /-- detail -/
  detail : Nat := 0
  /-- units that a later run of a deferred test retires in the episode of this raise: kind, unit (R709) -/
  retire : List (Nat × Nat) := []
  deriving DecidableEq, Repr

/-- A scheduled targeted self-test (R707 to R709). -/
structure Test where
  /-- cause source -/
  src : Nat
  /-- episode number -/
  ep : Nat
  /-- severity of the cause at the raise -/
  sev : Nat
  /-- SCLK at which it was scheduled -/
  at_ : Nat
  /-- sites that the raise named -/
  sites : SiteMask := 0
  /-- verdict DEFERRED given; the test still has to run -/
  deferred : Bool := false
  deriving DecidableEq, Repr

/-- A retirement whose record is being made durable (R710). -/
structure Retiring where
  /-- kind: 0 channel engine, 1 spar, 2 TMU, 3 waveform engine -/
  kind : Nat
  /-- unit -/
  unit : Nat
  /-- substituted spar -/
  spar : Option SparId
  /-- episode number -/
  ep : Nat
  deriving DecidableEq, Repr

/-- A spar that the collector needs for a retired channel engine and that a calibration swap still holds (R38). -/
structure Want where
  /-- the channel that is to be served -/
  chan : ChanId
  /-- the spar -/
  spar : SparId
  /-- SCLK of the request -/
  at_ : Nat
  deriving DecidableEq, Repr

/-- The fault collector. -/
structure Flt where
  /-- per source -/
  srcs : KMap SrcStat := []
  /-- raises on their way to the collector, oldest first -/
  reports : List Report := []
  /-- scheduled tests -/
  tests : List Test := []
  /-- retirements being made durable -/
  retiring : List Retiring := []
  /-- order in which episodes were cleared, newest last: record numbers (R701) -/
  clearedOrder : List Nat := []
  /-- asynchronous latch of R31 -/
  latch : Bool := false
  /-- ST_CMD in progress: kind, unit, true for UNRETIRE -/
  stCmd : Option (Nat × Nat × Bool) := none
  /-- spars awaited -/
  wants : List Want := []
  /-- changeovers that wait for an eave point or for the end of the site's run: channel, its XBAR_STATE (R297) -/
  pendSw : KMap Nat := []
  /-- channels without an engine (R711) -/
  noEng : List Nat := []
  /-- retirements for this bring-up only: kind and unit (R720) -/
  tempRet : List (Nat × Nat) := []
  deriving DecidableEq, Repr

/-! ### Time-measurement units (chapter 9) -/

/-- A gate of a GATED sample: the frame that opens it and, once the formatters have taken that frame, its gate time in
fs after the run's origin (R415, R416). -/
structure Gate where
  /-- site -/
  site : SiteId
  /-- frame number -/
  frame : Nat
  /-- gate time -/
  time : Option Int := none
  /-- the result tested under QUAL, once latched: none for a channel that was not compared (R418) -/
  qual : Option (Option Bool) := none
  deriving DecidableEq, Repr

/-- What a TMU holds beside its objects: the sample in progress (R414 to R421). -/
structure Tmu where
  /-- start timestamp in LSB -/
  start : Option Int := none
  /-- SCLK of the start edge, or of the start of a FREQUENCY gate -/
  startAt : Nat := 0
  /-- start gate -/
  gate : Option Gate := none
  /-- start gate of the next sample, opened while a sample is in progress -/
  nextGate : Option Gate := none
  /-- stop gates in the order of their TMUC STOPs -/
  stopGates : List Gate := []
  /-- stop gates of the next sample, opened after its start gate (R415) -/
  nextStops : List Gate := []
  /-- gates replaced or discarded since the last sample completed; they count as missed samples with the next one (R417, R433) -/
  skips : Nat := 0
  /-- SCLK from which the TMU takes edges again after a sample (R421) -/
  rearmAt : Nat := 0
  /-- captured stops: stop, timestamp -/
  stops : KMap Int := []
  /-- missed stops -/
  missed : List Nat := []
  /-- edges counted after the first (PERIOD), or edges counted (FREQUENCY) -/
  edges : Nat := 0
  /-- timestamp of the last edge counted -/
  last : Int := 0
  /-- the sample has its last edge, or its gate has ended -/
  full : Bool := false
  /-- SCLK of the last captured edge -/
  edgeAt : Nat := 0
  /-- SCLK since when the arming waits for calibration -/
  waitAt : Nat := 0
  /-- results before the last completed sample, with the SCLK of its last edge, so that an unlock can discard it (R403) -/
  undo : Option (Nat × List (Nat × Int)) := none
  /-- the first missed sample of the arming has been raised -/
  raised : Bool := false
  deriving DecidableEq, Repr

/-- A TMUC or WFE command of a microword on its way to its unit (R152). -/
structure UnitCmd where
  /-- site -/
  site : SiteId
  /-- true for TMUC, false for WFE -/
  tmu : Bool
  /-- TOP or CMD code (Table 3.9) -/
  code : Nat
  /-- slot or engine -/
  unit : Nat
  /-- IMMD -/
  imm : Nat
  /-- frame of the word -/
  frame : Nat
  deriving DecidableEq, Repr

/-! ### Waveform engines (chapter 8) -/

/-- The frequency, phase and amplitude lists of an engine; an unlisted entry is 0 (Table 8.2). -/
structure WLists where
  /-- FLIST -/
  f : KMap Nat := []
  /-- PLIST -/
  p : KMap Nat := []
  /-- ALIST -/
  a : KMap Nat := []
  deriving DecidableEq, Repr

/-- A pending jump request (R377). -/
structure Jump where
  /-- target step -/
  target : Nat
  /-- SCLK of its registration -/
  at_ : Nat
  /-- made by a sequencer JUMP -/
  seq : Bool
  /-- a natural successor began while it was pending -/
  late : Bool := false
  deriving DecidableEq, Repr

/-- What a waveform engine holds beside its objects. -/
structure Eng where
  /-- sequence table: steps that are not all zeros (Table 8.3) -/
  steps : KMap (BitVec 128) := []
  /-- lists -/
  lists : WLists := {}
  /-- applies that changed the lists, oldest first: the SCLK, and the lists before it (R364) -/
  stages : List (Nat × WLists) := []
  /-- applies that changed OUT_CODING, PARK_WORD or DC_OFFSET, oldest first: the SCLK, and the values before it (R357) -/
  cfgOld : List (Nat × Nat × Nat × Int) := []
  /-- frame whose word carried the START, until the formatters take it -/
  startFrame : Option Nat := none
  /-- slot-grid origin T_s in fs after the run's origin (R352) -/
  ts : Option Int := none
  /-- step that the dead time precedes -/
  target : Nat := 0
  /-- granules of dead time not yet begun -/
  dead : Nat := 0
  /-- index of the next granule since T_s -/
  gran : Nat := 0
  /-- phase accumulator P, 48 bits (R358) -/
  phase : Nat := 0
  /-- phase-list entry of the play -/
  phi : Nat := 0
  /-- amplitude-list entry of the play -/
  amp : Nat := 0
  /-- granules of the play already begun -/
  pos : Nat := 0
  /-- length of the play in granules -/
  len : Nat := 0
  /-- pending jump -/
  jump : Option Jump := none
  /-- SCLK of a pending STOP -/
  stopAt : Option Nat := none
  /-- pending FLIST: entry and SCLK of its registration -/
  flist : Option (Nat × Nat) := none
  /-- SCLK of the release of a waiting step -/
  release : Option Nat := none
  /-- granules of the recovery dead time left (R389) -/
  recovery : Option Nat := none
  /-- sample slots since T_s whose words have been handed over -/
  done : Nat := 0
  /-- play words by granule while DDS or SAMPLE plays (R354) -/
  play : KMap (List Int) := []
  /-- output words handed over, by granule -/
  words : KMap (List (BitVec 16)) := []
  /-- slot-grid origins and words before the last STARTs, newest first, for frames taken before them -/
  before : List (Int × KMap (List (BitVec 16))) := []
  /-- heads loaded at arming, by step: the first granules of its play (R387) -/
  heads : KMap (List (List Byte)) := []
  /-- SCLK by which they are loaded -/
  headAt : Nat := 0
  /-- SCLK at which the present play began -/
  playAt : Nat := 0
  /-- SCLK at which the play before it began -/
  prevAt : Nat := 0
  /-- the present play was entered by succession (R388) -/
  succ : Bool := false
  /-- the objects 4420h as they stood at the last granule boundary, by subindex (R396) -/
  snap : KMap Int := []
  /-- it is under test: the SCLK in which the dead time with which the test begins is over (R391) -/
  test : Option Nat := none
  /-- SCLK in which the dead time with which a test ends is over (R391) -/
  testEnd : Option Nat := none
  /-- SCLK of the last WF_CLIP raise (R355) -/
  clipAt : Option Nat := none
  deriving DecidableEq, Repr

/-! ### Event lines (chapter 4) -/

/-- What an event line holds beside its objects. -/
structure EvtLine where
  /-- the qualifier is armed (R203) -/
  armed : Bool := false
  /-- disarmed by a restart and not by a qualified edge (R210) -/
  restarted : Bool := true
  /-- SCLK of the last qualification (R208) -/
  qualAt : Nat := 0
  /-- SCLK of the qualified edges whose copies are not yet set (R207) -/
  latches : List Nat := []
  /-- SCLK in which a write of EVT_HOST qualifies (R206) -/
  host : List Nat := []
  /-- the level at the EVT ball that the last command showed, before polarity -/
  pin : Option Bool := none
  deriving DecidableEq, Repr

/-! ### Calibration (chapter 10) -/

/-- The calibration of one channel in progress in a bank (Table 10.4, R453). -/
structure Swap where
  /-- channel -/
  chan : ChanId
  /-- spar; none for direct calibration -/
  spar : Option SparId
  /-- 0 direct, 1 PRELOAD, 2 ALIGN, 3 SWAP_OUT, 4 MEASURE, 5 RETURN, 6 SWAP_BACK -/
  phase : Nat
  /-- SCLK of the last SWAP request (R461) -/
  reqAt : Nat := 0
  /-- measurements above ALIGN_TOL in ALIGN, by lane (R456) -/
  tries : Nat × Nat := (0, 0)
  /-- lane within ALIGN_TOL or skipped -/
  ok : Bool × Bool := (false, false)
  /-- offsets at the start of the calibration -/
  before : KMap Int := []
  /-- offsets of the spar serving, by element (R435, R459) -/
  sparOfs : KMap Int := []
  /-- RT measured by RT_TRACK and not yet fully recorded (R466) -/
  newRt : Option Int := none
  /-- n keeps only what is published (R463, R464) -/
  cut : Bool := false
  /-- sum of the bank temperatures taken in MEASURE (R460) -/
  tempSum : Int := 0
  /-- how many -/
  temps : Nat := 0
  deriving DecidableEq, Repr

/-- One strobe that judged or captured: its vector, channel, beat and number, the expectation, what it saw, and the
waveform bit of a CW beat. -/
structure Judged where
  /-- vector -/
  vec : Nat
  /-- channel -/
  chan : ChanId
  /-- beat -/
  beat : Nat
  /-- strobe or window -/
  strobe : Nat
  /-- code 8h to Eh -/
  code : Nat
  /-- lane states seen -/
  seen : List (Bool × Bool)
  /-- waveform bit -/
  wave : Bool := false
  deriving DecidableEq, Repr

/-- What the calibration controller keeps of a bank. -/
structure CalBank where
  /-- the bank TMU is queued -/
  tmu : Bool := false
  /-- queued spars, 0 or 1 of the bank -/
  spars : List Nat := []
  /-- LIVE_NOW channels in arrival order -/
  liveNow : List Nat := []
  /-- other queued channels -/
  queue : List Nat := []
  /-- channel being calibrated -/
  cur : Option Swap := none
  /-- spar or TMU being calibrated: some true for the TMU, with the spar otherwise -/
  unit : Option (Bool × Nat) := none
  /-- samples of completed blocks of that unit -/
  blocks : Nat := 0
  /-- legacy pass: mean deviations measured so far by channel (R469) -/
  legacy : Option (KMap Int) := none
  /-- changes of offsets that a legacy pass has still to publish, by channel (R470) -/
  go : KMap Int := []
  /-- SCLK since when user armings deny the bank's calibration its TMU (R468) -/
  deniedAt : Option Nat := none
  /-- the block in progress is the minimum share or a promoted block, for which a user arming waits (R428) -/
  firm : Bool := false
  /-- a user arming of the bank TMU has completed since the last block (Table 1.5) -/
  owed : Bool := false
  /-- latched results of the channel in calibration in its last compared frame (R24) -/
  latched : List Judged := []
  deriving DecidableEq, Repr

/-- A native run in progress (R443). -/
structure NativeRun where
  /-- parts -/
  parts : Nat
  /-- named banks -/
  banks : Nat
  /-- banks that have not completed their parts -/
  left : Nat
  /-- NATIVE_ABORT came: the run ends after the measurement in progress (R448) -/
  aborted : Bool := false
  deriving DecidableEq, Repr

/-- The calibration controller. -/
structure Cal where
  /-- banks -/
  banks : Vector CalBank 8 := Vector.replicate 8 {}
  /-- native run in progress -/
  native : Option NativeRun := none
  /-- channels not queued for a swap until their site is next armed (R461) -/
  barred : List Nat := []
  /-- SCLK of the commits of P or S objects in the last 3,600 s (R465) -/
  commits : List Nat := []
  /-- the references failed their check (R439) -/
  refLost : Bool := false
  /-- CALREF in mHz and CALV in uV, as last measured (R439) -/
  refNow : Option (Nat × Nat) := none
  /-- transactions of the controller that wait for the commit budget or for their objects (R465) -/
  held : List Txn := []
  /-- SCLK at which the open session's DURATION ends (R476) -/
  sealEnd : Nat := 0
  deriving DecidableEq, Repr

/-! ### Level DACs (chapter 11) -/

/-- What a DAC holds beside its objects. -/
structure Dac where
  /-- code at the output, which a held DAC keeps (R497) -/
  level : Nat := 0
  /-- the pending code was clamped (R491) -/
  pendClamp : Bool := false
  /-- the hold waits for the first strobe after a change of range (R499) -/
  needStrobe : Bool := false
  /-- re-ranging is in progress (R499) -/
  rerange : Bool := false
  /-- SCLK at which the hold is released, once known -/
  release : Option Nat := none
  deriving DecidableEq, Repr

/-- The level DACs. -/
structure Lvl where
  /-- DACs -/
  dacs : Vector Dac 192 := Vector.replicate 192 {}
  /-- load strobes issued and not yet given: bank, SCLK -/
  strobes : KMap Nat := []
  deriving DecidableEq, Repr

/-! ### Clocks (chapter 12) -/

/-- What the monitors keep of a reference: 0 MTR, 1 PCIE_REFCLK. -/
structure Ref where
  /-- SCLK since when it is QUALIFYING -/
  qualAt : Nat := 0
  /-- SCLK since when it is GOOD -/
  goodAt : Nat := 0
  /-- consecutive monitor windows within it while it is FAILED -/
  within : Nat := 0
  deriving DecidableEq, Repr

/-- What a domain group keeps: 0 timing, 1 host and management, 2 field network. -/
structure Grp where
  /-- SCLK at which it stopped, or at which a planned switch stopped its domains -/
  stopAt : Nat := 0
  /-- source of the reference whose failure stopped it -/
  bad : Nat := 0
  /-- CLOCK_LOST applied (R535) -/
  lost : Bool := false
  /-- target of a planned switch in progress -/
  target : Option Nat := none
  /-- PLL that is not the one in use and has been started: its reference, and the SCLK in which it is locked (R522) -/
  pll : Option (Nat × Nat) := none
  deriving DecidableEq, Repr

/-- The clock subsystem. -/
structure Clk where
  /-- references -/
  refs : Vector Ref 2 := Vector.replicate 2 {}
  /-- groups -/
  grps : Vector Grp 3 := Vector.replicate 3 {}
  /-- SCLK of the last window with modulation above the limit (R518) -/
  sscAt : Nat := 0
  /-- PCIE_REFCLK counted as free of spread spectrum when it was last lost (R534, R722) -/
  sscFree : Bool := true
  /-- both references failed; the device holds (R539) -/
  dead : Bool := false
  /-- consecutive monitor windows outside the mismatch window (R530) -/
  outside : Nat := 0
  /-- ridge calibration runs (R559) -/
  ridgeCal : Bool := false
  /-- SCLK at which a domain runs again after a switch or a change of its frequency (R523, R543, Table 12.2) -/
  domStop : KMap Nat := []
  /-- DUT clocks stopped by a change, waiting for their restart (R551) -/
  dutWait : List Nat := []
  /-- SCLK of the last registered ridge pulse -/
  ridgeAt : Option Nat := none
  /-- SCLK in which the pulse that has arrived is registered (R556) -/
  ridgeDue : Option Nat := none
  /-- SCLK of the next generated ridge pulse -/
  gen : Option Nat := none
  deriving DecidableEq, Repr

/-! ### Management (chapter 15) and bring-up (chapter 17) -/

/-- An event-log entry before it has its SEQ (Table 15.4). -/
structure LogE where
  /-- KIND -/
  kind : Nat
  /-- SOURCE -/
  source : Nat := 0
  /-- SEVERITY -/
  sev : Nat := 0
  /-- EPISODE -/
  episode : Nat := 0
  /-- DATA as a number of 24 bytes -/
  data : Nat := 0
  /-- TIME_VALID -/
  valid : Bool := false
  /-- UTC -/
  utc : Nat := 0
  /-- BOOT; none until replay restores BOOTS -/
  boot : Option Nat := none
  deriving DecidableEq, Repr

/-- What a journal record holds (Table 15.6, R669). -/
inductive JBody where
  | txn (entries : KMap SVal)
  | mark (jseq : Nat)
  | ckpt (entries : KMap SVal)
  | ckptEnd (count from_ : Nat) (wear : List (Nat × Nat))
  | wipe
  | wipeDone
  deriving DecidableEq, Repr

/-- One journal record, with the dies on which it has been programmed. -/
structure JRec where
  /-- JSEQ -/
  jseq : Nat
  /-- EPOCH -/
  epoch : Nat
  /-- TXN -/
  txn : Nat := 0
  /-- type and payload -/
  body : JBody
  /-- programmed on die 0 -/
  on0 : Bool := true
  /-- programmed on die 1 -/
  on1 : Bool := true
  /-- page of the ring, counted since manufacture, at which it starts -/
  page : Nat := 0
  deriving DecidableEq, Repr

/-- One firmware slot (R680 to R683): what boot control and its contents give beside its objects. -/
structure FwSlot where
  /-- image -/
  image : List Byte := []
  /-- its single trial boot has been made -/
  booted : Bool := false
  deriving DecidableEq, Repr

/-- What the scratchpad self-test keeps of a bank (R658). -/
structure Spt where
  /-- chunks of this sweep still to be tested, in order -/
  todo : List Nat := List.range 128
  /-- deferrals of the first of them in a row -/
  defers : Nat := 0
  /-- chunks skipped in this sweep, tested first in the next -/
  skipped : List Nat := []
  deriving DecidableEq, Repr

/-- The management subsystem and the persistent store. -/
structure Mgmt where
  /-- entries on their way to the RAM buffer -/
  logPend : List LogE := []
  /-- RAM buffer: SEQ and entry, oldest first (R664) -/
  logRam : List (Nat × List Byte) := []
  /-- event-log ring by SEQ -/
  logRing : KMap (List Byte) := []
  /-- SEQ restored at replay, so that it never repeats (R663) -/
  logSeq : Nat := 0
  /-- SCLK of UTC_NOW's last write, or of the start of bring-up -/
  utcAt : Nat := 0
  /-- journal, in JSEQ order -/
  journal : List JRec := []
  /-- JSEQ of the next record -/
  jseq : Nat := 0
  /-- checkpoint epoch in force -/
  epoch : Nat := 0
  /-- pages programmed in the ring since manufacture, records starting at page boundaries -/
  pages : Nat := 0
  /-- ring sectors freed since manufacture -/
  freed : Nat := 0
  /-- UTC of the first program after erase of each ring sector that has one (R675) -/
  progAt : KMap Nat := []
  /-- dies and ring sectors, counted since manufacture, that replay has marked for rewriting (R671, R673) -/
  rewrite : List (Fin 2 × Nat) := []
  /-- spare sectors of the journal region in use, by die (R667) -/
  spares : KMap Nat := []
  /-- a background erase runs, and whether it is suspended (R678) -/
  erase : Option Bool := none
  /-- foreground NOR operations since the last background one (R43) -/
  norFg : Nat := 0
  /-- background NOR operations since the last foreground one (R44) -/
  norBg : Nat := 0
  /-- SCLK of commits of P or S objects in the last 3,600 s (R679) -/
  pcommits : List Nat := []
  /-- SCLK of the last JOURNAL_BUDGET raise -/
  budgetAt : Option Nat := none
  /-- seal-verification key in the secure partition -/
  partKey : Option (List Byte) := none
  /-- anti-rollback mirror in the secure partition -/
  mirror : Nat := 0
  /-- working copy of the key in the secure scratchpad -/
  workKey : Option (List Byte) := none
  /-- digest of the running image in the secure scratchpad -/
  digest : Option (List Byte) := none
  /-- SCLK at which the key window ends -/
  keyEnd : Nat := 0
  /-- SCRAPPED fuse blown (R685) -/
  scrapped : Bool := false
  /-- firmware slots A and B -/
  slots : Vector FwSlot 2 := Vector.replicate 2 {}
  /-- slot from which firmware runs -/
  running : Nat := 0
  /-- SCLK at which CONFIRM_WINDOW ends, while firmware runs from a TRIAL slot after P6 -/
  confirmEnd : Option Nat := none
  /-- CONFIRM was not received: the previous slot is booted at the next reset (R683) -/
  revert : Bool := false
  /-- data scratchpad: words by word index 0 to 32,767, zero when not listed -/
  spad : KMap (BitVec 32) := []
  /-- words of the code SRAM that the boot ROM has written since it copied the image there (R654) -/
  code : KMap (BitVec 32) := []
  /-- request half of the mailbox (Table 15.1) -/
  mailReq : List Byte := []
  /-- response half of the mailbox -/
  mailResp : List Byte := []
  /-- scratchpad self-test by bank -/
  spt : Vector Spt 4 := Vector.replicate 4 {}
  /-- SCLK of the last conversion outside its limit: thermal warning 0 to 23, critical 32 to 55, rails 64 to 77, IIN 78;
  200 + i once thermal sensor i has a telemetry value -/
  sensAt : KMap Nat := []
  deriving DecidableEq, Repr

/-- Power and bring-up. -/
structure Pwr where
  /-- VIN has risen through 4.4 V -/
  on : Bool := false
  /-- PERST_N is low -/
  perst : Bool := false
  /-- bring-up holds at the end of P3 (R733) -/
  hold : Bool := false
  /-- a FIRMWARE reset is in progress (R735) -/
  fwOnly : Bool := false
  /-- firmware runs -/
  fw : Bool := false
  /-- journal replay has restored the P and S objects -/
  replayed : Bool := false
  /-- SCLK at which the reset took effect -/
  startAt : Nat := 0
  /-- SCLK at which the phase in progress began -/
  phaseAt : Nat := 0
  /-- accepted reset that has not taken effect: its code and the SCLK at which it does -/
  reset : Option (Nat × Nat) := none
  /-- phase work done: 3 replay and levels, 4 HBM trained, 5 DDR5 trained, 6 self-test -/
  done : List Nat := []
  /-- operations that wait for the end of a FIRMWARE reset -/
  waiting : List Ask := []
  /-- data link up -/
  link : Bool := false
  /-- no slot booted; the device stays in P2 (R724) -/
  noSlot : Bool := false
  /-- record of a full DDR5 training, committed at the end of P4 (R727) -/
  train : Option (List Byte) := none
  deriving DecidableEq, Repr

/-! ### The machine -/

/-- Why the machine stops with a fault. No meaning of this model raises one. -/
inductive Fault where
  /-- an access to an address that does not exist; raised by nothing (safe: it would stop where the device goes on) -/
  | noAddress
  deriving DecidableEq, Repr

/-- Why a command has no meaning here. -/
inductive Refusal where
  /-- a command whose meaning is not written yet, by its mnemonic (safe: it stops where the device goes on) -/
  | notModelled (mnemonic : String)
  deriving DecidableEq, Repr

/-- The state of the KZ256Z. -/
structure State where
  /-- real time in SCLK of 1.25 ns since power-on; the step on an empty queue advances it -/
  now : Nat := 0
  /-- what the last command sent out -/
  out : List Output := []
  /-- commands that wait, first in, first out -/
  pending : List Instr := []
  /-- commands that have come to a domain that a switch holds, and wait for its restart (R543) -/
  delayed : List Instr := []
  /-- FREE VALUE counter: the model's own field, not the manual's -/
  free : Nat := 0
  /-- numeric objects -/
  od : Store := []
  /-- STR and DOMAIN objects; an unlisted one is empty -/
  blobs : KMap (List Byte) := []
  /-- memory tiers and control store -/
  mem : Mem := {}
  /-- sites -/
  sites : Vector Site 32 := Vector.replicate 32 {}
  /-- host interface -/
  host : HostIf := {}
  /-- transactions and field network -/
  dict : Dict := {}
  /-- fault collector -/
  flt : Flt := {}
  /-- TMUs -/
  tmus : Vector Tmu 10 := Vector.replicate 10 {}
  /-- waveform engines -/
  engs : Vector Eng 8 := Vector.replicate 8 {}
  /-- event lines -/
  evts : Vector EvtLine 16 := Vector.replicate 16 {}
  /-- MK_STATE at the end of the last SCLK (Table 3.5) -/
  mkLast : Nat := 0
  /-- calibration controller -/
  cal : Cal := {}
  /-- level DACs -/
  lvl : Lvl := {}
  /-- clocks -/
  clk : Clk := {}
  /-- management -/
  mgmt : Mgmt := {}
  /-- power and bring-up -/
  pwr : Pwr := {}
  /-- unit commands of microwords not yet registered -/
  unitCmds : List UnitCmd := []
  deriving DecidableEq, Repr

/-- The machine at a power-on reset (R721, R730): every field at its default, as VIN is about to rise through 4.4 V;
POWER_ON starts bring-up phase P0.
[DESIGN CHOICE, assumption 161] -/
def State.reset : State := {}

end Sys2Proof.Machine
end

