-- ==== Sys2Proof/Machine/Status.lean ====
section
/-! DEFINITION. The status codes of every chapter, one series (Tables 2.7, 3.13, 4.9, 5.6, 6.6, 7.7, 8.7, 9.4, 10.8,
11.5, 12.8, 13.10, 14.4, 15.10, 16.10, 17.5). -/
namespace Sys2Proof.Machine.Status

/-- 0000h: completed. -/
abbrev OK : Nat := 0x0000
/-- 0201h: segment table full. -/
abbrev SEG_NO_ENTRY : Nat := 0x0201
/-- 0202h: tier or staging capacity exhausted. -/
abbrev SEG_NO_SPACE : Nat := 0x0202
/-- 0203h: number out of range or FREE. -/
abbrev SEG_BAD_NUMBER : Nat := 0x0203
/-- 0204h: refused: segment ACTIVE, or FAILED and still referenced. -/
abbrev SEG_ACTIVE : Nat := 0x0204
/-- 0205h: refused in the segment's state, or listed segment not armable. -/
abbrev SEG_STATE : Nat := 0x0205
/-- 0206h: yealms missing at seal. -/
abbrev SEG_INCOMPLETE : Nat := 0x0206
/-- 0207h: MAGIC or FORMAT wrong. -/
abbrev YEALM_MAGIC : Nat := 0x0207
/-- 0208h: CRC mismatch. -/
abbrev YEALM_CRC : Nat := 0x0208
/-- 0209h: SEQ out of order. -/
abbrev YEALM_SEQ : Nat := 0x0209
/-- 020Ah: any other rule of R53, R55 or R65, or wrong owner. -/
abbrev YEALM_FORMAT : Nat := 0x020A
/-- 020Bh: a listed source's SITE_OCTETS or BEATS differ from the site's. -/
abbrev SOURCE_FORMAT : Nat := 0x020B
/-- 020Ch: deep store disabled. -/
abbrev TIER_ABSENT : Nat := 0x020C
/-- 020Dh: SEG_ALLOC length outside R63. -/
abbrev SEG_LENGTH : Nat := 0x020D
/-- 020Eh: R92 broken. -/
abbrev SOURCE_HEAD : Nat := 0x020E
/-- 0301h: stream out of range. -/
abbrev STREAM_BAD_NUMBER : Nat := 0x0301
/-- 0302h: refused in the stream's state. -/
abbrev STREAM_STATE : Nat := 0x0302
/-- 0303h: no HBM for the ring. -/
abbrev STREAM_NO_SPACE : Nat := 0x0303
/-- 0304h: feed after LAST. -/
abbrev STREAM_ENDED : Nat := 0x0304
/-- 0305h: prime level not reached at arming. -/
abbrev STREAM_NOT_PRIMED : Nat := 0x0305
/-- 0306h: refused: stream referenced; or a commit changes 2480h.02, .04, .05 or .06 of a referenced stream (R110). -/
abbrev STREAM_ACTIVE : Nat := 0x0306
/-- 0307h: PAD on a site not declared pausable. -/
abbrev ACTION_INVALID : Nat := 0x0307
/-- 0401h: admission refused in that class. -/
abbrev ADM_FETCH : Nat := 0x0401
/-- 0402h: admission refused in that class. -/
abbrev ADM_FAIL : Nat := 0x0402
/-- 0403h: admission refused in that class. -/
abbrev ADM_SAMPLE : Nat := 0x0403
/-- 0404h: admission refused in that class. -/
abbrev ADM_STAGING : Nat := 0x0404
/-- 0405h: admission refused in that class. -/
abbrev ADM_STREAM : Nat := 0x0405
/-- 0406h: admission refused in that class. -/
abbrev ADM_MOVER : Nat := 0x0406
/-- 0407h: R96 broken: a deep or stream declaration above the fetch declaration. -/
abbrev ADM_DECL : Nat := 0x0407
/-- 0501h: a CS_WRITE or 2206h range that reaches below 0_2000h, or any range beyond 1_FFFFh. -/
abbrev CS_RANGE : Nat := 0x0501
/-- 0502h: range overlaps the window of a site that is not IDLE. -/
abbrev CS_BUSY : Nat := 0x0502
/-- 0503h: a load check of this chapter fails for a field other than TGT. -/
abbrev CS_ENCODING : Nat := 0x0503
/-- 0504h: TGT breaks R116 or lies above 1_FFFFh. -/
abbrev CS_TARGET : Nat := 0x0504
/-- 0505h: arming refused: WIN_BASE above WIN_LIMIT, the window outside the customer region, or START_ADDR outside the window. -/
abbrev SEQ_WINDOW : Nat := 0x0505
/-- 0506h: CS_READ met a word with an uncorrectable error (R114). -/
abbrev CS_DATA_ERROR : Nat := 0x0506
/-- 0601h: command not accepted in the site's state, or a commit that a site's state at the apply point does not permit (R773). -/
abbrev SITE_STATE : Nat := 0x0601
/-- 0602h: LOAD of a site with no channels. -/
abbrev SITE_EMPTY : Nat := 0x0602
/-- 0603h: START names a site whose START_MODE is RIDGE. -/
abbrev SITE_START_MODE : Nat := 0x0603
/-- 0604h: PAUSE of a site whose PAUSABLE is 0. -/
abbrev SITE_NOT_PAUSABLE : Nat := 0x0604
/-- 0605h: BOARD_RT below MIN_BOARD_RT at arming. -/
abbrev BOARD_RT_SHORT : Nat := 0x0605
/-- 0606h: RESET or UNLOAD while the parking episode is open. -/
abbrev SITE_FAULT_OPEN : Nat := 0x0606
/-- 0607h: a commit names one channel in the masks of two sites (R176). -/
abbrev SITE_CHANNEL_SHARED : Nat := 0x0607
/-- 0701h: a value is not a multiple of 125 fs. -/
abbrev TS_GRID : Nat := 0x0701
/-- 0702h: PERIOD out of range or against R145, or an edge outside R236. -/
abbrev TS_RANGE : Nat := 0x0702
/-- 0703h: format or strobe mode reserved, not permitted at the site's BEATS, or WINDOW pairing broken. -/
abbrev TS_FORMAT : Nat := 0x0703
/-- 0704h: order or spacing within one vector broken. -/
abbrev TS_ORDER : Nat := 0x0704
/-- 0705h: a strobe or window edge breaks R238. -/
abbrev TS_STROBE_LATE : Nat := 0x0705
/-- 0706h: lane spacing between consecutive vectors broken. -/
abbrev TS_LANE : Nat := 0x0706
/-- 0707h: element recovery between consecutive vectors broken. -/
abbrev TS_RECOVERY : Nat := 0x0707
/-- 0708h: calibration offset change beyond R247. -/
abbrev TS_OFFSET_STEP : Nat := 0x0708
/-- 0801h: 3000h.13 to .18 changed for a channel whose site is not IDLE or LOADED at the apply point. -/
abbrev CH_BUSY : Nat := 0x0801
/-- 0802h: R291 broken. -/
abbrev CH_WF_ENGINE : Nat := 0x0802
/-- 0901h: HBM or deep store cannot hold the region or spill area. -/
abbrev FAIL_NO_SPACE : Nat := 0x0901
/-- 0902h: 2610h changed for a site not IDLE or LOADED at the apply point. -/
abbrev FAIL_BUSY : Nat := 0x0902
/-- 0903h: entries or bytes overwritten before they were copied, or capture bytes discarded under R336. -/
abbrev FAIL_GONE : Nat := 0x0903
/-- 0904h: range beyond what has been written, or below LOG_OLDEST. -/
abbrev FAIL_RANGE : Nat := 0x0904
/-- 0905h: uncorrectable error in stored results. -/
abbrev FAIL_DATA_ERROR : Nat := 0x0905
/-- 0906h: R333 broken. -/
abbrev SPILL_INVALID : Nat := 0x0906
/-- 0A01h: R350 or R371 broken. -/
abbrev WF_BUSY : Nat := 0x0A01
/-- 0A02h: a step breaks Table 8.4. -/
abbrev WF_STEP : Nat := 0x0A02
/-- 0A03h: R356 broken. -/
abbrev WF_SUM : Nat := 0x0A03
/-- 0A04h: R363 broken. -/
abbrev WF_LIST : Nat := 0x0A04
/-- 0B01h: R404 or R405 broken. -/
abbrev TMU_OWNED : Nat := 0x0B01
/-- 0B02h: R406 broken. -/
abbrev TMU_BUSY : Nat := 0x0B02
/-- 0B03h: R398 broken. -/
abbrev TMU_SOURCE : Nat := 0x0B03
/-- 0B04h: R407 broken. -/
abbrev TMU_CONFIG : Nat := 0x0B04
/-- 0B05h: host command for a TMU the host does not own. -/
abbrev TMU_NOT_OWNER : Nat := 0x0B05
/-- 0B06h: ARM while an arming is in progress. -/
abbrev TMU_STATE : Nat := 0x0B06
/-- 0C01h: R442 or R445 broken. -/
abbrev CAL_BUSY : Nat := 0x0C01
/-- 0C02h: reference not registered. -/
abbrev CAL_NO_REF : Nat := 0x0C02
/-- 0C03h: reference past its due date. -/
abbrev CAL_REF_EXPIRED : Nat := 0x0C03
/-- 0C04h: CALREF or CALV outside R439. -/
abbrev CAL_REF_ABSENT : Nat := 0x0C04
/-- 0C05h: R444 broken. -/
abbrev CAL_ORDER : Nat := 0x0C05
/-- 0C06h: a channel failed R446. -/
abbrev CAL_MEAS_FAIL : Nat := 0x0C06
/-- 0C07h: LIVE_NOW not accepted. -/
abbrev CAL_MODE : Nat := 0x0C07
/-- 0C08h: sealed write without a covering session. -/
abbrev SEAL_CLOSED : Nat := 0x0C08
/-- 0C09h: token refused. -/
abbrev SEAL_TOKEN : Nat := 0x0C09
/-- 0C0Ah: a session is already open. -/
abbrev SEAL_BUSY : Nat := 0x0C0A
/-- 0C0Bh: due date set, or SEAL named, while UTC time is not set since reset. -/
abbrev CAL_NO_UTC : Nat := 0x0C0B
/-- 0D01h: a target or park value outside its range (R490). -/
abbrev LVL_RANGE : Nat := 0x0D01
/-- 0D02h: a range, role or target object wrong for the DAC's kind. -/
abbrev LVL_KIND : Nat := 0x0D02
/-- 0D03h: R488 broken. -/
abbrev LVL_GROUP : Nat := 0x0D03
/-- 0D04h: R486 broken. -/
abbrev LVL_BUSY : Nat := 0x0D04
/-- 0D05h: range or target changed while a DEVICE_SAFE episode is open. -/
abbrev LVL_SAFE : Nat := 0x0D05
/-- 0E01h: R542 or R559 refusal. -/
abbrev CLK_BUSY : Nat := 0x0E01
/-- 0E02h: R527 broken. -/
abbrev CLK_GATE : Nat := 0x0E02
/-- 0E03h: source domain of the object stopped. -/
abbrev CLK_DOMAIN_STOPPED : Nat := 0x0E03
/-- 0E04h: switch to a reference that is not GOOD. -/
abbrev CLK_NO_SOURCE : Nat := 0x0E04
/-- 0E05h: switch forbidden by R534 or R521. -/
abbrev CLK_SSC : Nat := 0x0E05
/-- 0E06h: ridge calibration failed under R559. -/
abbrev RIDGE_CAL_FAIL : Nat := 0x0E06
/-- 0F01h: opcode reserved, or not accepted by the queue type. -/
abbrev Q_OPCODE : Nat := 0x0F01
/-- 0F02h: reserved bit set, operand out of range, or scatter list invalid. -/
abbrev Q_FIELD : Nat := 0x0F02
/-- 0F03h: R572 broken. -/
abbrev Q_NOT_OWNER : Nat := 0x0F03
/-- 0F04h: LENGTH differs from Table 13.9. -/
abbrev Q_LENGTH : Nat := 0x0F04
/-- 0F05h: R594. -/
abbrev Q_DMA_ERROR : Nat := 0x0F05
/-- 0F06h: queue not ABSENT, or a second EVENT or RESULT queue for the site. -/
abbrev Q_EXISTS : Nat := 0x0F06
/-- 0F07h: R580 or R581 broken. -/
abbrev Q_RANGE : Nat := 0x0F07
/-- 0F08h: DELETE of a FEED queue bound to a stream. -/
abbrev Q_IN_USE : Nat := 0x0F08
/-- 0F09h: R571 or R580 broken. -/
abbrev Q_BUSY : Nat := 0x0F09
/-- 0F0Ah: R579 broken. -/
abbrev DW_DENIED : Nat := 0x0F0A
/-- 1001h: index absent or reserved. -/
abbrev OD_NO_OBJECT : Nat := 0x1001
/-- 1002h: subindex absent at an existing index. -/
abbrev OD_NO_SUB : Nat := 0x1002
/-- 1003h: write of a const or ro object. -/
abbrev OD_READ_ONLY : Nat := 0x1003
/-- 1004h: read of a wo object. -/
abbrev OD_WRITE_ONLY : Nat := 0x1004
/-- 1005h: write of an rwt object outside a transaction. -/
abbrev OD_TXN_REQUIRED : Nat := 0x1005
/-- 1006h: R614 broken. -/
abbrev OD_TXN_FORBIDDEN : Nat := 0x1006
/-- 1007h: value length wrong for its type. -/
abbrev OD_LENGTH : Nat := 0x1007
/-- 1008h: value outside its range, reserved bits set, or invalid encoding. -/
abbrev OD_RANGE : Nat := 0x1008
/-- 1009h: object locked to another transaction. -/
abbrev OD_LOCKED : Nat := 0x1009
/-- 100Ah: no record holds the transaction number. -/
abbrev OD_TXN_UNKNOWN : Nat := 0x100A
/-- 100Bh: 8 transactions OPEN or PENDING. -/
abbrev OD_TXN_LIMIT : Nat := 0x100B
/-- 100Ch: R618. -/
abbrev OD_STAGING_FULL : Nat := 0x100C
/-- 100Dh: operation not accepted in the transaction's state. -/
abbrev OD_TXN_STATE : Nat := 0x100D
/-- 100Eh: transaction of another owner. -/
abbrev OD_TXN_OWNER : Nat := 0x100E
/-- 100Fh: apply point code or mask invalid. -/
abbrev OD_APPLY : Nat := 0x100F
/-- 1010h: R624. -/
abbrev OD_CONFLICT : Nat := 0x1010
/-- 1011h: journal record not made durable. -/
abbrev OD_JOURNAL : Nat := 0x1011
/-- 1012h: DOMAIN segment out of order, or no read snapshot. -/
abbrev OD_DOMAIN_SEQ : Nat := 0x1012
/-- 1013h: R644, R648. -/
abbrev OD_PATH_DENIED : Nat := 0x1013
/-- 1101h: digest, signer or signature check of R680 failed. -/
abbrev FW_SIGNATURE : Nat := 0x1101
/-- 1102h: image SVN below FUSED_SVN. -/
abbrev FW_ROLLBACK : Nat := 0x1102
/-- 1103h: MAGIC, FORMAT, reserved bits or length wrong. -/
abbrev FW_FORMAT : Nat := 0x1103
/-- 1104h: image write or command not accepted in the slots' states. -/
abbrev FW_STATE : Nat := 0x1104
/-- 1105h: lifecycle token refused. -/
abbrev LC_TOKEN : Nat := 0x1105
/-- 1106h: transition not in Table 15.8. -/
abbrev LC_TRANSITION : Nat := 0x1106
/-- 1107h: refused in BLANK or SCRAPPED. -/
abbrev LC_DENIED : Nat := 0x1107
/-- 1108h: key install refused. -/
abbrev KEY_STATE : Nat := 0x1108
/-- 1201h: clear refused under R706. -/
abbrev FLT_EPISODE_OPEN : Nat := 0x1201
/-- 1202h: no record holds the number. -/
abbrev FLT_NO_EPISODE : Nat := 0x1202
/-- 1203h: R696 broken. -/
abbrev FLT_RULE : Nat := 0x1203
/-- 1204h: ST_CMD for a unit in use. -/
abbrev FLT_UNIT_BUSY : Nat := 0x1204
/-- 1205h: retired unit assigned, or a channel without an engine armed. -/
abbrev FLT_RETIRED : Nat := 0x1205
/-- 1206h: ARM during a DEVICE_SAFE episode. -/
abbrev FLT_SAFE : Nat := 0x1206
/-- 1301h: DEV_RESET 02h refused under R734. -/
abbrev RST_BUSY : Nat := 0x1301
/-- 1302h: refused while PFW_ACTIVE is 1 (R737). -/
abbrev PWR_LOW : Nat := 0x1302

end Sys2Proof.Machine.Status
end

