-- ==== Sys2Proof/Machine/Ops.lean ====
section
/-! DEFINITION. The named operations over the state that every meaning uses: objects, sites, free values, raises to the
fault collector, site events, parking, references, completions. -/
namespace Sys2Proof.Machine
open Sys2Proof

/-! ### Objects -/

/-- The value of an object in an object store: the listed value or the default. -/
def Store.val (m : Store) (k : Nat) : Int := kgetD m k (Objects.dflt k)

/-- Writes an object in an object store, in canonical form: a default value is not listed. -/
def Store.write (m : Store) (k : Nat) (v : Int) : Store :=
  if v = Objects.dflt k then kdel m k else kput m k v

/-- The canonical form of an object store: keys rising, no listed value equal to its default. -/
def Store.wf (m : Store) : Bool := ksorted m && m.all (fun e => e.2 != Objects.dflt e.1)

/-- The value of an object. -/
def State.g (s : State) (k : Nat) : Int := Store.val s.od k
/-- The value of an object as a natural number. -/
def State.n (s : State) (k : Nat) : Nat := (s.g k).toNat
/-- The value of a BOOL object. -/
def State.b (s : State) (k : Nat) : Bool := s.g k != 0
/-- Writes an object. -/
def State.p (s : State) (k : Nat) (v : Int) : State := { s with od := Store.write s.od k v }
/-- The value of an object in a frame's store. -/
def Frame.g (f : Frame) (k : Nat) : Int := Store.val f.od k
/-- The same as a natural number. -/
def Frame.n (f : Frame) (k : Nat) : Nat := (f.g k).toNat
/-- The same as a BOOL. -/
def Frame.b (f : Frame) (k : Nat) : Bool := f.g k != 0

/-- The value of a STR or DOMAIN object. -/
def State.blob (s : State) (k : Nat) : List Byte := kgetD s.blobs k []
/-- Writes a STR or DOMAIN object; an empty value is not listed. -/
def State.putBlob (s : State) (k : Nat) (l : List Byte) : State :=
  { s with blobs := if l = [] then kdel s.blobs k else kput s.blobs k l }

/-- The canonical form of the STR and DOMAIN objects: keys rising, no empty value listed. -/
def Blobs.wf (m : KMap (List Byte)) : Bool := ksorted m && m.all (fun e => !e.2.isEmpty)

/-- Increases a saturating counter, staying at its largest value. -/
def State.incSat (s : State) (k : Nat) (max : Int) : State := s.p k (min (s.g k + 1) max)
/-- A saturating U32 counter. -/
def State.sat32 (s : State) (k : Nat) : State := s.incSat k 4294967295

/-- The next free value. -/
def State.drawn (s : State) : Int := Config.freeInt s.free
/-- Moves on to the next free value. -/
def State.advance (s : State) : State := { s with free := s.free + 1 }

/-- Increases a counter of which the manual states no value past its type's range: that one value is free.
[DESIGN CHOICE, assumption 9] -/
def State.count (s : State) (k : Nat) (max : Int) : State :=
  if s.g k < max then s.p k (s.g k + 1) else (s.p k (s.drawn % (max + 1))).advance
/-- A U32 counter.
[DESIGN CHOICE, assumption 9] -/
def State.cnt32 (s : State) (k : Nat) : State := s.count k 4294967295
/-- A U64 counter.
[DESIGN CHOICE, assumption 9] -/
def State.cnt64 (s : State) (k : Nat) : State := s.count k 18446744073709551615

/-- Sends something out of the device. -/
def State.emit (s : State) (o : Output) : State := { s with out := s.out ++ [o] }
/-- Sends several things out. -/
def State.emits (s : State) (l : List Output) : State := { s with out := s.out ++ l }
/-- A new command begins: the outputs of the last one are gone. -/
def State.fresh (s : State) : State := { s with out := [] }

/-! ### Sub-structures -/

/-- A site's record. -/
def State.site (s : State) (i : SiteId) : Site := s.sites[i]
/-- Replaces a site's record. -/
def State.setSite (s : State) (i : SiteId) (x : Site) : State := { s with sites := s.sites.set i x }
/-- Changes a site's record. -/
def State.modSite (s : State) (i : SiteId) (f : Site → Site) : State := s.setSite i (f (s.site i))
/-- A bank's record. -/
def State.calBank (s : State) (b : BankId) : CalBank := s.cal.banks[b]
/-- Replaces a bank's record. -/
def State.setCalBank (s : State) (b : BankId) (x : CalBank) : State :=
  { s with cal := { s.cal with banks := s.cal.banks.set b x } }
/-- All banks. -/
def allBanks : List BankId := List.finRange 8
/-- The bank that a transaction of the controller works in. -/
def CalJob.bank : CalJob → Option BankId
  | .native b _ | .unit b | .direct b | .align b | .publish b _ | .ret b _ | .back b | .legacy b _ => some b
  | .level _ | .ridge | .train | .life _ => none
/-- Transactions of the controller for the channel or unit in calibration in a bank that are not applied yet are given up. -/
def cancelJobs (b : BankId) (s : State) : State :=
  let gone (t : Txn) : Bool := t.wait != .mark && (match t.job with
    | some (.native _ _) | some (.legacy _ _) | none => false
    | some j => j.bank == some b)
  { s with dict := { s.dict with outs := s.dict.outs.filter (fun t => !gone t) }
           cal := { s.cal with held := s.cal.held.filter (fun t => !gone t) } }
/-- A segment table entry in use. -/
def State.seg? (s : State) (n : Nat) : Option Seg := kget? s.mem.segs n
/-- Writes a segment table entry. -/
def State.setSeg (s : State) (n : Nat) (x : Seg) : State := { s with mem := { s.mem with segs := kput s.mem.segs n x } }
/-- Frees a segment table entry. -/
def State.delSeg (s : State) (n : Nat) : State := { s with mem := { s.mem with segs := kdel s.mem.segs n } }
/-- A stream's record. -/
def State.strm (s : State) (n : StreamId) : Strm := s.mem.strms[n]
/-- Replaces a stream's record. -/
def State.setStrm (s : State) (n : StreamId) (x : Strm) : State :=
  { s with mem := { s.mem with strms := s.mem.strms.set n x } }
/-- A queue that exists. -/
def State.queue? (s : State) (q : Nat) : Option Queue := kget? s.host.queues q
/-- Writes a queue. -/
def State.setQueue (s : State) (q : Nat) (x : Queue) : State :=
  { s with host := { s.host with queues := kput s.host.queues q x } }
/-- A function's record. -/
def State.fnr (s : State) (f : FnId) : Fn := s.host.fns[f]
/-- Replaces a function's record. -/
def State.setFn (s : State) (f : FnId) (x : Fn) : State :=
  { s with host := { s.host with fns := s.host.fns.set f x } }

/-! ### Lists of units -/

/-- All sites in ascending number. -/
def allSites : List SiteId := List.finRange 32
/-- All channels in ascending number. -/
def allChans : List ChanId := List.finRange 256
/-- The sites of a mask in ascending number. -/
def sitesOf (m : SiteMask) : List SiteId := allSites.filter (fun i => m.getLsbD i)
/-- The mask of one site. -/
def oneSite (i : SiteId) : SiteMask := 1#32 <<< i.val
/-- Applies an operation to each site of a mask, in ascending number. -/
def eachSite (f : SiteId → State → State) (m : SiteMask) (s : State) : State :=
  (sitesOf m).foldl (fun s i => f i s) s

/-! ### Site states (Table 4.1) -/
namespace SS
/-- IDLE -/
abbrev idle : Nat := 0
/-- LOADED -/
abbrev loaded : Nat := 1
/-- ARMED -/
abbrev armed : Nat := 2
/-- RUNNING -/
abbrev running : Nat := 3
/-- PAUSED -/
abbrev paused : Nat := 4
/-- STOPPED -/
abbrev stopped : Nat := 5
/-- FAULTED -/
abbrev faulted : Nat := 6
end SS

/-- STATE of a site (2040h.01). -/
def State.st (s : State) (i : SiteId) : Nat := s.n (K.st_STATE i)
/-- The site is ARMED, RUNNING or PAUSED. -/
def State.active (s : State) (i : SiteId) : Bool := decide (2 ≤ s.st i) && decide (s.st i ≤ 4)
/-- The site is IDLE or LOADED. -/
def State.quiet (s : State) (i : SiteId) : Bool := decide (s.st i ≤ 1)

/-- CHAN_MASK of a store names the channel (R175). -/
def Store.hasChan (m : Store) (i : SiteId) (c : ChanId) : Bool :=
  (Store.val m (K.cf_CHAN_MASK i (c / 64))).toNat.testBit (c % 64)
/-- The channels of a site in ascending number, that is in rank order (R175, R306). -/
def Store.chans (m : Store) (i : SiteId) : List ChanId := allChans.filter (Store.hasChan m i)
/-- The channels of a site. -/
def State.chans (s : State) (i : SiteId) : List ChanId := Store.chans s.od i
/-- The site that a channel belongs to, if any (R26). -/
def Store.siteOf (m : Store) (c : ChanId) : Option SiteId := allSites.find? (fun i => Store.hasChan m i c)
/-- The site that a channel belongs to. -/
def State.siteOf (s : State) (c : ChanId) : Option SiteId := Store.siteOf s.od c
/-- SITE_OCTETS (R177). -/
def Store.octets (m : Store) (i : SiteId) : Nat :=
  (List.range 32).foldl
    (fun a o => if (List.range 8).any (fun p => (Store.val m (K.cf_CHAN_MASK i (o / 8))).toNat.testBit (8 * (o % 8) + p))
      then a + 2 ^ o else a) 0

/-- A source-list entry of an object store: VALID, then stream or segment and its number (2460h). -/
def Store.source (m : Store) (i : SiteId) (e : Nat) : Option (Bool × Nat) :=
  let v := (Store.val m (K.sl_SOURCE_ENTRY i e)).toNat
  if v.testBit 31 then some (v.testBit 30, v % 65536) else none

/-! ### Domain groups (R31) -/

/-- The group runs. -/
def running (s : State) (g : Fin 3) : Bool := s.n (K.cg_GROUP_STATE g) == 0
/-- The timing group runs. -/
def timingOn (s : State) : Bool := running s 0

/-- The clock domains that serve commands (Table 12.2): those of the timing group, which stop and run together, and the others. -/
inductive Dom where
  | timing | pcie | mgmt | coll | nor | t1s
  deriving DecidableEq, Repr

/-- The group of a domain. -/
def Dom.group : Dom → Fin 3
  | .timing => 0
  | .t1s => 2
  | _ => 1
/-- Its number in Clk.domStop. -/
def Dom.no : Dom → Nat
  | .mgmt => 0
  | .nor => 1
  | .coll => 2
  | .t1s => 3
  | .pcie => 4
  | .timing => 5
/-- A domain's 16 cycles after a switch are not over (R523, R543). -/
def domHeld (s : State) (d : Dom) : Bool := match kget? s.clk.domStop d.no with | some t => decide (s.now < t) | none => false
/-- A domain runs. -/
def domRuns (s : State) (d : Dom) : Bool := running s d.group && !domHeld s d
/-- A planned switch of its group, or the 16 cycles after it, holds a domain. -/
def domSwitches (s : State) (d : Dom) : Bool := s.n (K.cg_GROUP_STATE d.group) == 2 || domHeld s d

/-- What a domain makes of a command: its effect while the domain runs; while a switch holds the domain the command waits, and nothing
is lost (R543); in a domain whose clock is lost nothing happens (R31, R538).
[DESIGN CHOICE, assumption 11] -/
def State.served (s : State) (d : Dom) (c : Instr) (f : State → Host.Outcome State Fault Refusal) : Host.Outcome State Fault Refusal :=
  if domRuns s d then f s
  else if domSwitches s d then .next { s.fresh with delayed := s.delayed ++ [c] }
  else .next s.fresh

/-- The domain in which a dictionary path ends (Table 12.2). -/
def pathDom : Path → Dom
  | .pcie _ _ => .pcie
  | .t1s _ _ => .t1s
  | .mbox => .mgmt
/-- The domain to which a dictionary command comes. -/
def reqDom : Req → Dom
  | .window _ _ => .pcie
  | .direct p _ => pathDom p

/-- What a unit of the timing group does by itself: nothing while the group is stopped (R31, R538).
[DESIGN CHOICE, assumption 11] -/
def State.timed (s : State) (f : State → State) : State := if timingOn s then f s else s

/-! ### Raises (R694, R698) -/

/-- Reports a source that is a single event to the collector, unless it is active already.
[DESIGN CHOICE, assumption 7] -/
def State.report (s : State) (src : Nat) (sites : SiteMask) (detail : Nat) : State :=
  if (kgetD s.flt.srcs src {}).active then s
  else { s with flt := { s.flt with reports := s.flt.reports ++ [{ src := src, sites := sites, detail := detail }] } }
/-- Reports a source of one site. -/
def State.raiseSite (s : State) (src : Nat) (i : SiteId) : State := s.report src (oneSite i) 0
/-- Reports a source that names no site. -/
def State.raise (s : State) (src : Nat) : State := s.report src 0 0
/-- A source becomes active: a raise when it was inactive. -/
def State.activate (s : State) (src : Nat) (sites : SiteMask) (detail : Nat) : State :=
  let x := kgetD s.flt.srcs src {}
  if x.active then s
  else { s with flt := { s.flt with
    srcs := kput s.flt.srcs src { x with active := true },
    reports := s.flt.reports ++ [{ src := src, sites := sites, detail := detail }] } }
/-- A source is active. -/
def State.isActive (s : State) (src : Nat) : Bool := (kgetD s.flt.srcs src {}).active
/-- A source becomes inactive, unless its dual-rail pair is broken (R695). -/
def State.deactivate (s : State) (src : Nat) : State :=
  let x := kgetD s.flt.srcs src {}
  if x.broken || !x.active then s
  else { s with flt := { s.flt with srcs := kput s.flt.srcs src { x with active := false } } }

/-! ### Site events (R592, Table 13.8) -/

/-- An event entry less its PHASE. -/
def eventEntry (kind : Nat) (i : SiteId) (cycle seq data : Nat) : BitVec 128 :=
  BitVec.ofNat 128 (kind * 2 ^ 112 + i.val * 2 ^ 104 + cycle % 2 ^ 48 * 2 ^ 48 + seq % 2 ^ 16 * 2 ^ 16 + data % 2 ^ 16)

/-- A site event enters the site's event FIFO, or is lost when the FIFO holds 64. -/
def State.event (s : State) (i : SiteId) (kind cycle data : Nat) : State :=
  let x := s.site i
  let s := s.setSite i { x with evSeq := x.evSeq + 1 }
  if x.evFifo.length < 64 then
    s.setSite i { x with evSeq := x.evSeq + 1, evFifo := x.evFifo ++ [eventEntry kind i cycle x.evSeq data] }
  else (s.sat32 (K.se_EVT_LOST i)).raise (Src.Q_EVENT_OVERFLOW i)

/-- Enters a site state; entry into RUNNING, PAUSED, STOPPED or FAULTED is a site event (R592). -/
def State.setSt (s : State) (i : SiteId) (st : Nat) : State :=
  let s := s.p (K.st_STATE i) st
  if 3 ≤ st then s.event i 3 (s.n (K.st_CYCLE i)) st else s

/-! ### Answers to commands -/

/-- A queue command ends: its completion waits to be posted. -/
def State.complete (s : State) (t : Tag) (status result : Nat) : State :=
  { s with host := { s.host with compl := s.host.compl ++ [⟨t, status, result⟩] } }
/-- A queue command is refused. -/
def State.refuse (s : State) (t : Tag) (status : Nat) : State := s.complete t status 0
/-- A command whose operands lie in their ranges acts; another is refused with Q_FIELD (R586).
[DEDUCED, assumption 14] -/
def State.inRange (s : State) (t : Tag) (ok : Bool) (f : State → State) : State :=
  if ok then f s else s.refuse t Status.Q_FIELD
/-- Data for a queue command's host buffer, split at Max_Payload_Size (R599): the writes wait for their turn at the link (R598).
[DESIGN CHOICE, assumption 9] -/
def State.toHost (s : State) (t : Tag) (d : List Byte) : State :=
  { s with host := { s.host with waiting := s.host.waiting ++ (chunks (s.n K.pcie_MPS) d.length d).map (fun c => (t, c)) } }
/-- The reads of a command in flight have all been answered: its tags are free (R599). -/
def readsDone (t : Tag) (l : List Flight) : List Flight := l.map (fun x => if x.tag = t then { x with toRead := 0, tags := 0 } else x)
/-- Data read from a queue command's host buffer, counted in the function's FN_RD_BYTES.
[DESIGN CHOICE, assumption 9] -/
def State.fromHost (s : State) (t : Tag) (n : Nat) : State :=
  let f := s.fnr t.fn
  let s := { s with host := { s.host with flights := readsDone t s.host.flights } }
  s.setFn t.fn { f with rdBytes := (f.rdBytes + n) % 2 ^ 64 }

/-! ### Commands of the submission queues (R181, R595, Tables 13.6, 13.9) -/
namespace SqE
/-- OPCODE -/
def opcode (e : BitVec 512) : Nat := (e.extractLsb' 0 8).toNat
/-- FENCE -/
def fence (e : BitVec 512) : Bool := e.getLsbD 8
/-- SGL -/
def sgl (e : BitVec 512) : Bool := e.getLsbD 9
/-- CID -/
def cid (e : BitVec 512) : BitVec 16 := e.extractLsb' 16 16
/-- ADDR -/
def addr (e : BitVec 512) : Nat := (e.extractLsb' 64 64).toNat
/-- LENGTH -/
def length (e : BitVec 512) : Nat := (e.extractLsb' 128 32).toNat
/-- DWk -/
def dw (e : BitVec 512) (k : Nat) : Nat := (e.extractLsb' (192 + 32 * k) 32).toNat
/-- The reserved bits outside the operands are zero. -/
def reservedZero (e : BitVec 512) : Bool := e.extractLsb' 10 6 == 0 && e.extractLsb' 32 32 == 0 && e.extractLsb' 160 32 == 0
/-- The operands from DWk on are zero. -/
def zeroFrom (e : BitVec 512) (k : Nat) : Bool := (List.range 10).all (fun j => decide (j < k) || dw e j == 0)
end SqE

/-- A submission entry spells a command: the opcode is its own, and the operands are those of Table 13.9; 60h + code with the site
mask in DW0 is the site command of that code (R181), and 74h with 0100h or 0200h plus a TMU's number arms or disarms that TMU (R408). -/
def SqE.spells (e : BitVec 512) (c : Instr) : Bool :=
  let op (o : Nat) : Bool := SqE.opcode e == o
  let d := SqE.dw e
  let site (o : Nat) (m : SiteMask) : Bool := op o && d 0 == m.toNat
  match c with
  | .segAlloc _ kind home len => op 0x40 && d 0 == b2n (kind == .sample) + 2 * b2n (home == .deep) && d 1 == len
  | .segWrite _ n first count data => op 0x41 && d 0 == n.val && d 1 == first && d 2 == count && data.length == SqE.length e
  | .segSeal _ n => op 0x42 && d 0 == n.val
  | .segUnseal _ n => op 0x43 && d 0 == n.val
  | .segRead _ n first x => op 0x44 && d 0 == n.val && d 1 == first && d 2 == x.count
  | .segMigrate _ n home => op 0x45 && d 0 == n.val && d 1 == b2n (home == .deep)
  | .segFree _ n => op 0x46 && d 0 == n.val
  | .segQuery _ n => op 0x47 && d 0 == n.val
  | .streamOpen _ n q o b => op 0x48 && d 0 == n.val && d 1 == q.val && d 2 == o.toNat && d 3 == b.val
  | .streamReset _ n => op 0x49 && d 0 == n.val
  | .streamClose _ n => op 0x4A && d 0 == n.val
  | .streamFeed _ data => op 0x4B && data.length == SqE.length e
  | .resultBuf _ len => op 0x4C && SqE.length e == len
  | .csWrite _ a words => op 0x50 && d 0 == a && d 1 == words.length
  | .csRead _ a n _ => op 0x51 && d 0 == a && d 1 == n
  | .csVerify _ a n _ => op 0x52 && d 0 == a && d 1 == n
  | .load _ m => site 0x61 m
  | .unload _ m => site 0x62 m
  | .arm _ m => site 0x63 m
  | .start _ m => site 0x64 m
  | .pause _ m => site 0x65 m
  | .resume _ m => site 0x66 m
  | .stop _ m => site 0x67 m
  | .abort _ m => site 0x68 m
  | .reset _ m => site 0x69 m
  | .failRead _ i first n _ => op 0x70 && d 0 == i.val && d 1 + 2 ^ 32 * d 2 == first && d 3 == n
  | .captureRead _ i off n _ => op 0x71 && d 0 == i.val && d 1 + 2 ^ 32 * d 2 == off && d 3 == n
  | .tmuArm _ u => op 0x74 && d 0 == 0x100 + u.val
  | .tmuDisarm _ u => op 0x74 && d 0 == 0x200 + u.val
  | _ => false

/-- The units that serialise the commands of an opcode in arrival order: 0 the tier controller, with it the arming (R68, R94); 1 the
control-store unit, with it the arming (R120); 2 the site controller (R179); the others take theirs one by one as well. -/
def unitsOf (op : Nat) : List Nat :=
  if op = 0x63 then [0, 1, 2]
  else if 0x40 ≤ op ∧ op ≤ 0x4A then [0]
  else if 0x50 ≤ op ∧ op ≤ 0x52 then [1]
  else if 0x61 ≤ op ∧ op ≤ 0x69 then [2]
  else [op]

/-- A command in flight has ended already: its completion waits to be posted. -/
def State.ended (s : State) (t : Tag) : Bool := s.host.compl.any (fun c => c.tag == t)

/-- A command in flight waits for its unit. -/
def Flight.waits (s : State) (x : Flight) : Bool := !x.taken && !s.ended x.tag

/-- A unit may take a command of a submission queue now: it is in flight and has not ended, its entry spells it, its reads of host
memory have been issued, and no command dispatched before it waits for the same unit (R595). One that waits for the mover comes again
(R77).
[DEDUCED, assumption 14] -/
def State.turn (s : State) (t : Tag) (c : Instr) : Bool :=
  match s.host.flights.find? (fun x => x.tag == t) with
  | none => false
  | some x =>
    SqE.spells x.entry c && !s.ended t && x.toRead == 0 && (!x.taken || s.mem.movers.contains (.copy t)) &&
    !(s.host.flights.takeWhile (fun y => y.tag != t)).any (fun y => y.waits s && (unitsOf y.opcode).any (unitsOf x.opcode).contains)

/-- A unit takes a command. -/
def State.take (s : State) (t : Tag) : State :=
  { s with host := { s.host with flights := s.host.flights.map (fun x => if x.tag = t then { x with taken := true } else x) } }

/-- What the unit of a domain makes of a command of a submission queue: its effect when it is the command's turn.
[DEDUCED, assumption 14] -/
def State.queued (s : State) (t : Tag) (d : Dom) (c : Instr) (f : State → Host.Outcome State Fault Refusal) :
    Host.Outcome State Fault Refusal :=
  s.served d c (fun s => if s.turn t c then f (s.take t) else .next s.fresh)

/-- The same of a command that a submission queue or a write of a command object delivers (R181, R408). -/
def State.either (s : State) (t : Option Tag) (d : Dom) (c : Instr) (f : State → Host.Outcome State Fault Refusal) :
    Host.Outcome State Fault Refusal :=
  match t with
  | some t => s.queued t d c f
  | none => s.served d c f

/-! ### Memory space (R48, R49) -/

/-- Extents of 2 MiB that a segment takes: 512 yealms or 16,384 granules to an extent. -/
def Seg.extents (x : Seg) : Nat :=
  match x.kind with
  | .vector => (x.len + 511) / 512
  | .sample => (x.len + 16383) / 16384

/-- HBM extents that a segment holds: in its home, and in its new home while it migrates. -/
def Seg.inTier (x : Seg) (t : Tier) : Nat :=
  (if x.home = t then x.extents else 0) + (match x.moving with | some (m, _) => (if m = t then x.extents else 0) | none => 0)

/-- Extents of the segment table in a tier. -/
def segExtents (m : KMap Seg) (t : Tier) : Nat := m.foldl (fun a e => a + e.2.inTier t) 0

/-- HBM extents in use: segments, rings of 128 extents, staging areas, fail and capture regions. -/
def State.hbmUsed (s : State) : Nat :=
  segExtents s.mem.segs .hbm
  + 128 * ((List.range 64).filter (fun n => s.g (K.sm_STATE n) != 0)).length
  + (allSites.foldl (fun (a : Nat) (i : SiteId) => a + (s.site i).staging.extents + s.n (K.fc_LOG_EXTENTS i) + s.n (K.fc_CAP_EXTENTS i)) 0)

/-- Free HBM extents of the 73,600 that R48 leaves; none while HBM is out of service. -/
def State.hbmFree (s : State) : Nat := if s.mem.hbmUp then 73600 - s.hbmUsed else 0

/-- The deep store is enabled (R49). -/
def State.deepOn (s : State) : Bool := s.g (K.hm_DDR5_INSTALLED) != 0

/-- Deep-store extents in use: segments and spill areas. -/
def State.deepUsed (s : State) : Nat :=
  segExtents s.mem.segs .deep + allSites.foldl (fun (a : Nat) (i : SiteId) => a + s.n (K.fc_SPILL_SIZE i)) 0

/-- Free deep-store extents. -/
def State.deepFree (s : State) : Nat := s.n (K.hm_DDR5_INSTALLED) / 2097152 - s.deepUsed

/-- Free extents of a tier. -/
def State.tierFree (s : State) (t : Tier) : Nat :=
  match t with
  | .hbm => s.hbmFree
  | .deep => s.deepFree

/-! ### References and reservations (R66, R67, R81, R95) -/

/-- Releases one reference of a site. -/
def releaseRef (s : State) (r : Bool × Nat) : State :=
  if r.1 then
    if h : r.2 < 64 then
      let n : StreamId := ⟨r.2, h⟩
      let s := s.setStrm n { s.strm n with refBy := none }
      if s.g (K.sm_STATE n) = 2 then s.p (K.sm_STATE n) 1 else s
    else s
  else
    match s.seg? r.2 with
    | none => s
    | some x =>
      s.setSeg r.2 { x with refs := x.refs - 1, st := if x.refs - 1 = 0 ∧ x.st = .active then .inactive else x.st }

/-- Releases every reference of a site (R67). -/
def State.releaseRefs (s : State) (i : SiteId) : State :=
  let s := (s.site i).refs.foldl releaseRef s
  s.modSite i (fun x => { x with refs := [] })

/-- Releases a site's reservation with its staging area (R74, R95). -/
def State.releaseRes (s : State) (i : SiteId) : State :=
  (s.p (K.md_RESERVED_NOW i) 0).modSite i (fun x => { x with staging := {} })

end Sys2Proof.Machine
end

