-- ==== Sys2Proof/Machine/Levels.lean ====
section
/-! DEFINITION. Level DACs (chapter 11). -/
namespace Sys2Proof.Machine
open Sys2Proof

/-- A DAC's record. -/
def State.dac (s : State) (d : DacId) : Dac := s.lvl.dacs[d]
/-- Replaces a DAC's record. -/
def State.setDac (s : State) (d : DacId) (x : Dac) : State := { s with lvl := { s.lvl with dacs := s.lvl.dacs.set d x } }
/-- All DACs. -/
def allDacs : List DacId := List.finRange 192
/-- The bank of a DAC (R484). -/
def dacBank (d : DacId) : Nat := d.val / 24
/-- The DACs of a bank. -/
def bankDacs (b : Nat) : List DacId := allDacs.filter (fun d => dacBank d == b)
/-- A current DAC (R484). -/
def isCurrent (d : DacId) : Bool := decide (16 ≤ d.val % 24)

/-- Lo and FS of a range for a kind (Table 11.1); none for a code that the table does not give. -/
def rangeOf (current : Bool) (r : Nat) : Option (Int × Int) :=
  if current then (match r with | 0 => some (0, 1000000) | 1 => some (0, 4000000) | _ => none)
  else match r with
    | 0 => some (0, 2500000)
    | 1 => some (0, 5000000)
    | 2 => some (-2500000, 5000000)
    | _ => none

/-- The code of a target, and whether it was clamped (R491). -/
def levelCode (t lo fs g o : Int) : Nat × Bool :=
  let den : Int := 16 * fs * 1000000000
  let num : Int := 16 * (t - lo) * 65536 * (1000000000 + g) + o * fs * 1000000000
  let c := (2 * num + den) / (2 * den)
  if c < 0 then (0, true) else if 65535 < c then (65535, true) else (c.toNat, false)

/-- The code of a DAC's target in its range with its trims. -/
def dacCode (s : State) (d : DacId) : Nat × Bool :=
  let r := (rangeOf (isCurrent d) (s.n (K.da_RANGE d))).getD (0, 1)
  levelCode (if isCurrent d then s.g (K.da_TARGET_I d) else s.g (K.da_TARGET_V d)) r.1 r.2 (s.g (K.lt_GAIN_TRIM d)) (s.g (K.lt_OFFSET_TRIM d))

/-- Sets or clears a bit of a DAC's STATUS. -/
def setStatusBit (d : DacId) (k : Nat) (v : Bool) (s : State) : State :=
  let x := s.n (K.da_STATUS d)
  s.p (K.da_STATUS d) (if x.testBit k = v then x else if v then x + 2 ^ k else x - 2 ^ k : Nat)

/-- A bit of a DAC's STATUS. -/
def statusBit (s : State) (d : DacId) (k : Nat) : Bool := (s.n (K.da_STATUS d)).testBit k

/-- A load strobe of a bank is issued; it comes in the following SCLK (R494, R495). -/
def issueStrobe (b : Nat) (s : State) : State :=
  match kget? s.lvl.strobes b with
  | some _ => s
  | none => { s with lvl := { s.lvl with strobes := kput s.lvl.strobes b s.now } }

/-- An apply changed a DAC's target, range or trim: its pending code is formed, under AUTO with a strobe; a change of range
holds the output (R493, R494, R499). -/
def formPending (d : DacId) (rangeChanged : Bool) (s : State) : State :=
  let (c, cl) := dacCode s d
  let s := setStatusBit d 1 true (s.p (K.da_PENDING d) c)
  let s := if cl then setStatusBit d 2 true s else s
  let x := s.dac d
  let s := if rangeChanged then
      setStatusBit d 0 true (s.setDac d { x with pendClamp := cl, needStrobe := true, rerange := true, release := none })
    else s.setDac d { x with pendClamp := cl }
  if s.n (K.lb_LOAD_MODE (dacBank d)) = 0 then issueStrobe (dacBank d) s else s

/-- The level groups of a bank whose map names a DAC (R485). -/
def groupsOf (s : State) (d : DacId) : List Nat :=
  (List.range 4).filter (fun g => (List.range 7).any (fun j => s.n (K.lg_GROUP_MAP (4 * dacBank d + g) j) == d.val))

/-- Two codes whose change holds the output (R497). -/
def holdsChange (old new : Nat) : Bool := decide (4096 ≤ old - new + (new - old)) || old / 256 != new / 256

/-- One step of the spread of a hold over the groups that a held DAC belongs to. -/
def spread (s : State) (changed : List DacId) (held : List DacId) : List DacId :=
  changed.filter (fun d => held.contains d || (groupsOf s d).any (fun g => held.any (fun h => (groupsOf s h).contains g)))

/-- The DACs that a strobe of a bank holds: those with a large change, and every other changed DAC of a group that holds
one of them (R497). -/
def heldBy (s : State) (b : Nat) : List DacId :=
  let changed := (bankDacs b).filter (fun (d : DacId) => statusBit s d 1 && s.n (K.da_PENDING d) != s.n (K.da_CODE d))
  let first := changed.filter (fun (d : DacId) => holdsChange (s.n (K.da_CODE d)) (s.n (K.da_PENDING d)))
  (List.range 4).foldl (fun h _ => spread s changed h) first

/-- The strobe loads the pending code of one DAC (R496 to R499, R515). -/
def loadDac (hold : Bool) (d : DacId) (s : State) : State :=
  let c := s.n (K.da_PENDING d)
  let changed := s.n (K.da_CODE d) != c
  let x := s.dac d
  let s := (setStatusBit d 1 false (s.p (K.da_CODE d) c))
  let s := setStatusBit d 2 x.pendClamp s
  let s := if changed then s.sat32 (K.da_DAC_STROBES d) else s
  if hold || statusBit s d 0 then
    setStatusBit d 0 true (s.setDac d { x with needStrobe := false, release := if x.rerange then none else some (s.now + 1600) })
  else
    let s := s.setDac d { x with level := c }
    if changed && !statusBit s d 6 then s.emit (.dac d c) else s

/-- A load strobe of a bank (R496). -/
def strobeBank (b : BankId) (s : State) : State :=
  let held := heldBy s b
  let s := ((bankDacs b).filter (fun (d : DacId) => statusBit s d 1)).foldl (fun s (d : DacId) => loadDac (held.contains d) d s) s
  s.sat32 (K.lb_BANK_STROBES b)

/-- LOAD_STROBE: an issued strobe comes, in the SCLK after its issue (R494 to R496). -/
def execLoadStrobe (b : BankId) (s : State) : Host.Outcome State Fault Refusal :=
  .next (s.fresh.timed (fun s =>
    match kget? s.lvl.strobes b with
      | some t => if t + 1 ≤ s.now then strobeBank b { s with lvl := { s.lvl with strobes := kdel s.lvl.strobes b } } else s
      | none => s))

/-- A write of LVL_LOAD issues the strobes of the named banks in BANK_CMD and, with DEVICE, of every bank in DEVICE_CMD
(R494, R495). -/
def lvlLoad (v : Nat) (s : State) : State :=
  (List.range 8).foldl (fun s b =>
    let m := s.n (K.lb_LOAD_MODE b)
    if (m = 1 ∧ v.testBit b) ∨ (m = 2 ∧ v.testBit 8) then issueStrobe b s else s) s

/-- LVL_LOAD. -/
def execLvlLoad (v : BitVec 16) (s : State) : Host.Outcome State Fault Refusal :=
  s.served .timing (.lvlLoad v) fun s =>
  .next (lvlLoad v.toNat s.fresh)

/-- A held output is released and moves to the code of the string (R497, R498).
[DEDUCED, assumption 99] -/
def releaseDac (d : DacId) (s : State) : State :=
  let c := s.n (K.da_CODE d)
  let s := setStatusBit d 0 false (s.setDac d { s.dac d with level := c, release := none })
  if statusBit s d 6 then s else s.emit (.dac d c)

/-- DEGLITCH_RELEASE: the outputs of a bank whose hold has ended are released together (R497).
[DEDUCED, assumption 99] -/
def execDeglitchRelease (b : BankId) (s : State) : Host.Outcome State Fault Refusal :=
  .next (s.fresh.timed (fun s =>
    ((bankDacs b).filter (fun (d : DacId) => statusBit s d 0 && (match (s.dac d).release with
      | some t => decide (t ≤ s.now)
      | none => false))).foldl (fun s (d : DacId) => releaseDac d s) s))

/-- RERANGE_END: re-ranging ends; the hold lasts t_dg_hold more, counted from the later of this and the strobe (R499). -/
def execRerangeEnd (d : DacId) (s : State) : Host.Outcome State Fault Refusal :=
  let s := s.fresh
  let x := s.dac d
  .next (if x.rerange then
      s.setDac d { x with rerange := false, release := if x.needStrobe then none else some (s.now + 1600) }
    else s)

/-! ### Protection (R500 to R503) -/

/-- The level group that a channel's GROUP_SEL names. -/
def Store.groupSel (m : Store) (c : ChanId) : Nat :=
  (Store.val m (K.lb_GROUP_SEL (c / 32))).toNat / 4 ^ (c.val % 32) % 4

/-- The sites that a fault of a DAC concerns (R502). -/
def dacSites (s : State) (d : DacId) : SiteMask :=
  let gs := groupsOf s d
  allSites.foldl (fun m i =>
    if (s.chans i).any (fun c => c.val / 32 == dacBank d && gs.contains (Store.groupSel s.od c)) then m ||| oneSite i else m) 0

/-- LVL_COMPLIANCE: a current DAC outside compliance, or at or above 4.8 V, for 10 us (R500).
[DEDUCED, assumption 97] -/
def execLvlCompliance (d : DacId) (openLoad : Bool) (s : State) : Host.Outcome State Fault Refusal :=
  let s := s.fresh
  .next (if isCurrent d ∧ 10000 ≤ s.g (K.da_TARGET_I d) then
      if openLoad then (setStatusBit d 4 true (setStatusBit d 3 true s)).activate (Src.LVL_OPEN_LOAD d) (dacSites s d) 0
      else (setStatusBit d 3 true s).activate (Src.LVL_COMPLIANCE d) (dacSites s d) 0
    else s)

/-- LVL_OVERLOAD: a voltage DAC in current limit for 10 us (R501). -/
def execLvlOverload (d : DacId) (s : State) : Host.Outcome State Fault Refusal :=
  let s := s.fresh
  .next (if isCurrent d then s else (setStatusBit d 5 true s).activate (Src.LVL_OVERLOAD d) (dacSites s d) 0)

/-- LVL_DETECT_CLEAR: a condition absent for 10 us clears its bit: 0 COMPLIANCE, 1 OPEN_LOAD, 2 OVERLOAD (R500, R501). -/
def execLvlDetectClear (d : DacId) (which : Fin 3) (s : State) : Host.Outcome State Fault Refusal :=
  let s := s.fresh
  .next ((setStatusBit d (3 + which.val) false s).deactivate
    (match which with | 0 => Src.LVL_COMPLIANCE d | 1 => Src.LVL_OPEN_LOAD d | 2 => Src.LVL_OVERLOAD d))

/-- The sites with a channel in a bank. -/
def bankSites (s : State) (b : Nat) : SiteMask :=
  allSites.foldl (fun m i => if (s.chans i).any (fun c => c.val / 32 == b) then m ||| oneSite i else m) 0

/-- LVL_REF_FAULT: a bank's string reference leaves ±1 % of nominal, or is within it again (R503).
[DESIGN CHOICE, assumption 98] -/
def execLvlRefFault (b : BankId) (outside : Bool) (s : State) : Host.Outcome State Fault Refusal :=
  let s := s.fresh
  .next (if outside then (s.p (K.lb_REF_OK b) 0).activate (Src.LVL_REF_FAULT b) (bankSites s b) 0
         else (s.p (K.lb_REF_OK b) 1).deactivate (Src.LVL_REF_FAULT b))

/-! ### Park (R504 to R509) -/

/-- RANGE and the target of a DAC take their park values (R506 to R508); without a valid record, range 0 and target 0. -/
def parkValues (record : Bool) (d : DacId) (s : State) : State :=
  let v (k : Nat) : Int := if record then s.g k else 0
  ((s.p (K.da_RANGE d) (v (K.da_PARK_RANGE d))).p (K.da_TARGET_V d) (v (K.da_PARK_V d))).p (K.da_TARGET_I d) (v (K.da_PARK_I d))

/-- PARK_SOURCE shows whether the journal held a valid park record; the fault is raised where it did not (R506). -/
def parkSource (record : Bool) (s : State) : State :=
  if record then s.p K.ll_PARK_SOURCE 0 else (s.p K.ll_PARK_SOURCE 1).raise Src.LVL_PARK_DEFAULT

/-- Every DAC takes its park value and every bank a strobe, whatever its LOAD_MODE (R507, R508).
[DEDUCED, assumption 164] [DEDUCED, assumption 188] -/
def levelsToPark (record : Bool) (s : State) : State :=
  let s := allDacs.foldl (fun s (d : DacId) =>
    let r := s.g (K.da_RANGE d)
    let s := parkValues record d s
    formPending d (s.g (K.da_RANGE d) != r) s) s
  (List.range 8).foldl (fun s b => issueStrobe b s) s

/-- P3 loads the park record and enables the outputs (R505, R506); the string holds the codes, and no strobe is left to come. The
reference of a bank that has been reported outside stays so (R503).
[DEDUCED, assumption 164] -/
def levelsEnable (record : Bool) (s : State) : State :=
  let s := (List.range 8).foldl (fun (s : State) b => s.p (K.lb_REF_OK b) (b2i !(s.isActive (Src.LVL_REF_FAULT b)))) s
  let s := { s with lvl := { s.lvl with strobes := [] } }
  allDacs.foldl (fun s (d : DacId) =>
    let s := parkValues record d s
    let (c, cl) := dacCode s d
    let s := ((s.p (K.da_CODE d) c).p (K.da_PENDING d) c).p (K.da_STATUS d) (if cl then 4 else 0 : Nat)
    (s.setDac d { level := c }).emit (.dac d c)) s

/-- The level outputs stand at high impedance (R505).
[DEDUCED, assumption 164] -/
def levelsHiz (s : State) : Bool := statusBit s 0 6

/-- P3 restores the park record (R506): outputs that are high-impedance are enabled with it, and outputs that a reset has left on take
it with a strobe (R507). -/
def levelsPark (record : Bool) (s : State) : State :=
  let s := parkSource record s
  if levelsHiz s then levelsEnable record s else levelsToPark record s

end Sys2Proof.Machine
end

