-- ==== Sys2Proof/Machine/EvLog.lean ====
section
/-! DEFINITION. Device time, the event log (R663 to R665) and what the journal takes of objects that the device itself
writes. -/
namespace Sys2Proof.Machine
open Sys2Proof

/-- UTC_NOW: its last written value, or 0 at the start of bring-up, and the ms since. -/
def State.utc (s : State) : Nat := s.n K.utc_UTC_NOW + (s.now - s.mgmt.utcAt) / 800000

/-! ### Severity (R696) -/

/-- A severity rule: VALID, its range and its severity. -/
def ruleCovers (v src : Nat) : Bool := v.testBit 63 && decide (bits v 0 16 ≤ src) && decide (src ≤ bits v 16 16)

/-- The severity in force of a source: of the highest-numbered valid rule that covers it, else its default (R696). -/
def sevOf (s : State) (src : Nat) : Option Nat :=
  match ((List.range 64).reverse.find? (fun j => ruleCovers (s.n (K.fx_SEV_RULE j)) src)) with
  | some j => some (bits (s.n (K.fx_SEV_RULE j)) 32 3)
  | none => Src.dfltSev src

/-- Makes an event-log entry: it is on its way to the RAM buffer (R664).
[DEDUCED, assumption 155] -/
def State.logEv (s : State) (e : LogE) : State :=
  let e := { e with valid := s.b K.utc_UTC_SET, utc := s.utc, boot := if s.pwr.replayed then some (s.n K.mg_BOOTS) else none }
  { s with mgmt := { s.mgmt with logPend := s.mgmt.logPend ++ [e] } }

/-- An entry that a source causes carries the severity in force of the source (Table 15.4). -/
def State.logSrc (s : State) (e : LogE) : State := s.logEv { e with sev := (sevOf s e.source).getD 0 }

/-- The 64 bytes of an entry (Table 15.4). -/
def LogE.image (e : LogE) (seq : Nat) : List Byte :=
  let body := toBytes 60 (seq % 2 ^ 64 + 2 ^ 64 * (e.utc % 2 ^ 64) + 2 ^ 128 * e.source + 2 ^ 144 * e.sev + 2 ^ 148 * e.kind
    + 2 ^ 152 * b2n e.valid + 2 ^ 160 * (e.episode % 2 ^ 32) + 2 ^ 192 * (e.boot.getD 0 % 2 ^ 32) + 2 ^ 256 * (e.data % 2 ^ 192))
  body ++ toBytes 4 (crc32c body)

/-- Entries that the event-log ring of each die holds (R664). -/
def ringSize : Nat := 262144

/-- An event-log entry enters the RAM buffer with its SEQ, or is dropped when the buffer holds 1,024 (R663, R664). SEQ and BOOT are
restored by replay, so that an entry made before it waits for it. -/
def evlogEntry (s : State) : State :=
  match if s.pwr.replayed then s.mgmt.logPend else [] with
  | [] => s
  | e :: rest =>
    let s := { s with mgmt := { s.mgmt with logPend := rest } }
    if s.mgmt.logRam.length < 1024 then
      let seq := s.mgmt.logSeq
      let s := { s with mgmt := { s.mgmt with logRam := s.mgmt.logRam ++ [(seq, e.image seq)], logSeq := seq + 1 } }
      s.p K.ev_EVLOG_NEXT (seq + 1)
    else (s.sat32 K.ev_EVLOG_LOST).raise Src.EVLOG_LOST

/-- EVLOG_ENTRY. -/
def execEvlogEntry (s : State) : Host.Outcome State Fault Refusal :=
  s.served .mgmt (.evlogEntry) fun s =>
  .next (evlogEntry s.fresh)

/-- A die is in service (R666). -/
def norUp (s : State) : Bool := s.n K.nr_NOR_COPIES % 4 != 0

/-- Buffered entries, oldest first and at most n, are programmed into the ring of the dies in service; a full ring loses its oldest
(R664, R666). -/
def evlogProgram (n : Nat) (s : State) : State :=
  let n := if norUp s then n else 0
  let now := s.mgmt.logRam.take n
  let ring := now.foldl (fun m e => kput m e.1 e.2) s.mgmt.logRing
  let next := (ring.getLast?).elim 0 (fun e => e.1 + 1)
  let oldest := max (s.n K.ev_EVLOG_OLDEST) (next - ringSize)
  ({ s with mgmt := { s.mgmt with logRam := s.mgmt.logRam.drop n, logRing := ring.filter (fun e => decide (oldest ≤ e.1)) } }).p
    K.ev_EVLOG_OLDEST oldest

/-- A TXN or MARK record of the journal is due to be programmed. -/
def journalDue (s : State) : Bool :=
  s.dict.txns.toList.any (fun t => t.wait != .nothing) || s.dict.outs.any (fun t => t.wait != .nothing)

/-- A foreground NOR operation is counted against the background share (R43, R44). -/
def norFore (s : State) : State := { s with mgmt := { s.mgmt with norFg := min 7 (s.mgmt.norFg + 1), norBg := 0 } }

/-- EVLOG_PROGRAM: foreground NOR work, which comes after the journal's programs (R664, R678, R737). -/
def execEvlogProgram (n : Nat) (s : State) : Host.Outcome State Fault Refusal :=
  s.served .mgmt (.evlogProgram n) fun s => s.served .nor (.evlogProgram n) fun s =>
  let s := s.fresh
  .next (if journalDue s then s else norFore (evlogProgram n s))

/-- EVLOG_DATA: whole entries in SEQ order from the larger of EVLOG_FROM and EVLOG_OLDEST, at most 1,024 (R665). -/
def State.logData (s : State) : List Byte :=
  let from_ := max (s.n K.ev_EVLOG_FROM) (s.n K.ev_EVLOG_OLDEST)
  (((s.mgmt.logRing ++ s.mgmt.logRam).filter (fun e => decide (from_ ≤ e.1))).take 1024).flatMap (·.2)

/-! ### Encodings (Table 14.1) -/

/-- The size in bytes of a type with one size. -/
def tySize : Objects.Ty → Option Nat
  | .bool => some 1
  | .u n => some n
  | .i n => some n
  | .f32 => some 4
  | .str => none
  | .domain _ => none

/-- The value that bytes encode. -/
def valueOf (ty : Objects.Ty) (l : List Byte) : SVal :=
  match ty with
  | .i n => .num (toSigned n (leNat l))
  | .str => .bytes l
  | .domain _ => .bytes l
  | _ => .num (leNat l : Nat)

/-- The bytes that encode a value. -/
def imageOf (ty : Objects.Ty) (v : SVal) : List Byte :=
  match v with
  | .bytes l => l
  | .num x =>
    match tySize ty with
    | some n => toBytes n (toUnsigned n x)
    | none => []

/-! ### Journal records (R666 to R671) -/

/-- An entry of a TXN or CKPT record: its header, then the value padded to a multiple of 8 bytes (R669). -/
def entryBytes (e : Nat × SVal) : List Byte :=
  let v := match Objects.rowOf e.1 with | some r => imageOf r.ty e.2 | none => []
  toBytes 8 (e.1 / 256 % 65536 + e.1 % 256 * 2 ^ 16 + v.length * 2 ^ 32) ++ padTo ((v.length + 7) / 8 * 8) v

/-- The entries that a payload holds; none when a reserved bit is set or a value is cut short. -/
def recordEntries : Nat → List Byte → Option (KMap SVal)
  | 0, l => if l = [] then some [] else none
  | n + 1, l =>
    if l = [] then some []
    else
      let key := field l 0 2 * 256 + field l 2 1
      let len := field l 4 4
      let rest := l.drop 8
      if l.length < 8 ∨ field l 3 1 ≠ 0 ∨ rest.length < (len + 7) / 8 * 8 then none
      else
        match recordEntries n (rest.drop ((len + 7) / 8 * 8)), Objects.rowOf key with
        | some m, some r => some ((key, valueOf r.ty (rest.take len)) :: m)
        | m, _ => m

/-- TYPE (Table 15.6). -/
def JBody.type : JBody → Nat
  | .txn _ => 1 | .mark _ => 2 | .ckpt _ => 3 | .ckptEnd _ _ _ => 4 | .wipe => 5 | .wipeDone => 6

/-- The payload of a record of an epoch (R669); the places of a CKPT_END's fields are the model's.
[DESIGN CHOICE, assumption 244] -/
def JBody.payload (epoch : Nat) : JBody → List Byte
  | .txn e | .ckpt e => e.flatMap entryBytes
  | .mark j => toBytes 8 j
  | .ckptEnd n from_ wear => toBytes 16 (epoch % 2 ^ 32 + n % 2 ^ 32 * 2 ^ 32 + from_ * 2 ^ 64) ++ wear.flatMap (fun w => toBytes 12 (w.1 % 2 ^ 32 + w.2 * 2 ^ 32))
  | .wipe | .wipeDone => []

/-- The bytes of a record: the header of Table 15.6 and the payload (R668). -/
def JRec.image (r : JRec) : List Byte :=
  let p := r.body.payload r.epoch
  let h := toBytes 28 (0x4E524A4B + r.body.type * 2 ^ 32 + r.txn % 2 ^ 16 * 2 ^ 48 + r.jseq % 2 ^ 64 * 2 ^ 64 + p.length % 2 ^ 32 * 2 ^ 128
    + r.epoch % 2 ^ 32 * 2 ^ 160)
  h ++ toBytes 4 (crc32c (h ++ p)) ++ p

/-- What a payload of a TYPE holds. -/
def JBody.ofPayload (type : Nat) (p : List Byte) : Option JBody :=
  match type with
  | 1 => (recordEntries p.length p).map JBody.txn
  | 2 => if p.length = 8 then some (.mark (leNat p)) else none
  | 3 => (recordEntries p.length p).map JBody.ckpt
  | 4 => if p.length = 16 + 992 * 12 then
      some (.ckptEnd (field p 4 4) (field p 8 8) ((List.range 992).map (fun k => (field p (16 + 12 * k) 4, field p (20 + 12 * k) 8))))
    else none
  | 5 => if p = [] then some .wipe else none
  | 6 => if p = [] then some .wipeDone else none
  | _ => none

/-- The record that bytes hold: valid when MAGIC, CRC, LENGTH and the reserved bits are all correct (R670). -/
def recordOf (l : List Byte) : Option JRec :=
  let len := field l 16 4
  let p := (l.drop 32).take len
  if field l 0 4 = 0x4E524A4B ∧ field l 5 1 = 0 ∧ field l 24 4 = 0 ∧ p.length = len ∧ crc32c (l.take 28 ++ p) = field l 28 4 then
    (JBody.ofPayload (field l 4 1) p).map (fun b => { jseq := field l 8 8, epoch := field l 20 4, txn := field l 6 2, body := b })
  else none

/-- Bytes that an entry of a TXN or CKPT record takes (R669). -/
def entrySize (k : Nat) (v : SVal) : Nat :=
  8 + (match v with
    | .num _ => 8
    | .bytes l => (l.length + 7) / 8 * 8) + 0 * k

/-- Pages of 256 bytes that a record takes, from its header of 32 bytes (R668). -/
def JBody.pages (b : JBody) : Nat :=
  let pay := match b with
    | .txn e | .ckpt e => e.foldl (fun a x => a + entrySize x.1 x.2) 0
    | .mark _ => 8
    | .ckptEnd _ _ w => 16 + w.length * 12
    | .wipe | .wipeDone => 0
  (32 + pay + 255) / 256

/-- The ring sectors that k pages from a page on are the first to be programmed in, with the UTC of that (R675). -/
def stampSectors (m : KMap Nat) (utc page k : Nat) : KMap Nat :=
  let first := (page + 255) / 256
  (List.range ((page + k + 255) / 256 - first)).foldl (fun m i => kput m ((first + i) % 992) utc) m

/-- Appends a record to the journal on the dies in service; with none in service nothing can be written (R666, R668). -/
def State.append (s : State) (txn : Nat) (b : JBody) : State :=
  let c := s.n K.nr_NOR_COPIES
  let m := s.mgmt
  if norUp s then
    { s with mgmt := { m with
        journal := m.journal ++ [{ jseq := m.jseq, epoch := m.epoch, txn := txn, body := b, on0 := c.testBit 0, on1 := c.testBit 1, page := m.pages }]
        jseq := m.jseq + 1, pages := m.pages + b.pages, progAt := stampSectors m.progAt s.utc m.pages b.pages } }
  else s

/-- The object is a STR or a DOMAIN. -/
def isBytes (k : Nat) : Bool :=
  match Objects.rowOf k with
  | some r => (match r.ty with | .str => true | .domain _ => true | _ => false)
  | none => false

/-- The value of an object as the journal holds it. -/
def State.sval (s : State) (k : Nat) : SVal := if isBytes k then .bytes (s.blob k) else .num (s.g k)

/-- A TXN record with its mark: the persistent values of objects that the device itself has written (R670, R671).
[DESIGN CHOICE, assumption 138] -/
def State.persist (s : State) (keys : List Nat) : State :=
  let e := keys.foldl (fun m k => kput m k (s.sval k)) []
  let j := s.mgmt.jseq
  (s.append 0 (.txn e)).append 0 (.mark j)

end Sys2Proof.Machine
end

