-- ==== Sys2Proof/Machine/QueueBase.lean ====
section
/-! DEFINITION. Functions, sites and queue ranges of the host interface (R570, R580). -/
namespace Sys2Proof.Machine
open Sys2Proof

/-- A function is present: the PF, or an enabled VF (R570). -/
def State.fnOn (s : State) (f : FnId) : Bool := f.val == 0 || (s.host.vfEnable && decide ((f.val : Int) ≤ s.g K.pcie_NUM_VFS))

/-- The function that owns a site (R570). -/
def State.siteFn (s : State) (i : SiteId) : FnId :=
  let v := s.n (K.sf_SITE_FUNC i)
  if h : v < 33 then (if 1 ≤ v ∧ s.fnOn ⟨v, h⟩ then ⟨v, h⟩ else 0) else 0

/-- FN_SITES: the sites that a function owns (R570). -/
def State.fnSites (s : State) (f : FnId) : SiteMask :=
  allSites.foldl (fun m i => if s.siteFn i = f then m ||| oneSite i else m) 0

/-- First number of a site's queue range (R580). -/
def Store.queueBase (m : Store) (i : Nat) : Nat :=
  (List.range i).foldl (fun a j => a + (Store.val m (K.qp_QP_QUOTA j)).toNat) 0

/-- The site in whose range a queue number lies (R580). -/
def Store.queueSite (m : Store) (q : Nat) : Option SiteId :=
  allSites.find? (fun i => decide (Store.queueBase m i ≤ q) &&
    decide (q < Store.queueBase m i + (Store.val m (K.qp_QP_QUOTA i)).toNat))

/-- The site of a queue. -/
def State.queueSite (s : State) (q : Nat) : Option SiteId := Store.queueSite s.od q

/-- The ACTIVE queue of a type in a site's range, the lowest number. -/
def State.siteQueue (s : State) (i : SiteId) (ty : QType) : Option Nat :=
  ((s.host.queues.find? (fun e => e.2.typ == ty && e.2.st == .active && s.queueSite e.1 == some i))).map (·.1)

end Sys2Proof.Machine
end

