-- ==== Sys2Proof/Machine/Notify.lean ====
section
/-! DEFINITION. MSI-X vectors (R600) and the notifications of the field network (R643, R647). -/
namespace Sys2Proof.Machine
open Sys2Proof

/-! ### MSI-X -/

/-- Vectors of a function: 256 on the PF, 64 on a VF (Table 13.1). -/
def vectors (f : FnId) : Nat := if f.val = 0 then 256 else 64

/-- A vector is masked: by Function Mask, or by the vector control double word of its MSI-X table entry, whose mask bit is set at
reset (R600).
[PRESUMED, assumption 105] -/
def msixMasked (x : Fn) (v : Nat) : Bool := x.msixMask || (kgetD x.msix (4 * v + 3) 1#32).getLsbD 0

/-- A function signals a vector: at once when the vector is unmasked, otherwise it becomes pending. While MSI-X Enable is 0 the
function signals nothing (R600).
[PRESUMED, assumption 105] -/
def signal (f : FnId) (v : Nat) (s : State) : State :=
  let x := s.fnr f
  if vectors f ≤ v ∨ x.msixEnable = false then s
  else if msixMasked x v || x.d3hot then
    (if x.msixPend.contains v then s else s.setFn f { x with msixPend := x.msixPend ++ [v] })
  else s.emit (.msix f v)

/-- Pending vectors of a function that are no longer masked are signalled. -/
def signalPending (f : FnId) (s : State) : State :=
  let x := s.fnr f
  if x.d3hot || !x.msixEnable then s
  else
    let go := x.msixPend.filter (fun v => !msixMasked x v)
    (s.setFn f { x with msixPend := x.msixPend.filter (fun v => msixMasked x v) }).emits (go.map (fun v => .msix f v))

/-! ### Frames of the field network (Tables 14.7, 14.8) -/

/-- The fields of a service header. -/
structure Svc where
  /-- SERVICE -/
  service : Nat
  /-- INDEX -/
  index : Nat := 0
  /-- SUB -/
  sub : Nat := 0
  /-- APPLY -/
  apply : Nat := 0
  /-- TXN -/
  txn : Nat := 0
  /-- OFFSET -/
  offset : Nat := 0
  /-- STATUS -/
  status : Nat := 0
  /-- PARAM -/
  param : Nat := 0
  /-- TOTAL -/
  total : Nat := 0
  deriving DecidableEq, Repr

/-- The service header and data bytes. -/
def Svc.bytes (v : Svc) (data : List Byte) : List Byte :=
  toBytes 24 (v.service % 256 + v.index % 2 ^ 16 * 2 ^ 16 + v.sub % 256 * 2 ^ 32 + v.apply % 4 * 2 ^ 40 + v.txn % 2 ^ 16 * 2 ^ 48
    + v.offset % 2 ^ 32 * 2 ^ 64 + data.length % 2 ^ 16 * 2 ^ 96 + v.status % 2 ^ 16 * 2 ^ 112 + v.param % 2 ^ 32 * 2 ^ 128
    + v.total % 2 ^ 32 * 2 ^ 160) ++ data

/-- A KDP frame: its header, then what follows it. -/
def kdpFrame (typ dst src session seq retry : Nat) (body : List Byte) : List Byte :=
  toBytes 12 (1 + typ * 2 ^ 8 + dst % 256 * 2 ^ 16 + src % 256 * 2 ^ 24 + session % 2 ^ 16 * 2 ^ 32 + seq % 2 ^ 16 * 2 ^ 48
    + body.length % 2 ^ 16 * 2 ^ 64 + retry % 256 * 2 ^ 80) ++ body

/-- The port transmits: it has a node ID and bring-up has reached P6 (R641, R725).
[DEDUCED, assumption 121] [DEDUCED, assumption 145] -/
def State.portOn (s : State) : Bool := s.g K.net_NODE_ID != 0 && s.g K.bu_PHASE == 6

/-- The Ethernet address of a node: that of its last request, or broadcast.
[DESIGN CHOICE, assumption 242] -/
def nodeMac (s : State) (node : Nat) : BitVec 48 :=
  match kget? s.dict.clients node with
  | some c => c.mac
  | none => BitVec.allOnes 48

/-- Transmits the outstanding notification. -/
def sendNotif (n : Notif) (s : State) : State :=
  s.emit (.kdp (nodeMac s n.node) n.node (kdpFrame 3 n.node (s.n K.net_NODE_ID) 0 n.seq.toNat (n.tries - 1) n.body))

/-- The next waiting notification becomes the outstanding one and is transmitted for the first time. -/
def nextNotif (s : State) : State :=
  match s.dict.notif, s.dict.notifQ with
  | none, (node, body) :: rest =>
    if s.portOn then
      let n : Notif := { node := node, seq := s.dict.notifSeq, body := body }
      sendNotif n { s with dict := { s.dict with notif := some n, notifQ := rest, notifSeq := s.dict.notifSeq + 1 } }
    else s
  | _, _ => s

/-- A notification is lost (R647). -/
def notifLost (s : State) : State := (s.sat32 K.net_NOTIFY_LOST).raise Src.KDP_NOTIFY_LOST

/-- Sends a notification to a node, or lets it wait; one that finds 32 waiting is dropped (R647). A silent port sends
none (R641). -/
def notify (node : Nat) (body : List Byte) (s : State) : State :=
  if s.g K.net_NODE_ID = 0 then s
  else if 32 ≤ s.dict.notifQ.length then notifLost s
  else nextNotif { s with dict := { s.dict with notifQ := s.dict.notifQ ++ [(node, body)] } }

/-- An acknowledgement with the outstanding notification's SEQ ends it (R647). -/
def acked (seq : BitVec 16) (s : State) : State :=
  match s.dict.notif with
  | some n => if n.seq = seq then nextNotif { s with dict := { s.dict with notif := none } } else s
  | none => s

/-- ACK. -/
def execAck (seq : BitVec 16) (s : State) : Host.Outcome State Fault Refusal :=
  s.served .t1s (.ack seq) fun s =>
  .next (acked seq s.fresh)

/-- NOTIFY_REPEAT: the repeat interval of the outstanding notification ends; after its 8th transmission it is dropped
(R647).
[DEDUCED, assumption 145] -/
def execNotifyRepeat (s : State) : Host.Outcome State Fault Refusal :=
  s.served .t1s (.notifyRepeat) fun s =>
  let s := s.fresh
  .next (match s.dict.notif with
    | some n =>
      if n.tries < 8 then
        let n := { n with tries := n.tries + 1 }
        sendNotif n { s with dict := { s.dict with notif := some n } }
      else nextNotif (notifLost { s with dict := { s.dict with notif := none } })
    | none => s)

end Sys2Proof.Machine
end

