-- ==== Sys2Proof/Machine/Markers.lean ====
section
/-! DEFINITION. The marker unit (R213 to R217): marker states, the changes that frames order, and what they do at the
marker outputs. -/
namespace Sys2Proof.Machine
open Sys2Proof

/-- Site number of a value. -/
def siteNo (n : Nat) : SiteId := Fin.ofNat 32 n

/-- A site's own state for marker m; inactive while the last frame taken is a pad frame (R99, R215, R217). -/
def siteMark (s : State) (i : SiteId) (m : Nat) : Bool :=
  let x := s.site i
  !x.padNow && (x.mkSet ||| x.mkPulse).getLsbD m

/-- Marker m is active (R213, R215, R385). -/
def markerOn (s : State) (m : Nat) : Bool :=
  let num := s.n (K.mk_MK_SRC_NUM m)
  match s.n (K.mk_MK_SRC_KIND m) with
  | 1 => siteMark s (siteNo num) m
  | 2 => (s.n (K.ws_MK_NOW (num / 4))).testBit (num % 4)
  | 3 => allSites.any (fun i => (s.n (K.mk_MK_SRC_SITES m)).testBit i.val && siteMark s i m)
  | _ => false

/-- MK_STATE (6400h.04). -/
def markerBits (s : State) : Nat := (List.range 16).foldl (fun a m => if markerOn s m then a + 2 ^ m else a) 0

/-- The site may command marker m (R214). -/
def ownsMarker (s : State) (i : SiteId) (m : Nat) : Bool :=
  let num := s.n (K.mk_MK_SRC_NUM m)
  match s.n (K.mk_MK_SRC_KIND m) with
  | 1 => num == i.val
  | 3 => (s.n (K.mk_MK_SRC_SITES m)).testBit i.val
  | _ => false

/-- How long after a marker change its edge reaches the ball: MK_DELAY, realised as its largest multiple of 78,125 fs, and
SKEW_TRIM (R216, R558). -/
def markDelay (od : Store) (m : Nat) : Int := Store.val od (K.mk_MK_DELAY m) / 78125 * 78125 + Store.val od K.rd_SKEW_TRIM

/-- What the marker outputs do when the marker states change at a time after the run's origin (R216). -/
def markEdges (od : Store) (time : Int) (before after : State) : List Output :=
  (List.range 16).filterMap (fun m =>
    if markerOn before m = markerOn after m then none
    else some (.marker m (time + markDelay od m)
      (markerOn after m != (Store.val od (K.mk_MK_ACTIVE_LOW m) != 0))))

/-- A change of a site's marker states at a time, with what it does at the outputs. -/
def changeMarks (i : SiteId) (od : Store) (time : Int) (f : Site → Site) (s : State) : State :=
  let t := s.modSite i f
  t.emits (markEdges od time s t)

/-- The marker states of a site after one change. A pulse leaves a marker that the site has set as it was (R215).
[DESIGN CHOICE, assumption 199] -/
def MkChange.act (c : MkChange) (x : Site) : Site :=
  let one : BitVec 16 := 1#16 <<< c.m
  match c.op with
  | 1 => { x with mkSet := x.mkSet ||| one }
  | 2 => { x with mkSet := x.mkSet &&& ~~~one }
  | _ => { x with mkPulse := x.mkPulse &&& ~~~one }

/-- One change of a site's marker states takes place.
[DEDUCED, assumption 59] -/
def applyMk (i : SiteId) (s : State) (c : MkChange) : State :=
  let t := s.modSite i c.act
  if markerOn s c.m = markerOn t c.m then t
  else t.emit (.marker c.m (c.time + c.out.1) (markerOn t c.m != c.out.2))

/-- The changes that a site still holds and that meet a condition take place, in their order; the others are kept. -/
def flushMk (i : SiteId) (p : MkChange → Bool) (s : State) : State :=
  let l := (s.site i).mkPend
  (l.filter p).foldl (applyMk i) (s.modSite i (fun x => { x with mkPend := l.filter (fun c => !p c) }))

/-- The changes of every site that fall due by the present SCLK take place. -/
def dueMarks (s : State) : State := allSites.foldl (fun s i => flushMk i (fun c => decide (c.due ≤ s.now)) s) s

/-- A site's marker states become inactive at a time, once its last frame has left the balls (R217). -/
def dropMarks (i : SiteId) (time : Int) (s : State) : State :=
  changeMarks i s.od time (fun x => { x with mkSet := 0, mkPulse := 0, padNow := false })
    (s.modSite i (fun x => { x with mkPend := [] }))

end Sys2Proof.Machine
end

