-- ==== Sys2Proof/Machine/Segments.lean ====
section
/-! DEFINITION. The segment table and the segment commands that move no data (R61 to R68, R72, R365, R772; Table 2.4,
Table 13.9). -/
namespace Sys2Proof.Machine
open Sys2Proof

/-- Bytes of one item of a segment: a yealm or a granule (R61, R365). -/
def SegKind.itemSize (k : SegKind) : Nat := match k with | .vector => 4096 | .sample => 128

/-- Longest and shortest segment of a kind (R63). -/
def SegKind.lengths (k : SegKind) : Nat × Nat := match k with | .vector => (1, 536870912) | .sample => (4, 4194304)

/-- The lowest-numbered FREE entry of the segment table, given the entries in use from a number on. -/
def lowestFree {α : Type} : KMap α → Nat → Nat
  | [], k => k
  | (a, _) :: r, k => if a = k then lowestFree r (k + 1) else k

/-- Free bytes: what memory that nothing has written holds is open. -/
def freeData (n size : Nat) : List Byte := (List.range size).map (fun j => (Config.freeBytes n).getD j 0)

/-- A segment becomes FAILED from any state other than FREE, its references kept (R61, R72, R79, R390, R537). A migration in
progress ends with it, and its command completes with SEG_STATE.
[DESIGN CHOICE, assumption 219] -/
def failSeg (n : Nat) (s : State) : State :=
  match s.seg? n with
  | none => s
  | some x =>
    let s := s.setSeg n { x with st := .failed, moving := none }
    let s := { s with mem := { s.mem with movers := s.mem.movers.filter (fun m => m != .move n) } }
    match x.moving with
    | some (_, t) => s.complete t Status.SEG_STATE 0
    | none => s

/-- The DDR5 channel on which an item of a segment with home DEEP is stored: yealm i on channel (i + segment number) mod 4;
a granule lies in the 4 KiB block that holds it (R50).
[DEDUCED, assumption 192] -/
def ddrChannel (k : SegKind) (n item : Nat) : Fin 4 :=
  Fin.ofNat 4 ((match k with | .vector => item | .sample => item / 32) + n)

/-- Counts a corrected error of a stack (0 to 3) or deep-store channel (4 to 7); more than 100 in an hour raise the rate
source (Table 2.8). -/
def correctable (u : Nat) (s : State) : State :=
  let l := (s.mem.ceAt.filter (fun e => decide (s.now < e.2 + 2880000000000))) ++ [(u, s.now)]
  let s := { s with mem := { s.mem with ceAt := l } }
  if 100 < (l.filter (fun e => e.1 == u)).length then
    s.raise (if u < 4 then Src.HBM_CE_RATE u else Src.DDR5_CE_RATE (u - 4))
  else s

/-- A corrected error that the mover met in an item of a deep segment: it is counted. -/
def moverCe (k : SegKind) (n : Nat) (c : MoverCheck) (s : State) : State :=
  match c with
  | .corrected item => correctable (4 + (ddrChannel k n item).val) (s.cnt64 K.ds_DDR5_CE)
  | _ => s

/-- An uncorrectable error that the mover met in an item of a deep segment: it is counted, the segment becomes FAILED, and
the source of its channel is raised for the sites named (R79). -/
def moverUe (k : SegKind) (n item : Nat) (sites : SiteMask) (s : State) : State :=
  (failSeg n (s.cnt64 K.ds_DDR5_UE)).report (Src.DDR5_UE (ddrChannel k n item)) sites 0

/-- SEG_ALLOC (R63). -/
def segAlloc (t : Tag) (kind : SegKind) (home : Tier) (len : Nat) (s : State) : State :=
  let x : Seg := { kind := kind, home := home, len := len, owner := t.fn }
  let n := lowestFree s.mem.segs 0
  if len < (SegKind.lengths kind).1 ∨ (SegKind.lengths kind).2 < len then s.refuse t Status.SEG_LENGTH
  else if home = .deep ∧ s.deepOn = false then s.refuse t Status.TIER_ABSENT
  else if 65536 ≤ n then s.refuse t Status.SEG_NO_ENTRY
  else if s.tierFree home < x.extents then s.refuse t Status.SEG_NO_SPACE
  else (s.setSeg n x).complete t Status.OK n

/-- SEG_ALLOC. -/
def execSegAlloc (t : Tag) (kind : SegKind) (home : Tier) (len : Nat) (s : State) : Host.Outcome State Fault Refusal :=
  s.queued t .timing (.segAlloc t kind home len) fun s =>
  .next (segAlloc t kind home len s.fresh)

/-- The check of one fed or written yealm in the order of R772: its owner, and what SITE_OCTETS and BEATS must be. -/
def yealmCheck (y : List Byte) (stream : Bool) (num : Nat) (fmt : Option (Nat × Nat)) (seq : Nat) : Nat :=
  if Yealm.magicOk y = false then Status.YEALM_MAGIC
  else if Yealm.crcOk y = false then Status.YEALM_CRC
  else if Yealm.formatOk y = false then Status.YEALM_FORMAT
  else if Yealm.stream y ≠ stream ∨ Yealm.number y ≠ num ∨
      (match fmt with | some f => decide ((Yealm.octets y, Yealm.beats y) ≠ f) | none => false) = true then
    Status.YEALM_FORMAT
  else if Yealm.seq y ≠ seq then Status.YEALM_SEQ
  else Status.OK

/-- Stores items from an index on; for a vector segment up to the first failing yealm (R64), whose index and status are
returned. -/
def storeItems (kind : SegKind) (num : Nat) : List (List Byte) → Nat → KMap (List Byte) → KMap (List Byte) × Option (Nat × Nat)
  | [], _, m => (m, none)
  | y :: r, i, m =>
    match kind with
    | .sample => storeItems kind num r (i + 1) (kput m i y)
    | .vector =>
      let st := yealmCheck y false num none i
      if st = Status.OK then storeItems kind num r (i + 1) (kput m i y) else (m, some (i, st))

/-- The items of a buffer. -/
def itemsOf (kind : SegKind) (count : Nat) (data : List Byte) : List (List Byte) :=
  (chunks (SegKind.itemSize kind) count data).map (padTo (SegKind.itemSize kind))

/-- The seal check of R65 and R365: the status and, on success, SITE_OCTETS and BEATS. -/
def sealCheck (x : Seg) : Nat × Nat × Nat :=
  if x.data.length < x.len then (Status.SEG_INCOMPLETE, 0, 0)
  else
    match x.kind with
    | .sample => (Status.OK, 0, 0)
    | .vector =>
      let y0 := kgetD x.data 0 []
      let f := (Yealm.octets y0, Yealm.beats y0)
      if x.data.all (fun e => Yealm.first e.2 == (e.1 == 0) && Yealm.last e.2 == (e.1 + 1 == x.len) &&
          (Yealm.octets e.2, Yealm.beats e.2) == f) then (Status.OK, f.1, f.2)
      else (Status.YEALM_FORMAT, 0, 0)

/-- SEG_SEAL (R65). -/
def segSeal (t : Tag) (n : SegId) (s : State) : State :=
  match s.seg? n with
  | none => s.refuse t Status.SEG_STATE
  | some x =>
    if x.st ≠ .opened then s.refuse t Status.SEG_STATE
    else
      let (st, o, b) := sealCheck x
      if st = Status.OK then (s.setSeg n { x with st := .inactive, octets := o, beats := b }).complete t Status.OK 0
      else s.refuse t st

/-- SEG_SEAL. -/
def execSegSeal (t : Tag) (n : SegId) (s : State) : Host.Outcome State Fault Refusal :=
  s.queued t .timing (.segSeal t n) fun s =>
  .next (segSeal t n s.fresh)

/-- SEG_UNSEAL (Table 2.4, R68). Table 2.4 names no refusal for a segment under migration.
[DESIGN CHOICE, assumption 196] -/
def segUnseal (t : Tag) (n : SegId) (s : State) : State :=
  match s.seg? n with
  | none => s.refuse t Status.SEG_STATE
  | some x =>
    if x.st = .active then s.refuse t Status.SEG_ACTIVE
    else if x.st ≠ .inactive ∨ x.moving.isSome then s.refuse t Status.SEG_STATE
    else (s.setSeg n { x with st := .opened }).complete t Status.OK 0

/-- SEG_UNSEAL. -/
def execSegUnseal (t : Tag) (n : SegId) (s : State) : Host.Outcome State Fault Refusal :=
  s.queued t .timing (.segUnseal t n) fun s =>
  .next (segUnseal t n s.fresh)

/-- SEG_FREE (Table 2.4, R61). -/
def segFree (t : Tag) (n : SegId) (s : State) : State :=
  match s.seg? n with
  | none => s.refuse t Status.SEG_BAD_NUMBER
  | some x =>
    if x.st = .active ∨ (x.st = .failed ∧ 0 < x.refs) then s.refuse t Status.SEG_ACTIVE
    else if x.moving.isSome then s.refuse t Status.SEG_STATE
    else (s.delSeg n).complete t Status.OK 0

/-- SEG_FREE. -/
def execSegFree (t : Tag) (n : SegId) (s : State) : Host.Outcome State Fault Refusal :=
  s.queued t .timing (.segFree t n) fun s =>
  .next (segFree t n s.fresh)

/-- The code of a segment state, in the order of Table 2.3; FREE is 0. -/
def SegSt.code (x : SegSt) : Nat := match x with | .opened => 1 | .inactive => 2 | .active => 3 | .failed => 4

/-- The 16 bytes of a SEG_QUERY answer (Table 13.9). -/
def segInfo (x : Option Seg) : List Byte :=
  match x with
  | none => List.replicate 16 0
  | some x =>
    toBytes 1 (SegSt.code x.st) ++
    toBytes 1 ((match x.kind with | .vector => 0 | .sample => 1) + (if x.moving.isSome then 128 else 0)) ++
    toBytes 1 (match x.home with | .hbm => 0 | .deep => 1) ++ toBytes 1 x.beats ++ toBytes 4 x.len ++
    toBytes 4 x.refs ++ toBytes 4 x.octets

/-- SEG_QUERY. -/
def execSegQuery (t : Tag) (n : SegId) (s : State) : Host.Outcome State Fault Refusal :=
  s.queued t .timing (.segQuery t n) fun s =>
  .next ((s.fresh.toHost t (segInfo (s.seg? n))).complete t Status.OK 0)

end Sys2Proof.Machine
end

