-- ==== Sys2Proof/Machine/Tmu.lean ====
section
/-! DEFINITION. Time-measurement units (chapter 9): arming, gates, edges, samples and statistics. -/
namespace Sys2Proof.Machine
open Sys2Proof

/-- A TMU's record. -/
def State.tmu (s : State) (u : TmuId) : Tmu := s.tmus[u]
/-- Replaces a TMU's record. -/
def State.setTmu (s : State) (u : TmuId) (x : Tmu) : State := { s with tmus := s.tmus.set u x }
/-- All TMUs. -/
def allTmus : List TmuId := List.finRange 10

namespace TS
/-- IDLE -/
abbrev idle : Nat := 0
/-- WAIT_CAL -/
abbrev waitCal : Nat := 1
/-- ARMED -/
abbrev armed : Nat := 2
/-- ACTIVE -/
abbrev active : Nat := 3
/-- DONE -/
abbrev done : Nat := 4
end TS

/-- STATE of a TMU (4840h.01). -/
def State.tst (s : State) (u : TmuId) : Nat := s.n (K.tt_STATE u)
/-- An arming of the TMU is in progress. -/
def State.tmuBusy (s : State) (u : TmuId) : Bool := decide (1 ≤ s.tst u) && decide (s.tst u ≤ 3)
/-- The owner site of a TMU, if a site owns it. -/
def State.tmuSite (s : State) (u : TmuId) : Option SiteId :=
  let o := s.n (K.tmo_OWNER u)
  if h : o < 32 then some ⟨o, h⟩ else none

/-- The stops of an INTERVAL sample whose KIND is not NONE; stop 0 alone in the other modes (R414, R419, R424). -/
def usedStops (s : State) (u : TmuId) : List Nat :=
  if s.n (K.tc_MODE u) = 0 then (List.range 8).filter (fun k => bits (s.n (K.tc_STOP_SRC u k)) 12 4 != 0) else [0]

/-- The result keys of one stop. -/
def stopKeys (u : TmuId) (k : Nat) : List Nat := (List.range 17).map (fun j => Objects.ob (0x4850 + 8 * u + k) (j + 1))
/-- The result keys of a TMU. -/
def resultKeys (u : TmuId) : List Nat := (List.range 8).flatMap (fun k => stopKeys u k)

/-- Sets a list of objects to 0. -/
def State.zero (s : State) (l : List Nat) : State := l.foldl (fun s k => s.p k 0) s

/-- SCLK of the first SCLK edge at or after a time of a site (R420). -/
def sclkFrom (s : State) (i : SiteId) (t : Int) : Nat := (((s.site i).origin : Int) + (t + 1249999) / 1250000).toNat

/-- The SCLK in which a gate opens at the reference plane; none while its frame is still to be taken (R416, R227). -/
def gateSclk (s : State) (g : Gate) : Option Nat := g.time.map (fun t => (((s.site g.site).origin : Int) + 6 + t / 1250000).toNat)

/-- What an unlock can still discard of the arming before: nothing where the new arming has cleared the results (R403, R410). -/
def undoKept (s : State) (u : TmuId) : Option (Nat × List (Nat × Int)) :=
  if s.b (K.tc_ACCUM u) then (s.tmu u).undo.map (fun q => (q.1, q.2.filter (fun e => e.1 != K.tt_SAMPLES_DONE u))) else none

/-- DENIED in SCLK: how long user armings have denied the bank's calibration its TMU (R468). -/
def deniedSclk (s : State) (b : BankId) : Nat := match (s.calBank b).deniedAt with | some t => s.now - t | none => 0

/-- The next block of a bank is one that a user arming waits for: calibration has work for the TMU, and it is the minimum share after
10 s of denial, or the block of a promoted bank after a completed user arming (R43, R44, R428).
[DEDUCED, assumption 210] -/
def blockFirst (s : State) (b : BankId) : Bool :=
  (s.calBank b).deniedAt.isSome && (decide (8000000000 ≤ deniedSclk s b) || (s.b (K.cb_PROMOTED b) && (s.calBank b).owed))

/-- Calibration that comes first takes its TMU before an arming does (R428).
[DEDUCED, assumption 210] -/
def yieldTmu (u : TmuId) (s : State) : State :=
  if h : u.val < 8 then
    if blockFirst s ⟨u, h⟩ then (s.p (K.tt_CAL_HOLD u) 1).setCalBank ⟨u, h⟩ { s.calBank ⟨u, h⟩ with firm := true } else s
  else s

/-- The effects of an arming's start (R410), in ARMED, or in WAIT_CAL while calibration holds the TMU or comes first (R427, R428). A
FREQUENCY gate begins at once (R420). -/
def tmuArm (u : TmuId) (s : State) : State :=
  let s := yieldTmu u s
  let s := s.zero [K.tt_SAMPLES_DONE u, K.tt_END_STATUS u, K.tt_OUT_OF_LIMITS u]
  let s := if s.b (K.tc_ACCUM u) then s else s.zero (resultKeys u)
  if s.b (K.tt_CAL_HOLD u) then
    ((s.sat32 (K.tt_CAL_WAITS u)).p (K.tt_STATE u) TS.waitCal).setTmu u { waitAt := s.now, undo := undoKept s u }
  else (s.p (K.tt_STATE u) TS.armed).setTmu u { startAt := s.now, undo := undoKept s u }

/-- The TMU in a site's slot, if the slot names one that the site owns (R405, R151). -/
def slotTmu (s : State) (i : SiteId) (slot : Nat) : Option TmuId :=
  let u := s.n (K.tl_SLOT i slot)
  if h : u < 10 then (if s.tmuSite ⟨u, h⟩ = some i then some ⟨u, h⟩ else none) else none

/-- The TMU stands in a slot of a site. -/
def inSlot (s : State) (i : SiteId) (u : TmuId) : Bool := (List.range 4).any (fun k => slotTmu s i k == some u)

/-- COND TMU_OUT and TMU_DONE of the owner site follow the end of an arming of a TMU in its slots (R413). -/
def tmuEndSeen (u : TmuId) (complete : Bool) (s : State) : State :=
  match s.tmuSite u with
  | none => s
  | some i =>
    if inSlot s i u then
      s.modSite i (fun x => { x with
        tmuOutOld := x.tmuOut
        tmuOut := if complete then s.b (K.tt_OUT_OF_LIMITS u) else x.tmuOut
        tmuEndAt := some s.now })
    else s

/-- A missed stop counts, and the first missed sample of an arming is raised (R417, Table 9.5). -/
def missStop (u : TmuId) (k : Fin 8) (s : State) : State :=
  let s := s.cnt32 (K.tv_MISSED (8 * u.val + k.val))
  let x := s.tmu u
  if x.raised then s else (s.setTmu u { x with raised := true }).raise (Src.TMU_MISSED u)

/-- Every used stop is missed. -/
def missAll (u : TmuId) (s : State) : State := (usedStops s u).foldl (fun s k => missStop u (Fin.ofNat 8 k) s) s

/-- A gate that is replaced or discarded is a missed sample of every used stop; the results show it with the next sample, or
with the end of the arming (R415, R417, R427, R433). -/
def skipGate (u : TmuId) (s : State) : State := s.setTmu u { s.tmu u with skips := (s.tmu u).skips + 1 }

/-- The gates skipped so far count. -/
def countSkips (u : TmuId) (s : State) : State :=
  let n := (s.tmu u).skips
  let s := s.setTmu u { s.tmu u with skips := 0 }
  (List.range n).foldl (fun s _ => missAll u s) s

/-- The gates that have opened in WAIT_CAL are discarded, each a missed sample of every used stop, and with the start gate the stop
gates of its sample (R427). -/
def waitGates (u : TmuId) (s : State) : State :=
  let x := s.tmu u
  let opened (g : Gate) : Bool := match gateSclk s g with | some n => decide (n < s.now) | none => false
  match x.gate with
  | some g =>
    if opened g then
      s.setTmu u { x with gate := none, stopGates := [], skips := x.skips + 1 + (x.stopGates.filter opened).length }
    else s
  | none => s

/-- The wait of an arming in WAIT_CAL ends; the longest is kept (R428). -/
def waitEnds (u : TmuId) (s : State) : State :=
  if s.tst u = TS.waitCal then
    let s := waitGates u s
    let wait : Int := ((s.now - (s.tmu u).waitAt : Nat) : Int) * 1250000
    if s.g (K.tt_CAL_WAIT_MAX u) < wait then s.p (K.tt_CAL_WAIT_MAX u) wait else s
  else s

/-- A completed user arming of a bank TMU is followed by a promoted block (Table 1.5).
[DEDUCED, assumption 210] -/
def oweBlock (u : TmuId) (s : State) : State :=
  if h : u.val < 8 then s.setCalBank ⟨u, h⟩ { s.calBank ⟨u, h⟩ with owed := true } else s

/-- An arming ends with an END_STATUS; the sample in progress is discarded. -/
def tmuEnd (u : TmuId) (status : Nat) (s : State) : State :=
  let s := countSkips u (waitEnds u s)
  let s := if status = 1 then oweBlock u s else s
  let s := (s.p (K.tt_STATE u) TS.done).p (K.tt_END_STATUS u) status
  tmuEndSeen u (status == 1) (s.setTmu u { undo := (s.tmu u).undo })

/-- A site leaves ARMED, RUNNING and PAUSED: every arming of its TMUs ends (R412). -/
def tmuSiteEnded (i : SiteId) (s : State) : State :=
  allTmus.foldl (fun s u => if s.tmuSite u = some i ∧ s.tmuBusy u then tmuEnd u 4 s else s) s

/-- The gate time of a frame for a source: the earliest strobe that the frame fires on the source's channel, or the
start of its first vector (R416). A channel of another site, or of none, fires no strobe in the frame. strobes gives, for a
vector of the frame and a channel, the used strobe times. -/
def gateTime (i : SiteId) (f : Frame) (strobes : Vec → ChanId → List Int) (src : Nat) : Int :=
  let kind := bits src 12 4
  let c : ChanId := Fin.ofNat 256 (bits src 0 8)
  let origin := f.start * 125
  let starts := f.vecs.foldl (fun (a : Int × List (Int × Vec)) v => (a.1 + f.g (K.ts_PERIOD (64 * i + v.tset)), a.2 ++ [(a.1, v)])) (origin, [])
  let ts := if (kind = 1 ∨ kind = 2) ∧ Store.hasChan f.od i c = true then starts.2.flatMap (fun p => (strobes p.2 c).map (· + p.1)) else []
  match ts with
  | [] => origin
  | a :: r => r.foldl min a

/-! ### Statistics (R422, R423) -/

/-- Rounds a quotient with halves away from zero (R402). -/
def roundDiv (a : Int) (b : Nat) : Int :=
  if 0 ≤ a then (2 * a + b) / (2 * b) else -((2 * (-a) + b) / (2 * b))

/-- LSB to fs (R402); units of 1/65,536 LSB in FREQUENCY mode (R423). -/
def lsbToFs (freq : Bool) (a : Int) (den : Nat) : Int :=
  roundDiv (a * 156250) (2048 * den * (if freq then 65536 else 1))

/-- The largest natural number whose square does not exceed n. -/
def isqrt (n : Nat) : Nat :=
  (List.range 160).foldl (fun r j => let c := r + 2 ^ (159 - j); if c * c ≤ n then c else r) 0

/-- The signed 128-bit number of two objects.
[DESIGN CHOICE, assumption 80] -/
def acc128 (lo : Nat) (hi : Int) : Int := hi * 2 ^ 64 + lo

/-- Recomputes the derived results of a stop (R423). -/
def derive (u : TmuId) (k : Fin 8) (s : State) : State :=
  let j := 8 * u.val + k.val
  let freq := s.n (K.tc_MODE u) = 2
  let n := s.n (K.tv_COUNT j)
  let s1 := acc128 (s.n (K.tv_S1_LO j)) (s.g (K.tv_S1_HI j))
  let s2 := s.n (K.tv_S2_LO j) + 2 ^ 64 * s.n (K.tv_S2_HI j)
  if n = 0 then s.zero [K.tv_MEAN j, K.tv_SDEV j, K.tv_MIN j, K.tv_MAX j, K.tv_LAST j]
  else
    let mean := lsbToFs freq (s.g (K.tv_FIRST_RAW j) * n + s1) n
    let num := n * s2 - (s1 * s1).toNat
    let den := n * (n - 1)
    let scale := 2048 * (if freq then 65536 else 1)
    let sdev : Int := if n = 1 then 0 else ((isqrt (4 * num * 156250 ^ 2 / (den * scale ^ 2)) + 1) / 2 : Nat)
    ((((s.p (K.tv_MEAN j) mean).p (K.tv_SDEV j) sdev).p (K.tv_MIN j) (lsbToFs freq (s.g (K.tv_MIN_RAW j)) 1)).p
      (K.tv_MAX j) (lsbToFs freq (s.g (K.tv_MAX_RAW j)) 1)).p (K.tv_LAST j) (lsbToFs freq (s.g (K.tv_LAST_RAW j)) 1)

/-- Adds an accepted value to a stop's statistics (R422).
[DESIGN CHOICE, assumption 80] -/
def addValue (u : TmuId) (k : Fin 8) (x : Int) (s : State) : State :=
  let j := 8 * u.val + k.val
  let n := s.n (K.tv_COUNT j)
  let firstSeen := n != 0 || s.n (K.tv_EXCLUDED j) != 0
  let s := if firstSeen then s else s.p (K.tv_FIRST_RAW j) x
  let d := x - s.g (K.tv_FIRST_RAW j)
  let s := s.p (K.tv_LAST_RAW j) x
  if d.natAbs < 2 ^ 47 then
    if n = 4294967295 then derive u k s
    else
      let s1 := acc128 (s.n (K.tv_S1_LO j)) (s.g (K.tv_S1_HI j)) + d
      let s2 := s.n (K.tv_S2_LO j) + 2 ^ 64 * s.n (K.tv_S2_HI j) + (d * d).toNat
      let s := ((((s.p (K.tv_COUNT j) (n + 1)).p (K.tv_S1_LO j) (s1 % 2 ^ 64)).p (K.tv_S1_HI j) (s1 / 2 ^ 64)).p
        (K.tv_S2_LO j) (s2 % 2 ^ 64 : Nat)).p (K.tv_S2_HI j) (s2 / 2 ^ 64 : Nat)
      let s := if n = 0 ∨ x < s.g (K.tv_MIN_RAW j) then s.p (K.tv_MIN_RAW j) x else s
      let s := if n = 0 ∨ s.g (K.tv_MAX_RAW j) < x then s.p (K.tv_MAX_RAW j) x else s
      derive u k s
  else derive u k (s.cnt32 (K.tv_EXCLUDED j))

/-- The SCLK in which the gate of the next FREQUENCY sample begins: not before its gate time (R420). -/
def nextStart (s : State) (x : Tmu) : Nat :=
  match x.nextGate with
  | some g => match g.time with
    | some t => max s.now (sclkFrom s g.site t)
    | none => s.now
  | none => s.now

/-- Samples that ended without a value, and rejected or completed ones, count in SAMPLES_DONE; the arming may end
(R411, R424), else the TMU takes edges of the next sample after an open time of at most 10 ns (R421).
[DESIGN CHOICE, assumption 209] -/
def sampleDone (u : TmuId) (s : State) : State :=
  let s := s.p (K.tt_SAMPLES_DONE u) (s.g (K.tt_SAMPLES_DONE u) + 1)
  let x := s.tmu u
  let s := (s.setTmu u { undo := x.undo, raised := x.raised, startAt := nextStart s x, gate := x.nextGate, stopGates := x.nextStops,
                         rearmAt := s.now + (s.drawn % 9).toNat }).advance
  if s.g (K.tt_SAMPLES_DONE u) < s.g (K.tc_SAMPLES u) then s.p (K.tt_STATE u) TS.armed
  else
    let out := s.b (K.tc_LIMIT_EN u) && (usedStops s u).any (fun k =>
      let j := 8 * u.val + k
      s.n (K.tv_COUNT j) == 0 || decide (s.g (K.tv_MEAN j) < s.g (K.tc_LIMIT_LO u)) ||
        decide (s.g (K.tc_LIMIT_HI u) < s.g (K.tv_MEAN j)))
    tmuEnd u 1 (s.p (K.tt_OUT_OF_LIMITS u) (b2i out))

/-! ### Commands -/

/-- The host's TMU command, by TMU_CMD or opcode 74h: the status it reports (R408). -/
def tmuHostCmd (arm : Bool) (u : TmuId) (s : State) : Nat × State :=
  if s.n (K.tmo_OWNER u) ≠ 0x80 then (Status.TMU_NOT_OWNER, s)
  else if arm then (if s.tmuBusy u then (Status.TMU_STATE, s) else (Status.OK, tmuArm u s))
  else (Status.OK, if s.tmuBusy u then tmuEnd u 2 s else s)

/-- Takes the first waiting TMUC command of a site with a given TOP code.
[DESIGN CHOICE, assumption 78] -/
def takeUnit (tmu : Bool) (i : SiteId) (code : Nat) (s : State) : Option (UnitCmd × State) :=
  match s.unitCmds.find? (fun c => c.tmu == tmu && c.site == i && c.code == code) with
  | none => none
  | some c => some (c, { s with unitCmds := s.unitCmds.erase c })

/-- A TMUC command registers at its TMU (R409): f acts where the TMU accepts it, and answers none where it is
discarded.
[DESIGN CHOICE, assumption 78] -/
def tmuc (code : Nat) (f : TmuId → UnitCmd → State → Option State) (i : SiteId) (s : State) : State :=
  match takeUnit true i code s with
  | none => s
  | some (c, s) =>
    match slotTmu s i c.unit with
    | none => s
    | some u =>
      match f u c s with
      | some s' => s'
      | none => s.sat32 (K.tt_CMD_IGNORED u)

/-- TMUC ARM (R409, R410, R427). -/
def execTmucArm (i : SiteId) (s : State) : Host.Outcome State Fault Refusal :=
  .next (s.fresh.timed (tmuc 1 (fun u _ s => if s.tmuBusy u then none else some (tmuArm u s)) i))

/-- TMUC START: opens the start gate of the sample, or of the next one while a sample is in progress, replacing a gate that took
no edge, which then counts as missed (R415, R417). -/
def execTmucStart (i : SiteId) (s : State) : Host.Outcome State Fault Refusal :=
  .next (s.fresh.timed (tmuc 2 (fun u c s =>
    if s.tmuBusy u && s.n (K.tc_GATE_MODE u) == 1 then
      let x := s.tmu u
      let g : Gate := { site := i, frame := c.frame }
      match x.start, x.gate, x.nextGate with
      | none, some _, _ => let s := skipGate u s
                           some (s.setTmu u { s.tmu u with gate := some g, stopGates := [] })
      | none, none, _ => some (s.setTmu u { x with gate := some g })
      | some _, _, some _ => let s := skipGate u s
                             some (s.setTmu u { s.tmu u with nextGate := some g, nextStops := [] })
      | some _, _, none => some (s.setTmu u { x with nextGate := some g })
    else none) i))

/-- TMUC STOP: opens the gate of the next used stop of the sample whose START came last; beyond the last used stop it is
discarded (R415). -/
def execTmucStop (i : SiteId) (s : State) : Host.Outcome State Fault Refusal :=
  .next (s.fresh.timed (tmuc 3 (fun u c s =>
    if s.tmuBusy u && s.n (K.tc_GATE_MODE u) == 1 then
      let x := s.tmu u
      let g : Gate := { site := i, frame := c.frame }
      let n := (usedStops s u).length
      if x.nextGate.isSome then
        (if x.nextStops.length < n then some (s.setTmu u { x with nextStops := x.nextStops ++ [g] }) else none)
      else if x.stopGates.length < n then some (s.setTmu u { x with stopGates := x.stopGates ++ [g] })
      else none
    else none) i))

/-- TMUC DISARM (R409, R411). -/
def execTmucDisarm (i : SiteId) (s : State) : Host.Outcome State Fault Refusal :=
  .next (s.fresh.timed (tmuc 4 (fun u _ s => if s.tmuBusy u then some (tmuEnd u 2 s) else none) i))

/-- The answer of the host's TMU command: a completion, or TMU_CMD_STATUS for a write of TMU_CMD. -/
def tmuAnswer (t : Option Tag) (r : Nat × State) : State :=
  match t with
  | some t => r.2.complete t r.1 0
  | none => r.2.p K.tk_TMU_CMD_STATUS r.1

/-- TMU_ARM: the host's ARM (R408). -/
def execTmuArm (t : Option Tag) (u : TmuId) (s : State) : Host.Outcome State Fault Refusal :=
  s.either t .timing (.tmuArm t u) fun s =>
  .next (tmuAnswer t (tmuHostCmd true u s.fresh))

/-- TMU_DISARM: the host's DISARM (R408). -/
def execTmuDisarm (t : Option Tag) (u : TmuId) (s : State) : Host.Outcome State Fault Refusal :=
  s.either t .timing (.tmuDisarm t u) fun s =>
  .next (tmuAnswer t (tmuHostCmd false u s.fresh))

/-! ### Edges -/

/-- The timestamp range: a 40-bit coarse counter of 2,048 codes. -/
def stampSpan : Int := 2048 * 2 ^ 40

/-- The interval from a start to a stop timestamp, over the coarse counter's wrap. -/
def interval (t0 t1 : Int) : Int := (t1 - t0) % stampSpan

/-- An element's entry for a fine code in TMU_LIN, in LSB: 9 tables of 2,048 entries of 4 bytes (R401, Table 10.12);
without a table the code itself. -/
def linOf (tab : List Byte) (elem : Fin 9) (code : Fin 2048) : Int :=
  let k := 2048 * elem.val + code.val
  if tab.length < 4 * (k + 1) then (code.val : Int) else (field tab (4 * k) 4 : Nat)

/-- KIND of a source code (Table 9.1). -/
def srcKind (src : Nat) : Nat := bits src 12 4
/-- The channel that a source code names. -/
def srcChan (src : Nat) : ChanId := Fin.ofNat 256 (bits src 0 8)

/-- The source code of an element: element 0 is the start element, 1 + k is stop k. -/
def elemSrc (s : State) (u : TmuId) (elem : Fin 9) : Nat :=
  if elem.val = 0 then s.n (K.tc_START_SRC u) else s.n (K.tc_STOP_SRC u (elem.val - 1))

/-- The path offset of an input kind, as it stands in TMU_LIN after the linearity tables, one signed entry of 4 bytes for each
kind in the order of Table 9.1 (R401, Table 10.1); 0 without one.
[DEDUCED, assumption 208] -/
def pathOf (tab : List Byte) (kind : Nat) : Int :=
  let k := 2048 * 9 + (kind - 1)
  if tab.length < 4 * (k + 1) then 0 else toSigned 4 (field tab (4 * k) 4)

/-- SCLK of the origin from which the times of a TMU count: its owner site's, or power-on. -/
def tmuOrigin (s : State) (u : TmuId) : Nat := match s.tmuSite u with | some i => (s.site i).origin | none => 0

/-- A lane of a channel changed to a level at a time, among changes recorded with their site's origin. -/
def laneChanged (s : State) (u : TmuId) (l : Site → List LoopE) (c : ChanId) (de level : Bool) (at_ : Int) : Bool :=
  match s.siteOf c with
  | none => false
  | some i =>
    let shift : Int := ((tmuOrigin s u : Int) - (s.site i).origin) * 1250000
    (l (s.site i)).any (fun e => e.chan == c && e.de == de && e.level == level && decide (e.time = at_ + shift))

/-- The direction of an edge in the level that a source code selects (R399), none where no such edge is there: a level at an
input ball after the options of R269 to R271, in near loopback the channel's own pad level, a driven level before its
inversions, or a differential level. rise is the edge's direction at the ball or pad, for a driven lane before inversion. -/
def edgeSeen (s : State) (u : TmuId) (src : Nat) (rise : Bool) (at_ : Int) : Option Bool :=
  let c := srcChan src
  match srcKind src with
  | 1 =>
    let cl := (bits src 10 2 == 1) != s.b (K.ch_CHCL_EXCHANGE c)
    let k := if cl then 3 else 2
    let inv := (s.n (K.ch_LANE_SWAP c)).testBit k != (s.n (K.ch_LANE_INV c)).testBit k
    if s.b (K.ch_LOOPBACK c) && !laneChanged s u Site.loop c cl rise at_ then none else some (rise != inv)
  | 2 => if laneChanged s u Site.driven c (bits src 10 2 == 3) rise at_ then some rise else none
  | 3 | 4 | 6 => some rise
  | 5 =>
    let p := Fin.ofNat 16 (bits src 0 8)
    let d := s.n (K.sp_SPAR_CHAN p)
    if d < 256 ∧ laneChanged s u Site.driven (Fin.ofNat 256 d) (bits src 10 2 == 3) rise at_ = true then some rise else none
  | _ => none

/-- An element's source has its active edge (R397, R399). -/
def edgeActive (s : State) (u : TmuId) (src : Nat) (rise : Bool) (at_ : Int) : Bool :=
  match edgeSeen s u src rise at_, bits src 8 2 with
  | some r, 0 => r
  | some r, 1 => !r
  | some _, _ => true
  | none, _ => false

/-- A FREQUENCY gate is open: from the SCLK edge at which it begins, for GATE_TIME (R420). -/
def freqOpen (s : State) (u : TmuId) (x : Tmu) (at_ : Int) : Bool :=
  let t : Int := ((x.startAt : Int) - tmuOrigin s u) * 1250000
  decide (t ≤ at_) && decide (at_ < t + s.n (K.tc_GATE_TIME u))

/-- A gate lets an edge through at or after its gate time; an edge before the gate's frame is taken does not pass. -/
def gateOpen (g : Gate) (at_ : Int) : Bool :=
  match g.time with
  | none => false
  | some t => decide (t ≤ at_)

/-- The start element may take an edge: under FREE, or at the start gate (R415). -/
def startReady (s : State) (u : TmuId) (x : Tmu) (at_ : Int) : Bool :=
  s.n (K.tc_GATE_MODE u) == 0 || (match x.gate with | some g => gateOpen g at_ | none => false)

/-- A stop's timestamp lies at or after the start's: no sample spans more than 100 s (R414, R429). -/
def notEarlier (t0 t1 : Int) : Bool := decide (interval t0 t1 ≤ 1310720000000000)

/-- Whether stop k, the j-th used stop, may take an edge (R414, R415). -/
def stopReady (s : State) (u : TmuId) (x : Tmu) (k : Nat) (at_ : Int) : Bool :=
  (usedStops s u).contains k && (kget? x.stops k).isNone && !x.missed.contains k &&
  (s.n (K.tc_GATE_MODE u) == 0 ||
    (match x.stopGates[(usedStops s u).idxOf k]? with
     | some g => gateOpen g at_
     | none => false))

/-- Every used stop has its edge or is missed. -/
def sampleFull (s : State) (u : TmuId) (x : Tmu) : Bool :=
  x.start.isSome && (usedStops s u).all (fun k => (kget? x.stops k).isSome || x.missed.contains k)

/-- The start element takes the first edge of a sample. -/
def startEdge (u : TmuId) (x : Tmu) (ts : Int) (s : State) : State :=
  (s.p (K.tt_STATE u) TS.active).setTmu u { x with start := some ts, startAt := s.now, edgeAt := s.now }

/-- An element captures an edge with timestamp ts in LSB at a time at_ in fs. Nothing is captured while the withy is unlocked,
nor in the time after a sample (R403, R421). -/
def tmuEdge (u : TmuId) (elem : Fin 9) (ts at_ : Int) (s : State) : State :=
  let x := s.tmu u
  if !(s.tst u == TS.armed || s.tst u == TS.active) || x.full || !s.b (K.tt_LOCKED u) || decide (s.now < x.rearmAt) then s
  else
    match s.n (K.tc_MODE u) with
    | 0 =>
      if elem = 0 then (if x.start.isNone && startReady s u x at_ then startEdge u x ts s else s)
      else
        let k := elem.val - 1
        if (match x.start with | some t0 => notEarlier t0 ts | none => false) && stopReady s u x k at_ then
          let y := { x with stops := kput x.stops k ts, edgeAt := s.now }
          s.setTmu u { y with full := sampleFull s u y }
        else s
    | 1 =>
      if elem ≠ 0 then s
      else if x.start.isNone then (if startReady s u x at_ then startEdge u x ts s else s)
      else
        s.setTmu u { x with edges := x.edges + 1, last := ts, edgeAt := s.now,
                            full := decide (s.n (K.tc_PERIOD_EDGES u) ≤ x.edges + 1) }
    | _ =>
      if elem ≠ 0 ∨ startReady s u x at_ = false ∨ freqOpen s u x at_ = false then s
      else
        let first := x.start.getD ts
        (s.p (K.tt_STATE u) TS.active).setTmu u
          { x with start := some first, edges := x.edges + 1, last := ts, edgeAt := s.now }

/-- The timestamp of an element's raw code: by its linearity table and the path offset of its source's kind (R401). -/
def timestamp (s : State) (u : TmuId) (elem : Fin 9) (coarse : BitVec 40) (fine : Fin 2048) : Int :=
  let tab := kgetD s.blobs (K.cb_TMU_LIN u) []
  2048 * (coarse.toNat : Int) + linOf tab elem fine - pathOf tab (srcKind (elemSrc s u elem))

/-- Ridge calibration uses the TMU: its edges are those of RIDGE_IN (R559). -/
def ridgeUses (s : State) (u : TmuId) : Bool := s.clk.ridgeCal && u == 8

/-- TMU_EDGE_CAPTURE: an edge at the ball or pad of an element's source, if it is the active one there (R399, R401). -/
def execTmuEdgeCapture (u : TmuId) (elem : Fin 9) (coarse : BitVec 40) (fine : Fin 2048) (rise : Bool) (at_ : Int) (s : State) :
    Host.Outcome State Fault Refusal :=
  .next (s.fresh.timed (fun s =>
    if edgeActive s u (elemSrc s u elem) rise at_ && !ridgeUses s u then tmuEdge u elem (timestamp s u elem coarse fine) at_ s else s))

/-- TMU_STOP_TIMEOUT: a used stop without its edge TIMEOUT after the start edge is missed; TIMEOUT also bounds a PERIOD
sample (R417). MISSED counts it when the sample completes (R418, R433). -/
def tmuStopTimeout (u : TmuId) (k : Fin 8) (s : State) : State :=
  let x := s.tmu u
  if s.tst u = TS.active ∧ x.start.isSome ∧ x.full = false ∧ s.n (K.tc_MODE u) ≤ 1 ∧
      (usedStops s u).contains k.val ∧ (kget? x.stops k).isNone ∧ x.missed.contains k.val = false ∧
      x.startAt + s.n (K.tc_TIMEOUT u) / 1250000 ≤ s.now then
    let y := { x with missed := x.missed ++ [k.val] }
    s.setTmu u { y with full := s.n (K.tc_MODE u) = 1 || sampleFull s u y }
  else s

/-- TMU_STOP_TIMEOUT. -/
def execTmuStopTimeout (u : TmuId) (k : Fin 8) (s : State) : Host.Outcome State Fault Refusal :=
  .next (s.fresh.timed (tmuStopTimeout u k))

/-- A FREQUENCY gate has begun: at once under FREE, at its gate time under GATED (R415, R420). -/
def freqBegun (s : State) (u : TmuId) (x : Tmu) : Bool :=
  s.n (K.tc_GATE_MODE u) == 0 || (match x.gate with | some g => g.time.isSome | none => false)

/-- FREQUENCY_GATE_END: the gate ends GATE_TIME after it began; with fewer than 2 edges the sample is missed (R420). -/
def frequencyGateEnd (u : TmuId) (s : State) : State :=
  let x := s.tmu u
  if (s.tst u = TS.armed ∨ s.tst u = TS.active) ∧ s.n (K.tc_MODE u) = 2 ∧ ridgeUses s u = false ∧ x.full = false ∧ freqBegun s u x ∧
      x.startAt + s.n (K.tc_GATE_TIME u) / 1250000 ≤ s.now then
    (s.p (K.tt_STATE u) TS.active).setTmu u { x with full := true, missed := if x.edges < 2 then [0] else x.missed }
  else s

/-- FREQUENCY_GATE_END. -/
def execFrequencyGateEnd (u : TmuId) (s : State) : Host.Outcome State Fault Refusal :=
  .next (s.fresh.timed (frequencyGateEnd u))

/-- The values of a full sample by stop. -/
def sampleValues (s : State) (u : TmuId) (x : Tmu) : List (Nat × Int) :=
  let t0 := x.start.getD 0
  match s.n (K.tc_MODE u) with
  | 0 => x.stops.map (fun e => (e.1, interval t0 e.2))
  | 1 => if x.missed.contains 0 then [] else [(0, interval t0 x.last)]
  | _ => if x.edges < 2 then [] else [(0, roundDiv (65536 * interval t0 x.last) (x.edges - 1))]

/-- The gates whose result QUAL tests: those of the elements whose source is LANE_IN (R418). -/
def testedGates (s : State) (u : TmuId) (x : Tmu) : List Gate :=
  (match x.gate with
   | some g => if bits (s.n (K.tc_START_SRC u)) 12 4 = 1 then [g] else []
   | none => []) ++
  (((usedStops s u).zip x.stopGates).filter (fun p => bits (s.n (K.tc_STOP_SRC u p.1)) 12 4 = 1)).map (·.2)

/-- The sample is accepted: QUAL ALL, or every tested channel passed (PASS) or failed (FAIL) in its frame (R418). -/
def sampleAccepted (s : State) (u : TmuId) (x : Tmu) : Bool :=
  match s.n (K.tc_QUAL u) with
  | 0 => true
  | q => (testedGates s u x).all (fun g => g.qual == some (some (q != 1)))

/-- What a sample that completes does to the results: an accepted one adds its values and counts its missed stops; a rejected
one counts in QUAL_REJECT of each used stop and adds nothing else (R417, R418, R422). -/
def sampleResults (u : TmuId) (x : Tmu) (s : State) : State :=
  if sampleAccepted s u x then
    let s := (sampleValues s u x).foldl (fun s v => addValue u (Fin.ofNat 8 v.1) v.2 s) s
    x.missed.foldl (fun s k => missStop u (Fin.ofNat 8 k) s) s
  else (usedStops s u).foldl (fun s k => s.cnt32 (K.tv_QUAL_REJECT (8 * u.val + k))) s

/-- TMU_SAMPLE_COMPLETE: the values of a full sample enter the results once every tested result is latched, and the
arming may end (R418, R422 to R425). -/
def tmuSampleComplete (u : TmuId) (s : State) : State :=
  let x := s.tmu u
  if s.tst u = TS.active ∧ x.full ∧ x.edgeAt + 12 ≤ s.now ∧
      (s.n (K.tc_QUAL u) = 0 ∨ (testedGates s u x).all (fun g => g.qual.isSome)) then
    let s := countSkips u s
    let old := (K.tt_SAMPLES_DONE u :: resultKeys u).map (fun k => (k, s.g k))
    let s := sampleResults u x s
    sampleDone u (s.setTmu u { s.tmu u with undo := some (x.edgeAt, old) })
  else s

/-- TMU_SAMPLE_COMPLETE. -/
def execTmuSampleComplete (u : TmuId) (s : State) : Host.Outcome State Fault Refusal :=
  .next (s.fresh.timed (tmuSampleComplete u))

/-- A TMU's master withy becomes unlocked: the arming ends UNLOCKED, and a sample with an edge in the last 16 SCLK is discarded
(R403); TMU_UNLOCK is raised unless the TMU is gated (R528).
[DEDUCED, assumption 81] -/
def tmuUnlock (u : TmuId) (s : State) : State :=
  let s := s.p (K.tt_LOCKED u) 0
  let s := if (s.n K.gt_GATE_EN).testBit (if u.val < 8 then 8 + u.val else 24 + u.val) then s.activate (Src.TMU_UNLOCK u) 0 0 else s
  let s :=
    match (s.tmu u).undo with
    | some (at_, old) =>
      if s.now ≤ at_ + 16 then
        (K.tt_SAMPLES_DONE u :: resultKeys u).foldl (fun (s : State) (k : Nat) => s.p k ((kget? old k).getD (s.g k))) s
      else s
    | none => s
  let y := s.tmu u
  let s := s.setTmu u { y with undo := none }
  if s.tmuBusy u then tmuEnd u 3 s else s

/-- TMU_UNLOCK. -/
def execTmuUnlock (u : TmuId) (s : State) : Host.Outcome State Fault Refusal := .next (s.fresh.timed (tmuUnlock u))

/-- The start of a FREQUENCY gate under GATED, where a frame opens it (R415, R420). -/
def freqStart (u : TmuId) (i : SiteId) (f : Frame) (x : Tmu) (g : Option Gate) (s : State) : Nat :=
  match g with
  | some y => if s.n (K.tc_MODE u) = 2 ∧ y.site = i ∧ y.frame = f.num then max x.startAt (sclkFrom s i (y.time.getD 0)) else x.startAt
  | none => x.startAt

/-- Frame-take hook: the gates that the frame opens learn their gate time (R416). -/
def tmuFrameTaken (i : SiteId) (f : Frame) (strobes : Vec → ChanId → List Int) (s : State) : State :=
  let fix (src : Nat) (g : Gate) : Gate :=
    if g.site = i ∧ g.frame = f.num ∧ g.time.isNone then { g with time := some (gateTime i f strobes src) } else g
  allTmus.foldl (fun s u =>
    let x := s.tmu u
    if x.gate.isNone && x.stopGates.isEmpty && x.nextGate.isNone then s
    else
      let srcs := (usedStops s u).map (fun k => s.n (K.tc_STOP_SRC u k))
      let g := x.gate.map (fix (s.n (K.tc_START_SRC u)))
      s.setTmu u { x with gate := g
                          startAt := freqStart u i f x g s
                          nextGate := x.nextGate.map (fix (s.n (K.tc_START_SRC u)))
                          nextStops := (x.nextStops.zip srcs).map (fun p => fix p.2 p.1)
                          stopGates := (x.stopGates.zip srcs).map (fun p => fix p.2 p.1) }) s

/-- Compare hook: the gates of the frame learn the latched result of their source's channel (R418). -/
def tmuFrameResults (i : SiteId) (num : Nat) (result : ChanId → Option Bool) (s : State) : State :=
  let fix (src : Nat) (g : Gate) : Gate :=
    if g.site = i ∧ g.frame = num then { g with qual := some (result (Fin.ofNat 256 (bits src 0 8))) } else g
  allTmus.foldl (fun s u =>
    let x := s.tmu u
    if x.gate.isNone && x.stopGates.isEmpty && x.nextGate.isNone then s
    else
      let srcs := (usedStops s u).map (fun k => s.n (K.tc_STOP_SRC u k))
      s.setTmu u { x with gate := x.gate.map (fix (s.n (K.tc_START_SRC u)))
                          nextGate := x.nextGate.map (fix (s.n (K.tc_START_SRC u)))
                          nextStops := (x.nextStops.zip srcs).map (fun p => fix p.2 p.1)
                          stopGates := (x.stopGates.zip srcs).map (fun p => fix p.2 p.1) }) s

end Sys2Proof.Machine
end

