-- ==== Sys2Proof/Machine/Wave.lean ====
section
/-! DEFINITION. Waveform engines (chapter 8): commands, granule boundaries, synthesis and sample playback. -/
namespace Sys2Proof.Machine
open Sys2Proof

/-- An engine's record. -/
def State.eng (s : State) (e : EngId) : Eng := s.engs[e]
/-- Replaces an engine's record. -/
def State.setEng (s : State) (e : EngId) (x : Eng) : State := { s with engs := s.engs.set e x }
/-- All engines. -/
def allEngs : List EngId := List.finRange 8

namespace WS
/-- IDLE -/
abbrev idle : Nat := 0
/-- DEAD -/
abbrev dead : Nat := 1
/-- PLAYING -/
abbrev playing : Nat := 2
/-- WAITING -/
abbrev waiting : Nat := 3
/-- ENDED -/
abbrev ended : Nat := 4
/-- FAULTED -/
abbrev faulted : Nat := 5
end WS

/-- WF_STATE (4420h.01). -/
def State.wst (s : State) (e : EngId) : Nat := s.n (K.ws_WF_STATE e)
/-- The site of an engine, if any (R349). -/
def State.engSite (s : State) (e : EngId) : Option SiteId :=
  let i := s.n (K.wc_WF_SITE e)
  if h : i < 32 then some ⟨i, h⟩ else none
/-- The mask of an engine's site, which a SITE_STOP of its sources names (R393). -/
def engMask (s : State) (e : EngId) : SiteMask := match s.engSite e with | some i => oneSite i | none => 0
/-- A source of an engine is recorded in LAST_WF_FAULT and raised for its site (Table 8.8, R393). -/
def wFault (e : EngId) (src : Nat) (s : State) : State := (s.p (K.ws_LAST_WF_FAULT e) src).report src (engMask s e) 0
/-- Whether boundaries come: DEAD, PLAYING or WAITING. -/
def wAlive (s : State) (e : EngId) : Bool := decide (1 ≤ s.wst e) && decide (s.wst e ≤ 3)
/-- Rate divider D (R351). -/
def wdiv (s : State) (e : EngId) : Nat := 2 ^ s.n (K.wc_RATE_DIV e)

/-! ### Steps (Table 8.3) -/
namespace Step
/-- Bits of a step. -/
def f (w : BitVec 128) (lo len : Nat) : Nat := (w.extractLsb' lo len).toNat
/-- KIND: 0 EMPTY, 1 DDS, 2 SAMPLE, 3 IDLE -/
def kind (w : BitVec 128) : Nat := f w 126 2
/-- LAST -/
def last (w : BitVec 128) : Bool := w.getLsbD 125
/-- HEAD -/
def head (w : BitVec 128) : Bool := w.getLsbD 124
/-- WAITSRC -/
def waitsrc (w : BitVec 128) : Nat := f w 122 2
/-- WAITEVT -/
def waitevt (w : BitVec 128) : Nat := f w 118 4
/-- JMODE -/
def jmode (w : BitVec 128) : Nat := f w 116 2
/-- JEVT_EN -/
def jevtEn (w : BitVec 128) : Bool := w.getLsbD 115
/-- JEVT -/
def jevt (w : BitVec 128) : Nat := f w 111 4
/-- JTGT -/
def jtgt (w : BitVec 128) : Nat := f w 97 14
/-- NEXT -/
def next (w : BitVec 128) : Nat := f w 83 14
/-- REPEAT -/
def rep (w : BitVec 128) : Nat := f w 67 16
/-- MKACT -/
def mkact (w : BitVec 128) : Nat := f w 59 8
/-- PHMODE -/
def phmode (w : BitVec 128) : Bool := w.getLsbD 58
/-- FIDX -/
def fidx (w : BitVec 128) : Nat := f w 46 12
/-- PIDX -/
def pidx (w : BitVec 128) : Nat := f w 34 12
/-- AIDX -/
def aidx (w : BitVec 128) : Nat := f w 22 12
/-- SEG -/
def seg (w : BitVec 128) : Nat := f w 43 16
/-- OFFSET -/
def offset (w : BitVec 128) : Nat := f w 22 21
/-- LEN -/
def len (w : BitVec 128) : Nat := f w 0 22
end Step

/-- A step of an engine; an unwritten step is all zeros, that is EMPTY. -/
def Eng.step (x : Eng) (k : Nat) : BitVec 128 := kgetD x.steps k 0

/-- Play length in granules: LEN, or to the segment's end (R369). -/
def playLen (s : State) (w : BitVec 128) : Nat :=
  if Step.kind w = 2 ∧ Step.len w = 0 then
    match s.seg? (Step.seg w) with
    | some g => g.len - Step.offset w
    | none => 0
  else Step.len w

/-! ### The sine stage (R360, R361) -/

/-- 2^40: the unit of the fixed-point sine. -/
def one40 : Int := 2 ^ 40

/-- The sine of the first quarter turn at p / 2^18 of it, in units of 2^-40, by the series to the 13th power. -/
def sinQuarter (p : Nat) : Int :=
  let x : Int := (1727108826179 * p) / 2 ^ 18
  let x2 := x * x / one40
  let t3 := x * x2 / one40 / 6
  let t5 := t3 * x2 / one40 / 20
  let t7 := t5 * x2 / one40 / 42
  let t9 := t7 * x2 / one40 / 72
  let t11 := t9 * x2 / one40 / 110
  let t13 := t11 * x2 / one40 / 156
  x - t3 + t5 - t7 + t9 - t11 + t13

/-- sin(2π p / 2^20) in units of 2^-40.
[DESIGN CHOICE, assumption 73] -/
def sinTurn (p : Nat) : Int :=
  let q := p % 2 ^ 18
  match p / 2 ^ 18 % 4 with
  | 0 => sinQuarter q
  | 1 => sinQuarter (2 ^ 18 - q)
  | 2 => -sinQuarter q
  | _ => -sinQuarter (2 ^ 18 - q)

/-- A value held within 2^k of another. -/
def within (k : Nat) (a v : Int) : Int := max (a - 2 ^ k) (min v (a + 2 ^ k))

/-- Point k of the sine table of 4,096 points, with an error that the manual leaves open (R360).
[DESIGN CHOICE, assumption 73] -/
def sinePoint (k : Nat) : Int :=
  sinTurn (256 * k) + max (2 ^ 19 - 2 ^ 23) (min (Config.sineError (k % 4096)) (2 ^ 23 - 2 ^ 19))

/-- S(p) in units of 2^-40: linear interpolation over the low 8 bits of p between two points of the table, within 2^-17 of
the sine (R360).
[DESIGN CHOICE, assumption 73] -/
def sineStage (p : Nat) : Int :=
  let l : Int := (p % 256 : Nat)
  within 23 (sinTurn p) ((sinePoint (p / 256) * (256 - l) + sinePoint (p / 256 + 1) * l) / 256)

/-- The DDS play word of a phase P with phase offset and amplitude entries (R360, R361). -/
def ddsWord (phase phi amp : Nat) : Int :=
  roundDiv (32767 * amp * sineStage ((phase + 2 ^ 28 * phi) % 2 ^ 48 / 2 ^ 28)) (262144 * 2 ^ 40)

/-- Sample k of a granule of 128 bytes. -/
def granuleSample (g : List Byte) (k : Nat) : Int := toSigned 2 (field g (2 * k) 2)

/-! ### Output (R352 to R355, R357) -/

/-- OUT_CODING, PARK_WORD and DC_OFFSET for a word handed over in an SCLK (R357).
[DEDUCED, assumption 74] -/
def engCfg (s : State) (e : EngId) (t : Int) : Nat × Nat × Int :=
  match (s.eng e).cfgOld.find? (fun c => decide (t < c.1 + 8)) with
  | some (_, c, p, d) => (c, p, d)
  | none => (s.n (K.wc_OUT_CODING e), s.n (K.wc_PARK_WORD e), s.g (K.wc_DC_OFFSET e))

/-- PARK_WORD for a word handed over in an SCLK. -/
def parkAt (s : State) (e : EngId) (t : Int) : BitVec 16 := BitVec.ofNat 16 (engCfg s e t).2.1

/-- Length of an engine's sample slot in fs (R351). -/
def slotLen (s : State) (e : EngId) : Nat := 78125 * wdiv s e

/-- The SCLK in which the word of a time after the run's origin of an engine's site is handed over (R353). -/
def handSclk (s : State) (e : EngId) (t : Int) : Int :=
  (match s.engSite e with | some i => ((s.site i).origin : Int) | none => 0) + t / 1250000

/-- The sample slot of a grid that holds a time. -/
def waveSlot (s : State) (e : EngId) (ts t : Int) : Nat := ((t - ts) / (slotLen s e : Nat)).toNat

/-- The entry of a slot in lists of 64 by granule. -/
def slotIn {α : Type} (m : KMap (List α)) (k : Nat) : Option α := (kget? m (k / 64)).bind (fun l => l[k % 64]?)

/-- The play word of an engine in the sample slot that holds a time, when it plays DDS or SAMPLE there. -/
def playWordAt (s : State) (e : EngId) (t : Int) : Option Int :=
  match (s.eng e).ts with
  | none => none
  | some ts => if t < ts then none else slotIn (s.eng e).play (waveSlot s e ts t)

/-- Codes a word (R354). -/
def codeWord (coding : Nat) (v : Int) : BitVec 16 :=
  let w := BitVec.ofInt 16 v
  if coding = 1 then w ^^^ 0x8000#16 else w

/-- One output word: the engine's play word with the play words that the engines of its sum hold at the slot's start, clamped and
coded; whether the clamp acted (R354).
[DESIGN CHOICE, assumption 225] -/
def sumWord (s : State) (e : EngId) (cfg : Nat × Nat × Int) (t : Int) (w : Int) : BitVec 16 × Bool :=
  let others := (allEngs.filter (fun j => (s.n (K.wc_SUM_MASK e)).testBit j.val)).filterMap (fun j => playWordAt s j t)
  let v := others.foldl (· + ·) (w + cfg.2.2)
  let c := max (-32768) (min v 32767)
  (codeWord cfg.1 c, c != v)

/-- The output word of slot k of the grid with origin ts, and whether its clamp acts (R354). -/
def slotWord (s : State) (e : EngId) (ts : Int) (k : Nat) : BitVec 16 × Bool :=
  let t := ts + (slotLen s e * k : Nat)
  let cfg := engCfg s e (handSclk s e t)
  match slotIn (s.eng e).play k with
  | some w => sumWord s e cfg t w
  | none => (BitVec.ofNat 16 cfg.2.1, false)

/-- A clamped slot counts, and raises WF_CLIP when none was raised in the second before it (R355).
[DEDUCED, assumption 200] -/
def clipAct (e : EngId) (at_ : Nat) (s : State) : State :=
  let s := s.cnt64 (K.ws_CLIP_COUNT e)
  let y := s.eng e
  if (match y.clipAt with | some t => decide (t + 800000000 ≤ at_) | none => true) then
    wFault e (Src.WF_CLIP e) (s.setEng e { y with clipAt := some at_ })
  else s

/-- Sample slots of the grid with origin ts whose words are handed over by the end of the present SCLK. -/
def slotsDue (s : State) (e : EngId) (ts : Int) : Nat :=
  let origin : Int := match s.engSite e with | some i => ((s.site i).origin : Int) | none => 0
  let l : Int := (slotLen s e : Nat)
  ((((s.now : Int) + 1 - origin) * 1250000 - ts + l - 1) / l).toNat

/-- An engine hands over the words of the present SCLK; CLIP_COUNT counts once for each slot of its grid (R353 to R355).
[DEDUCED, assumption 200] -/
def handOver (e : EngId) (s : State) : State :=
  let x := s.eng e
  match x.ts with
  | none => s
  | some ts =>
    let upTo := min (64 * x.gran) (slotsDue s e ts)
    let ks := (List.range (upTo - x.done)).map (· + x.done)
    if ks.isEmpty then s
    else
      let ws := ks.map (fun k => (k, slotWord s e ts k))
      let words := ws.foldl (fun m q => kput m (q.1 / 64) (kgetD m (q.1 / 64) [] ++ [q.2.1])) x.words
      let s := (s.setEng e { x with done := upTo, words := words }).emit (.wave e x.done (ws.map (fun q => q.2.1)))
      (ws.filter (fun q => q.2.2)).foldl (fun s q => clipAct e (handSclk s e (ts + (slotLen s e * q.1 : Nat))).toNat s) s

/-- Every engine hands over the words of the present SCLK. -/
def handOvers (s : State) : State := allEngs.foldl (fun s e => handOver e s) s

/-- The word that an engine output at a time before its last START: of the grid that stood then, PARK_WORD where none did. -/
def earlierWord (s : State) (e : EngId) (t : Int) (park : BitVec 16) : BitVec 16 :=
  match (s.eng e).before.find? (fun q => decide (q.1 ≤ t)) with
  | some q => (slotIn q.2 (waveSlot s e q.1 t)).getD park
  | none => park

/-- The word that an engine outputs at a time (R289, R352): PARK_WORD before T_s and wherever no granule runs; none while it
has not been handed over. -/
def waveWord (s : State) (e : EngId) (t : Int) : Option (BitVec 16) :=
  let x := s.eng e
  let at_ := handSclk s e t
  let park := parkAt s e at_
  let active := match s.engSite e with | some i => s.active i | none => false
  if (s.now : Int) ≤ at_ then (if active then none else some park)
  else
    match x.ts with
    | some ts =>
      if ts ≤ t then
        let k := waveSlot s e ts t
        match slotIn x.words k with
        | some w => some w
        | none => if wAlive s e && decide (x.gran ≤ k / 64) then none else some park
      else some (earlierWord s e t park)
    | none => some (earlierWord s e t park)

/-- The bit of an engine's word at a time. -/
def waveBit (s : State) (e : EngId) (k : Nat) (t : Int) : Option Bool := (waveWord s e t).map (fun w => w.getLsbD k)

/-! ### State changes -/

/-- Enters a state without a play: markers inactive except in WAITING (Table 8.5). -/
def wEnter (e : EngId) (st : Nat) (s : State) : State :=
  let s := s.p (K.ws_WF_STATE e) st
  if st = WS.waiting then s else s.p (K.ws_MK_NOW e) 0

/-- The engine enters IDLE, ENDED or FAULTED: requests are gone, and no further word of the grid is handed over. -/
def wRest (e : EngId) (st : Nat) (s : State) : State :=
  let x := s.eng e
  wEnter e st (s.setEng e { x with jump := none, stopAt := none, flist := none, release := none, recovery := none,
                                   startFrame := none, dead := 0, done := 64 * x.gran })

/-- FAULTED with WF_SEQ_FAULT (R382). -/
def wSeqFault (e : EngId) (s : State) : State :=
  wFault e (Src.WF_SEQ_FAULT e) (wRest e WS.faulted s)

/-- A discarded command (R373). -/
def wIgnore (e : EngId) (s : State) : State :=
  wFault e (Src.WF_CMD_IGNORED e) (s.cnt32 (K.ws_CMD_IGNORED e))

/-- The lists that a boundary reads (R364).
[DEDUCED, assumption 74] -/
def effLists (s : State) (e : EngId) : WLists :=
  match (s.eng e).stages.find? (fun q => decide (s.now < q.1 + 8)) with
  | some (_, l) => l
  | none => (s.eng e).lists

/-- Marker k under a MKACT code at the start of a play (R385). -/
def mkStart (now act : Nat) : Nat :=
  (List.range 4).foldl (fun a k =>
    let act1 : Bool := match bits act (2 * k) 2 with | 0 => now.testBit k | 2 => false | _ => true
    a + b2n act1 * 2 ^ k) 0

/-- Begins a play of a step at the present boundary (R358, R359, R369, R385). An FLIST eligible here overrides FIDX
(R384); inside a recovery dead time none is (R389). -/
def wPlay (e : EngId) (k : Nat) (w : BitVec 128) (s : State) : State :=
  let x := s.eng e
  let l := effLists s e
  let fl : Option Nat := match x.flist with | some (i, r) => if x.recovery.isNone ∧ r + 8 ≤ s.now then some i else none | none => none
  let s := s.p (K.ws_MK_NOW e) (mkStart (s.n (K.ws_MK_NOW e)) (Step.mkact w) : Nat)
  let x := { x with pos := 0, len := playLen s w, release := none, prevAt := x.playAt, playAt := s.now }
  let s := (s.p (K.ws_WF_STATE e) WS.playing).p (K.ws_STEP e) k
  if Step.kind w = 1 then
    let f : Nat := match fl with | some i => kgetD l.f i 0 | none => kgetD l.f (Step.fidx w) 0
    (s.p (K.ws_F_NOW e) (f : Int)).setEng e { x with
      flist := if fl.isSome then none else x.flist
      phase := if Step.phmode w then 0 else x.phase
      phi := kgetD l.p (Step.pidx w) 0
      amp := kgetD l.a (Step.aidx w) 0 }
  else s.setEng e x

/-- Begins a step at the present boundary: as the target of a START or a jump (jumped), or as natural successor; a
target that is EMPTY, or a jump or START to a SAMPLE step without HEAD, is a sequence fault (R382); a step with WAITSRC
waits, unless TRIG_PENDING releases it (R374). -/
def wBegin (e : EngId) (k : Nat) (jumped : Bool) (s : State) : State :=
  let w := (s.eng e).step k
  if Step.kind w = 0 ∨ (jumped ∧ Step.kind w = 2 ∧ Step.head w = false) then wSeqFault e s
  else
    let s := (s.p (K.ws_STEP e) k).p (K.ws_PLAYS_LEFT e) (Step.rep w)
    let s := s.setEng e { s.eng e with succ := !jumped }
    if Step.waitsrc w = 0 then wPlay e k w s
    else if Step.waitsrc w = 1 ∧ s.b (K.ws_TRIG_PENDING e) then wPlay e k w (s.p (K.ws_TRIG_PENDING e) 0)
    else wEnter e WS.waiting (let x := s.eng e; s.setEng e { x with release := none, pos := 0, len := 0 })

/-- A request registered at r is eligible at a boundary in the present SCLK (R353). -/
def eligible (s : State) (r : Nat) : Bool := decide (r + 8 ≤ s.now)

/-- Takes the pending jump (R378). -/
def wTakeJump (e : EngId) (j : Jump) (s : State) : State :=
  let x := s.eng e
  let s := (s.setEng e { x with jump := none }).cnt32 (K.ws_JUMPS_TAKEN e)
  wBegin e j.target true (if j.late then s.cnt32 (K.ws_JUMPS_LATE e) else s)

/-- Discards the pending jump under JMODE NONE (R378). -/
def wDropJump (e : EngId) (s : State) : State :=
  let x := s.eng e
  (s.setEng e { x with jump := none }).cnt32 (K.ws_JUMPS_IGNORED e)

/-- The eligible pending jump, if any.
[DEDUCED, assumption 75] -/
def jumpDue (s : State) (e : EngId) : Option Jump :=
  match (s.eng e).jump with
  | some j => if eligible s j.at_ then some j else none
  | none => none

/-- The natural successor of the play that ends here (R369): a repetition, ENDED, or NEXT. A pending request that is
not yet eligible becomes late (R379).
[DEDUCED, assumption 75] -/
def wNatural (e : EngId) (w : BitVec 128) (s : State) : State :=
  let x := s.eng e
  let s := s.setEng e { x with jump := x.jump.map (fun j => { j with late := true }), succ := true }
  if 0 < s.n (K.ws_PLAYS_LEFT e) then
    wPlay e (s.n (K.ws_STEP e)) w (s.p (K.ws_PLAYS_LEFT e) (s.g (K.ws_PLAYS_LEFT e) - 1))
  else if Step.last w then wRest e WS.ended s
  else wBegin e (Step.next w) false s

/-- What a boundary decides in PLAYING (R377 to R381, R383, R389). -/
def wBoundaryPlaying (e : EngId) (s : State) : State :=
  let x := s.eng e
  let w := x.step (s.n (K.ws_STEP e))
  let atEnd := decide (x.len ≤ x.pos)
  let free := x.recovery.isNone
  if free && (match x.stopAt with | some r => eligible s r | none => false) then wRest e WS.idle s
  else
    match (if free then jumpDue s e else none) with
    | some j =>
      match Step.jmode w with
      | 0 => let s := wDropJump e s
             if atEnd then wNatural e w s else s
      | 1 => wTakeJump e j s
      | _ => if atEnd then wTakeJump e j s else s
    | none => if atEnd then wNatural e w s else s

/-- What a boundary decides in WAITING (R374, R378); nothing inside a recovery dead time (R380, R389). -/
def wBoundaryWaiting (e : EngId) (s : State) : State :=
  let x := s.eng e
  let k := s.n (K.ws_STEP e)
  let w := x.step k
  if x.recovery.isSome then s
  else if (match x.stopAt with | some r => eligible s r | none => false) then wRest e WS.idle s
  else
    let go := match x.release with | some r => eligible s r | none => false
    match jumpDue s e with
    | some j =>
      match Step.jmode w with
      | 0 => let s := wDropJump e s
             if go then wPlay e k w s else s
      | 1 => wTakeJump e j s
      | _ => if go then wPlay e k w s else s
    | none => if go then wPlay e k w s else s

/-- An FLIST due inside a DDS play changes F; due in a SAMPLE or IDLE play, in WAITING or in a dead time it is discarded
(R383, R384). -/
def wFlistDue (e : EngId) (s : State) : State :=
  let x := s.eng e
  match x.flist with
  | none => s
  | some (i, r) =>
    if eligible s r then
      let s' := s.setEng e { x with flist := none }
      if s.wst e = WS.playing ∧ Step.kind (x.step (s.n (K.ws_STEP e))) = 1 ∧ x.recovery.isNone then
        s'.p (K.ws_F_NOW e) (kgetD (effLists s e).f i 0 : Nat)
      else s'.cnt32 (K.ws_CMD_IGNORED e)
    else s

/-- A granule of 64 samples of a play: from the head that the engine holds, or from the segment (R369, R387). -/
def playGranule (s : State) (x : Eng) (k : Nat) (w : BitVec 128) (pos : Nat) : List Byte :=
  match (if Step.head w then (kget? x.heads k).bind (fun h => h[pos]?) else none) with
  | some g => g
  | none => match s.seg? (Step.seg w) with
    | some g => kgetD g.data (Step.offset w + pos) []
    | none => []

/-- The play words of the granule that begins: none outside DDS and SAMPLE plays and in a recovery dead time (R358 to R361,
R369, R389). -/
def granulePlay (s : State) (e : EngId) : List Int :=
  let x := s.eng e
  let f := s.n (K.ws_F_NOW e)
  let k := s.n (K.ws_STEP e)
  let w := x.step k
  if s.wst e = WS.playing ∧ x.recovery.isNone then
    match Step.kind w with
    | 1 => (List.range 64).map (fun i => ddsWord ((x.phase + i * f) % 2 ^ 48) x.phi x.amp)
    | 2 => let b := playGranule s x k w x.pos
           (List.range 64).map (fun i => granuleSample b i)
    | _ => []
  else []

/-- The granule that begins, and the engine after it: P advances by 64 F in every state from DEAD to WAITING (R358). -/
def wGranule (e : EngId) (s : State) : State :=
  let x := s.eng e
  let pw := granulePlay s e
  (s.p (K.ws_GRANULES e) (s.g (K.ws_GRANULES e) + 1)).setEng e { x with
    gran := x.gran + 1
    play := if pw.isEmpty then x.play else kput x.play x.gran pw
    phase := (x.phase + 64 * s.n (K.ws_F_NOW e)) % 2 ^ 48
    pos := if s.wst e = WS.playing then x.pos + 1 else x.pos
    recovery := x.recovery.map (· - 1) }

/-- Pulse markers end with the play's first granule (R385). -/
def wPulseEnd (e : EngId) (s : State) : State :=
  let x := s.eng e
  if s.wst e = WS.playing ∧ x.pos = 1 then
    let act := Step.mkact (x.step (s.n (K.ws_STEP e)))
    s.p (K.ws_MK_NOW e)
      ((List.range 4).foldl (fun a k => if (s.n (K.ws_MK_NOW e)).testBit k && bits act (2 * k) 2 != 3 then a + 2 ^ k else a) 0 : Nat)
  else s

/-- The boundary's decisions (R369, R377 to R384), then the granule that begins there. -/
def wBoundary (e : EngId) (s : State) : State :=
  let x := s.eng e
  match s.wst e with
  | 1 =>
    if x.dead = 0 then
      let s := if (match x.stopAt with | some r => eligible s r | none => false) then wRest e WS.idle s
               else match jumpDue s e with
                    | some j => wTakeJump e j s
                    | none => wBegin e x.target true s
      if s.wst e = WS.playing ∨ s.wst e = WS.waiting then wGranule e (wFlistDue e s) else s
    else wGranule e (wFlistDue e (s.setEng e { x with dead := x.dead - 1 }))
  | 2 =>
    let s := wBoundaryPlaying e (wPulseEnd e s)
    if s.wst e = WS.playing ∨ s.wst e = WS.waiting then wGranule e (wFlistDue e s) else s
  | 3 =>
    let s := wBoundaryWaiting e s
    if s.wst e = WS.playing ∨ s.wst e = WS.waiting then wGranule e (wFlistDue e s) else s
  | _ => s

/-- The objects 4420h of an engine, by subindex. -/
def engObjects (s : State) (e : EngId) : KMap Int := (List.range 15).map (fun k => (k + 1, s.g (Objects.ob (0x4420 + e.val) (k + 1))))

/-- The boundary that ends a recovery dead time of 256 samples is no longer inside it (R389). -/
def wRecovered (e : EngId) (s : State) : State :=
  let x := s.eng e
  if x.recovery = some 0 then s.setEng e { x with recovery := none } else s

/-- The objects 4420h of an engine read from now on as they stand at this boundary (R396). -/
def wSnap (e : EngId) (s : State) : State := s.setEng e { s.eng e with snap := engObjects s e }

/-- An engine that has a grid and neither plays nor waits reaches a boundary of it in the present SCLK. -/
def restBoundary (s : State) (e : EngId) : Bool :=
  match (s.eng e).ts with
  | some ts => !wAlive s e && decide (handSclk s e ts ≤ s.now) && decide (((s.now : Int) - handSclk s e ts) % (4 * wdiv s e : Nat) = 0)
  | none => false

/-- The grids of engines that neither play nor wait go on: their objects are read as they stand at the boundaries (R396). -/
def restSnaps (s : State) : State := allEngs.foldl (fun s e => if restBoundary s e then wSnap e s else s) s

/-- GRANULE_BOUNDARY: an engine on its grid reaches a boundary. Its markers change at the boundary's time (R386), and the
objects 4420h read from now on as they stand at it (R396). -/
def granuleBoundary (e : EngId) (s : State) : State :=
  let x := s.eng e
  match x.ts with
  | none => s
  | some ts =>
    let t := ts + (slotLen s e * 64 * x.gran : Nat)
    if wAlive s e = false ∨ (s.now : Int) < handSclk s e t then s
    else
      let u := wBoundary e (wRecovered e s)
      (wSnap e u).emits (markEdges u.od t s u)

/-- GRANULE_BOUNDARY. -/
def execGranuleBoundary (e : EngId) (s : State) : Host.Outcome State Fault Refusal :=
  .next (s.fresh.timed (granuleBoundary e))

/-! ### Commands (R373, R374, R377, R383) -/

/-- A registered WFE command acts on the engine it names, if that engine is assigned to the site (R349, R151). -/
def wfe (code : Nat) (f : EngId → UnitCmd → State → State) (i : SiteId) (s : State) : State :=
  match takeUnit false i code s with
  | none => s
  | some (c, s) =>
    let e : EngId := Fin.ofNat 8 c.unit
    if s.engSite e = some i then f e c s else s

/-- A jump request registers in SCLK r: it replaces a pending one; an event's request does not replace a sequencer's of the same
SCLK (R377). -/
def wRequest (e : EngId) (target : Nat) (seq : Bool) (r : Nat) (s : State) : State :=
  let x := s.eng e
  let put (s : State) : State := let y := s.eng e
                                 s.setEng e { y with jump := some { target := target, at_ := r, seq := seq } }
  match x.jump with
  | none => put s
  | some j =>
    let s := s.cnt32 (K.ws_JUMPS_REPLACED e)
    if !seq && j.seq && j.at_ == r then s else put s

/-- WFE START (R373): accepted in IDLE and ENDED. Before the first boundary of its grid the objects 4420h read as they stood when it
came.
[DESIGN CHOICE, assumption 226] -/
def execWfeStart (i : SiteId) (s : State) : Host.Outcome State Fault Refusal :=
  .next (s.fresh.timed (fun s => wfe 1 (fun e c s =>
    if s.wst e = WS.idle ∨ s.wst e = WS.ended then
      let x := s.eng e
      let snap := if x.snap = [] then engObjects s e else x.snap
      let s := (((s.p (K.ws_TRIG_PENDING e) 0).p (K.ws_GRANULES e) 0).p (K.ws_F_NOW e) 0).setEng e
        { x with startFrame := some c.frame, ts := none, target := bits c.imm 0 14, dead := 4, gran := 0, phase := 0,
                 jump := none, stopAt := none, flist := none, release := none, recovery := none, done := 0, play := [],
                 words := [], snap := snap, before := (x.ts.map (fun t => (t, x.words))).toList ++ x.before }
      wEnter e WS.dead s
    else wIgnore e s) i s))

/-- WFE STOP (R373): IDLE at the first eligible boundary. Accepted in DEAD, PLAYING and WAITING.
[DESIGN CHOICE, assumption 227] -/
def execWfeStop (i : SiteId) (s : State) : Host.Outcome State Fault Refusal :=
  .next (s.fresh.timed (fun s => wfe 2 (fun e _ s =>
    if wAlive s e then
      let x := s.eng e
      (s.p (K.ws_TRIG_PENDING e) 0).setEng e { x with stopAt := some (x.stopAt.getD s.now) }
    else wIgnore e s) i s))

/-- WFE JUMP (R377), accepted in DEAD, PLAYING and WAITING.
[DESIGN CHOICE, assumption 227] -/
def execWfeJump (i : SiteId) (s : State) : Host.Outcome State Fault Refusal :=
  .next (s.fresh.timed (fun s => wfe 3 (fun e c s => if wAlive s e then wRequest e (bits c.imm 0 14) true s.now s else wIgnore e s) i s))

/-- WFE TRIGGER (R374): releases a step that waits on TRIGGER, once; while no step does, it sets TRIG_PENDING.
[DEDUCED, assumption 76] -/
def execWfeTrigger (i : SiteId) (s : State) : Host.Outcome State Fault Refusal :=
  .next (s.fresh.timed (fun s => wfe 4 (fun e _ s =>
    let x := s.eng e
    if s.wst e = WS.faulted then wIgnore e s
    else if s.wst e = WS.waiting ∧ Step.waitsrc (x.step (s.n (K.ws_STEP e))) = 1 then
      s.setEng e { x with release := some (x.release.getD s.now) }
    else s.p (K.ws_TRIG_PENDING e) 1) i s))

/-- WFE FLIST (R383, R384): a later request replaces a pending earlier one. Accepted in DEAD, PLAYING and WAITING.
[DESIGN CHOICE, assumption 227] -/
def execWfeFlist (i : SiteId) (s : State) : Host.Outcome State Fault Refusal :=
  .next (s.fresh.timed (fun s => wfe 5 (fun e c s =>
    if wAlive s e then let x := s.eng e
                       s.setEng e { x with flist := some (bits c.imm 0 12, s.now) }
    else wIgnore e s) i s))

/-- A qualified edge of event line n registers in SCLK r at the engines whose site the event names: a jump request of the
step playing, or the release of a waiting step (R375, R377, R374). -/
def wEvent (n : EvtId) (r : Nat) (s : State) : State :=
  allEngs.foldl (fun s e =>
    match s.engSite e with
    | none => s
    | some i =>
      if (s.n (K.el_EVT_SITES n)).testBit i.val then
        let x := s.eng e
        let w := x.step (s.n (K.ws_STEP e))
        if s.wst e = WS.playing ∧ Step.jevtEn w ∧ Step.jevt w = n.val then wRequest e (Step.jtgt w) false r s
        else if s.wst e = WS.waiting then
          if Step.waitsrc w = 2 ∧ Step.waitevt w = n.val ∧ x.release.isNone then s.setEng e { x with release := some r } else s
        else s
      else s) s

/-- The formatters take a frame: an engine whose START it carried sets its grid origin (R352, R373). -/
def wFrameTaken (i : SiteId) (f : Frame) (s : State) : State :=
  allEngs.foldl (fun s e =>
    let x := s.eng e
    if s.engSite e = some i ∧ x.startFrame = some f.num ∧ f.pad = false then
      s.setEng e { x with startFrame := none, ts := some (f.start * 125 / 1250000 * 1250000) }
    else s) s

/-- A site leaves ARMED, RUNNING and PAUSED: its engines enter IDLE (R376). -/
def wSiteEnded (i : SiteId) (s : State) : State :=
  allEngs.foldl (fun s e => if s.engSite e = some i then wRest e WS.idle s else s) s

/-- The heads of an engine: of every SAMPLE step that carries HEAD, the first 512 granules of its play (R387). -/
def engHeads (s : State) (e : EngId) : KMap (List (List Byte)) :=
  ((s.eng e).steps.filter (fun k => Step.kind k.2 == 2 && Step.head k.2)).map (fun k =>
    (k.1, (List.range (min 512 (playLen s k.2))).map (fun j =>
      match s.seg? (Step.seg k.2) with | some g => kgetD g.data (Step.offset k.2 + j) [] | none => [])))

/-- An engine begins to load its heads; how long that takes is open.
[DESIGN CHOICE, assumption 201] -/
def loadHeads (e : EngId) (s : State) : State :=
  let h := engHeads s e
  if h.isEmpty then s.setEng e { s.eng e with heads := [], headAt := 0 }
  else (s.setEng e { s.eng e with heads := h, headAt := s.now + s.drawn.toNat }).advance

/-- The heads of a site's engines are loaded (R387).
[DESIGN CHOICE, assumption 201] -/
def headsLoaded (s : State) (i : SiteId) : Bool :=
  allEngs.all (fun e => s.engSite e != some i || decide ((s.eng e).headAt ≤ s.now))

/-- At the arming of a site its engines enter IDLE, their counts are cleared, the grid of the last run is gone and the heads
are loaded (R372, R387). A test of an engine is broken off: it runs only while the site is not active (R391). -/
def wSiteArmed (i : SiteId) (s : State) : State :=
  allEngs.foldl (fun s e =>
    if s.engSite e = some i then
      let s := wRest e WS.idle s
      let s := s.setEng e { s.eng e with ts := none, before := [], words := [], play := [], done := 0, gran := 0, cfgOld := [],
                                         snap := [], test := none, testEnd := none }
      (loadHeads e s).zero [K.ws_GRANULES e, K.ws_F_NOW e, K.ws_JUMPS_TAKEN e, K.ws_JUMPS_LATE e,
        K.ws_JUMPS_REPLACED e, K.ws_JUMPS_IGNORED e, K.ws_TRIG_PENDING e, K.ws_LATE_GRANULES e, K.ws_CLIP_COUNT e,
        K.ws_CMD_IGNORED e]
    else s) s

/-! ### Sample supply (R388 to R390) -/

/-- The engine plays a SAMPLE step. -/
def playsSample (s : State) (e : EngId) : Bool :=
  s.wst e == WS.playing && Step.kind ((s.eng e).step (s.n (K.ws_STEP e))) == 2

/-- The granule that has begun plays samples, and none of its words has been handed over. -/
def sampleDue (s : State) (e : EngId) : Bool :=
  let x := s.eng e
  playsSample s e && x.recovery.isNone && decide (1 ≤ x.gran) && decide (1 ≤ x.pos) && x.done == 64 * (x.gran - 1)

/-- MB/s of sample reads of a site's engines (R367). -/
def sampleDemand (s : State) (i : SiteId) : Nat :=
  (allEngs.filter (fun e => s.engSite e == some i && playsSample s e)).foldl (fun a e => a + 25600 / wdiv s e) 0

/-- The granule that has begun can be late: its play lies outside its head, and the site reads more samples than it declared,
or the play was entered by succession less than t_wf_fetch, 2 us, after the play before it began (R388).
[DEDUCED, assumption 202] -/
def mayBeLate (s : State) (e : EngId) : Bool :=
  let x := s.eng e
  let w := x.step (s.n (K.ws_STEP e))
  let excess := match s.engSite e with | some i => decide (s.n (K.md_DECL_SAMPLE i) < sampleDemand s i) | none => false
  !(Step.head w && decide (x.pos ≤ 512)) && (excess || (x.succ && !Step.head w && decide (x.playAt < x.prevAt + 1600)))

/-- The play words of the granule that has begun are gone: its slots take PARK_WORD. -/
def dropGranule (e : EngId) (s : State) : State :=
  let x := s.eng e
  s.setEng e { x with play := kdel x.play (x.gran - 1) }

/-- WF_SAMPLE_LATE: the granule that begins is output as PARK_WORD, and a recovery dead time of 256 samples begins (R389). -/
def execWfSampleLate (e : EngId) (s : State) : Host.Outcome State Fault Refusal :=
  .next (s.fresh.timed (fun s =>
    if sampleDue s e && mayBeLate s e then
        let s := dropGranule e s
        wFault e (Src.WF_SAMPLE_LATE e) ((s.setEng e { s.eng e with recovery := some 4 }).cnt64 (K.ws_LATE_GRANULES e))
      else s))

/-- WF_RECOVERY_END: the recovery dead time has run out and the play resumes at the granule that the unbroken play
would have reached. -/
def execWfRecoveryEnd (e : EngId) (s : State) : Host.Outcome State Fault Refusal :=
  .next (s.fresh.timed (fun s =>
    wRecovered e s))

/-- WF_SAMPLE_UE: an uncorrectable error in sample data fails the segment and puts the engine in FAULTED at the granule
concerned, whose words are PARK_WORD (R390); its markers become inactive at that granule's boundary (R386). -/
def execWfSampleUe (e : EngId) (stack : Fin 4) (s : State) : Host.Outcome State Fault Refusal :=
  .next (s.fresh.timed (fun s =>
    if sampleDue s e then
        let x := s.eng e
        let n := Step.seg (x.step (s.n (K.ws_STEP e)))
        let t := (x.ts.getD 0) + (slotLen s e * 64 * (x.gran - 1) : Nat)
        let u := (wRest e WS.faulted (dropGranule e (failSeg n s))).cnt64 K.hs_HBM_UE
        (u.report (Src.HBM_UE stack) (engMask u e) 0).emits (markEdges u.od t s u)
      else s))

end Sys2Proof.Machine
end

