-- ==== Sys2Proof/Machine/Drive.lean ====
section
/-! DEFINITION. What the channels of a site drive: timing and edge sets (R226 to R242, R249), pin state codes, drive formats
and drive enable (R269 to R281, R287 to R290), pending edges (R239 to R241), slath state (R281) and near loopback (R295). -/
namespace Sys2Proof.Machine
open Sys2Proof

/-! ### Timing and edge sets (R229, R230; Tables 5.1 to 5.3, 5.9) -/

/-- The edge set of a channel in timing set t (R230). -/
def Store.edgeSet (m : Store) (c : ChanId) (t : Nat) : Nat :=
  bits (Store.val m (Objects.ob (0x3000 + c) (t / 16 + 1))).toNat (4 * (t % 16)) 4

/-- The programmed value of element k (DRV0 to DRV3, DEN_ON, DEN_OFF, STB0 to STB3) in an edge set. -/
def Store.edge (m : Store) (i : SiteId) (t es k : Nat) : Int :=
  Store.val m (Objects.ob (0x3400 + 64 * i + t) (0x11 + 12 * es + k))

/-- ES_CTRL of an edge set. -/
def Store.esCtrl (m : Store) (i : SiteId) (t es : Nat) : Nat :=
  (Store.val m (Objects.ob (0x3400 + 64 * i + t) (0x10 + 12 * es))).toNat

/-- PERIOD of a timing set. -/
def Store.period (m : Store) (i : SiteId) (t : Nat) : Int := Store.val m (K.ts_PERIOD (64 * i + t))

/-- Drive-data edges used by a DFMT at a BEATS code: element, beat, place in the beat with 0 the leading edge (Table
5.2); none where the format is not permitted. -/
def driveEdges (fmt beats : Nat) : Option (List (Nat × Nat × Nat)) :=
  match fmt, beats with
  | 0, 0 => some [(0, 0, 0)]
  | 0, 1 => some [(0, 0, 0), (2, 1, 0)]
  | 0, _ => some [(0, 0, 0), (1, 1, 0), (2, 2, 0), (3, 3, 0)]
  | 1, 0 | 2, 0 | 4, 0 => some [(0, 0, 0), (1, 0, 1)]
  | 1, 1 | 2, 1 | 4, 1 => some [(0, 0, 0), (1, 0, 1), (2, 1, 0), (3, 1, 1)]
  | 3, 0 => some [(0, 0, 0), (1, 0, 1), (2, 0, 2)]
  | 5, 0 => some [(0, 0, 0), (1, 0, 1), (2, 0, 2), (3, 0, 3)]
  | _, _ => none

/-- Strobes or windows used: number, beat, opening element and closing element (the same in EDGE mode) (Table 5.3); none
where the mode is not permitted. -/
def strobeEdges (mode en beats : Nat) : Option (List (Nat × Nat × Nat × Nat)) :=
  match mode with
  | 0 =>
    some (((List.range 4).filter (fun k => en.testBit k)).map
      (fun k => (k, (if beats = 0 then 0 else if beats = 1 then k / 2 else k), 6 + k, 6 + k)))
  | 1 =>
    if 2 ≤ beats then none
    else some (((List.range 2).filter (fun w => en.testBit (2 * w))).map
      (fun w => (w, (if beats = 0 then 0 else w), 6 + 2 * w, 7 + 2 * w)))
  | _ => none

/-- The level that the edge at place j of a beat with data d sets (Table 6.4). -/
def driveLevel (fmt j : Nat) (d : Bool) : Bool :=
  match fmt with
  | 1 => if j = 0 then d else false
  | 2 => if j = 0 then d else true
  | 3 => if j = 1 then d else !d
  | 4 => if j = 0 then d else !d
  | 5 => if j % 2 = 0 then d else false
  | _ => d

/-! ### Edge realisation (R249, R435) -/

/-- The fine setting whose nominal delay of 122.0703125 fs a step lies nearest to rest, the lower of two equally near
(R249, R770). -/
def fineLinear (rest : Nat) : Nat :=
  let f := min 640 (rest * 128 / 15625)
  if f < 640 ∧ 2 * rest * 128 > (2 * f + 1) * 15625 then f + 1 else f

/-- The same against a calibrated table of 641 delays.
[DEDUCED, assumption 58] -/
def fineTable (tab : List Byte) (elem rest : Nat) : Nat :=
  let d (f : Nat) : Nat := let v := field tab (4 * (641 * elem + f)) 4
                           if v < rest then rest - v else v - rest
  (List.range 641).foldl (fun b f => if d f < d b then f else b) 0

/-- Beat-clock edge and fine setting of a target (R249).
[DESIGN CHOICE, assumption 57] -/
def realise (tab : Option (List Byte)) (elem : Nat) (target : Int) : Int × Int :=
  let rest := (target % 78125).toNat
  (target / 78125, ((match tab with | some t => fineTable t elem rest | none => fineLinear rest) : Nat))

/-- The spar that an XBAR_STATE other than 0 names (R296). -/
def sparOf (c : ChanId) (x : Nat) : SparId := Fin.ofNat 16 (2 * (c.val / 32) + (x - 1))

/-- The offset of a spar's element while it serves a channel (R435): t_lead less the device delay and the board delay,
with the lane's trim. -/
def sparOffset (m : Store) (p : SparId) (c : ChanId) (k : Nat) : Int :=
  let d := Store.val m (K.sp_SPAR_DELAY p k)
  if k < 4 then 7500000 - d - Store.val m (K.cc_OUT c) + Store.val m (K.sp_TRIM_DD p)
  else if k < 6 then 7500000 - d - Store.val m (K.cc_OUT_DE c) + Store.val m (K.sp_TRIM_DE p)
  else 7500000 + d - Store.val m (K.cc_OUT c)

/-- The offset of an element of a channel as it stood when a frame was assembled: the own engine's, or that of a spar that
serves, numbered as in XBAR_STATE (R231, R252, R435, R459).
[DESIGN CHOICE, assumption 57] -/
def elemOffset (f : Frame) (c : ChanId) (x k : Nat) : Int :=
  if x = 0 then f.g (K.cc_OFS c k) else kgetD f.spar (16 * c.val + k) (sparOffset f.od (sparOf c x) c k)

/-- The linearity table of an engine that may serve a channel, if one had been recorded when a frame was assembled.
[DEDUCED, assumption 58] -/
def linTable (f : Frame) (c : ChanId) (x : Nat) : Option (List Byte) :=
  if x = 0 then kget? f.blobs (K.cc_LIN c) else kget? f.blobs (K.sp_SPAR_LIN (sparOf c x))

/-! ### One channel in one frame -/

/-- A channel between two beats: drive memory kind (0 DATA, 1 DZ, 2 DP) and value, expectation memory, enable and PE_DD
level. -/
structure Chan where
  /-- drive memory kind -/
  kind : Nat
  /-- drive memory value -/
  val : Bool
  /-- expectation memory -/
  exp : Nat
  /-- driver on -/
  en : Bool
  /-- PE_DD level before inversion -/
  dd : Bool
  deriving DecidableEq, Repr

/-- What a beat does: its enable, its data value when it drives or its rest value, and its expectation code, 0 for none. -/
structure Beat where
  /-- driver on -/
  en : Bool
  /-- data or rest value -/
  val : Bool
  /-- expectation after CK, 0 for a drive code -/
  exp : Nat
  deriving DecidableEq, Repr

/-- One beat (R272 to R274, R290; Table 6.3). term is CMP_TERM, wave the waveform bit, none when WF_ENGINE is FFh: DW then
acts as DK and CW as CX. -/
def beatOf (term : Bool) (wave : Option Bool) (code : Nat) (x : Chan) : Beat × Chan :=
  let hold : Beat := if x.kind = 0 then ⟨true, x.val, 0⟩ else ⟨false, x.kind == 2, 0⟩
  match code with
  | 0 => (⟨true, false, 0⟩, { x with kind := 0, val := false })
  | 1 => (⟨true, true, 0⟩, { x with kind := 0, val := true })
  | 2 => (⟨false, false, 0⟩, { x with kind := 1 })
  | 3 => (hold, x)
  | 4 => (⟨true, !x.val, 0⟩, { x with kind := 0, val := !x.val })
  | 5 => match wave with
         | some b => (⟨true, b, 0⟩, { x with kind := 0, val := b })
         | none => (hold, x)
  | 6 => (⟨false, true, 0⟩, { x with kind := 2 })
  | 15 => (⟨false, term, x.exp⟩, x)
  | 14 => let e := if wave.isSome then 14 else 12
          (⟨false, term, e⟩, { x with exp := e })
  | _ => (⟨false, term, code⟩, { x with exp := code })

/-- The waveform bit of each channel at a time, with the beat's number in its frame; none without an engine (R289, R290). -/
abbrev WaveFn := ChanId → Nat → Int → Option Bool

/-- Waveform bits that are not yet known: enables, causes and expectations do not depend on them. -/
def waveUnknown (m : Store) : WaveFn := fun c _ _ => if Store.val m (K.ch_WF_ENGINE c) = 255 then none else some false

/-- The waveform bits as the engines hand them over (R289); a free value where a frame is cut before its word is there. -/
def waveKnown (s : State) (m : Store) : WaveFn := fun c n t =>
  let e := (Store.val m (K.ch_WF_ENGINE c)).toNat
  if e = 255 then none
  else some ((waveBit s (Fin.ofNat 8 e) (Store.val m (K.ch_WF_BIT c)).toNat t).getD
    (Config.freeInt (s.free + 4096 * c.val + n) % 2 == 1))

/-- Time of the leading drive-data edge of a beat after its vector's start (Table 5.2). -/
def leadEdge (f : Frame) (i : SiteId) (v : Vec) (c : ChanId) (k : Nat) : Int :=
  let es := Store.edgeSet f.od c v.tset
  let fmt := Store.esCtrl f.od i v.tset es % 16
  let e := (((driveEdges fmt (f.n (K.cf_BEATS i))).getD []).find? (fun e => e.2.1 == k && e.2.2 == 0)).elim 0 (·.1)
  Store.edge f.od i v.tset es e

/-- The pin state code of a channel in a beat of a vector (R57). -/
def Vec.code (v : Vec) (nb : Nat) (c : ChanId) (k : Nat) : Nat := Yealm.code (kgetD v.slices (c.val / 8) []) nb (c.val % 8) k

/-- DRIVE_MEM and EXP_MEM of a channel (Table 6.9). -/
def Chan.mem (x : Chan) : Nat × Nat := (16 * x.kind + b2n x.val, x.exp)

/-- The beats of a channel in a vector: what each does, the channel after them, and the memories after each beat that changes
them, at its time. n is the vector's number in its frame. -/
def beatsOf (wave : WaveFn) (f : Frame) (i : SiteId) (c : ChanId) (n : Nat) (v : Vec) (t0 : Int) (x : Chan) :
    List Beat × Chan × List (Int × Nat × Nat) :=
  let nb := 2 ^ f.n (K.cf_BEATS i)
  (List.range nb).foldl (fun a k =>
    let t := t0 + leadEdge f i v c k
    let r := beatOf (f.b (K.ch_CMP_TERM c)) (wave c (4 * n + k) t) (v.code nb c k) a.2.1
    (a.1 ++ [r.1], r.2, if r.2.mem = a.2.1.mem then a.2.2 else a.2.2 ++ [(t, r.2.mem)])) ([], x, [])

/-- Enable changes of a vector: counts of off-to-on and on-to-off, and whether the on-to-off change comes first. -/
def enChanges (e0 : Bool) (bs : List Beat) : Nat × Nat × Bool :=
  let r := bs.foldl (fun (a : Bool × Nat × Nat × Bool) b =>
    if b.en && !a.1 then (true, a.2.1 + 1, a.2.2.1, a.2.2.2)
    else if !b.en && a.1 then (false, a.2.1, a.2.2.1 + 1, a.2.2.2 || a.2.1 == 0)
    else a) (e0, 0, 0, false)
  (r.2.1, r.2.2.1, r.2.2.2)

/-- Why a channel's vector cannot be driven, 0 when it can (R275, R279, R280). Code 7h stands before two changes of one
direction, and those before the order against the programmed edges.
[DESIGN CHOICE, assumption 203] -/
def patternCause (codes : List Nat) (e0 : Bool) (bs : List Beat) (on off : Int) : Nat :=
  if codes.contains 7 then 1
  else
    let (u, d, offFirst) := enChanges e0 bs
    if 2 ≤ u ∨ 2 ≤ d then 2
    else if u = 1 ∧ d = 1 ∧ (offFirst ≠ decide (off < on)) then 3
    else 0

/-- What one channel does in one frame: its state after it, the cause of a pattern fault, its outputs and its
expectations. -/
structure ChanRun where
  /-- state after the frame -/
  st : Chan
  /-- PATTERN_CAUSE, 0 none -/
  cause : Nat := 0
  /-- transitions and strobes -/
  out : List Placed := []
  /-- memories after the beats that change them, each at its beat's time -/
  mems : List (Int × Nat × Nat) := []
  /-- expectations -/
  exps : List Exp := []
  deriving DecidableEq, Repr

/-- The start of each vector of a frame, in fs after the run's origin (R226). -/
def vecStarts (f : Frame) (i : SiteId) : List (Nat × Vec × Int) :=
  (f.vecs.foldl (fun (a : Int × List (Nat × Vec × Int)) v =>
    (a.1 + Store.period f.od i v.tset, a.2 ++ [(a.2.length, v, a.1)])) (125 * f.start, [])).2

/-- The transitions of a channel in a vector (R278, R279, R237) and the strobes that it fires. Their times count from the
run's origin, which lies SKEW_TRIM after an SCLK edge (R558). -/
def vecOutputs (f : Frame) (i : SiteId) (c : ChanId) (v : Vec) (t0 : Int) (x0 : Chan) (bs : List Beat) :
    Bool × List Placed :=
  let m := f.od
  let bc := f.n (K.cf_BEATS i)
  let es := Store.edgeSet m c v.tset
  let ctrl := Store.esCtrl m i v.tset es
  let fmt := ctrl % 16
  let inv (k : Nat) : Bool := (f.n (K.ch_LANE_SWAP c)).testBit k != (f.n (K.ch_LANE_INV c)).testBit k
  let fire (k : Nat) (o : Int → Int → Int → Output) : Placed :=
    let t := t0 + Store.edge m i v.tset es k
    let rt := if 6 ≤ k then f.g (K.cc_RT c) else 0
    let set (x : Nat) : Int × Int := realise (linTable f c x) k (t + elemOffset f c x k + rt + f.g K.rd_SKEW_TRIM)
    { out := o t (set 0).1 (set 0).2, alt := [set 1, set 2], later := rt }
  let dd := ((driveEdges fmt bc).getD []).foldl (fun (a : Bool × List Placed) e =>
    match bs[e.2.1]? with
    | none => a
    | some b =>
      let lv := if b.en then driveLevel fmt e.2.2 b.val else b.val
      if (b.en || e.2.2 == 0) && lv != a.1 then
        (lv, a.2 ++ [fire e.1 (fun t g h => .edge c 0 t (lv != inv 0) g h)])
      else a) (x0.dd, [])
  let ch := enChanges x0.en bs
  let de (k : Nat) (lv : Bool) : List Placed := [fire k (fun t g h => .edge c 1 t (lv != inv 1) g h)]
  let den := (if ch.1 = 1 then de 4 true else []) ++ (if ch.2.1 = 1 then de 5 false else [])
  let stb := ((strobeEdges (bits ctrl 4 2) (bits ctrl 8 4) bc).getD []).flatMap (fun w =>
    (if w.2.2.1 = w.2.2.2 then [w.2.2.1] else [w.2.2.1, w.2.2.2]).map (fun k =>
      fire k (fun t g h => .strobe c (k - 6) t g h)))
  (dd.1, dd.2 ++ den ++ stb)

/-- An expectation that compares or captures in its frame: CMPEN, CMP_MASK and DCR EN applied (R153, R286, R287, R290). -/
def expActs (f : Frame) (c : ChanId) (code : Nat) : Bool :=
  code != 0 && code != 0x0C && f.cmpen != 0 && !f.b (K.ch_CMP_MASK c) && (code != 0x0D || f.dcr.testBit 15) &&
  (code != 0x0E || f.n (K.ch_WF_ENGINE c) != 255)

/-- A vector that starts at a time is driven: its site's channels do not yet stand in slath state (R241). -/
def Frame.drives (f : Frame) (t : Int) : Bool := match f.cut with | some c => decide (t < c) | none => true

/-- One channel in one frame. -/
def runChan (wave : WaveFn) (f : Frame) (i : SiteId) (c : ChanId) (x : Chan) : ChanRun :=
  let nb := 2 ^ f.n (K.cf_BEATS i)
  ((vecStarts f i).filter (fun q => f.drives q.2.2)).foldl (fun a q =>
    let v := q.2.1
    let es := Store.edgeSet f.od c v.tset
    let r := beatsOf wave f i c q.1 v q.2.2 a.st
    let codes := (List.range nb).map (v.code nb c)
    let bad := patternCause codes a.st.en r.1 (Store.edge f.od i v.tset es 4) (Store.edge f.od i v.tset es 5)
    let o := vecOutputs f i c v q.2.2 a.st r.1
    { st := { r.2.1 with en := (r.1.getLast?.map Beat.en).getD a.st.en, dd := o.1 }
      cause := if a.cause = 0 then bad else a.cause
      out := a.out ++ o.2
      mems := a.mems ++ r.2.2
      exps := a.exps ++ (((List.range r.1.length).zip r.1).filter (fun b => expActs f c b.2.exp)).map
        (fun b => { vec := q.1, chan := c, beat := b.1, code := b.2.exp }) }) { st := x }

/-- A channel's state as the frames placed so far leave it. -/
def chanNow (s : State) (i : SiteId) (c : ChanId) : Chan :=
  let x := s.site i
  let q := match (x.mems.filter (fun e => e.chan == c)).getLast? with
           | some e => (e.drive, e.exp)
           | none => (s.n (K.ch_DRIVE_MEM c), s.n (K.ch_EXP_MEM c))
  { kind := bits q.1 4 2, val := q.1.testBit 0, exp := q.2, en := x.enOn.contains c.val, dd := x.ddHi.contains c.val }

/-- A beat is driven: its channel's memories read as it leaves them (R305). -/
def putMem (s : State) (e : MemE) : State := (s.p (K.ch_DRIVE_MEM e.chan) e.drive).p (K.ch_EXP_MEM e.chan) e.exp

/-- The strobe edges, in fs after their vector's start, that a channel fires in a vector of a frame. -/
def strobeTimes (f : Frame) (i : SiteId) (v : Vec) (c : ChanId) : List Int :=
  let es := Store.edgeSet f.od c v.tset
  let ctrl := Store.esCtrl f.od i v.tset es
  ((strobeEdges (bits ctrl 4 2) (bits ctrl 8 4) (f.n (K.cf_BEATS i))).getD []).map (fun w => Store.edge f.od i v.tset es w.2.2.1)

/-! ### Pending edges (R239) -/

/-- The programmed time of an edge, a strobe or a lane level. -/
def Output.time : Output → Int
  | .edge _ _ t _ _ _ => t
  | .strobe _ _ t _ _ => t
  | .lane _ _ t _ => t
  | _ => 0

/-- A drive-data or drive-enable edge, or a lane level, of a channel. -/
def Output.edgeOf (c : ChanId) : Output → Bool
  | .edge d _ _ _ _ _ => d == c
  | .lane d _ _ _ => d == c
  | _ => false

/-- An edge or a strobe. -/
def Output.fires : Output → Bool
  | .edge _ _ _ _ _ _ => true
  | .strobe _ _ _ _ _ => true
  | _ => false

/-- The SCLK in which something programmed for a time after a site's origin reaches the balls: programmed time 0 of the run
leaves them 6 SCLK after the origin (R227). -/
def ballSclk (s : State) (i : SiteId) (t : Int) : Nat := (((s.site i).origin : Int) + 6 + t / 1250000).toNat

/-- Lane levels outside the edge elements. -/
def plain (l : List Output) : List Placed := l.map (fun o => { out := o })

/-- Edges, strobes and lane levels of a site become pending. -/
def pend (i : SiteId) (l : List Placed) (s : State) : State :=
  s.modSite i (fun x => { x with edges := x.edges ++ l.map (fun o => (ballSclk s i (o.out.time + o.later), o)) })

/-- The engine that holds a channel's balls at a time after its site's origin, as XBAR_STATE numbers it (R296, R457). -/
def servedBy (s : State) (i : SiteId) (c : ChanId) (t : Int) : Nat :=
  let l := (s.site i).xsw.filter (fun x => x.chan == c)
  match (l.filter (fun x => decide (x.time ≤ t))).getLast? with
  | some x => x.new
  | none => match l.head? with
    | some x => x.old
    | none => s.n (K.ch_XBAR_STATE c)

/-- What fires: with the setting of the engine that holds the balls then (R457). -/
def Placed.fire (s : State) (i : SiteId) (p : Placed) : Output :=
  let set (c : ChanId) (t g h : Int) : Int × Int := ((g, h) :: p.alt).getD (servedBy s i c (t + p.later)) (g, h)
  match p.out with
  | .edge c k t v g h => .edge c k t v (set c t g h).1 (set c t g h).2
  | .strobe c k t g h => .strobe c k t (set c t g h).1 (set c t g h).2
  | o => o

/-- The pending edges of a site that reach the balls by the end of the present SCLK fire, and the beats that do are driven. -/
def fireDue (s : State) (i : SiteId) : State :=
  let x := s.site i
  let out := (x.edges.filter (fun e => decide (e.1 ≤ s.now))).map (fun e => e.2.fire s i)
  let s := (x.mems.filter (fun e => decide (e.due ≤ s.now))).foldl putMem s
  (s.setSite i { x with
      edges := x.edges.filter (fun e => decide (s.now < e.1))
      mems := x.mems.filter (fun e => decide (s.now < e.due))
      xsw := x.xsw.filter (fun e => !(e.done && decide (e.due < s.now)))
      driven := x.driven.filter (fun e => decide (s.now < ballSclk s i e.time + 64)) }).emits out

/-- The pending edges of all sites that are due fire. -/
def fireAll (s : State) : State := allSites.foldl fireDue s

/-! ### Slath state (R185, R281) and near loopback (R295) -/

/-- Net inversion of a lane of a channel (R270). -/
def laneInv (m : Store) (c : ChanId) (k : Nat) : Bool :=
  (Store.val m (K.ch_LANE_SWAP c)).toNat.testBit k != (Store.val m (K.ch_LANE_INV c)).toNat.testBit k

/-- The PE_DD level of slath state, before inversion. -/
def slathLevel (m : Store) (c : ChanId) : Bool := Store.val m (K.ch_SLATH_MODE c) == 1

/-- The least time in fs between PE_DE and PE_DD at slath state (R281). -/
def slathGap : Nat := 156250

/-- A channel enters slath state at a time: PE_DE to 0, and no sooner than a gap later, at a time that is otherwise open but for a
latest time that a rule may set, PE_DD to the level of SLATH_MODE (R281, R532).
[DESIGN CHOICE, assumption 214] -/
def slathLanes (m : Store) (c : ChanId) (gap : Nat) (hi : Option Int) (t draw : Int) : List Output :=
  let d : Int := match hi with
    | some h => draw % (max 0 (h - t - gap) + 1)
    | none => (draw.toNat : Int)
  [.lane c 1 t (laneInv m c 1), .lane c 0 (t + gap + d) (slathLevel m c != laneInv m c 0)]

/-- The balls of a channel in near loopback are held at 0 (R295). -/
def loopBalls (c : ChanId) (t : Int) : List Output := [.lane c 0 t false, .lane c 1 t false]

/-- What reaches the balls of a site's channels: nothing of a channel in near loopback but the strobes (R295). -/
def toBalls (m : Store) (l : List Placed) : List Placed :=
  l.filter (fun o => match o.out with
    | .edge c _ _ _ _ _ => Store.val m (K.ch_LOOPBACK c) == 0
    | .lane c _ _ _ => Store.val m (K.ch_LOOPBACK c) == 0
    | _ => true)

/-- The level changes at the pads of channels in near loopback (R295). -/
def loopEdges (m : Store) (l : List Placed) : List LoopE :=
  l.filterMap (fun o => match o.out with
    | .edge c k t v _ _ => if Store.val m (K.ch_LOOPBACK c) = 0 then none else some ⟨c, k == 1, t, v⟩
    | .lane c k t v => if Store.val m (K.ch_LOOPBACK c) = 0 then none else some ⟨c, k == 1, t, v⟩
    | _ => none)

/-- The level changes that a TMU may watch, before inversion (R399). -/
def watchedEdges (m : Store) (l : List Placed) : List LoopE :=
  l.filterMap (fun o => match o.out with
    | .edge c k t v _ _ => some ⟨c, k == 1, t, v != laneInv m c k⟩
    | .lane c k t v => some ⟨c, k == 1, t, v != laneInv m c k⟩
    | _ => none)

/-- Lanes of a site's channels take levels: at the balls, or in near loopback. -/
def lanes (i : SiteId) (m : Store) (l : List Placed) (s : State) : State :=
  pend i (toBalls m l) (s.modSite i (fun x => { x with loop := x.loop ++ loopEdges m l, driven := x.driven ++ watchedEdges m l }))

/-- Every channel of a site enters slath state, each at its time (R281); of channels that stand in it already, PE_DD follows
SLATH_MODE (R287). hi is the latest time that a rule sets, if one does. -/
def slathAt (i : SiteId) (m : Store) (gap : Nat) (hi : Option Int) (time : ChanId → Int) (s : State) : State :=
  let x := s.site i
  let cs := Store.chans m i
  let l := if x.inSlath then
      (cs.filter (fun (c : ChanId) => slathLevel m c != x.ddHi.contains c.val)).map
        (fun (c : ChanId) => .lane c 0 (time c) (slathLevel m c != laneInv m c 0))
    else cs.flatMap (fun c => slathLanes m c gap hi (time c) (Config.freeInt (s.free + c.val)))
  lanes i m (plain l) ({ s with free := s.free + 256 }.setSite i { x with
    inSlath := true, enOn := [], ddHi := (cs.filter (slathLevel m)).map (fun (c : ChanId) => c.val) })

/-- The time of a channel's last pending edge or lane level, or another time if that is later (R240). -/
def lastEdge (s : State) (i : SiteId) (t : Int) (c : ChanId) : Int :=
  let x := s.site i
  let a := ((x.edges.map (fun e => e.2.out)).filter (Output.edgeOf c)).foldl (fun a o => max a o.time) t
  (x.loop.filter (fun e => e.chan == c)).foldl (fun a e => max a e.time) a

/-- Slath state after the last edge of the frames taken has fired (R240). -/
def slathAfter (i : SiteId) (m : Store) (t : Int) (s : State) : State := slathAt i m slathGap none (lastEdge s i t) s

/-- The end of what a site has taken, after its origin in fs. -/
def Site.endTime (x : Site) : Int := 125 * x.vstart

/-! ### Driving a frame -/

/-- The channels of a frame's site, each run through the frame from the state that the frames before it leave.
[DESIGN CHOICE, assumption 55] -/
def frameRuns (wave : WaveFn) (before : ChanId → Chan) (i : SiteId) (f : Frame) : List (ChanId × ChanRun) :=
  (Store.chans f.od i).map (fun c => (c, runChan wave f i c (before c)))

/-- Every waveform word that the frame's DW beats take has been handed over (R289). -/
def wavesKnown (s : State) (i : SiteId) (f : Frame) : Bool :=
  let nb := 2 ^ f.n (K.cf_BEATS i)
  ((Store.chans f.od i).filter (fun (c : ChanId) => f.n (K.ch_WF_ENGINE c) != 255)).all (fun (c : ChanId) =>
    (vecStarts f i).all (fun q => (List.range nb).all (fun k =>
      q.2.1.code nb c k != 5 || (waveWord s (Fin.ofNat 8 (f.n (K.ch_WF_ENGINE c))) (q.2.2 + leadEdge f i q.2.1 c k)).isSome)))

/-- Places the edges of a frame: slath state after a pad frame; otherwise the edges that its channels' runs give, and the lanes
and memories of its last vector. A frame that slath state cuts keeps the edges before it. -/
def driveFrame (i : SiteId) (f : Frame) (s : State) : State :=
  let s := s.modSite i (fun x => { x with undriven := x.undriven.drop 1 })
  if f.pad then slathAfter i f.od (125 * f.start) s
  else
    let runs := frameRuns (waveKnown s f.od) (chanNow s i) i f
    let out := ((runs.map (fun r => r.2.out)).flatten).filter (fun o => f.drives o.out.time)
    let mems := runs.flatMap (fun r => (r.2.mems.filter (fun e => f.drives e.1)).map (fun e =>
      ({ due := ballSclk s i e.1, time := e.1, chan := r.1, drive := e.2.1, exp := e.2.2 } : MemE)))
    (lanes i f.od out { s with free := s.free + 2 ^ 20 }).modSite i (fun y => { y with
      mems := y.mems ++ mems
      inSlath := false
      enOn := (runs.filter (fun r => r.2.st.en)).map (fun r => r.1.val)
      ddHi := (runs.filter (fun r => r.2.st.dd)).map (fun r => r.1.val) })

/-- Drives the frames of a list in order, up to the first whose waveform words are still to come. -/
def driveList (i : SiteId) : List Frame → State → State
  | [], s => s
  | f :: r, s => if f.pad || wavesKnown s i f then driveList i r (driveFrame i f s) else s

/-- A RUNNING site has placed the last frame that it takes before a pause or of its run. -/
def lastPlaced (s : State) (i : SiteId) : Bool :=
  let x := s.site i
  s.st i == SS.running && (x.halted || x.pausing) && x.stall.isNone && x.fifo.isEmpty && x.undriven.isEmpty && x.cutAt.isNone

/-- Drives the frames that a site has taken and that can be driven. With the last one before a pause or of the run the channels
go to slath state once its last edge has fired (R240, Table 4.5). -/
def driveReady (i : SiteId) (s : State) : State :=
  let s := driveList i (s.site i).undriven s
  if lastPlaced s i && !(s.site i).inSlath then slathAfter i s.od (s.site i).endTime s else s

/-- The same for every site. -/
def driveAll (s : State) : State := allSites.foldl (fun s i => driveReady i s) s

/-- The present SCLK at the balls, as a time after a site's origin in fs (R227). -/
def ballTime (s : State) (i : SiteId) : Int := ((s.now : Int) - (s.site i).origin) * 1250000 - 7500000

/-- What a frame would drive or compare from a time on is cut off. -/
def Frame.cutFrom (t : Int) (f : Frame) : Frame := { f with cut := some (match f.cut with | some c => min c t | none => t) }

/-- Slath state at a park or an ABORT: both lanes have reached it n SCLK after the present one, at an open time
that does not lie before the end of the frames taken where n SCLK leave room for them; edges that would fire later are
cancelled, and what the frames taken would drive or compare from then on is cut off (R186, R241, R242, R280).
[DEDUCED, assumption 34] [DESIGN CHOICE, assumption 214] -/
def slathCut (i : SiteId) (n gap : Nat) (s : State) : State :=
  let x := s.site i
  let b := ballTime s i
  let hi : Int := b + (1250000 * n : Nat)
  if x.inSlath && x.undriven.isEmpty && x.edges.all (fun e => decide (e.2.out.time ≤ hi)) && x.loop.all (fun e => decide (e.time ≤ hi)) then s
  else
    let lo := max b (min x.endTime (hi - gap))
    let t := lo + s.drawn % (max 0 (hi - gap - lo) + 1)
    let s := s.advance.setSite i { x with
      edges := x.edges.filter (fun e => decide (e.2.out.time < t))
      mems := x.mems.filter (fun e => decide (e.time < t))
      loop := x.loop.filter (fun e => decide (e.time < t))
      driven := x.driven.filter (fun e => decide (e.time < t))
      undriven := x.undriven.map (Frame.cutFrom t), taken := x.taken.map (Frame.cutFrom t) }
    let s := (s.site i).undriven.foldl (fun s f => driveFrame i f s) s
    slathAt i s.od gap (some hi) (fun _ => t) (s.modSite i (fun x => { x with inSlath := false }))

end Sys2Proof.Machine
end

