-- ==== Sys2Proof/Machine/SiteEnd.lean ====
section
/-! DEFINITION. What ends a site's activity: slath state, the log entries that wait for their place, the return of spars,
and the park (R158, R185, R186, R217, R281, R320, R462). -/
namespace Sys2Proof.Machine
open Sys2Proof

/-! ### Sources of a site -/

/-- The vector address of an ordinal in a source-list entry (R60). -/
def State.vecAddr (s : State) (i : SiteId) (e ord : Nat) : Option (Bool × Nat × Nat) :=
  (Store.source s.od i e).map (fun x => (x.1, x.2, ord))

/-! ### Log entries in their place (R320) -/

/-- A waiting entry stands before another: by the vectors driven before it, and in the same place CYCLE_WRAP before PAD, whose
vectors belong to the new count. -/
def waitBefore (x y : Nat × FailE) : Bool := decide (x.1 < y.1) || (x.1 == y.1 && x.2.kind == 3 && y.2.kind != 3)

/-- Inserts a waiting log entry in its place. -/
def insertWait (x : Nat × FailE) : List (Nat × FailE) → List (Nat × FailE)
  | [] => [x]
  | y :: r => if waitBefore x y then x :: y :: r else y :: insertWait x r

/-- A PAD or CYCLE_WRAP entry waits for its place.
[DEDUCED, assumption 63] -/
def waitLog (i : SiteId) (a : Nat) (e : FailE) (s : State) : State :=
  s.modSite i (fun x => { x with logWait := insertWait (a, e) x.logWait })

/-- A waiting entry is due: it stands at or before a vector, and before an open run of pad frames, whose PAD entry is still to
come (R320). -/
def waitDue (x : Site) (upTo : Nat) (e : Nat × FailE) : Bool :=
  decide (e.1 ≤ upTo) && (match x.pad with | some p => waitBefore e (p.cycle, { kind := 1 }) | none => true)

/-- The waiting entries that are due join the entries of the frame whose results are latched, each judged alone (R324). -/
def flushLog (i : SiteId) (upTo : Nat) (s : State) : State :=
  s.modSite i (fun x => { x with
    failNow := x.failNow ++ ((x.logWait.filter (waitDue x upTo)).map (fun e => [e.2])),
    logWait := x.logWait.filter (fun e => !waitDue x upTo e) })

/-- The entries of the frame whose results have been latched wait for the FIFO. -/
def closeFails (i : SiteId) (s : State) : State :=
  s.modSite i (fun x => if x.failNow.isEmpty then x else { x with failPend := x.failPend ++ [x.failNow], failNow := [] })

/-- Closes a run of pad frames: its PAD entry waits for its place, with the address of the first real vector after the run (R102, R321,
Table 7.3); of a run that is cut it names where the run was inserted.
[DESIGN CHOICE, assumption 23] -/
def closePad (i : SiteId) (first : Option Vec) (s : State) : State :=
  match (s.site i).pad with
  | none => s
  | some p =>
    let a := match first with | some v => v.addr | none => s.vecAddr i p.at_.1 p.at_.2
    let e : FailE := { kind := 1, tset := p.tset, addr := a, cycle := p.cycle % 2 ^ 48,
                       payload := p.count }
    waitLog i p.cycle e (s.modSite i (fun x => { x with pad := none }))

/-- The run ends with the vectors driven so far: pad vectors not driven are not counted, entries of vectors not driven
are gone.
[DESIGN CHOICE, assumption 23] -/
def cutLog (i : SiteId) (s : State) : State :=
  s.modSite i (fun x => { x with
    logWait := (x.logWait.filter (fun e => decide (e.1 < x.cycle))).map (fun e =>
      if e.2.kind = 1 then (e.1, { e.2 with payload := min e.2.payload (x.cycle - e.1) }) else e) })

/-! ### Spars (R297, R462) -/

/-- A spar returns to FREE, its trims to 0 (R460). -/
def freeSpar (p : SparId) (s : State) : State :=
  (((s.p (K.sp_SPAR_STATE p) 0).p (K.sp_SPAR_CHAN p) 0xFFFF).p (K.sp_TRIM_DD p) 0).p (K.sp_TRIM_DE p) 0

/-- Bit 3 of PENDING_INT: a SWAP of the site is pending (Table 3.11). -/
def putSwapBit (i : SiteId) (on : Bool) (s : State) : State :=
  let m := s.n (K.sr_PENDING_INT i)
  s.p (K.sr_PENDING_INT i) (if m.testBit 3 = on then m else if on then m + 8 else m - 8 : Nat)

/-- A requested SWAP of a site is withdrawn (R461). -/
def dropSwap (i : SiteId) (s : State) : State :=
  (putSwapBit i false s).modSite i (fun x => { x with swap := none, swapTaken := false, eaveAt := none })

/-- The bank of a channel (R5). -/
def bankOf (c : ChanId) : BankId := ⟨c.val / 32, by omega⟩

/-- A bank's calibration work is dropped: nothing is queued or in calibration, and its spars in calibration are FREE. -/
def calClear (b : BankId) (s : State) : State :=
  let k := s.calBank b
  let cs := k.liveNow ++ k.queue ++ (match k.cur with | some w => [w.chan.val] | none => [])
  let s := cs.foldl (fun s c => s.p (K.cc_CAL_STATUS (Fin.ofNat 256 c).val) 0) (cancelJobs b s)
  let s := match k.unit with | some (false, j) => freeSpar (Fin.ofNat 16 (2 * b.val + j)) s | _ => s
  let s := match k.cur.bind Swap.spar with | some p => freeSpar p s | none => s
  s.setCalBank b {}

/-- What a site took has left the balls: no result is to come, and no edge or strobe is pending (R240). -/
def Site.left (x : Site) : Bool := x.taken.isEmpty && x.edges.all (fun e => !e.2.out.fires)

/-- A swap of a site that is no longer active: a spar that does not hold the balls stops shadowing, one that holds them
returns them once the last frame has left them; the channel continues directly (R462). -/
def calSiteEnded (i : SiteId) (s : State) : State :=
  let s := s.modSite i (fun x => { x with swap := none, swapTaken := false, eaveAt := none })
  allBanks.foldl (fun s b =>
    let k := s.calBank b
    match k.cur with
    | some w =>
      match w.spar with
      | some p =>
        if Store.hasChan s.od i w.chan ∧ (s.g (K.ch_XBAR_STATE w.chan) = 0 ∨ (s.site i).left = true) then
          (cancelJobs b (freeSpar p (s.p (K.ch_XBAR_STATE w.chan) 0))).setCalBank b
            { k with cur := some { w with spar := none, phase := 0 } }
        else s
      | none => s
    | none => s) s

/-- A changeover of a channel's serving engine; a substitute that gives the balls back returns to FREE (R711, R712). -/
def changeover (c : ChanId) (v : Nat) (s : State) : State :=
  let s := { s with flt := { s.flt with pendSw := kdel s.flt.pendSw c } }
  let old := s.n (K.ch_XBAR_STATE c)
  let s := s.p (K.ch_XBAR_STATE c) v
  if old = 0 ∨ old = v then s
  else
    let p : SparId := Fin.ofNat 16 (2 * (bankOf c).val + old - 1)
    if s.n (K.sp_SPAR_STATE p) = 5 ∧ s.n (K.sp_SPAR_CHAN p) = c.val then freeSpar p s else s

/-- The changeovers of a site's channels that wait (R297). -/
def sitePending (s : State) (i : SiteId) : List (ChanId × Nat) :=
  (s.chans i).filterMap (fun (c : ChanId) => (kget? s.flt.pendSw c).map (fun v => (c, v)))

/-- Changeovers of a site's channels that still wait are carried out at once, as its channels are driven no longer (R297). -/
def changeovers (l : List (ChanId × Nat)) (s : State) : State :=
  l.foldl (fun s x => if kget? s.flt.pendSw x.1 = some x.2 then changeover x.1 x.2 s else s) s

/-- The serving engine of a channel changes at a time that lies between two frames of its site: 0 by a SWAP, 1 by a changeover of
the collector, 2 by the return of a spar (R297, R457). -/
def switchAt (i : SiteId) (c : ChanId) (v kind : Nat) (t : Int) (s : State) : State :=
  s.modSite i (fun x => { x with xsw := x.xsw ++
    [{ chan := c, time := t, due := ballSclk s i t, old := servedBy s i c t, new := v, kind := kind }] })

/-- The bank of a spar (R5). -/
def sparBank (p : SparId) : BankId := ⟨p.val / 2, by omega⟩

/-- The frame at whose end a taken SWAP switches has been taken: the switch instant is the following frame's vector start (R457, Table
10.5). -/
def swapAt (i : SiteId) (f : Frame) (s : State) : State :=
  match (s.site i).swap, (s.site i).eaveAt with
  | some (p, out), some g =>
    if g = f.num then
      match (s.calBank (sparBank p)).cur with
      | some w => switchAt i w.chan (if out then 1 + p.val % 2 else 0) 0 (s.site i).endTime s
      | none => s
    else s
  | _, _ => s

/-- Whether the last frame taken ends at an eave point: the changeovers that waited at it take place at its end, and the SCLK of
its word is kept until the next frame is taken (R296, R297). -/
def eaveTaken (i : SiteId) (f : Frame) (s : State) : State :=
  let x := s.site i
  if f.pad then s.setSite i { x with eaveOpen := none }
  else
    match x.eaves.find? (fun e => e.1 == f.num) with
    | some e =>
      let s := s.setSite i { x with eaves := x.eaves.filter (fun e => decide (f.num < e.1)), eaveOpen := some e.2.1 }
      swapAt i f ((e.2.2.filter (fun q => kget? s.flt.pendSw q.1 == some q.2)).foldl (fun s q => switchAt i q.1 q.2 1 x.endTime s) s)
    | none => swapAt i f (s.setSite i { x with eaveOpen := none })

/-! ### The end of a run -/

/-- The present SCLK as a time after a site's origin in fs. -/
def nowTime (s : State) (i : SiteId) : Int := ((s.now : Int) - (s.site i).origin) * 1250000

/-- The markers that a site's frames and engines drive become inactive (R217, R376): the states and what the balls show of them at
the same time.
[DESIGN CHOICE, assumption 228] -/
def endMarks (i : SiteId) (time : Int) (s : State) : State :=
  let s := dropMarks i time (flushMk i (fun c => decide (c.time ≤ time)) s)
  let t := wSiteEnded i s
  t.emits (markEdges t.od time s t)

/-- The site leaves ARMED, RUNNING and PAUSED for a state that drives nothing (R95, R157, R217, R240, R241, R376, R412,
R462). -/
def siteEnds (i : SiteId) (st : Nat) (s : State) : State :=
  let time := nowTime s i
  let s := cutLog i (closePad i none s)
  let s := (s.setSt i st).p (K.st_READY i) 0
  let s := s.p (K.sr_PENDING_INT i) 0
  let s := s.modSite i (fun x => { x with
    fifo := [], stall := none, halted := true, pausing := false, resuming := false, stopAt := none, cutAt := none, eaves := [],
    eaveOpen := none, xsw := [], startAt := none })
  let s := endMarks i time (tmuSiteEnded i (s.releaseRes i))
  let s := calSiteEnded i s
  let s := changeovers (sitePending s i) s
  let s := if st = SS.stopped then slathAfter i s.od (max (ballTime s i) (s.site i).endTime) s else slathCut i 7 slathGap s
  if (s.site i).taken = [] then closeFails i (flushLog i (s.site i).cycle s) else s

/-- The sources of Table 3.14, recorded in LAST_SEQ_FAULT. -/
def seqSource (src : Nat) : Bool := decide (0x8000 ≤ src) && decide (src ≤ 0x80A1)

/-- A park (R158, R186): the site enters FAULTED; a HOSTEVT whose frame never comes is posted with an open cycle
number.
[DEDUCED, assumption 8] [DEDUCED, assumption 39] -/
def parkSite (i : SiteId) (src : Nat) (s : State) : State :=
  if s.active i then
    let s := (match (s.site i).stall.bind Stall.post with
              | some d => (s.event i 1 (s.drawn % 2 ^ 48).toNat d).advance
              | none => s)
    let s := if seqSource src then s.p (K.sr_LAST_SEQ_FAULT i) src else s
    siteEnds i SS.faulted ((s.p (K.st_FAULT_SOURCE i) src).modSite i (fun x => { x with parkEp := none }))
  else s

/-- A rule parks a site and raises its source (R104, R158).
[DEDUCED, assumption 8] -/
def parkRaise (i : SiteId) (src : Nat) (detail : Nat) (s : State) : State :=
  parkSite i src (s.report src (oneSite i) detail)

/-- SITE_PARK: a park order reaches a site (R186). -/
def execSitePark (i : SiteId) (src : BitVec 16) (s : State) : Host.Outcome State Fault Refusal :=
  .next (s.fresh.timed (parkSite i src.toNat))

end Sys2Proof.Machine
end

