-- ==== Sys2Proof/Machine/Faults.lean ====
section
/-! DEFINITION. The fault collector: severities, episodes, targeted self-tests, retirement (chapter 16). -/
namespace Sys2Proof.Machine
open Sys2Proof

/-! ### Sources -/

/-- What the collector keeps of a source. -/
def State.src (s : State) (src : Nat) : SrcStat := kgetD s.flt.srcs src {}
/-- Replaces it. -/
def State.setSrc (s : State) (src : Nat) (x : SrcStat) : State :=
  { s with flt := { s.flt with srcs := kput s.flt.srcs src x } }
/-- Increases a saturating 32-bit number. -/
def sat1 (n : Nat) : Nat := min (n + 1) 4294967295

/-! ### Episode records (R700) -/

/-- Episode states. -/
abbrev epHandling : Nat := 1
/-- HELD -/
abbrev epHeld : Nat := 2
/-- CLEARED -/
abbrev epCleared : Nat := 3

/-- EP_STATE of a record. -/
def epState (s : State) (k : Nat) : Nat := s.n (K.ep_EP_STATE k)
/-- The record that is HANDLING.
[DEDUCED, assumption 159] -/
def handling (s : State) : Option Nat := if s.n K.fz_HANDLING < 32 then some (s.n K.fz_HANDLING) else none
/-- The record of an episode number. -/
def epRecord (s : State) (num : Nat) : Option Nat :=
  (List.range 32).find? (fun k => epState s k != 0 && s.n (K.ep_EP_NUM k) == num)
/-- The episode that parked a site is still being handled, or its raise has not reached the collector (R187).
[DEDUCED, assumption 43] -/
def siteFaultOpen (s : State) (i : SiteId) : Bool :=
  let src := s.n (K.st_FAULT_SOURCE i)
  s.flt.reports.any (fun r => r.src == src) ||
    (match handling s with
     | some k => (s.site i).parkEp == some (s.n (K.ep_EP_NUM k)) ||
         ((s.site i).parkEp == none && (s.src src).lastEp == s.n (K.ep_EP_NUM k))
     | none => false)
/-- An episode of severity DEVICE_SAFE is HANDLING or HELD (R699). -/
def deviceSafe (s : State) : Bool :=
  (List.range 32).any (fun k => (epState s k == 1 || epState s k == 2) && s.n (K.ep_EP_SEVERITY k) == 5)
/-- Episodes of NOTIFY or higher not CLEARED. -/
def uncleared (s : State) : List Nat :=
  (List.range 32).filter (fun k => (epState s k == 1 || epState s k == 2) && decide (2 ≤ s.n (K.ep_EP_SEVERITY k)))
/-- FAULT_N low and FAULT high (R713). -/
def pinsAsserted (s : State) : Bool := !(uncleared s).isEmpty || s.flt.latch || (s.pwr.on && decide (s.n K.bu_PHASE < 6))

/-- The collector announces an episode (R714). -/
def announce (k : Nat) (s : State) : State :=
  let sev := s.n (K.ep_EP_SEVERITY k)
  if s.n K.fy_NOTIFY_MIN ≤ sev then
    let s := signal 0 0 s
    if s.b K.net_NOTIFY_EN then
      let param := s.n (K.ep_EP_SOURCE k) + sev * 2 ^ 16 + epState s k * 2 ^ 24
      let v : Svc := { service := 0x11, index := 0x7020 + k, param := param }
      notify (s.n K.net_NOTIFY_NODE) (v.bytes (toBytes 4 (s.n (K.ep_EP_NUM k)))) s
    else s
  else s

/-- Makes a log entry of an episode (Tables 15.4, 16.6). -/
def epLog (kind src k data : Nat) (s : State) : State :=
  s.logSrc { kind := kind, source := src, episode := s.n (K.ep_EP_NUM k), data := data }

/-! ### Reactions (Table 16.2) -/

/-- Parks sites for a source. -/
def parkAll (src : Nat) (m : SiteMask) (s : State) : State := eachSite (fun i s => parkSite i src s) m s

/-- The reaction to a severity: parks, and under DEVICE_SAFE the levels and engines (R698, R508). -/
def react (src sev : Nat) (sites : SiteMask) (s : State) : State :=
  if sev = 5 then
    let s := parkAll src (BitVec.allOnes 32) s
    allEngs.foldl (fun s e => wRest e WS.idle s) (levelsToPark true s)
  else if sev = 4 then parkAll src sites s
  else s

/-- The sites that a source has parked and that no episode has taken yet; they become the episode's. -/
def adoptMask (s : State) (src : Nat) : SiteMask :=
  allSites.foldl (fun m i => if s.st i = SS.faulted ∧ s.n (K.st_FAULT_SOURCE i) = src ∧ (s.site i).parkEp = none then m ||| oneSite i else m) 0

/-- The parked sites of a source become part of the episode in a record. -/
def adopt (src k : Nat) (s : State) : State × Nat :=
  let m := adoptMask s src
  let num := s.n (K.ep_EP_NUM k)
  let s := eachSite (fun i s => s.modSite i (fun x => { x with parkEp := some num })) m s
  (s.p (K.ep_EP_SITES k) (s.n (K.ep_EP_SITES k) ||| m.toNat : Nat), m.toNat)

/-- EP_SEVERITY rises to a severity (R704); a rise takes its effects and is announced. -/
def raiseSev (k src sev : Nat) (sites : SiteMask) (s : State) : State :=
  if s.n (K.ep_EP_SEVERITY k) < sev then
    announce k (adopt src k (react src sev sites (s.p (K.ep_EP_SEVERITY k) sev))).1
  else s

/-! ### Causes -/

/-- The cause entry of a source in a record. -/
def causeOf (s : State) (k src : Nat) : Option Nat :=
  (List.range 8).find? (fun j => s.g (K.ep_EP_CAUSE k j) != 0 && s.n (K.ep_EP_CAUSE k j) % 65536 == src)
/-- The next free cause entry. -/
def freeCause (s : State) (k : Nat) : Option Nat := (List.range 8).find? (fun j => s.g (K.ep_EP_CAUSE k j) == 0)
/-- A cause entry's fields. -/
def causeWord (raises verdict sev src : Nat) : Nat := raises * 2 ^ 24 + verdict * 2 ^ 20 + sev * 2 ^ 16 + src

/-- Records a verdict and the severity after it in a cause. -/
def setVerdict (k src verdict sev : Nat) (s : State) : State :=
  match causeOf s k src with
  | some j => s.p (K.ep_EP_CAUSE k j) (causeWord (s.n (K.ep_EP_CAUSE k j) / 2 ^ 24) verdict sev src)
  | none => s

/-! ### Targeted self-tests (Table 16.4) -/

/-- Table 16.4 gives the source a test. -/
def hasTest (src : Nat) : Bool :=
  [(0x0000, 0x0003), (0x0010, 0x0012), (0x0020, 0x0020), (0x1100, 0x1110), (0x4001, 0x400B), (0x4010, 0x4012), (0x5000, 0x5013),
   (0x6000, 0x6013), (0x80A0, 0x80A1), (0x9020, 0x903F), (0x9100, 0x91FF), (0xB000, 0xB00F), (0xC000, 0xC009), (0xD000, 0xD307),
   (0xE100, 0xE10F), (0xF000, 0xF000)].any (fun r => decide (r.1 ≤ src) && decide (src ≤ r.2))

/-- Kind code of a unit in RETIRE and ST_CMD. -/
def runitKind : RUnit → Nat
  | .chan _ => 0 | .spar _ => 1 | .tmu _ => 2 | .engine _ => 3
/-- Number of a unit. -/
def runitNo : RUnit → Nat
  | .chan c => c.val | .spar p => p.val | .tmu u => u.val | .engine e => e.val

/-- The unit that a source's test covers by itself: a channel, a spar, a TMU or an engine. -/
def srcUnit (src : Nat) : Option RUnit :=
  if 0x9100 ≤ src ∧ src ≤ 0x91FF then some (.chan (Fin.ofNat 256 (src - 0x9100)))
  else if 0xB000 ≤ src ∧ src ≤ 0xB00F then some (.engine (Fin.ofNat 8 (src - 0xB000)))
  else if 0xC000 ≤ src ∧ src ≤ 0xC009 then some (.tmu (Fin.ofNat 10 (src - 0xC000)))
  else if 0xE100 ≤ src ∧ src ≤ 0xE10F then some (.spar (Fin.ofNat 16 (src - 0xE100)))
  else none

/-- A failing unit that the test of a source may retire (Table 16.4). -/
def retirable (src : Nat) (u : RUnit) : Bool :=
  if 0x9020 ≤ src ∧ src ≤ 0x903F then
    match u with
    | .chan c => c.val / 8 == src - 0x9020
    | .spar p => (sparBank p).val == (src - 0x9020) / 4
    | _ => false
  else srcUnit src == some u

/-- A site that is ARMED, RUNNING or PAUSED uses a unit, or a user arming holds it (R708, R712). -/
def unitInUse (s : State) (u : RUnit) : Bool :=
  match u with
  | .chan c => (match s.siteOf c with | some i => s.active i | none => false)
  | .spar p =>
    decide (3 ≤ s.n (K.sp_SPAR_STATE p)) && decide (s.n (K.sp_SPAR_STATE p) ≤ 5) &&
      (match s.siteOf (Fin.ofNat 256 (s.n (K.sp_SPAR_CHAN p))) with | some i => s.active i | none => false)
  | .tmu t => s.tmuBusy t || (match s.tmuSite t with | some i => s.active i | none => false)
  | .engine e => (match s.engSite e with | some i => s.active i | none => false)

/-- An engine's test has not begun, or has not passed the dead time with which it begins (R391). -/
def testDead (s : State) (u : RUnit) : Bool :=
  match u with
  | .engine e => (match (s.eng e).test with | some t => decide (s.now < t) | none => true)
  | _ => false

/-- The test of a source waits for its units (R708), or has not passed its dead time (R391). -/
def testWaits (s : State) (src : Nat) : Bool :=
  if 0x9020 ≤ src ∧ src ≤ 0x903F then
    let o := src - 0x9020
    (List.range 8).any (fun k => unitInUse s (.chan (Fin.ofNat 256 (8 * o + k)))) || s.tmuBusy (Fin.ofNat 10 (o / 4))
  else if 0x9100 ≤ src ∧ src ≤ 0x91FF then false
  else
    match srcUnit src with
    | some (.spar p) => unitInUse s (.spar p) || s.tmuBusy (Fin.ofNat 10 (sparBank p).val)
    | some u => unitInUse s u || testDead s u
    | none => false

/-- The bank whose TMU and spars the test of a source uses, on the calibration path (Table 16.4). -/
def testBank (src : Nat) : Option Nat :=
  if 0x9020 ≤ src ∧ src ≤ 0x903F then some ((src - 0x9020) / 4)
  else if 0xC000 ≤ src ∧ src ≤ 0xC007 then some (src - 0xC000)
  else if 0xE100 ≤ src ∧ src ≤ 0xE10F then some ((src - 0xE100) / 2)
  else none

/-- The bank whose TMU and spars the test of a unit uses. -/
def unitBank (kind no : Nat) : Option Nat :=
  match kind with
  | 0 => some (no / 32)
  | 1 => some (no / 2)
  | 2 => if no < 8 then some no else none
  | _ => none

/-- A test has taken the TMU and the spars of a bank from calibration: from the moment that its units are free to its verdict
(R708).
[DEDUCED, assumption 217] -/
def testTakes (s : State) (b : BankId) : Bool :=
  s.flt.tests.any (fun t => !t.deferred && testBank t.src == some b.val && !testWaits s t.src) ||
    (match s.flt.stCmd with | some (kind, no, _) => unitBank kind no == some b.val | none => false)

/-- SELFTEST entry (Table 16.6).
[DESIGN CHOICE, assumption 157] -/
def selftestLog (k src verdict : Nat) (unit : Option Nat) (spar : Option SparId) (retired : Bool) (s : State) : State :=
  let (u, s) := match unit with
    | some u => (u, s)
    | none => (match srcUnit src with | some u => (runitNo u, s) | none => ((s.drawn % 65536).toNat, s.advance))
  epLog 3 src k (verdict + u * 2 ^ 16 + (match spar with | some p => p.val | none => 0xFF) * 2 ^ 32 + b2n retired * 2 ^ 40) s

/-! ### Retirement and substitution (R710, R711) -/

/-- The entry of a retired unit. -/
def retireWord (u : RUnit) (spar : Option SparId) : Nat :=
  2 ^ 31 + runitKind u * 2 ^ 28 + (match spar with | some p => p.val | none => 0xFF) * 2 ^ 16 + runitNo u
/-- The RETIRE entry that holds a unit. -/
def retireEntry (s : State) (u : RUnit) : Option Nat :=
  (List.range 32).find? (fun j =>
    let v := s.n (K.rt_RETIRE j)
    v.testBit 31 && bits v 28 3 == runitKind u && v % 65536 == runitNo u)
/-- A unit of a kind and number. -/
def runitOf (kind no : Nat) : Option RUnit :=
  match kind with
  | 0 => if h : no < 256 then some (.chan ⟨no, h⟩) else none
  | 1 => if h : no < 16 then some (.spar ⟨no, h⟩) else none
  | 2 => if h : no < 10 then some (.tmu ⟨no, h⟩) else none
  | 3 => if h : no < 8 then some (.engine ⟨no, h⟩) else none
  | _ => none
/-- A unit is retired, or its retirement is decided. -/
def retired (s : State) (u : RUnit) : Bool :=
  (retireEntry s u).isSome || s.flt.tempRet.contains (runitKind u, runitNo u) ||
    s.flt.retiring.any (fun r => r.kind == runitKind u && r.unit == runitNo u)

/-- Takes a spar from calibration when it holds no channel's balls, or is the one that serves the channel that needs it;
answers false when it must first be returned (R38, R463, R708).
[DESIGN CHOICE, assumption 94] -/
def takeFromCal (p : SparId) (s : State) : State :=
  let b := sparBank p
  let k := s.calBank b
  let own : Bool := k.unit == some (false, p.val % 2)
  let k := if own then { k with unit := none, blocks := 0 } else k
  let s := if own then cancelJobs b s else s
  match k.cur with
  | some w =>
    if w.spar = some p then
      let s := s.p (K.cc_CAL_STATUS w.chan) 3
      let s := match s.siteOf w.chan with
        | some i => if (s.site i).swap.map Prod.fst = some p then dropSwap i s else s
        | none => s
      freeSpar p ((cancelJobs b s).setCalBank b { k with cur := none, queue := k.queue ++ [w.chan.val] })
    else freeSpar p (s.setCalBank b k)
  | none => freeSpar p (s.setCalBank b k)

/-- The channel whose balls a spar holds by a calibration swap. -/
def holdsBalls (s : State) (p : SparId) : Option ChanId :=
  match (s.calBank (sparBank p)).cur with
  | some w => if w.spar = some p ∧ s.g (K.ch_XBAR_STATE w.chan) ≠ 0 then some w.chan else none
  | none => none

/-- A spar becomes the substitute of a channel; the changeover waits for an eave point while its site is active (R297,
R711).
[DESIGN CHOICE, assumption 94] -/
def assignSpar (c : ChanId) (p : SparId) (s : State) : State :=
  let s := (s.p (K.sp_SPAR_STATE p) 5).p (K.sp_SPAR_CHAN p) c.val
  let v := 1 + p.val % 2
  if unitInUse s (.chan c) then { s with flt := { s.flt with pendSw := kput s.flt.pendSw c v } }
  else changeover c v s

/-- The substitution decision for a channel without an engine (R711). -/
def substitute (c : ChanId) (s : State) : Option SparId × State :=
  let b := (bankOf c).val
  let ps : List SparId := [Fin.ofNat 16 (2 * b), Fin.ofNat 16 (2 * b + 1)]
  match ps.find? (fun (p : SparId) => s.g (K.sp_SPAR_STATE p) == 0) with
  | some p => (some p, assignSpar c p s)
  | none =>
    let cal := ps.filter (fun (p : SparId) => decide (1 ≤ s.g (K.sp_SPAR_STATE p)) && decide (s.g (K.sp_SPAR_STATE p) ≤ 4) &&
      !(s.flt.wants.any (fun w => w.spar == p)))
    match cal.find? (fun p => holdsBalls s p == some c) with
    | some p => (some p, assignSpar c p (takeFromCal p s))
    | none =>
      match cal.find? (fun p => (holdsBalls s p).isNone) with
      | some p => (some p, assignSpar c p (takeFromCal p s))
      | none =>
        match cal with
        | p :: _ => (some p, { s with flt := { s.flt with wants := s.flt.wants ++ [⟨c, p, s.now⟩] } })
        | [] =>
          (none, ({ s with flt := { s.flt with noEng := if s.flt.noEng.contains c.val then s.flt.noEng else s.flt.noEng ++ [c.val] } }).report
            (Src.SPAR_EXHAUSTED b) 0 0)

/-- A unit is retired by the verdict of a test in an episode: its record is made durable, a channel's substitute is chosen
at once (R710, R711). -/
def retireUnit (k src : Nat) (u : RUnit) (s : State) : State :=
  if retired s u then s
  else
    let (p, s) := match u with
      | .chan c => substitute c s
      | _ => (none, s)
    let num := s.n (K.ep_EP_NUM k)
    let r : Retiring := ⟨runitKind u, runitNo u, p, num⟩
    let s := { s with flt := { s.flt with retiring := s.flt.retiring ++ [r] } }
    selftestLog k src 2 (some (runitNo u)) p true (s.incSat (K.ep_EP_RETIRED k) 255)

/-- The effect of a retirement on a spar, a TMU or an engine (Table 16.5). -/
def retireEffect (u : RUnit) (s : State) : State :=
  match u with
  | .chan _ => s
  | .tmu t => if s.tmuBusy t then tmuEnd t 3 s else s
  | .engine e => wRest e WS.faulted s
  | .spar p =>
    let st := s.n (K.sp_SPAR_STATE p)
    let c : ChanId := Fin.ofNat 256 (s.n (K.sp_SPAR_CHAN p))
    if st = 5 then
      let s := { (s.p (K.sp_SPAR_STATE p) 6).p (K.sp_SPAR_CHAN p) 0xFFFF with flt := { s.flt with pendSw := kdel s.flt.pendSw c } }
      (substitute c s).2
    else
      let s := match holdsBalls s p with
        | some d =>
          if unitInUse s (.chan d) then { s with flt := { s.flt with pendSw := kput s.flt.pendSw d 0 } } else s.p (K.ch_XBAR_STATE d) 0
        | none => s
      ((if 1 ≤ st ∧ st ≤ 4 then takeFromCal p s else s).p (K.sp_SPAR_STATE p) 6).p (K.sp_SPAR_CHAN p) 0xFFFF

/-- RETIREMENT_DURABLE: the oldest retirement whose spar is decided becomes durable and takes effect; with 32 entries in
use it holds for this bring-up only (R710, R720). -/
def execRetirementDurable (s : State) : Host.Outcome State Fault Refusal :=
  s.served .coll (.retirementDurable) fun s =>
  let s := s.fresh
  .next (match s.flt.retiring.find? (fun r => !(r.kind == 0 && s.flt.wants.any (fun w => w.chan.val == r.unit))) with
    | none => s
    | some r =>
      let s := { s with flt := { s.flt with retiring := s.flt.retiring.erase r } }
      match runitOf r.kind r.unit with
      | none => s
      | some u =>
        match (List.range 32).find? (fun j => !(s.n (K.rt_RETIRE j)).testBit 31) with
        | some j => retireEffect u ((s.p (K.rt_RETIRE j) (retireWord u r.spar)).persist [K.rt_RETIRE j])
        | none => retireEffect u { s with flt := { s.flt with tempRet := s.flt.tempRet ++ [(r.kind, r.unit)] } })

/-! ### Verdicts (R707, R709) -/

/-- A raise's test: scheduled, or NOT_TESTED at once. -/
def schedule (k : Nat) (r : Report) (sev : Nat) (s : State) : State :=
  if hasTest r.src ∧ s.b K.fy_SELFTEST_EN then
    { s with flt := { s.flt with tests := s.flt.tests ++ [{ src := r.src, ep := s.n (K.ep_EP_NUM k), sev := sev, at_ := s.now, sites := r.sites }] } }
  else
    let s := setVerdict k r.src 3 sev s
    if r.retire = [] then selftestLog k r.src 3 none none false s
    else (r.retire.filterMap (fun u => runitOf u.1 u.2)).foldl (fun s u => retireUnit k r.src u s) s

/-! ### Raises at the collector (R698 to R703) -/

/-- The record that a new episode takes (R701): the lowest FREE one, else the one CLEARED longest ago. -/
def newRecord (s : State) : Option Nat :=
  match (List.range 32).find? (fun k => epState s k == 0) with
  | some k => some k
  | none => s.flt.clearedOrder.find? (fun k => decide (k < 32))

/-- The newest HELD episode (R703). -/
def newestHeld (s : State) : Option Nat :=
  (List.range 32).foldl (fun (m : Option Nat) k =>
    if epState s k == epHeld && (match m with | some j => decide (s.n (K.ep_EP_NUM j) < s.n (K.ep_EP_NUM k)) | none => true) then some k else m) none

/-- EP_DETAIL is stated for two sources (R695, R709). -/
def hasDetail (src : Nat) : Bool := src == Src.RAIL_DISAGREE || src == Src.DEFERRED_TEST_FAIL

/-- A raise opens an episode in a record (R701). -/
def openEp (k : Nat) (r : Report) (sev : Nat) (s : State) : State :=
  let s := s.cnt32 K.fz_EPISODES
  let num := s.n K.fz_EPISODES
  let s := { s with flt := { s.flt with clearedOrder := s.flt.clearedOrder.erase k } }
  let s := (List.range 18).foldl (fun (s : State) j => s.p (Objects.ob (0x7020 + k) (j + 1)) 0) s
  let s := ((s.p (K.ep_EP_NUM k) num).p (K.ep_EP_STATE k) epHandling).p (K.ep_EP_SOURCE k) r.src
  let s := ((s.p (K.ep_EP_SEVERITY k) sev).p (K.ep_EP_OPEN_TIME k) s.utc).p (K.ep_EP_CAUSE k 0) (causeWord 1 0 sev r.src)
  let s := (s.p (K.ep_EP_DETAIL k) (if hasDetail r.src then r.detail else 0 : Nat)).p K.fz_HANDLING k
  let s := s.setSrc r.src { s.src r.src with lastEp := num }
  let (s, m) := adopt r.src k (react r.src sev r.sites s)
  let s := epLog 0 r.src k (r.detail % 2 ^ 32 * b2n (hasDetail r.src) + m * 2 ^ 32 + k * 2 ^ 64) s
  schedule k r sev (announce k s)

/-- The tests of a cause follow the severity that a further raise of its source gives it, and the sites that the raise names
(R704, R707). -/
def sharpen (num : Nat) (r : Report) (sev : Nat) (s : State) : State :=
  { s with flt := { s.flt with tests := s.flt.tests.map (fun t =>
      if t.src = r.src ∧ t.ep = num then { t with sev := max t.sev sev, sites := t.sites ||| r.sites } else t) } }

/-- The cause that a merged raise counts in, or the next free entry where its source is no cause yet (R702). -/
def mergeCause (k : Nat) (r : Report) (sev : Nat) (known : Bool) (s : State) : State :=
  match causeOf s k r.src with
  | some j =>
    let v := s.n (K.ep_EP_CAUSE k j)
    s.p (K.ep_EP_CAUSE k j) (causeWord (min 255 (v / 2 ^ 24 + 1)) (bits v 20 3) (max (bits v 16 3) sev) r.src)
  | none =>
    if known then s
    else match freeCause s k with
      | some j => s.p (K.ep_EP_CAUSE k j) (causeWord 1 0 sev r.src)
      | none => s

/-- A raise merges into the episode in a record (R702). -/
def mergeEp (k : Nat) (r : Report) (sev : Nat) (s : State) : State :=
  let num := s.n (K.ep_EP_NUM k)
  let known := (s.src r.src).lastEp == num
  let s := s.setSrc r.src { s.src r.src with lastEp := num }
  let s := sharpen num r sev (s.sat32 (K.ep_EP_MERGED k))
  let s := if hasDetail r.src then s.p (K.ep_EP_DETAIL k) r.detail else s
  let s := mergeCause k r sev known s
  let (s, m) := adopt r.src k (react r.src sev r.sites s)
  let rise := s.n (K.ep_EP_SEVERITY k) < sev
  let s := if rise then s.p (K.ep_EP_SEVERITY k) sev else s
  let s := if known = false ∨ m ≠ 0 then
      epLog 1 r.src k (r.detail % 2 ^ 32 * b2n (hasDetail r.src) + m * 2 ^ 32 + k * 2 ^ 64) s else s
  let s := if rise then announce k s else s
  if known then s else schedule k r sev s

/-- A raise of LOG or higher (R701 to R703). -/
def takeRaise (r : Report) (sev : Nat) (s : State) : State :=
  match handling s with
  | some k => mergeEp k r sev s
  | none =>
    match newRecord s with
    | some k => openEp k r sev s
    | none =>
      match newestHeld s with
      | some k =>
        mergeEp k r sev (announce k (((s.p (K.ep_EP_STATE k) epHandling).p K.fz_HANDLING k).sat32 K.fz_OVERFLOWS))
      | none => s

/-- One raise at the collector (R698). -/
def oneRaise (r : Report) (s : State) : State :=
  match sevOf s r.src with
  | none => s
  | some sev =>
    let s := s.cnt64 K.fz_RAISES
    let s := s.setSrc r.src { s.src r.src with raises := sat1 (s.src r.src).raises }
    if sev = 0 then s else takeRaise r sev s

/-- Raises of one collector clock in the order in which they act: highest severity first, then lowest source (R701).
[DEDUCED, assumption 158] -/
def raiseLe (s : State) (a b : Report) : Bool :=
  let x := (sevOf s a.src).getD 0
  let y := (sevOf s b.src).getD 0
  decide (y < x) || (x == y && decide (a.src ≤ b.src))

/-- Inserts a raise in that order.
[DEDUCED, assumption 158] -/
def insertRaise (s : State) (r : Report) : List Report → List Report
  | [] => [r]
  | a :: l => if raiseLe s a r then a :: insertRaise s r l else r :: a :: l

/-- The raises that reach the collector in one collector clock. -/
def collect (rs : List Report) (s : State) : State :=
  let known := rs.filter (fun r => (Src.dfltSev r.src).isSome)
  (known.foldl (fun l r => insertRaise s r l) []).foldl (fun s r => oneRaise r s) s

/-! ### Sites of a source -/

/-- The sites that a source names by its number, for a raise that comes without them (Table 16.1). -/
def srcSites (s : State) (src : Nat) : SiteMask :=
  let site (lo : Nat) : SiteMask := oneSite (Fin.ofNat 32 (src - lo))
  let ofChan (c : Nat) : SiteMask := match s.siteOf (Fin.ofNat 256 c) with | some i => oneSite i | none => 0
  if (0x5100 ≤ src ∧ src ≤ 0x515F) ∨ (0x8000 ≤ src ∧ src ≤ 0x809F) ∨ (0x8120 ≤ src ∧ src ≤ 0x813F) ∨ (0x9000 ≤ src ∧ src ≤ 0x901F) ∨
     (0x9040 ≤ src ∧ src ≤ 0x905F) ∨ (0xA000 ≤ src ∧ src ≤ 0xA05F) ∨ (0xE120 ≤ src ∧ src ≤ 0xE13F) ∨ (0x2200 ≤ src ∧ src ≤ 0x221F) then site 0
  else if 0x9020 ≤ src ∧ src ≤ 0x903F then
    (List.range 8).foldl (fun m k => m ||| ofChan (8 * (src - 0x9020) + k)) 0
  else if (0x9100 ≤ src ∧ src ≤ 0x92FF) ∨ (0xE000 ≤ src ∧ src ≤ 0xE0FF) ∨ (0xE200 ≤ src ∧ src ≤ 0xE2FF) then ofChan src
  else if 0xD000 ≤ src ∧ src ≤ 0xD2BF then (if h : src % 256 < 192 then dacSites s ⟨src % 256, h⟩ else 0)
  else if 0xD300 ≤ src ∧ src ≤ 0xD307 then bankSites s (src - 0xD300)
  else if 0xB000 ≤ src ∧ src ≤ 0xB01F then (match s.engSite (Fin.ofNat 8 src) with | some i => oneSite i | none => 0)
  else 0

/-- Errors of the link are logged in the AER status registers of the PF; in which bits the manual does not say.
[DESIGN CHOICE, assumption 241] -/
def logAer (srcs : List Nat) (s : State) : State :=
  let x := s.fnr 0
  let v (src k : Nat) : BitVec 32 := if srcs.contains src then BitVec.ofInt 32 (Config.freeInt (s.free + k)) else 0
  if srcs.contains Src.PCIE_UNCORRECTABLE ∨ srcs.contains Src.PCIE_CORRECTABLE then
    { s with free := s.free + 2 }.setFn 0 { x with aerUnc := x.aerUnc ||| v Src.PCIE_UNCORRECTABLE 0,
                                                   aerCor := x.aerCor ||| v Src.PCIE_CORRECTABLE 1 }
  else s

/-- FAULT_RAISE: the oldest raises under way, at most n, and raises of units that have no row of their own reach the
collector in one collector clock (R698).
[DESIGN CHOICE, assumption 7] -/
def execFaultRaise (n : Nat) (ext : List (BitVec 16 × SiteMask)) (s : State) : Host.Outcome State Fault Refusal :=
  s.served .coll (.faultRaise n ext) fun s =>
  let s := s.fresh
  let rs := s.flt.reports.take n
  let s := { s with flt := { s.flt with reports := s.flt.reports.drop n } }
  let es := (ext.filter (fun e => !(s.src e.1.toNat).active)).map (fun e =>
    ({ src := e.1.toNat, sites := e.2 ||| srcSites s e.1.toNat } : Report))
  .next (collect (rs ++ es) (logAer (es.map (·.src)) s))

/-- RAIL_DISAGREE: a source's rails agree for more than 2 collector clocks; or they are opposite again and show whether
the source is active (R695). -/
def railDisagree (src : Nat) (back : Option Bool) (s : State) : State :=
  match back with
  | none =>
    if (s.src src).broken then s
    else
      let s := s.activate src (srcSites s src) 0
      (s.setSrc src { s.src src with broken := true }).report Src.RAIL_DISAGREE 0 src
  | some a => if (s.src src).broken then s.setSrc src { s.src src with broken := false, active := a } else s

/-- RAIL_DISAGREE. -/
def execRailDisagree (src : BitVec 16) (back : Option Bool) (s : State) : Host.Outcome State Fault Refusal :=
  s.served .coll (.railDisagree src back) fun s =>
  .next (railDisagree src.toNat back s.fresh)

/-- The test that a source has in the episode being handled. -/
def liveTest (s : State) (k src : Nat) : Option Test :=
  s.flt.tests.find? (fun t => t.src == src && t.ep == s.n (K.ep_EP_NUM k) && !t.deferred)

/-- Drops a test. -/
def dropTest (t : Test) (s : State) : State := { s with flt := { s.flt with tests := s.flt.tests.erase t } }

/-- Dead time of an engine in SCLK: 256 samples (R351). -/
def deadSclk (s : State) (e : EngId) : Nat := 16 * wdiv s e

/-- An engine under test outputs PARK_WORD: its grid is gone, and it enters the dead time with which the test begins (R391). -/
def testBegins (u : RUnit) (s : State) : State :=
  match u with
  | .engine e =>
    let s := s.setEng e { s.eng e with ts := none, before := [], words := [], play := [], snap := [],
                                       test := some (s.now + deadSclk s e), testEnd := none }
    if s.wst e = WS.faulted then s else s.p (K.ws_WF_STATE e) WS.dead
  | _ => s
/-- The test of an engine ends with a dead time (R391). -/
def testEnds (u : RUnit) (s : State) : State :=
  match u with
  | .engine e => s.setEng e { s.eng e with test := none, testEnd := some (s.now + deadSclk s e) }
  | _ => s

/-- The engine has a test to run: of a source, or of ST_CMD. -/
def testWanted (s : State) (e : EngId) : Bool :=
  s.flt.tests.any (fun t => srcUnit t.src == some (.engine e)) ||
    (match s.flt.stCmd with | some (kind, no, _) => kind == 3 && no == e.val | none => false)

/-- The test of an engine goes on with time: it begins once its site is not active, and the engine is IDLE again after the dead time
with which it ends (R391, R708). -/
def testTime (s : State) (e : EngId) : State :=
  let x := s.eng e
  match x.testEnd with
  | some t =>
    if s.now < t then s
    else
      let s := s.setEng e { x with testEnd := none }
      if s.wst e = WS.faulted then s else wRest e WS.idle s
  | none => if x.test.isNone && testWanted s e && !unitInUse s (.engine e) then testBegins (.engine e) s else s

/-- The same for every engine. -/
def testTimes (s : State) : State := allEngs.foldl testTime s

/-- The verdict of the targeted self-test of a source in the episode being handled (R707, R710). -/
def verdict (src : Nat) (pass : Bool) (units : List RUnit) (s : State) : State :=
  match handling s with
  | none => s
  | some k =>
    match liveTest s k src with
    | none => s
    | some t =>
      if testWaits s src then s
      else
        let s := dropTest t s
        let s := match srcUnit src with | some u => testEnds u s | none => s
        if pass then
          let s := s.setSrc src { s.src src with transient := sat1 (s.src src).transient }
          selftestLog k src 1 none none false (setVerdict k src 1 t.sev s)
        else
          let s := s.setSrc src { s.src src with persistent := sat1 (s.src src).persistent }
          let sev := min 5 (t.sev + 1)
          let s := setVerdict k src 2 sev s
          let us := (units.filter (retirable src)).filter (fun u => !retired s u)
          let s := if 3 ≤ sev ∧ us ≠ [] then us.foldl (fun s u => retireUnit k src u s) s
            else selftestLog k src 2 none none false s
          raiseSev k src sev t.sites s

/-- Removes the retirement record of a unit. -/
def dropRetire (u : RUnit) (s : State) : State :=
  match retireEntry s u with
  | some j => (s.p (K.rt_RETIRE j) 0).persist [K.rt_RETIRE j]
  | none => { s with flt := { s.flt with tempRet := s.flt.tempRet.erase (runitKind u, runitNo u) } }

/-- A substitute that does not hold its channel's balls returns to FREE. -/
def freeSubstitute (c : ChanId) (p : SparId) (s : State) : State :=
  if s.n (K.sp_SPAR_STATE p) = 5 ∧ s.n (K.sp_SPAR_CHAN p) = c.val then freeSpar p s else s

/-- A channel has its own engine again: its substitute returns at the time that R297 allows. -/
def freeChannel (c : ChanId) (s : State) : State :=
  let f := s.flt
  let s := { s with flt := { f with noEng := f.noEng.erase c.val, wants := f.wants.filter (fun w => w.chan != c), pendSw := kdel f.pendSw c } }
  if s.g (K.ch_XBAR_STATE c) = 0 then
    freeSubstitute c (Fin.ofNat 16 (2 * (bankOf c).val + 1)) (freeSubstitute c (Fin.ofNat 16 (2 * (bankOf c).val)) s)
  else if unitInUse s (.chan c) then { s with flt := { s.flt with pendSw := kput s.flt.pendSw c 0 } }
  else changeover c 0 s

/-- Frees a unit whose retirement is undone (R712). -/
def unretire (u : RUnit) (s : State) : State :=
  let s := dropRetire u s
  match u with
  | .chan c => freeChannel c s
  | .spar p => freeSpar p s
  | .tmu _ => s
  | .engine e => wRest e WS.idle s

/-- The end of the test of ST_CMD (R712). -/
def stVerdict (pass : Bool) (s : State) : State :=
  match s.flt.stCmd with
  | none => s
  | some (kind, no, un) =>
    match runitOf kind no with
    | none => s
    | some u =>
      if unitInUse s u || testDead s u then s
      else
        let s := ((testEnds u { s with flt := { s.flt with stCmd := none } }).p K.stc_ST_BUSY 0).p K.stc_ST_VERDICT (if pass then 1 else 2)
        if un && pass && retired s u then unretire u s else s

/-- A DEFERRED test of a source runs once its unit is free, and passes: it is not run again (R709). -/
def laterPass (src : Nat) (s : State) : State :=
  match s.flt.tests.find? (fun t => t.src == src && t.deferred) with
  | some t =>
    if testWaits s src then s
    else
      let s := dropTest t s
      match srcUnit src with | some u => testEnds u s | none => s
  | none => s

/-- SELFTEST_VERDICT: a targeted self-test ends, of a source or (none) of ST_CMD, with the units in which it locates a
failure; a DEFERRED test that passes ends here too. -/
def execSelftestVerdict (src : Option (BitVec 16)) (pass : Bool) (units : List RUnit) (s : State) :
    Host.Outcome State Fault Refusal :=
  s.served .coll (.selftestVerdict src pass units) fun s =>
  let s := s.fresh
  .next (match src with
    | some x =>
      if ((handling s).bind (fun k => liveTest s k x.toNat)).isNone ∧ pass then laterPass x.toNat s else verdict x.toNat pass units s
    | none => stVerdict pass s)

/-- SELFTEST_DEFERRED: a test has waited SELFTEST_WAIT (R709). -/
def execSelftestDeferred (src : BitVec 16) (s : State) : Host.Outcome State Fault Refusal :=
  s.served .coll (.selftestDeferred src) fun s =>
  let s := s.fresh
  .next (match handling s with
    | none => s
    | some k =>
      match liveTest s k src.toNat with
      | none => s
      | some t =>
        if t.at_ + s.n K.fy_SELFTEST_WAIT / 1250000 ≤ s.now then
          let s := { s with flt := { s.flt with tests := s.flt.tests.map (fun x => if x = t then { x with deferred := true } else x) } }
          selftestLog k src.toNat 4 none none false (setVerdict k src.toNat 4 t.sev s)
        else s)

/-- DEFERRED_TEST_FAIL: a DEFERRED test of a source runs once its unit is free, and fails (R709). -/
def execDeferredTestFail (src : BitVec 16) (units : List RUnit) (s : State) : Host.Outcome State Fault Refusal :=
  s.served .coll (.deferredTestFail src units) fun s =>
  let s := s.fresh
  let n := src.toNat
  .next (match s.flt.tests.find? (fun t => t.src == n && t.deferred) with
    | none => s
    | some t =>
      if testWaits s n then s
      else
        let us := (units.filter (retirable n)).map (fun u => (runitKind u, runitNo u))
        let unit := match us with
          | u :: _ => u.2
          | [] => (match srcUnit n with | some u => runitNo u | none => 0)
        let r : Report := { src := Src.DEFERRED_TEST_FAIL, detail := unit, retire := if 3 ≤ t.sev + 1 then us else [] }
        let s := dropTest t s
        let s := match srcUnit n with | some u => testEnds u s | none => s
        { s with flt := { s.flt with reports := s.flt.reports ++ [r] } })

/-! ### The end of handling and clearing (R705, R706) -/

/-- An episode becomes CLEARED by a path. -/
def clearEp (k path : Nat) (s : State) : State :=
  let s := (s.p (K.ep_EP_STATE k) epCleared).p (K.ep_EP_CLEAR_TIME k) s.utc
  let s := { s with flt := { s.flt with clearedOrder := s.flt.clearedOrder ++ [k] } }
  announce k (epLog 2 (s.n (K.ep_EP_SOURCE k)) k (path + s.n (K.ep_EP_SEVERITY k) * 2 ^ 8) s)

/-- HANDLING_END: every scheduled test has its verdict and every retirement record is durable (R705). -/
def execHandlingEnd (s : State) : Host.Outcome State Fault Refusal :=
  s.served .coll (.handlingEnd) fun s =>
  let s := s.fresh
  .next (match handling s with
    | none => s
    | some k =>
      let num := s.n (K.ep_EP_NUM k)
      if s.flt.tests.any (fun t => t.ep == num && !t.deferred) || s.flt.retiring.any (fun r => r.ep == num) then s
      else
        let s := announce k ((s.p (K.ep_EP_STATE k) epHeld).p K.fz_HANDLING 0xFF)
        if s.n (K.ep_EP_SEVERITY k) = 1 then clearEp k 3 s else s)

/-- A cause of the episode in a record is active. -/
def causeActive (s : State) (k : Nat) : Bool :=
  (List.range 8).any (fun j => s.g (K.ep_EP_CAUSE k j) != 0 && (s.src (s.n (K.ep_EP_CAUSE k j) % 65536)).active)

/-- The path code of a FAULT_CLEAR write (Table 16.6). -/
def pathCode (p : Path) : Nat := match p with | .t1s _ _ => 0 | .pcie _ _ => 1 | .mbox => 2

/-- A write of FAULT_CLEAR (R706). -/
def faultClear (p : Path) (num : Nat) (s : State) : State :=
  if num = 0xFFFFFFFF then
    let open_ := (List.range 32).filter (fun k => epState s k == 1 || epState s k == 2)
    let go := open_.filter (fun k => epState s k == 2 && !causeActive s k)
    (go.foldl (fun s k => clearEp k (pathCode p) s) s).p K.fz_CLEAR_STATUS
      (if go.length = open_.length then Status.OK else Status.FLT_EPISODE_OPEN)
  else
    match epRecord s num with
    | none => s.p K.fz_CLEAR_STATUS Status.FLT_NO_EPISODE
    | some k =>
      if epState s k = epCleared then s.p K.fz_CLEAR_STATUS Status.OK
      else if epState s k = epHandling ∨ causeActive s k then s.p K.fz_CLEAR_STATUS Status.FLT_EPISODE_OPEN
      else (clearEp k (pathCode p) s).p K.fz_CLEAR_STATUS Status.OK

/-- FAULT_CLEAR. -/
def execFaultClear (p : Path) (num : BitVec 32) (s : State) : Host.Outcome State Fault Refusal :=
  s.served .coll (.faultClear p num) fun s =>
  .next (faultClear p num.toNat s.fresh)

/-- A write of ST_CMD (R712). -/
def stCmd (un : Bool) (u : RUnit) (s : State) : State :=
  if unitInUse s u ∨ s.flt.stCmd.isSome then s.p K.stc_ST_STATUS Status.FLT_UNIT_BUSY
  else testBegins u ((({ s with flt := { s.flt with stCmd := some (runitKind u, runitNo u, un) } }).p K.stc_ST_STATUS Status.OK).p K.stc_ST_BUSY 1)

/-- TEST. -/
def execTest (u : RUnit) (s : State) : Host.Outcome State Fault Refusal :=
  s.served .coll (.test u) fun s =>
  .next (stCmd false u s.fresh)

/-- UNRETIRE. -/
def execUnretire (u : RUnit) (s : State) : Host.Outcome State Fault Refusal :=
  s.served .coll (.unretire u) fun s =>
  .next (stCmd true u s.fresh)

end Sys2Proof.Machine
end

