-- ==== Sys2Proof/Machine/Txn.lean ====
section
/-! DEFINITION. Transaction records: owners, locks, the answer to a request, and how a transaction ends (R616 to R622,
R625, R630, R632). -/
namespace Sys2Proof.Machine
open Sys2Proof

/-! ### Records -/

/-- A transaction record. -/
def State.txn (s : State) (k : Fin 8) : Txn := s.dict.txns[k]
/-- Replaces a transaction record. -/
def State.setTxn (s : State) (k : Fin 8) (t : Txn) : State := { s with dict := { s.dict with txns := s.dict.txns.set k t } }
/-- The record numbers. -/
def allTxns : List (Fin 8) := List.finRange 8
/-- OPEN or PENDING. -/
def Txn.live (t : Txn) : Bool := t.st == 1 || t.st == 2
/-- A COMMIT has passed validation and nothing has been applied yet. -/
def Txn.committed (t : Txn) : Bool := (t.st == 2 && t.wait != .mark) || (t.st == 1 && t.wait == .record)
/-- The record that holds a transaction number. -/
def findTxn (s : State) (num : Nat) : Option (Fin 8) := allTxns.find? (fun k => (s.txn k).num == num && (s.txn k).st != 0)

/-- Two paths are one owner (R617): any slot of a function, a node and its session, the mailbox. -/
def sameOwner : Path → Path → Bool
  | .pcie f _, .pcie g _ => f == g
  | .t1s n a, .t1s m b => n == m && a == b
  | .mbox, .mbox => true
  | _, _ => false

/-! ### Staging and locks (R618, R620, R635) -/

/-- The values that a transaction applies: those staged, and the session numbers that its commit adds (R473). -/
def Txn.values (t : Txn) : KMap SVal := t.extra.foldl (fun m e => kput m e.1 e.2) t.staged
/-- Bytes that a staged value takes (R618). -/
def stagedSize (v : SVal) : Nat := entrySize 0 v
/-- STAGED_BYTES: complete values, and what has arrived of unfinished DOMAIN writes.
[DESIGN CHOICE, assumption 130] -/
def Txn.bytes (t : Txn) : Nat :=
  t.staged.foldl (fun a e => a + stagedSize e.2) 0 + t.dom.foldl (fun a e => a + stagedSize (.bytes e.2)) 0
/-- The object is locked to the transaction. -/
def Txn.locks (t : Txn) (key : Nat) : Bool := t.live && (t.values.any (fun e => e.1 == key) || t.dom.any (fun e => e.1 == key))
/-- The object is locked to a transaction other than this one, or to a write outside a transaction that waits for the
journal. -/
def lockedElse (s : State) (key : Nat) (self : Option (Fin 8)) : Bool :=
  allTxns.any (fun k => some k != self && (s.txn k).locks key) || s.dict.outs.any (fun t => t.locks key)

/-- The access code of an object. -/
def accOf (key : Nat) : Objects.Acc := ((Objects.rowOf key).map (·.acc)).getD .ro
/-- The persistence class of an object. -/
def perOf (key : Nat) : Objects.Per := ((Objects.rowOf key).map (·.per)).getD .V
/-- The transaction stages an object of access sealed. -/
def Txn.sealed (t : Txn) : Bool := t.staged.any (fun e => accOf e.1 == .sealed) || t.dom.any (fun e => accOf e.1 == .sealed)
/-- The transaction holds an object of class P or S (R626). -/
def Txn.journalled (t : Txn) : Bool := t.staged.any (fun e => perOf e.1 == .P || perOf e.1 == .S)

/-- The power-fail warning stands (R737). -/
def pfw (s : State) : Bool := s.g K.pw_PFW_ACTIVE != 0

/-! ### Transactions of the device itself (R17, R18) -/

/-- A transaction of the device itself: the values that its objects have in a changed state, with its apply point. One that
writes P or S objects first waits for its journal record. -/
def devTxn (job : CalJob) (kind : Nat) (sites : SiteMask) (keys : List Nat) (t : State) : Txn :=
  let x : Txn := { st := 2, staged := keys.foldl (fun m k => kput m k (t.sval k)) [], kind := kind, sites := sites, job := some job }
  if x.journalled then { x with st := 1, wait := .record } else x
/-- It is committed. -/
def State.publishTxn (x : Txn) (s : State) : State :=
  { s with dict := { s.dict with tick := s.dict.tick + 1, outs := s.dict.outs ++ [{ x with order := s.dict.tick }] } }
/-- The device publishes the values that objects have in a changed state.
[DESIGN CHOICE, assumption 138] -/
def State.publish (s : State) (job : CalJob) (kind : Nat) (sites : SiteMask) (keys : List Nat) (t : State) : State :=
  State.publishTxn (devTxn job kind sites keys t) { s with free := t.free }

/-- A transaction of the device itself is in progress, or waits to begin. -/
def State.jobs (s : State) (p : CalJob → Bool) : Bool := (s.dict.outs ++ s.cal.held).any (fun t => match t.job with | some j => p j | none => false)

/-- The objects are open to a transaction: none is locked, and no power-fail warning stands for persistent ones (R620, R737). -/
def openKeys (s : State) (keys : List Nat) : Bool :=
  keys.all (fun k => !lockedElse s k none) && (keys.all (fun k => perOf k == .V) || !pfw s)

/-! ### Answers (R630, R639, R644) -/

/-- The service header of an answer. -/
def Ask.header (a : Ask) (status result total : Nat) : Svc :=
  { service := a.service, index := a.args.index.toNat, sub := a.args.sub.toNat, apply := a.args.apply,
    txn := a.args.txn.toNat, status := status, param := result, total := total }

/-- The slot's registers after its command ends (Table 13.5). -/
def Slot.done (x : Slot) (read : Bool) (status result total : Nat) (data : List Byte) : Slot :=
  { x with busy := false, status := status, result := result, total := total, data := if read then data else x.data }

/-- A message of the dictionary server in the response half of the mailbox (R639, Table 15.1). -/
def State.mail (s : State) (body : List Byte) : State := { s with mgmt := { s.mgmt with mailResp := body } }.emit (.mail body)

/-- A request is answered on its path; on the field network to the requester's address and node (R644). -/
def answer (a : Ask) (status result total : Nat) (data : List Byte) (s : State) : State :=
  let s := s.emit (.answer a.path status result total data)
  let body := (a.header status result total).bytes data
  match a.path with
  | .pcie f n =>
    let x := s.fnr f
    let y := (x.slots[n]).done (a.service == 1 && status == 0) status result total data
    let s := s.setFn f { x with slots := x.slots.set n y }
    if y.ien then signal f y.iv.toNat s else s
  | .t1s node session =>
    let c := kgetD s.dict.clients node { session := session, seq := a.seq, mac := a.mac }
    let s := if c.session = session ∧ c.seq = a.seq then
        { s with dict := { s.dict with clients := kput s.dict.clients node { c with resp := some body } } } else s
    if s.portOn then s.emit (.kdp a.mac node (kdpFrame 2 node (s.n K.net_NODE_ID) session.toNat a.seq.toNat a.retry body)) else s
  | .mbox => s.mail body

/-! ### The end of a transaction (R622, R625, R630) -/

/-- A transaction that was PENDING is reported to its owner's path (R630, R647). -/
def reportEnd (t : Txn) (st status : Nat) (s : State) : State :=
  let body := ({ service := 0x10, txn := t.num, status := status, param := st : Svc }).bytes []
  match t.owner with
  | .t1s node _ => notify node body s
  | .pcie _ _ =>
    match t.vector with
    | some (f, v) => signal f v.toNat s
    | none => s
  | .mbox => s.mail body

/-- What the COMMIT or WRITE that waits is answered: a failed COMMIT reports its first violating object. -/
def endAnswer (st status first : Nat) : Nat × Nat :=
  if st = 3 then (Status.OK, 0) else if st = 4 then (status, first) else (Status.OD_TXN_STATE, 0)

/-- A transaction ends: its staging is discarded, its locks are released. -/
def endTxn (k : Fin 8) (st status first detail : Nat) (s : State) : State :=
  let t := s.txn k
  let s := s.setTxn k { t with
    st := st, status := status, first := first, detail := detail, staged := [], extra := [], dom := [], wait := .nothing, ask := none,
    report := false, vector := none, ended := s.dict.tick }
  let s := { s with dict := { s.dict with tick := s.dict.tick + 1 } }
  let s := if t.report then reportEnd t st status s else s
  match t.ask with
  | some a => let r := endAnswer st status first; answer a r.1 r.2 0 [] s
  | none => s

/-- ROLLBACK of a transaction that has not been applied (R622). -/
def rollbackTxn (k : Fin 8) (s : State) : State :=
  let t := s.txn k
  if t.live ∧ t.wait ≠ .mark then endTxn k 5 0 0 0 s else s

/-- Rolls back every transaction with a property. -/
def rollbackAll (p : Txn → Bool) (s : State) : State :=
  allTxns.foldl (fun s k => if p (s.txn k) then rollbackTxn k s else s) s

/-- Transactions opened through a function's slots, OPEN or PENDING, are rolled back (R601, R602). -/
def rollbackFn (f : FnId) (s : State) : State :=
  rollbackAll (fun t => match t.owner with | .pcie g _ => g == f | _ => false) s

/-- TXN_TIMEOUT in SCLK has passed since a time (R621). -/
def timedOut (s : State) (at_ : Nat) : Bool := decide (s.g K.te_TXN_TIMEOUT ≤ ((s.now - at_ : Nat) : Int) * 1250000)

/-- TXN_TIMEOUT: an OPEN transaction that no operation has named for that time is rolled back (R621). -/
def execTxnTimeout (k : Fin 8) (s : State) : Host.Outcome State Fault Refusal :=
  s.served .mgmt (.txnTimeout k) fun s =>
  let s := s.fresh
  let t := s.txn k
  .next (if t.st = 1 ∧ t.wait = .nothing ∧ timedOut s t.named then
      ((endTxn k 6 0 0 0 s).sat32 K.te_TIMEOUTS).raise Src.TXN_TIMEOUT
    else s)

/-- An interrupted FW_IMAGE write leaves the slot INVALID (R681). -/
def loadInterrupted (s : State) : State :=
  [0, 1].foldl (fun s j => if s.g (K.fwm_SLOT_STATE_A j) = 1 then s.p (K.fwm_SLOT_STATE_A j) 5 else s) s

/-- DOMAIN_WRITE_TIMEOUT: an outside DOMAIN write without a segment for TXN_TIMEOUT is discarded and its lock released
(R635). -/
def execDomainWriteTimeout (key : BitVec 24) (s : State) : Host.Outcome State Fault Refusal :=
  s.served .mgmt (.domainWriteTimeout key) fun s =>
  let s := s.fresh
  let late := s.dict.domW.any (fun d => d.key == key.toNat && timedOut s d.at_)
  let s := { s with dict := { s.dict with
    domW := s.dict.domW.filter (fun d => !(d.key == key.toNat && timedOut s d.at_)) } }
  .next (if late ∧ key.toNat = K.fwm_FW_IMAGE then loadInterrupted s else s)

/-- DOMAIN_SNAPSHOT_EXPIRY: a snapshot that its reader has not read for TXN_TIMEOUT is dropped (R636). -/
def execDomainSnapshotExpiry (key : BitVec 24) (s : State) : Host.Outcome State Fault Refusal :=
  s.served .mgmt (.domainSnapshotExpiry key) fun s =>
  let s := s.fresh
  .next { s with dict := { s.dict with
    snaps := s.dict.snaps.filter (fun d => !(d.key == key.toNat && timedOut s d.at_)) } }

end Sys2Proof.Machine
end

