-- ==== Sys2Proof/Machine/Clocks.lean ====
section
/-! DEFINITION. References, domain groups, withies, DUT clocks and the ridge generator (chapter 12, R253 to R256). -/
namespace Sys2Proof.Machine
open Sys2Proof

/-! ### Phases (Table 17.1) -/

/-- PHASE -/
def State.phase (s : State) : Nat := s.n K.bu_PHASE

/-! ### References -/

/-- STATE of a reference: 0 ABSENT, 1 QUALIFYING, 2 GOOD, 3 FAILED. -/
def refKey (r : Fin 2) : Nat := if r = 0 then K.ck_MTR_STATE else K.ck_REFCLK_STATE
/-- The source that a reference's failure raises. -/
def refSrc (r : Fin 2) : Nat := if r = 0 then Src.MTR_LOST else Src.REFCLK_LOST
/-- A reference is GOOD. -/
def refGood (s : State) (r : Fin 2) : Bool := s.n (refKey r) == 2
/-- The other reference. -/
def other (r : Fin 2) : Fin 2 := if r = 0 then 1 else 0
/-- A reference's record. -/
def State.ref (s : State) (r : Fin 2) : Ref := s.clk.refs[r]
/-- Replaces a reference's record. -/
def State.setRef (s : State) (r : Fin 2) (x : Ref) : State := { s with clk := { s.clk with refs := s.clk.refs.set r x } }
/-- A group's record. -/
def State.grp (s : State) (g : Fin 3) : Grp := s.clk.grps[g]
/-- Replaces a group's record. -/
def State.setGrp (s : State) (g : Fin 3) (x : Grp) : State := { s with clk := { s.clk with grps := s.clk.grps.set g x } }
/-- The groups. -/
def allGrps : List (Fin 3) := List.finRange 3
/-- The group's primary reference (Table 1.3). -/
def primary (g : Fin 3) : Fin 2 := if g = 1 then 1 else 0
/-- PCIE_REFCLK is treated as carrying spread spectrum (R518). -/
def sscNow (s : State) : Bool := s.g K.ck_REFCLK_SSC != 0 || s.b K.ck_SSC_DETECTED
/-- PCIE_REFCLK counts as free of spread spectrum for R534: as it was when it was lost, or as it is. -/
def sscFree (s : State) : Bool := if refGood s 1 then !sscNow s else s.clk.sscFree

/-- A group may run from a reference (R521, R534). -/
def permitted (s : State) (g : Fin 3) (r : Fin 2) : Bool :=
  match g with
  | 0 => true
  | 1 => r == 1 || sscFree s || s.b K.ck_HM_DEGRADED_OK
  | 2 => r == 0 || (!refGood s 0 && sscFree s)

/-- DEGRADED of a group that runs from a reference (R534, R540). -/
def degraded (s : State) (g : Fin 3) (r : Fin 2) : Bool :=
  match g with
  | 0 => r == 1
  | 1 => r == 0 && !sscFree s
  | 2 => false

/-! ### DUT clocks (R548 to R550) -/

/-- DUTCLK_ACTUAL of a frequency in mHz: the multiple of 6.4 GHz / 2^32 nearest to it, to the nearest mHz (R549). -/
def dutActual (f : Nat) : Nat :=
  let n := (2 * f * 2 ^ 32 + 6400000000000) / (2 * 6400000000000)
  (2 * n * 6400000000000 + 2 ^ 32) / (2 * 2 ^ 32)

/-- The bounds of a sweep of a frequency in mHz, in units of 1/2,000,000 mHz: profile DOWN sweeps from f × (1 − D) to f, CENTRE from
f × (1 − D/2) to f × (1 + D/2), with the depth D in ppm (R550). -/
def sweepBounds (f profile depth : Nat) : Nat × Nat :=
  match profile with
  | 1 => (f * (2000000 - 2 * depth), f * 2000000)
  | 2 => (f * (2000000 - depth), f * (2000000 + depth))
  | _ => (f * 2000000, f * 2000000)

/-- The frequency at a time in fs from the start of a sweep: rising for half the sweep period and falling for half (R550). -/
def sweepAt (lo hi rate t : Nat) : Nat :=
  let ph := t * rate % 10 ^ 15
  if 2 * ph < 10 ^ 15 then lo + (hi - lo) * (2 * ph) / 10 ^ 15 else hi - (hi - lo) * (2 * ph - 10 ^ 15) / 10 ^ 15

/-- A DUT clock runs, with its sweep. -/
def dutRun (k : Nat) (s : State) : State :=
  let b := sweepBounds (s.n (K.dk_DUTCLK_ACTUAL k)) (s.n (K.dk_SSC_PROFILE k)) (s.n (K.dk_SSC_DEPTH k))
  s.emits [.dutClk k true, .dutSweep k b.1 b.2 (s.n (K.dk_SSC_RATE k))]

/-! ### Gates (R526 to R529) -/

/-- A GATE_EN bit. -/
def gateOn (s : State) (k : Nat) : Bool := (s.n K.gt_GATE_EN).testBit k

/-- A DUT clock completes its cycle and holds low until it restarts (R551). -/
def dutChange (k : Nat) (s : State) : State :=
  ({ s with clk := { s.clk with dutWait := if s.clk.dutWait.contains k then s.clk.dutWait else s.clk.dutWait ++ [k] } }).emit (.dutClk k false)

/-- Sets WITHY_LOCKED of an octet's channels. -/
def setWithy (o : Fin 32) (v : Bool) (s : State) : State :=
  (List.range 8).foldl (fun (s : State) k => s.p (K.ch_WITHY_LOCKED (8 * o.val + k)) (b2i v)) s

/-- The sites with a channel in an octet. -/
def octetSites (s : State) (o : Nat) : SiteMask :=
  allSites.foldl (fun m i => if (s.chans i).any (fun c => c.val / 8 == o) then m ||| oneSite i else m) 0

/-- The effects of a change of GATE_EN from an old value (R528, R529). -/
def gateChange (old : Nat) (s : State) : State :=
  let off (k : Nat) : Bool := old.testBit k && !gateOn s k
  let on_ (k : Nat) : Bool := !old.testBit k && gateOn s k
  let s := allBanks.foldl (fun (s : State) (b : BankId) =>
    let s := if off b then
        calClear b ((List.range 4).foldl (fun s k => setWithy (Fin.ofNat 32 (4 * b.val + k)) false s) s)
      else s
    if off (8 + b.val) then s.p (K.tt_LOCKED b) 0 else s) s
  let s := (List.range 2).foldl (fun (s : State) k => if off (32 + k) then s.p (K.tt_LOCKED (8 + k)) 0 else s) s
  (List.range 8).foldl (fun (s : State) k =>
    if off (24 + k) then s.emit (.dutClk k false)
    else if on_ (24 + k) && timingOn s && !s.clk.dutWait.contains k then dutRun k s else s) s

/-! ### Withies (R254, R255) -/

/-- WITHY_UNLOCK: an octet's master withy unlocks; its active sites are parked and the source is raised. -/
def withyUnlock (o : OctId) (s : State) : State :=
  if !gateOn s (o.val / 4) then s
  else
    let m := octetSites s o
    eachSite (fun i s => parkSite i (Src.WITHY_UNLOCK o) s) m ((setWithy o false s).activate (Src.WITHY_UNLOCK o) m 0)

/-- WITHY_UNLOCK. -/
def execWithyUnlock (o : OctId) (s : State) : Host.Outcome State Fault Refusal := .next (s.fresh.timed (withyUnlock o))

/-- A withy relocks once its clock is good: an octet's, or a TMU's (R255, R403, R529). -/
def withyRelock (w : Withy) (s : State) : State :=
  if !timingOn s || s.pwr.hold then s
  else
    match w with
    | .octet o => if gateOn s (o.val / 4) then (setWithy o true s).deactivate (Src.WITHY_UNLOCK o) else s
    | .tmu u =>
      if gateOn s (if u.val < 8 then 8 + u.val else 24 + u.val) then (s.p (K.tt_LOCKED u) 1).deactivate (Src.TMU_UNLOCK u) else s

/-- WITHY_RELOCK. -/
def execWithyRelock (w : Withy) (s : State) : Host.Outcome State Fault Refusal := .next (withyRelock w s.fresh)

/-! ### PLLs (R522) -/

/-- The PLL of a group on a reference is locked: the one in use, under HOT the other while its reference is GOOD, and one that has been
started once it has locked (R522). -/
def pllLocked (s : State) (g : Fin 3) (r : Fin 2) : Bool :=
  s.n (K.cg_SOURCE g) == r.val ||
    (refGood s r && (s.g K.ck_STANDBY_MODE == 0 ||
      (match (s.grp g).pll with | some (q, t) => q == r.val && decide (t ≤ s.now) | none => false)))

/-- The PLL of a group on a reference is powered, if it is not: it locks within t_pll_lock (R522, Table 12.7). -/
def startPll (g : Fin 3) (r : Fin 2) (s : State) : State :=
  if pllLocked s g r then s
  else (s.setGrp g { s.grp g with pll := some (r.val, s.now + 1 + (s.drawn % 400000).toNat) }).advance

/-- A reference is GOOD, its PLL in the group is locked, and the group may run from it (R533, R535). -/
def refReady (s : State) (g : Fin 3) (r : Fin 2) : Bool := refGood s r && permitted s g r && pllLocked s g r

/-- SCLK that the first domain of a group loses at a switch: 16 cycles of its new clock (Table 12.2). -/
def switchWait (g : Fin 3) : Nat :=
  match g with
  | 0 => 16
  | 1 => 13
  | 2 => 512

/-! ### Stops (R530 to R538) -/

/-- CLK_CMD_BUSY: a switch or ridge calibration runs. -/
def putBusy (s : State) : State :=
  s.p K.cx_CLK_CMD_BUSY (b2i (s.clk.ridgeCal || allGrps.any (fun g => (s.grp g).target.isSome)))

/-- The run drives the PE lanes of its banks' channels: for ROUND_TRIP and RETURN (R445, Table 10.3). -/
def drivesLanes (parts : Nat) : Bool := parts.testBit 2 || parts.testBit 3

/-- The PE lanes of the channels that a native run drives are driven by it, or no longer (R445). -/
def runLanes (on : Bool) (s : State) : State :=
  match s.cal.native with
  | some n =>
    if drivesLanes n.parts then (allBanks.filter (fun b => n.left.testBit b.val)).foldl (fun (s : State) b => s.emit (.calLanes b on)) s else s
  | none => s

/-- The clamp sets the lanes of a site's channels into slath state within 20 ns, PE_DD 1 ns or more after PE_DE; nothing that was still
to be driven fires (R532, R536). -/
def clampSite (s : State) (i : SiteId) : State :=
  let t := ballTime s i + s.drawn % 20000001
  let s := s.advance.modSite i (fun x => { x with
    edges := [], mems := [], loop := x.loop.filter (fun e => decide (e.time < t)), driven := x.driven.filter (fun e => decide (e.time < t)), undriven := [],
    taken := x.taken.map (Frame.cutFrom t) })
  let s := slathAt i s.od 1000000 none (fun _ => t) s
  let x := s.site i
  (s.setSite i { x with edges := [] }).emits (x.edges.map (fun e => e.2.fire s i))

/-- The clamp of R532 and what a stopped timing group takes with it: slath state on every channel, markers inactive, DUT clocks low,
withies unlocked, and TMUs with their armings (R403, R536).
[DESIGN CHOICE, assumption 103] -/
def clampTiming (s : State) : State :=
  let s := runLanes false (allSites.foldl clampSite s)
  let s := (List.range 16).foldl (fun (s : State) m =>
    if markerOn s m then s.emit (.marker m ((s.now : Int) * 1250000) (s.b (K.mk_MK_ACTIVE_LOW m))) else s) s
  let s := (List.range 8).foldl (fun (s : State) k => dutChange k s) s
  let s := (List.finRange 32).foldl (fun s o => setWithy o false s) s
  allTmus.foldl (fun (s : State) (u : TmuId) => tmuUnlock u s) s

/-- A group's domains stop because a reference failed; without a ready fallback CLOCK_LOST is raised, and a permitted fallback's PLL is
started (R533, R535, Table 12.5).
[DESIGN CHOICE, assumption 103] -/
def stopGroup (g : Fin 3) (r : Fin 2) (s : State) : State :=
  let ready := refReady s g (other r)
  let s := (s.p (K.cg_GROUP_STATE g) 1).p (K.cg_SOURCE g) 0xFF
  let s := s.sat32 K.ck_CLK_STOPS
  let s := putBusy (s.setGrp g { s.grp g with stopAt := s.now, bad := refSrc r, lost := !ready, target := none })
  let s := { s with flt := { s.flt with latch := true } }
  let s := if g = 0 then clampTiming s else s
  if ready then s
  else
    let s := s.activate (Src.CLOCK_LOST g) 0 0
    if refGood s (other r) ∧ permitted s g (other r) then startPll g (other r) s else s

/-- A planned switch of a group ends without having stopped its domains: its target is no longer GOOD.
[DESIGN CHOICE, assumption 101] -/
def switchGone (g : Fin 3) (s : State) : State := putBusy (s.setGrp g { s.grp g with target := none, pll := none })

/-- The group runs from a reference, or is being switched to it. -/
def usesRef (s : State) (g : Fin 3) (r : Fin 2) : Bool :=
  (s.n (K.cg_SOURCE g) == r.val && s.n (K.cg_GROUP_STATE g) != 1) ||
    (s.n (K.cg_GROUP_STATE g) == 2 && (s.grp g).target == some r.val)

/-- With no group running and no reference GOOD the device holds (R539). -/
def allDead (s : State) : State :=
  if 2 ≤ s.phase ∧ allGrps.all (fun g => s.n (K.cg_GROUP_STATE g) == 1) ∧ refGood s 0 = false ∧ refGood s 1 = false then
    { s with clk := { s.clk with dead := true } }
  else s

/-- A reference is declared failed, as ABSENT or FAILED (R530, R531). -/
def declareFailed (r : Fin 2) (st : Nat) (s : State) : State :=
  if s.n (refKey r) = 0 ∨ s.n (refKey r) = 3 then s
  else
    let s := if r = 1 then { s with clk := { s.clk with sscFree := !sscNow s } } else s
    let s := (s.p (refKey r) st).setRef r {}
    let s := s.activate (refSrc r) 0 0
    let hit := allGrps.filter (fun g => usesRef s g r)
    let s := (allGrps.filter (fun g => running s g && (s.grp g).target == some r.val)).foldl (fun s g => switchGone g s) s
    allDead (hit.foldl (fun s g => stopGroup g r s) s)

/-- The field-network group stops on a PCIE_REFCLK that no longer counts as free of spread spectrum (R521, R535). -/
def t1sSpread (s : State) : State :=
  if running s 2 ∧ s.n (K.cg_SOURCE 2) = 1 ∧ sscNow s then allDead (stopGroup 2 1 s) else s

/-- A deviation in ppb lies within the mismatch window (Table 12.7). -/
def inWindow (s : State) (dev : Int) : Bool :=
  decide ((if sscNow s then -3600000 else -1000000) ≤ dev) && decide (dev ≤ 1000000)

/-- A FAILED reference counts the consecutive windows within the mismatch window; with the second it is QUALIFYING again
(R531). -/
def requalify (r : Fin 2) (within : Bool) (s : State) : State :=
  if s.n (refKey r) ≠ 3 then s
  else
    let x := s.ref r
    let w := if within then x.within + 1 else 0
    if 2 ≤ w then ((s.p (refKey r) 1).setRef r { qualAt := s.now }).deactivate Src.REF_MISMATCH
    else s.setRef r { x with within := w }

/-- MONITOR_WINDOW: one 1 ms window: the deviation of PCIE_REFCLK from MTR in ppb and its peak-to-peak modulation in ppm
(R518, R521, R530, R531). -/
def monitorWindow (dev : Int) (modulation : Nat) (s : State) : State :=
  let s := s.p K.ck_MUTUAL_DEV dev
  let s := if 600 < modulation then
      let s := ({ s with clk := { s.clk with sscAt := s.now } }).p K.ck_SSC_DETECTED 1
      t1sSpread (if s.g K.ck_REFCLK_SSC = 0 then s.activate Src.REFCLK_SSC_UNDECLARED 0 0 else s)
    else s.deactivate Src.REFCLK_SSC_UNDECLARED
  let s := [0, 1].foldl (fun (s : State) r => requalify r (inWindow s dev) s) s
  let s : State := { s with clk := { s.clk with outside := if inWindow s dev then 0 else s.clk.outside + 1 } }
  let r : Fin 2 := if s.g K.ck_MISMATCH_BLAME = 0 then 1 else 0
  if 2 ≤ s.clk.outside ∧ refGood s (other r) ∧ s.n (refKey r) ≠ 0 ∧ s.n (refKey r) ≠ 3 then
    declareFailed r 3 (s.activate Src.REF_MISMATCH 0 0)
  else s

/-- SSC_DETECTED_CLEAR: 1 s without a modulated window (R518). -/
def execSscDetectedClear (s : State) : Host.Outcome State Fault Refusal :=
  let s := s.fresh
  .next (if s.b K.ck_SSC_DETECTED ∧ s.clk.sscAt + 800000000 ≤ s.now then s.p K.ck_SSC_DETECTED 0 else s)

/-- REF_QUALIFYING: edges reappear on an ABSENT reference (R531). -/
def execRefQualifying (r : Fin 2) (s : State) : Host.Outcome State Fault Refusal :=
  let s := s.fresh
  .next (if s.n (refKey r) = 0 then (s.p (refKey r) 1).setRef r { qualAt := s.now } else s)

/-! ### Starts and restarts (R533 to R541, R722) -/

/-- The DUT clocks whose gates are on run (R548). -/
def dutOn (s : State) : State :=
  (List.range 8).foldl (fun (s : State) k =>
    if s.clk.dutWait.contains k then s
    else
      let s := s.p (K.dk_DUTCLK_ACTUAL k) (dutActual (s.n (K.dk_DUTCLK_FREQ k)))
      if gateOn s (24 + k) then dutRun k s else s) s

/-- The settings of a DUT clock. -/
def dutKeys (k : Nat) : List Nat := [K.dk_DUTCLK_FREQ k, K.dk_SSC_PROFILE k, K.dk_SSC_DEPTH k, K.dk_SSC_RATE k]

/-- A reset that leaves the timing group running returns the settings and the gates of the DUT clocks to their defaults: one whose
settings change, or that did not run, restarts as R551 says, and the others run on (R548, R549). -/
def dutReset (old : State) (s : State) : State :=
  if timingOn s = false then s
  else (List.range 8).foldl (fun (s : State) k =>
    let s := s.p (K.dk_DUTCLK_ACTUAL k) (old.g (K.dk_DUTCLK_ACTUAL k))
    if (dutKeys k).all (fun j => old.g j == s.g j) && gateOn old (24 + k) && !old.clk.dutWait.contains k then s else dutChange k s) s

/-- HBM and DDR5 contents are lost (R537).
[DESIGN CHOICE, assumption 24] -/
def memoryLost (s : State) : State :=
  let s := s.mem.segs.foldl (fun s e => failSeg e.1 s) s
  let s := (List.finRange 64).foldl (fun (s : State) (n : StreamId) => if s.g (K.sm_STATE n) = 0 then s else s.p (K.sm_STATE n) 4) s
  allSites.foldl (fun s i => s.modSite i (fun x => { x with
    logDead := s.n (K.fr_LOG_WRITTEN i), capDead := s.n (K.fr_CAP_WRITTEN i) })) s

/-- Sites parked after their source's raise reached the collector enter the episode of that raise (R20). -/
def adoptLate (src : Nat) (s : State) : State :=
  if s.flt.reports.any (fun r => r.src == src) then s
  else
    match epRecord s (s.src src).lastEp with
    | some k => if epState s k = epCleared then s else (adopt src k s).1
    | none => s

/-- The timers of the timing group are later by the length of a stop, in which they did not advance (R538). -/
def laterTiming (d : Nat) (s : State) : State :=
  let bank (k : CalBank) : CalBank := { k with
    deniedAt := k.deniedAt.map (· + d), cur := k.cur.map (fun (w : Swap) => { w with reqAt := w.reqAt + d }) }
  { s with
    mem := { s.mem with
      ceAt := s.mem.ceAt.map (fun e => (e.1, e.2 + d)), bothAt := s.mem.bothAt.map (fun e => (e.1, e.2 + d)), logAt := s.mem.logAt.map (· + d) }
    evts := s.evts.map (fun (x : EvtLine) => { x with qualAt := x.qualAt + d, latches := x.latches.map (· + d), host := x.host.map (· + d) })
    cal := { s.cal with banks := s.cal.banks.map bank, commits := s.cal.commits.map (· + d) }
    lvl := { s.lvl with
      dacs := s.lvl.dacs.map (fun (x : Dac) => { x with release := x.release.map (· + d) }), strobes := s.lvl.strobes.map (fun e => (e.1, e.2 + d)) }
    clk := { s.clk with ridgeAt := s.clk.ridgeAt.map (· + d), ridgeDue := s.clk.ridgeDue.map (· + d), gen := s.clk.gen.map (· + d) } }

/-- What waits in a queue waits a time longer. -/
def Queue.later (d : Nat) (x : Queue) : Queue :=
  { x with unsigAt := x.unsigAt + d, bufs := x.bufs.map (fun b => { b with since := b.since + d }) }

/-- The same for the host and management group. -/
def laterHost (d : Nat) (s : State) : State :=
  { s with
    host := { s.host with queues := s.host.queues.map (fun e => (e.1, e.2.later d)) }
    dict := { s.dict with
      txns := s.dict.txns.map (fun (t : Txn) => { t with named := t.named + d })
      domW := s.dict.domW.map (fun (x : DomW) => { x with at_ := x.at_ + d })
      snaps := s.dict.snaps.map (fun (x : Snap) => { x with at_ := x.at_ + d }) }
    flt := { s.flt with
      tests := s.flt.tests.map (fun (x : Test) => { x with at_ := x.at_ + d }), wants := s.flt.wants.map (fun (x : Want) => { x with at_ := x.at_ + d }) }
    cal := { s.cal with sealEnd := s.cal.sealEnd + d }
    mgmt := { s.mgmt with
      pcommits := s.mgmt.pcommits.map (· + d), budgetAt := s.mgmt.budgetAt.map (· + d), keyEnd := s.mgmt.keyEnd + d,
      confirmEnd := s.mgmt.confirmEnd.map (· + d), sensAt := s.mgmt.sensAt.map (fun e => (e.1, if e.1 < 200 then e.2 + d else e.2)) } }

/-- The timers of a group after a stop of a length (R538).
[DESIGN CHOICE, assumption 218] -/
def laterGroup (g : Fin 3) (d : Nat) (s : State) : State :=
  match g with
  | 0 => laterTiming d s
  | 1 => laterHost d s
  | 2 => s

/-- The domains of a group restart 16 cycles of their own clocks after the switch (Table 12.2). -/
def domRestart (g : Fin 3) (t : Nat) (s : State) : State :=
  if g = 1 then
    let put (m : KMap Nat) (d : Dom) (f : Nat) : KMap Nat := kput m d.no (t + (12800 + f - 1) / f)
    let m := put (put (put s.clk.domStop .mgmt (s.n K.cq_MGMT_FREQ)) .nor (s.n K.cq_NOR_FREQ)) .coll 200
    { s with clk := { s.clk with domStop := m } }
  else s

/-- A group runs from a reference. -/
def runFrom (g : Fin 3) (r : Fin 2) (s : State) : State :=
  let s := (s.p (K.cg_SOURCE g) r.val).p (K.cg_GROUP_STATE g) 0
  let s := s.p (K.cg_DEGRADED g) (b2i (degraded s g r))
  let s := putBusy (s.setGrp g { s.grp g with target := none, pll := none })
  if g = 0 then dutOn s else s

/-- A stopped group restarts (R533, R535 to R538). -/
def restartGroup (g : Fin 3) (r : Fin 2) (s : State) : State :=
  let x := s.grp g
  let old := if x.bad = Src.MTR_LOST then 0 else 1
  let s := domRestart g (s.now - switchWait g) (runFrom g r (laterGroup g (s.now - x.stopAt) s))
  let s := if r.val = old then s else s.sat32 (K.cg_SWITCHES g)
  let s := s.p K.ck_LAST_STOP_TIME (((s.now - x.stopAt : Nat) : Int) * 1250000)
  let s := if x.lost then s.deactivate (Src.CLOCK_LOST g) else s
  let s := if allGrps.any (fun (h : Fin 3) => s.n (K.cg_GROUP_STATE h) == 1) then s else { s with flt := { s.flt with latch := false } }
  if g = 0 then
    let src := if x.lost then Src.CLOCK_LOST 0 else x.bad
    let s := runLanes true (adoptLate src (allSites.foldl (fun s i => parkSite i src s) s))
    if x.stopAt + 20000 < s.now then memoryLost s else s
  else s

/-- The SCLK from which the 16 cycles of a restart on a reference count: the stop, or the lock of a PLL that was started then. -/
def restartFrom (s : State) (g : Fin 3) (r : Fin 2) : Nat :=
  match (s.grp g).pll with
  | some (q, t) => if q = r.val then max t (s.grp g).stopAt else (s.grp g).stopAt
  | none => (s.grp g).stopAt

/-- A stopped group can restart on a reference now. -/
def canRestart (s : State) (g : Fin 3) (r : Fin 2) : Bool := refReady s g r && decide (restartFrom s g r + switchWait g ≤ s.now)

/-- GROUP_RESTART: 16 cycles of the new clock after the stop on a ready fallback, otherwise once a reference is GOOD with a
locked PLL, its primary first (R533, R535). -/
def execGroupRestart (g : Fin 3) (s : State) : Host.Outcome State Fault Refusal :=
  let s := s.fresh
  let x := s.grp g
  let p := primary g
  let old : Fin 2 := if x.bad = Src.MTR_LOST then 0 else 1
  .next (if s.n (K.cg_GROUP_STATE g) ≠ 1 ∨ s.clk.dead ∨ s.phase < 2 then s
    else if x.lost = false ∧ canRestart s g (other old) then restartGroup g (other old) s
    else if canRestart s g p then restartGroup g p s
    else if canRestart s g (other p) then restartGroup g (other p) s
    else s)

/-- In P1 a group starts on a reference (R722). -/
def startGroup (g : Fin 3) (r : Fin 2) (s : State) : State :=
  if s.phase = 1 ∧ running s g = false then runFrom g r s else s

/-- REF_GOOD: a reference has had edges and a locked PLL for 100 us, that of every stopped group among them; in P1 the groups of which
it is the primary start (R531, R535, R722).
[DEDUCED, assumption 102] -/
def execRefGood (r : Fin 2) (s : State) : Host.Outcome State Fault Refusal :=
  let s := s.fresh
  .next (if s.n (refKey r) = 1 ∧ (s.ref r).qualAt + 80000 ≤ s.now then
      let s := ((s.p (refKey r) 2).setRef r { s.ref r with goodAt := s.now }).deactivate (refSrc r)
      let s := (allGrps.filter (fun (g : Fin 3) => s.n (K.cg_GROUP_STATE g) == 1)).foldl (fun (s : State) (g : Fin 3) => s.setGrp g { s.grp g with pll := some (r.val, s.now) }) s
      allGrps.foldl (fun s g => if primary g = r then startGroup g r s else s) s
    else s)

/-- P1_FALLBACK_START: the fallback has been GOOD for 1 ms and the primary is not (R722). -/
def execP1FallbackStart (g : Fin 3) (s : State) : Host.Outcome State Fault Refusal :=
  let s := s.fresh
  let r := other (primary g)
  .next (if refGood s r ∧ refGood s (primary g) = false ∧ permitted s g r ∧ (s.ref r).goodAt + 800000 ≤ s.now then startGroup g r s else s)

/-! ### Planned switches (R541 to R543) -/

/-- Any site is ARMED, RUNNING or PAUSED. -/
def anyActive (s : State) : Bool := allSites.any (fun i => s.active i)

/-- What keeps the timing group from a planned switch (R542). -/
def timingBusy (s : State) : Bool := anyActive s || allTmus.any (fun u => s.tmuBusy u) || s.cal.native.isSome

/-- The domains of a group stop at the end of a cycle for a planned switch; the DUT clocks hold low and restart as R551 says (R519,
R543, R548). -/
def stopForSwitch (g : Fin 3) (s : State) : State :=
  let s := (s.p (K.cg_GROUP_STATE g) 2).setGrp g { s.grp g with stopAt := s.now }
  if g = 0 then (List.range 8).foldl (fun (s : State) k => dutChange k s) s else s

/-- A planned switch of a group begins: the domains run on until the target's PLL is locked, which under COLD is started first (R543).
[DESIGN CHOICE, assumption 101] -/
def beginSwitch (g : Fin 3) (r : Fin 2) (s : State) : State :=
  let s := putBusy (startPll g r (s.setGrp g { s.grp g with target := some r.val }))
  if pllLocked s g r then stopForSwitch g s else s

/-- Planned switches whose target PLL has locked stop the domains of their groups (R543); the timing group waits until it is free. -/
def switchStops (s : State) : State :=
  allGrps.foldl (fun s g =>
    match (s.grp g).target with
    | some r => if running s g && pllLocked s g (Fin.ofNat 2 r) && (g != 0 || !timingBusy s) then stopForSwitch g s else s
    | none => s) s

/-- SWITCH: the status of the clock command (R542).
[DEDUCED, assumption 104] -/
def switchCmd (g : Fin 3) (r : Fin 2) (s : State) : Nat × State :=
  if refGood s r = false then (Status.CLK_NO_SOURCE, s)
  else if permitted s g r = false then (Status.CLK_SSC, s)
  else if (g = 0 ∧ timingBusy s) ∨ (s.grp g).target.isSome ∨ running s g = false then (Status.CLK_BUSY, s)
  else (Status.OK, beginSwitch g r s)

/-- Answers a clock command in CLK_CMD_STATUS. -/
def clkAnswer (r : Nat × State) : State := r.2.p K.cx_CLK_CMD_STATUS r.1

/-- SWITCH. -/
def execSwitch (g : Fin 3) (r : Fin 2) (s : State) : Host.Outcome State Fault Refusal :=
  s.served .mgmt (.switch g r) fun s =>
  .next (clkAnswer (switchCmd g r s.fresh))

/-- PLANNED_SWITCH_DONE: the domains run from the target, 16 cycles of the new clock after they stopped (R543). -/
def execPlannedSwitchDone (g : Fin 3) (s : State) : Host.Outcome State Fault Refusal :=
  let s := s.fresh
  .next (match (s.grp g).target with
    | some r =>
      let r : Fin 2 := Fin.ofNat 2 r
      let x := s.grp g
      if s.n (K.cg_GROUP_STATE g) = 2 ∧ refGood s r ∧ x.stopAt + switchWait g ≤ s.now then
        (domRestart g x.stopAt (runFrom g r (laterGroup g (s.now - x.stopAt) s))).sat32 (K.cg_SWITCHES g)
      else s
    | none => s)

/-- A group on its fallback is to return to its primary: the field-network group whenever MTR is GOOD (R521), the others with
AUTO_REVERT at 1, once the primary has been GOOD for 100 ms (R541).
[DEDUCED, assumption 216] -/
def revertDue (s : State) (g : Fin 3) : Bool := g == 2 || (s.b K.ck_AUTO_REVERT && decide ((s.ref (primary g)).goodAt + 80000000 ≤ s.now))

/-- AUTO_REVERT: a group on its fallback begins to return to its primary, a planned switch (R541). -/
def execAutoRevert (g : Fin 3) (s : State) : Host.Outcome State Fault Refusal :=
  let s := s.fresh
  let p := primary g
  .next (if revertDue s g ∧ running s g ∧ s.n (K.cg_SOURCE g) ≠ p.val ∧ refGood s p ∧ (s.grp g).target = none ∧ (g ≠ 0 ∨ timingBusy s = false) then beginSwitch g p s else s)

/-! ### DUT clocks (R551) -/

/-- DUTCLK_CHANGE. -/
def execDutclkChange (k : Fin 8) (s : State) : Host.Outcome State Fault Refusal := .next (dutChange k s.fresh)

/-- DUTCLK_RESTART: the output restarts with its new settings and a full-width first pulse. -/
def execDutclkRestart (k : Fin 8) (s : State) : Host.Outcome State Fault Refusal :=
  let s := s.fresh
  .next (if s.clk.dutWait.contains k.val then
      let s := { s with clk := { s.clk with dutWait := s.clk.dutWait.erase k.val } }
      let s := s.p (K.dk_DUTCLK_ACTUAL k) (dutActual (s.n (K.dk_DUTCLK_FREQ k)))
      if gateOn s (24 + k.val) && timingOn s then dutRun k.val s else s
    else s)

/-! ### MGMT and NOR (R523) -/

/-- A change of MGMT_FREQ or NOR_FREQ is a planned switch of that domain: it stops at the end of a cycle and restarts after 16
cycles of its new clock (R523, R543). No access is lost; what needs the domain waits for its restart.
[DESIGN CHOICE, assumption 213] -/
def domSwitch (nor : Bool) (s : State) : State :=
  let f := if nor then s.n K.cq_NOR_FREQ else s.n K.cq_MGMT_FREQ
  let wait := (16 * 800 + f - 1) / f
  ({ s with clk := { s.clk with domStop := kput s.clk.domStop (if nor then Dom.no .nor else Dom.no .mgmt) (s.now + wait) } }).emit (.domSwitch nor f)

/-! ### The ridge generator and ridge calibration (R553, R554, R559) -/

/-- A write of RIDGE_FIRE: 1 starts the generator at the first SCLK that is a multiple of 8 and at least 4 away, 2 stops
it. -/
def ridgeFire (v : Nat) (s : State) : State :=
  if v = 1 then { s with clk := { s.clk with gen := some ((s.now + 4 + 7) / 8 * 8) } }
  else if v = 2 then { s with clk := { s.clk with gen := none } }
  else s

/-- RIDGE_FIRE_START. -/
def execRidgeFireStart (s : State) : Host.Outcome State Fault Refusal :=
  s.served .mgmt (.ridgeFireStart) fun s =>
  .next (ridgeFire 1 s.fresh)
/-- RIDGE_FIRE_STOP. -/
def execRidgeFireStop (s : State) : Host.Outcome State Fault Refusal :=
  s.served .mgmt (.ridgeFireStop) fun s =>
  .next (ridgeFire 2 s.fresh)

/-- The ridge generator gives a pulse of 4 SCLK, on RIDGE_OUT in GENERATE mode. -/
def ridgeGenerate (s : State) : State :=
  match s.clk.gen with
  | some t =>
    if t ≤ s.now then
      let p := s.n K.rd_RIDGE_PERIOD
      let s := { s with clk := { s.clk with gen := if p = 0 then none else some (t + p) } }
      if s.g K.rd_RIDGE_MODE = 1 then s.emit .ridgeOut else s
    else s
  | none => s

/-- RIDGE_GENERATE. -/
def execRidgeGenerate (s : State) : Host.Outcome State Fault Refusal := .next (s.fresh.timed ridgeGenerate)

/-- RIDGE_CAL: the status of the clock command; the measurement is a user arming of TMU 8 (R559).
[DESIGN CHOICE, assumption 236] -/
def ridgeCalCmd (s : State) : Nat × State :=
  if anyActive s ∨ s.n (K.tmo_OWNER 8) ≠ 0xFF then (Status.CLK_BUSY, s)
  else (Status.OK, putBusy (tmuArm 8 { s with clk := { s.clk with ridgeCal := true } }))

/-- RIDGE_CAL. -/
def execRidgeCal (s : State) : Host.Outcome State Fault Refusal :=
  s.served .mgmt (.ridgeCal) fun s =>
  .next (clkAnswer (ridgeCalCmd s.fresh))

/-- Rounds to the nearest multiple of 125 fs. -/
def round125 (v : Int) : Int := (2 * v + 125) / 250 * 125

/-- Ridge calibration ends, and the arming of TMU 8 with an END_STATUS.
[DESIGN CHOICE, assumption 236] -/
def ridgeCalEnds (status : Nat) (s : State) : State :=
  let s := if s.tmuBusy 8 then tmuEnd 8 status s else s
  putBusy { s with clk := { s.clk with ridgeCal := false } }

/-- The mean of the device's thermal sensors, to the nearest m°C.
[DEDUCED, assumption 88] -/
def deviceTemp (s : State) : Int := meanOf ((List.range 24).map (fun j => s.g (K.th_TEMP j)))

/-- The end of ridge calibration: edges that arrived within 10 s, their mean phase in fs and its deviation; the new values apply as one
transaction (R18, R559). No edge is taken while TMU 8 waits for calibration (R427). -/
def ridgeCalDone (edges : Nat) (phi sdev : Int) (late : Bool) (s : State) : State :=
  let keys := [K.rd_RIDGE_PHASE, K.rd_RIDGE_EPS, K.rd_SKEW_TRIM, K.rd_RIDGE_SDEV, K.rd_RIDGE_CAL_TIME, K.rd_RIDGE_CAL_TEMP]
  if s.clk.ridgeCal = false ∨ s.jobs (fun j => j == .ridge) = true ∨ s.tst 8 = TS.waitCal then s
  else if edges < s.n K.rd_RIDGE_CAL_N ∧ late = false ∧ s.tmuBusy 8 = true then s
  else
    if edges < s.n K.rd_RIDGE_CAL_N ∨ 5000 < sdev ∨ s.tmuBusy 8 = false then (ridgeCalEnds 2 s).p K.cx_CLK_CMD_STATUS Status.RIDGE_CAL_FAIL
    else if openKeys s keys = false then s
    else
      let ph := round125 ((phi - s.g K.rd_RIDGE_PATH) % 1250000) % 1250000
      let eps := if 625000 ≤ ph then ph else ph + 1250000
      let t := ((s.p K.rd_RIDGE_PHASE ph).p K.rd_RIDGE_EPS eps).p K.rd_SKEW_TRIM (eps - 1250000)
      let t := ((t.p K.rd_RIDGE_SDEV sdev).p K.rd_RIDGE_CAL_TIME s.utc).p K.rd_RIDGE_CAL_TEMP (deviceTemp s)
      s.publish .ridge 0 0 keys t

/-- RIDGE_CAL_DONE. -/
def execRidgeCalDone (edges : Nat) (phi sdev : Int) (late : Bool) (s : State) : Host.Outcome State Fault Refusal :=
  .next (s.fresh.timed (ridgeCalDone edges phi sdev late))

end Sys2Proof.Machine
end

