-- ==== Sys2Proof/Machine/Flags.lean ====
section
/-! DEFINITION. Flags and conditions: marker states (R213 to R217), latched event copies (R212), and the conditions of
Table 3.5 as one word sees them. -/
namespace Sys2Proof.Machine
open Sys2Proof

/-- The site's latched copy of event n as a word executing in this SCLK sees it: a copy set in the same SCLK is not yet
seen (R212). -/
def evtSeen (s : State) (i : SiteId) (n : Nat) : Bool :=
  match kget? (s.site i).evtAt n with
  | some (at_, old) => if at_ = s.now then old else (s.n (K.st_EVT_LATCHED i)).testBit n
  | none => (s.n (K.st_EVT_LATCHED i)).testBit n

/-- A free truth value. -/
def State.drawnBit (s : State) : Bool := s.drawn % 2 == 1

/-- HOST_FLAG or a PARAM entry as a word sees it: within 4 SCLK of a change it may be the old or the new value (R134,
R173).
[DESIGN CHOICE, assumption 214] -/
def seenObj (s : State) (i : SiteId) (k : Nat) (draw : Bool) : Int :=
  match kget? (s.site i).recent k with
  | some (old, at_) => if at_ + 4 ≤ s.now ∨ draw then s.g k else old
  | none => s.g k

/-! ### Sources as conditions see them (R143) -/

/-- Records of a segment: the sum of its yealms' VCOUNT. -/
def Seg.records (x : Seg) : Nat := x.data.foldl (fun a e => a + Yealm.vcount e.2) 0

/-- Records of a source-list entry received so far, and whether that is all of them. -/
def State.sourceLen (s : State) (i : SiteId) (e : Nat) : Nat × Bool :=
  match Store.source s.od i e with
  | none => (0, true)
  | some (true, n) => let x := s.strm (Fin.ofNat 64 n); (x.nextOrd, x.lastIn)
  | some (false, n) => match s.seg? n with | some x => (x.records, true) | none => (0, true)

/-- SRC_END (R143): none while it is not known. -/
def srcEnd (s : State) (i : SiteId) : Option Bool :=
  let x := s.site i
  let (n, all) := s.sourceLen i x.entry
  if x.ord + s.n (K.sq_VEC_PER_FRAME i) < n then some false
  else if all then some true
  else none

/-- An arming of a TMU of the site is in progress (R413). -/
def tmuActive (s : State) (i : SiteId) : Bool := allTmus.any (fun u => inSlot s i u && s.tmuBusy u)

/-- A value that a word sees 4 SCLK after a change at t; earlier it may see the old one.
[DESIGN CHOICE, assumption 214] -/
def settled (s : State) (t : Option Nat) (new old : Bool) : Bool :=
  match t with
  | none => new
  | some t => if t + 4 ≤ s.now ∨ s.drawnBit then new else old

/-- The value of COND for a word that sees the result of its frame g - H + 1 and the sticky flag (Table 3.5, R128, R139,
R140); none when the word does not execute yet (R143).
[DEDUCED, assumption 40] -/
def condValue (s : State) (i : SiteId) (c lcsel : Nat) (res : Option (Bool × Bool)) (sticky : Bool) : Option Bool :=
  let x := s.site i
  if c = 0 then some true
  else if c = 1 then some (s.g (K.lc_LC i lcsel) == 0)
  else if c = 2 then some x.stack.isEmpty
  else if c = 3 then some (x.stack.length == 16)
  else if c = 8 then some (match res with | some (_, f) => f | none => false)
  else if c = 9 then some (match res with | some (t, f) => t && !f | none => false)
  else if c = 0x0A then some sticky
  else if c = 0x0B then some (s.b (K.ff_FF_VALID i) && decide (x.ffAt < s.now))
  else if c = 0x0C then some (s.b (K.fr_COUNT_ONLY i) && settled s (some x.coAt) true false)
  else if c = 0x0D then srcEnd s i
  else if c = 0x0E then some (seenObj s i (K.sr_HOST_FLAG i) s.drawnBit != 0)
  else if 0x10 ≤ c ∧ c < 0x20 then some (evtSeen s i (c - 0x10))
  else if 0x20 ≤ c ∧ c < 0x30 then some (s.mkLast.testBit (c - 0x20))
  else if 0x30 ≤ c ∧ c < 0x38 then
    let e : EngId := Fin.ofNat 8 (c - 0x30)
    some (s.engSite e == some i && s.wst e == WS.ended)
  else if c = 0x38 then some (settled s x.tmuEndAt (!tmuActive s i) false)
  else if c = 0x39 then some (settled s x.tmuEndAt x.tmuOut x.tmuOutOld)
  else some false

end Sys2Proof.Machine
end

