-- ==== Sys2Proof/Machine/Streams.lean ====
section
/-! DEFINITION. Streams: the stream commands and the stream engine (R81 to R88, R590; Table 2.4). -/
namespace Sys2Proof.Machine
open Sys2Proof

/-! ### Stream states (2480h.01) -/
namespace StrmSt
/-- CLOSED -/
abbrev closed : Nat := 0
/-- OPEN -/
abbrev opened : Nat := 1
/-- ACTIVE -/
abbrev active : Nat := 2
/-- ENDED -/
abbrev ended : Nat := 3
/-- ERROR -/
abbrev error : Nat := 4
end StrmSt

/-- RETAIN of a stream (R86).
[DEDUCED, assumption 18] -/
def State.retain (s : State) (n : StreamId) : Nat := s.n (K.sm_HIGH n) + 1 - s.n (K.sm_WINDOW n)

/-- A feed entry ends: its completion and LAST_STATUS, which no other operation sets.
[DESIGN CHOICE, assumption 197] -/
def feedDone (n : StreamId) (t : Tag) (status result : Nat) (s : State) : State :=
  (s.p (K.sm_LAST_STATUS n) status).complete t status result

/-- The feed entries of a stream in flight (R590) that the stream engine does not hold and that have not ended. -/
def feedsInFlight (s : State) (n : StreamId) : List Tag :=
  ((s.host.flights.filter (fun x => x.opcode == 0x4B && !x.dropped &&
      ((s.queue? x.tag.queue).bind Queue.bound) == some n)).map Flight.tag).filter
    (fun t => !(s.strm n).held.any (fun f => f.tag == t) && !s.ended t)

/-- Completes the feed entries of a stream in flight with STREAM_STATE and the yealms that they stored: those held, and
those fetched that have stored nothing (Table 2.4). -/
def dropFeeds (n : StreamId) (s : State) : State :=
  let ts := feedsInFlight s n
  let s := (s.strm n).held.foldl (fun s f => feedDone n f.tag Status.STREAM_STATE f.stored s) s
  let s := ts.foldl (fun s t => feedDone n t Status.STREAM_STATE 0 s) s
  s.setStrm n { s.strm n with held := [] }

/-- Empties a ring and sets every pointer to 0. -/
def emptyRing (n : StreamId) (s : State) : State :=
  let s := ((s.p (K.sm_WR_PTR n) 0).p (K.sm_RD_PTR n) 0).p (K.sm_HIGH n) 0
  s.setStrm n { s.strm n with lastIn := false, ring := [], base := [], nextOrd := 0 }

/-- STREAM_OPEN (R81, R590).
[DESIGN CHOICE, assumption 17] -/
def streamOpen (t : Tag) (n : StreamId) (q : QueueId) (octets : BitVec 32) (beats : Fin 4) (s : State) : State :=
  if s.n (K.sm_STATE n) ≠ StrmSt.closed then s.refuse t Status.STREAM_STATE
  else if s.hbmFree < 128 then s.refuse t Status.STREAM_NO_SPACE
  else
    let s := emptyRing n ((s.p (K.sm_STATE n) StrmSt.opened).p (K.sm_FEED_QUEUE n) (q.val : Nat))
    let s := s.setStrm n { s.strm n with octets := octets.toNat, beats := beats.val, owner := t.fn, refBy := none, held := [] }
    let s := match s.queue? q with
             | some x => s.setQueue q { x with bound := some n }
             | none => s
    s.complete t Status.OK 0

/-- STREAM_OPEN.
[DEDUCED, assumption 16] -/
def execStreamOpen (t : Tag) (n : StreamId) (q : QueueId) (octets : BitVec 32) (beats : Fin 4) (s : State) :
    Host.Outcome State Fault Refusal :=
  s.queued t .timing (.streamOpen t n q octets beats) fun s =>
  .next (s.fresh.inRange t (decide (beats.val ≠ 3)) (streamOpen t n q octets beats))

/-- Why STREAM_RESET and STREAM_CLOSE are refused, if they are (Table 2.4, R81). -/
def streamHeld (n : StreamId) (s : State) : Nat :=
  if s.n (K.sm_STATE n) = StrmSt.closed then Status.STREAM_STATE
  else if (s.strm n).refBy.isSome then Status.STREAM_ACTIVE
  else Status.OK

/-- STREAM_RESET. -/
def streamReset (t : Tag) (n : StreamId) (s : State) : State :=
  let st := streamHeld n s
  if st ≠ Status.OK then s.refuse t st
  else (emptyRing n (dropFeeds n (s.p (K.sm_STATE n) StrmSt.opened))).complete t Status.OK 0

/-- STREAM_RESET. -/
def execStreamReset (t : Tag) (n : StreamId) (s : State) : Host.Outcome State Fault Refusal :=
  s.queued t .timing (.streamReset t n) fun s =>
  .next (streamReset t n s.fresh)

/-- STREAM_CLOSE: the ring, the binding and the pending feed entries go. -/
def streamClose (t : Tag) (n : StreamId) (s : State) : State :=
  let st := streamHeld n s
  if st ≠ Status.OK then s.refuse t st
  else
    let q := s.n (K.sm_FEED_QUEUE n)
    let s := emptyRing n (dropFeeds n (s.p (K.sm_STATE n) StrmSt.closed))
    let s := s.p (K.sm_FEED_QUEUE n) 0xFFFF
    let s := match s.queue? q with
             | some x => if x.bound = some n then s.setQueue q { x with bound := none } else s
             | none => s
    s.complete t Status.OK 0

/-- STREAM_CLOSE. -/
def execStreamClose (t : Tag) (n : StreamId) (s : State) : Host.Outcome State Fault Refusal :=
  s.queued t .timing (.streamClose t n) fun s =>
  .next (streamClose t n s.fresh)

/-- A yealm of a stream is held in the prefetch buffer of the site that references it, where the ring no longer reaches
it. -/
def buffered (s : State) (n : StreamId) (idx : Nat) : Bool :=
  match (s.strm n).refBy with
  | none => false
  | some i =>
    let mine (e : Nat) : Bool := Store.source s.od i e == some (true, n.val)
    (s.site i).seqSlots.any (fun q => q.2 == idx && mine q.1) ||
    (s.site i).heads.any (fun h => h.have_.contains idx && mine h.entry)

/-- Stores one checked yealm in the ring, over the yealm 65,536 before it, of which a copy in the prefetch buffer stays
(R86); LAST ends the stream (R85). -/
def ringStore (n : StreamId) (y : List Byte) (s : State) : State :=
  let w := s.n (K.sm_WR_PTR n)
  let x := s.strm n
  let old := if 65536 ≤ w ∧ buffered s n (w - 65536) = false then kdel x.ring (w - 65536) else x.ring
  let s := (s.p (K.sm_WR_PTR n) (w + 1 : Nat)).setStrm n
    { x with ring := kput old w y, base := kput x.base w x.nextOrd, nextOrd := x.nextOrd + Yealm.vcount y,
             lastIn := x.lastIn || Yealm.last y }
  if Yealm.last y ∧ (s.n (K.sm_STATE n) = StrmSt.opened ∨ s.n (K.sm_STATE n) = StrmSt.active) then
    s.p (K.sm_STATE n) StrmSt.ended
  else s

/-- The check of the next yealm of a feed entry (R84, R772). -/
def feedCheck (n : StreamId) (y : List Byte) (s : State) : Nat :=
  yealmCheck y true n (some ((s.strm n).octets, (s.strm n).beats)) (s.n (K.sm_WR_PTR n))

/-- Stores the yealms of an entry up to the first that fails, or to LAST (R84, R85). -/
def feedGo (n : StreamId) (t : Tag) : List (List Byte) → Nat → State → State
  | [], k, s => feedDone n t Status.OK k s
  | y :: r, k, s =>
    if s.n (K.sm_STATE n) = StrmSt.error then feedDone n t Status.STREAM_STATE k s
    else if s.n (K.sm_STATE n) = StrmSt.ended then feedDone n t Status.STREAM_ENDED k s
    else
      let st := feedCheck n y s
      if st = Status.OK then feedGo n t r (k + 1) (ringStore n y s) else feedDone n t st k s

/-- The ring has room for all yealms of an entry, or the entry will store nothing (R83, R85, R86). -/
def feedReady (n : StreamId) (count : Nat) (s : State) : Bool :=
  s.n (K.sm_STATE n) == StrmSt.error || s.n (K.sm_STATE n) == StrmSt.ended ||
  decide (s.n (K.sm_WR_PTR n) + count ≤ s.retain n + 65536)

/-- STREAM_FEED (R82 to R85, R590): entries of a queue are taken in order; an entry that STREAM_RESET or STREAM_CLOSE has
ended is not taken. -/
def streamFeed (t : Tag) (data : List Byte) (s : State) : State :=
  let ys := (chunks 4096 256 data).map (padTo 4096)
  if s.ended t then s
  else match (s.queue? t.queue).bind Queue.bound with
  | none => s.refuse t Status.STREAM_STATE
  | some n =>
    let s := s.fromHost t data.length
    let x := s.strm n
    if x.held.isEmpty && feedReady n ys.length s then feedGo n t ys 0 s
    else s.setStrm n { x with held := x.held ++ [{ tag := t, rest := ys }] }

/-- STREAM_FEED. -/
def execStreamFeed (t : Tag) (data : List Byte) (s : State) : Host.Outcome State Fault Refusal :=
  s.queued t .timing (.streamFeed t data) fun s =>
  .next (s.fresh.inRange t (decide (1 ≤ data.length) && decide (data.length ≤ 256 * 4096)) (streamFeed t data))

/-- STREAM_FEED_RESUME: the oldest held entry proceeds once the ring has room. -/
def streamFeedResume (n : StreamId) (s : State) : State :=
  match (s.strm n).held with
  | [] => s
  | f :: r =>
    if feedReady n f.rest.length s then
      feedGo n f.tag f.rest f.stored (s.setStrm n { s.strm n with held := r })
    else s

/-- STREAM_FEED_RESUME. -/
def execStreamFeedResume (n : StreamId) (s : State) : Host.Outcome State Fault Refusal :=
  .next (s.fresh.timed (streamFeedResume n))

end Sys2Proof.Machine
end

