-- ==== Sys2Proof/Machine/Vectors.lean ====
section
/-! DEFINITION. Vectors: where a record is stored, the prefetch buffer and the staging area, vector select and frame
assembly, patrol (R50, R58, R69 to R80, R87 to R91, R97 to R105, R143, R148, R149). -/
namespace Sys2Proof.Machine
open Sys2Proof

/-! ### Records (R60) -/

/-- The yealm and the record in it of an ordinal, over yealms in SEQ order. -/
def locateIn : KMap (List Byte) → Nat → Option (Nat × Nat)
  | [], _ => none
  | (i, y) :: r, o => if o < Yealm.vcount y then some (i, o) else locateIn r (o - Yealm.vcount y)

/-- The same over the yealms that a ring has stored, by the ordinal of their first vector. -/
def locateRing (x : Strm) (o : Nat) : Option (Nat × Nat) :=
  if x.nextOrd ≤ o then none
  else ((x.base.filter (fun e => decide (e.2 ≤ o))).getLast?).map (fun e => (e.1, o - e.2))

/-- The yealm and record of an ordinal in a source-list entry. -/
def State.locate (s : State) (i : SiteId) (e o : Nat) : Option (Nat × Nat) :=
  match Store.source s.od i e with
  | none => none
  | some (true, n) => locateRing (s.strm (Fin.ofNat 64 n)) o
  | some (false, n) => match s.seg? n with | some x => locateIn x.data o | none => none

/-- A yealm of a source-list entry. -/
def State.yealm (s : State) (i : SiteId) (e idx : Nat) : Option (List Byte) :=
  match Store.source s.od i e with
  | none => none
  | some (true, n) => kget? (s.strm (Fin.ofNat 64 n)).ring idx
  | some (false, n) => match s.seg? n with | some x => kget? x.data idx | none => none

/-- The yealm at or after a position: that of the ordinal, or the first one beyond the last. -/
def State.yealmIdx (s : State) (i : SiteId) (e o : Nat) : Nat :=
  match s.locate i e o with
  | some (idx, _) => idx
  | none =>
    match Store.source s.od i e with
    | some (true, n) => s.n (K.sm_WR_PTR (n % 64))
    | some (false, n) => match s.seg? n with | some x => x.len | none => 0
    | none => 0

/-! ### The prefetch buffer (R90, R91) -/

/-- The position that sequential lookahead follows: the vectors that a stalled word needs, or the read point. -/
def readPos (x : Site) : Nat × Nat :=
  match x.stall with
  | some st => (st.entry, st.ord)
  | none => (x.entry, x.ord)

/-- A yealm is held in the prefetch buffer. -/
def held (x : Site) (e idx : Nat) : Bool :=
  x.seqSlots.contains (e, idx) || x.heads.any (fun h => h.entry == e && h.have_.contains idx)

/-- The yealms from an index on that head slots hold without a gap (R91); four heads hold at most 16. -/
def headRun (x : Site) (e : Nat) : Nat → Nat → Nat
  | 0, _ => 0
  | k + 1, idx => if x.heads.any (fun h => h.entry == e && h.have_.contains idx) then headRun x e k (idx + 1) + 1 else 0

/-- The first yealm of the sequential lookahead: that of the read point, after the yealms that a head holds of it (R90,
R91). -/
def lookBase (s : State) (i : SiteId) : Nat :=
  let p := readPos (s.site i)
  let base := s.yealmIdx i p.1 p.2
  base + headRun (s.site i) p.1 16 base

/-- The yealm lies in the sequential lookahead of 48 slots. -/
def inLookahead (s : State) (i : SiteId) (e idx : Nat) : Bool :=
  e == (readPos (s.site i)).1 && decide (lookBase s i ≤ idx) && decide (idx < lookBase s i + 48)

/-- A slot of the prefetch buffer waits for the yealm: one of the lookahead that does not hold it, or a head slot that
covers it and does not hold it (R90). -/
def wanted (s : State) (i : SiteId) (e idx : Nat) : Bool :=
  let x := s.site i
  (inLookahead s i e idx && !x.seqSlots.contains (e, idx)) ||
  x.heads.any (fun h => h.entry == e && decide (h.idx ≤ idx) && decide (idx < h.idx + 4) && !h.have_.contains idx)

/-- Puts a delivered yealm into its slots: the lookahead, whose slots behind the read point are free again, and every head
slot that covers it. -/
def deliver (i : SiteId) (e idx : Nat) (s : State) : State :=
  let x := s.site i
  let keep := x.seqSlots.filter (fun q => inLookahead s i q.1 q.2)
  let slots := if inLookahead s i e idx && !keep.contains (e, idx) then keep ++ [(e, idx)] else keep
  let heads := x.heads.map (fun h =>
    if h.entry = e ∧ h.idx ≤ idx ∧ idx < h.idx + 4 ∧ h.have_.contains idx = false then { h with have_ := h.have_ ++ [idx] } else h)
  s.setSite i { x with seqSlots := slots, heads := heads }

/-- Marks the newest loop head: it takes a head slot that no flagged entry uses, from the oldest loop head if need be
(R90). Its slot starts empty, whatever the sequential slots hold.
[DESIGN CHOICE, assumption 198] -/
def markHead (i : SiteId) (e idx : Nat) (s : State) : State :=
  let x := s.site i
  let flagged := x.heads.filter (·.flagged)
  let loops := x.heads.filter (fun h => !h.flagged && !(h.entry == e && h.idx == idx))
  let old := (x.heads.find? (fun h => !h.flagged && h.entry == e && h.idx == idx)).getD { entry := e, idx := idx, flagged := false }
  let room := 4 - flagged.length
  if room = 0 then s
  else s.setSite i { x with heads := flagged ++ (loops.drop (loops.length + 1 - room)) ++ [old] }

/-- A stalled word needs a record beyond the last of a segment or of an ENDED stream (R89). -/
def overread (s : State) (i : SiteId) : Bool :=
  match (s.site i).stall with
  | none => false
  | some st =>
    let (n, all) := s.sourceLen i st.entry
    all && decide (n < st.ord + s.n (K.sq_VEC_PER_FRAME i))

/-- The deep-store yealm is staged (R16, R74). -/
def staged (s : State) (i : SiteId) (e idx : Nat) : Bool :=
  match Store.source s.od i e with
  | some (false, n) =>
    match s.seg? n with
    | some g =>
      if g.home = .deep then
        let t := (s.site i).staging
        decide (idx < kgetD t.heads e 0) || (t.entry == some e && decide (t.first ≤ idx) && decide (idx < t.first + t.count))
      else true
    | none => true
  | _ => true

/-- What a fetch fault of a stream does to the stream (R81).
[DEDUCED, assumption 21] -/
def strmError (n : Nat) (s : State) : State := s.p (K.sm_STATE (n % 64)) StrmSt.error

/-- YEALM_FETCH (R70, R72, R73, R87 to R91, R104): a yealm that a slot of the prefetch buffer waits for. A fetch for a slot of
the lookahead moves RD_PTR; one that goes back below RETAIN parks the site, while one that only fills a head moves nothing. A yealm that the ring has overwritten is not
delivered to a head slot.
[DEDUCED, assumption 21] -/
def yealmFetch (i : SiteId) (e : Fin 64) (idx : Nat) (beyond : Bool) (c : FetchCheck) (s : State) : State :=
  if s.active i = false then s
  else
    match Store.source s.od i e with
    | none => s
    | some (true, n) =>
      let k : StreamId := Fin.ofNat 64 n
      let ahead := inLookahead s i e idx && !(s.site i).seqSlots.contains (e.val, idx)
      if s.n (K.sm_WR_PTR k) ≤ idx then
        if overread s i ∧ ahead then parkRaise i (Src.STREAM_OVERREAD k) 0 (strmError k s) else s
      else if wanted s i e idx = false then s
      else if ahead ∧ idx < s.retain k ∧ idx < s.n (K.sm_RD_PTR k) then
        parkRaise i (Src.LOOP_WINDOW_OVERFLOW k) 0 (strmError k s)
      else if idx + 65536 < s.n (K.sm_WR_PTR k) then s
      else
        let s := if ahead then s.p (K.sm_RD_PTR k) (idx + 1 : Nat) else s
        let s := s.p (K.sm_HIGH k) (max (s.g (K.sm_HIGH k)) idx)
        let s := if beyond then s.cnt32 (K.md_OVER_RES_COUNT i) else s
        match c with
        | .ok => deliver i e idx s
        | .ue k' => parkRaise i (Src.HBM_UE k') 0 (strmError k (s.cnt64 K.hs_HBM_UE))
        | .bad => parkRaise i (Src.STREAM_YEALM_BAD k) 0 (strmError k s)
    | some (false, n) =>
      let len := match s.seg? n with | some g => g.len | none => 0
      if len ≤ idx then
        if overread s i ∧ inLookahead s i e idx then parkRaise i (Src.SEG_OVERREAD i) 0 s else s
      else if wanted s i e idx = false ∨ staged s i e idx = false then s
      else
        let s := if beyond then s.cnt32 (K.md_OVER_RES_COUNT i) else s
        match c with
        | .ok => deliver i e idx s
        | .ue k' => parkRaise i (Src.HBM_UE k') 0 (failSeg n (s.cnt64 K.hs_HBM_UE))
        | .bad => parkRaise i (Src.SEG_YEALM_BAD i) 0 s

/-- YEALM_FETCH. -/
def execYealmFetch (i : SiteId) (e : Fin 64) (idx : Nat) (beyond : Bool) (c : FetchCheck) (s : State) :
    Host.Outcome State Fault Refusal := .next (s.fresh.timed (yealmFetch i e idx beyond c))

/-! ### The mover and patrol (R71 to R80) -/

/-- Length in yealms of the segment in a source-list entry. -/
def State.entryLen (s : State) (i : SiteId) (e : Nat) : Nat :=
  match Store.source s.od i e with
  | some (false, n) => match s.seg? n with | some g => g.len | none => 0
  | _ => 0

/-- A source-list entry names a segment whose home is DEEP.
[DEDUCED, assumption 19] -/
def State.deepEntry (s : State) (i : SiteId) (e : Nat) : Bool :=
  match Store.source s.od i e with
  | some (false, n) => match s.seg? n with | some g => g.home == .deep | none => false
  | _ => false

/-- The staging area as the read point leaves it (R75, R76): the window follows the deep segment that is read, from its
read point on; when it moves to another deep segment it starts with what that segment's head holds, and the head is
vacated.
[DEDUCED, assumption 19] -/
def followed (s : State) (i : SiteId) : Staging :=
  let x := s.site i
  let t := x.staging
  let p := readPos x
  if s.deepEntry i p.1 = false then t
  else
    let t := if t.entry = some p.1 then t
             else { t with entry := some p.1, first := 0, count := kgetD t.heads p.1 0, heads := kdel t.heads p.1 }
    let at_ := s.yealmIdx i p.1 p.2
    if t.first ≤ at_ ∧ at_ ≤ t.first + t.count then { t with first := at_, count := t.first + t.count - at_ }
    else { t with first := at_, count := 0 }

/-- The yealms that a window is to hold: STAGE_WINDOW, or the rest of its segment (R75). -/
def windowWants (s : State) (i : SiteId) (t : Staging) : Nat :=
  match t.entry with
  | none => 0
  | some e => min (s.n (K.md_STAGE_WINDOW i)) (s.entryLen i e - t.first)

/-- The window holds all that it can, wherever the read point has moved (R75). -/
def windowFull (s : State) (i : SiteId) : Bool :=
  let t := followed s i
  decide (windowWants s i t ≤ t.count)

/-- The site is RUNNING or PAUSED. -/
def State.inRun (s : State) (i : SiteId) : Bool := s.st i == SS.running || s.st i == SS.paused

/-- The deadline of one site lies before that of another: its staged data run out earlier at its declared deep rate
(R77). -/
def deadlineBefore (s : State) (j i : SiteId) : Bool :=
  decide ((followed s j).count * s.n (K.md_DECL_DEEP i) < (followed s i).count * s.n (K.md_DECL_DEEP j))

/-- Entries that a site's HBM region holds. -/
def State.logCap (s : State) (i : SiteId) : Nat := 65536 * s.n (K.fc_LOG_EXTENTS i)

/-- Entries written to the region and not yet freed or spilled. -/
def State.logHeld (s : State) (i : SiteId) : Nat := s.n (K.fr_LOG_WRITTEN i) - (s.site i).spillIdx

/-- A whole extent of a site's fail region is due to be spilled (R332). -/
def spillDue (s : State) (i : SiteId) : Bool :=
  s.n (K.fc_LOG_FULL_ACTION i) == 2 && decide (s.logCap i ≤ 2 * s.logHeld i) && decide (65536 ≤ s.logHeld i)
    && decide ((s.site i).spillIdx / 65536 < s.n (K.fc_SPILL_SIZE i))

/-- A window refill of a RUNNING or PAUSED site is due: item 1 of R77. -/
def refillDue (s : State) (i : SiteId) : Bool := s.inRun i && !windowFull s i

/-- The valid source-list entries of a site in entry order: entry, stream or segment, number. -/
def sourceList (s : State) (i : SiteId) : List (Nat × Bool × Nat) :=
  (List.range 64).filterMap (fun e => (Store.source s.od i e).map (fun x => (e, x.1, x.2)))

/-- The window and every head of the site's deep segments are full (R75). -/
def stagingFull (s : State) (i : SiteId) : Bool :=
  let t := followed s i
  windowFull s i &&
  (sourceList s i).all (fun e => !s.deepEntry i e.1 || t.entry == some e.1 ||
    decide (min 256 (s.entryLen i e.1) ≤ kgetD t.heads e.1 0))

/-- Window or head filling of an ARMED site is due: item 3 of R77. -/
def fillDue (s : State) (i : SiteId) : Bool := s.st i == SS.armed && !stagingFull s i

/-- The mover has work that comes before the host's commands (R77, items 1 to 3).
[DESIGN CHOICE, assumption 193] -/
def moverDue (s : State) : Bool := allSites.any (fun i => refillDue s i || spillDue s i || fillDue s i)

/-- The mover has earlier work than filling for a site (R77): for the window of a RUNNING or PAUSED site the window of
another with an earlier deadline; for its heads every window that is due; for an ARMED site those and a spill.
[DESIGN CHOICE, assumption 193] -/
def moverBusy (s : State) (i : SiteId) : Bool :=
  if s.inRun i then
    if windowFull s i then allSites.any (refillDue s)
    else allSites.any (fun (j : SiteId) => refillDue s j && deadlineBefore s j i)
  else allSites.any (refillDue s) || allSites.any (spillDue s)

/-- The number of the segment in a source-list entry. -/
def State.entrySeg (s : State) (i : SiteId) (e : Nat) : Nat :=
  match Store.source s.od i e with
  | some (_, k) => k
  | none => 0

/-- n yealms of a deep segment reach the window, or, once it is full, a head (R75, R76).
[DESIGN CHOICE, assumption 220] -/
def landStaged (i : SiteId) (e n : Nat) (s : State) : State :=
  let t := followed s i
  let full := windowFull s i
  if t.entry = some e ∧ full = false then
    s.modSite i (fun x => { x with staging := { t with count := min (windowWants s i t) (t.count + n) } })
  else if full = false then s
  else
    s.modSite i (fun x => { x with staging := { t with
      heads := kput t.heads e (min (min 256 (s.entryLen i e)) (kgetD t.heads e 0 + n)) } })

/-- MOVER_REFILL (R75 to R79): n yealms of a deep segment reach the site's window or a head; an uncorrectable error parks
the site. A refill that is not the mover's next work does nothing.
[DESIGN CHOICE, assumption 193] -/
def moverRefill (i : SiteId) (e : Fin 64) (n : Nat) (c : MoverCheck) (s : State) : State :=
  if (s.active i && s.deepEntry i e && !moverBusy s i) = false then s
  else
    let k := s.entrySeg i e
    match c with
    | .ue item =>
      let u := Src.DDR5_UE (ddrChannel .vector k item)
      parkSite i u (moverUe .vector k item (oneSite i) s)
    | _ => landStaged i e n (moverCe .vector k c s)

/-- MOVER_REFILL. -/
def execMoverRefill (i : SiteId) (e : Fin 64) (n : Nat) (c : MoverCheck) (s : State) :
    Host.Outcome State Fault Refusal := .next (s.fresh.timed (moverRefill i e n c))

/-- PATROL_READ (R71, R72).
[DESIGN CHOICE, assumption 22] -/
def patrolRead (stack : Fin 4) (f : PatrolFind) (sweepEnd : Bool) (s : State) : State :=
  let s := if sweepEnd then s.cnt64 K.hs_PATROL_SWEEPS else s
  match f with
  | .clean => s
  | .corrected => correctable stack (s.cnt64 K.hs_HBM_CE)
  | .ueSegment n => (failSeg n (s.cnt64 K.hs_HBM_UE)).raise (Src.HBM_UE stack)
  | .ueOther => (s.cnt64 K.hs_HBM_UE).raise (Src.HBM_UE stack)

/-- PATROL_READ. -/
def execPatrolRead (stack : Fin 4) (f : PatrolFind) (sweepEnd : Bool) (s : State) :
    Host.Outcome State Fault Refusal := .next (s.fresh.timed (patrolRead stack f sweepEnd))

/-! ### Vector select and frame assembly (R56 to R58, R144, R148, R149) -/

/-- Every record that a word needs is in the prefetch buffer. -/
def dataReady (s : State) (i : SiteId) (st : Stall) : Bool :=
  if MW.vop st.word = 1 then true
  else (List.range (s.n (K.sq_VEC_PER_FRAME i))).all (fun k =>
    match s.locate i st.entry (st.ord + k) with
    | some (idx, _) => held (s.site i) st.entry idx && (s.yealm i st.entry idx).isSome
    | none => false)

/-- The timing set that TSMODE chooses for a vector after the last one issued (R148). -/
def chooseTset (w : MWord) (tsb : Option Nat) (prev : Vec) : Nat :=
  match MW.tsmode w with
  | 0 => MW.tset w
  | 1 => tsb.getD (MW.tset w)
  | _ => prev.tset

/-- The vector of a stored record after the one executed before it: absent octets repeat (R58). -/
def recordVec (s : State) (i : SiteId) (w : MWord) (e ord : Nat) (prev : Vec) : Vec :=
  match s.locate i e ord with
  | none => prev
  | some (idx, r) =>
    let y := (s.yealm i e idx).getD []
    let new := Yealm.slices y r
    let all := (Yealm.octetList (Yealm.octets y)).map (fun o => (o, (kget? new o).getD (kgetD prev.slices o [])))
    let tsb := Yealm.tsByte y r
    { addr := s.vecAddr i e ord, tset := chooseTset w tsb prev, tsb := tsb, slices := all }

/-- The vectors of a word's frame and the last of them. -/
def frameVecs (s : State) (i : SiteId) (st : Stall) (prev : Vec) : List Vec × Vec :=
  (List.range (s.n (K.sq_VEC_PER_FRAME i))).foldl (fun a k =>
    let v := if MW.vop st.word = 1 then { a.2 with tset := chooseTset st.word a.2.tsb a.2 }
             else recordVec s i st.word st.entry (st.ord + k) a.2
    (a.1 ++ [v], v)) ([], prev)

/-- Cycle count of the first vector of the next frame assembled: the vectors driven and those of the frames ahead of it. -/
def nextCycle (x : Site) : Nat := x.cycle + (x.fifo.map (fun f => f.vecs.length)).foldl (· + ·) 0

/-- The offsets of the serving spars that the calibration of a site's channels has moved, for a frame to carry (R252, R459). -/
def servingOffsets (s : State) (i : SiteId) : KMap Int :=
  (allBanks.filterMap (fun b => (s.calBank b).cur)).foldl (fun m w =>
    if Store.hasChan s.od i w.chan then w.sparOfs.foldl (fun m e => kput m (16 * w.chan.val + e.1) e.2) m else m) []

/-- Assembles the frame of an executed word, which ends an open run of pad frames, and posts its HOSTEVT (R102, R149, R592,
Table 13.8; Table 2.6, step 6).
[DESIGN CHOICE, assumption 56] -/
def assemble (i : SiteId) (st : Stall) (s : State) : State :=
  let x := s.site i
  let (vs, last) := frameVecs s i st x.lastVec
  let w := st.word
  let f : Frame := { num := st.num, vecs := vs, cmpen := MW.cmpen w, failact := MW.failact w,
                     mkr := if st.first && ownsMarker s i (MW.mkr w % 16) then MW.mkr w else 0, dcr := MW.dcr w, od := s.od,
                     blobs := s.blobs, spar := servingOffsets s i }
  let c := nextCycle x
  let s := closePad i vs.head? (s.setSite i { x with fifo := x.fifo ++ [f], lastVec := last, stall := none })
  match st.post with
  | some d => s.event i 1 c d
  | none => s

/-! ### Under-run (R97 to R105) -/

/-- The site's pending word lacks its vectors, or its SRC_END is not known (R143): a supply stall. -/
def supplyStall (s : State) (i : SiteId) : Bool :=
  let x := s.site i
  match x.stall with
  | some st => !dataReady s i st
  | none =>
    !x.halted && !x.pausing &&
    (match kget? s.mem.cs x.next with
     | some w => MW.cond w == 0x0D && (!x.mid || s.g (K.sr_REP_LEFT i) == 1) && (x.mid || MW.vrep w == 0) && (srcEnd s i).isNone
     | none => false)

/-- A frame slot falls due while the pending frame cannot be assembled in it. -/
def slotLacks (s : State) (i : SiteId) : Bool :=
  s.st i == SS.running && decide ((s.site i).fifo.length ≤ 15) && supplyStall s i && !overread s i

/-- Assembles one pad frame: as many vectors as the pending word would emit, at the timing set of the last vector issued
(R99). -/
def padFrame (i : SiteId) (s : State) : State :=
  let x := s.site i
  let n := s.n (K.sq_VEC_PER_FRAME i)
  let v : Vec := { tset := x.lastVec.tset }
  let e := (readPos x).1
  let p : PadRun := match x.pad with
    | some p => { p with count := p.count + n }
    | none => { cycle := nextCycle x, count := n, tset := x.lastVec.tset, at_ := readPos x }
  let s := s.setSite i { x with fifo := x.fifo ++ [{ pad := true, vecs := List.replicate n v, od := s.od, blobs := s.blobs }], pad := some p }
  let s := s.cnt64 (K.md_PAD_FRAMES i)
  match Store.source s.od i e with
  | some (true, k) => s.cnt64 (K.sm_PAD_FRAMES (k % 64))
  | _ => s

/-- UNDER_RUN: the first frame slot that lacks data (R97, R103, R105). -/
def underRun (i : SiteId) (s : State) : State :=
  if (slotLacks s i && (s.site i).pad.isNone) = false then s
  else
    match Store.source s.od i (readPos (s.site i)).1 with
    | some (true, n) =>
      let k : StreamId := Fin.ofNat 64 n
      let s := (s.p (K.sm_UNDERRUN_FLAG k) 1).cnt32 (K.sm_UNDERRUN_COUNT k)
      if s.g (K.sm_UNDERRUN_ACTION k) = 1 then padFrame i s
      else parkRaise i (Src.STREAM_UNDERRUN k) 0 (strmError k s)
    | _ =>
      let s := s.p (K.md_SEG_UNDERRUN_FLAG i) 1
      if s.g (K.md_SEG_UNDERRUN_ACTION i) = 1 then padFrame i s
      else parkRaise i (Src.SUPPLY_UNDERRUN i) 0 s

/-- UNDER_RUN. -/
def execUnderRun (i : SiteId) (s : State) : Host.Outcome State Fault Refusal := .next (s.fresh.timed (underRun i))

/-- PAD_FRAME: a further slot of the run falls due (R99). -/
def execPadFrame (i : SiteId) (s : State) : Host.Outcome State Fault Refusal :=
  .next (s.fresh.timed (fun s => if slotLacks s i && (s.site i).pad.isSome then padFrame i s else s))

end Sys2Proof.Machine
end

