-- ==== Sys2Proof/Machine/Frames.lean ====
section
/-! DEFINITION. Taking a frame: its checks (R232, R275, R279), the cycle number (R311), its marker changes (R150, R216) and
its place among the frames to be driven. -/
namespace Sys2Proof.Machine
open Sys2Proof

/-! ### Taking a frame -/

/-- The cycle count of the vectors of a frame passes a multiple of 2^48 (R311): its count and its vector. -/
def wrapAt (from_ len : Nat) : Option Nat :=
  let q := (from_ + len - 1) / 2 ^ 48
  if 0 < q ∧ from_ ≤ q * 2 ^ 48 then some (q * 2 ^ 48) else none

/-- The timing sets of a frame are valid (R232). -/
def tsetsValid (f : Frame) (i : SiteId) : Bool := f.vecs.all (fun v => f.b (K.ts_TS_VALID (64 * i + v.tset)))

/-- A site's 48-bit cycle number (R101). -/
def cycle48 (n : Nat) : Nat := n % 2 ^ 48

/-- A frame leaves the FIFO: CYCLE and the time of the next vector move on, a wrap of CYCLE is logged (R226, R318, R319).
[DEDUCED, assumption 63] -/
def frameCounted (i : SiteId) (f : Frame) (rest : List Frame) (s : State) : State :=
  let x := s.site i
  let n := f.vecs.length
  let len := f.vecs.foldl (fun (a : Int) v => a + Store.period f.od i v.tset / 125) 0
  let s := s.setSite i { x with fifo := rest, taken := x.taken ++ [f], cycle := x.cycle + n, vstart := x.vstart + len }
  let s := s.p (K.st_CYCLE i) (cycle48 (x.cycle + n - 1))
  match wrapAt x.cycle n with
  | some m => waitLog i m { kind := 3, tset := (f.vecs.getD (m - x.cycle) {}).tset } (s.cnt32 (K.fr_CYCLE_WRAPS i))
  | none => s

/-- A channel's state before the next frame: after the frames taken and not yet driven, whose waveform bits bear on nothing
that the checks of a frame read. -/
def chanAhead (s : State) (i : SiteId) (c : ChanId) : Chan :=
  (s.site i).undriven.foldl (fun x f => if f.pad then { x with en := false } else (runChan (waveUnknown f.od) f i c x).st)
    (chanNow s i c)

/-- The marker changes of a frame, as the formatters see its vectors: pad frames hold the site's markers inactive, a pulse lasts the frame, and a marker is set or
cleared at the start of the vector that VSEL selects (R99, R150, R216).
[DEDUCED, assumption 59] [DESIGN CHOICE, assumption 199] [DESIGN CHOICE, assumption 229] -/
def markFrame (i : SiteId) (f : Frame) (s : State) : State :=
  let t0 := 125 * f.start
  let starts := (vecStarts f i).map (fun q => q.2.2)
  let vs := starts.getD (min (bits f.mkr 4 2) (starts.length - 1)) t0
  let t1 := f.vecs.foldl (fun a v => a + Store.period f.od i v.tset) t0
  let m := f.mkr % 16
  let out := (markDelay f.od m, f.b (K.mk_MK_ACTIVE_LOW m))
  let due (t : Int) : Nat := (((s.site i).origin : Int) + t / 1250000).toNat
  let s := flushMk i (fun c => decide (c.time ≤ t0)) s
  let s := changeMarks i f.od t0 (fun x => { x with
    padNow := f.pad, mkPulse := if f.mkr / 64 = 3 then x.mkPulse ||| (1#16 <<< m) else x.mkPulse }) s
  let l : List MkChange := match f.mkr / 64 with
    | 1 => [{ due := due vs, time := vs, m := m, op := 1, out := out }]
    | 2 => [{ due := due vs, time := vs, m := m, op := 2, out := out }]
    | 3 => [{ due := due t1, time := t1, m := m, op := 3, out := out }]
    | _ => []
  flushMk i (fun c => decide (c.due ≤ s.now)) (s.modSite i (fun x => { x with mkPend := x.mkPend ++ l }))

/-- Takes the first frame of the FIFO (R21, R226 to R232, R269 to R281, R311): a frame with an invalid timing set or an
impossible pin pattern parks the site and drives nothing.
[DESIGN CHOICE, assumption 56] -/
def takeFrame (i : SiteId) (s : State) : State :=
  match (s.site i).fifo with
  | [] => s
  | f :: rest =>
    let x := s.site i
    if tsetsValid f i = false then parkRaise i (Src.TSET_INVALID i) 0 s
    else
      let f := { f with cycle := x.cycle, start := x.vstart }
      let runs := if f.pad then [] else frameRuns (waveUnknown f.od) (chanAhead s i) i f
      let bad := runs.filter (fun r => r.2.cause != 0)
      if bad.isEmpty = false then
        parkRaise i (Src.PIN_PATTERN i) 0 (bad.foldl (fun s r => s.p (K.ch_PATTERN_CAUSE r.1) r.2.cause) s)
      else
        let f := { f with exps := (runs.map (fun r => r.2.exps)).flatten }
        let s := (frameCounted i f rest s).modSite i (fun x => { x with undriven := x.undriven ++ [f] })
        eaveTaken i f (driveReady i (tmuFrameTaken i f (strobeTimes f i) (wFrameTaken i f (markFrame i f s))))

/-- A site may take a frame: the FIFO holds 16, or the sequencer has ended and the FIFO drains (R21, R160). -/
def mayTake (x : Site) : Bool :=
  !x.fifo.isEmpty && (decide (16 ≤ x.fifo.length) || ((x.halted || x.pausing) && x.stall.isNone))

/-- FRAME_TAKE. -/
def execFrameTake (i : SiteId) (s : State) : Host.Outcome State Fault Refusal :=
  let s := s.fresh
  .next (s.timed (fun s => if s.st i == SS.running && mayTake (s.site i) then takeFrame i s else s))

end Sys2Proof.Machine
end

