-- ==== Sys2Proof/Machine/TimingRules.lean ====
section
/-! DEFINITION. The timing rules that a COMMIT is checked against (R234 to R239, R243 to R248, Table 5.4). -/
namespace Sys2Proof.Machine
open Sys2Proof

/-- A violated rule: its status, the first violating object and DETAIL (R625). -/
structure Viol where
  /-- status -/
  status : Nat
  /-- FIRST_OBJECT: index and subindex -/
  first : Nat
  /-- DETAIL (Table 14.12) -/
  detail : Nat := 0
  deriving DecidableEq, Repr

/-- The first violation of a list of checks. -/
def firstViol {α : Type} (f : α → Option Viol) : List α → Option Viol
  | [] => none
  | a :: r =>
    match f a with
    | some v => some v
    | none => firstViol f r

/-- The first of two violations. -/
def orViol (a : Option Viol) (b : Unit → Option Viol) : Option Viol :=
  match a with
  | some v => some v
  | none => b ()

/-- A check that reports a violation when it does not hold. -/
def require (ok : Bool) (v : Viol) : Option Viol := if ok then none else some v

/-! ### The edges in use (R234, R235) -/

/-- What an edge set of a timing set uses at the site's BEATS. -/
structure Usage where
  /-- row 3: the format is permitted and meets the WINDOW pairing -/
  ok : Bool
  /-- used drive-data elements, ascending -/
  drv : List Nat
  /-- used strobes or windows: opening and closing element -/
  stb : List (Nat × Nat)
  /-- STBMODE is WINDOW -/
  window : Bool
  /-- used elements with their values, ascending -/
  used : List (Nat × Int)
  deriving DecidableEq, Repr

/-- WINDOW pairing: the enables of a window's two strobes agree (Table 5.1). -/
def pairing (mode en : Nat) : Bool :=
  mode != 1 || (en.testBit 0 == en.testBit 1 && en.testBit 2 == en.testBit 3)

/-- The usage of an edge set. -/
def usageOf (m : Store) (i : SiteId) (t es : Nat) : Usage :=
  let ctrl := Store.esCtrl m i t es
  let beats := (Store.val m (K.cf_BEATS i)).toNat
  let mode := bits ctrl 4 2
  let d := driveEdges (bits ctrl 0 4) beats
  let p := strobeEdges mode (bits ctrl 8 4) beats
  let drv := (d.getD []).map (·.1)
  let stb := (p.getD []).map (fun x => x.2.2)
  let names := drv ++ [4, 5] ++ stb.flatMap (fun x => if x.1 = x.2 then [x.1] else [x.1, x.2])
  { ok := d.isSome && p.isSome && pairing mode (bits ctrl 8 4), drv := drv, stb := stb, window := mode == 1,
    used := names.map (fun k => (k, Store.edge m i t es k)) }

/-- The value of a used element. -/
def Usage.val (u : Usage) (k : Nat) : Int := (kget? u.used k).getD 0

/-! ### Rows 1 to 5 -/

/-- Lane spacing of 62.5 ps and element recovery of 156.25 ps, in fs. -/
def laneGap : Int := 62500
/-- 156.25 ps. -/
def recoveryGap : Int := 156250

/-- The first of a list of consecutive elements that follows its neighbour by less than 62.5 ps. -/
def crowded (u : Usage) : List Nat → Option Nat
  | a :: b :: r => if u.val b - u.val a < laneGap then some b else crowded u (b :: r)
  | _ => none

/-- Row 4: order within one vector. -/
def orderRow (u : Usage) (beats : Nat) : Option Nat :=
  match crowded u u.drv with
  | some k => some k
  | none =>
    if beats ≠ 0 ∧ (u.val 5 - u.val 4).natAbs < 62500 then some 5
    else if u.window then
      match u.stb.find? (fun x => decide (u.val x.2 - u.val x.1 < laneGap)) with
      | some x => some x.2
      | none => if u.stb.length = 2 ∧ u.val 8 - u.val 7 < laneGap then some 8 else none
    else crowded u (u.stb.map (·.1))

/-- Rows 1 to 5 of one edge set: row and element, 10 for ES_CTRL. -/
def singleRow (u : Usage) (p : Int) (beats : Nat) : Option (Nat × Nat) :=
  match u.used.find? (fun x => x.2 % 125 != 0) with
  | some x => some (1, x.1)
  | none =>
    match u.used.find? (fun x => !(decide (0 ≤ x.2) && decide (x.2 < 3 * p))) with
    | some x => some (2, x.1)
    | none =>
      if u.ok = false then some (3, 10)
      else match orderRow u beats with
        | some k => some (4, k)
        | none =>
          match u.used.find? (fun x => decide (6 ≤ x.1) && decide (p + 1250000 ≤ x.2)) with
          | some x => some (5, x.1)
          | none => none

/-! ### Rows 6 and 7 -/

/-- The element of the earliest used edge of a lane. -/
def earliest (u : Usage) : List Nat → Option Nat
  | [] => none
  | k :: r =>
    match earliest u r with
    | none => some k
    | some j => if u.val j < u.val k then some j else some k

/-- The latest used edge of a lane. -/
def latest (u : Usage) : List Nat → Option Int
  | [] => none
  | k :: r =>
    match latest u r with
    | none => some (u.val k)
    | some v => some (max v (u.val k))

/-- Row 6 on one lane: the element of first_b when the lane's spacing is broken. -/
def laneRow (pa : Int) (ua ub : Usage) (la lb : List Nat) : Option Nat :=
  match latest ua la, earliest ub lb with
  | some last, some k => if pa + ub.val k - last < laneGap then some k else none
  | _, _ => none

/-- Rows 6 and 7 from a vector of a to a following vector of b: row and element. -/
def pairRow (pa : Int) (ua ub : Usage) : Option (Nat × Nat) :=
  match laneRow pa ua ub ua.drv ub.drv with
  | some k => some (6, k)
  | none =>
    match laneRow pa ua ub [4, 5] [4, 5] with
    | some k => some (6, k)
    | none =>
      match ub.used.find? (fun x =>
          (kget? ua.used x.1).isSome && decide (pa + x.2 - ua.val x.1 < recoveryGap)) with
      | some x => some (7, x.1)
      | none => none

/-! ### One site (R243 to R248) -/

/-- The status of a row of Table 5.4. -/
def rowStatus : Nat → Nat
  | 1 => Status.TS_GRID
  | 2 => Status.TS_RANGE
  | 3 => Status.TS_FORMAT
  | 4 => Status.TS_ORDER
  | 5 => Status.TS_STROBE_LATE
  | 6 => Status.TS_LANE
  | _ => Status.TS_RECOVERY

/-- A violation of Table 5.4: element 10 is ES_CTRL, 11 PERIOD. -/
def timingViol (i : SiteId) (row b es elem unit a : Nat) (before : Bool) : Viol :=
  let sub := if elem = 11 then 2 else if elem = 10 then 0x10 + 12 * es else 0x11 + 12 * es + elem
  { status := rowStatus row, first := Objects.ob (0x3400 + 64 * i.val + b) sub,
    detail := unit + b * 2 ^ 16 + a * 2 ^ 32 + row * 2 ^ 48 + b2n before * 2 ^ 56 }

/-- The valid timing sets of a site, ascending. -/
def validSets (m : Store) (i : SiteId) : List Nat := (List.range 64).filter (fun t => Store.val m (K.ts_TS_VALID (64 * i + t)) != 0)

/-- The checks of PERIOD of a set alone (rows 1 and 2; R145). -/
def periodCheck (m : Store) (i : SiteId) (b : Nat) : Option Viol :=
  let p := Store.period m i b
  if p % 125 ≠ 0 then some (timingViol i 1 b 0 11 0xFFFF 0 false)
  else if 312500 ≤ p ∧ p ≤ 1000000000000000 ∧ 1250000 ≤ Store.val m (K.sq_VEC_PER_FRAME i) * p then none
  else some (timingViol i 2 b 0 11 0xFFFF 0 false)

/-- The usage that a channel selects in a set. -/
def chanUsage (m : Store) (i : SiteId) (c : ChanId) (t : Nat) : Usage := usageOf m i t (Store.edgeSet m c t)

/-- Rows 1 to 5 of a channel in a set. -/
def singleCheck (m : Store) (i : SiteId) (b : Nat) (c : ChanId) : Option Viol :=
  match singleRow (chanUsage m i c b) (Store.period m i b) (Store.val m (K.cf_BEATS i)).toNat with
  | some (row, k) => some (timingViol i row b (Store.edgeSet m c b) k c.val 0 false)
  | none => none

/-- Rows 6 and 7 from set a as a store has it to set b, for each channel. -/
def pairCheck (from_ m : Store) (before : Bool) (i : SiteId) (b a : Nat) : Option Viol :=
  if Store.val from_ (K.ts_TS_VALID (64 * i + a)) = 0 then none
  else firstViol (fun (c : ChanId) =>
    match pairRow (Store.period from_ i a) (chanUsage from_ i c a) (chanUsage m i c b) with
    | some (row, k) => some (timingViol i row b (Store.edgeSet m c b) k c.val a before)
    | none => none) (Store.chans m i)

/-- Table 5.4 for one site (R243, R248); with the store before the apply point when the site is active (R245). -/
def timingCheck (old : Option Store) (m : Store) (i : SiteId) : Option Viol :=
  firstViol (fun b =>
    orViol (periodCheck m i b) fun _ =>
    orViol (firstViol (singleCheck m i b) (Store.chans m i)) fun _ =>
    firstViol (fun a =>
      orViol (pairCheck m m false i b a) fun _ =>
      match old with
      | some o => pairCheck o m true i b a
      | none => none) (List.range 64)) (validSets m i)

/-- The object belongs to what Table 5.4 rests on for a site: a timing set, an ES_SEL of one of its channels, its channel
masks, BEATS or VEC_PER_FRAME (R246). -/
def timingObject (m : Store) (i : SiteId) (key : Nat) : Bool :=
  let idx := key / 256
  let sub := key % 256
  (decide (0x3400 + 64 * i.val ≤ idx) && decide (idx < 0x3440 + 64 * i.val))
    || (decide (0x3000 ≤ idx) && decide (idx < 0x3100) && decide (1 ≤ sub) && decide (sub ≤ 4)
        && Store.hasChan m i (Fin.ofNat 256 (idx - 0x3000)))
    || (idx == 0x2020 + i.val && decide (sub ≤ 6))
    || key == K.sq_VEC_PER_FRAME i

end Sys2Proof.Machine
end

