-- ==== Sys2Proof/Machine/Dma.lean ====
section
/-! DEFINITION. The use of the link: the weighted round robin among functions (R598), and the reads of host memory with their
tags (R599). -/
namespace Sys2Proof.Machine
open Sys2Proof

/-! ### Commands in flight (R596) -/

/-- The commands of the functions that meet a condition in flight, from their fetch on: those dispatched, and those whose entry waits. -/
def inFlightOf (s : State) (p : FnId → Bool) : Nat :=
  (s.host.flights.filter (fun x => p x.tag.fn)).length + (s.host.queues.filter (fun e => p e.2.fn && e.2.entry.isSome)).length
/-- The commands of a function in flight. -/
def inFlight (s : State) (f : FnId) : Nat := inFlightOf s (fun g => g == f)

/-! ### Arbitration (R598) -/

/-- WEIGHT of a function. -/
def weightOf (s : State) (f : Nat) : Nat := s.n (K.fn_WEIGHT f)

/-- The queues with work of a function. -/
def workOf (work : List (Nat × Nat)) (f : Nat) : List Nat := (work.filter (fun w => w.1 == f)).map (·.2)

/-- Every function with work has had the grants of its weight: a new round begins. -/
def roundOver (s : State) (a : Arb) (work : List (Nat × Nat)) : Bool := work.all (fun w => decide (weightOf s w.1 ≤ kgetD a.used w.1 0))

/-- Every queue with work of a function has been served: its queues begin a new round. -/
def queuesOver (a : Arb) (work : List (Nat × Nat)) (f : Nat) : Bool := (workOf work f).all (fun q => a.served.contains q)

/-- A queue of a function may be served next: in each round a function is served at most as often as its weight says, and
within the function each queue once while others of it have work. In which order the functions of a round and the queues of
a function come is open.
[DESIGN CHOICE, assumption 207] -/
def mayServe (s : State) (a : Arb) (work : List (Nat × Nat)) (w : Nat × Nat) : Bool :=
  (roundOver s a work || decide (kgetD a.used w.1 0 < weightOf s w.1)) && (queuesOver a work w.1 || !a.served.contains w.2)

/-- The arbitration after a grant. -/
def granted (s : State) (a : Arb) (work : List (Nat × Nat)) (w : Nat × Nat) : Arb :=
  let used := if roundOver s a work then [] else a.used
  let served := if queuesOver a work w.1 then a.served.filter (fun q => !(workOf work w.1).contains q) else a.served
  { used := kput used w.1 (kgetD used w.1 0 + 1), served := served ++ [w.2] }

/-! ### Reads of host memory (R599) -/

/-- The read is one for a STREAM_FEED entry of an ACTIVE stream. -/
def feedRead (s : State) (x : Flight) : Bool :=
  x.opcode == 0x4B && (match (s.queue? x.tag.queue).bind Queue.bound with | some n => s.g (K.sm_STATE n) == 2 | none => false)

/-- Tags kept for reads of STREAM_FEED entries of ACTIVE streams, tags kept for SQ fetches, and tags shared by all reads. -/
def tagShares (s : State) : Nat × Nat × Nat := if s.b K.pcie_TAG10 then (256, 64, 448) else (96, 32, 128)

/-- Outstanding reads of the flights that meet a condition. -/
def tagsOf (p : Flight → Bool) (l : List Flight) : Nat := (l.filter p).foldl (fun a x => a + x.tags) 0

/-- Outstanding reads of SQ fetches: of entries, and of scatter lists. -/
def fetchTags (s : State) : Nat := s.host.queues.foldl (fun a e => a + e.2.fetch) 0

/-- Reads outstanding (TAGS_OUT). -/
def tagsOut (s : State) : Nat := tagsOf (fun _ => true) s.host.flights + fetchTags s

/-- Shared tags in use: those of the reads that the kept ones do not cover. -/
def sharedUsed (s : State) : Nat :=
  let sh := tagShares s
  let feeds := tagsOf (feedRead s) s.host.flights
  tagsOf (fun x => !feedRead s x) s.host.flights + (feeds - sh.1) + (fetchTags s - sh.2.1)

/-- A tag is free for a read of a flight. -/
def tagFree (s : State) (x : Flight) : Bool :=
  let sh := tagShares s
  (feedRead s x && decide (tagsOf (feedRead s) s.host.flights < sh.1)) || decide (sharedUsed s < sh.2.2)

/-- A tag is free for an SQ fetch. -/
def fetchTagFree (s : State) : Bool :=
  let sh := tagShares s
  decide (fetchTags s < sh.2.1) || decide (sharedUsed s < sh.2.2)

/-- Flights with reads to issue for which a tag is free. -/
def readers (s : State) : List Flight := s.host.flights.filter (fun x => decide (0 < x.toRead) && tagFree s x)

/-- Issues reads, each of at most Max_Read_Request_Size, while tags are free; a read that finds none waits.
[DESIGN CHOICE, assumption 118] [DESIGN CHOICE, assumption 207] -/
def issueReads : Nat → State → State
  | 0, s => s
  | n + 1, s =>
    let work := (readers s).map (fun x => (x.tag.fn.val, x.tag.queue.val))
    match (readers s).find? (fun x => mayServe s s.host.reads work (x.tag.fn.val, x.tag.queue.val)) with
    | none => s
    | some x =>
      let len := min (max 1 (s.n K.pcie_MRRS)) x.toRead
      let l := s.host.flights.map (fun y => if y = x then { y with toRead := y.toRead - len, tags := y.tags + 1 } else y)
      let a := granted s s.host.reads work (x.tag.fn.val, x.tag.queue.val)
      issueReads n ({ s with host := { s.host with flights := l, reads := a } }.emit (.memRead x.tag.fn x.tag.queue len))

/-- Issues the reads of scatter lists, each of at most Max_Read_Request_Size, while tags are free for SQ fetches. -/
def issueLists : Nat → State → State
  | 0, s => s
  | n + 1, s =>
    match s.host.queues.find? (fun e => decide (0 < e.2.listLeft)) with
    | none => s
    | some (q, x) =>
      if fetchTagFree s = false then s
      else
        let len := min (max 1 (s.n K.pcie_MRRS)) x.listLeft
        issueLists n ((s.setQueue q { x with listLeft := x.listLeft - len, fetch := x.fetch + 1 }).emit
          (.memRead x.fn (Fin.ofNat 8192 q) len))

/-- Reads are issued as far as tags are free. -/
def pumpReads (s : State) : State := issueReads 768 (issueLists 768 s)

/-- In each SCLK the host answers an open number of the outstanding reads of each command and of each scatter list.
[DESIGN CHOICE, assumption 207] -/
def answerReads (s : State) : State :=
  let k := s.host.flights.length
  let left (j n : Nat) : Nat := n - (Config.freeInt (s.free + j)).toNat % (n + 1)
  let l := s.host.flights.zipIdx.map (fun x => { x.1 with tags := left x.2 x.1.tags })
  let qs := s.host.queues.zipIdx.map (fun x =>
    (x.1.1, if x.1.2.entry.isSome then { x.1.2 with fetch := left (k + x.2) x.1.2.fetch } else x.1.2))
  { s with free := s.free + k + s.host.queues.length, host := { s.host with flights := l, queues := qs } }

/-! ### Writes to host memory (R588, R598) -/

/-- The data writes that wait leave in the order of the arbitration, at most n of them, and count in FN_WR_BYTES.
[DESIGN CHOICE, assumption 207] -/
def issueWrites : Nat → State → State
  | 0, s => s
  | n + 1, s =>
    let work := s.host.waiting.map (fun w => (w.1.fn.val, w.1.queue.val))
    match s.host.waiting.find? (fun w => mayServe s s.host.writes work (w.1.fn.val, w.1.queue.val)) with
    | none => s
    | some w =>
      let a := granted s s.host.writes work (w.1.fn.val, w.1.queue.val)
      let f := s.fnr w.1.fn
      let s := s.setFn w.1.fn { f with wrBytes := (f.wrBytes + w.2.length) % 2 ^ 64 }
      issueWrites n ({ s with host := { s.host with waiting := s.host.waiting.erase w, writes := a } }.emit (.hostData w.1 w.2))

/-- In each SCLK an open number of the data writes that wait leave, at least one.
[DESIGN CHOICE, assumption 207] -/
def pumpWrites (s : State) : State :=
  issueWrites (1 + (Config.freeInt s.free).toNat % (s.host.waiting.length + 1)) s.advance

end Sys2Proof.Machine
end

