-- ==== Sys2Proof/Machine/Seal.lean ====
section
/-! DEFINITION. Seal-open sessions (R473 to R476). -/
namespace Sys2Proof.Machine
open Sys2Proof

/-- Sets the SCLK at which the open session ends. -/
def State.modCalEnd (s : State) (t : Nat) : State := { s with cal := { s.cal with sealEnd := t } }

/-- A new random 48-byte challenge in an object (R475, R684): a free value. -/
def newChallenge (k : Nat) (s : State) : State := (s.putBlob k (freeData s.free 48)).advance

/-- A session is open. -/
def sealOpen (s : State) : Bool := s.g K.sk_SEAL_STATE != 0

/-- The open session closes (R476). -/
def closeSeal (s : State) : State :=
  if sealOpen s then
    let s := (s.p K.sk_SEAL_STATE 0).p K.sk_SEAL_SCOPE 0
    newChallenge K.sk_SEAL_CHALLENGE ((s.putBlob K.sk_SEAL_OPERATOR []).modCalEnd 0)
  else s

/-- SEAL_LEFT: what remains of the open session, in fs. -/
def State.sealLeft (s : State) : Int := if sealOpen s then ((s.cal.sealEnd - s.now : Nat) : Int) * 1250000 else 0

/-- The lifecycle states in which a session may open (R474). -/
def sealLifecycle (s : State) : Bool := let v := s.n K.lcy_LIFECYCLE; v == 1 || v == 2 || v == 3

/-- The bytes of a name less its zero padding. -/
def trimZeros (l : List Byte) : List Byte := (l.reverse.dropWhile (· == 0)).reverse

/-- A token opens a session when all of this holds (R474). -/
def sealTokenOk (s : State) (t : List Byte) : Bool :=
  t.length == 192 && s.g K.lcy_TAMPER_ACTIVE == 0 && sealLifecycle s && field t 0 4 == 0x53544B5A && field t 4 2 == 1 &&
  field t 7 1 < 2 && field t 12 4 == 0 && (t.drop 16).take 48 == s.blob K.sk_SEAL_CHALLENGE &&
  decide (60 ≤ field t 8 4) && decide (field t 8 4 ≤ 86400) &&
  (match s.mgmt.partKey with
   | some key => Config.ecdsaOk key (Config.sha384 (t.take 96)) (t.drop 96)
   | none => false)

/-- A write of SEAL_TOKEN: its status (R474, R475). -/
def sealToken (t : List Byte) (s : State) : Nat × State :=
  if sealOpen s then (Status.SEAL_BUSY, newChallenge K.sk_SEAL_CHALLENGE s)
  else if sealTokenOk s t then
    let s := (s.p K.sk_SEAL_STATE 1).p K.sk_SEAL_SCOPE (field t 6 1 + 256 * (field t 7 1 % 2) : Nat)
    let s := (s.cnt32 K.sk_SEAL_SESSION).persist [K.sk_SEAL_SESSION]
    let s := (s.putBlob K.sk_SEAL_OPERATOR (trimZeros ((t.drop 64).take 32))).modCalEnd (s.now + field t 8 4 * 800000000)
    (Status.OK, newChallenge K.sk_SEAL_CHALLENGE s)
  else (Status.SEAL_TOKEN, newChallenge K.sk_SEAL_CHALLENGE (s.raise Src.SEAL_TOKEN_BAD))

/-- SEAL_TOKEN: the writer is answered with its status (R478). -/
def execSealToken (t : TokenWrite) (s : State) : Host.Outcome State Fault Refusal :=
  s.served (pathDom t.path) (.sealToken t) fun s =>
  let r := sealToken t.data s.fresh
  .next (r.2.emit (.answer t.path r.1 0 0 []))

/-- SEAL_CLOSE: a write of 1 closes the session. -/
def execSealClose (v : Bool) (s : State) : Host.Outcome State Fault Refusal :=
  s.served .mgmt (.sealClose v) fun s =>
  let s := s.fresh
  .next (if v then closeSeal s else s)

/-- SEAL_DURATION_EXPIRY. -/
def execSealDurationExpiry (s : State) : Host.Outcome State Fault Refusal :=
  s.served .mgmt (.sealDurationExpiry) fun s =>
  let s := s.fresh
  .next (if s.cal.sealEnd ≤ s.now then closeSeal s else s)

end Sys2Proof.Machine
end

