-- ==== Sys2Proof/Machine/Management.lean ====
section
/-! DEFINITION. The management subsystem: lockstep, scratchpads, sensors, NOR and compaction, firmware slots, lifecycle,
keys and TAMPER_N (chapter 15). -/
namespace Sys2Proof.Machine
open Sys2Proof

/-! ### Secure scratchpad (R653, R659) -/

/-- The secure scratchpad is zeroised: the working key, the digest and the state of a seal session; new challenges are drawn
(R475, R659, R684).
[DESIGN CHOICE, assumption 146] -/
def zeroise (s : State) : State :=
  let s := { s with mgmt := { s.mgmt with workKey := none, digest := none } }
  let s := ((s.p K.sk_SEAL_STATE 0).p K.sk_SEAL_SCOPE 0).putBlob K.sk_SEAL_OPERATOR []
  newChallenge K.lcy_LC_CHALLENGE (newChallenge K.sk_SEAL_CHALLENGE (s.modCalEnd 0))

/-- Firmware reloads the working key from the secure partition (R659). -/
def reloadKey (s : State) : State := { s with mgmt := { s.mgmt with workKey := s.mgmt.partKey } }

/-- Firmware starts from an image, which stands in the code SRAM: its digest is in the secure scratchpad (R653, R659, R723). -/
def startImage (s : State) : State :=
  let img := (s.mgmt.slots[s.mgmt.running % 2]'(Nat.mod_lt _ (by omega))).image
  { s with mgmt := { s.mgmt with digest := some (Config.sha384 (img.drop 256)), code := [] } }

/-- LOCKSTEP_MISMATCH (R653). -/
def execLockstepMismatch (s : State) : Host.Outcome State Fault Refusal :=
  s.served .mgmt (.lockstepMismatch) fun s =>
  let s := (s.fresh.cnt32 K.mg_LOCKSTEP_ERRORS).persist [K.mg_LOCKSTEP_ERRORS]
  .next (reloadKey (startImage (zeroise (s.raise Src.LOCKSTEP_MISMATCH))))

/-! ### Data scratchpads (R655 to R658) -/

/-- Byte lane i of a word. -/
def lane (w : BitVec 32) (i : Nat) : Nat := w.toNat / 256 ^ i % 256

/-- One memory lane after both ports write it: port A through rotate alias rot, whose bus lane i carries memory lane
(i + rot) mod 4 (R655), port B directly; a lane that both write takes the data of the bank's PRIORITY_PORT (R656). -/
def mergedLane (old a b : BitVec 32) (enA enB : BitVec 4) (rot : Nat) (portB : Bool) (l : Nat) : Nat :=
  let i := (l + 4 - rot % 4) % 4
  let wa := enA.getLsbD i
  let wb := enB.getLsbD l
  if wa && wb then (if portB then lane b l else lane a i)
  else if wa then lane a i
  else if wb then lane b l
  else lane old l

/-- A word as port A sees it through rotate alias rot: bus lane i carries memory lane (i + rot) mod 4 (R655). -/
def rotated (v : BitVec 32) (rot : Nat) : BitVec 32 := BitVec.ofNat 32 ((List.range 4).foldl (fun x i => x + 256 ^ i * lane v ((i + rot) % 4)) 0)

/-- A port without a write of its own reads the word as it was before the clock (R657). -/
def spadReads (k : Fin 4) (w : Nat) (rot : Nat) (enA enB : BitVec 4) (old : BitVec 32) : List Output :=
  (if enA = 0 then [.spadRead false k w (rotated old rot)] else []) ++ (if enB = 0 then [.spadRead true k w old] else [])

/-- A word of the data scratchpads after both ports write it. -/
def spadPut (n rot : Nat) (enA enB : BitVec 4) (a b : BitVec 32) (portB : Bool) (s : State) : State :=
  let old := kgetD s.mgmt.spad n 0
  let v := (List.range 4).foldl (fun x l => x + 256 ^ l * mergedLane old a b enA enB rot portB l) 0
  let m := if v % 2 ^ 32 = 0 then kdel s.mgmt.spad n else kput s.mgmt.spad n (BitVec.ofNat 32 v)
  { s with mgmt := { s.mgmt with spad := m } }

/-- Both ports access word w of bank k in one clock. What they write is merged, and two writes are a collision (R656); a port that
enables no lane reads the word as it was before (R657). -/
def spadBoth (k : Fin 4) (w : Fin 8192) (rot : Fin 4) (enA enB : BitVec 4) (a b : BitVec 32) (s : State) : State :=
  let n := 8192 * k.val + w.val
  let old := kgetD s.mgmt.spad n 0
  let s := (spadPut n rot enA enB a b (s.g (K.spd_PRIORITY_PORT k) == 1) s).emits (spadReads k w.val rot enA enB old)
  if enA = 0 ∨ enB = 0 then s else (s.sat32 (K.spd_COLLISIONS k)).raise (Src.SPAD_COLLISION k)

/-! ### The management memory map (R654, R659) -/

/-- A word that bytes hold at an offset, with zeros after their end. -/
def wordAt (l : List Byte) (off : Nat) : BitVec 32 := BitVec.ofNat 32 (field l off 4)

/-- The enabled byte lanes of a word are written over an old one. -/
def laneMerge (old v : BitVec 32) (en : BitVec 4) : BitVec 32 :=
  BitVec.ofNat 32 ((List.range 4).foldl (fun x l => x + 256 ^ l * mergedLane old v 0 en 0 0 false l) 0)

/-- Bytes with the enabled lanes of the word at an offset written. -/
def putWordAt (l : List Byte) (off : Nat) (en : BitVec 4) (v : BitVec 32) : List Byte :=
  let l := padTo (off + 4) l
  l.take off ++ toBytes 4 (laneMerge (wordAt l off) v en).toNat ++ l.drop (off + 4)

/-- A word of the code SRAM: the image's body, and what the boot ROM has written over it since. -/
def sramWord (s : State) (w : Nat) : BitVec 32 :=
  match kget? s.mgmt.code w with
  | some v => v
  | none => wordAt (((s.mgmt.slots[s.mgmt.running % 2]'(Nat.mod_lt _ (by omega))).image).drop 256) (4 * w)

/-- The processor's access of the word of an address in the data scratchpads, through rotate alias rot (R655). -/
def procSpad (off rot : Nat) (en : BitVec 4) (v : BitVec 32) (s : State) : State :=
  let n := off / 4
  let old := kgetD s.mgmt.spad n 0
  (spadPut n rot en 0 v 0 false s).emits
    (if en = 0 then [.spadRead false (Fin.ofNat 4 (n / 8192)) (n % 8192) (rotated old rot)] else [])

/-- The processor accesses the word at an address (Table 15.1). What the units at 4000_0000h and the layout of the secure scratchpad
give a read is drawn free, and a write has no effect there.
[DESIGN CHOICE, assumption 245] -/
def procAccess (machine : Bool) (addr : BitVec 32) (en : BitVec 4) (v : BitVec 32) (s : State) : State :=
  let a := addr.toNat / 4 * 4
  let read (w : BitVec 32) (s : State) : State := if en = 0 then s.emit (.busRead addr w) else s
  let open_ (s : State) : State := if en = 0 then (s.emit (.busRead addr (BitVec.ofInt 32 s.drawn))).advance else s
  if a < 0x10000 then read (Config.bootRom (a / 4)) s
  else if 0x10000000 ≤ a ∧ a < 0x10040000 then
    let w := (a - 0x10000000) / 4
    if en ≠ 0 ∧ s.pwr.fw = false then { s with mgmt := { s.mgmt with code := kput s.mgmt.code w (laneMerge (sramWord s w) v en) } }
    else read (sramWord s w) s
  else if 0x20000000 ≤ a ∧ a < 0x20080000 then procSpad ((a - 0x20000000) % 0x20000) ((a - 0x20000000) / 0x20000) en v s
  else if 0x30000000 ≤ a ∧ a < 0x30004000 then (if machine then open_ s else s.emit (.accessFault addr))
  else if 0x40000000 ≤ a ∧ a < 0x40010000 then open_ s
  else if 0x40010000 ≤ a ∧ a < 0x40012000 then
    let off := a - 0x40010000
    if en = 0 then read (wordAt s.mgmt.mailReq off) s
    else { s with mgmt := { s.mgmt with mailReq := putWordAt s.mgmt.mailReq off en v } }
  else if 0x40012000 ≤ a ∧ a < 0x40014000 then
    let off := a - 0x40012000
    if en = 0 then read (wordAt s.mgmt.mailResp off) s
    else { s with mgmt := { s.mgmt with mailResp := putWordAt s.mgmt.mailResp off en v } }
  else s.emit (.busError addr)

/-- The fabric accesses the word at an address: it reaches the data scratchpads, by port B, and nothing else (R654). -/
def fabricAccess (addr : BitVec 32) (en : BitVec 4) (v : BitVec 32) (s : State) : State :=
  if 0x20000000 ≤ addr.toNat ∧ addr.toNat < 0x20020000 then
    let n := (addr.toNat - 0x20000000) / 4
    let old := kgetD s.mgmt.spad n 0
    (spadPut n 0 0 en 0 v true s).emits (if en = 0 then [.spadRead true (Fin.ofNat 4 (n / 8192)) (n % 8192) old] else [])
  else s

/-- The scratchpad word at an address of a port: port A sees four aliases, port B one (Table 15.1, R655). -/
def scratchWord (aliases : Nat) (addr : BitVec 32) : Option Nat :=
  if 0x20000000 ≤ addr.toNat ∧ addr.toNat < 0x20000000 + 0x20000 * aliases then some (addr.toNat % 0x20000 / 4) else none

/-- SPAD_COLLISION: the accesses of one clock in the management memory map; one word at both ports is a matter of R656 and R657.
[DESIGN CHOICE, assumption 245] -/
def execSpadCollision (pa pb : Option (BitVec 32)) (machine : Bool) (enA enB : BitVec 4) (a b : BitVec 32) (s : State) :
    Host.Outcome State Fault Refusal :=
  s.served .mgmt (.spadCollision pa pb machine enA enB a b) fun s =>
  let s := s.fresh
  .next (match pa, pb with
    | some x, some y =>
      if scratchWord 4 x = scratchWord 1 y ∧ (scratchWord 1 y).isSome then
        let n := (scratchWord 1 y).getD 0
        spadBoth (Fin.ofNat 4 (n / 8192)) (Fin.ofNat 8192 n) (Fin.ofNat 4 ((x.toNat - 0x20000000) / 0x20000)) enA enB a b s
      else procAccess machine x enA a (fabricAccess y enB b s)
    | some x, none => procAccess machine x enA a s
    | none, some y => fabricAccess y enB b s
    | none, none => s)

/-- A bank's self-test record. -/
def State.setSpt (s : State) (k : Fin 4) (x : Spt) : State := { s with mgmt := { s.mgmt with spt := s.mgmt.spt.set k x } }

/-- The next chunk of the sweep; the next sweep begins with the chunks that this one skipped (R658). -/
def sptNext (k : Fin 4) (x : Spt) (s : State) : State :=
  match x.todo.drop 1 with
  | [] =>
    let rest := (List.range 128).filter (fun c => !x.skipped.contains c)
    (s.setSpt k { todo := x.skipped ++ rest, defers := 0, skipped := [] }).cnt32 (K.spd_SPT_SWEEPS k)
  | l => s.setSpt k { x with todo := l, defers := 0 }

/-- SCRATCHPAD_SELFTEST_CHUNK: one chunk of a bank is tested; an access to it defers the test (R658). -/
def execScratchpadSelftestChunk (k : Fin 4) (accessed fails : Bool) (s : State) : Host.Outcome State Fault Refusal :=
  s.served .mgmt (.scratchpadSelftestChunk k accessed fails) fun s =>
  let s := s.fresh
  let x := s.mgmt.spt[k]
  .next <|
    if accessed then
      let s := s.sat32 (K.spd_SPT_DEFERRED k)
      if x.defers + 1 < 16 then s.setSpt k { x with defers := x.defers + 1 }
      else (sptNext k { x with skipped := x.skipped ++ x.todo.take 1 } s).sat32 (K.spd_SPT_SKIPPED k)
    else sptNext k x (if fails then s.raise (Src.SPAD_SELFTEST_FAIL k) else s)

/-! ### Sensors (R660, R661) -/

/-- A limit check: a conversion outside its limit makes the source active; one that has been inside for 1 s makes it
inactive.
[DEDUCED, assumption 147] -/
def limitCheck (key src : Nat) (outside : Bool) (s : State) : State :=
  if outside then { s with mgmt := { s.mgmt with sensAt := kput s.mgmt.sensAt key s.now } }.activate src 0 0
  else if 800000000 ≤ s.now - kgetD s.mgmt.sensAt key 0 then s.deactivate src
  else s

/-- FAULT_CHECK_CONVERSION: m°C, µV, µV, mA by sensor. -/
def execFaultCheckConversion (x : Sensor) (v : Int) (s : State) : Host.Outcome State Fault Refusal :=
  s.served .mgmt (.faultCheckConversion x v) fun s =>
  let s := s.fresh
  .next (match x with
    | .thermal i =>
      limitCheck (32 + i.val) (Src.TEMP_CRIT i) (decide (s.g (K.th_CRIT_LIMIT i) < v))
        (limitCheck i.val (Src.TEMP_WARN i) (decide (s.g (K.th_WARN_LIMIT i) < v)) s)
    | .rail r =>
      let nom := Objects.railNom r
      limitCheck (64 + r.val) (Src.RAIL_LIMIT r) (decide ((nom.natAbs : Int) < 20 * ((v - nom).natAbs : Int))) s
    | .vin => s
    | .iin => limitCheck 78 Src.IIN_LIMIT (decide (s.g K.vi_IIN_LIMIT < v)) s)

/-- Input power in mW of a voltage in µV and a current in mA.
[DEDUCED, assumption 148] -/
def inputPower (s : State) : Int := s.g K.vi_VIN * s.g K.vi_IIN / 1000000

/-- TELEMETRY_CONVERSION: the averaged value of a sensor (R660).
[DEDUCED, assumption 153] -/
def execTelemetryConversion (x : Sensor) (v : Int) (s : State) : Host.Outcome State Fault Refusal :=
  s.served .mgmt (.telemetryConversion x v) fun s =>
  let s := s.fresh
  .next (match x with
    | .thermal i =>
      let peak := if (kget? s.mgmt.sensAt (200 + i.val)).isSome then max (s.g (K.th_TEMP_PEAK i)) v else v
      let s := { s with mgmt := { s.mgmt with sensAt := kput s.mgmt.sensAt (200 + i.val) s.now } }
      (s.p (K.th_TEMP i) v).p (K.th_TEMP_PEAK i) peak
    | .rail r => s.p (K.rl_RAIL_V r) v
    | .vin => let s := s.p K.vi_VIN v; s.p K.vi_PIN (inputPower s)
    | .iin => let s := s.p K.vi_IIN v; s.p K.vi_PIN (inputPower s))

/-! ### NOR dies (R666, R667, R678, R679) -/

/-- Journal ring sectors of 256 pages in use, and free. -/
def sectorsUsed (m : Mgmt) : Nat := (m.pages + 255) / 256 - m.freed
/-- FREE0 and FREE1. -/
def sectorsFree (m : Mgmt) : Nat := 992 - sectorsUsed m

/-- Compaction is promoted below 6.25 % of free space, until 12.5 % is free (Table 1.5, R679). -/
def spaceCheck (s : State) : State :=
  let f := sectorsFree s.mgmt
  if s.g K.nr_LOW_SPACE = 0 then
    (if 16 * f < 992 then (s.p K.nr_LOW_SPACE 1).activate Src.JOURNAL_LOW_SPACE 0 0 else s)
  else if 992 ≤ 8 * f then (s.p K.nr_LOW_SPACE 0).deactivate Src.JOURNAL_LOW_SPACE
  else s

/-- A die goes out of service (R666).
[DEDUCED, assumption 149] -/
def dieLost (d : Fin 2) (s : State) : State :=
  let c := s.n K.nr_NOR_COPIES
  if c.testBit d then (s.p K.nr_NOR_COPIES (c - 2 ^ d.val : Nat)).activate (Src.NOR_COPY_FAIL d) 0 0 else s

/-- NOR_PROGRAM_DONE: a failing journal sector is replaced by one of the 32 spares of its die; without a spare, and in a
region without spares, the die goes out of service (R666, R667).
[DEDUCED, assumption 149] -/
def execNorProgramDone (e : NorEnd) (s : State) : Host.Outcome State Fault Refusal :=
  s.served .mgmt (.norProgramDone e) fun s => s.served .nor (.norProgramDone e) fun s =>
  let s := s.fresh
  let s := if e.erase then { s with mgmt := { s.mgmt with erase := none } } else s
  let s := match e.failed with
    | none => s
    | some (d, journal) =>
      let used := kgetD s.mgmt.spares d.val 0
      if journal ∧ used < 32 then
        ({ s with mgmt := { s.mgmt with spares := kput s.mgmt.spares d.val (used + 1) } }).count K.nr_RETIRED 255
      else dieLost d s
  .next (spaceCheck s)

/-- ERASE_SUSPEND: a background erase is suspended for foreground work, and resumes afterwards unless the power-fail
warning stands (R678, R737). -/
def execEraseSuspend (resume : Bool) (s : State) : Host.Outcome State Fault Refusal :=
  s.served .mgmt (.eraseSuspend resume) fun s => s.served .nor (.eraseSuspend resume) fun s =>
  let s := s.fresh
  .next (match s.mgmt.erase with
    | some _ => if resume then (if pfw s then s else { s with mgmt := { s.mgmt with erase := some false } })
                else { s with mgmt := { s.mgmt with erase := some true } }
    | none => s)

/-- PCOMMITS_HOUR (R679). -/
def State.pcommitsHour (s : State) : Nat := (s.mgmt.pcommits.filter (fun t => decide (s.now < t + 2880000000000))).length

/-- JOURNAL_BUDGET: raised once in each hour in which the count stays above 3,000 (R679). -/
def execJournalBudget (s : State) : Host.Outcome State Fault Refusal :=
  s.served .mgmt (.journalBudget) fun s =>
  let s := s.fresh
  let due : Bool := match s.mgmt.budgetAt with
    | some t => decide (t + 2880000000000 ≤ s.now)
    | none => true
  .next (if 3000 < s.pcommitsHour ∧ due then
      ({ s with mgmt := { s.mgmt with budgetAt := some s.now } }).raise Src.JOURNAL_BUDGET
    else s)

/-! ### Compaction (R674, R675, R677) -/

/-- The P and S objects of the dictionary in ascending index.sub. -/
def persistentKeys : List Nat :=
  Objects.groups.flatMap (fun g =>
    let subs := g.rows.flatMap (fun r => if r.per = .P ∨ r.per = .S then r.sel.list else [])
    (List.range g.count).flatMap (fun u => subs.map (fun x => Objects.ob (g.base + u) x)))

/-- The journal pages after the newest CKPT_END. -/
def tailPages (m : Mgmt) : Nat :=
  ((m.journal.reverse.takeWhile (fun r => match r.body with | .ckptEnd _ _ _ => false | _ => true)).map (fun r => r.body.pages)).foldl (· + ·) 0

/-- LIVE_BYTES: bytes of the entries of the newest checkpoint. -/
def liveBytes (m : Mgmt) : Nat :=
  m.journal.foldl (fun a r =>
    match r.body with
    | .ckpt e => if r.epoch = m.epoch then e.foldl (fun a x => a + entrySize x.1 x.2) a else a
    | _ => a) 0

/-- No transaction of P or S objects lies between its apply and a durable MARK. -/
def noneMarking (s : State) : Bool := allTxns.all (fun k => (s.txn k).wait != .mark) && s.dict.outs.all (fun t => t.wait != .mark)

/-- REPLAY_FROM: the lowest JSEQ of a record of a PENDING transaction, or the next JSEQ. -/
def replayFrom (s : State) : Nat :=
  ((allTxns.map s.txn ++ s.dict.outs).filter (fun t => t.st == 2 && t.journalled)).foldl (fun a t => min a t.jseq) s.mgmt.jseq

/-- Ring sectors are freed in ring order, as far as every record in them lies below REPLAY_FROM and the first CKPT
record of the new epoch. -/
def freeSectors (from_ : Nat) (s : State) : State :=
  let m := s.mgmt
  let kept := m.journal.filter (fun r => decide (from_ ≤ r.jseq))
  let first := (kept.map (·.page)).foldl min m.pages
  let freed := max m.freed (first / 256)
  { s with mgmt := { m with
      journal := m.journal.filter (fun r => decide (freed * 256 ≤ r.page)), freed := freed,
      rewrite := m.rewrite.filter (fun x => decide (freed ≤ x.2)),
      erase := if m.freed < freed then some false else m.erase } }

/-- The wear table: for every ring sector its erase count and the UTC time of its first program after erase (R675). -/
def wearTable (m : Mgmt) : List (Nat × Nat) := (List.range 992).map (fun k => ((m.freed + 991 - k) / 992, kgetD m.progAt k 0))

/-- The oldest ring sector that holds live data was first programmed REFRESH_AGE years of 8,766 h ago or more (R675).
[DEDUCED, assumption 246] -/
def aged (s : State) : Bool :=
  match s.mgmt.journal.head? with
  | some r => decide (kgetD s.mgmt.progAt (r.page / 256 % 992) s.utc + s.n K.nr_REFRESH_AGE * 31557600000 ≤ s.utc)
  | none => false

/-- A checkpoint of the next epoch (R674).
[DESIGN CHOICE, assumption 150] -/
def checkpoint (s : State) : State :=
  let from_ := replayFrom s
  let snap := persistentKeys.map (fun k => (k, s.sval k))
  let first := s.mgmt.jseq
  let s := { s with mgmt := { s.mgmt with epoch := s.mgmt.epoch + 1 } }
  let s := (s.append 0 (.ckpt snap)).append 0 (.ckptEnd 1 from_ (wearTable s.mgmt))
  spaceCheck (freeSectors (min from_ first) s)

/-- A foreground NOR operation is due: a program of the journal or of the event log, or a firmware slot that is being written
(R678). -/
def norDue (s : State) : Bool := journalDue s || !s.mgmt.logRam.isEmpty || [0, 1].any (fun j => s.g (K.fwm_SLOT_STATE_A j) == 1)
/-- A background NOR operation may begin: no foreground one contests the unit, or the background has its share to take, 1 of every
8 operations, while compaction is promoted 3 of every 4 (R42 to R44, Table 1.5).
[DESIGN CHOICE, assumption 212] -/
def norShare (s : State) : Bool :=
  (!norDue s || s.mgmt.norFg == 7 || (s.b K.nr_LOW_SPACE && decide (s.mgmt.norBg < 3)))
/-- A background NOR operation is counted.
[DESIGN CHOICE, assumption 212] -/
def norBack (s : State) : State := { s with mgmt := { s.mgmt with norFg := 0, norBg := s.mgmt.norBg + 1 } }

/-- The reason for a checkpoint stands (R42, R671, R675). -/
def compactDue (why : Compact) (s : State) : Bool :=
  match why with
  | .tail => decide (16384 < tailPages s.mgmt)
  | .age => aged s
  | .space => s.b K.nr_LOW_SPACE
  | .rewrite => !s.mgmt.rewrite.isEmpty

/-- COMPACTION: a checkpoint, when its reason stands; it is background work, and halted by the power-fail warning (R674, R675, R677,
R737).
[DEDUCED, assumption 246] -/
def execCompaction (why : Compact) (s : State) : Host.Outcome State Fault Refusal :=
  s.served .mgmt (.compaction why) fun s => s.served .nor (.compaction why) fun s =>
  let s := s.fresh
  .next (if pfw s = false ∧ norUp s ∧ noneMarking s ∧ norShare s ∧ compactDue why s = true then norBack (checkpoint s)
    else s)

/-- NOR_SCRUB: a page that needs correction has its sector refreshed: a journal sector by a checkpoint, any other from
the other die's copy, which changes no content (R677); background work, halted by the power-fail warning (R42, R737).
[DESIGN CHOICE, assumption 154] -/
def execNorScrub (f : ScrubFind) (s : State) : Host.Outcome State Fault Refusal :=
  s.served .mgmt (.norScrub f) fun s => s.served .nor (.norScrub f) fun s =>
  let s := s.fresh
  .next (match f with
    | .journal => if pfw s = false ∧ norUp s ∧ noneMarking s ∧ norShare s then norBack (checkpoint s) else s
    | .clean => s
    | .other => if pfw s = false ∧ norShare s then norBack s else s)

/-! ### Firmware (R680 to R683) -/

/-- A slot. -/
def State.slot (s : State) (j : Fin 2) : FwSlot := s.mgmt.slots[j]
/-- Replaces a slot. -/
def State.setSlot (s : State) (j : Fin 2) (x : FwSlot) : State := { s with mgmt := { s.mgmt with slots := s.mgmt.slots.set j x } }
/-- SLOT_STATE of a slot. -/
def slotState (s : State) (j : Fin 2) : Nat := s.n (K.fwm_SLOT_STATE_A j)
/-- Enters a slot state. -/
def setSlotState (j : Fin 2) (v : Nat) (s : State) : State := s.p (K.fwm_SLOT_STATE_A j) v
/-- ACTIVE_SLOT. -/
def activeSlot (s : State) : Fin 2 := Fin.ofNat 2 (s.n K.fwm_ACTIVE_SLOT)
/-- The slot that is not ACTIVE_SLOT. -/
def otherSlot (s : State) : Fin 2 := Fin.ofNat 2 (s.n K.fwm_ACTIVE_SLOT + 1)

/-- The lifecycle state is BLANK or SCRAPPED.
[DEDUCED, assumption 151] -/
def lcDenied (s : State) : Bool := s.g K.lcy_LIFECYCLE == 0 || s.g K.lcy_LIFECYCLE == 4

/-- The checks of an image (R680): 0 or the status.
[DEDUCED, assumption 152] -/
def imageCheck (s : State) (img : List Byte) : Nat :=
  let len := field img 12 4
  let key := (img.drop 64).take 96
  let root := Config.rootKeyHash
  if img.length < 257 ∨ field img 0 4 ≠ 0x5A4B4657 ∨ field img 4 2 ≠ 1 ∨ field img 7 1 ≠ 0 ∨ len + 256 ≠ img.length then
    Status.FW_FORMAT
  else if Config.sha384 (img.drop 256) ≠ (img.drop 16).take 48 ∨ Config.sha384 key ≠ root ∨
      Config.ecdsaOk key (Config.sha384 (img.take 160)) ((img.drop 160).take 96) = false then Status.FW_SIGNATURE
  else if field img 6 1 < s.n K.rk_FUSED_SVN then Status.FW_ROLLBACK
  else 0

/-- VERSION of an image. -/
def imageVersion (img : List Byte) : Nat := field img 8 4
/-- SVN of an image. -/
def imageSvn (img : List Byte) : Nat := field img 6 1

/-- A FIRMWARE entry of the event log (Table 15.4). -/
def fwLog (cmd version : Nat) (s : State) : State := s.logEv { kind := 6, data := cmd + version * 2 ^ 32 }

/-- The first segment of FW_IMAGE: its refusals, else the slot is erased and LOADING (R681, R682, R737). -/
def fwBegin (s : State) : Nat × State :=
  if lcDenied s then (Status.LC_DENIED, s)
  else if pfw s then (Status.PWR_LOW, s)
  else if slotState s 0 = 3 ∨ slotState s 1 = 3 then (Status.FW_STATE, s)
  else
    let j := otherSlot s
    let s := (setSlotState j 1 (s.setSlot j {})).p (K.fwm_SLOT_VERSION_A j) 0
    (0, s.p (K.fwm_SLOT_SVN_A j) 0)

/-- The last segment of FW_IMAGE: the checks, and the slot VALID or INVALID. -/
def fwEnd (img : List Byte) (s : State) : Nat × State :=
  let j := otherSlot s
  let st := imageCheck s img
  let s := (s.setSlot j { image := img }).p (K.fwm_SLOT_VERSION_A j) (imageVersion img)
  let s := setSlotState j (if st = 0 then 2 else 5) (s.p (K.fwm_SLOT_SVN_A j) (imageSvn img))
  (st, s.p K.fwm_FW_STATUS st)

/-- The running firmware's slot. -/
def runningSlot (s : State) : Fin 2 := Fin.ofNat 2 s.mgmt.running

/-- The effect of CONFIRM: the running TRIAL slot becomes ACTIVE, the other VALID; the mirror is written before the fuses
are advanced (R682). -/
def confirm (s : State) : State :=
  let j := runningSlot s
  let o : Fin 2 := Fin.ofNat 2 (j.val + 1)
  let s := (setSlotState o 2 (setSlotState j 4 s)).p K.fwm_ACTIVE_SLOT j.val
  let svn := s.n (K.fwm_SLOT_SVN_A j)
  let s := { s with mgmt := { s.mgmt with confirmEnd := none } }
  if s.n K.rk_FUSED_SVN < svn then ({ s with mgmt := { s.mgmt with mirror := svn } }).p K.rk_FUSED_SVN svn else s

/-- FW_CMD: its status and effect; none for a command that its slots' states do not accept (R682). -/
def fwEffect (cmd : Nat) (s : State) : Option State :=
  let j := otherSlot s
  if cmd = 1 then
    (if slotState s j = 2 then some (fwLog 1 (s.n (K.fwm_SLOT_VERSION_A j)) (setSlotState j 3 (s.setSlot j { s.slot j with booted := false })))
     else none)
  else if cmd = 2 then
    (if slotState s (runningSlot s) = 3 ∧ (s.slot (runningSlot s)).booted then
       some (fwLog 2 (s.n (K.fwm_SLOT_VERSION_A (runningSlot s))) (confirm s))
     else none)
  else if cmd = 3 then
    (if slotState s j = 3 ∧ (s.slot j).booted = false then
       some (fwLog 3 (s.n (K.fwm_SLOT_VERSION_A j)) (setSlotState j 2 s))
     else none)
  else
    let v := s.n (K.fwm_SLOT_VERSION_A j)
    some (fwLog 4 v (((setSlotState j 0 (s.setSlot j {})).p (K.fwm_SLOT_VERSION_A j) 0).p (K.fwm_SLOT_SVN_A j) 0))

/-- FW_CMD with its refusals (R682, R737).
[DEDUCED, assumption 152] -/
def fwCmd (cmd : Nat) (s : State) : Nat × State :=
  let r : Nat × State :=
    if lcDenied s then (Status.LC_DENIED, s)
    else if pfw s ∧ (cmd = 1 ∨ cmd = 2) then (Status.PWR_LOW, s)
    else
      match fwEffect cmd s with
      | some t => (0, t)
      | none => (Status.FW_STATE, s)
  (r.1, r.2.p K.fwm_FW_STATUS r.1)

/-- ACTIVATE. -/
def execActivate (s : State) : Host.Outcome State Fault Refusal :=
  s.served .mgmt (.activate) fun s =>
  .next (fwCmd 1 s.fresh).2
/-- CONFIRM. -/
def execConfirm (s : State) : Host.Outcome State Fault Refusal :=
  s.served .mgmt (.confirm) fun s =>
  .next (fwCmd 2 s.fresh).2
/-- CANCEL. -/
def execCancel (s : State) : Host.Outcome State Fault Refusal :=
  s.served .mgmt (.cancel) fun s =>
  .next (fwCmd 3 s.fresh).2
/-- ERASE. -/
def execErase (s : State) : Host.Outcome State Fault Refusal :=
  s.served .mgmt (.erase) fun s =>
  .next (fwCmd 4 s.fresh).2

/-- A trial that failed: the slot becomes INVALID and FW_TRIAL_REVERTED is raised (R683).
[DEDUCED, assumption 152] -/
def trialFailed (j : Fin 2) (s : State) : State := (setSlotState j 5 s).raise Src.FW_TRIAL_REVERTED

/-- CONFIRM_WINDOW_EXPIRY (R683). -/
def execConfirmWindowExpiry (s : State) : Host.Outcome State Fault Refusal :=
  s.served .mgmt (.confirmWindowExpiry) fun s =>
  let s := s.fresh
  .next (match s.mgmt.confirmEnd with
    | some t =>
      if t ≤ s.now then
        trialFailed (runningSlot s) { s with mgmt := { s.mgmt with confirmEnd := none, revert := true } }
      else s
    | none => s)

/-! ### Lifecycle, keys, TAMPER_N (R684 to R688) -/

/-- A transition of Table 15.8. -/
def lcTransition (a b : Nat) : Bool :=
  match a with
  | 0 => b == 1 || b == 4
  | 1 => b == 2 || b == 4
  | 2 => b == 3 || b == 4
  | 3 => b == 2 || b == 4
  | _ => false

/-- The checks of a lifecycle token other than its transition (R684). -/
def lcTokenOk (s : State) (t : List Byte) : Bool :=
  let key := (t.drop 56).take 96
  t.length == 248 && field t 0 4 == 0x434C4B5A && field t 4 2 == 1 && field t 7 1 == 0 &&
  (t.drop 8).take 48 == s.blob K.lcy_LC_CHALLENGE && Config.sha384 key == Config.rootKeyHash &&
  Config.ecdsaOk key (Config.sha384 (t.take 152)) (t.drop 152)

/-- OPEN and PENDING transactions that stage a sealed object are rolled back, and writes outside a transaction of one
that wait for the journal likewise (R685, R688). -/
def rollbackSealed (s : State) : State :=
  let s := rollbackAll Txn.sealed s
  let gone := s.dict.outs.filter (fun t => t.sealed && t.wait != .mark)
  let s := { s with dict := { s.dict with outs := s.dict.outs.filter (fun t => !(t.sealed && t.wait != .mark)) }
                    cal := { s.cal with held := s.cal.held.filter (fun t => !t.sealed) } }
  gone.foldl (fun s t => match t.ask with | some a => answer a Status.OD_TXN_STATE 0 0 [] s | none => s) s

/-- The wipe of the secure partition: key and counter mirror (R686). -/
def wipe (s : State) : State :=
  let s := s.append 0 .wipe
  let s := { s with mgmt := { s.mgmt with partKey := none, mirror := 0 } }
  s.append 0 .wipeDone

/-- An accepted transition (R685): LIFECYCLE is committed as a transaction of class P, whose apply ends it (R18). -/
def lcTransit (to_ : Nat) (s : State) : State :=
  let old := s.n K.lcy_LIFECYCLE
  let s := wipe (rollbackSealed (zeroise s))
  let s := s.logEv { kind := 4, data := old + 256 * to_ }
  s.publish (.life to_) 0 0 [K.lcy_LIFECYCLE] (s.p K.lcy_LIFECYCLE to_)

/-- A write of LC_TOKEN: its status; a new challenge is drawn after every token (R684, R737).
[DEDUCED, assumption 151] -/
def lcToken (t : List Byte) (s : State) : Nat × State :=
  let to_ := field t 6 1
  let r : Nat × State :=
    if pfw s then (Status.PWR_LOW, s)
    else if t.length = 248 ∧ lcTransition (s.n K.lcy_LIFECYCLE) to_ = false then (Status.LC_TRANSITION, s)
    else if lcTokenOk s t then (0, lcTransit to_ s)
    else (Status.LC_TOKEN, s.raise Src.LC_TOKEN_BAD)
  (r.1, (newChallenge K.lcy_LC_CHALLENGE r.2).p K.lcy_LC_STATUS r.1)

/-- LC_TOKEN. -/
def execLcToken (t : List Byte) (s : State) : Host.Outcome State Fault Refusal :=
  s.served .mgmt (.lcToken t) fun s =>
  .next (lcToken t s.fresh).2

/-- A write of SEAL_KEY (R687, R688, R737). -/
def sealKey (k : List Byte) (s : State) : Nat × State :=
  if pfw s then (Status.PWR_LOW, s)
  else if s.g K.kk_KEY_STATE = 1 ∧ s.g K.lcy_TAMPER_ACTIVE = 0 ∧ k.length = 96 ∧ Config.p384Point k then
    (0, { s with mgmt := { s.mgmt with partKey := some k, workKey := some k } }.p K.kk_KEY_STATE 2)
  else (Status.KEY_STATE, s)

/-- SEAL_KEY. -/
def execSealKey (k : List Byte) (s : State) : Host.Outcome State Fault Refusal :=
  s.served .mgmt (.sealKey k) fun s =>
  .next (sealKey k s.fresh).2

/-- KEY_WINDOW_LEFT in fs. -/
def State.keyLeft (s : State) : Int :=
  if s.g K.kk_KEY_STATE = 1 then ((s.mgmt.keyEnd - s.now : Nat) : Int) * 1250000 else 0

/-- KEY_WINDOW_EXPIRY (R687). -/
def execKeyWindowExpiry (s : State) : Host.Outcome State Fault Refusal :=
  s.served .mgmt (.keyWindowExpiry) fun s =>
  let s := s.fresh
  .next (if s.g K.kk_KEY_STATE = 1 ∧ s.mgmt.keyEnd ≤ s.now then s.p K.kk_KEY_STATE 0 else s)

/-- An assertion of TAMPER_N (R688). -/
def tamper (s : State) : State :=
  let s := wipe (rollbackSealed (zeroise (s.p K.lcy_TAMPER_ACTIVE 1)))
  let s := ((s.p K.kk_KEY_STATE 0).cnt32 K.lcy_TAMPER_COUNT).persist [K.lcy_TAMPER_COUNT]
  (s.logSrc { kind := 5, source := Src.TAMPER }).raise Src.TAMPER

/-- TAMPER: TAMPER_N has been low for 10 µs. -/
def execTamper (s : State) : Host.Outcome State Fault Refusal :=
  let s := s.fresh
  .next (if s.g K.lcy_TAMPER_ACTIVE = 0 then tamper s else s)

/-- TAMPER_RELEASE. -/
def execTamperRelease (s : State) : Host.Outcome State Fault Refusal := .next (s.fresh.p K.lcy_TAMPER_ACTIVE 0)

end Sys2Proof.Machine
end

