-- ==== Sys2Proof/Machine/Compare.lean ====
section
/-! DEFINITION. Compare results of a frame (R267 to R271, R282 to R293), the counters, first-fail record and log entries
that they give (R306 to R321), capture records (R288, R337, R338) and the first-fail stop (R199 to R201). -/
namespace Sys2Proof.Machine
open Sys2Proof

/-! ### Judging strobes -/

/-- Lane states after the options of R269 to R271.
[DESIGN CHOICE, assumption 60] -/
def laneOpt (m : Store) (c : ChanId) (p : Bool × Bool) : Bool × Bool :=
  let inv (k : Nat) : Bool := (Store.val m (K.ch_LANE_SWAP c)).toNat.testBit k != (Store.val m (K.ch_LANE_INV c)).toNat.testBit k
  let q := (p.1 != inv 2, p.2 != inv 3)
  if Store.val m (K.ch_CHCL_EXCHANGE c) = 0 then q else (q.2, q.1)

/-- The states that a strobe or window sees: the sampled one in EDGE mode; in WINDOW mode those that persist for 60 ps, never those
below 20 ps, and between the two what the manual leaves open (R282).
[DESIGN CHOICE, assumption 214] -/
def seenStates (window : Bool) (draw : Nat) (l : List (Bool × Bool × Nat)) : List (Bool × Bool) :=
  if window then
    ((List.range l.length).zip l).filterMap (fun q =>
      if 60000 ≤ q.2.2.2 ∨ (20000 ≤ q.2.2.2 ∧ Config.freeInt (draw + q.1) % 2 = 1) then some (q.2.1, q.2.2.1) else none)
  else (l.take 1).map (fun q => (q.1, q.2.1))

/-! ### Near loopback (R295) -/

/-- The level of a lane at the pad of a channel in near loopback at a time: that of the last change before it, or slath state's.
[DESIGN CHOICE, assumption 60] -/
def padLevel (m : Store) (l : List LoopE) (c : ChanId) (de : Bool) (t : Int) : Bool :=
  let past := (l.filter (fun e => e.chan == c && e.de == de && decide (e.time ≤ t)))
  match past.foldl (fun (a : Option LoopE) e =>
      match a with
      | some b => if b.time ≤ e.time then some e else a
      | none => some e) none with
  | some e => e.level
  | none => if de then laneInv m c 1 else slathLevel m c != laneInv m c 0

/-- Inserts a time into a rising list. -/
def insertTime (t : Int) : List Int → List Int
  | [] => [t]
  | a :: r => if t ≤ a then t :: a :: r else a :: insertTime t r

/-- What a strobe element of a channel in near loopback finds between two programmed times: the channel's own PE_DD and PE_DE
levels, as far back as the round trip with which it fires exceeds the pad path's own delay. -/
def loopStates (s : State) (f : Frame) (i : SiteId) (c : ChanId) (t1 t2 : Int) : List (Bool × Bool × Nat) :=
  let l := (s.site i).loop
  let back (de : Bool) : Int := f.g (K.cc_RT c) - Config.padPath (if de then 256 + c.val else c.val)
  let inner := ((l.filter (fun e => e.chan == c)).map (fun e => e.time - back e.de)).filter (fun t => decide (t1 < t) && decide (t < t2))
  let starts := t1 :: inner.foldl (fun a t => insertTime t a) []
  let ends := starts.drop 1 ++ [t2]
  (starts.zip ends).map (fun q =>
    (padLevel f.od l c false (q.1 + back false), padLevel f.od l c true (q.1 + back true), (q.2 - q.1).toNat))

/-- LOS of a channel in an SCLK: as the last change up to it left it (R268). -/
def losAt (s : State) (c : ChanId) (n : Nat) : Bool :=
  let l := s.mem.losLog.filter (fun e => e.chan == c)
  match (l.filter (fun e => decide (e.at_ ≤ n))).getLast? with
  | some e => e.on
  | none => match l.head? with
    | some e => !e.on
    | none => s.b (K.ch_LOS c)

/-- What a strobe saw: CH and CL both 1 when it fired while LOS was set (R268); the channel's own lanes in near loopback (R295); none
when it was cancelled (R242). w is its entry of Table 5.3, t0 its vector's start.
[DESIGN CHOICE, assumption 60] -/
def strobeSaw (s : State) (f : Frame) (i : SiteId) (samples : List Sample) (vec : Nat) (v : Vec) (t0 : Int) (c : ChanId)
    (w : Nat × Nat × Nat × Nat) : Option (List (Bool × Bool)) :=
  let es := Store.edgeSet f.od c v.tset
  let t1 := t0 + Store.edge f.od i v.tset es w.2.2.1
  let t2 := t0 + Store.edge f.od i v.tset es w.2.2.2
  let see := seenStates (w.2.2.1 != w.2.2.2) (s.free + 64 * (256 * vec + c.val) + 16 * w.1)
  if !f.drives t1 || !f.drives t2 then none
  else if f.b (K.ch_LOOPBACK c) then some ((see (loopStates s f i c t1 t2)).map (laneOpt f.od c))
  else if losAt s c (ballSclk s i (t1 + f.g (K.cc_RT c))) then some [(true, true)]
  else (samples.find? (fun x => x.vec == vec && x.chan == c && x.strobe == w.1)).map (fun x => (see x.seen).map (laneOpt f.od c))

/-- A lane state meets an expectation; wave is the waveform bit (Table 6.5, R285). -/
def meets (code : Nat) (wave : Bool) (p : Bool × Bool) : Bool :=
  match code with
  | 8 => !p.1 && p.2
  | 9 => p.1 && !p.2
  | 10 => !p.1 && !p.2
  | 11 => p.1 != p.2
  | _ => if wave then p.1 && !p.2 else !p.1 && p.2

/-- The strobe fails. -/
def Judged.fails (j : Judged) : Bool := j.seen.any (fun p => !meets j.code j.wave p)
/-- The strobe saw CH and CL both 1 (R285). -/
def Judged.both (j : Judged) : Bool := j.seen.any (fun p => p.1 && p.2)

/-- The waveform bit that a CW beat of a channel expects at a time; a free value where the engine's word is not yet there
(R289).
[DESIGN CHOICE, assumption 214] -/
def waveOf (s : State) (m : Store) (c : ChanId) (t : Int) (draw : Nat) : Bool :=
  match waveBit s (Fin.ofNat 8 (Store.val m (K.ch_WF_ENGINE c)).toNat) (Store.val m (K.ch_WF_BIT c)).toNat t with
  | some b => b
  | none => Config.freeInt draw % 2 == 1

/-- The strobes of a beat that were not cancelled (R283, Table 5.3). -/
def judgeBeat (s : State) (i : SiteId) (f : Frame) (samples : List Sample) (e : Exp) : List Judged :=
  match f.vecs[e.vec]? with
  | none => []
  | some v =>
    let es := Store.edgeSet f.od e.chan v.tset
    let ctrl := Store.esCtrl f.od i v.tset es
    let t0 := ((vecStarts f i).find? (fun q => q.1 == e.vec)).elim 0 (fun q => q.2.2)
    let ws := (((strobeEdges (bits ctrl 4 2) (bits ctrl 8 4) (f.n (K.cf_BEATS i))).getD []).filter (fun w => w.2.1 == e.beat))
    ws.filterMap (fun w =>
      (strobeSaw s f i samples e.vec v t0 e.chan w).map (fun seen =>
        { vec := e.vec, chan := e.chan, beat := e.beat, strobe := w.1, code := e.code, seen := seen
          wave := e.code == 14 &&
            waveOf s f.od e.chan (t0 + Store.edge f.od i v.tset es w.2.2.1) (s.free + 65536 + 4 * (256 * e.vec + e.chan.val) + w.1) }))

/-- Every strobe of a frame that judged or captured. -/
def judgeFrame (s : State) (i : SiteId) (f : Frame) (samples : List Sample) : List Judged :=
  f.exps.flatMap (judgeBeat s i f samples)

/-- A CMP_BOTH count of a channel, with a raise when none was made in the last second (R285).
[DESIGN CHOICE, assumption 61] -/
def cmpBoth (c : ChanId) (s : State) : State :=
  let s := s.sat32 (K.ch_CMP_BOTH_COUNT c)
  if (match kget? s.mem.bothAt c with | some t => decide (t + 800000000 ≤ s.now) | none => true) then
    ({ s with mem := { s.mem with bothAt := kput s.mem.bothAt c s.now } }).raise (Src.CMP_BOTH c)
  else s

/-! ### Fail processing -/

/-- The FAILACT of a frame: COUNT when its site has no fail region (R330).
[DESIGN CHOICE, assumption 68] -/
def failact (f : Frame) (i : SiteId) : Nat := if f.g (K.fc_LOG_EXTENTS i) = 0 then 1 else f.failact

/-- The fail entries of one failing vector, one to a rank group (R306, R318, R319). -/
def failEntries (f : Frame) (i : SiteId) (v : Vec) (cycle : Nat) (bad : List Judged) : List FailE :=
  let cs := Store.chans f.od i
  let inGroup (g : Nat) : List Judged := bad.filter (fun j => cs.idxOf j.chan / 64 == g)
  let gs := (List.range 4).filter (fun g => !(inGroup g).isEmpty)
  gs.map (fun g =>
    { kind := 0, aux := f.failact % 8, tset := v.tset, more := gs.getLast? != some g
      beats := (List.range 4).foldl (fun a k => if (inGroup g).any (fun j => j.beat == k) then a + 2 ^ k else a) 0
      group := g, addr := v.addr, cycle := cycle % 2 ^ 48
      payload := (List.range 64).foldl
        (fun a k => if (inGroup g).any (fun j => cs.idxOf j.chan % 64 == k) then a + 2 ^ k else a) 0 })

/-- Writes the first-fail record for a failing vector (R316), and posts FAIL_NOTIFY when its frame asks for it (Table
3.8). -/
def firstFail (i : SiteId) (f : Frame) (v : Vec) (cycle : Nat) (bad : List Judged) (s : State) : State :=
  if s.b (K.ff_FF_VALID i) then s
  else
    let a := v.addr.getD (false, 0, 0)
    let map (j : Nat) : Nat :=
      (List.range 64).foldl (fun m k => if bad.any (fun x => x.chan.val == 64 * j + k) then m + 2 ^ k else m) 0
    let s := s.p (K.ff_FF_VALID i) 1
    let s := s.p (K.ff_FF_SOURCE i) (65536 * b2n a.1 + a.2.1 : Nat)
    let s := s.p (K.ff_FF_ORDINAL i) a.2.2
    let s := s.p (K.ff_FF_CYCLE i) (cycle % 2 ^ 48 : Nat)
    let s := s.p (K.ff_FF_FRAME i) f.num
    let s := s.p (K.ff_FF_TSET i) v.tset
    let s := s.p (K.ff_FF_BEATS i)
      ((List.range 4).foldl (fun m k => if bad.any (fun x => x.beat == k) then m + 2 ^ k else m) 0 : Nat)
    let s := (List.range 4).foldl (fun (s : State) j => s.p (K.ff_FF_MAP i j) (map j)) s
    let s := s.modSite i (fun x => { x with ffAt := s.now })
    if failact f i = 3 then s.event i 2 (cycle % 2 ^ 48) 0 else s

/-- One vector of a frame with CMPEN ON in fail processing (R307 to R313). A failing vector of FAILACT COUNT makes no entry, and so is
none that LOG_LOST counts in count-only.
[DESIGN CHOICE, assumption 231] -/
def failVector (i : SiteId) (f : Frame) (k : Nat) (v : Vec) (judged : List Judged) (s : State) : State :=
  let cycle := f.cycle + k
  let s := flushLog i cycle s
  let bad := judged.filter (fun j => j.vec == k && j.code != 13 && j.fails)
  if bad.isEmpty then s
  else
    let s := s.p (K.fr_FAIL_VECTORS i) (s.g (K.fr_FAIL_VECTORS i) + 1)
    let s := ((Store.chans f.od i).filter (fun c => bad.any (fun j => j.chan == c))).foldl
      (fun (s : State) (c : ChanId) => s.sat32 (K.pf_PIN_FAILS (c / 32) (c % 32))) s
    let s := firstFail i f v cycle bad s
    if failact f i = 1 then s
    else s.modSite i (fun x => { x with failNow := x.failNow ++ [failEntries f i v cycle bad] })

/-! ### The end of a run (R198 to R201) -/

/-- The rank of a stop cause when two set the same last frame: FIRST_FAIL, HALT, ABORT, STOP (R198; 4, 1, 3, 2). -/
def causeRank (c : Nat) : Nat := if c = 4 then 0 else if c = 1 then 1 else if c = 3 then 2 else 3

/-- The earliest last frame, with its cause (R198). -/
def mergeStop (old : Option (Nat × Nat)) (new : Nat × Nat) : Nat × Nat :=
  match old with
  | none => new
  | some o => if new.1 < o.1 ∨ (new.1 = o.1 ∧ causeRank new.2 < causeRank o.2) then new else o

/-- H of a frame's site (R23): the result of a frame issued now is tested H frames later. -/
def State.horizon (s : State) (i : SiteId) : Nat := 32 + s.n (K.cf_BOARD_RT i)

/-- A fail in a frame with FAILACT STOP and CMPEN ON orders the first-fail stop: the word that issues frame g + H - 1 is
the last, or the last one already issued when a pause drains (R199 to R201). A fail latched before the PAUSE is taken does not
keep the site from entering PAUSED while that word is still to be issued: the run then ends at it after resumption.
[DESIGN CHOICE, assumption 205] -/
def firstFailStop (i : SiteId) (g : Nat) (s : State) : State :=
  let x := s.site i
  if x.ffStop.isSome then s
  else
    let last := g + s.horizon i - 1
    let x := { x with ffStop := some g }
    if x.pausing then s.setSite i { x with pausing := false, halted := true, stopAt := some (s.n (K.sr_FRAMES i) - 1, 4) }
    else match x.stopAt with
      | some o => s.setSite i { x with stopAt := some (mergeStop (some o) (last, 4)) }
      | none => s.setSite i x

/-! ### Capture records (R288, R337, R338) -/

/-- The bits that a capturing strobe gives: CH, CL or both, by WIDTH. -/
def captureBits (width : Nat) (seen : List (Bool × Bool)) : List Bool :=
  let h := seen.any (·.1)
  let l := seen.any (·.2)
  match width with
  | 0 => [h]
  | 1 => [l]
  | _ => [h, l]

/-- Bytes of a capture record: header and payload filled up to 32 bytes (R337). -/
def CapRec.size (r : CapRec) : Nat := 32 + (r.bits.length + 255) / 256 * 32

/-- Bytes in a site's capture buffer. -/
def Site.capHeld (x : Site) : Nat := x.capPend.foldl (fun a r => a + r.size) 0

/-- A discarded capture record (R340). -/
def captureLost (i : SiteId) (s : State) : State :=
  let s := s.p (K.fr_CAP_LOST i) (s.g (K.fr_CAP_LOST i) + 1)
  if (s.site i).capRaised then s
  else (s.modSite i (fun x => { x with capRaised := true })).raiseSite (Src.CAPTURE_OVERFLOW i) i

/-- The capture record of one vector enters the capture buffer of 1 MiB, or is discarded (R337, R340). -/
def captureVector (i : SiteId) (f : Frame) (k : Nat) (v : Vec) (judged : List Judged) (s : State) : State :=
  let bs := (judged.filter (fun j => j.vec == k && j.code == 13)).flatMap (fun j => captureBits (bits f.dcr 6 2) j.seen)
  if bs.isEmpty then s
  else
    let x := s.site i
    let r : CapRec := { dcr := f.dcr, addr := v.addr, cycle := (f.cycle + k) % 2 ^ 48, seq := x.capSeq, bits := bs }
    let s := s.setSite i { x with capSeq := x.capSeq + 1 }
    if x.capHeld + r.size ≤ 2 ^ 20 then s.modSite i (fun x => { x with capPend := x.capPend ++ [r] })
    else captureLost i s

/-! ### COMPARE_RESULT_LATCH -/

/-- What the latched results of a frame say of a channel: none when it was not compared, else whether it failed. -/
def chanResult (judged : List Judged) (c : ChanId) : Option Bool :=
  let l := judged.filter (fun j => j.chan == c && j.code != 13)
  if l.isEmpty then none else some (l.any Judged.fails)

/-- The calibration controller receives the latched results of a channel in calibration (R24). -/
def calResults (judged : List Judged) (s : State) : State :=
  allBanks.foldl (fun s b =>
    match (s.calBank b).cur with
    | some w =>
      let l := judged.filter (fun j => j.chan == w.chan)
      if l.isEmpty then s else s.setCalBank b { s.calBank b with latched := l }
    | none => s) s

/-- The results of the frame reach every consumer (R293, R286, R24). A capturing strobe does not count in CMP_BOTH_COUNT.
[DESIGN CHOICE, assumption 230] -/
def latchFrame (i : SiteId) (f : Frame) (samples : List Sample) (s : State) : State :=
  let judged := judgeFrame s i f samples
  let s := { s with free := s.free + 69632 }
  let compares := judged.filter (fun j => j.code != 13)
  let failed := compares.any Judged.fails
  let s := (compares.filter Judged.both).foldl (fun s j => cmpBoth j.chan s) s
  let s := s.modSite i (fun x => { x with results := kput x.results f.num (!compares.isEmpty, failed) })
  let vs := (List.range f.vecs.length).zip f.vecs
  let s := if f.cmpen = 1 then vs.foldl (fun s q => failVector i f q.1 q.2 judged s) s else s
  let s := vs.foldl (fun s q => captureVector i f q.1 q.2 judged s) s
  let s := if f.cmpen = 1 ∧ failact f i = 2 ∧ failed then firstFailStop i f.num s else s
  calResults judged (tmuFrameResults i f.num (chanResult judged) s)

/-- The level changes in near loopback that a strobe of a later frame may still find: those of the last 100 ns before a time, and
the last one before them of each lane. -/
def loopKept (l : List LoopE) (t : Int) : List LoopE :=
  l.filter (fun e => decide (t - 100000000 ≤ e.time) ||
    !l.any (fun d => d.chan == e.chan && d.de == e.de && decide (e.time < d.time) && decide (d.time < t - 100000000)))

/-- The objects 2630h of a site read from now on as they stand after this frame, once no entry of it is still to enter the FIFO
(R348).
[DEDUCED, assumption 235] -/
def snapResults (i : SiteId) (s : State) : State :=
  if (s.site i).failPend.isEmpty then
    s.modSite i (fun x => { x with resSnap := (List.range 12).map (fun k => (k + 1, s.g (Objects.ob (0x2630 + i.val) (k + 1)))) })
  else s

/-- COMPARE_RESULT_LATCH: the oldest frame that the formatters took has its results latched (R293, Table 7.1). Once the
last one of a site that is no longer active is latched, the remaining log entries take their place and its spars return. -/
def compareLatch (i : SiteId) (samples : List Sample) (s : State) : State :=
  let x := s.site i
  match x.taken with
  | [] => s
  | f :: rest =>
    let s := s.setSite i { x with taken := rest }
    let s := if f.pad then s else latchFrame i f samples s
    let s := snapResults i (closeFails i (flushLog i (f.cycle + f.vecs.length - 1) s))
    let s := s.modSite i (fun x => { x with loop := loopKept x.loop (125 * f.start) })
    if rest.isEmpty && !s.active i then calSiteEnded i (closeFails i (flushLog i (s.site i).cycle s)) else s

/-- COMPARE_RESULT_LATCH. -/
def execCompareResultLatch (i : SiteId) (samples : List Sample) (s : State) : Host.Outcome State Fault Refusal :=
  .next (s.fresh.timed (compareLatch i samples))

/-! ### Loss of signal (R267, R268, R295) -/

/-- LOS of a channel changes in the present SCLK; the changes before are kept while a strobe of its site is still to be judged. -/
def losChange (c : ChanId) (on : Bool) (s : State) : State :=
  let waits := match s.siteOf c with | some i => !(s.site i).taken.isEmpty | none => false
  let old := if waits then s.mem.losLog else s.mem.losLog.filter (fun e => e.chan != c)
  let s := s.p (K.ch_LOS c) (b2i on)
  { s with mem := { s.mem with losLog := old ++ [{ chan := c, at_ := s.now, on := on }] } }

/-- PE_LOS: the swing of an input lane stayed below its threshold for 1 us. -/
def execPeLos (c : ChanId) (s : State) : Host.Outcome State Fault Refusal :=
  .next (s.fresh.timed (fun s => if s.b (K.ch_LOOPBACK c) || s.b (K.ch_LOS c) then s
         else (losChange c true s).activate (Src.PE_LOS c) (match s.siteOf c with | some i => oneSite i | none => 0) 0))

/-- LOS_CLEAR: the swing stayed at or above the threshold for 1 us. -/
def execLosClear (c : ChanId) (s : State) : Host.Outcome State Fault Refusal :=
  .next (s.fresh.timed (fun s =>
    if s.b (K.ch_LOOPBACK c) || !s.b (K.ch_LOS c) then s else (losChange c false s).deactivate (Src.PE_LOS c)))

end Sys2Proof.Machine
end

