-- ==== Sys2Proof/Machine/Mover.lean ====
section
/-! DEFINITION. The host commands that move segment data, and the mover that serves those of the deep store (R64, R77 to R79,
R774; Table 2.4, Table 13.9). -/
namespace Sys2Proof.Machine
open Sys2Proof

/-! ### Host commands at the mover (R77, item 4) -/

/-- A host command that still stands: a SEG_READ or SEG_WRITE whose command is no longer in flight holds nobody up. -/
def MoverJob.stands (s : State) (j : MoverJob) : Bool :=
  match j with
  | .move _ => true
  | .copy t => s.host.flights.any (fun x => x.tag == t)

/-- The mover serves a host command: no refill, spill or filling comes before it (R77, items 1 to 3), and no host command that
arrived earlier.
[DESIGN CHOICE, assumption 193] -/
def moverServes (j : MoverJob) (s : State) : Bool :=
  !moverDue s && !(s.mem.movers.takeWhile (fun m => m != j)).any (MoverJob.stands s)

/-- A host command leaves the mover. -/
def leaveMover (j : MoverJob) (s : State) : State :=
  { s with mem := { s.mem with movers := s.mem.movers.filter (fun m => m != j) } }

/-- A command that moves deep-store data acts when the mover serves it. Until then it keeps its place, stays in flight, and its row comes
again.
[DESIGN CHOICE, assumption 193] -/
def whenServed (deep : Bool) (t : Tag) (s : State) (act : State → State) : State :=
  if deep = false ∨ moverServes (.copy t) s then act (leaveMover (.copy t) s)
  else if s.mem.movers.contains (.copy t) then s
  else { s with mem := { s.mem with movers := s.mem.movers ++ [.copy t] } }

/-- SEG_WRITE (R64, R365, R774). -/
def segWrite (t : Tag) (n : SegId) (first count : Nat) (data : List Byte) (s : State) : State :=
  match s.seg? n with
  | none => (leaveMover (.copy t) s).refuse t Status.SEG_STATE
  | some x =>
    if x.st ≠ .opened then (leaveMover (.copy t) s).refuse t Status.SEG_STATE
    else if x.len < first + count then (leaveMover (.copy t) s).refuse t Status.Q_FIELD
    else whenServed (x.home == .deep) t s fun s =>
      let s := s.fromHost t (count * SegKind.itemSize x.kind)
      let (m, bad) := storeItems x.kind n (itemsOf x.kind count data) first x.data
      let s := s.setSeg n { x with data := m }
      match bad with
      | none => s.complete t Status.OK 0
      | some (i, st) => s.complete t st i

/-- SEG_WRITE. -/
def execSegWrite (t : Tag) (n : SegId) (first count : Nat) (data : List Byte) (s : State) :
    Host.Outcome State Fault Refusal :=
  s.queued t .timing (.segWrite t n first count data) fun s =>
  .next (s.fresh.inRange t (decide (1 ≤ count) && decide (count ≤ 65536)) (segWrite t n first count data))

/-- An item of a segment as SEG_READ copies it; an item never written is open. -/
def itemAt (x : Seg) (free i : Nat) : List Byte :=
  match kget? x.data i with
  | some y => y
  | none => freeData (free + i) (SegKind.itemSize x.kind)

/-- What the mover's read for a SEG_READ of a deep segment meets: an error is counted, an uncorrectable one makes the segment
FAILED, parks no site and leaves the bytes of its item open (R77, R79).
[DESIGN CHOICE, assumption 194] -/
def readMet (x : Seg) (n : Nat) (c : MoverCheck) (s : State) : State :=
  if x.home = .deep then
    match c with
    | .ue item => moverUe x.kind n item 0 s
    | c => moverCe x.kind n c s
  else s

/-- The items that a SEG_READ copies: the one with an uncorrectable error is lost.
[DESIGN CHOICE, assumption 194] -/
def readFrom (x : Seg) (c : MoverCheck) : Seg :=
  match c with
  | .ue item => if x.home = .deep then { x with data := kdel x.data item } else x
  | _ => x

/-- SEG_READ (R774). -/
def segRead (t : Tag) (n : SegId) (first count : Nat) (c : MoverCheck) (s : State) : State :=
  match s.seg? n with
  | none => (leaveMover (.copy t) s).refuse t Status.SEG_BAD_NUMBER
  | some x =>
    if x.len < first + count then (leaveMover (.copy t) s).refuse t Status.Q_FIELD
    else whenServed (x.home == .deep) t s fun s =>
      let s := readMet x n c s
      let x := readFrom x c
      let d := ((List.range count).map (fun j => itemAt x s.free (first + j))).flatten
      let s := if (List.range count).all (fun j => (kget? x.data (first + j)).isSome) then s
               else { s with free := s.free + first + count }
      (s.toHost t d).complete t Status.OK (count * SegKind.itemSize x.kind)

/-- SEG_READ. -/
def execSegRead (t : Tag) (n : SegId) (first : Nat) (count : SegItems) (s : State) : Host.Outcome State Fault Refusal :=
  s.queued t .timing (.segRead t n first count) fun s =>
  .next (s.fresh.inRange t (decide (1 ≤ count.count) && decide (count.count ≤ 65536)) (segRead t n first count.count count.met))

/-- SEG_MIGRATE (Table 2.4): the extents of the new home are taken at once and those of the old one are released when the
move is done. The manual gives its refusals no order.
[DESIGN CHOICE, assumption 195] -/
def segMigrate (t : Tag) (n : SegId) (home : Tier) (s : State) : State :=
  match s.seg? n with
  | none => s.refuse t Status.SEG_BAD_NUMBER
  | some x =>
    if x.st = .active then s.refuse t Status.SEG_ACTIVE
    else if x.st ≠ .inactive ∨ x.moving.isSome then s.refuse t Status.SEG_STATE
    else if home = x.home then s.complete t Status.OK 0
    else if home = .deep ∧ s.deepOn = false then s.refuse t Status.TIER_ABSENT
    else if s.tierFree home < x.extents then s.refuse t Status.SEG_NO_SPACE
    else
      let s := s.setSeg n { x with moving := some (home, t) }
      { s with mem := { s.mem with movers := s.mem.movers ++ [.move n.val] } }

/-- SEG_MIGRATE. -/
def execSegMigrate (t : Tag) (n : SegId) (home : Tier) (s : State) : Host.Outcome State Fault Refusal :=
  s.queued t .timing (.segMigrate t n home) fun s =>
  .next (segMigrate t n home s.fresh)

/-- SEG_MIGRATE_DONE: the move of the segment whose command the mover serves ends (R77, item 4). The segment becomes
referencable in its new home and the command completes; an uncorrectable error in its deep home makes it FAILED instead
(R79).
[DESIGN CHOICE, assumption 193] -/
def segMigrateDone (n : SegId) (c : MoverCheck) (s : State) : State :=
  match s.seg? n with
  | none => s
  | some x =>
    match x.moving with
    | none => s
    | some (h, t) =>
      if moverServes (.move n) s = false then s
      else
        match x.home, c with
        | .deep, .ue item => moverUe x.kind n item 0 s
        | _, _ =>
          let s := if x.home = .deep then moverCe x.kind n c s else s
          (leaveMover (.move n) (s.setSeg n { x with home := h, moving := none })).complete t Status.OK 0

/-- SEG_MIGRATE_DONE. -/
def execSegMigrateDone (n : MoveEnd) (s : State) : Host.Outcome State Fault Refusal :=
  .next (s.fresh.timed (segMigrateDone n.seg n.met))

end Sys2Proof.Machine
end

