-- ==== Sys2Proof/Machine/Results.lean ====
section
/-! DEFINITION. The fail log, the spill area, the capture region, result buffers and uploads (R318 to R344, R591). -/
namespace Sys2Proof.Machine
open Sys2Proof

/-! ### Fail-log entries -/

/-- The 32 bytes of an entry of a site with its index (Table 7.2). -/
def FailE.image (e : FailE) (i : SiteId) (idx : Nat) : List Byte :=
  let a := e.addr.getD (false, 0, 0)
  let body := toBytes 28 (e.payload + 2 ^ 64 * e.cycle + 2 ^ 112 * (a.2.2 % 2 ^ 48) + 2 ^ 160 * (a.2.1 % 65536)
    + 2 ^ 176 * b2n a.1 + 2 ^ 177 * i.val + 2 ^ 182 * e.group + 2 ^ 184 * e.kind + 2 ^ 187 * e.beats + 2 ^ 191 * b2n e.more
    + 2 ^ 192 * e.tset + 2 ^ 200 * e.aux + 2 ^ 208 * (idx % 65536))
  body ++ toBytes 4 (crc32c body)

/-- The count-only cause that k entries judged together meet, 0 for none (Table 7.4); RATE where another is met with it.
[DESIGN CHOICE, assumption 232] -/
def logCause (s : State) (i : SiteId) (k : Nat) : Nat :=
  let x := s.site i
  let cap := s.logCap i
  let act := s.n (K.fc_LOG_FULL_ACTION i)
  if 4095 < x.failFifo.length + k then 1
  else if act = 1 then 0
  else if cap < s.logHeld i + x.failFifo.length + k + 1 then
    if act = 0 ∨ x.spillIdx = 0 then 2
    else if s.n (K.fc_SPILL_SIZE i) ≤ x.spillIdx / 65536 then 3
    else 0
  else 0

/-- A site enters count-only at the first entry not logged (R324).
[DEDUCED, assumption 65] -/
def enterCountOnly (i : SiteId) (cause : Nat) (e : FailE) (s : State) : State :=
  let s := ((s.p (K.fr_COUNT_ONLY i) 1).p (K.fr_CO_CAUSE i) cause).p (K.fr_CO_CYCLE i) e.cycle
  let co : FailE := { kind := 2, aux := cause, tset := e.tset, addr := e.addr, cycle := e.cycle }
  (s.modSite i (fun x => { x with coAt := s.now, failFifo := x.failFifo ++ [(x.failIdx, co)], failIdx := x.failIdx + 1 })).raiseSite
    (Src.FAIL_COUNT_ONLY i) i

/-- A failing vector that is not logged counts in LOG_LOST (R325). -/
def logLost (i : SiteId) (es : List FailE) (s : State) : State :=
  if es.any (fun e => e.kind == 0) then s.p (K.fr_LOG_LOST i) (s.g (K.fr_LOG_LOST i) + 1) else s

/-- Entries judged together are offered to the site's FIFO (R324, R325, R330); a PAD entry counts in PAD_RECORDS in any
case.
[DEDUCED, assumption 65] [DESIGN CHOICE, assumption 68] -/
def offer (i : SiteId) (es : List FailE) (s : State) : State :=
  let s := if es.any (fun e => e.kind == 1) then s.cnt32 (K.fr_PAD_RECORDS i) else s
  if s.g (K.fc_LOG_EXTENTS i) = 0 then s
  else if s.b (K.fr_COUNT_ONLY i) then logLost i es s
  else
    match logCause s i es.length, es with
    | 0, _ => s.modSite i (fun x => { x with
        failFifo := x.failFifo ++ (List.range es.length |>.zip es).map (fun q => (x.failIdx + q.1, q.2))
        failIdx := x.failIdx + es.length })
    | cause, e :: _ => logLost i es (enterCountOnly i cause e s)
    | _, [] => s

/-- The entries of the oldest frame that has any enter the FIFO, or the site enters count-only (Table 7.1, R348). -/
def failLogEnqueue (i : SiteId) (s : State) : State :=
  match (s.site i).failPend with
  | [] => s
  | fs :: rest => snapResults i (fs.foldl (fun s es => offer i es s) (s.modSite i (fun x => { x with failPend := rest })))

/-- FAIL_LOG_ENQUEUE. -/
def execFailLogEnqueue (i : SiteId) (s : State) : Host.Outcome State Fault Refusal :=
  .next (s.fresh.timed (failLogEnqueue i))

/-! ### The writer (R322, R331) -/

/-- The writer may take an entry of a site: under SPILL the region keeps its last entry for COUNT_ONLY, and holds the
writer back while it is full. -/
def logWritable (s : State) (i : SiteId) : Bool :=
  match (s.site i).failFifo with
  | [] => false
  | (_, e) :: _ =>
    s.n (K.fc_LOG_FULL_ACTION i) != 2 || decide (s.logHeld i + (if e.kind = 2 then 0 else 1) < s.logCap i)

/-- Writes the first entry of a site's FIFO to its region; under WRAP it may overwrite the oldest (R331), and the lowest readable
index never goes back (R336). Without a region the entry is not written (R330). -/
def writeEntry (i : SiteId) (s : State) : State :=
  let x := s.site i
  match x.failFifo with
  | [] => s
  | (idx, e) :: rest =>
    if s.logCap i = 0 then s.setSite i { x with failFifo := rest } else
    let log := kput x.failLog idx (e.image i idx)
    let cap := s.logCap i
    let wrap := s.n (K.fc_LOG_FULL_ACTION i) == 1 && decide (cap ≤ idx)
    let s := s.setSite i { x with failFifo := rest, failLog := if wrap then kdel log (idx - cap) else log }
    let s := s.p (K.fr_LOG_WRITTEN i) (idx + 1)
    let s := { s with mem := { s.mem with logAt := (s.mem.logAt.filter (fun t => decide (s.now < t + 800000))) ++ [s.now] } }
    if wrap then
      let s := s.p (K.fr_LOG_OLDEST i) (max (s.g (K.fr_LOG_OLDEST i)) (idx + 1 - cap : Nat))
      if (s.site i).wrapRaised then s
      else (s.modSite i (fun x => { x with wrapRaised := true })).raiseSite (Src.LOG_WRAPPED i) i
    else s

/-- LOG_RATE_NOW: MB/s over the last 1 ms, at 32 bytes an entry. -/
def State.logRate (s : State) : Nat := (s.mem.logAt.filter (fun t => decide (s.now < t + 800000))).length * 32 / 1000

/-- One entry from the next site that holds any is written, in ascending site number from the site after the last one served
(R322). -/
def failLogWrite (s : State) : State :=
  let order := (List.range 32).map (fun k => Fin.ofNat 32 (s.mem.logTurn + 1 + k))
  match order.find? (logWritable s) with
  | none => s
  | some i => writeEntry i { s with mem := { s.mem with logTurn := i.val } }

/-- FAIL_LOG_WRITE. -/
def execFailLogWrite (s : State) : Host.Outcome State Fault Refusal :=
  .next (s.fresh.timed failLogWrite)

/-- The oldest whole extent has been copied to the spill area and its HBM extent is free (R332), after the window refills that
are due (R77). -/
def spillExtent (i : SiteId) (s : State) : State :=
  let x := s.site i
  if spillDue s i ∧ allSites.any (refillDue s) = false then
    (s.setSite i { x with spillIdx := x.spillIdx + 65536 }).p (K.fr_SPILLED i) (s.g (K.fr_SPILLED i) + 65536)
  else s

/-- SPILL_EXTENT.
[DESIGN CHOICE, assumption 193] -/
def execSpillExtent (i : SiteId) (s : State) : Host.Outcome State Fault Refusal :=
  .next (s.fresh.timed (spillExtent i))

/-! ### Capture records (R337 to R340, R591) -/

/-- Packs bits into bytes from bit 0 upwards. -/
def packBits : Nat → List Bool → List Byte
  | 0, _ => []
  | n + 1, l => BitVec.ofNat 8 ((List.range 8).foldl (fun a k => if l.getD k false then a + 2 ^ k else a) 0) :: packBits n (l.drop 8)

/-- The bytes of a capture record (Table 7.5). -/
def CapRec.image (r : CapRec) (i : SiteId) : List Byte :=
  let a := r.addr.getD (false, 0, 0)
  let body := toBytes 28 (r.cycle + 2 ^ 48 * (a.2.2 % 2 ^ 48) + 2 ^ 96 * (a.2.1 % 65536) + 2 ^ 112 * b2n a.1 + 2 ^ 113 * i.val
    + 2 ^ 118 * Machine.bits r.dcr 8 5 + 2 ^ 123 * Machine.bits r.dcr 6 2 + 2 ^ 128 * r.bits.length + 2 ^ 144 * (r.seq % 65536))
  let payload := packBits (r.size - 32) r.bits
  body ++ toBytes 4 (crc32c (body ++ payload)) ++ payload

/-- Bytes of a site's capture region. -/
def State.capSize (s : State) (i : SiteId) : Nat := 2097152 * s.n (K.fc_CAP_EXTENTS i)

/-- Appends a record to the capture region, overwriting the oldest under WRAP, or discards it (R339, R340).
[DEDUCED, assumption 66] -/
def captureRegion (i : SiteId) (r : CapRec) (s : State) : State :=
  let off := s.n (K.fr_CAP_WRITTEN i)
  let size := s.capSize i
  if off + r.size ≤ size ∨ (s.n (K.fc_CAP_FULL_ACTION i) = 1 ∧ r.size ≤ size) then
    let pieces := chunks 32 (r.size / 32) (r.image i)
    let oldest := off + r.size - size
    let s := s.modSite i (fun x => { x with
      capMem := ((List.range pieces.length).zip pieces).foldl (fun m q => kput m (off / 32 + q.1) q.2)
        (x.capMem.filter (fun e => decide (oldest ≤ 32 * e.1)))
      capOldest := max x.capOldest oldest })
    s.p (K.fr_CAP_WRITTEN i) (off + r.size : Nat)
  else captureLost i s

/-- Completes the oldest result buffer of a queue with the bytes used (R591). -/
def completeBuf (q : Nat) (s : State) : State :=
  match s.queue? q with
  | some x =>
    match x.bufs with
    | b :: rest => ((s.setQueue q { x with bufs := rest }).toHost b.tag b.packed).complete b.tag Status.OK b.packed.length
    | [] => s
  | none => s

/-- Packs a record behind those of a queue's current result buffer, if it has one (R340). -/
def packInto (q : Nat) (i : SiteId) (c : CapRec) (s : State) : Option State :=
  match s.queue? q with
  | some x =>
    match x.bufs with
    | b :: rest =>
      some (s.setQueue q { x with bufs := { b with packed := b.packed ++ c.image i, records := b.records + 1,
                                                   since := if b.records = 0 then s.now else b.since } :: rest })
    | [] => none
  | none => none

/-- Packs a record into the oldest posted buffer of the site's RESULT queue: none while there is no queue or no buffer.
A buffer in which it does not fit is completed first. -/
def packRecord (i : SiteId) (c : CapRec) (s : State) : Option State :=
  match s.siteQueue i .result with
  | none => none
  | some q =>
    match s.queue? q with
    | some x =>
      match x.bufs with
      | b :: _ => if b.packed.length + c.size ≤ b.size then packInto q i c s else packInto q i c (completeBuf q s)
      | [] => none
    | none => none

/-- The destination of a record is its site's result queue (DEST 01b). -/
def CapRec.toQueue (r : CapRec) : Bool := Machine.bits r.dcr 13 2 == 1

/-- The first record of the capture buffer for a destination leaves it; a full result buffer may be completed though no
other is posted.
[DEDUCED, assumption 64] -/
def captureRecord (i : SiteId) (queue : Bool) (s : State) : State :=
  let x := s.site i
  match x.capPend.find? (fun r => r.toQueue == queue) with
  | none => s
  | some r =>
    let gone (s : State) : State := s.modSite i (fun x => { x with capPend := x.capPend.erase r })
    if queue then
      match packRecord i r s with
      | some s => gone s
      | none =>
        match s.siteQueue i .result with
        | some q =>
          match s.queue? q with
          | some y => (match y.bufs with
                       | b :: _ => if b.packed.length + r.size ≤ b.size then s else completeBuf q s
                       | [] => s)
          | none => s
        | none => s
    else gone (captureRegion i r s)

/-- CAPTURE_RECORD: the oldest record of the site's capture buffer for the capture region, or for the result queue, goes
to its destination (R339). -/
def execCaptureRecord (i : SiteId) (queue : Bool) (s : State) : Host.Outcome State Fault Refusal :=
  .next (s.fresh.timed (captureRecord i queue))

/-- RESULT_BUF: posts a host buffer of a RESULT queue (R591); the completion follows when the buffer is completed. -/
def execResultBuf (t : Tag) (len : Nat) (s : State) : Host.Outcome State Fault Refusal :=
  s.queued t .pcie (.resultBuf t len) fun s =>
  let s := s.fresh
  .next (match s.queue? t.queue with
    | some x => if x.typ = .result then s.setQueue t.queue { x with bufs := x.bufs ++ [{ tag := t, size := len }] }
                else s.refuse t Status.Q_OPCODE
    | none => s)

/-- RESULT_BUF_TIMEOUT: the oldest buffer is completed 100 us after its first record when no further record has arrived, neither in
the buffer nor to wait for it (R591).
[DEDUCED, assumption 67] -/
def execResultBufTimeout (q : QueueId) (s : State) : Host.Outcome State Fault Refusal :=
  s.served .pcie (.resultBufTimeout q) fun s =>
  let s := s.fresh
  .next (match s.queue? q with
    | some x =>
      match x.bufs with
      | b :: _ =>
        if b.records = 1 ∧ b.since + 80000 ≤ s.now ∧
            (match s.queueSite q with | some i => (s.site i).capPend.all (fun r => !r.toQueue) | none => true) = true
        then completeBuf q s else s
      | [] => s
    | none => s)

/-! ### Uploads (R342 to R344, Table 7.6) -/

/-- An uncorrectable error in stored results: raised, and parking no site (R344). -/
def uploadError (deep : Bool) (unit : Fin 4) (s : State) : State :=
  if deep then (s.cnt64 K.ds_DDR5_UE).raise (Src.DDR5_UE unit) else (s.cnt64 K.hs_HBM_UE).raise (Src.HBM_UE unit)

/-- Ends an upload of items of a size: how it ran, and the items in order. -/
def upload (t : Tag) (run : Upload) (size : Nat) (data : List (List Byte)) (unit : Nat) (s : State) : State :=
  match run with
  | .whole => (s.toHost t data.flatten).complete t Status.OK (data.length * unit)
  | .dataError n deep u =>
    let d := data.take (n / size)
    ((uploadError deep u s).toHost t d.flatten).complete t Status.FAIL_DATA_ERROR (d.length * unit)
  | .overwritten n =>
    let d := data.take (n / size)
    (s.toHost t d.flatten).complete t Status.FAIL_GONE (d.length * unit)

/-- FAIL_READ: entries in index order from HBM or the spill area (R342, R343); an entry overwritten while the command runs
arises under WRAP alone. A read of spilled entries is a host command of the mover (R77, item 4). -/
def failRead (t : Tag) (i : SiteId) (first count : Nat) (run : Upload) (s : State) : State :=
  if s.n (K.fr_LOG_WRITTEN i) < first + count ∨ first < s.n (K.fr_LOG_OLDEST i) then (leaveMover (.copy t) s).refuse t Status.FAIL_RANGE
  else if first < (s.site i).logDead then (leaveMover (.copy t) s).refuse t Status.FAIL_DATA_ERROR
  else whenServed (decide (first < (s.site i).spillIdx)) t s fun s =>
    let data := (List.range count).map (fun k => kgetD (s.site i).failLog (first + k) [])
    let run := match run with
      | .overwritten n => if s.n (K.fc_LOG_FULL_ACTION i) = 1 then Upload.overwritten n else .whole
      | r => r
    upload t run 1 data 1 s

/-- FAIL_READ. -/
def execFailRead (t : Tag) (i : SiteId) (first count : Nat) (run : Upload) (s : State) : Host.Outcome State Fault Refusal :=
  s.queued t .timing (.failRead t i first count run) fun s =>
  .next (failRead t i first count run s.fresh)

/-- CAPTURE_READ: bytes of the capture region (R342, R336). -/
def captureRead (t : Tag) (i : SiteId) (offset len : Nat) (run : Upload) (s : State) : State :=
  let x := s.site i
  if s.n (K.fr_CAP_WRITTEN i) < offset + len then s.refuse t Status.FAIL_RANGE
  else if offset < x.capOldest ∨ offset < x.capGone then s.refuse t Status.FAIL_GONE
  else
    if offset < x.capDead then s.refuse t Status.FAIL_DATA_ERROR else
    let data := (List.range (len / 32)).map (fun k => kgetD x.capMem (offset / 32 + k) [])
    let run := match run with
      | .overwritten n => if s.n (K.fc_CAP_FULL_ACTION i) = 1 then Upload.overwritten n else .whole
      | r => r
    upload t run 32 data 32 s

/-- CAPTURE_READ. -/
def execCaptureRead (t : Tag) (i : SiteId) (offset len : Nat) (run : Upload) (s : State) : Host.Outcome State Fault Refusal :=
  s.queued t .timing (.captureRead t i offset len run) fun s =>
  .next (captureRead t i offset len run s.fresh)

end Sys2Proof.Machine
end

