-- ==== Sys2Proof/Machine/Calibration.lean ====
section
/-! DEFINITION. Native, live and legacy calibration (chapter 10). What the TMUs and the level monitor measure is an operand
of the rows. -/
namespace Sys2Proof.Machine
open Sys2Proof

/-! ### Common parts -/

/-- The channels of a bank. -/
def bankChans (b : BankId) : List ChanId := allChans.filter (fun c => bankOf c == b)
/-- The TMU of a bank. -/
def bankTmu (b : BankId) : TmuId := ⟨b.val, by omega⟩
/-- Spar k of a bank. -/
def bankSpar (b : BankId) (k : Fin 2) : SparId := ⟨2 * b.val + k.val, by omega⟩
/-- The site of a channel is ARMED, RUNNING or PAUSED. -/
def chanActive (s : State) (c : ChanId) : Bool := unitInUse s (.chan c)
/-- The magnitude of an integer. -/
def iabs (v : Int) : Int := v.natAbs
/-- Limits a value to ±m. -/
def clampTo (m v : Int) : Int := max (-m) (min v m)
/-- T_b: the mean of a bank's three thermal sensors (R450).
[DESIGN CHOICE, assumption 221] -/
def bankTemp (s : State) (b : BankId) : Int := meanOf ((List.range 3).map (fun j => s.g (K.th_TEMP (3 * b.val + j))))

/-- SCLK in 3,600 s. -/
def hourSclk : Nat := 2880000000000
/-- COMMITS_HOUR: the controller's transactions of the last 3,600 s that wrote P or S objects (R465). -/
def State.commitsHour (s : State) : Nat := (s.cal.commits.filter (fun t => decide (s.now < t + hourSclk))).length
/-- The commit budget allows a transaction now (R465). -/
def budgetOk (s : State) : Bool := decide (s.commitsHour < s.n K.cl_COMMIT_BUDGET)
/-- A transaction of the controller is in progress in a bank. -/
def calPending (s : State) (b : BankId) : Bool := s.jobs (fun j => j.bank == some b)
/-- The controller may publish these objects now: they are open to a transaction, and one more transaction of P or S objects
keeps within the budget (R465). -/
def mayPublish (s : State) (keys : List Nat) : Bool := openKeys s keys && (keys.all (fun k => perOf k == .V) || budgetOk s)
/-- The objects that a transaction of the device itself writes. -/
def Txn.keys (x : Txn) : List Nat := x.staged.map Prod.fst
/-- A transaction of the controller is committed, and counted where it writes P or S objects. -/
def calPublish (x : Txn) (s : State) : State :=
  let s := s.publishTxn x
  if x.journalled then { s with cal := { s.cal with commits := s.cal.commits ++ [s.now] } } else s
/-- The controller publishes the values that objects have in a changed state (R17, R447); while it may not, the transaction waits
(R465).
[DESIGN CHOICE, assumption 90] -/
def calCommit (job : CalJob) (kind : Nat) (sites : SiteMask) (keys : List Nat) (t s : State) : State :=
  let x := devTxn job kind sites keys t
  let s := { s with free := t.free }
  if mayPublish s keys then calPublish x s else { s with cal := { s.cal with held := s.cal.held ++ [x] } }
/-- The bit of SEAL_SCOPE that covers a sealed object (R473, R474). -/
def scopeBit (key : Nat) : Nat :=
  let idx := key / 256
  if 0x3100 ≤ idx ∧ idx < 0x3200 then (idx - 0x3100) / 32
  else if 0x5440 ≤ idx ∧ idx < 0x5500 then (idx - 0x5440) / 24
  else 8

/-- An open session covers every sealed object of a list (R473). -/
def sealCovers (s : State) (keys : List Nat) : Bool :=
  keys.all (fun k => accOf k != .sealed || (sealOpen s && (s.n K.sk_SEAL_SCOPE).testBit (scopeBit k)))

/-- The offset in force of an element from its device delay (R435). -/
def offsetOf (k : Nat) (d out outDe : Int) : Int :=
  if k < 4 then 7500000 - d - out else if k < 6 then 7500000 - d - outDe else 7500000 + d - out
/-- The device delay that an offset in force came from. -/
def delayOf (k : Nat) (ofs out outDe : Int) : Int :=
  if k < 4 then 7500000 - ofs - out else if k < 6 then 7500000 - ofs - outDe else ofs + out - 7500000
/-- The elements of an engine. -/
def elems : List Nat := List.range 10
/-- The objects of a channel that a publication writes (R447, R460). -/
def chanKeys (c : ChanId) : List Nat :=
  elems.map (fun k => K.cc_OFS c k) ++
  [K.cc_RT c, K.cc_RT_DE c, K.cc_RET c, K.cc_OUT c, K.cc_OUT_DE c, K.cc_CAL_TEMP c, K.cc_CAL_TIME c, K.cc_CAL_COUNT c,
   K.cc_CAL_KIND c, K.cc_LAST_DELTA c, K.cc_LIN c]

/-- An offset of a channel of an active site that changes by more than 2,500 fs (R247). -/
def offsetStep (before after : State) (active : ChanId → Bool) (keys : List Nat) : Option Nat :=
  keys.find? (fun k => decide (0x3100 ≤ k / 256) && decide (k / 256 < 0x3200) && decide (1 ≤ k % 256) && decide (k % 256 ≤ 10) &&
    active (Fin.ofNat 256 (k / 256 - 0x3100)) && decide (2500 < iabs (after.g k - before.g k)))

/-- Writes the offsets of a channel; LAST_DELTA is the largest change. -/
def putOffsets (c : ChanId) (o : List Int) (s : State) : State :=
  let delta := elems.foldl (fun (m : Int) k => max m (iabs ((o.getD k 0) - s.g (K.cc_OFS c k)))) 0
  (elems.foldl (fun (s : State) k => s.p (K.cc_OFS c k) (o.getD k 0)) s).p (K.cc_LAST_DELTA c) delta

/-- Records the kind, the temperature and the time of a channel's calibration (R470). -/
def recordKind (c : ChanId) (kind : Nat) (temp : Int) (s : State) : State :=
  ((s.p (K.cc_CAL_TEMP c) temp).p (K.cc_CAL_TIME c) s.utc).p (K.cc_CAL_KIND c) kind
/-- Records a completed native or live calibration of a channel, which is counted (R447, R460).
[DEDUCED, assumption 89] -/
def recordCal (c : ChanId) (kind : Nat) (temp : Int) (s : State) : State :=
  (recordKind c kind temp s).cnt32 (K.cc_CAL_COUNT c)

/-- Both spars of a bank are substitutes: its live calibration is suspended (R39). -/
def sparsTaken (s : State) (b : BankId) : Bool :=
  s.g (K.sp_SPAR_STATE (bankSpar b 0)) == 5 && s.g (K.sp_SPAR_STATE (bankSpar b 1)) == 5
/-- A native run works in the bank (R445). -/
def nativeHolds (s : State) (b : BankId) : Bool := match s.cal.native with | some n => n.left.testBit b.val | none => false
/-- The bank's calibration does not run: it is suspended, its TMU is retired (Table 16.5), or a native run works in it. -/
def bankHeld (s : State) (b : BankId) : Bool := sparsTaken s b || retired s (.tmu (bankTmu b)) || nativeHolds s b
/-- The bank's live calibration does not run, for want of the references too (R439). -/
def liveHeld (s : State) (b : BankId) : Bool := bankHeld s b || s.cal.refLost
/-- A channel takes part in the calibration that LIVE_MODE names, live or legacy (R449, R469). -/
def takesPart (s : State) (c : ChanId) : Bool :=
  s.b (K.cc_CAL_ENABLE c) && s.g (K.cc_CAL_KIND c) != 0 && !bankHeld s (bankOf c)
/-- A channel is eligible for live calibration (R449). -/
def eligibleChan (s : State) (c : ChanId) : Bool := s.g K.cl_LIVE_MODE == 1 && takesPart s c

/-- CAL_STATE: 0 IDLE, 1 NATIVE, 2 LIVE, 3 SUSPENDED. -/
def putCalState (s : State) : State :=
  s.p K.cl_CAL_STATE (if s.cal.native.isSome then 1 else if s.g K.cl_LIVE_MODE = 0 then 0 else if s.cal.refLost then 3 else 2)

/-- The bank calibrates something. -/
def CalBank.busy (k : CalBank) : Bool := k.cur.isSome || k.unit.isSome || k.legacy.isSome
/-- Something is queued in the bank. -/
def CalBank.waits (k : CalBank) : Bool := k.tmu || !k.spars.isEmpty || !k.liveNow.isEmpty || !k.queue.isEmpty
/-- QUEUED: channels and units queued. -/
def CalBank.queued (k : CalBank) : Nat := b2n k.tmu + k.spars.length + k.liveNow.length + k.queue.length

/-- The bank's work measures with its TMU: not while it waits for an eave point (Table 10.4). -/
def CalBank.measures (k : CalBank) : Bool :=
  k.unit.isSome || k.legacy.isSome ||
    (match k.cur with | some w => w.phase == 0 || w.phase == 2 || w.phase == 4 || w.phase == 5 | none => false)
/-- The bank's measurement needs no reference: a legacy pass, or a channel in RETURN (R439, R464). -/
def CalBank.freeOfRefs (k : CalBank) : Bool := k.legacy.isSome || (match k.cur with | some w => w.phase == 5 | none => false)
/-- The bank measures now: it is not suspended, the references stand where it needs them, and none of its results waits to be
published. -/
def measuresNow (s : State) (b : BankId) : Bool :=
  let k := s.calBank b
  k.measures && !bankHeld s b && (!s.cal.refLost || k.freeOfRefs) && !calPending s b
/-- Live calibration of the bank could take up queued work. -/
def couldStart (s : State) (b : BankId) : Bool :=
  let k := s.calBank b
  s.g K.cl_LIVE_MODE == 1 && !liveHeld s b && !k.busy && k.waits
/-- Calibration may use the bank TMU: no user arming of it is in progress, or the one that is waits for the block (R426, R428). -/
def tmuFree (s : State) (b : BankId) : Bool :=
  !s.tmuBusy (bankTmu b) || (s.tst (bankTmu b) == TS.waitCal && (s.calBank b).firm)

/-- A measurement block of a bank stands: its TMU is locked (R528), no self-test has taken the bank's TMU and spars (R708), and
calibration may use the TMU (R426 to R428).
[DEDUCED, assumption 217] -/
def blockStands (s : State) (b : BankId) : Bool := s.b (K.tt_LOCKED (bankTmu b)) && !testTakes s b && tmuFree s b

/-- Calibration gives a TMU up: an arming that waits proceeds in ARMED (R427). -/
def releaseTmu (u : TmuId) (s : State) : State :=
  let s := s.p (K.tt_CAL_HOLD u) 0
  if s.tst u = TS.waitCal then
    let s := waitEnds u s
    (s.p (K.tt_STATE u) TS.armed).setTmu u { s.tmu u with startAt := s.now }
  else s

/-- TMU_CAL_RELEASE: within 1 us of a user arming calibration gives the TMU up, and its block, of which nothing is kept, is
repeated in full (R47, R427); an arming that waits for a block of the minimum share or of a promoted bank waits for 200 us at
most (R428). -/
def execTmuCalRelease (u : TmuId) (s : State) : Host.Outcome State Fault Refusal :=
  .next (s.fresh.timed (fun s =>
    let firm : Bool := if h : u.val < 8 then (s.calBank ⟨u, h⟩).firm else false
    if s.tst u ≠ TS.waitCal ∨ (firm = true ∧ s.now < (s.tmu u).waitAt + 160000) then s
           else
             let s := releaseTmu u s
             if h : u.val < 8 then s.setCalBank ⟨u, h⟩ { s.calBank ⟨u, h⟩ with firm := false } else s))

/-- CAL_STATUS of a channel. -/
def calStatus (c : ChanId) (v : Nat) (s : State) : State := s.p (K.cc_CAL_STATUS c) v

/-! ### References (R438 to R440) -/

/-- CALREF and CALV, as measured in mHz and uV, lie within 100 ppm and 1 % of their registrations (R439). -/
def refsOk (s : State) (fm vm : Nat) : Bool :=
  decide (iabs (((fm : Int) - s.g K.tf_TREF_FREQ)) * 10000 ≤ s.g K.tf_TREF_FREQ) &&
  decide (iabs (((vm : Int) - s.g K.vf_VREF_VALUE)) * 100 ≤ s.g K.vf_VREF_VALUE)

/-- Why a reference cannot be used (R438): its identity, its due date. -/
def refStatus (s : State) (ident due : Nat) : Nat :=
  if s.blob ident = [] then Status.CAL_NO_REF
  else if s.g due = 0 then Status.OK
  else if s.b K.utc_UTC_SET = false then Status.CAL_NO_UTC
  else if s.n due < s.utc then Status.CAL_REF_EXPIRED
  else Status.OK

/-- A channel in MEASURE keeps its published offsets and goes on to RETURN; one in RETURN goes on (R464). -/
def cutSwap (b : BankId) (w : Swap) (s : State) : State :=
  let s := match w.spar with | some p => s.p (K.sp_SPAR_STATE p) 4 | none => s
  calStatus w.chan 3 (s.setCalBank b { s.calBank b with cur := some { w with phase := 5, cut := true } })

/-- The references are lost: live calibration of every bank is suspended (R439, R464). -/
def refLost (s : State) : State :=
  let s := { s with cal := { s.cal with refLost := true } }
  let s := allBanks.foldl (fun (s : State) b =>
    match (s.calBank b).cur with
    | some w => if w.phase = 4 ∨ w.phase = 5 then cutSwap b w s else s
    | none => s) s
  putCalState (s.activate Src.CALREF_LOST 0 0)

/-- What CALREF and CALV measure, in mHz and uV.
[DESIGN CHOICE, assumption 222] -/
def refMeasured (fm vm : Nat) (s : State) : State := { s with cal := { s.cal with refNow := some (fm, vm) } }
/-- The references as last measured stand (R439).
[DESIGN CHOICE, assumption 222] -/
def refsStand (s : State) : Bool := match s.cal.refNow with | some q => refsOk s q.1 q.2 | none => true
/-- Before a live block begins in a bank the references are measured: one in doubt is not begun (R439).
[DESIGN CHOICE, assumption 222] -/
def refCheck (b : BankId) (s : State) : State :=
  if s.cal.refLost = false ∧ measuresNow s b ∧ (s.calBank b).legacy = none ∧ refsStand s = false then refLost s else s

/-- CALREF_RECOVERED: CALREF has passed the check for 1 s (R439). -/
def execCalrefRecovered (s : State) : Host.Outcome State Fault Refusal :=
  .next (s.fresh.timed (fun s => putCalState (({ s with cal := { s.cal with refLost := false } }).deactivate Src.CALREF_LOST)))

/-! ### Who holds a TMU (R426 to R428, R439) -/

/-- A block of a bank completes: the share that was due is taken, an arming that waited for it proceeds (R428), and before the next
block the references are measured. -/
def blockEnds (b : BankId) (s : State) : State :=
  let s := s.setCalBank b { s.calBank b with firm := false, owed := false, deniedAt := none }
  refCheck b (if s.tst (bankTmu b) = TS.waitCal then releaseTmu (bankTmu b) s else s)

/-- What a bank without a measurement holds: its TMU while a native run works in it, and an arming that waited for a block proceeds. -/
def idleTmu (b : BankId) (s : State) : State :=
  let u := bankTmu b
  let k := s.calBank b
  let s := if k.firm || (k.deniedAt.isSome && !couldStart s b) then
      s.setCalBank b { k with firm := false, deniedAt := if couldStart s b then k.deniedAt else none } else s
  let s := if s.tst u = TS.waitCal then releaseTmu u s else s
  if s.b (K.tt_CAL_HOLD u) = nativeHolds s b then s else s.p (K.tt_CAL_HOLD u) (b2i (nativeHolds s b))

/-- Calibration holds the bank TMU while it measures and no user arming is in progress (R426). A block that begins after 10 s of
denial, or after a completed user arming of a promoted bank, is one that a user arming waits for (R43, R44, R428); while a user
arming is in progress, work that needs the TMU is denied. A native run holds the TMUs of its banks.
[DEDUCED, assumption 210] -/
def holdTmu (b : BankId) (s : State) : State :=
  let u := bankTmu b
  if tmuFree s b = false then
    let k := s.calBank b
    let d := if measuresNow s b || couldStart s b then some (k.deniedAt.getD s.now) else none
    if k.deniedAt = d then s else s.setCalBank b { k with deniedAt := d }
  else if measuresNow s b = false then idleTmu b s
  else if s.b (K.tt_CAL_HOLD u) then s
  else
    let s := refCheck b s
    if measuresNow s b = false then idleTmu b s
    else (s.p (K.tt_CAL_HOLD u) 1).setCalBank b { s.calBank b with firm := blockFirst s b }

/-! ### The queue of a bank (R450 to R454) -/

/-- The larger of two queued channels: by temperature difference, then by age, then by number (R451). -/
def earlier (s : State) (b : BankId) (x y : Nat) : Nat :=
  let d (c : Nat) : Int := iabs (s.g (K.cb_BANK_TEMP b) - s.g (K.cc_CAL_TEMP c))
  if d x < d y then y else if d y < d x then x
  else if s.g (K.cc_CAL_TIME x) < s.g (K.cc_CAL_TIME y) then x
  else if s.g (K.cc_CAL_TIME y) < s.g (K.cc_CAL_TIME x) then y
  else min x y
/-- Inserts a channel in the order in which the bank's queue is served. -/
def insertCal (s : State) (b : BankId) (x : Nat) : List Nat → List Nat
  | [] => [x]
  | y :: r => if earlier s b x y = x then x :: y :: r else y :: insertCal s b x r
/-- The channels of a bank in the order in which they are served. -/
def CalBank.order (s : State) (b : BankId) (k : CalBank) : List Nat :=
  k.liveNow ++ k.queue.foldl (fun l x => insertCal s b x l) []

/-- A spar meets the temperature of R452. -/
def sparFit (s : State) (b : BankId) (p : SparId) : Bool :=
  decide (2 * iabs (s.g (K.cb_BANK_TEMP b) - s.g (K.sp_SPAR_CAL_TEMP p)) ≤ s.g K.cl_TEMP_TRIGGER)
/-- The spars of a bank that are FREE. -/
def freeSpars (s : State) (b : BankId) : List (Fin 2) :=
  [0, 1].filter (fun (k : Fin 2) => s.g (K.sp_SPAR_STATE (bankSpar b k)) == 0)

/-- Takes a channel out of the queues. -/
def CalBank.drop (k : CalBank) (c : Nat) : CalBank := { k with liveNow := k.liveNow.erase c, queue := k.queue.erase c }

/-- A channel's calibration begins: directly, or through a spar in PRELOAD (R453, R454). -/
def beginChan (b : BankId) (c : ChanId) (p : Option SparId) (s : State) : State :=
  let k := (s.calBank b).drop c.val
  let s := calStatus c 2 s
  match p with
  | none => s.setCalBank b { k with cur := some { chan := c, spar := none, phase := 0 } }
  | some p =>
    let s := ((s.p (K.sp_SPAR_STATE p) 2).p (K.sp_SPAR_CHAN p) c.val).zero [K.sp_TRIM_DD p, K.sp_TRIM_DE p, K.sp_ALIGN_SKIP p]
    s.setCalBank b { k with cur := some { chan := c, spar := some p, phase := 1 } }

/-- The first channel of a list whose turn can come: a channel of an active site needs a FREE spar that meets R452; one that is
no longer eligible leaves the queue (R449).
[DESIGN CHOICE, assumption 92] -/
def beginFirst (b : BankId) (l : List Nat) (s : State) : State :=
  match l with
  | [] => s
  | x :: r =>
    let c : ChanId := Fin.ofNat 256 x
    if eligibleChan s c = false then beginFirst b r (calStatus c 0 (s.setCalBank b ((s.calBank b).drop x)))
    else if chanActive s c then
      match (freeSpars s b).find? (fun k => sparFit s b (bankSpar b k)) with
      | some k => if s.cal.barred.contains x then beginFirst b r s else beginChan b c (some (bankSpar b k)) s
      | none => beginFirst b r s
    else beginChan b c none s

/-- FREE spars that R452 does not allow for a swap are queued when a channel needs one. -/
def queueUnfit (b : BankId) (s : State) : State :=
  let k := s.calBank b
  let need := (k.liveNow ++ k.queue).any (fun x => chanActive s (Fin.ofNat 256 x))
  if need then
    let add := (freeSpars s b).filter (fun j => !sparFit s b (bankSpar b j) && !k.spars.contains j.val)
    s.setCalBank b { k with spars := k.spars ++ add.map (fun j => j.val) }
  else s

/-- The bank can take up work: live calibration runs, nothing is in calibration, something is queued, and calibration may use the TMU
(R426, R449, R451). -/
def startsWork (s : State) (b : BankId) : Bool := couldStart s b && tmuFree s b

/-- The bank takes up its next work when it can, in the order of R451; with the references in doubt, none (R439).
[DESIGN CHOICE, assumption 92] -/
def calNext (b : BankId) (s : State) : State :=
  if startsWork s b = false then holdTmu b s
  else if refsStand s = false then holdTmu b (refLost s)
  else
    let s := queueUnfit b s
    let k := s.calBank b
    let s :=
      if k.tmu then s.setCalBank b { k with tmu := false, unit := some (true, 0), blocks := 0 }
      else
        match k.spars.find? (fun j => s.g (K.sp_SPAR_STATE (bankSpar b (Fin.ofNat 2 j))) == 0) with
        | some j =>
          (s.p (K.sp_SPAR_STATE (bankSpar b (Fin.ofNat 2 j))) 1).setCalBank b { k with spars := k.spars.erase j, unit := some (false, j), blocks := 0 }
        | none => beginFirst b (k.order s b) s
    holdTmu b s

/-- DENIED in fs (R468). -/
def State.denied (s : State) (b : BankId) : Int := (deniedSclk s b : Int) * 1250000

/-- A temperature or age test against a calibration record (R450). -/
def stale (s : State) (b : BankId) (temp time : Int) : Bool :=
  decide (s.g K.cl_TEMP_TRIGGER ≤ iabs (s.g (K.cb_BANK_TEMP b) - temp)) ||
    (s.g K.cl_MAX_AGE != 0 && decide (time + s.g K.cl_MAX_AGE * 3600000 ≤ (s.utc : Int)))

/-- A channel is queued unless it is queued or in calibration already, or barred from a swap that it would need (R461). -/
def queueChan (b : BankId) (c : ChanId) (s : State) : State :=
  let k := s.calBank b
  if k.queue.contains c.val || k.liveNow.contains c.val || (match k.cur with | some w => w.chan == c | none => false) ||
     (s.cal.barred.contains c.val && chanActive s c) then s
  else calStatus c 1 (s.setCalBank b { k with queue := k.queue ++ [c.val] })

/-- The largest temperature difference of the channels of a bank that take part in calibration (R468). -/
def maxDiff (s : State) (b : BankId) : Int :=
  ((bankChans b).filter (takesPart s)).foldl (fun (m : Int) (c : ChanId) => max m (iabs (s.g (K.cb_BANK_TEMP b) - s.g (K.cc_CAL_TEMP c)))) 0

/-- SUSPENDED and CAL_SUSPENDED hold while both spars of the bank are substitutes (R39, R468). -/
def suspendReport (b : BankId) (s : State) : State :=
  if s.b (K.cb_SUSPENDED b) = sparsTaken s b then s
  else if sparsTaken s b then (s.p (K.cb_SUSPENDED b) 1).activate (Src.CAL_SUSPENDED b) 0 0
  else (s.p (K.cb_SUSPENDED b) 0).deactivate (Src.CAL_SUSPENDED b)

/-- TMUs 8 and 9 are held by a native run with part TMU, while no user arming is in progress (R426, R443). -/
def holdHigh (u : TmuId) (s : State) : State :=
  let need := (match s.cal.native with | some n => n.parts.testBit 0 | none => false) && !s.tmuBusy u
  if s.b (K.tt_CAL_HOLD u) = need then s else s.p (K.tt_CAL_HOLD u) (b2i need)

/-- The bank's largest temperature difference and its promotion (R44, R468).
[DESIGN CHOICE, assumption 93] -/
def bankReports (b : BankId) (s : State) : State :=
  let d := maxDiff s b
  let s := s.p (K.cb_BANK_MAX_DIFF b) d
  if 8000 < d ∧ s.g K.cl_LIVE_MODE ≠ 0 then (s.p (K.cb_PROMOTED b) 1).activate (Src.CAL_PROMOTED b) 0 0
  else if d ≤ 2000 ∧ s.b (K.cb_PROMOTED b) then (s.p (K.cb_PROMOTED b) 0).deactivate (Src.CAL_PROMOTED b)
  else s

/-! ### The tick of the controller -/

/-- The bank temperature is one of those of MEASURE, of which CAL_TEMP is the mean (R460).
[DESIGN CHOICE, assumption 221] -/
def measureTemp (b : BankId) (s : State) : State :=
  match (s.calBank b).cur with
  | some w =>
    if w.phase = 4 then
      s.setCalBank b { s.calBank b with cur := some { w with tempSum := w.tempSum + s.g (K.cb_BANK_TEMP b), temps := w.temps + 1 } }
    else s
  | none => s
/-- The mean T_b over MEASURE.
[DESIGN CHOICE, assumption 221] -/
def Swap.temp (w : Swap) (s : State) (b : BankId) : Int :=
  if w.temps = 0 then s.g (K.cb_BANK_TEMP b) else (2 * w.tempSum + w.temps) / (2 * w.temps)

/-- A legacy pass of a bank begins, with a TMU that no user arming holds (R426, R469); otherwise the channel that asked for it waits.
[DEDUCED, assumption 223] -/
def legacyBegin (b : BankId) (want : List Nat) (s : State) : State :=
  let k := s.calBank b
  if k.legacy.isSome ∨ k.go ≠ [] ∨ bankHeld s b ∨ s.tmuBusy (bankTmu b) then s.setCalBank b { k with liveNow := want }
  else s.setCalBank b { k with legacy := some [], liveNow := [] }

/-- One bank at a tick: its temperature, its reports, its queue (R450); in the legacy mode a pass begins (R469). Nothing of a bank
whose clock is gated is queued (R528). While a channel is in MEASURE its temperatures are kept (R460).
[DESIGN CHOICE, assumption 93] [DEDUCED, assumption 215] -/
def tickBank (b : BankId) (s : State) : State :=
  let s := bankReports b (s.p (K.cb_BANK_TEMP b) (bankTemp s b))
  let s := measureTemp b s
  let due := (bankChans b).filter (fun c => takesPart s c && stale s b (s.g (K.cc_CAL_TEMP c)) (s.g (K.cc_CAL_TIME c)))
  if gateOn s b.val = false then s
  else if s.g K.cl_LIVE_MODE = 1 then
    let s := due.foldl (fun s c => queueChan b c s) s
    let k := s.calBank b
    let k := if stale s b (s.g (K.cb_TMU_CAL_TEMP b)) (s.g (K.cb_TMU_CAL_TIME b)) && k.unit != some (true, 0) then { k with tmu := true } else k
    let add := (freeSpars s b).filter (fun j =>
      stale s b (s.g (K.sp_SPAR_CAL_TEMP (bankSpar b j))) (s.g (K.sp_SPAR_CAL_TIME (bankSpar b j))) && !k.spars.contains j.val)
    s.setCalBank b { k with spars := k.spars ++ add.map (fun j => j.val) }
  else if s.g K.cl_LIVE_MODE = 2 ∧ (due ≠ [] ∨ (s.calBank b).liveNow ≠ []) then legacyBegin b (s.calBank b).liveNow s
  else s

/-- The references are measured, and the bank takes up work (R439). -/
def calStart (b : BankId) (fm vm : Nat) (s : State) : State := calNext b (refMeasured fm vm s)

/-- A voltage DAC is read at its present output during a pass, live or legacy: an error in 1/16 LSB above 1 LSB corrects its offset
trim, by at most 2 LSB a transaction (R467).
[DESIGN CHOICE, assumption 85] -/
def trimLevel (d : DacId) (err : Int) (s : State) : State :=
  let key := K.lt_OFFSET_TRIM d
  if s.b K.cl_LIVE_LEVELS ∧ s.g K.cl_LIVE_MODE ≠ 0 ∧ liveHeld s (Fin.ofNat 8 (dacBank d)) = false ∧ isCurrent d = false ∧
      16 < iabs err ∧ s.jobs (fun j => j == .level d) = false then
    calCommit (.level d) 0 0 [key] (s.p key (s.g key + clampTo 32 err)) s
  else s

/-- CAL_TICK: every 100 ms, with the voltage DACs that the pass reads and what the references measure (R439, R450, R467, R468). -/
def execCalTick (refs : RefMeas) (dacs : List (DacId × Int)) (s : State) : Host.Outcome State Fault Refusal :=
  .next (s.fresh.timed (fun s =>
    let s := refMeasured refs.freq refs.volt (allBanks.foldl (fun s b => tickBank b s) s)
    let s := allBanks.foldl (fun s b => calNext b s) s
    putCalState (dacs.foldl (fun s e => trimLevel e.1 e.2 s) s)))

/-! ### Native calibration (R442 to R448, R472) -/

/-- The banks of a mask. -/
def banksOf (m : Nat) : List BankId := allBanks.filter (fun b => m.testBit b.val)
/-- The first status that is not 0000h. -/
def firstStatus (l : List Nat) : Nat := (l.find? (· != 0)).getD 0

/-- Why a native command is refused (R438, R439, R442, R444, R472, R737); 0000h when it is accepted.
[DEDUCED, assumption 82] -/
def nativeCheck (s : State) (parts banks fm vm : Nat) : Nat :=
  let bs := banksOf banks
  let part (k : Nat) : Bool := parts.testBit k
  let busy := s.cal.native.isSome ||
    bs.any (fun b => (bankChans b).any (fun c => chanActive s c) || s.g (K.tmo_OWNER b) != 0xFF) ||
    (part 0 && (s.g (K.tmo_OWNER 8) != 0xFF || s.g (K.tmo_OWNER 9) != 0xFF))
  let order := (part 1 && !part 0 && bs.any (fun b => s.g (K.cb_TMU_CAL_TIME b) == 0)) ||
    ((part 2 || part 3) && bs.any (fun b => (bankChans b).any (fun c => s.g (K.cc_CAL_KIND c) == 0)))
  firstStatus [
    if busy then Status.CAL_BUSY else 0,
    if part 5 && pfw s then Status.PWR_LOW else 0,
    if part 0 || part 1 || part 3 then refStatus s K.tf_TREF_ID K.tf_TREF_DUE else 0,
    if part 4 then refStatus s K.vf_VREF_ID K.vf_VREF_DUE else 0,
    if part 5 && !s.b K.utc_UTC_SET then Status.CAL_NO_UTC else 0,
    if order then Status.CAL_ORDER else 0,
    if part 5 && !(sealOpen s && (banks &&& s.n K.sk_SEAL_SCOPE % 256) == banks) then Status.SEAL_CLOSED else 0,
    if parts % 32 != 0 && !refsOk s fm vm then Status.CAL_REF_ABSENT else 0]

/-- A native run leaves a bank: its channels' lanes stand in slath state again, its TMU is given up. -/
def nativeLeaves (n : NativeRun) (b : BankId) (s : State) : State :=
  let s := holdTmu b s
  if drivesLanes n.parts then s.emit (.calLanes b false) else s

/-- NATIVE: its status and effect (R442, R445).
[DESIGN CHOICE, assumption 83] -/
def nativeCmd (parts banks fm vm : Nat) (s : State) : State :=
  let st := nativeCheck s parts banks fm vm
  let s := s.p K.cl_CAL_LAST_STATUS st
  if st ≠ 0 then s
  else
    let s := { s with cal := { s.cal with native := some { parts := parts, banks := banks, left := banks } } }
    let s := holdHigh 9 (holdHigh 8 s)
    putCalState ((banksOf banks).foldl (fun s b =>
      let s := holdTmu b (calClear b s)
      if drivesLanes parts then s.emit (.calLanes b true) else s) s)

/-- NATIVE. -/
def execNative (parts : BitVec 6) (banks : BitVec 8) (fm vm : Nat) (s : State) : Host.Outcome State Fault Refusal :=
  s.served .timing (.native parts banks fm vm) fun s =>
  .next (nativeCmd parts.toNat banks.toNat fm vm s.fresh)

/-- A native run ends. -/
def nativeEnd (s : State) : State :=
  match s.cal.native with
  | none => s
  | some n =>
    let s := (banksOf n.left).foldl (fun s b => nativeLeaves n b s) { s with cal := { s.cal with native := none } }
    putCalState (holdHigh 9 (holdHigh 8 s))

/-- NATIVE_ABORT: the run ends after the measurement in progress (R448).
[DEDUCED, assumption 84] -/
def nativeAbort (s : State) : State :=
  match s.cal.native with
  | some n => ({ s with cal := { s.cal with native := some { n with aborted := true } } }).p K.cl_CAL_LAST_STATUS Status.OK
  | none => s.p K.cl_CAL_LAST_STATUS Status.OK

/-- NATIVE_ABORT. -/
def execNativeAbort (s : State) : Host.Outcome State Fault Refusal :=
  s.served .timing (.nativeAbort) fun s =>
  .next (nativeAbort s.fresh)

/-- The adjacent settings of a linearity table, 10 elements of 641 entries: a step above 125 fs, or a table of another length
(R250, R446).
[DEDUCED, assumption 86] -/
def finesBad (lin : List Byte) : Bool :=
  lin.length != 25640 || (chunks 2564 10 lin).any (fun e =>
    let t := (chunks 4 641 e).map leNat
    (t.zip (t.drop 1)).any (fun q => decide (q.1 + 125 < q.2)))

/-- The new board delays and offsets of a channel after the parts of a run (R435, R436, R446): RT, RT_DE, RET and offsets;
none when the channel fails. RETURN measures from the CALREF edge at its ball to the PE_CH transition, the fixture's delay
included (Table 10.3). -/
def nativeChan (s : State) (parts : Nat) (c : ChanId) (m : ChanMeas) : Option ((Int × Int × Int) × List Int) :=
  let part (k : Nat) : Bool := parts.testBit k
  let bad := (part 1 && (m.d.length != 10 || finesBad m.lin)) || (part 2 && (m.rt.isNone || m.rtDe.isNone)) || (part 3 && m.ret.isNone)
  if bad then none
  else
    let rt := if part 2 then m.rt.getD 0 else s.g (K.cc_RT c)
    let rtDe := if part 2 then m.rtDe.getD 0 else s.g (K.cc_RT_DE c)
    let ret := if part 3 then m.ret.getD 0 - s.g K.tf_FIXTURE_DELAY else s.g (K.cc_RET c)
    let d (k : Nat) : Int := if part 1 then m.d.getD k 0 else delayOf k (s.g (K.cc_OFS c k)) (s.g (K.cc_OUT c)) (s.g (K.cc_OUT_DE c))
    let o := elems.map (fun k => offsetOf k (d k) (rt - ret) (rtDe - ret))
    if o.any (fun v => decide (v < 0) || decide (20000000 < v)) then none else some ((rt, rtDe, ret), o)

/-- The measurement of a channel in a run's results. -/
def measOf (r : BankMeas) (c : ChanId) : ChanMeas := (r.chans.find? (fun m => m.chan == c)).getD { chan := c }

/-- Records the native results of a channel (R447). -/
def nativePut (parts : Nat) (temp : Int) (c : ChanId) (m : ChanMeas) (v : (Int × Int × Int) × List Int) (s : State) : State :=
  let (rt, rtDe, ret) := v.1
  let s := ((s.p (K.cc_RT c) rt).p (K.cc_RT_DE c) rtDe).p (K.cc_RET c) ret
  let s := (s.p (K.cc_OUT c) (rt - ret)).p (K.cc_OUT_DE c) (rtDe - ret)
  let s := if parts.testBit 1 then s.putBlob (K.cc_LIN c) m.lin else s
  recordCal c 1 temp (putOffsets c v.2 s)

/-- Records the device delays of a spar (Table 10.1).
[DEDUCED, assumption 86] -/
def putSpar (b : BankId) (m : SparMeas) (temp : Int) (s : State) : State :=
  let p := bankSpar b m.spar
  let s := elems.foldl (fun (s : State) k => s.p (K.sp_SPAR_DELAY p k) (m.d.getD k 0)) s
  (s.p (K.sp_SPAR_CAL_TEMP p) temp).p (K.sp_SPAR_CAL_TIME p) s.utc
/-- A spar with a step above 125 fs fails. -/
def sparFails (b : BankId) (l : List SparMeas) (s : State) : State :=
  (l.filter (fun m => finesBad m.lin)).foldl (fun s m => s.raise (Src.SPAR_CAL_FAIL (bankSpar b m.spar))) s
/-- The objects of a spar's live calibration; a native one records the linearity too (Table 10.1). -/
def sparKeys (p : SparId) : List Nat := elems.map (fun k => K.sp_SPAR_DELAY p k) ++ [K.sp_SPAR_CAL_TEMP p, K.sp_SPAR_CAL_TIME p]

/-- Records the calibration of a TMU. -/
def putTmu (u : TmuId) (lin : List Byte) (temp : Int) (s : State) : State :=
  ((s.p (K.cb_TMU_CAL_TEMP u) temp).p (K.cb_TMU_CAL_TIME u) s.utc).putBlob (K.cb_TMU_LIN u) lin
/-- The objects of a TMU's calibration. -/
def tmuKeys (u : TmuId) : List Nat := [K.cb_TMU_CAL_TEMP u, K.cb_TMU_CAL_TIME u, K.cb_TMU_LIN u]

/-- TIMEBASE_ERR (R440), to the nearest ppb.
[DEDUCED, assumption 91] -/
def timebaseErr (freq fm : Nat) : Int :=
  if fm = 0 then 0 else (2 * ((freq : Int) - fm) * 1000000000 + fm) / (2 * fm)

/-- Records the trims of a DAC.
[DESIGN CHOICE, assumption 85] -/
def putDac (temp : Int) (e : DacId × Int × Int) (s : State) : State :=
  let d := e.1
  let s := (s.p (K.lt_GAIN_TRIM d) e.2.1).p (K.lt_OFFSET_TRIM d) e.2.2
  (s.p (K.lt_LVL_CAL_TEMP d) temp).p (K.lt_LVL_CAL_TIME d) s.utc
/-- Part LEVELS drives each output of a bank to codes 4,096 and 61,440 in turn; it then returns, through the deglitcher, to the
code of its target, whatever the bank's LOAD_MODE (R443, R510).
[DESIGN CHOICE, assumption 85] -/
def levelsPart (b : BankId) (s : State) : State :=
  issueStrobe b ((bankDacs b).foldl (fun s (d : DacId) =>
    let s := if statusBit s d 6 then s else s.emits [.dac d 4096, .dac d 61440]
    formPending d false ((s.p (K.da_CODE d) 61440).setDac d { s.dac d with level := 61440 })) s)
/-- The objects of a DAC's calibration. -/
def dacKeys (d : DacId) : List Nat := [K.lt_GAIN_TRIM d, K.lt_OFFSET_TRIM d, K.lt_LVL_CAL_TEMP d, K.lt_LVL_CAL_TIME d]

/-- The baselines of a channel (R472, R473). -/
def sealChan (c : ChanId) (s : State) : State :=
  let s := elems.foldl (fun (s : State) k => s.p (K.cc_BASE_OFS c k) (s.g (K.cc_OFS c k))) s
  let s := (s.p (K.cc_BASE_RT c) (s.g (K.cc_RT c))).p (K.cc_BASE_RET c) (s.g (K.cc_RET c))
  ((s.p (K.cc_BASE_TEMP c) (s.g (K.cc_CAL_TEMP c))).p (K.cc_BASE_TIME c) (s.g (K.cc_CAL_TIME c))).p (K.cc_BASE_SEAL c) (s.g K.sk_SEAL_SESSION)
/-- The baseline objects of a channel. -/
def sealChanKeys (c : ChanId) : List Nat :=
  elems.map (fun k => K.cc_BASE_OFS c k) ++ [K.cc_BASE_RT c, K.cc_BASE_RET c, K.cc_BASE_TEMP c, K.cc_BASE_TIME c, K.cc_BASE_SEAL c]
/-- The baselines of a DAC. -/
def sealDac (d : DacId) (s : State) : State :=
  let s := (s.p (K.lt_BASE_GAIN d) (s.g (K.lt_GAIN_TRIM d))).p (K.lt_BASE_OFFSET d) (s.g (K.lt_OFFSET_TRIM d))
  (s.p (K.lt_BASE_LVL_TIME d) (s.g (K.lt_LVL_CAL_TIME d))).p (K.lt_BASE_LVL_SEAL d) (s.g K.sk_SEAL_SESSION)
/-- The baseline objects of a DAC. -/
def sealDacKeys (d : DacId) : List Nat := [K.lt_BASE_GAIN d, K.lt_BASE_OFFSET d, K.lt_BASE_LVL_TIME d, K.lt_BASE_LVL_SEAL d]
/-- The registrations, the operator and the session (R472). -/
def sealDevice (s : State) : State :=
  let s := (s.putBlob K.sb_S_TREF_ID (s.blob K.tf_TREF_ID)).p K.sb_S_TREF_FREQ (s.g K.tf_TREF_FREQ)
  let s := (s.p K.sb_S_TREF_DUE (s.g K.tf_TREF_DUE)).p K.sb_S_FIXTURE_DELAY (s.g K.tf_FIXTURE_DELAY)
  let s := (s.putBlob K.sb_S_VREF_ID (s.blob K.vf_VREF_ID)).p K.sb_S_VREF_VALUE (s.g K.vf_VREF_VALUE)
  let s := (s.p K.sb_S_VREF_DUE (s.g K.vf_VREF_DUE)).p K.sb_S_SEAL_TIME s.utc
  (s.putBlob K.sb_S_OPERATOR (s.blob K.sk_SEAL_OPERATOR)).p K.sb_S_SESSION (s.g K.sk_SEAL_SESSION)
/-- The objects of 5439h. -/
def sealDeviceKeys : List Nat := (List.range 10).map (fun j => Objects.ob 0x5439 (j + 1))

/-- The channels of a bank that a run calibrated, each with its new board delays and offsets. -/
abbrev GoodChans := List (ChanId × ChanMeas × ((Int × Int × Int) × List Int))

/-- The parts of a run write offsets of channels. -/
def timingParts (parts : Nat) : Bool := parts.testBit 1 || parts.testBit 2 || parts.testBit 3
/-- The TMUs that the results of a bank's run record. -/
def nativeTmus (b : BankId) (parts : Nat) (r : BankMeas) : List (TmuId × List Byte) :=
  if parts.testBit 0 then r.tmus.filter (fun e => e.1 == bankTmu b || decide (8 ≤ e.1.val)) else []
/-- The spars. -/
def nativeSpars (parts : Nat) (r : BankMeas) : List SparMeas := if parts.testBit 1 then r.spars.filter (fun m => !finesBad m.lin) else []
/-- The DACs. -/
def nativeDacs (b : BankId) (parts : Nat) (r : BankMeas) : List (DacId × Int × Int) :=
  if parts.testBit 4 then r.dacs.filter (fun e => dacBank e.1 == b.val) else []
/-- The run seals the timing results: with ELEMENTS, ROUND_TRIP and RETURN (R472). -/
def sealsTiming (parts : Nat) : Bool := parts.testBit 5 && parts.testBit 1 && parts.testBit 2 && parts.testBit 3
/-- The run seals the level results (R472). -/
def sealsLevels (parts : Nat) : Bool := parts.testBit 5 && parts.testBit 4

/-- A bank's results as data (R447, R472). -/
def nativeData (b : BankId) (parts : Nat) (r : BankMeas) (good : GoodChans) (s : State) : State :=
  let dacs := nativeDacs b parts r
  let temp := s.g (K.cb_BANK_TEMP b)
  let s := if parts.testBit 0 then s.p K.cl_TIMEBASE_ERR (timebaseErr (s.n K.tf_TREF_FREQ) r.calref) else s
  let s := (nativeTmus b parts r).foldl (fun s e => putTmu e.1 e.2 temp s) s
  let s := (nativeSpars parts r).foldl (fun s m => (putSpar b m temp s).putBlob (K.sp_SPAR_LIN (bankSpar b m.spar)) m.lin) s
  let s := if timingParts parts then good.foldl (fun s e => nativePut parts temp e.1 e.2.1 e.2.2 s) s else s
  let s := dacs.foldl (fun s e => putDac temp e s) s
  let s := if sealsTiming parts then (bankChans b).foldl (fun s c => sealChan c s) s else s
  let s := if sealsLevels parts then dacs.foldl (fun s e => sealDac e.1 s) s else s
  if parts.testBit 5 then sealDevice s else s

/-- The objects that they write. -/
def nativeKeys (b : BankId) (parts : Nat) (r : BankMeas) : List Nat :=
  let cs := bankChans b
  let dacs := nativeDacs b parts r
  (if parts.testBit 0 then [K.cl_TIMEBASE_ERR] else []) ++ (nativeTmus b parts r).flatMap (fun e => tmuKeys e.1) ++
    (nativeSpars parts r).flatMap (fun m => sparKeys (bankSpar b m.spar) ++ [K.sp_SPAR_LIN (bankSpar b m.spar)]) ++ (if timingParts parts then cs.flatMap chanKeys else []) ++
    dacs.flatMap (fun e => dacKeys e.1) ++ (if sealsTiming parts then cs.flatMap sealChanKeys else []) ++
    (if sealsLevels parts then dacs.flatMap (fun e => sealDacKeys e.1) else []) ++ (if parts.testBit 5 then sealDeviceKeys else [])

/-- The results of a bank's channels in a run; none where a channel fails. -/
def nativeResults (s : State) (b : BankId) (parts : Nat) (r : BankMeas) :
    List (ChanId × ChanMeas × Option ((Int × Int × Int) × List Int)) :=
  (bankChans b).map (fun c => (c, measOf r c, nativeChan s parts c (measOf r c)))

/-- A bank has completed its parts: the run goes on with the others, or ends.
[DESIGN CHOICE, assumption 83] -/
def nativeBankDone (b : BankId) (s : State) : State :=
  match s.cal.native with
  | none => s
  | some n =>
    let left := n.left - (if n.left.testBit b.val then 2 ^ b.val else 0)
    if left = 0 then nativeEnd s
    else nativeLeaves n b { s with cal := { s.cal with native := some { n with left := left } } }

/-- The work of a run in a bank can complete: nothing of the bank is being published, no user arming of its TMUs is in progress, and
with part TMU no ridge calibration uses TMU 8 (R426, R559). -/
def nativeReady (s : State) (n : NativeRun) (b : BankId) : Bool :=
  n.left.testBit b.val && !calPending s b && !s.tmuBusy (bankTmu b) &&
    !(n.parts.testBit 0 && (s.tmuBusy 8 || s.tmuBusy 9))

/-- NATIVE_BANK_COMPLETE (R446, R447, R473). -/
def nativeComplete (b : BankId) (r : BankMeas) (s : State) : State :=
  match s.cal.native with
  | none => s
  | some n =>
    let rs := nativeResults s b n.parts r
    let keys := nativeKeys b n.parts r
    let s0 := if n.parts.testBit 4 then levelsPart b s else s
    if nativeReady s n b = false then s
    else
      match rs.filter (fun e => e.2.2.isNone) with
      | e :: bad =>
        let s := (s0.p K.cl_CAL_LAST_STATUS Status.CAL_MEAS_FAIL).p K.cl_CAL_FAIL_CHAN e.1.val
        nativeBankDone b ((e :: bad).foldl (fun s e => calStatus e.1 4 (s.raise (Src.CAL_FAIL e.1))) s)
      | [] =>
        if sealCovers s keys = false then nativeBankDone b (s0.p K.cl_CAL_LAST_STATUS Status.SEAL_CLOSED)
        else
          let good := rs.filterMap (fun e => e.2.2.map (fun v => (e.1, e.2.1, v)))
          let s0 := if n.parts.testBit 1 then sparFails b r.spars s0 else s0
          let t := nativeData b n.parts r good s0
          if (offsetStep s t (chanActive s) keys).isSome then nativeBankDone b (s0.p K.cl_CAL_LAST_STATUS Status.TS_OFFSET_STEP)
          else calCommit (.native b (timingParts n.parts)) 0 0 keys t s0

/-- NATIVE_BANK_COMPLETE. -/
def execNativeBankComplete (b : BankId) (r : BankMeas) (s : State) : Host.Outcome State Fault Refusal :=
  .next (s.fresh.timed (nativeComplete b r))

/-! ### Live calibration -/

/-- LIVE_NOW: queues one eligible channel, or begins a legacy pass of its bank (R450, R469); none of a bank whose clock is gated
(R528).
[DEDUCED, assumption 215] [DEDUCED, assumption 223] -/
def liveNow (c : ChanId) (fm vm : Nat) (s : State) : State :=
  let b := bankOf c
  if s.g K.cl_LIVE_MODE = 0 ∨ takesPart s c = false ∨ gateOn s b.val = false then s.p K.cl_CAL_LAST_STATUS Status.CAL_MODE
  else
    let s := s.p K.cl_CAL_LAST_STATUS Status.OK
    let k := s.calBank b
    if s.g K.cl_LIVE_MODE = 2 then
      holdTmu b (legacyBegin b (if k.liveNow.contains c.val then k.liveNow else k.liveNow ++ [c.val]) (refMeasured fm vm s))
    else if k.liveNow.contains c.val ∨ (match k.cur with | some w => w.chan == c | none => false) = true then s
    else calStart b fm vm (calStatus c 1 (s.setCalBank b { k with liveNow := k.liveNow ++ [c.val], queue := k.queue.erase c.val }))

/-- LIVE_NOW. -/
def execLiveNow (c : LiveReq) (s : State) : Host.Outcome State Fault Refusal :=
  s.served .timing (.liveNow c) fun s =>
  .next (liveNow c.chan c.freq c.volt s.fresh)

/-- The offsets of a channel from measured device delays. -/
def measured (s : State) (c : ChanId) (d : List Int) : List Int :=
  elems.map (fun k => offsetOf k (d.getD k 0) (s.g (K.cc_OUT c)) (s.g (K.cc_OUT_DE c)))

/-- The bank's present work ends. -/
def calDone (b : BankId) (s : State) : State :=
  holdTmu b (s.setCalBank b { s.calBank b with cur := none, unit := none, blocks := 0 })

/-- A completed measurement of a bank: what it counts, or the transaction that records it (R447, R450 to R453, R469). With the TMU
the deviation of the MTR time base is recorded (Table 10.1).
[DEDUCED, assumption 84] [DEDUCED, assumption 89] -/
def blockDone (b : BankId) (x : CalDone) (fm : Nat) (s : State) : State :=
  let k := s.calBank b
  let temp := s.g (K.cb_BANK_TEMP b)
  match x with
  | .more => blockEnds b (s.setCalBank b { k with blocks := k.blocks + 1 })
  | .native => s
  | .tmu lin =>
    let keys := K.cl_TIMEBASE_ERR :: tmuKeys (bankTmu b)
    if k.unit = some (true, 0) then
      blockEnds b (calCommit (.unit b) 0 0 keys
        (putTmu (bankTmu b) lin temp (s.p K.cl_TIMEBASE_ERR (timebaseErr (s.n K.tf_TREF_FREQ) fm))) s)
    else s
  | .spar m =>
    let p := bankSpar b m.spar
    if k.unit = some (false, m.spar.val) then blockEnds b (calCommit (.unit b) 0 0 (sparKeys p) (putSpar b m temp s) s) else s
  | .direct d =>
    match k.cur with
    | some w =>
      let c := w.chan
      if w.phase = 0 ∧ chanActive s c = false then
        blockEnds b (calCommit (.direct b) 0 0 (chanKeys c) (recordCal c 2 temp (putOffsets c (measured s c d) s)) s)
      else s
    | none => s
  | .legacy c u =>
    match k.legacy with
    | some l => if bankOf c = b ∧ takesPart s c ∧ (match s.siteOf c with | some i => s.st i == SS.running | none => false) = true
        then blockEnds b (s.setCalBank b { k with legacy := some (kput l c u) }) else s
    | none => s

/-- A block of live calibration can complete in a bank: it measures, its block stands, the references stand, and nothing of it is
being published (R426 to R428, R439, R451). -/
def liveBlock (s : State) (b : BankId) : Bool := measuresNow s b && blockStands s b && !s.cal.refLost

/-- CAL_BLOCK_END: a measurement block of a bank completes; before the next one the references are measured, where calibration may
use the TMU (R426, R439, R451). With nothing in calibration the bank takes up its next work. -/
def execCalBlockEnd (b : BankId) (x : CalDone) (fm vm : Nat) (s : State) : Host.Outcome State Fault Refusal :=
  .next (s.fresh.timed (fun s =>
    match x, s.cal.native with
      | .native, some n =>
        if n.aborted then nativeEnd s
        else if refsOk s fm vm ∨ s.tmuBusy (bankTmu b) then s
        else nativeEnd (s.p K.cl_CAL_LAST_STATUS Status.CAL_REF_ABSENT)
      | .native, none => s
      | .legacy c u, _ => if blockStands s b ∧ calPending s b = false then blockDone b (.legacy c u) fm s else s
      | x, _ =>
        let s0 := if blockStands s b then refMeasured fm vm s else s
        calNext b (if liveBlock s b then blockDone b x fm s0 else s0)))

/-- DIRECT_CAL_ABANDON: the channel's site is armed, and nothing of the calibration is published (R453). -/
def execDirectCalAbandon (b : BankId) (s : State) : Host.Outcome State Fault Refusal :=
  .next (s.fresh.timed (fun s =>
    match (s.calBank b).cur with
      | some w => if w.phase = 0 ∧ chanActive s w.chan then calDone b (calStatus w.chan 0 (cancelJobs b s)) else s
      | none => s))

/-- Changes the swap in progress of a bank. -/
def setSwap (b : BankId) (w : Swap) (s : State) : State := s.setCalBank b { s.calBank b with cur := some w }

/-- SHADOW_JOIN: the first shadow frame is taken (R455). -/
def execShadowJoin (b : BankId) (s : State) : Host.Outcome State Fault Refusal :=
  .next (s.fresh.timed (fun s =>
    match (s.calBank b).cur with
      | some w => if w.phase = 1 then setSwap b { w with phase := 2 } s else s
      | none => s))

/-- Whole SCLK of a recorded round trip: rounded up, 49 above 60,000,000 fs (R220, R292). -/
def rtSclk (rt : Int) : Nat := if 60000000 < rt then 49 else ((rt + 1249999) / 1250000).toNat

/-- A swap that has not moved the balls ends: the spar is FREE again.
[DEDUCED, assumption 89] -/
def swapEnds (w : Swap) (s : State) : State :=
  match w.spar with
  | some p => freeSpar p s
  | none => s

/-- RT tracking (R466).
[DEDUCED, assumption 87] -/
def trackRt (b : BankId) (w : Swap) (rt : Int) (s : State) : State :=
  let c := w.chan
  let beyond : Bool := match s.siteOf c with
    | some i => s.active i && decide (s.g (K.cf_BOARD_RT i) < rtSclk rt)
    | none => false
  if 20000 < iabs (rt - s.g (K.cc_RT c)) ∨ beyond then s.raise (Src.RT_DRIFT c)
  else setSwap b { w with newRt := some rt } s

/-- One lane in ALIGN: a residual above ALIGN_TOL changes the lane's trim, applied IMMEDIATE (R456). -/
def alignLane (b : BankId) (w : Swap) (p : SparId) (de : Bool) (v : Int) (s : State) : State :=
  let tol := s.g K.cl_ALIGN_TOL
  let s := if de then s else s.p (K.sp_ALIGN_RESID p) v
  let trim := if de then K.sp_TRIM_DE p else K.sp_TRIM_DD p
  let done (w : Swap) : State := setSwap b (if w.ok.1 && w.ok.2 then { w with phase := 3 } else w) s
  if iabs (v) ≤ tol then done { w with ok := if de then (w.ok.1, true) else (true, w.ok.2) }
  else
    let n := (if de then w.tries.2 else w.tries.1) + 1
    if 3 ≤ n then
      let s := calStatus w.chan 4 ((swapEnds w s).raise (Src.CAL_FAIL w.chan))
      let k := s.calBank b
      calDone b (s.setCalBank b { k with spars := if k.spars.contains (p.val % 2) then k.spars else k.spars ++ [p.val % 2] })
    else
      calCommit (.align b) 0 0 [trim] (s.p trim (s.g trim - v))
        (setSwap b { w with tries := if de then (w.tries.1, n) else (n, w.tries.2) } s)

/-- A lane of the spar is not measured for want of transitions (R456, R459).
[DEDUCED, assumption 224] -/
def skipLane (p : SparId) (de : Bool) (s : State) : State :=
  let v := s.n (K.sp_ALIGN_SKIP p)
  let k := if de then 1 else 0
  s.p (K.sp_ALIGN_SKIP p) (if v.testBit k then v else v + 2 ^ k : Nat)

/-- ALIGN_MEASURE (R456, R466). -/
def execAlignMeasure (b : BankId) (m : AlignMeas) (s : State) : Host.Outcome State Fault Refusal :=
  .next (s.fresh.timed (fun s =>
    match (s.calBank b).cur with
      | some w =>
        match w.spar with
        | some p =>
          if w.phase ≠ 2 ∨ liveBlock s b = false then s
          else
            match m with
            | .skip de =>
              let s := skipLane p de s
              let w := { w with ok := if de then (w.ok.1, true) else (true, w.ok.2) }
              blockEnds b (setSwap b (if w.ok.1 && w.ok.2 then { w with phase := 3 } else w) s)
            | .mean de v => blockEnds b (alignLane b w p de v s)
            | .rt v => blockEnds b (if s.b K.cl_RT_TRACK then trackRt b w v s else s)
        | none => s
      | none => s))

/-- SWAP_REQUEST: the controller requests a SWAP interrupt of the channel's site (R457). -/
def execSwapRequest (b : BankId) (s : State) : Host.Outcome State Fault Refusal :=
  .next (s.fresh.timed (fun s =>
    match (s.calBank b).cur with
      | some w =>
        match w.spar, s.siteOf w.chan with
        | some p, some i =>
          if (w.phase = 3 ∨ w.phase = 6) ∧ s.active i ∧ (s.site i).swap = none then
            setSwap b { w with reqAt := s.now } ((putSwapBit i true s).modSite i (fun x =>
              { x with swap := some (p, w.phase == 3), swapTaken := false, eaveAt := none }))
          else s
        | _, _ => s
      | none => s))

/-- The spar has given the balls back to the own engine and becomes the substitute that the collector wants (R38, R463). -/
def reclaimed (w : Want) (s : State) : State :=
  assignSpar w.chan w.spar (takeFromCal w.spar { s with flt := { s.flt with wants := s.flt.wants.erase w } })

/-- One change of serving engine reaches the balls: XBAR_STATE shows it (R296, Table 10.5 step 6). -/
def xbarChange (s : State) (e : XSwitch) : State :=
  match e.kind with
  | 1 => if kget? s.flt.pendSw e.chan = some e.new then changeover e.chan e.new s else s
  | 2 =>
    let s' := s.p (K.ch_XBAR_STATE e.chan) e.new
    match s.flt.wants.find? (fun w => holdsBalls s w.spar == some e.chan) with
    | some w => reclaimed w s'
    | none => s'
  | _ => s.p (K.ch_XBAR_STATE e.chan) e.new

/-- The changes of serving engine of a site that reach the balls by the present SCLK. -/
def xbarDue (i : SiteId) (s : State) : State :=
  let l := (s.site i).xsw
  let now (e : XSwitch) : Bool := !e.done && decide (e.due ≤ s.now)
  (l.filter now).foldl xbarChange (s.modSite i (fun x => { x with xsw := l.map (fun e => if now e then { e with done := true } else e) }))

/-- The same for every site. -/
def xbarDues (s : State) : State := allSites.foldl (fun s i => xbarDue i s) s

/-- A taken SWAP has switched: XBAR_STATE shows its engine. -/
def swapSwitched (s : State) (w : Swap) (p : SparId) (out : Bool) : Bool :=
  s.n (K.ch_XBAR_STATE w.chan) == (if out then 1 + p.val % 2 else 0)

/-- SPAR_SWITCH: the serving engine of a taken SWAP has changed after the frame of the eave word (R457, Table 10.5); a spar that now
holds the balls is SERVING. -/
def execSparSwitch (i : SiteId) (s : State) : Host.Outcome State Fault Refusal :=
  .next (s.fresh.timed (fun s =>
    let s := xbarDue i s
    match (s.site i).swap with
      | some (p, out) =>
        let b := sparBank p
        match (s.calBank b).cur with
        | some w =>
          if swapSwitched s w p out then
            let s := s.modSite i (fun x => { x with swap := none, swapTaken := false, eaveAt := none })
            if out then
              let w := { w with phase := 4, tempSum := s.g (K.cb_BANK_TEMP b), temps := 1 }
              let s := setSwap b w (s.p (K.sp_SPAR_STATE p) 3)
              if s.cal.refLost then cutSwap b w s else s
            else s
          else s
        | none => s
      | none => s))

/-- One publication step of an offset or RT toward its target: at most 2,500 fs (R247, R458, R466). -/
def stepTo (cur target : Int) : Int := cur + clampTo 2500 (target - cur)

/-- The objects of a channel as a MEASURE step leaves them: each offset, and RT where it is tracked, at most 2,500 fs nearer to its
new value (R247, R458, R466). -/
def measureData (w : Swap) (d : List Int) (s : State) : State :=
  let c := w.chan
  let rt := match w.newRt with | some v => stepTo (s.g (K.cc_RT c)) v | none => s.g (K.cc_RT c)
  let dOut := rt - s.g (K.cc_RT c)
  let s := (s.p (K.cc_RT c) rt).p (K.cc_OUT c) (s.g (K.cc_OUT c) + dOut)
  let t := measured s c d
  elems.foldl (fun (s : State) k => s.p (K.cc_OFS c k) (stepTo (s.g (K.cc_OFS c k)) (t.getD k 0))) s

/-- The step has reached every new value. -/
def measureReached (w : Swap) (d : List Int) (s : State) : Bool :=
  let c := w.chan
  let t := measured s c d
  elems.all (fun k => s.g (K.cc_OFS c k) == t.getD k 0) && (match w.newRt with | some v => s.g (K.cc_RT c) == v | none => true)

/-- MEASURE_PUBLISH: a MEASURE result is published in one transaction of at most 2,500 fs an offset; with the step that reaches
every new value, RETURN begins (R458).
[DEDUCED, assumption 87] -/
def measurePublish (b : BankId) (d : List Int) (s : State) : State :=
  match (s.calBank b).cur with
  | some w =>
    if w.spar.isNone ∨ w.phase ≠ 4 ∨ liveBlock s b = false then s
    else
      let c := w.chan
      let w := if w.before = [] then { w with before := elems.map (fun k => (k, s.g (K.cc_OFS c k))) } else w
      let t := measureData w d s
      blockEnds b (calCommit (.publish b (measureReached w d t)) 0 0 (chanKeys c) t (setSwap b w s))
  | none => s

/-- MEASURE_PUBLISH. -/
def execMeasurePublish (b : BankId) (d : List Int) (s : State) : Host.Outcome State Fault Refusal :=
  .next (s.fresh.timed (measurePublish b d))

/-- One lane in RETURN: a residual above ALIGN_TOL moves the lane's trim by at most 2,500 fs (R459). -/
def returnTrim (p : SparId) (de : Bool) (r : Option Int) (s : State) : State :=
  let key := if de then K.sp_TRIM_DE p else K.sp_TRIM_DD p
  match r with
  | some v => if s.g K.cl_ALIGN_TOL < iabs v then s.p key (s.g key - clampTo 2500 v) else s
  | none => s

/-- RETURN_STEP: with the residuals of both lanes within ALIGN_TOL, or a lane not measured, the spar may give the balls back;
otherwise its trims and its strobe offsets move by at most 2,500 fs, in an EAVE transaction of the site (R459).
[DEDUCED, assumption 224] -/
def returnStep (b : BankId) (w : Swap) (p : SparId) (dd de : Option Int) (s : State) : State :=
  let s0 := match dd with | some v => s.p (K.sp_ALIGN_RESID p) v | none => skipLane p false s
  let s0 := if de.isNone then skipLane p true s0 else s0
  let within (r : Option Int) : Bool := match r with | some v => decide (iabs v ≤ s.g K.cl_ALIGN_TOL) | none => true
  if within dd && within de then setSwap b { w with phase := 6 } s0
  else
    let c := w.chan
    let t := returnTrim p true de (returnTrim p false dd s0)
    let ofs := (List.range 4).foldl (fun m j => kput m (6 + j) (stepTo (kgetD w.sparOfs (6 + j) (sparOffset s.od p c (6 + j))) (s.g (K.cc_OFS c (6 + j))))) w.sparOfs
    let keys := [K.sp_TRIM_DD p, K.sp_TRIM_DE p]
    match s.siteOf c with
    | some i => calCommit (.ret b ofs) 2 (oneSite i) keys t s0
    | none => calCommit (.ret b ofs) 0 0 keys t s0

/-- RETURN_STEP. -/
def execReturnStep (b : BankId) (dd de : Option Int) (s : State) : Host.Outcome State Fault Refusal :=
  .next (s.fresh.timed (fun s =>
    match (s.calBank b).cur with
      | some w =>
        match w.spar with
        | some p => if w.phase = 5 ∧ blockStands s b ∧ measuresNow s b then blockEnds b (returnStep b w p dd de s) else s
        | none => s
      | none => s))

/-- The swap of a bank has come back: the own engine holds the balls again, and no SWAP of it is pending. -/
def swapBack (s : State) (w : Swap) (p : SparId) : Bool :=
  w.phase == 6 && s.g (K.ch_XBAR_STATE w.chan) == 0 && s.g (K.sp_SPAR_STATE p) == 4 &&
    (match s.siteOf w.chan with | some i => (s.site i).swap.map Prod.fst != some p | none => true)

/-- The record of a completed swap: LAST_DELTA is the largest change since the swap began (R460). -/
def swapData (w : Swap) (p : SparId) (temp : Int) (s : State) : State :=
  let c := w.chan
  let delta := elems.foldl (fun (m : Int) k => max m (iabs (s.g (K.cc_OFS c k) - kgetD w.before k (s.g (K.cc_OFS c k))))) 0
  ((recordCal c 2 temp s).p (K.cc_LAST_DELTA c) delta).cnt32 (K.sp_SWAPS p)

/-- SWAP_BACK_COMPLETE: the balls are with the own engine again; the calibration is recorded with the mean bank temperature
of MEASURE (R460). -/
def execSwapBackComplete (b : BankId) (p : SparId) (s : State) : Host.Outcome State Fault Refusal :=
  .next (s.fresh.timed (fun s =>
    match (s.calBank b).cur with
      | some w =>
        let keys := chanKeys w.chan ++ [K.sp_SWAPS p]
        if w.spar = some p ∧ swapBack s w p ∧ calPending s b = false then calCommit (.back b) 0 0 keys (swapData w p (w.temp s b) s) s
        else s
      | none => s))

/-- SWAP_WAIT_EXPIRY: a SWAP that has not switched within SWAP_WAIT is withdrawn (R461). -/
def execSwapWaitExpiry (b : BankId) (s : State) : Host.Outcome State Fault Refusal :=
  .next (s.fresh.timed (fun s =>
    match (s.calBank b).cur with
      | some w =>
        match w.spar, s.siteOf w.chan with
        | some p, some i =>
          let x := s.site i
          if x.swap.map Prod.fst = some p ∧ x.xsw.all (fun e => e.chan != w.chan) ∧ swapSwitched s w p (w.phase == 3) = false ∧
              w.reqAt + s.n K.cl_SWAP_WAIT / 1250000 ≤ s.now then
            if w.phase = 3 then
              let s := dropSwap i s
              let s := calStatus w.chan 5 ((swapEnds w s).report (Src.CAL_NO_EAVE i) (oneSite i) 0)
              calDone b { s with cal := { s.cal with barred := if s.cal.barred.contains w.chan.val then s.cal.barred else s.cal.barred ++ [w.chan.val] } }
            else
              setSwap b { w with reqAt := s.now } ((putSwapBit i true s).modSite i (fun x => { x with swapTaken := false, eaveAt := none }))
          else s
        | _, _ => s
      | none => s))

/-- The spar returns the balls to the own engine at once, as nothing of its channel is in flight, and becomes the substitute that the
collector wants (R38, R463). -/
def reclaim (w : Want) (s : State) : State :=
  reclaimed w (match holdsBalls s w.spar with
    | some c => s.p (K.ch_XBAR_STATE c) 0
    | none => s)

/-- The spar returns the balls of a RUNNING site's channel at the end of the last frame taken: at once where that has passed (R38,
R297). -/
def reclaimAt (i : SiteId) (w : Want) (s : State) : State :=
  match holdsBalls s w.spar with
  | some c =>
    if (s.site i).xsw.any (fun e => e.chan == c && e.kind == 2) then s
    else xbarDue i (switchAt i c 0 2 (s.site i).endTime s)
  | none => reclaim w s

/-- SPAR_RECLAIM: a swap spar that the collector needs is returned: between two frames at an eave point of
the site it serves that its word reached after the request (R297), at once when the site is PAUSED or no longer active, or 1 ms after the request with CAL_NO_EAVE (R38). -/
def execSparReclaim (p : SparId) (s : State) : Host.Outcome State Fault Refusal :=
  .next (s.fresh.timed (fun s =>
    match s.flt.wants.find? (fun w => w.spar == p) with
      | none => s
      | some w =>
        match (holdsBalls s p).bind s.siteOf with
        | none => reclaim w s
        | some i =>
          if s.st i = SS.paused ∨ s.active i = false then reclaim w s
          else if (match (s.site i).eaveOpen with | some t => decide (w.at_ ≤ t) | none => false) = true then reclaimAt i w s
          else if w.at_ + 800000 ≤ s.now ∧ (s.site i).xsw.all (fun e => e.kind != 2) then
            reclaimAt i w (s.report (Src.CAL_NO_EAVE i) (oneSite i) 0)
          else s))

/-! ### Legacy calibration (R469, R470) -/

/-- The channels of the first of a bank's corrections still to be published that belong to the same site. -/
def legacyGroup (s : State) (go : KMap Int) : KMap Int :=
  match go with
  | [] => []
  | e :: _ => go.filter (fun x => s.siteOf (Fin.ofNat 256 x.1) == s.siteOf (Fin.ofNat 256 e.1))

/-- One step of corrections: every offset of each channel by at most 2,500 fs; a channel whose correction is complete is recorded
(R470). -/
def legacyData (b : BankId) (group : KMap Int) (s : State) : State :=
  group.foldl (fun (s : State) e =>
    let c : ChanId := Fin.ofNat 256 e.1
    let s := elems.foldl (fun (s : State) j => s.p (K.cc_OFS c j) (s.g (K.cc_OFS c j) + clampTo 2500 e.2)) s
    if e.2 - clampTo 2500 e.2 = 0 then recordKind c 3 (s.g (K.cb_BANK_TEMP b)) s else s) s

/-- LEGACY_PASS_END: the pass ends and its corrections are formed; each occurrence publishes one EAVE transaction of a site, of at
most 2,500 fs an offset, until every correction is made (R470).
[DEDUCED, assumption 88] -/
def legacyStep (b : BankId) (s : State) : State :=
  let k := s.calBank b
  let k := match k.legacy with
    | some l => let m := meanOf (l.map (·.2)); { k with legacy := none, go := l.map (fun e => (e.1, m - e.2)) }
    | none => k
  let s := s.setCalBank b k
  let group := legacyGroup s k.go
  let keys := group.flatMap (fun e => chanKeys (Fin.ofNat 256 e.1))
  if k.go = [] ∨ calPending s b then s
  else
    let t := legacyData b group s
    let rest := group.map (fun e => (e.1, e.2 - clampTo 2500 e.2))
    match (match k.go with | e :: _ => s.siteOf (Fin.ofNat 256 e.1) | [] => none) with
    | some i => calCommit (.legacy b rest) 2 (oneSite i) keys t s
    | none => calCommit (.legacy b rest) 0 0 keys t s

/-- LEGACY_PASS_END. -/
def execLegacyPassEnd (b : BankId) (s : State) : Host.Outcome State Fault Refusal :=
  .next (s.fresh.timed (fun s => holdTmu b (legacyStep b s)))

/-! ### The end of a transaction (R447, R458 to R460, R470) -/

/-- A job that ends work of a bank can be applied now: a TMU's correction while no user arming of it is in progress (R451), a
channel's direct calibration while its site is not active (R453). -/
def jobReady (s : State) (j : CalJob) : Bool :=
  match j with
  | .unit b => (s.calBank b).unit != some (true, 0) || !s.tmuBusy (bankTmu b)
  | .direct b => (match (s.calBank b).cur with | some w => !chanActive s w.chan | none => true)
  | _ => true

/-- The channel in calibration in a bank with its spar. -/
def curSwap (s : State) (b : BankId) : Option (Swap × SparId) := (s.calBank b).cur.bind (fun w => w.spar.map (fun p => (w, p)))

/-- A transaction of the device itself has applied. -/
def jobApplied (j : CalJob) (s : State) : State :=
  match j with
  | .native b timing =>
    nativeBankDone b (if timing then (bankChans b).foldl (fun s c => calStatus c 0 s) s else s)
  | .unit b =>
    let s := match (s.calBank b).unit with
      | some (false, k) => s.p (K.sp_SPAR_STATE (bankSpar b (Fin.ofNat 2 k))) 0
      | _ => s
    calDone b s
  | .direct b =>
    match (s.calBank b).cur with
    | some w => if w.phase = 0 then calDone b (calStatus w.chan 0 s) else s
    | none => s
  | .align _ => s
  | .publish b last =>
    match curSwap s b with
    | some (w, p) => if last ∧ w.phase = 4 then setSwap b { w with phase := 5 } (s.p (K.sp_SPAR_STATE p) 4) else s
    | none => s
  | .ret b ofs =>
    match curSwap s b with
    | some (w, _) => setSwap b { w with sparOfs := ofs } s
    | none => s
  | .back b =>
    match curSwap s b with
    | some (w, p) => calDone b (calStatus w.chan (if w.cut then 3 else 0) (freeSpar p s))
    | none => s
  | .legacy b rest =>
    let s := (rest.filter (fun e => e.2 == 0)).foldl (fun s e => calStatus (Fin.ofNat 256 e.1) 0 s) s
    let k := s.calBank b
    s.setCalBank b { k with go := (k.go.map (fun e => (e.1, kgetD rest e.1 e.2))).filter (fun e => e.2 != 0) }
  | .level _ => s
  | .ridge => ridgeCalEnds 1 s
  | .train | .life _ => s

/-- A transaction of the device itself has failed: nothing of it is applied, and the work is done again (R18). A native run
reports the status of its bank, ridge calibration that of its command.
[DEDUCED, assumption 211] -/
def jobRefused (j : CalJob) (status : Nat) (s : State) : State :=
  match j with
  | .native b _ => nativeBankDone b (s.p K.cl_CAL_LAST_STATUS status)
  | .ridge => (ridgeCalEnds 2 s).p K.cx_CLK_CMD_STATUS status
  | _ => s

/-- Transactions that waited are committed as soon as they may be; one that writes a sealed object needs a session that covers it still
(R465, R473).
[DESIGN CHOICE, assumption 90] -/
def heldCommits (s : State) : State :=
  s.cal.held.foldl (fun s x =>
    let rest := { s with cal := { s.cal with held := s.cal.held.erase x } }
    if mayPublish s x.keys = false then s
    else if sealCovers s x.keys then calPublish x rest
    else match x.job with | some j => jobRefused j Status.SEAL_CLOSED rest | none => rest) s

/-- What calibration does at the passing of time: waiting transactions are committed, its suspension is reported, and every bank takes
and gives up its TMU and takes up its work. -/
def calHolds (s : State) : State :=
  holdHigh 9 (holdHigh 8 (allBanks.foldl (fun s b => calNext b (suspendReport b s)) (heldCommits s)))

end Sys2Proof.Machine
end

