-- ==== Sys2Proof/Machine/Events.lean ====
section
/-! DEFINITION. Event lines (R202 to R212). -/
namespace Sys2Proof.Machine
open Sys2Proof

/-- An event line's record. -/
def State.evt (s : State) (n : EvtId) : EvtLine := s.evts[n]
/-- Replaces an event line's record. -/
def State.setEvt (s : State) (n : EvtId) (x : EvtLine) : State := { s with evts := s.evts.set n x }
/-- All event lines. -/
def allEvts : List EvtId := List.finRange 16

/-- The input has a qualifier: its source is PIN or MARKER. -/
def hasQualifier (s : State) (n : EvtId) : Bool := decide (s.n (K.el_EVT_SRC n) ≤ 1)
/-- The input is masked (EVT_MASKED). -/
def evtMasked (s : State) (n : EvtId) : Bool := (s.n K.em_EVT_MASKED).testBit n
/-- Sets or clears an input's EVT_MASKED bit. -/
def setMasked (n : EvtId) (v : Bool) (s : State) : State :=
  let m := s.n K.em_EVT_MASKED
  s.p K.em_EVT_MASKED (if m.testBit n = v then m else if v then m + 2 ^ n.val else m - 2 ^ n.val : Nat)

/-- The looped marker after polarity (R202). -/
def markerLevel (s : State) (n : EvtId) : Bool := markerOn s (s.n (K.el_EVT_SRC_MK n)) != s.b (K.el_EVT_ACTIVE_LOW n)

/-- Whether the qualifier is armed for an edge after an inactive gap of that many samples (R203). -/
def armedAt (s : State) (n : EvtId) (gap : Nat) : Bool := (s.evt n).armed || decide (s.n (K.el_QUAL_WIDTH n) ≤ gap)

/-- An edge of an event line qualifies in SCLK q; the engines and the sites' copies follow six SCLK later (R207, R375). -/
def qualifyEvt (n : EvtId) (q : Nat) (s : State) : State :=
  let s := s.cnt64 (K.el_QUAL_COUNT n)
  let x := s.evt n
  s.setEvt n { x with armed := false, restarted := false, qualAt := q, latches := x.latches ++ [q] }

/-- A command shows the level at an input's qualifier: that of its EVT ball follows where the ball is its source (EVT_RAW). -/
def seeEvt (n : EvtId) (level : Bool) (s : State) : State :=
  if s.n (K.el_EVT_SRC n) = 0 then s.setEvt n { s.evt n with pin := some (level != s.b (K.el_EVT_ACTIVE_LOW n)) } else s

/-- What an event row does to an input that has a qualifier, whose level it shows. -/
def evtRow (n : EvtId) (level : Bool) (f : State → State) (s : State) : Host.Outcome State Fault Refusal :=
  .next (s.fresh.timed (fun s => if hasQualifier s n then f (seeEvt n level s) else s))

/-- EVT_QUALIFY: W consecutive active samples of a PIN or MARKER input follow an inactive gap (R203). -/
def execEvtQualify (n : EvtId) (gap : Nat) (s : State) : Host.Outcome State Fault Refusal :=
  evtRow n true (fun s =>
    if !evtMasked s n && armedAt s n gap && (s.n (K.el_EVT_SRC n) == 0 || markerLevel s n) then qualifyEvt n s.now s else s) s

/-- GLITCH: an active pulse of fewer than W samples on an armed qualifier is discarded (R204). -/
def execGlitch (n : EvtId) (gap width : Nat) (s : State) : Host.Outcome State Fault Refusal :=
  evtRow n false (fun s =>
    if !evtMasked s n && armedAt s n gap && decide (width < s.n (K.el_QUAL_WIDTH n))
    then (s.sat32 (K.el_GLITCH n)).setEvt n { s.evt n with armed := true, restarted := false } else s) s

/-- EVT_OVERRUN: an edge after a gap shorter than W is coalesced into the last qualified edge (R205); after a restart it is
only discarded (R210). -/
def execEvtOverrun (n : EvtId) (gap : Nat) (s : State) : Host.Outcome State Fault Refusal :=
  evtRow n true (fun s =>
    if !armedAt s n gap && !(s.evt n).restarted then (s.sat32 (K.el_OVERRUN n)).raise (Src.EVT_OVERRUN n) else s) s

/-- A write of EVT_HOST applies: the HOST events of its mask qualify in the SCLK after the apply (R206). -/
def hostEvents (mask : Nat) (s : State) : State :=
  allEvts.foldl (fun s (n : EvtId) =>
    if mask.testBit n && s.n (K.el_EVT_SRC n) == 2 then s.setEvt n { s.evt n with host := (s.evt n).host ++ [s.now + 1] } else s) s

/-- The first HOST event of an input that is due qualifies in its SCLK. -/
def hostQualify (n : EvtId) (s : State) : State :=
  match (s.evt n).host with
  | q :: r => if q ≤ s.now ∧ s.n (K.el_EVT_SRC n) = 2 then qualifyEvt n q (s.setEvt n { s.evt n with host := r }) else s
  | [] => s

/-- EVT_HOST: in the SCLK after the apply of a write of EVT_HOST the HOST events of a mask qualify (R206). -/
def execEvtHost (mask : BitVec 16) (s : State) : Host.Outcome State Fault Refusal :=
  .next (s.fresh.timed (fun s => allEvts.foldl (fun s n => if mask.getLsbD n.val then hostQualify n s else s) s))

/-- The RIDGE events qualify (R206). -/
def ridgeEvents (s : State) : State :=
  allEvts.foldl (fun s (n : EvtId) => if s.n (K.el_EVT_SRC n) = 3 then qualifyEvt n s.now s else s) s

/-- A PAUSED site begins to resume (R160, R197).
[DEDUCED, assumption 47] -/
def resumeSite (i : SiteId) (s : State) : State :=
  if s.st i = SS.paused then s.modSite i (fun x => { x with resuming := true }) else s

/-- Sets the latched copy of an event in a site and resumes the site when the event is its RESUME_SRC (R197, R207). -/
def latchEvt (n : EvtId) (i : SiteId) (s : State) : State :=
  if s.active i && (s.n (K.el_EVT_SITES n)).testBit i.val then
    let m := s.n (K.st_EVT_LATCHED i)
    let s := s.modSite i (fun x => { x with evtAt := kput x.evtAt n (s.now, m.testBit n) })
    let s := s.p (K.st_EVT_LATCHED i) (if m.testBit n then m else m + 2 ^ n.val : Nat)
    if s.n (K.cf_RESUME_SRC i) = n.val + 1 then resumeSite i s else s
  else s

/-- Six SCLK after a qualification the engines register the edge, and the copies of the assigned active sites are set (R207,
R375). -/
def evtLatch (n : EvtId) (s : State) : State :=
  match (s.evt n).latches with
  | t :: rest =>
    if t + 6 ≤ s.now then
      allSites.foldl (fun s i => latchEvt n i s) (wEvent n (t + 6) (s.setEvt n { s.evt n with latches := rest }))
    else s
  | [] => s

/-- EVT_LATCH. -/
def execEvtLatch (n : EvtId) (s : State) : Host.Outcome State Fault Refusal := .next (s.fresh.timed (evtLatch n))

/-- EVT_STUCK: an input active for STUCK_TIMEOUT samples from its qualification is masked (R208). -/
def execEvtStuck (n : EvtId) (s : State) : Host.Outcome State Fault Refusal :=
  evtRow n true (fun s =>
    let t := s.n (K.el_STUCK_TIMEOUT n)
    if !evtMasked s n && decide (0 < t) && !(s.evt n).armed && !(s.evt n).restarted && decide ((s.evt n).qualAt + t ≤ s.now + 1)
    then (setMasked n true (s.sat32 (K.el_STUCK_COUNT n))).activate (Src.EVT_STUCK n) 0 0 else s) s

/-- EVT_RELEASE: a masked input is released after W inactive samples, which re-arm its qualifier (R209).
[DESIGN CHOICE, assumption 72] -/
def execEvtRelease (n : EvtId) (s : State) : Host.Outcome State Fault Refusal :=
  .next (s.fresh.timed (fun s =>
    if evtMasked s n
    then ((setMasked n false (seeEvt n false s)).setEvt n { (seeEvt n false s).evt n with armed := true, restarted := false }).deactivate
      (Src.EVT_STUCK n)
    else s))

/-- A change of an input's settings restarts its qualifier (R210).
[DESIGN CHOICE, assumption 71] -/
def restartEvt (n : EvtId) (s : State) : State := s.setEvt n { s.evt n with armed := false, restarted := true }

end Sys2Proof.Machine
end

