-- ==== Sys2Proof/Machine/SiteCtl.lean ====
section
/-! DEFINITION. Site commands and site transitions (R179 to R201, Tables 4.2 and 4.3), the arming checks (R188) and what
arming does (R137, R138, R189, R190). -/
namespace Sys2Proof.Machine
open Sys2Proof

/-! ### Arming checks (R188) -/

/-- The first status of a list that is not OK.
[DEDUCED, assumption 42] -/
def firstBad : List Nat → Nat
  | [] => 0
  | a :: r => if a = 0 then firstBad r else a

/-- START_ADDR lies in the window and the window in the customer region (R169). -/
def windowCheck (s : State) (i : SiteId) : Nat :=
  let a := s.n (K.sq_START_ADDR i)
  let b := s.n (K.sq_WIN_BASE i)
  let l := s.n (K.sq_WIN_LIMIT i)
  if 0x2000 ≤ b ∧ b ≤ a ∧ a ≤ l ∧ l ≤ 0x1FFFF then 0 else Status.SEQ_WINDOW

/-- MIN_BOARD_RT (R220). -/
def minBoardRt (s : State) (i : SiteId) : Nat :=
  (s.chans i).foldl (fun a (c : ChanId) => max a (rtSclk (s.g (K.cc_RT c)))) 0

/-- The format check of one source (R107). -/
def formatCheck (s : State) (i : SiteId) (r : Bool × Nat) : Nat :=
  let site := (Store.octets s.od i, s.n (K.cf_BEATS i))
  if r.1 then
    let n : StreamId := Fin.ofNat 64 r.2
    if 64 ≤ r.2 ∨ s.n (K.sm_STATE n) = StrmSt.closed ∨ ((s.strm n).octets, (s.strm n).beats) = site then 0 else Status.SOURCE_FORMAT
  else
    match s.seg? r.2 with
    | none => 0
    | some x => if x.kind = .sample ∨ x.st = .opened ∨ (x.octets, x.beats) = site then 0 else Status.SOURCE_FORMAT

/-- The state check of one source (R66, R88); a stream number above 63 is out of range (Table 2.7).
[DEDUCED, assumption 52] -/
def stateCheck (s : State) (i : SiteId) (r : Bool × Nat) : Nat :=
  if r.1 then
    let n : StreamId := Fin.ofNat 64 r.2
    if 64 ≤ r.2 then Status.STREAM_BAD_NUMBER
    else if (s.n (K.sm_STATE n) ≠ StrmSt.opened ∧ s.n (K.sm_STATE n) ≠ StrmSt.ended) ∨ s.n (K.sm_OWNER_SITE n) ≠ i.val ∨
        s.n (K.sm_RD_PTR n) ≠ 0 then Status.STREAM_STATE
    else if s.n (K.sm_WR_PTR n) < s.n (K.sm_PRIME n) ∧ (s.strm n).lastIn = false then Status.STREAM_NOT_PRIMED
    else 0
  else
    match s.seg? r.2 with
    | none => Status.SEG_STATE
    | some x =>
      if (x.st = .inactive ∨ x.st = .active) ∧ x.moving = none ∧ x.kind = .vector then 0 else Status.SEG_STATE

/-- The sample steps of a site's engines in ascending engine and step order. -/
def sampleSteps (s : State) (i : SiteId) : List (BitVec 128) :=
  (allEngs.filter (fun e => s.engSite e == some i)).flatMap
    (fun e => ((s.eng e).steps.filter (fun k => Step.kind k.2 == 2)).map (·.2))

/-- The check of the segment that a SAMPLE step names (R366). -/
def sampleCheck (s : State) (w : BitVec 128) : Nat :=
  match s.seg? (Step.seg w) with
  | none => Status.SEG_STATE
  | some x =>
    if (x.st = .inactive ∨ x.st = .active) ∧ x.moving = none ∧ x.kind = .sample ∧ x.home = .hbm ∧
        Step.offset w + playLen s w ≤ x.len then 0 else Status.SEG_STATE

/-- PAD on a source of a site that is not declared pausable (R98). -/
def padCheck (s : State) (i : SiteId) : Nat :=
  if s.b (K.cf_PAUSABLE i) then 0
  else if (sourceList s i).any (fun e =>
      if e.2.1 then s.g (K.sm_UNDERRUN_ACTION (e.2.2 % 64)) == 1 else s.g (K.md_SEG_UNDERRUN_ACTION i) == 1)
    then Status.ACTION_INVALID
  else 0

/-- What a site's declarations add to an admission class 0 to 5 (Table 2.5). -/
def classOf (s : State) (i : SiteId) (k : Nat) : Nat :=
  match k with
  | 0 => s.n (K.md_DECL_FETCH i)
  | 1 => s.n (K.md_DECL_FAIL i)
  | 2 => s.n (K.md_DECL_SAMPLE i)
  | 3 => s.n (K.md_DECL_DEEP i) + s.n (K.md_DECL_STREAM i)
  | 4 => s.n (K.md_DECL_STREAM i)
  | _ => s.n (K.md_DECL_DEEP i) + s.n (K.md_DECL_SPILL i)

/-- ADM_RESERVED of a class: the declarations of the sites that hold a reservation (R95). -/
def admReserved (s : State) (k : Nat) : Nat :=
  (allSites.filter (fun (i : SiteId) => s.b (K.md_RESERVED_NOW i))).foldl (fun a i => a + classOf s i k) 0

/-- The first admission class that a site would exceed: class, sum, budget (R93). -/
def admission (s : State) (i : SiteId) : Option (Nat × Nat × Nat) :=
  ((List.range 6).map (fun k => (k, admReserved s k + classOf s i k, s.n (K.ab_ADM_BUDGET k)))).find?
    (fun q => decide (q.2.2 < q.2.1))

/-- HBM extents of a site's staging area: none without a deep entry (R74).
[DESIGN CHOICE, assumption 20] -/
def stagingExtents (s : State) (i : SiteId) : Nat :=
  let n := ((sourceList s i).filter (fun e => s.deepEntry i e.1)).length
  if n = 0 then 0 else (s.n (K.md_STAGE_WINDOW i) + 256 * n + 511) / 512

/-- The arming checks in their order, with those of R699 and R711 before them; a refusal by admission is recorded in
2403h. -/
def armCheck (i : SiteId) (s : State) : Nat × State :=
  let list := (sourceList s i).map (·.2)
  let st := firstBad
    [ if deviceSafe s then Status.FLT_SAFE else 0,
      if (s.chans i).any (fun (c : ChanId) => s.flt.noEng.contains c.val) then Status.FLT_RETIRED else 0,
      windowCheck s i,
      if s.n (K.cf_BOARD_RT i) < minBoardRt s i then Status.BOARD_RT_SHORT else 0,
      firstBad (list.map (formatCheck s i)),
      firstBad (list.map (stateCheck s i)),
      firstBad ((sampleSteps s i).map (sampleCheck s)),
      padCheck s i ]
  if st ≠ 0 then (st, s)
  else
    match admission s i with
    | some (k, sum, budget) =>
      let code := Status.ADM_FETCH + k
      (code, (((s.p K.rf_REFUSED_SITE i.val).p K.rf_REFUSED_STATUS code).p K.rf_REFUSED_SUM sum).p K.rf_REFUSED_BUDGET budget)
    | none => (if s.hbmFree < stagingExtents s i then Status.SEG_NO_SPACE else 0, s)

/-! ### What arming does (R66, R74, R95, R137, R138, R189, R190, R314, R336, R372) -/

/-- Takes one reference for a site, each source once. -/
def takeRef (i : SiteId) (s : State) (r : Bool × Nat) : State :=
  if (s.site i).refs.contains r then s
  else
    let s := s.modSite i (fun x => { x with refs := x.refs ++ [r] })
    if r.1 then
      let n : StreamId := Fin.ofNat 64 r.2
      let s := s.setStrm n { s.strm n with refBy := some i }
      if s.n (K.sm_STATE n) = StrmSt.opened then s.p (K.sm_STATE n) StrmSt.active else s
    else
      match s.seg? r.2 with
      | none => s
      | some x => s.setSeg r.2 { x with refs := x.refs + 1, st := .active }

/-- The pin state code of a channel in the initial vector (R138): DP for SLATH_MODE 1, else DZ.
[DESIGN CHOICE, assumption 41] -/
def initCode (s : State) (i : SiteId) (c : Nat) : Nat :=
  let c : ChanId := Fin.ofNat 256 c
  if Store.hasChan s.od i c ∧ s.g (K.ch_SLATH_MODE c) = 1 then 6 else 2

/-- The initial vector (R138).
[DESIGN CHOICE, assumption 41] -/
def initVec (s : State) (i : SiteId) : Vec :=
  { tset := s.n (K.sq_INIT_TSET i)
    slices := (Yealm.octetList (Store.octets s.od i)).map
      (fun o => (o, Yealm.fill (2 ^ s.n (K.cf_BEATS i)) (fun p => initCode s i (8 * o + p)))) }

/-- A site's record at arming.
[DEDUCED, assumption 45] -/
def armSite (i : SiteId) (s : State) : Site :=
  let x := s.site i
  let deep := ((sourceList s i).filter (fun e => s.deepEntry i e.1)).map (·.1)
  let heads := ((sourceList s i).filter (fun e => (s.n (K.sl_SOURCE_ENTRY i e.1)).testBit 29)).map
    (fun e => { entry := e.1, idx := 0, flagged := true : Head })
  { next := s.n (K.sq_START_ADDR i)
    halted := false
    lastVec := initVec s i
    heads := heads.take 4
    staging := { entry := deep.head?, extents := stagingExtents s i }
    evFifo := x.evFifo
    refs := x.refs
    recent := x.recent
    edges := x.edges
    ddHi := ((s.chans i).filter (slathLevel s.od)).map (fun (c : ChanId) => c.val) }

/-- The objects that an arming clears.
[DESIGN CHOICE, assumption 50] -/
def armCleared (i : SiteId) : List Nat :=
  [K.st_EVT_LATCHED i, K.st_STOP_CAUSE i, K.st_FAULT_SOURCE i, K.st_PAUSES i, K.st_CYCLE i,
   K.sr_FRAMES i, K.sr_EXECUTIONS i, K.sr_SINCE_SAFE i, K.sr_MAX_SINCE_SAFE i, K.sr_REP_LEFT i, K.sr_STICKY_FAIL i,
   K.md_PAD_FRAMES i, K.se_EVT_LOST i,
   K.fr_LOG_WRITTEN i, K.fr_LOG_OLDEST i, K.fr_FAIL_VECTORS i, K.fr_COUNT_ONLY i, K.fr_CO_CAUSE i, K.fr_CO_CYCLE i,
   K.fr_LOG_LOST i, K.fr_PAD_RECORDS i, K.fr_CAP_WRITTEN i, K.fr_CAP_LOST i, K.fr_SPILLED i, K.fr_CYCLE_WRAPS i,
   K.ff_FF_VALID i, K.ff_FF_SOURCE i, K.ff_FF_ORDINAL i, K.ff_FF_CYCLE i, K.ff_FF_FRAME i, K.ff_FF_TSET i, K.ff_FF_BEATS i]
  ++ (List.range 4).map (fun j => K.ff_FF_MAP i j) ++ (List.range 16).map (fun j => K.lc_MARK i j)

/-- The channels of a site at arming: drive memory at the initial vector's code, expectation memory CX, pin counts 0 and no pattern
cause (R276, Table 6.9). -/
def armChan (i : SiteId) (s : State) (c : ChanId) : State :=
  (((s.p (K.ch_DRIVE_MEM c) (if initCode s i c.val = 6 then 32 else 16)).p (K.ch_EXP_MEM c) 12).p
    (K.pf_PIN_FAILS (c / 32) (c % 32)) 0).p (K.ch_PATTERN_CAUSE c) 0

/-- The references that an arming takes (R66, R67). -/
def armRefs (i : SiteId) (s : State) : State :=
  let x := armSite i s
  let s := s.setSite i x
  let s := ((sourceList s i).map (·.2)).foldl (takeRef i) s
  ((sampleSteps s i).map (fun w => (false, Step.seg w))).foldl (takeRef i) s

/-- The site as its arming leaves it: references taken, counts and latches cleared, channels and engines at their start.
[DESIGN CHOICE, assumption 50] [DESIGN CHOICE, assumption 51] -/
def armBody (i : SiteId) (s : State) : State :=
  let s := (armRefs i s).zero (armCleared i)
  let s := (s.chans i).foldl (armChan i) s
  wSiteArmed i ((s.p (K.md_RESERVED_NOW i) 1).setSt i SS.armed)

/-- The site enters ARMED (R189); an octet of it that is unlocked parks it in the same step (R256). -/
def armGo (i : SiteId) (s : State) : State :=
  let s := armBody i s
  let s := { s with
    mem := { s.mem with starts := s.mem.starts.filter (fun m => !m.getLsbD i) }
    cal := { s.cal with barred := s.cal.barred.filter (fun c => !(s.chans i).any (fun (d : ChanId) => d.val == c)) } }
  match (s.chans i).find? (fun (c : ChanId) => !s.b (K.ch_WITHY_LOCKED c)) with
  | some c => parkRaise i (Src.WITHY_UNLOCK (c / 8)) 0 s
  | none => s

/-! ### Site commands (Tables 4.2, 4.3) -/

/-- LOAD of one site. -/
def loadSite (i : SiteId) (s : State) : Nat × State :=
  if s.st i ≠ SS.idle then (Status.SITE_STATE, s)
  else if (s.chans i).isEmpty then (Status.SITE_EMPTY, s)
  else (0, s.setSt i SS.loaded)

/-- UNLOAD and RESET release the site's references (R67), and are refused while its parking episode is handled (R187). -/
def leaveSite (from_ : List Nat) (to_ : Nat) (i : SiteId) (s : State) : Nat × State :=
  if from_.contains (s.st i) = false then (Status.SITE_STATE, s)
  else if s.st i = SS.faulted ∧ siteFaultOpen s i then (Status.SITE_FAULT_OPEN, s)
  else (0, (s.releaseRefs i).setSt i to_)

/-- ARM of one site. LAST_ARM_STATUS takes the status where Table 2.7 holds it. -/
def armSiteCmd (i : SiteId) (s : State) : Nat × State :=
  if s.st i ≠ SS.loaded then (Status.SITE_STATE, s)
  else
    let r := armCheck i s
    let s := if r.1 = 0 then armGo i r.2 else r.2
    (r.1, if r.1 ≤ 0x0407 then s.p (K.md_LAST_ARM_STATUS i) r.1 else s)

/-- PAUSE of one site: the request waits for a safe point (R194, R196). -/
def pauseSite (i : SiteId) (s : State) : Nat × State :=
  if s.st i ≠ SS.running then (Status.SITE_STATE, s)
  else if s.b (K.cf_PAUSABLE i) = false then (Status.SITE_NOT_PAUSABLE, s)
  else
    let m := s.n (K.sr_PENDING_INT i)
    (0, s.p (K.sr_PENDING_INT i) (if m.testBit 2 then m else m + 4 : Nat))

/-- RESUME of one site (R160, R197). -/
def resumeCmd (i : SiteId) (s : State) : Nat × State :=
  if s.st i ≠ SS.paused then (Status.SITE_STATE, s) else (0, resumeSite i s)

/-- An ARMED or PAUSED site stops at once (Table 4.3). -/
def stopNow (i : SiteId) (cause : Nat) (s : State) : State := siteEnds i SS.stopped (s.p (K.st_STOP_CAUSE i) cause)

/-- STOP (bit 1, cause 2) or ABORT (bit 0, cause 3) of one site: at once in ARMED and PAUSED, else at a safe point.
[DEDUCED, assumption 44] -/
def endSite (bit_ cause : Nat) (i : SiteId) (s : State) : Nat × State :=
  if s.active i = false then (Status.SITE_STATE, s)
  else if s.st i ≠ SS.running then (0, stopNow i cause s)
  else
    let m := s.n (K.sr_PENDING_INT i)
    if m.testBit bit_ then (0, s)
    else (0, (s.p (K.sr_PENDING_INT i) (m + 2 ^ bit_ : Nat)).modSite i
      (fun x => if bit_ = 0 then { x with abortAt := s.now } else x))

/-- Carries out a command on each site of a mask independently (R183); the status of each site is kept in its 2040h.05,
and that of the lowest refused site is the command's.
[DEDUCED, assumption 42] -/
def eachCmd (f : SiteId → State → Nat × State) (mask : SiteMask) (s : State) : Nat × State :=
  (sitesOf mask).foldl (fun a i =>
    let r := f i a.2
    (if a.1 = 0 then r.1 else a.1, r.2.p (K.st_LAST_CMD_STATUS i) r.1)) (0, s)

/-- Why a site may not be started (R191). -/
def startCheck (s : State) (i : SiteId) : Nat :=
  if s.st i ≠ SS.armed then Status.SITE_STATE
  else if s.g (K.cf_START_MODE i) = 1 then Status.SITE_START_MODE
  else 0

/-- START: all sites of the mask or none (R191). A refused START gives a named site without a fault of its own the status of the
lowest refused one.
[DESIGN CHOICE, assumption 46] -/
def startSites (mask : SiteMask) (s : State) : Nat × State :=
  let st := firstBad ((sitesOf mask).map (startCheck s))
  if st = 0 then
    let s := (sitesOf mask).foldl (fun (s : State) (i : SiteId) => s.p (K.st_LAST_CMD_STATUS i) 0) s
    (0, if mask = 0 then s else { s with mem := { s.mem with starts := s.mem.starts ++ [mask] } })
  else
    (st, (sitesOf mask).foldl (fun (s' : State) (i : SiteId) =>
      s'.p (K.st_LAST_CMD_STATUS i) (if startCheck s i = 0 then st else startCheck s i)) s)

/-- A site command by its code in Table 4.2; none for any other code.
[DEDUCED, assumption 42] [DEDUCED, assumption 43] -/
def siteCmd (code : Nat) (mask : SiteMask) (s : State) : Option (Nat × State) :=
  match code with
  | 1 => some (eachCmd loadSite mask s)
  | 2 => some (eachCmd (leaveSite [SS.loaded, SS.stopped, SS.faulted] SS.idle) mask s)
  | 3 => some (eachCmd armSiteCmd mask s)
  | 4 => some (startSites mask s)
  | 5 => some (eachCmd pauseSite mask s)
  | 6 => some (eachCmd resumeCmd mask s)
  | 7 => some (eachCmd (endSite 1 2) mask s)
  | 8 => some (eachCmd (endSite 0 3) mask s)
  | 9 => some (eachCmd (leaveSite [SS.stopped, SS.faulted] SS.loaded) mask s)
  | _ => none

/-- A site command delivered by a queue command, or by a write of SITE_CMD, which CMD_COUNT counts (R181). -/
def siteRow (t : Option Tag) (code : Nat) (mask : SiteMask) (s : State) : State :=
  match t with
  | some t =>
    match siteCmd code mask s with
    | some r => r.2.complete t r.1 0
    | none => s
  | none =>
    let s := s.cnt32 K.sc_CMD_COUNT
    match siteCmd code mask s with
    | some r => r.2
    | none => s

/-- LOAD. -/
def execLoad (t : Option Tag) (mask : SiteMask) (s : State) : Host.Outcome State Fault Refusal :=
  s.either t .timing (.load t mask) fun s =>
  .next (siteRow t 1 mask s.fresh)
/-- UNLOAD. -/
def execUnload (t : Option Tag) (mask : SiteMask) (s : State) : Host.Outcome State Fault Refusal :=
  s.either t .timing (.unload t mask) fun s =>
  .next (siteRow t 2 mask s.fresh)
/-- ARM. -/
def execArm (t : Option Tag) (mask : SiteMask) (s : State) : Host.Outcome State Fault Refusal :=
  s.either t .timing (.arm t mask) fun s =>
  .next (siteRow t 3 mask s.fresh)
/-- START. -/
def execStart (t : Option Tag) (mask : SiteMask) (s : State) : Host.Outcome State Fault Refusal :=
  s.either t .timing (.start t mask) fun s =>
  .next (siteRow t 4 mask s.fresh)
/-- PAUSE. -/
def execPause (t : Option Tag) (mask : SiteMask) (s : State) : Host.Outcome State Fault Refusal :=
  s.either t .timing (.pause t mask) fun s =>
  .next (siteRow t 5 mask s.fresh)
/-- RESUME. -/
def execResume (t : Option Tag) (mask : SiteMask) (s : State) : Host.Outcome State Fault Refusal :=
  s.either t .timing (.resume t mask) fun s =>
  .next (siteRow t 6 mask s.fresh)
/-- STOP. -/
def execStop (t : Option Tag) (mask : SiteMask) (s : State) : Host.Outcome State Fault Refusal :=
  s.either t .timing (.stop t mask) fun s =>
  .next (siteRow t 7 mask s.fresh)
/-- ABORT. -/
def execAbort (t : Option Tag) (mask : SiteMask) (s : State) : Host.Outcome State Fault Refusal :=
  s.either t .timing (.abort t mask) fun s =>
  .next (siteRow t 8 mask s.fresh)
/-- RESET. -/
def execReset (t : Option Tag) (mask : SiteMask) (s : State) : Host.Outcome State Fault Refusal :=
  s.either t .timing (.reset t mask) fun s =>
  .next (siteRow t 9 mask s.fresh)

/-! ### Ready and start (R190 to R192, R453) -/

/-- Calibration does not hold a channel of the site: no native run in its bank, no direct calibration of it (R445, R453). -/
def calFree (s : State) (i : SiteId) : Bool :=
  (s.chans i).all (fun (c : ChanId) =>
    !(match s.cal.native with | some n => n.left.testBit (bankOf c).val | none => false) &&
    (match (s.calBank (bankOf c)).cur with | some w => !(w.chan == c && w.spar.isNone) | none => true))

/-- The last execution waits on an event that has not come: its WAIT or WAITT word executes again (R190).
[DEDUCED, assumption 49] -/
def waitsEvent (s : State) (i : SiteId) : Bool :=
  let x := s.site i
  match kget? s.mem.cs x.next with
  | some w => s.g (K.sr_EXECUTIONS i) != 0 && s.n (K.sr_PC i) == x.next && (MW.op w == 5 || MW.op w == 6)
      && decide (0x10 ≤ MW.cond w) && decide (MW.cond w < 0x20)
      && (s.n (K.st_EVT_LATCHED i)).testBit (MW.cond w - 0x10) == MW.cinv w
  | none => false

/-- READY: the site has issued frames 0 to 20, or all of its frames when its program has ended, and everything that R190
names is loaded.
[DESIGN CHOICE, assumption 48] [DEDUCED, assumption 49] -/
def ready (i : SiteId) (s : State) : State :=
  let x := s.site i
  if s.st i = SS.armed ∧ x.stall = none ∧ (x.fifo.length = 21 ∨ x.halted ∨ x.pausing) ∧ stagingFull s i ∧ calFree s i ∧
      headsLoaded s i = true ∧ waitsEvent s i = false then
    s.p (K.st_READY i) 1
  else s

/-- READY. -/
def execReady (i : SiteId) (s : State) : Host.Outcome State Fault Refusal := .next (s.fresh.timed (ready i))

/-- A READY site enters RUNNING and its formatters take frame 0 (R191, R192, R227). -/
def runSite (i : SiteId) (s : State) : State :=
  let s := (s.p (K.st_READY i) 0).setSt i SS.running
  takeFrame i (s.modSite i (fun x => { x with origin := s.now, vstart := 0, startAt := none }))

/-- START_WHEN_READY: every site of a START is READY, and all of them start in this SCLK (R191).
[DESIGN CHOICE, assumption 46] -/
def startWhenReady (mask : SiteMask) (s : State) : State :=
  if s.mem.starts.contains mask ∧ (sitesOf mask).all (fun (i : SiteId) => s.st i == SS.armed && s.b (K.st_READY i)) then
    eachSite runSite mask { s with mem := { s.mem with starts := s.mem.starts.filter (fun m => (m &&& mask) == 0) } }
  else s

/-- START_WHEN_READY. -/
def execStartWhenReady (mask : SiteMask) (s : State) : Host.Outcome State Fault Refusal := .next (s.fresh.timed (startWhenReady mask))

/-! ### The end of a run, pause and resumption (R196 to R199, R160) -/

/-- Every frame issued has been driven and has left the balls (R240), its results are latched and its log entries written. -/
def drained (x : Site) : Bool :=
  x.stall.isNone && x.fifo.isEmpty && x.undriven.isEmpty && x.left && x.failPend.isEmpty && x.failFifo.isEmpty && x.cutAt.isNone

/-- SITE_STOPPED: the results of the last frame are latched and logged (Table 4.3, R198). -/
def siteStopped (i : SiteId) (s : State) : State :=
  let x := s.site i
  if s.st i = SS.running ∧ x.halted ∧ drained x then
    siteEnds i SS.stopped (s.p (K.st_STOP_CAUSE i) (x.stopAt.elim 0 (·.2) : Nat))
  else s

/-- SITE_STOPPED. -/
def execSiteStopped (i : SiteId) (s : State) : Host.Outcome State Fault Refusal := .next (s.fresh.timed (siteStopped i))

/-- SITE_PAUSED: the results of the last frame before the pause are latched and logged (R196); a STOP or ABORT that came
while the pause drained takes effect at once, and a PAUSE that is still pending is withdrawn.
[DEDUCED, assumption 44] [DESIGN CHOICE, assumption 234] -/
def sitePaused (i : SiteId) (s : State) : State :=
  let x := s.site i
  if s.st i = SS.running ∧ x.pausing ∧ drained x then
    let s := flushMk i (fun _ => true) ((s.modSite i (fun x => { x with pausing := false })).setSt i SS.paused)
    let s := slathAfter i s.od x.endTime s
    let m := s.n (K.sr_PENDING_INT i)
    if m.testBit 0 then stopNow i 3 s
    else if m.testBit 1 then stopNow i 2 s
    else s.p (K.sr_PENDING_INT i) (if m.testBit 2 then m - 4 else m : Nat)
  else s

/-- SITE_PAUSED. -/
def execSitePaused (i : SiteId) (s : State) : Host.Outcome State Fault Refusal := .next (s.fresh.timed (sitePaused i))

/-- RESUME_RUNNING: the FIFO again holds 16 frames and the formatters take the first of them (R160, R197).
[DEDUCED, assumption 47] -/
def resumeRunning (i : SiteId) (s : State) : State :=
  let x := s.site i
  if s.st i = SS.paused ∧ x.resuming ∧ mayTake x then
    let s := (s.modSite i (fun x => { x with resuming := false, vstart := (s.now - x.origin) * 10000 })).cnt32 (K.st_PAUSES i)
    takeFrame i (s.setSt i SS.running)
  else s

/-- RESUME_RUNNING. -/
def execResumeRunning (i : SiteId) (s : State) : Host.Outcome State Fault Refusal := .next (s.fresh.timed (resumeRunning i))

end Sys2Proof.Machine
end

