-- ==== Sys2Proof/Machine/Values.lean ====
section
/-! DEFINITION. Values of the object dictionary: their encodings (R610), ranges and reserved bits (R14), and what a read
returns of each object (R609, R612), stored or derived. -/
namespace Sys2Proof.Machine
open Sys2Proof Objects

/-! ### Encodings (R610) -/

/-- One byte of a UTF-8 text: continuation bytes still due, and the range of the next; none once the text is invalid. -/
def utf8Step (st : Option (Nat × Nat × Nat)) (b : Byte) : Option (Nat × Nat × Nat) :=
  let v := b.toNat
  match st with
  | none => none
  | some (0, _, _) =>
    if v < 0x80 then some (0, 0, 0)
    else if 0xC2 ≤ v ∧ v ≤ 0xDF then some (1, 0x80, 0xBF)
    else if v = 0xE0 then some (2, 0xA0, 0xBF)
    else if v = 0xED then some (2, 0x80, 0x9F)
    else if 0xE1 ≤ v ∧ v ≤ 0xEF then some (2, 0x80, 0xBF)
    else if v = 0xF0 then some (3, 0x90, 0xBF)
    else if 0xF1 ≤ v ∧ v ≤ 0xF3 then some (3, 0x80, 0xBF)
    else if v = 0xF4 then some (3, 0x80, 0x8F)
    else none
  | some (n + 1, lo, hi) => if lo ≤ v ∧ v ≤ hi then some (n, 0x80, 0xBF) else none

/-- Valid UTF-8. -/
def utf8Ok (l : List Byte) : Bool :=
  match l.foldl utf8Step (some (0, 0, 0)) with
  | some (0, _, _) => true
  | _ => false

/-- The encoding is valid (R610). -/
def encodingValid (ty : Ty) (v : SVal) : Bool :=
  match ty, v with
  | .bool, .num x => x == 0 || x == 1
  | .f32, .num x => bits x.toNat 23 8 != 255
  | .str, .bytes l => decide (l.length ≤ 255) && utf8Ok l
  | .domain m, .bytes l => decide (l.length ≤ m)
  | _, _ => true

/-- A number meets a range check. -/
def chkOk : Chk → Int → Bool
  | .any, _ => true
  | .rng lo hi, v => decide (lo ≤ v) && decide (v ≤ hi)
  | .mul m c, v => v % m == 0 && chkOk c v
  | .orv w c, v => v == w || chkOk c v
  | .oneOf l, v => l.contains v
  | .rsv m c, v => (v.toNat &&& m) == 0 && chkOk c v

/-- A value meets its object's encoding, range and reserved bits. -/
def inRange (r : Row) (v : SVal) : Bool :=
  encodingValid r.ty v && (match v with | .num x => chkOk r.chk x | .bytes _ => true)

/-! ### Derived objects -/

/-- 1 bit per element of a list of booleans. -/
def maskOf (l : List Bool) : Nat := l.foldr (fun b a => b2n b + 2 * a) 0

/-- The text of a const STR. -/
def textBytes (t : String) : List Byte := t.toList.map (fun c => BitVec.ofNat 8 c.toNat)

/-- An exactly linear table of the 641 settings of 10 elements at the nominal fine step of 122.0703125 fs, rounded to fs
(R432). -/
def linearTable : List Byte :=
  (List.replicate 10 ((List.range 641).flatMap (fun f => toBytes 4 ((f * 15625 + 64) / 128)))).flatten

/-- The binary32 number nearest to n / d, a tie to the even one; 0, or from 2^-10 up.
[DESIGN CHOICE, assumption 126] -/
def f32Bits (n d : Nat) : Nat :=
  let e := ((List.range 40).filter (fun e => decide (d * 2 ^ e ≤ n * 1024))).length
  if e = 0 then 0
  else
    let num := n * 2 ^ 34
    let den := d * 2 ^ e
    let q := num / den
    let r := num % den
    let m := if den < 2 * r ∨ (2 * r = den ∧ q % 2 = 1) then q + 1 else q
    (e + 116) * 2 ^ 23 + (m - 2 ^ 23)

/-- ELEM_STEP: the mean fine step of an element by its linearity table, the linear one before its first calibration (R250, R770).
[DESIGN CHOICE, assumption 126] -/
def elemStep (s : State) (c k : Nat) : Int :=
  let l := s.blob (K.cc_LIN c)
  let t (j : Nat) : Nat := field l (4 * (641 * k + j)) 4
  if l = [] then f32Bits 78125 640 else f32Bits (t 640 - t 0) 640

/-- DRIFT: the largest distance of an offset from its sealed baseline. -/
def drift (s : State) (c : Nat) : Int :=
  (List.range 10).foldl (fun a k => max a (iabs (s.g (K.cc_OFS c k) - s.g (K.cc_BASE_OFS c k)))) 0

/-- ROLE: the roles for which any group names the DAC (R487). -/
def roles (s : State) (d : Nat) : Nat :=
  maskOf ((List.range 7).map (fun r => (List.range 32).any (fun g => s.g (K.lg_GROUP_MAP g r) == (d : Int))))

/-- TXN_PATH and TXN_OWNER of a path. -/
def ownerCode : Path → Nat × Nat
  | .t1s node session => (0, node.val * 65536 + session.toNat)
  | .pcie f _ => (1, f.val)
  | .mbox => (2, 0)

/-- The objects of a transaction record. -/
def txnObject (t : Txn) (sub : Nat) : Int :=
  if t.st = 0 then 0
  else match sub with
    | 1 => t.num
    | 2 => t.st
    | 3 => (ownerCode t.owner).1
    | 4 => (ownerCode t.owner).2
    | 5 => t.bytes
    | 6 => t.kind
    | 7 => t.sites.toNat
    | 8 => t.status
    | 9 => t.first
    | 10 => t.detail
    | _ => 0

/-- The query objects of the source in QUERY_SRC (7018h). -/
def queryObject (s : State) (sub : Nat) : Int :=
  let src := s.n K.fw_QUERY_SRC
  let x := s.src src
  match sub with
  | 2 => ((sevOf s src).getD 0xFF : Nat)
  | 3 => ((Src.dfltSev src).getD 0xFF : Nat)
  | 4 => x.raises
  | 5 => x.transient
  | 6 => x.persistent
  | 7 => b2i x.active
  | 8 => x.lastEp
  | _ => 0

/-- EVT_RAW of an input: the level at its source after polarity. A ball keeps the level that a command last showed there; before the
first one it is drawn free (R224).
[DESIGN CHOICE, assumption 70] -/
def rawEvent (s : State) (n : EvtId) : Bool :=
  match s.n (K.el_EVT_SRC n) with
  | 0 => (match (s.evt n).pin with
          | some v => v
          | none => ((Config.freeInt s.free) / 2 ^ n.val) % 2 != 0) != s.b (K.el_EVT_ACTIVE_LOW n)
  | 1 => markerLevel s n
  | _ => false

/-- Derived objects of the host interface, the transactions, the time and the sites. -/
def derivedLow (s : State) (idx sub : Nat) : Option Int :=
  if idx = 0x1140 then
    (match sub with | 11 => some (inFlightOf s (fun _ => true)) | 12 => some (tagsOut s) | _ => none)
  else if 0x1150 ≤ idx ∧ idx < 0x1171 then
    let f : FnId := Fin.ofNat 33 (idx - 0x1150)
    (match sub with
     | 2 => some (s.fnSites f).toNat
     | 3 => some (s.host.queues.filter (fun q => q.2.fn == f)).length
     | 4 => some (inFlight s f)
     | _ => none)
  else if 0x1180 ≤ idx ∧ idx < 0x11A0 then
    (match sub with | 2 => some (s.site (Fin.ofNat 32 (idx - 0x1180))).evFifo.length | _ => none)
  else if idx = 0x1200 then
    (match sub with | 2 => some (allTxns.filter (fun k => (s.txn k).live)).length | _ => none)
  else if 0x1210 ≤ idx ∧ idx < 0x1218 then some (txnObject (s.txn (Fin.ofNat 8 (idx - 0x1210))) sub)
  else if idx = 0x1800 then (match sub with | 1 => some (s.utc : Int) | _ => none)
  else if idx = 0x2000 then
    (match sub with | 5 => some (maskOf (allSites.map (fun i => s.st i == SS.running))) | _ => none)
  else if 0x2020 ≤ idx ∧ idx < 0x2040 then
    (match sub with | 5 => some (Store.octets s.od (Fin.ofNat 32 (idx - 0x2020))) | _ => none)
  else if 0x2040 ≤ idx ∧ idx < 0x2060 then
    let i : SiteId := Fin.ofNat 32 (idx - 0x2040)
    (match sub with | 6 => some (s.horizon i) | 7 => some (minBoardRt s i) | _ => none)
  else if 0x2230 ≤ idx ∧ idx < 0x2250 then
    (match sub with | 3 => some (s.site (Fin.ofNat 32 (idx - 0x2230))).stack.length | _ => none)
  else if idx = 0x2400 then
    (match sub with
     | 2 => some (s.hbmFree * 2097152 : Nat)
     | 4 => some (s.deepFree * 2097152 : Nat)
     | 6 => some s.mem.segs.length
     | 7 => some ((List.range 64).filter (fun n => s.g (K.sm_STATE n) != 0)).length
     | _ => none)
  else if idx = 0x2402 then some (admReserved s (sub - 1))
  else if 0x2480 ≤ idx ∧ idx < 0x24C0 then
    (match sub with | 13 => some (s.retain (Fin.ofNat 64 (idx - 0x2480))) | _ => none)
  else if 0x2630 ≤ idx ∧ idx < 0x2650 then
    let i : SiteId := Fin.ofNat 32 (idx - 0x2630)
    let x := s.site i
    if s.st i = SS.running ∨ x.taken ≠ [] ∨ x.failPend ≠ [] then kget? x.resSnap sub else none
  else if idx = 0x2600 then (match sub with | 3 => some s.logRate | _ => none)
  else none

/-- Derived objects of the engines, calibration, events, faults and management.
[DESIGN CHOICE, assumption 156] -/
def derivedHigh (s : State) (idx sub : Nat) : Option Int :=
  if 0x3000 ≤ idx ∧ idx < 0x3100 ∧ 6 ≤ sub ∧ sub ≤ 15 then some (elemStep s (idx - 0x3000) (sub - 6))
  else if 0x3100 ≤ idx ∧ idx < 0x3200 then
    let c := idx - 0x3100
    (match sub with
     | 0x14 => if s.g (K.cc_CAL_KIND c) = 0 then some 6 else none
     | 0x17 => some (drift s c)
     | _ => none)
  else if 0x5000 ≤ idx ∧ idx < 0x50C0 then
    let d : DacId := Fin.ofNat 192 (idx - 0x5000)
    (match sub with
     | 5 => some (roles s d)
     | 12 => some (if isCurrent d then Config.freeInt s.free else 0)
     | _ => none)
  else if idx = 0x5400 then (match sub with | 14 => some s.commitsHour | _ => none)
  else if 0x5410 ≤ idx ∧ idx < 0x5418 then
    let b : BankId := Fin.ofNat 8 (idx - 0x5410)
    (match sub with | 5 => some (s.calBank b).queued | 6 => some (s.denied b) | _ => none)
  else if idx = 0x5438 then (match sub with | 6 => some s.sealLeft | _ => none)
  else if idx = 0x6400 then
    (match sub with
     | 1 => some (maskOf (allEvts.map (rawEvent s)))
     | 4 => some (markerBits s)
     | _ => none)
  else if 0x4420 ≤ idx ∧ idx < 0x4428 then
    let e : EngId := Fin.ofNat 8 (idx - 0x4420)
    kget? (s.eng e).snap sub
  else if idx = 0x7000 then
    (match sub with
     | 4 => some (uncleared s).length
     | 5 => some ((uncleared s).foldl (fun a k => max a (s.n (K.ep_EP_SEVERITY k))) 0)
     | 6 => some (b2i (pinsAsserted s))
     | _ => none)
  else if idx = 0x7018 then (if sub = 1 then none else some (queryObject s sub))
  else if idx = 0x7060 then some ((List.range 32).filter (fun j => s.g (K.rt_RETIRE j) != 0)).length
  else if idx = 0x7460 then
    (match sub with
     | 2 => some (sectorsFree s.mgmt)
     | 3 => some (sectorsFree s.mgmt)
     | 4 => some (liveBytes s.mgmt)
     | 5 => some (256 * tailPages s.mgmt : Nat)
     | 6 => some s.pcommitsHour
     | 8 => some ((s.mgmt.freed + 991) / 992 : Nat)
     | 9 => some (s.mgmt.freed / 99200 : Nat)
     | _ => none)
  else if idx = 0x7810 then (match sub with | 3 => some s.keyLeft | _ => none)
  else none

/-- A numeric object as it reads: subindex 00h is the highest subindex in use (R609); other derived values; or the value
that is held. -/
def readNum (s : State) (key : Nat) : Int :=
  let idx := key / 256
  let sub := key % 256
  if sub = 0 then (match groupOf idx with | some g => (maxSub g : Nat) | none => 0)
  else
    match (if idx < 0x3000 then derivedLow s idx sub else derivedHigh s idx sub) with
    | some v => v
    | none => s.g key

/-- The bytes of a list of entries of w bytes from an entry on, n entries. -/
def listImage (w first n : Nat) (get : Nat → Nat) : List Byte := (List.range n).flatMap (fun k => toBytes w (get (first + k)))

/-- A read of 4430h.01 to .04: entries from TABLE_FIRST to the object's limit or the table's end (R395). -/
def tableImage (s : State) (e : EngId) (sub : Nat) : List Byte :=
  let x := s.eng e
  let f := s.n (K.wd_TABLE_FIRST e)
  match sub with
  | 1 => listImage 8 f (4096 - f) (fun k => kgetD x.lists.f k 0)
  | 2 => listImage 4 f (4096 - f) (fun k => kgetD x.lists.p k 0)
  | 3 => listImage 4 f (4096 - f) (fun k => kgetD x.lists.a k 0)
  | _ => listImage 16 f (min 2048 (16384 - f)) (fun k => (x.step k).toNat)

/-- A recorded linearity table, or the linear one. -/
def linImage (s : State) (key : Nat) : List Byte := (kget? s.blobs key).getD linearTable

/-- A STR or DOMAIN object as it reads. -/
def readBytes (s : State) (key : Nat) : List Byte :=
  let idx := key / 256
  let sub := key % 256
  if idx = 0x1000 then
    (match sub with
     | 1 => textBytes "Tumbistra Microsystems"
     | 2 => textBytes "KZ256Z"
     | _ => Config.serial)
  else if idx = 0x1811 then s.logData
  else if 0x3100 ≤ idx ∧ idx < 0x3200 then linImage s key
  else if 0x4010 ≤ idx ∧ idx < 0x4020 then linImage s key
  else if 0x4430 ≤ idx ∧ idx < 0x4438 then tableImage s (Fin.ofNat 8 (idx - 0x4430)) sub
  else if key = K.kk_SEAL_KEY_HASH then (match s.mgmt.partKey with | some k => Config.sha384 k | none => [])
  else if key = K.rk_ROOT_KEY_HASH then Config.rootKeyHash
  else s.blob key

/-- The value of an object as it reads. -/
def readValue (s : State) (key : Nat) : SVal := if isBytes key then .bytes (readBytes s key) else .num (readNum s key)

/-- The row of an object as the dictionary has it, with subindex 00h of every index in use (R609, R615): none with the
status that refuses it. -/
def findObject (key : Nat) : Except Nat Row :=
  match groupOf (key / 256) with
  | none => .error Status.OD_NO_OBJECT
  | some _ =>
    if key % 256 = 0 then .ok ⟨.one 0, "MAX_SUB", .u 1, .const, .none, 0, .any⟩
    else match rowOf key with
      | some r => .ok r
      | none => .error Status.OD_NO_SUB

/-! ### Reads that a stopped timing group refuses (R547), and the flag that a read clears (R105) -/

/-- Areas of the timing group. -/
def timingArea (idx : Nat) : Bool :=
  let a := idx / 256
  a == 0x20 || a == 0x22 || a == 0x24 || a == 0x26 || a == 0x30 || a == 0x44 || a == 0x48 || a == 0x54 || a == 0x64
    || (decide (0x4010 ≤ idx) && decide (idx < 0x4020)) || idx == 0x6040 || (decide (0x6030 ≤ idx) && decide (idx < 0x6038))

/-- The flag is cleared by the read (R105).
[DEDUCED, assumption 136] -/
def clearsOnRead (key : Nat) : Bool :=
  (decide (0x2480 ≤ key / 256) && decide (key / 256 < 0x24C0) && key % 256 == 7)
    || (decide (0x2440 ≤ key / 256) && decide (key / 256 < 0x2460) && key % 256 == 12)

end Sys2Proof.Machine
end

