-- ==== Sys2Proof/Machine/Rules.lean ====
section
/-! DEFINITION. The projected state of a COMMIT (R623) and the rules of every chapter that it is checked against. The
rules that R628 judges again at the apply point stand apart from the others. -/
namespace Sys2Proof.Machine
open Sys2Proof

/-! ### The projected state -/

/-- Writes or clears an entry of a list or table whose unlisted entries are 0. -/
def putNZ (m : KMap Nat) (k v : Nat) : KMap Nat := if v = 0 then kdel m k else kput m k v

/-- The entries of w bytes that bytes hold. -/
def entriesOf (w : Nat) (l : List Byte) : List Nat := (chunks w (l.length / w) l).map leNat

/-- Writes entries into a list from an entry on, as far as the list reaches. -/
def putEntries (limit first : Nat) (v : List Nat) (m : KMap Nat) : KMap Nat :=
  (v.zipIdx first).foldl (fun m x => if x.2 < limit then putNZ m x.2 x.1 else m) m

/-- Writes steps into the sequence table from a step on. -/
def putSteps (first : Nat) (v : List Nat) (m : KMap (BitVec 128)) : KMap (BitVec 128) :=
  (v.zipIdx first).foldl (fun m x =>
    if x.2 < 16384 then (if x.1 = 0 then kdel m x.2 else kput m x.2 (BitVec.ofNat 128 x.1)) else m) m

/-- A write of 4430h.01 to .04: entries from TABLE_FIRST (R362, R368). -/
def putTable (e : EngId) (sub : Nat) (l : List Byte) (s : State) : State :=
  let x := s.eng e
  let f := s.n (K.wd_TABLE_FIRST e)
  match sub with
  | 1 => s.setEng e { x with lists := { x.lists with f := putEntries 4096 f (entriesOf 8 l) x.lists.f } }
  | 2 => s.setEng e { x with lists := { x.lists with p := putEntries 4096 f (entriesOf 4 l) x.lists.p } }
  | 3 => s.setEng e { x with lists := { x.lists with a := putEntries 4096 f (entriesOf 4 l) x.lists.a } }
  | _ => s.setEng e { x with steps := putSteps f (entriesOf 16 l) x.steps }

/-- The engine and subindex of a list or table object. -/
def tableOf (key : Nat) : Option (EngId × Nat) :=
  let idx := key / 256
  if 0x4430 ≤ idx ∧ idx < 0x4438 ∧ key % 256 ≤ 4 then some (Fin.ofNat 8 (idx - 0x4430), key % 256) else none

/-- One staged value takes effect as data; an object that is only written acts at the apply and holds nothing. -/
def putValue (s : State) (e : Nat × SVal) : State :=
  if accOf e.1 = .wo then s
  else match e.2 with
    | .num v => s.p e.1 v
    | .bytes l =>
      match tableOf e.1 with
      | some (g, sub) => putTable g sub l s
      | none => s.putBlob e.1 l

/-- The staged value is a number. -/
def SVal.isNum : SVal → Bool
  | .num _ => true
  | .bytes _ => false

/-- A transaction's values take effect as data, in one SCLK: numbers first, so that tables are written from the
TABLE_FIRST that the transaction leaves in force. -/
def applyData (staged : KMap SVal) (s : State) : State :=
  (staged.filter (fun e => !e.2.isNum)).foldl putValue ((staged.filter (fun e => e.2.isNum)).foldl putValue s)

/-- The list or the sequence table behind a subindex of 4430h differs between two states of an engine. -/
def tableDiffers (sub : Nat) (x y : Eng) : Bool :=
  match sub with
  | 1 => x.lists.f != y.lists.f
  | 2 => x.lists.p != y.lists.p
  | 3 => x.lists.a != y.lists.a
  | _ => x.steps != y.steps

/-- A staged value differs from the value it replaces; a list or a sequence table by what the transaction makes of it, from the
TABLE_FIRST that it leaves in force. -/
def changes (before after : State) (e : Nat × SVal) : Bool :=
  match e.2 with
  | .num v => before.g e.1 != v
  | .bytes l =>
    match tableOf e.1 with
    | some (g, sub) => tableDiffers sub (before.eng g) (after.eng g)
    | none => before.blob e.1 != l

/-- One validation: the state in force, the state before this transaction, the projected state, the objects that the
transaction stages, those of them that it changes, and its apply point (R623). -/
structure Ctx where
  /-- the state in force -/
  s : State
  /-- the state with every PENDING transaction applied -/
  before : State
  /-- the projected state -/
  after : State
  /-- staged values -/
  staged : KMap SVal
  /-- objects changed, ascending -/
  ch : List Nat
  /-- apply point -/
  kind : Nat
  /-- its site mask -/
  mask : SiteMask

/-- The validation of staged values on top of a state. -/
def ctxOf (s before : State) (staged : KMap SVal) (kind : Nat) (mask : SiteMask) : Ctx :=
  let after := applyData staged before
  { s := s, before := before, after := after, staged := staged, kind := kind, mask := mask,
    ch := (staged.filter (changes before after)).map (·.1) }

/-- The state of a site at the apply point: under SITE_IDLE the sites of the mask are taken as IDLE (R623). -/
def Ctx.st (c : Ctx) (i : SiteId) : Nat := if c.kind = 1 ∧ c.mask.getLsbD i.val then SS.idle else c.s.st i
/-- The site is IDLE or LOADED at the apply point. -/
def Ctx.quiet (c : Ctx) (i : SiteId) : Bool := decide (c.st i ≤ 1)
/-- The site is ARMED, RUNNING or PAUSED at the apply point. -/
def Ctx.active (c : Ctx) (i : SiteId) : Bool := decide (2 ≤ c.st i) && decide (c.st i ≤ 4)

/-- The changed objects at base + unit with a subindex in a range: unit and key. -/
def Ctx.touched (c : Ctx) (base count lo hi : Nat) : List (Nat × Nat) :=
  (c.ch.filter (fun k =>
    decide (base ≤ k / 256) && decide (k / 256 < base + count) && decide (lo ≤ k % 256) && decide (k % 256 ≤ hi))).map
    (fun k => (k / 256 - base, k))

/-- A violation that names one unit. -/
def viol (status key unit : Nat) : Viol := { status := status, first := key, detail := unit }
/-- The code for no unit. -/
def noUnit : Nat := 0xFFFF

/-- SITE_STATE, naming the lowest-numbered site that is not in the state that a rule requires (R773).
[DEDUCED, assumption 133] -/
def siteState (bad : List (SiteId × Nat)) : Option Viol :=
  match allSites.find? (fun i => bad.any (fun b => b.1 == i)) with
  | none => none
  | some i =>
    match bad.find? (fun b => b.1 == i) with
    | some b => some (viol Status.SITE_STATE b.2 i.val)
    | none => none

/-- Changed per-site objects of sites that fail a test. -/
def Ctx.badSites (c : Ctx) (base lo hi : Nat) (ok : SiteId → Bool) : List (SiteId × Nat) :=
  ((c.touched base 32 lo hi).map (fun t => (siteNo t.1, t.2))).filter (fun t => !ok t.1)

/-- The sites of a mask. -/
def sitesIn (m : Nat) : List SiteId := allSites.filter (fun i => m.testBit i.val)

/-! ### Step 1 (R14, R473, R614) -/

/-- The objects that act only when written outside a transaction (R182, R614, R682, R691, R706, R712, R734). -/
def outsideOnly : List Nat :=
  [K.sc_SITE_CMD, K.tk_TMU_CMD, K.cl_CAL_CMD, K.ll_LVL_LOAD, K.cx_CLK_CMD, K.rd_RIDGE_FIRE, K.sk_SEAL_TOKEN, K.sk_SEAL_CLOSE,
   K.fz_FAULT_CLEAR, K.stc_ST_CMD, K.fwm_FW_IMAGE, K.fwm_FW_CMD, K.bu_DEV_RESET, K.lcy_LC_TOKEN, K.kk_SEAL_KEY]

/-- The value meets its encoding, its range and its reserved bits; the objects that Table 5.4, R487, R489, R490 and R580
check with a status of their own have no range here (R771). -/
def stepOneOk (key : Nat) (v : SVal) : Bool :=
  match Objects.rowOf key with
  | some r => inRange r v
  | none => true

/-- Step 1 of R623 for one staged object. -/
def stepOne (c : Ctx) (e : Nat × SVal) : Option Viol :=
  if stepOneOk e.1 e.2 = false then some (viol Status.OD_RANGE e.1 noUnit)
  else if outsideOnly.contains e.1 then some (viol Status.OD_TXN_FORBIDDEN e.1 noUnit)
  else if accOf e.1 = .sealed ∧ (sealOpen c.s && (c.s.n K.sk_SEAL_SCOPE).testBit (scopeBit e.1)) = false then
    some (viol Status.SEAL_CLOSED e.1 noUnit)
  else none

/-! ### Area 1100h (R571, R580) -/

/-- A queue exists in a site's range. -/
def hasQueue (s : State) (i : SiteId) : Bool := s.host.queues.any (fun q => s.queueSite q.1 == some i)

/-- R571: SITE_FUNC of a site that is not IDLE. -/
def ruleSiteFuncState (c : Ctx) : Option Viol :=
  firstViol (fun t => require (c.st (siteNo (t.2 % 256 - 1)) == SS.idle) (viol Status.Q_BUSY t.2 (t.2 % 256 - 1)))
    (c.touched 0x1142 1 1 32)

/-- R571: SITE_FUNC of a site in whose range a queue exists. -/
def ruleSiteFunc (c : Ctx) : Option Viol :=
  firstViol (fun t =>
    let i := siteNo (t.2 % 256 - 1)
    require (c.st i == SS.idle && !hasQueue c.s i) (viol Status.Q_BUSY t.2 i.val)) (c.touched 0x1142 1 1 32)

/-- R580: the queue ranges. -/
def ruleQuota (c : Ctx) : Option Viol :=
  let q (i : Nat) : Nat := c.after.n (K.qp_QP_QUOTA i)
  match (List.range 32).find? (fun i => q i % 16 != 0) with
  | some i => some (viol Status.Q_RANGE (K.qp_QP_QUOTA i) i)
  | none =>
    match c.touched 0x1141 1 1 32 with
    | [] => none
    | t :: _ =>
      if 8192 < Store.queueBase c.after.od 32 then some (viol Status.Q_RANGE t.2 noUnit)
      else
        match allSites.find? (fun i => hasQueue c.s i &&
            (Store.queueBase c.after.od i != Store.queueBase c.s.od i || decide (q i < c.s.n (K.qp_QP_QUOTA i)))) with
        | some i => some (viol Status.Q_BUSY t.2 i.val)
        | none => none

/-! ### Area 2000h (R27, R176, R178, Table 5.4) -/

/-- R27, R176: a change of masks needs each site that gains or loses a channel IDLE. -/
def ruleMembers (c : Ctx) : Option Viol := siteState (c.badSites 0x2020 1 4 (fun i => c.st i == SS.idle))

/-- R176: one channel in the masks of two sites.
[DESIGN CHOICE, assumption 134] -/
def ruleShared (c : Ctx) : Option Viol :=
  let m := c.after.od
  match allChans.find? (fun n => decide (2 ≤ (allSites.filter (fun i => Store.hasChan m i n)).length)) with
  | none => none
  | some n =>
    let holders := allSites.filter (fun i => Store.hasChan m i n)
    let obj (i : SiteId) : Nat := K.cf_CHAN_MASK i (n.val / 64)
    let i := (holders.find? (fun i => c.ch.contains (obj i))).getD (holders.getD 0 0)
    some (viol Status.SITE_CHANNEL_SHARED (obj i) n.val)

/-- R178: 2020h.06 to .0A. -/
def ruleSiteConfig (c : Ctx) : Option Viol := siteState (c.badSites 0x2020 6 10 c.quiet)

/-- The sites that Table 5.4 is checked for (R246). -/
def timingSites (c : Ctx) : List SiteId :=
  allSites.filter (fun i => c.ch.any (fun k => timingObject c.after.od i k || timingObject c.before.od i k))

/-- Table 5.4, with R245 for the sites that are active at the apply point. -/
def ruleTiming (c : Ctx) : Option Viol :=
  firstViol (fun i => timingCheck (if c.active i then some c.before.od else none) c.after.od i) (timingSites c)

/-- R245 judged again at the apply. -/
def ruleTimingActive (c : Ctx) : Option Viol :=
  firstViol (fun i => timingCheck (some c.before.od) c.after.od i) ((timingSites c).filter c.active)

/-! ### Area 2200h (R145, R172) -/

/-- R145: VEC_PER_FRAME. -/
def ruleVecPerFrame (c : Ctx) : Option Viol := siteState (c.badSites 0x2210 4 4 c.quiet)
/-- R172: 2210h, and 2250h with PAUSED permitted. -/
def ruleSequencer (c : Ctx) : Option Viol :=
  siteState (c.badSites 0x2210 1 6 c.quiet ++ c.badSites 0x2250 1 16 (fun i => c.quiet i || c.st i == SS.paused))

/-! ### Area 2400h (R92, R96, R110, R333) -/

/-- R92: heads of a source list. -/
def ruleHeads (c : Ctx) : Option Viol :=
  firstViol (fun (i : SiteId) =>
    let e (k : Nat) : Nat := c.after.n (K.sl_SOURCE_ENTRY i k)
    let heads := (List.range 64).filter (fun k => (e k).testBit 31 && (e k).testBit 29)
    match heads.zipIdx.find? (fun k => (e k.1).testBit 30 || decide (4 ≤ k.2)) with
    | some k => some (viol Status.SOURCE_HEAD (K.sl_SOURCE_ENTRY i k.1) i.val)
    | none => none)
    (allSites.filter (fun i => (c.touched 0x2460 32 1 64).any (fun t => t.1 == i.val)))

/-- R96: DECL_DEEP and DECL_STREAM lie within DECL_FETCH. -/
def ruleDecl (c : Ctx) : Option Viol :=
  firstViol (fun (i : SiteId) =>
    let fetch := c.after.g (K.md_DECL_FETCH i)
    if fetch < c.after.g (K.md_DECL_DEEP i) then some (viol Status.ADM_DECL (K.md_DECL_DEEP i) i.val)
    else require (decide (c.after.g (K.md_DECL_STREAM i) ≤ fetch)) (viol Status.ADM_DECL (K.md_DECL_STREAM i) i.val))
    (allSites.filter (fun i => (c.touched 0x2440 32 1 8).any (fun t => t.1 == i.val)))

/-- R96: a change to 2440h. -/
def ruleDeclState (c : Ctx) : Option Viol := siteState (c.badSites 0x2440 1 8 c.quiet)

/-- A stream is referenced at the apply point (R81). -/
def Ctx.referenced (c : Ctx) (n : StreamId) : Bool :=
  match (c.s.strm n).refBy with
  | some i => !(c.kind == 1 && c.mask.getLsbD i.val)
  | none => false

/-- R110: the objects of a referenced stream, then a source list. -/
def ruleStreams (c : Ctx) : Option Viol :=
  orViol (firstViol (fun t =>
      let sub := t.2 % 256
      require (!((sub == 2 || sub == 4 || sub == 5 || sub == 6) && c.referenced (Fin.ofNat 64 t.1)))
        (viol Status.STREAM_ACTIVE t.2 t.1)) (c.touched 0x2480 64 2 6)) fun _ =>
    siteState (c.badSites 0x2460 1 64 c.quiet)

/-- R333: spilling. -/
def ruleSpill (c : Ctx) : Option Viol :=
  firstViol (fun (i : SiteId) =>
    let a := c.after
    if a.g (K.fc_LOG_FULL_ACTION i) ≠ 2 then none
    else if a.g (K.fc_LOG_EXTENTS i) < 4 ∨ a.g (K.fc_SPILL_SIZE i) = 0 ∨ a.g (K.md_DECL_SPILL i) = 0 then
      some (viol Status.SPILL_INVALID (K.fc_LOG_FULL_ACTION i) i.val)
    else require c.s.deepOn (viol Status.TIER_ABSENT (K.fc_LOG_FULL_ACTION i) i.val)) allSites

/-! ### Area 2600h (R328, R335) -/

/-- The sum of an object over the sites. -/
def sumSites (s : State) (f : SiteId → Nat) : Nat := allSites.foldl (fun a i => a + s.n (f i)) 0

/-- R328: HBM holds the fail and capture regions, the deep store the spill areas. -/
def ruleFailSpace (c : Ctx) : Option Viol :=
  let hbm (s : State) : Nat := sumSites s (fun i => K.fc_LOG_EXTENTS i) + sumSites s (fun i => K.fc_CAP_EXTENTS i)
  let deep (s : State) : Nat := sumSites s (fun i => K.fc_SPILL_SIZE i)
  let t := c.touched 0x2610 32 1 4
  orViol
    (match t.find? (fun x => x.2 % 256 == 1 || x.2 % 256 == 4) with
     | some x => require (decide (hbm c.after ≤ hbm c.s + c.s.hbmFree)) (viol Status.FAIL_NO_SPACE x.2 x.1)
     | none => none) fun _ =>
    match t.find? (fun x => x.2 % 256 == 3) with
    | some x => require (decide (deep c.after ≤ deep c.s + c.s.deepFree)) (viol Status.FAIL_NO_SPACE x.2 x.1)
    | none => none

/-- R335: a change to 2610h. -/
def ruleFailBusy (c : Ctx) : Option Viol :=
  firstViol (fun t => require (c.quiet (siteNo t.1)) (viol Status.FAIL_BUSY t.2 t.1)) (c.touched 0x2610 32 1 5)

/-! ### Area 3000h (R291, R302, R488) -/

/-- R291: a channel of a site names an engine of that site.
[DEDUCED, assumption 135] -/
def ruleChanEngine (c : Ctx) : Option Viol :=
  let a := c.after
  firstViol (fun (n : ChanId) =>
    match a.siteOf n with
    | none => none
    | some i =>
      let e := a.n (K.ch_WF_ENGINE n)
      require (e == 0xFF || a.n (K.wc_WF_SITE e) == i.val) (viol Status.CH_WF_ENGINE (K.ch_WF_ENGINE n) n.val)) allChans

/-- R302: 3000h.13 to .18. -/
def ruleChanBusy (c : Ctx) : Option Viol :=
  firstViol (fun t =>
    match c.after.siteOf (Fin.ofNat 256 t.1) with
    | some i => require (c.quiet i) (viol Status.CH_BUSY t.2 t.1)
    | none => none) (c.touched 0x3000 256 0x13 0x18)

/-- One map breaks R488 in the state that a commit leaves in force. -/
def groupBad (a : State) (b g : Nat) : Bool :=
  let map (h r : Nat) : Nat := a.n (K.lg_GROUP_MAP (4 * b + h) r)
  let m := map g
  let users := (List.range 32).filter (fun k => bits (a.n (K.lb_GROUP_SEL b)) (2 * k) 2 == g)
  let others := [0, 1, 2, 3, 5, 6]
  let low (hi lo : Nat) (k : Nat → Nat) : Bool :=
    m hi != 0xFF && m lo != 0xFF && decide (a.g (k (m hi)) < a.g (k (m lo)))
  (!users.isEmpty && [0, 1, 2, 3].any (fun r => m r == 0xFF))
  || (users.any (fun k => a.g (K.ch_SLATH_MODE (32 * b + k)) == 1) && m 4 == 0xFF)
  || others.any (fun r => m r != 0xFF &&
       (List.range 4).any (fun h => others.any (fun q => q != r && map h q == m r)))
  || low 0 1 (fun d => K.da_TARGET_V d) || low 2 3 (fun d => K.da_TARGET_V d)
  || low 0 1 (fun d => K.da_PARK_V d) || low 2 3 (fun d => K.da_PARK_V d)

/-- R488: the level groups; the object reported names bank and group.
[DEDUCED, assumption 133] -/
def ruleGroups (c : Ctx) : Option Viol :=
  firstViol (fun x => require (!groupBad c.after (x / 4) (x % 4)) (viol Status.LVL_GROUP (K.lg_GROUP_MAP x 0) noUnit)) (List.range 32)

/-! ### Area 4400h (R350, R356, R363, R370, R371, R395, R527, Table 16.5) -/

/-- Engine e. -/
def engNo (n : Nat) : EngId := Fin.ofNat 8 n

/-- R350: 4410h.01, .02 and .06. -/
def ruleEngine (c : Ctx) : Option Viol :=
  firstViol (fun t =>
    let sub := t.2 % 256
    let ok (o : Option SiteId) : Bool := match o with | some i => c.st i == SS.idle | none => true
    require (!(sub == 1 || sub == 2 || sub == 6) || (ok (c.before.engSite (engNo t.1)) && ok (c.after.engSite (engNo t.1))))
      (viol Status.WF_BUSY t.2 t.1)) (c.touched 0x4410 8 1 6)

/-- R356: sums.
[DEDUCED, assumption 135] -/
def ruleSum (c : Ctx) : Option Viol :=
  let a := c.after
  firstViol (fun (e : EngId) =>
    let bad (f : EngId) : Bool := (a.n (K.wc_SUM_MASK e)).testBit f.val &&
      (f == e || a.g (K.wc_WF_SITE f) != a.g (K.wc_WF_SITE e) || a.g (K.wc_RATE_DIV f) != a.g (K.wc_RATE_DIV e))
    require (!allEngs.any bad) (viol Status.WF_SUM (K.wc_SUM_MASK e) e.val)) allEngs

/-- R363: entries of a frequency, phase or amplitude list. -/
def listOk (first sub : Nat) (l : List Byte) : Bool :=
  let w := if sub = 1 then 8 else 4
  let top := if sub = 1 then 2 ^ 48 else if sub = 2 then 2 ^ 20 else 2 ^ 18
  l.length % w == 0 && decide (l.length ≤ 32768) && decide (first + l.length / w ≤ 4096) &&
    (entriesOf w l).all (fun v => decide (v < top))

/-- R363. -/
def ruleLists (c : Ctx) : Option Viol :=
  firstViol (fun (x : Nat × SVal) =>
    match tableOf x.1, x.2 with
    | some (e, sub), .bytes l =>
      if sub = 4 then none
      else require (listOk (c.after.n (K.wd_TABLE_FIRST e)) sub l) (viol Status.WF_LIST x.1 e.val)
    | _, _ => none) c.staged

/-- The first row of Table 8.4 that a non-EMPTY step breaks; heads is how many steps below it carry HEAD.
[DEDUCED, assumption 77] -/
def stepRow (x : Eng) (heads : Nat) (w : BitVec 128) : Option Nat :=
  let kind := Step.kind w
  let target := x.step (Step.jtgt w)
  if kind = 0 then none
  else if Step.waitsrc w = 3 ∨ Step.jmode w = 3 ∨ (kind = 3 ∧ Step.f w 22 37 ≠ 0) ∨ (Step.head w ∧ kind ≠ 2) then some 1
  else if Step.len w < 4 ∧ ¬(kind = 2 ∧ Step.len w = 0) then some 2
  else if (!Step.last w && Step.kind (x.step (Step.next w)) == 0) || (Step.jevtEn w && Step.kind target == 0) then some 3
  else if Step.kind target == 2 && !Step.head target then some 4
  else if Step.head w && decide (16 ≤ heads) then some 5
  else none

/-- The first step of an engine that breaks Table 8.4: step and row. -/
def stepsBad (x : Eng) (heads : Nat) : KMap (BitVec 128) → Option (Nat × Nat)
  | [] => none
  | (k, w) :: r =>
    match stepRow x heads w with
    | some row => some (k, row)
    | none => stepsBad x (if Step.kind w ≠ 0 ∧ Step.head w then heads + 1 else heads) r

/-- R370: Table 8.4.
[DEDUCED, assumption 77] -/
def ruleSteps (c : Ctx) : Option Viol :=
  firstViol (fun (e : EngId) =>
    if (c.ch.contains (K.wd_SEQ e) || c.ch.contains (K.wc_WF_SITE e)) = false then none
    else match stepsBad (c.after.eng e) 0 (c.after.eng e).steps with
      | some (k, row) => some (viol Status.WF_STEP (K.wd_SEQ e) (e.val + k * 2 ^ 16 + row * 2 ^ 48))
      | none => none) allEngs

/-- R371: 4430h.04. -/
def ruleStepsBusy (c : Ctx) : Option Viol :=
  firstViol (fun (e : EngId) =>
    if c.ch.contains (K.wd_SEQ e) = false then none
    else match c.after.engSite e with
      | some i => require (c.quiet i) (viol Status.WF_BUSY (K.wd_SEQ e) e.val)
      | none => none) allEngs

/-- R395: steps within the table; whole steps. -/
def ruleStepsReach (c : Ctx) : Option Viol :=
  firstViol (fun (x : Nat × SVal) =>
    match tableOf x.1, x.2 with
    | some (e, 4), .bytes l =>
      require (l.length % 16 == 0 && decide (c.after.n (K.wd_TABLE_FIRST e) + l.length / 16 ≤ 16384))
        (viol Status.WF_STEP x.1 e.val)
    | _, _ => none) c.staged

/-- A bit of GATE_EN that a commit leaves clear while a rule of R527 needs it: none when there is none. -/
def gateBad (c : Ctx) (full : Bool) : Option Nat :=
  let a := c.after
  let on (k : Nat) : Bool := (a.n K.gt_GATE_EN).testBit k
  let held (b : Nat) : Bool :=
    (bankChans (Fin.ofNat 8 b)).any (fun n => match a.siteOf n with | some i => c.st i != SS.idle | none => false)
    || [0, 1].any (fun j => c.s.g (K.sp_SPAR_STATE (2 * b + j)) != 0)
    || (match c.s.cal.native with | some n => n.left.testBit b | none => false)
  let bank := (List.range 8).find? (fun b => !on b && ((full && on (8 + b)) || held b))
  if bank.isSome then some noUnit
  else if full = false then none
  else
    match (List.range 10).find? (fun u => !on (if u < 8 then 8 + u else 24 + u) && a.g (K.tmo_OWNER u) != 0xFF) with
    | some u => some u
    | none =>
      match (List.range 8).find? (fun e => !on (16 + e) && a.g (K.wc_WF_SITE e) != 0xFF) with
      | some e => some e
      | none => if c.s.deepOn ∧ (List.range 4).any (fun k => !on (34 + k)) then some noUnit else none

/-- R527: clock gates. -/
def ruleGate (c : Ctx) : Option Viol := (gateBad c true).map (viol Status.CLK_GATE K.gt_GATE_EN)
/-- R527 judged again at the apply: the states of sites, spars and native runs. -/
def ruleGateState (c : Ctx) : Option Viol := (gateBad c false).map (viol Status.CLK_GATE K.gt_GATE_EN)

/-- Table 16.5: a retired engine is not assigned. -/
def ruleRetiredEngine (c : Ctx) : Option Viol :=
  firstViol (fun t => require (!(c.after.n (K.wc_WF_SITE t.1) != 0xFF && retired c.s (.engine (engNo t.1))))
    (viol Status.FLT_RETIRED t.2 t.1)) (c.touched 0x4410 8 1 1)

/-! ### Area 4800h (R398, R404 to R407, R445, Table 16.5) -/

/-- The sources that a TMU may select (R398).
[DEDUCED, assumption 79] -/
def sourceAllowed (u : TmuId) (code : Nat) : Bool :=
  let n := code % 256
  match bits code 12 4 with
  | 0 => true
  | 1 | 2 => decide (u.val < 8) && n / 32 == u.val
  | 3 => decide (8 ≤ u.val) && decide (n < 16)
  | 4 | 6 => true
  | 5 => decide (u.val < 8) && n / 2 == u.val
  | _ => false

/-- The fields of a source code hold no reserved code (Table 9.1).
[DEDUCED, assumption 79] -/
def sourceFields (code : Nat) : Bool :=
  let lane := bits code 10 2
  bits code 8 2 != 3 &&
  (match bits code 12 4 with
   | 1 => decide (lane ≤ 1)
   | 2 | 5 => decide (2 ≤ lane)
   | 3 => lane == 0
   | _ => lane == 0 && code % 256 == 0)

/-- START_SRC and STOP_SRC0 to STOP_SRC7. -/
def sourceKeys (u : TmuId) : List Nat := (List.range 9).map (fun k => Objects.ob (0x4830 + u.val) (2 + k))

/-- R398. -/
def ruleTmuSource (c : Ctx) : Option Viol :=
  firstViol (fun (u : TmuId) =>
    firstViol (fun k => require (sourceAllowed u (c.after.n k)) (viol Status.TMU_SOURCE k u.val)) (sourceKeys u)) allTmus

/-- R404: an owner is not replaced by another. -/
def ruleTmuOwner (c : Ctx) : Option Viol :=
  firstViol (fun t =>
    require (c.before.g t.2 == 0xFF || c.after.g t.2 == 0xFF) (viol Status.TMU_OWNED t.2 (t.2 % 256 - 1))) (c.touched 0x4801 1 1 10)

/-- R405: a slot holds a TMU of its site, and no TMU twice. -/
def ruleTmuSlots (c : Ctx) : Option Viol :=
  firstViol (fun (i : SiteId) =>
    let v (j : Nat) : Nat := c.after.n (K.tl_SLOT i j)
    firstViol (fun j =>
      require (v j == 0xFF || (c.after.n (K.tmo_OWNER (v j)) == i.val && !(List.range j).any (fun l => v l == v j)))
        (viol Status.TMU_OWNED (K.tl_SLOT i j) (v j))) (List.range 4)) allSites

/-- R406: owners and slots of active sites; 4830h of a TMU whose arming is in progress. -/
def ruleTmuBusy (c : Ctx) : Option Viol :=
  let busySite (v : Nat) : Bool := decide (v < 32) && c.active (siteNo v)
  let arming (u : TmuId) : Bool :=
    c.s.tmuBusy u && !(c.kind == 1 && (match c.s.tmuSite u with | some i => c.mask.getLsbD i.val | none => false))
  orViol (firstViol (fun t =>
      require (!(busySite (c.before.n t.2) || busySite (c.after.n t.2))) (viol Status.TMU_BUSY t.2 (t.2 % 256 - 1)))
      (c.touched 0x4801 1 1 10)) fun _ =>
  orViol (firstViol (fun t => require (!busySite t.1) (viol Status.TMU_BUSY t.2 t.1)) (c.touched 0x4810 32 1 4)) fun _ =>
    firstViol (fun t => require (!arming (Fin.ofNat 10 t.1)) (viol Status.TMU_BUSY t.2 t.1)) (c.touched 0x4830 10 1 20)

/-- R407: configurations; the cases that the reset values would break are judged for the TMUs that the commit changes. -/
def ruleTmuConfig (c : Ctx) : Option Viol :=
  let a := c.after
  firstViol (fun (u : TmuId) =>
    let mine := (c.touched 0x4830 10 1 20).any (fun t => t.1 == u.val)
    let stops := (List.range 8).any (fun k => bits (a.n (K.tc_STOP_SRC u k)) 12 4 != 0)
    if mine && a.g (K.tc_MODE u) == 0 && !stops then some (viol Status.TMU_CONFIG (K.tc_MODE u) u.val)
    else if a.n (K.tmo_OWNER u) = 0x80 ∧ a.g (K.tc_GATE_MODE u) = 1 then some (viol Status.TMU_CONFIG (K.tc_GATE_MODE u) u.val)
    else if a.g (K.tc_QUAL u) ≠ 0 ∧ a.g (K.tc_GATE_MODE u) = 0 then some (viol Status.TMU_CONFIG (K.tc_QUAL u) u.val)
    else firstViol (fun k => require (sourceFields (a.n k)) (viol Status.TMU_CONFIG k u.val)) (sourceKeys u)) allTmus

/-- R247: while a channel belongs to an active site, one apply changes each of its offsets by at most 2,500 fs. -/
def ruleOffsetStep (c : Ctx) : Option Viol :=
  (offsetStep c.before c.after (fun n => match c.before.siteOf n with | some i => c.active i | none => false) c.ch).map
    (fun k => viol Status.TS_OFFSET_STEP k (k / 256 - 0x3100))

/-- R445: a TMU that a native run holds is given no owner. -/
def ruleTmuNative (c : Ctx) : Option Viol :=
  let holds (u : Nat) : Bool :=
    match c.s.cal.native with
    | some n => if u < 8 then n.left.testBit u else n.parts.testBit 0
    | none => false
  firstViol (fun t => let u := t.2 % 256 - 1
                      require (!(c.after.n t.2 != 0xFF && holds u)) (viol Status.CAL_BUSY t.2 u)) (c.touched 0x4801 1 1 10)

/-- Table 16.5: a retired TMU is given no owner. -/
def ruleRetiredTmu (c : Ctx) : Option Viol :=
  firstViol (fun t => let u := t.2 % 256 - 1
                      require (!(c.after.n t.2 != 0xFF && retired c.s (.tmu (Fin.ofNat 10 u)))) (viol Status.FLT_RETIRED t.2 u))
    (c.touched 0x4801 1 1 10)

/-! ### Area 5000h (R486, R487, R489, R490, R508) -/

/-- R486: what serves a channel whose site is not IDLE or LOADED. -/
def ruleLevelBusy (c : Ctx) : Option Viol :=
  let busy (n : ChanId) : Bool := match c.after.siteOf n with | some i => !c.quiet i | none => false
  orViol (firstViol (fun t =>
      firstViol (fun (n : ChanId) =>
        require (!(busy n && Store.groupSel c.before.od n != Store.groupSel c.after.od n)) (viol Status.LVL_BUSY t.2 n.val))
        (bankChans (Fin.ofNat 8 t.1))) (c.touched 0x50C0 8 1 1)) fun _ =>
    firstViol (fun t =>
      firstViol (fun (n : ChanId) =>
        require (!(busy n && Store.groupSel c.after.od n == t.1 % 4)) (viol Status.LVL_BUSY t.2 n.val))
        (bankChans (Fin.ofNat 8 (t.1 / 4)))) (c.touched 0x50E0 32 1 7)

/-- R487: each map entry names a DAC of its bank and of its role's kind, or none. -/
def ruleMap (c : Ctx) : Option Viol :=
  firstViol (fun x =>
    firstViol (fun r =>
      let v := c.after.n (K.lg_GROUP_MAP x r)
      require (v == 0xFF || (v / 24 == x / 4 && (decide (16 ≤ v % 24) == decide (5 ≤ r)))) (viol Status.LVL_KIND (K.lg_GROUP_MAP x r) v))
      (List.range 7)) (List.range 32)

/-- R489: range codes, of the park record too.
[DEDUCED, assumption 135] -/
def ruleRange (c : Ctx) : Option Viol :=
  firstViol (fun (d : DacId) =>
    let ok (k : Nat) : Bool := (rangeOf (isCurrent d) (c.after.n k)).isSome
    if ok (K.da_RANGE d) = false then some (viol Status.LVL_KIND (K.da_RANGE d) d.val)
    else require (ok (K.da_PARK_RANGE d)) (viol Status.LVL_KIND (K.da_PARK_RANGE d) d.val)) allDacs

/-- A target lies in its range. -/
def inLevelRange (s : State) (d : DacId) (range target : Nat) : Bool :=
  match rangeOf (isCurrent d) (s.n range) with
  | some (lo, fs) => decide (lo ≤ s.g target) && decide (s.g target < lo + fs)
  | none => false

/-- R490: targets, and the park values as targets of the park record. -/
def ruleTarget (c : Ctx) : Option Viol :=
  firstViol (fun (d : DacId) =>
    let own := if isCurrent d then K.da_TARGET_I d else K.da_TARGET_V d
    let other := if isCurrent d then K.da_TARGET_V d else K.da_TARGET_I d
    let ownP := if isCurrent d then K.da_PARK_I d else K.da_PARK_V d
    let otherP := if isCurrent d then K.da_PARK_V d else K.da_PARK_I d
    let st (k : Nat) : Bool := c.staged.any (fun e => e.1 == k)
    if st other then some (viol Status.LVL_KIND other d.val)
    else if inLevelRange c.after d (K.da_RANGE d) own = false then some (viol Status.LVL_RANGE own d.val)
    else if st otherP then some (viol Status.LVL_KIND otherP d.val)
    else require (inLevelRange c.after d (K.da_PARK_RANGE d) ownP) (viol Status.LVL_RANGE ownP d.val)) allDacs

/-- R508: no range or target while a DEVICE_SAFE episode is being handled. -/
def ruleLevelSafe (c : Ctx) : Option Viol :=
  let safe := match handling c.s with | some k => c.s.n (K.ep_EP_SEVERITY k) == 5 | none => false
  if safe then (match c.touched 0x5000 192 2 4 with | t :: _ => some (viol Status.LVL_SAFE t.2 t.1) | [] => none) else none

/-! ### Area 6400h (R211, R218) and 7000h (R696) -/

/-- R211: an event line's source and sites. -/
def ruleEvents (c : Ctx) : Option Viol :=
  siteState ((c.touched 0x6410 16 1 6).flatMap (fun t =>
    let sub := t.2 % 256
    if sub = 1 ∨ sub = 2 ∨ sub = 6 then
      ((sitesIn (c.before.n (K.el_EVT_SITES t.1 ) ||| c.after.n (K.el_EVT_SITES t.1))).filter (fun i => c.st i != SS.idle)).map (fun i => (i, t.2))
    else []))

/-- The sites that a marker's source names, or the site of the engine it names. -/
def markerSites (s : State) (m : Nat) : List SiteId :=
  let num := s.n (K.mk_MK_SRC_NUM m)
  match s.n (K.mk_MK_SRC_KIND m) with
  | 1 => [siteNo num]
  | 2 => (s.engSite (engNo (num / 4))).toList
  | 3 => sitesIn (s.n (K.mk_MK_SRC_SITES m))
  | _ => []

/-- R218: a marker's source. -/
def ruleMarkers (c : Ctx) : Option Viol :=
  siteState ((c.touched 0x6430 16 1 3).flatMap (fun t =>
    ((markerSites c.before t.1 ++ markerSites c.after t.1).filter (fun i => c.st i != SS.idle)).map (fun i => (i, t.2))))

/-- R696: severity rules. -/
def ruleSeverity (c : Ctx) : Option Viol :=
  firstViol (fun (e : Nat × SVal) =>
    if e.1 / 256 ≠ 0x7010 then none
    else match e.2 with
      | .num x =>
        let v := x.toNat
        require (bits v 35 28 == 0 && (!v.testBit 63 || (decide (v % 65536 ≤ bits v 16 16) && decide (bits v 32 3 ≤ 5))))
          (viol Status.FLT_RULE e.1 noUnit)
      | .bytes _ => none) c.staged

/-! ### The two checks -/

/-- Step 2 of R623: the rules by area, and within an area in the manual's order. -/
def commitRules : List (Ctx → Option Viol) :=
  [ruleSiteFunc, ruleQuota, ruleMembers, ruleShared, ruleSiteConfig, ruleTiming, ruleOffsetStep, ruleVecPerFrame, ruleSequencer, ruleHeads, ruleDecl,
   ruleDeclState, ruleStreams, ruleSpill, ruleFailSpace, ruleFailBusy] ++
  [ruleChanEngine, ruleChanBusy, ruleGroups, ruleEngine, ruleSum, ruleLists, ruleSteps, ruleStepsBusy, ruleStepsReach, ruleGate,
   ruleRetiredEngine, ruleTmuSource, ruleTmuOwner, ruleTmuSlots, ruleTmuBusy] ++
  [ruleTmuConfig, ruleTmuNative, ruleRetiredTmu, ruleLevelBusy, ruleMap, ruleRange, ruleTarget, ruleLevelSafe, ruleEvents, ruleMarkers,
   ruleSeverity]

/-- The rules stated against a unit's state at the apply point, which the apply judges again (R628).
[DEDUCED, assumption 100] -/
def applyRules : List (Ctx → Option Viol) :=
  [ruleSiteFuncState, ruleMembers, ruleSiteConfig, ruleTimingActive, ruleOffsetStep, ruleVecPerFrame, ruleSequencer, ruleDeclState, ruleStreams,
   ruleFailBusy, ruleChanBusy, ruleEngine, ruleStepsBusy, ruleGateState, ruleTmuBusy, ruleTmuNative, ruleLevelBusy, ruleLevelSafe,
   ruleEvents, ruleMarkers]

/-- Validation of a COMMIT (R623): step 1 over the staged objects, then step 2.
[DEDUCED, assumption 123] -/
def validate (c : Ctx) : Option Viol := orViol (firstViol (stepOne c) c.staged) fun _ => firstViol (fun r => r c) commitRules

/-- The check at the apply (R628). -/
def recheck (c : Ctx) : Option Viol := firstViol (fun r => r c) applyRules

end Sys2Proof.Machine
end

