-- ==== Sys2Proof/Machine/Apply.lean ====
section
/-! DEFINITION. The journal record of a transaction, its apply and its commit mark (R626 to R631). -/
namespace Sys2Proof.Machine
open Sys2Proof

/-! ### Commit order -/

/-- Inserts a transaction by commit order. -/
def insertTxn (t : Txn) : List Txn → List Txn
  | [] => [t]
  | a :: r => if t.order < a.order then t :: a :: r else a :: insertTxn t r

/-- The transactions that have passed validation and are not yet applied, in commit order, those that wait for their
journal record among them. -/
def committed (s : State) : List Txn :=
  ((allTxns.map s.txn ++ s.dict.outs).filter Txn.committed).foldl (fun l t => insertTxn t l) []

/-- The state in force changed by those transactions (R623). -/
def projected (s : State) : State := (committed s).foldl (fun p t => applyData t.values p) s

/-! ### Effects of an apply on the units -/

/-- A channel that stands in slath state: its site is not driven, or it belongs to none (R26, R281). -/
def restsSlath (s : State) (c : ChanId) : Bool := match s.siteOf c with | some i => (s.site i).inSlath | none => true

/-- Lane levels of a channel reach its balls at an open time, through the site it belongs to; those of a channel of no site at
once.
[DESIGN CHOICE, assumption 214] -/
def restLanes (c : ChanId) (l : State → Int → List Output) (s : State) : State :=
  match s.siteOf c with
  | some i => lanes i s.od (plain (l s (nowTime s i + s.drawn))) s.advance
  | none => (s.emits ((toBalls s.od (plain (l s ((s.now : Int) * 1250000 + s.drawn)))).map Placed.out)).advance

/-- A change of SLATH_MODE moves the PE_DD lane of a channel that stands in slath state (R281); while its site is RUNNING, at the next
frame boundary (R287). -/
def restLevel (c : ChanId) (s : State) : State :=
  if restsSlath s c && (match s.siteOf c with | some i => s.st i != SS.running | none => true) then
    let s := restLanes c (fun s t => [.lane c 0 t (slathLevel s.od c != laneInv s.od c 0)]) s
    match s.siteOf c with
    | some i => s.modSite i (fun x => { x with
        ddHi := if slathLevel s.od c then (if x.ddHi.contains c.val then x.ddHi else x.ddHi ++ [c.val]) else x.ddHi.filter (· != c.val) })
    | none => s
  else s

/-- A change of LOOPBACK holds the balls of a channel at 0, or gives them slath state back (R295). -/
def loopChange (c : ChanId) (s : State) : State :=
  let at_ (s : State) : Int := match s.siteOf c with | some i => nowTime s i | none => (s.now : Int) * 1250000
  if s.b (K.ch_LOOPBACK c) then
    match s.siteOf c with
    | some i => pend i (plain (loopBalls c (at_ s))) s
    | none => s.emits (loopBalls c (at_ s))
  else restLanes c (fun s t => slathLanes s.od c slathGap none t (Config.freeInt (s.free + 1))) s.advance

/-- The apply of a transaction that changes an engine's lists keeps the lists before it (R364).
[DEDUCED, assumption 74] -/
def stageLists (old : State) (s : State) : State :=
  allEngs.foldl (fun s e =>
    let x := s.eng e
    if (old.eng e).lists = x.lists then s
    else s.setEng e { x with stages := (x.stages.filter (fun q => decide (s.now < q.1 + 8))) ++ [(s.now, (old.eng e).lists)] }) s

/-- The level of marker m at its ball. -/
def markBall (s : State) (m : Nat) : Bool := markerOn s m != s.b (K.mk_MK_ACTIVE_LOW m)

/-- A change of a marker's source or polarity that changes its level moves its ball (R213). -/
def markObjects (old : State) (m : Nat) (s : State) : State :=
  if markBall old m = markBall s m then s else s.emit (.marker m ((s.now : Int) * 1250000) (markBall s m))

/-- What one changed object does in its unit, from the state before the apply. -/
def effectOf (old : State) (key : Nat) (s : State) : State :=
  let idx := key / 256
  let sub := key % 256
  if (0x2270 ≤ idx ∧ idx < 0x2290) ∨ (0x2230 ≤ idx ∧ idx < 0x2250) then
    let i := siteNo (if 0x2270 ≤ idx then idx - 0x2270 else idx - 0x2230)
    s.modSite i (fun x => { x with recent := kput x.recent key (old.g key, s.now) })
  else if 0x2610 ≤ idx ∧ idx < 0x2630 then
    let i := siteNo (idx - 0x2610)
    if sub = 1 ∨ sub = 3 then
      let w := s.n (K.fr_LOG_WRITTEN i)
      (s.p (K.fr_LOG_OLDEST i) w).modSite i (fun x => { x with failLog := [], spillIdx := w })
    else if sub = 4 then
      let w := s.n (K.fr_CAP_WRITTEN i)
      s.modSite i (fun x => { x with capMem := [], capGone := w })
    else s
  else if 0x4410 ≤ idx ∧ idx < 0x4418 ∧ 3 ≤ sub ∧ sub ≤ 5 then
    let e := engNo (idx - 0x4410)
    let c := (s.now, old.n (K.wc_OUT_CODING e), old.n (K.wc_PARK_WORD e), old.g (K.wc_DC_OFFSET e))
    s.setEng e { s.eng e with cfgOld := (s.eng e).cfgOld ++ [c] }
  else if 0x5000 ≤ idx ∧ idx < 0x50C0 ∧ 2 ≤ sub ∧ sub ≤ 4 then
    let d : DacId := Fin.ofNat 192 (idx - 0x5000)
    formPending d (old.g (K.da_RANGE d) != s.g (K.da_RANGE d)) s
  else if key = K.gt_GATE_EN then gateChange (old.n K.gt_GATE_EN) s
  else if key = K.ck_REFCLK_SSC then t1sSpread s
  else if key = K.cq_MGMT_FREQ then domSwitch false s
  else if key = K.cq_NOR_FREQ then domSwitch true s
  else if 0x6030 ≤ idx ∧ idx < 0x6038 ∧ sub ≤ 4 then dutChange (idx - 0x6030) s
  else if 0x6410 ≤ idx ∧ idx < 0x6420 ∧ sub ≤ 5 then restartEvt (Fin.ofNat 16 (idx - 0x6410)) s
  else if 0x6430 ≤ idx ∧ idx < 0x6440 ∧ sub ≤ 4 then markObjects old (idx - 0x6430) s
  else if 0x5440 ≤ idx ∧ idx < 0x5500 ∧ (sub = 1 ∨ sub = 2) then formPending (Fin.ofNat 192 (idx - 0x5440)) false s
  else if key = K.cl_LIVE_MODE then putCalState s
  else if 0x3000 ≤ idx ∧ idx < 0x3100 ∧ sub = 0x12 then restLevel (Fin.ofNat 256 (idx - 0x3000)) s
  else if 0x3000 ≤ idx ∧ idx < 0x3100 ∧ sub = 0x18 then loopChange (Fin.ofNat 256 (idx - 0x3000)) s
  else s

/-- What a written object does whether or not its value changes: UTC_NOW and EVT_HOST. -/
def writeEffect (e : Nat × SVal) (s : State) : State :=
  if e.1 = K.utc_UTC_NOW then ({ s with mgmt := { s.mgmt with utcAt := s.now } }).p K.utc_UTC_SET 1
  else if e.1 = K.em_EVT_HOST then (match e.2 with | .num v => hostEvents v.toNat s | .bytes _ => s)
  else s

/-- One transaction's values and their effects, in one SCLK (R629); APPLIES counts it. -/
def applyValues (staged : KMap SVal) (s : State) : State :=
  let t := stageLists s (applyData staged s)
  let ch := (staged.filter (changes s t)).map (·.1)
  let t := ch.foldl (fun u k => effectOf s k u) t
  (staged.foldl (fun u e => writeEffect e u) t).cnt64 K.te_APPLIES

/-- The apply of staged values: the check of R628, then the values; some violation when nothing is applied. -/
def tryApply (staged : KMap SVal) (s : State) : Option Viol × State :=
  match recheck (ctxOf s s staged 0 0) with
  | some v => (some v, s.raise Src.TXN_APPLY_FAILED)
  | none => (none, applyValues staged s)

/-- A PENDING transaction applies (R628, R631): it then waits for its commit mark or ends APPLIED. -/
def applyTxn (k : Fin 8) (s : State) : State :=
  let t := s.txn k
  match tryApply t.values s with
  | (some v, s) => endTxn k 4 v.status v.first v.detail s
  | (none, s) => if t.journalled then s.setTxn k { t with wait := .mark } else endTxn k 3 0 0 0 s

/-- The n-th write outside a transaction that waits. -/
def outAt (s : State) (n : Nat) : Option Txn := s.dict.outs[n]?
/-- Replaces it. -/
def setOut (n : Nat) (t : Txn) (s : State) : State := { s with dict := { s.dict with outs := s.dict.outs.set n t } }

/-- A write outside a transaction ends: it is answered with the result of its commit, with the first violating object when it failed
(R613). A transaction of the device itself that
fails ends with its work (R17). -/
def endOut (n status first : Nat) (s : State) : State :=
  match outAt s n with
  | none => s
  | some t =>
    let s := { s with dict := { s.dict with outs := s.dict.outs.eraseIdx n } }
    let s := match t.job with
      | some j => if status = 0 then s else jobRefused j status s
      | none => s
    match t.ask with
    | some a => answer a status first 0 [] s
    | none => s

/-- A new LIFECYCLE has been committed: for SCRAPPED the fuse is blown, and any other transition opens the key window (R685, R687). -/
def lifeApplied (to_ : Nat) (s : State) : State :=
  if to_ = 4 then { s with mgmt := { s.mgmt with scrapped := true } }.p K.kk_KEY_STATE 0
  else { s with mgmt := { s.mgmt with keyEnd := s.now + 480000000000 } }.p K.kk_KEY_STATE 1

/-- What an applied transaction of the device itself brings about. -/
def outApplied (t : Txn) (s : State) : State :=
  match t.job with
  | some (.life to_) => lifeApplied to_ s
  | some j => jobApplied j s
  | none => s

/-- A write outside a transaction, or a transaction of the device itself, applies. -/
def applyOut (n : Nat) (s : State) : State :=
  match outAt s n with
  | none => s
  | some t =>
    match tryApply t.values s with
    | (some v, s) => endOut n v.status v.first s
    | (none, s) => outApplied t (if t.journalled then setOut n { t with wait := .mark } s else endOut n 0 0 s)

/-! ### Apply points (R627, Table 14.3) -/

/-- The site's last frame has left the formatters: it is not active, and the frames that it took have ended (R166). -/
def lastFrameGone (s : State) (i : SiteId) : Bool :=
  let x := s.site i
  !s.active i && x.fifo.isEmpty && decide ((x.origin : Int) + (x.vstart + 9999) / 10000 ≤ s.now)

/-- The apply point of a PENDING transaction has come, eave words and ridge pulses apart: those come in their own rows. -/
def pointReached (s : State) (t : Txn) : Bool :=
  timingOn s &&
  (match t.kind with
   | 0 => true
   | 1 => (sitesOf t.sites).all (fun i => s.st i == SS.idle)
   | 2 => (sitesOf t.sites).all (lastFrameGone s)
   | _ => false)

/-- The eave words of all named sites that are ARMED, RUNNING or PAUSED are read together in this SCLK; where the mask names more
than one site, none of them is PAUSED (R164, R165).
[DEDUCED, assumption 137] -/
def eaveReached (s : State) (t : Txn) : Bool :=
  let on := (sitesOf t.sites).filter s.active
  timingOn s && t.kind == 2 && !on.isEmpty && on.all (fun i =>
    ((sitesOf t.sites).length == 1 || s.st i != SS.paused) && (s.site i).eaveLast == some s.now)

/-- The transaction can apply at its apply point. -/
def Txn.due (s : State) (t : Txn) : Bool :=
  t.st == 2 && t.wait == .nothing && (match t.job with | some j => jobReady s j | none => true)

/-- The commit orders of the PENDING transactions with a property, rising. -/
def pendingBy (s : State) (p : Txn → Bool) : List Nat :=
  (((allTxns.map s.txn ++ s.dict.outs).filter (fun t => t.due s && p t)).foldl (fun (l : List Txn) t => insertTxn t l) []).map (·.order)

/-- The PENDING transaction of a commit order applies. -/
def applyOrder (o : Nat) (s : State) : State :=
  match allTxns.find? (fun k => (s.txn k).order == o && (s.txn k).due s) with
  | some k => applyTxn k s
  | none =>
    match s.dict.outs.findIdx? (fun t => t.order == o && t.due s) with
    | some n => applyOut n s
    | none => s

/-- Applies transactions in commit order, each after the one before (R629).
[DESIGN CHOICE, assumption 124] -/
def applyAll (l : List Nat) (s : State) : State := l.foldl (fun s o => applyOrder o s) s

/-- The apply at an eave word of a site: the transactions whose eave words are now read together (R164, R165).
[DESIGN CHOICE, assumption 124] -/
def eaveApply (i : SiteId) (s : State) : State :=
  applyAll (pendingBy s (fun t => t.sites.getLsbD i.val && eaveReached s t)) s

/-- The apply in the SCLK that registers a ridge pulse.
[DESIGN CHOICE, assumption 124] -/
def ridgeApply (s : State) : State := if timingOn s then applyAll (pendingBy s (fun t => t.kind == 3)) s else s

/-! ### Becoming PENDING (R626, R630) -/

/-- The vector that the end of a transaction signals: DW_IV of the committing slot while DW_IEN is 1 (R630). -/
def slotVector (s : State) (p : Path) : Option (FnId × BitVec 8) :=
  match p with
  | .pcie f n => let x := (s.fnr f).slots[n]
                 if x.ien then some (f, x.iv) else none
  | _ => none

/-- A COMMIT whose transaction is PENDING is answered with result 1; the end is reported later. -/
def answerPending (k : Fin 8) (s : State) : State :=
  let t := s.txn k
  match t.ask with
  | some a => answer a 0 1 0 [] (s.setTxn k { t with ask := none, report := true, vector := slotVector s a.path })
  | none => s

/-- The PENDING transactions whose apply points have come apply in commit order, up to one of an order (R629). -/
def applyDue (o : Nat) (s : State) : State := applyAll (pendingBy s (fun t => pointReached s t && decide (t.order ≤ o))) s

/-- A transaction becomes PENDING; it applies at once when its apply point has come, after those committed before it whose point has
come (R629). -/
def becomePending (k : Fin 8) (s : State) : State :=
  let t := { s.txn k with st := 2, wait := .nothing }
  let s := s.setTxn k t
  if pointReached s t then applyDue t.order s else answerPending k s

/-- A write outside a transaction whose record is durable, or that has none, applies at once while apply points come. -/
def outReady (n : Nat) (s : State) : State :=
  match outAt s n with
  | none => s
  | some t =>
    let t := { t with st := 2, wait := .nothing }
    let s := setOut n t s
    if t.due s && pointReached s t then applyDue t.order s else s

/-! ### The rows -/

/-- The values of class P and S of a transaction: those that its journal record holds (R670). -/
def Txn.kept (t : Txn) : KMap SVal := t.values.filter (fun e => perOf e.1 == .P || perOf e.1 == .S)

/-- JOURNAL_RECORD_DURABLE of a transaction: its record is on the medium, or cannot be made durable, as it never is while no die is in
service (R626, R666). -/
def recordDurable (w : Work) (ok : Bool) (s : State) : State :=
  let ok := ok && norUp s
  let put (t : Txn) (s : State) : Nat × State :=
    let u := s.append t.num (.txn t.kept)
    (s.mgmt.jseq, { u with mgmt := { u.mgmt with pcommits := s.mgmt.pcommits ++ [s.now] } })
  match w with
  | .txn k =>
    let t := s.txn k
    if t.st = 1 ∧ t.wait = .record then
      if ok then
        let r := put t s
        becomePending k (r.2.setTxn k { t with jseq := r.1 })
      else endTxn k 4 Status.OD_JOURNAL 0 noUnit s
    else s
  | .out n =>
    match outAt s n with
    | some t =>
      if t.wait = .record then
        if ok then
          let r := put t s
          outReady n (setOut n { t with jseq := r.1 } r.2)
        else endOut n Status.OD_JOURNAL 0 s
      else s
    | none => s

/-- JOURNAL_RECORD_DURABLE: a foreground NOR operation (R678). -/
def execJournalRecordDurable (w : Work) (ok : Bool) (s : State) : Host.Outcome State Fault Refusal :=
  s.served .mgmt (.journalRecordDurable w ok) fun s => s.served .nor (.journalRecordDurable w ok) fun s =>
  let s := s.fresh
  .next (recordDurable w ok (norFore s))

/-- APPLY_POINT: a PENDING transaction whose apply point has come applies, after those committed before it whose point has come (R627,
R629). -/
def applyPoint (w : Work) (s : State) : State :=
  match w with
  | .txn k =>
    let t := s.txn k
    if t.st = 2 ∧ t.wait = .nothing ∧ pointReached s t then applyDue t.order s else s
  | .out n =>
    match outAt s n with
    | some t => if t.due s ∧ pointReached s t then applyDue t.order s else s
    | none => s

/-- APPLY_POINT. -/
def execApplyPoint (w : Work) (s : State) : Host.Outcome State Fault Refusal :=
  s.served .mgmt (.applyPoint w) fun s =>
  let s := s.fresh
  .next (applyPoint w s)

/-- COMMIT_MARK_DURABLE: the commit mark is on the medium, on a die in service (R666); the transaction ends APPLIED and is reported
(R631). -/
def markDurable (w : Work) (s : State) : State :=
  match w with
  | .txn k =>
    let t := s.txn k
    if t.st = 2 ∧ t.wait = .mark ∧ norUp s then endTxn k 3 0 0 0 (s.append t.num (.mark t.jseq)) else s
  | .out n =>
    match outAt s n with
    | some t => if t.wait = .mark ∧ norUp s then endOut n 0 0 (s.append 0 (.mark t.jseq)) else s
    | none => s

/-- COMMIT_MARK_DURABLE. -/
def execCommitMarkDurable (w : Work) (s : State) : Host.Outcome State Fault Refusal :=
  s.served .mgmt (.commitMarkDurable w) fun s => s.served .nor (.commitMarkDurable w) fun s =>
  let s := s.fresh
  .next (markDurable w (norFore s))

end Sys2Proof.Machine
end

