-- ==== Sys2Proof/Machine/ControlStore.lean ====
section
/-! DEFINITION. The control store: load checks, the control-store commands and writes of 2206h.01 (R112 to R124, R127,
R128, R133, R146; Tables 3.1, 3.2). -/
namespace Sys2Proof.Machine
open Sys2Proof

namespace MW
/-- A COND code that Table 3.5 does not reserve. -/
def condOk (c : Nat) : Bool :=
  decide (c ≤ 3) || (decide (8 ≤ c) && decide (c ≤ 0x0E)) || (decide (0x10 ≤ c) && decide (c ≤ 0x39))

/-- The load checks of a word's fields other than TGT (R124, R127, R128, R133, R146). -/
def encodingOk (w : MWord) : Bool :=
  rsvd w == 0 && decide (op w ≤ 9) && condOk (cond w) && decide (lcop w ≤ 4) && decide (vop w ≤ 7) &&
  tsmode w != 3 && cmpen w != 3 && decide (failact w ≤ 4) &&
  decide (bits (wfe w) 5 3 ≤ 5) && bits (wfe w) 0 2 == 0 &&
  decide (bits (tmuc w) 3 3 ≤ 4) && bits (tmuc w) 0 1 == 0 &&
  decide (bits (dcr w) 13 2 ≤ 1) && bits (dcr w) 6 2 != 3 && bits (dcr w) 0 6 == 0 &&
  (!(op w == 5 || op w == 6) || vrep w == 0) &&
  (!(op w == 0 || op w == 4) || (cond w == 0 && !cinv w)) &&
  (!(op w == 4 || op w == 6) || lcop w == 0) &&
  (!(vop w == 6) || op w == 2) && (!(vop w == 7) || op w == 3)

/-- The load check of TGT (R116). -/
def targetOk (w : MWord) : Bool :=
  if op w = 2 then decide (tgt w < 0x100) || decide (0x2000 ≤ tgt w)
  else if op w = 1 ∨ op w = 4 ∨ op w = 6 then decide (0x2000 ≤ tgt w)
  else true

/-- The load check of one word: its status, encoding before target (R121). -/
def loadCheck (w : MWord) : Nat :=
  if encodingOk w = false then Status.CS_ENCODING else if targetOk w = false then Status.CS_TARGET else Status.OK
end MW

/-- The range overlaps the window of a site that is not IDLE (R119). -/
def csBusy (s : State) (addr count : Nat) : Bool :=
  allSites.any (fun i => s.st i != SS.idle && decide (s.n (K.sq_WIN_BASE i) < addr + count) &&
    decide (addr ≤ s.n (K.sq_WIN_LIMIT i)))

/-- Stores checked words in address order up to the first that fails (R121); its address and status. -/
def csPut : List MWord → Nat → KMap MWord → KMap MWord × Option (Nat × Nat)
  | [], _, m => (m, none)
  | w :: r, a, m =>
    let st := MW.loadCheck w
    if st = Status.OK then csPut r (a + 1) (kput m a w) else (m, some (a, st))

/-- The stored words of the control store. -/
def State.setCs (s : State) (m : KMap MWord) : State := { s with mem := { s.mem with cs := m } }

/-- A write of words to the customer region: the state after it, its status and the failing address (R112, R119,
R121).
[DESIGN CHOICE, assumption 25] -/
def csStore (addr : Nat) (words : List MWord) (s : State) : State × Nat × Nat :=
  if addr < 0x2000 ∨ 0x20000 < addr + words.length then (s.p K.cs_CS_LAST_STATUS Status.CS_RANGE, Status.CS_RANGE, 0)
  else if csBusy s addr words.length then (s.p K.cs_CS_LAST_STATUS Status.CS_BUSY, Status.CS_BUSY, 0)
  else
    let r := csPut words addr s.mem.cs
    let s := s.setCs r.1
    match r.2 with
    | none => (s.p K.cs_CS_LAST_STATUS Status.OK, Status.OK, 0)
    | some (a, st) => ((s.p K.cs_CS_LAST_STATUS st).p K.cs_CS_LAST_ADDR a, st, a)

/-- CS_WRITE (R112, R121): the words are read from the buffer, checked and stored.
[DESIGN CHOICE, assumption 25] -/
def csWrite (t : Tag) (addr : Nat) (words : List MWord) (s : State) : State :=
  let r := csStore addr words (s.fromHost t (20 * words.length))
  r.1.complete t r.2.1 r.2.2

/-- CS_WRITE. -/
def execCsWrite (t : Tag) (addr : Nat) (words : List MWord) (s : State) : Host.Outcome State Fault Refusal :=
  s.queued t .timing (.csWrite t addr words) fun s =>
  .next (s.fresh.inRange t (decide (1 ≤ words.length) && decide (words.length ≤ 4096)) (csWrite t addr words))

/-- Corrected words of a range: each is counted and raises CS_CE (R114, R170). -/
def csCorrect (addr count : Nat) (errs : List (Nat × CsErr)) (s : State) : State :=
  errs.foldl (fun s e =>
    match e.2 with
    | .single => if addr ≤ e.1 ∧ e.1 < addr + count then (s.cnt64 K.cs_CS_CE_COUNT).raise Src.CS_CE else s
    | .double _ => s) s

/-- The word at an address as a command reads it: unwritten words as all ones, an uncorrectable word as read. -/
def csRead (s : State) (errs : List (Nat × CsErr)) (a : Nat) : MWord :=
  match errs.find? (fun e => e.1 == a) with
  | some (_, .double w) => w
  | _ => kgetD s.mem.cs a (BitVec.allOnes 160)

/-- The addresses of a range that hold an uncorrectable word. -/
def csBad (errs : List (Nat × CsErr)) (addr count : Nat) : List Nat :=
  (List.range count).filterMap (fun j =>
    match errs.find? (fun e => e.1 == addr + j) with
    | some (_, .double _) => some (addr + j)
    | _ => none)

/-- The bytes of a range. -/
def csBytes (s : State) (errs : List (Nat × CsErr)) (addr count : Nat) : List Byte :=
  ((List.range count).map (fun j => MW.bytes (csRead s errs (addr + j)))).flatten

/-- CS_READ (Table 3.2, R114).
[DESIGN CHOICE, assumption 25] -/
def csReadOp (t : Tag) (addr count : Nat) (errs : List (Nat × CsErr)) (s : State) : State :=
  if 0x20000 < addr + count then (s.p K.cs_CS_LAST_STATUS Status.CS_RANGE).refuse t Status.CS_RANGE
  else
    let s := (csCorrect addr count errs s).toHost t (csBytes s errs addr count)
    match csBad errs addr count with
    | [] => (s.p K.cs_CS_LAST_STATUS Status.OK).complete t Status.OK 0
    | a :: _ => ((s.p K.cs_CS_LAST_STATUS Status.CS_DATA_ERROR).p K.cs_CS_LAST_ADDR a).complete t Status.CS_DATA_ERROR a

/-- CS_READ. -/
def execCsRead (t : Tag) (addr count : Nat) (errs : List (Nat × CsErr)) (s : State) :
    Host.Outcome State Fault Refusal :=
  s.queued t .timing (.csRead t addr count errs) fun s =>
  .next (s.fresh.inRange t (decide (1 ≤ count) && decide (count ≤ 4096)) (csReadOp t addr count errs))

/-- CS_VERIFY (Table 3.2, R114, Table 13.9).
[DESIGN CHOICE, assumption 25] -/
def csVerify (t : Tag) (addr count : Nat) (errs : List (Nat × CsErr)) (s : State) : State :=
  if 0x20000 < addr + count then (s.p K.cs_CS_LAST_STATUS Status.CS_RANGE).refuse t Status.CS_RANGE
  else
    let fixed := (errs.filter (fun e => e.2 == .single && decide (addr ≤ e.1) && decide (e.1 < addr + count))).length
    let bad := (csBad errs addr count).headD 0xFFFFFFFF
    let d := toBytes 4 (crc32c (csBytes s errs addr count)) ++ toBytes 4 fixed ++ toBytes 4 bad
    (((csCorrect addr count errs s).toHost t d).p K.cs_CS_LAST_STATUS Status.OK).complete t Status.OK 0

/-- CS_VERIFY. -/
def execCsVerify (t : Tag) (addr count : Nat) (errs : List (Nat × CsErr)) (s : State) :
    Host.Outcome State Fault Refusal :=
  s.queued t .timing (.csVerify t addr count errs) fun s =>
  .next (s.fresh.inRange t (decide (1 ≤ count) && decide (count ≤ 131072)) (csVerify t addr count errs))

/-- The microwords of a DOMAIN value of 20-byte images (R122). -/
def wordsOf (l : List Byte) : List MWord := (chunks 20 4096 l).map MW.ofBytes

/-- CS_DOMAIN_WRITE: the images written to 2206h.01 are stored from CS_DOMAIN_ADDR (R122); a value that is no
multiple of 20 bytes is out of range (R171).
[DESIGN CHOICE, assumption 25] -/
def execCsDomainWrite (p : Path) (l : List Byte) (s : State) : Host.Outcome State Fault Refusal :=
  s.served .timing (.csDomainWrite p l) fun s =>
  let s := s.fresh
  .next (if l.length % 20 ≠ 0 then s.emit (.answer p Status.OD_RANGE 0 0 [])
    else
      let r := csStore (s.n K.csa_CS_DOMAIN_ADDR) (wordsOf l) (s.putBlob K.csd_CS_DOMAIN l)
      r.1.emit (.answer p r.2.1 r.2.2 0 []))

end Sys2Proof.Machine
end

