-- ==== Sys2Proof/Machine/Commands.lean ====
section
/-! DEFINITION. The command objects: what a write of one outside a transaction does, and the status that answers it (R181,
R408, R442, R474 to R476, R495, R542, R554, R614, R681 to R687, R706, R712, R734). -/
namespace Sys2Proof.Machine
open Sys2Proof

/-- SITE_CMD: [63:32] site mask, [7:0] command (R181). A write refused with OD_RANGE, for its reserved bits or
for a code outside Table 4.2, is not counted in CMD_COUNT (R223).
[DESIGN CHOICE, assumption 206] -/
def cmdSite (v : Nat) (s : State) : Nat × State :=
  match siteCmd (v % 256) (BitVec.ofNat 32 (v / 2 ^ 32)) (s.cnt32 K.sc_CMD_COUNT) with
  | some r => r
  | none => (Status.OD_RANGE, s)

/-- TMU_CMD: [15:8] ARM or DISARM, [3:0] TMU (R408). -/
def cmdTmu (v : Nat) (s : State) : Nat × State :=
  let u := v % 16
  let c := v / 256
  if h : u < 10 then
    if c = 1 ∨ c = 2 then
      let r := tmuHostCmd (c == 1) ⟨u, h⟩ s
      (r.1, r.2.p K.tk_TMU_CMD_STATUS r.1)
    else (Status.OD_RANGE, s)
  else (Status.OD_RANGE, s)

/-- CAL_CMD: NATIVE, NATIVE_ABORT or LIVE_NOW (R442). What the references measure is drawn free.
[DESIGN CHOICE, assumption 95] -/
def cmdCal (v : Nat) (s : State) : Nat × State :=
  let out (s : State) : Nat × State := (s.n K.cl_CAL_LAST_STATUS, s)
  match v / 2 ^ 24 with
  | 1 =>
    let fm := s.drawn.toNat
    let s := s.advance
    let vm := s.drawn.toNat
    if bits v 22 2 ≠ 0 then (Status.OD_RANGE, s) else out (nativeCmd (bits v 16 6) (bits v 8 8) fm vm s.advance)
  | 2 => out (nativeAbort s)
  | 3 =>
    let fm := s.drawn.toNat
    let s := s.advance
    out (liveNow (Fin.ofNat 256 v) fm s.drawn.toNat s.advance)
  | _ => (Status.OD_RANGE, s)

/-- CLK_CMD: [31:24] SWITCH or RIDGE_CAL, [9:8] group, [7:0] source (R542, R559). -/
def cmdClk (v : Nat) (s : State) : Nat × State :=
  let go (r : Nat × State) : Nat × State := (r.1, clkAnswer r)
  match v / 2 ^ 24 with
  | 1 =>
    let g := bits v 8 2
    let r := v % 256
    if h : g < 3 ∧ r < 2 then go (switchCmd ⟨g, h.1⟩ ⟨r, h.2⟩ s) else (Status.OD_RANGE, s)
  | 2 => go (ridgeCalCmd s)
  | _ => (Status.OD_RANGE, s)

/-- ST_CMD: [31:24] TEST or UNRETIRE, [18:16] kind, [15:0] unit (R712). -/
def cmdTest (v : Nat) (s : State) : Nat × State :=
  let c := v / 2 ^ 24
  match runitOf (bits v 16 3) (v % 65536) with
  | some u =>
    if c = 1 ∨ c = 2 then let s := stCmd (c == 2) u s
                          (s.n K.stc_ST_STATUS, s)
    else (Status.OD_RANGE, s)
  | none => (Status.OD_RANGE, s)

/-- A DEV_RESET of FIRMWARE is refused now (R734). -/
def resetBusy (s : State) : Bool :=
  allSites.any s.active || allTxns.any (fun k => (s.txn k).live) || s.cal.native.isSome
    || [0, 1].any (fun j => s.g (K.fwm_SLOT_STATE_A j) == 1)

/-- A write of DEV_RESET: 01h DEVICE, 02h FIRMWARE. An accepted reset takes effect 1 ms after the answer (R734). -/
def devReset (code : Nat) (s : State) : Nat × State :=
  let st := if code = 2 ∧ resetBusy s then Status.RST_BUSY else 0
  let s := s.p K.bu_DEV_RESET_STATUS st
  (st, if st = 0 then { s with pwr := { s.pwr with reset := some (code, s.now + 800000) } } else s)

/-- A write of a numeric command object outside a transaction: its status and effect; none for any other object. -/
def commandNum (p : Path) (key v : Nat) (s : State) : Option (Nat × State) :=
  if key = K.sc_SITE_CMD then some (cmdSite v s)
  else if key = K.tk_TMU_CMD then some (cmdTmu v s)
  else if key = K.cl_CAL_CMD then some (cmdCal v s)
  else if key = K.ll_LVL_LOAD then some (0, lvlLoad v s)
  else if key = K.cx_CLK_CMD then some (cmdClk v s)
  else if key = K.rd_RIDGE_FIRE then some (0, ridgeFire v s)
  else if key = K.sk_SEAL_CLOSE then some (0, if v = 1 then closeSeal s else s)
  else if key = K.fz_FAULT_CLEAR then let s := faultClear p v s
                                      some (s.n K.fz_CLEAR_STATUS, s)
  else if key = K.stc_ST_CMD then some (cmdTest v s)
  else if key = K.fwm_FW_CMD then some (fwCmd v s)
  else if key = K.bu_DEV_RESET then some (devReset v s)
  else none

/-- The last segment of a DOMAIN command object outside a transaction: its status and effect; none for any other object. -/
def commandBytes (key : Nat) (l : List Byte) (s : State) : Option (Nat × State) :=
  if key = K.sk_SEAL_TOKEN then some (sealToken l s)
  else if key = K.fwm_FW_IMAGE then some (fwEnd l s)
  else if key = K.lcy_LC_TOKEN then some (lcToken l s)
  else if key = K.kk_SEAL_KEY then some (sealKey l s)
  else if key = K.csd_CS_DOMAIN then
    if l.length % 20 ≠ 0 then some (Status.OD_RANGE, s)
    else
      let r := csStore (s.n K.csa_CS_DOMAIN_ADDR) (wordsOf l) (s.putBlob K.csd_CS_DOMAIN l)
      some (r.2.1, r.1)
  else none

end Sys2Proof.Machine
end

