-- ==== Sys2Proof/Machine/Dictionary.lean ====
section
/-! DEFINITION. The services of the object dictionary on every path: READ, WRITE, BEGIN, COMMIT and ROLLBACK, with DOMAIN
transfers (R611 to R625, R634 to R638). -/
namespace Sys2Proof.Machine
open Sys2Proof

/-! ### Rights (R579, R648) -/

/-- The segment maximum of a path (R634).
[DESIGN CHOICE, assumption 139] -/
def segMax : Path → Nat
  | .t1s _ _ => 1024
  | _ => 4096

/-- Objects that a VF may write: those of its sites, their timing sets and channels, and its streams (R579). -/
def vfMayWrite (f : FnId) (key : Nat) (v : Nat) (s : State) : Bool :=
  let idx := key / 256
  let mine (i : Nat) : Bool := (s.fnSites f).getLsbD i
  let perSite := [0x2020, 0x2040, 0x2210, 0x2230, 0x2250, 0x2270, 0x2440, 0x2460, 0x2610, 0x2630, 0x2650, 0x4810]
  perSite.any (fun b => decide (b ≤ idx) && decide (idx < b + 32) && mine (idx - b))
    || (decide (0x3400 ≤ idx) && decide (idx < 0x3C00) && mine ((idx - 0x3400) / 64))
    || (decide (0x3000 ≤ idx) && decide (idx < 0x3100) &&
        (match s.siteOf (Fin.ofNat 256 (idx - 0x3000)) with | some i => mine i | none => false))
    || (decide (0x2480 ≤ idx) && decide (idx < 0x24C0) && s.g (K.sm_STATE (idx - 0x2480)) != 0
        && (s.strm (Fin.ofNat 64 (idx - 0x2480))).owner == f)
    || (key == K.sc_SITE_CMD && (BitVec.ofNat 32 (v / 2 ^ 32) &&& ~~~(s.fnSites f)) == 0)

/-- The status that a path's rights refuse a write with (R579, R648). -/
def writeDenied (a : Ask) (key v : Nat) (s : State) : Nat :=
  match a.path with
  | .pcie f _ => if f ≠ 0 ∧ vfMayWrite f key v s = false then Status.DW_DENIED else 0
  | .t1s _ _ => if s.b K.net_T1S_WRITE = false ∨ key = K.net_T1S_WRITE then Status.OD_PATH_DENIED else 0
  | .mbox => 0

/-- The status that a path's rights refuse every service but READ with (R648). -/
def txnDenied (a : Ask) (s : State) : Nat :=
  match a.path with
  | .t1s _ _ => if s.b K.net_T1S_WRITE = false then Status.OD_PATH_DENIED else 0
  | _ => 0

/-- The transaction was opened through another function than the VF that names it.
[DEDUCED, assumption 129] -/
def foreign (p o : Path) : Bool :=
  match p, o with
  | .pcie f _, .pcie g _ => f.val != 0 && f != g
  | _, _ => false

/-- The record that an operation names, or the status that refuses it: a read is not refused under R579 (R617, R612).
[DEDUCED, assumption 129] -/
def lookup (p : Path) (num : Nat) (reads : Bool) (s : State) : Except Nat (Fin 8) :=
  match findTxn s num with
  | none => .error Status.OD_TXN_UNKNOWN
  | some k =>
    if !reads && foreign p (s.txn k).owner then .error Status.DW_DENIED
    else if sameOwner p (s.txn k).owner then .ok k
    else .error Status.OD_TXN_OWNER

/-- An operation names a transaction: its time-out begins again (R621). -/
def nameTxn (k : Fin 8) (s : State) : State := s.setTxn k { s.txn k with named := s.now }

/-! ### READ (R612, R636, R105, R547) -/

/-- The whole value of an object in force, as bytes. -/
def imageNow (r : Objects.Row) (key : Nat) (s : State) : List Byte := imageOf r.ty (if key % 256 = 0 then .num (readNum s key) else readValue s key)

/-- The type is a DOMAIN. -/
def isDomain : Objects.Ty → Bool
  | .domain _ => true
  | _ => false

/-- What a read leaves changed: a flag that the read clears, and the free value that it has drawn.
[DEDUCED, assumption 136] -/
def afterRead (key : Nat) (s : State) : State :=
  let s := if clearsOnRead key then s.p key 0 else s
  if (key % 256 = 12 ∧ 0x5000 ≤ key / 256 ∧ key / 256 < 0x50C0) ∨ key = K.em_EVT_RAW then s.advance else s

/-- The domain that an object's value comes from (Tables 12.2, 14.2).
[DEDUCED, assumption 127] -/
def objDom (key : Nat) : Dom :=
  let idx := key / 256
  if timingArea idx then .timing
  else if 0x1100 ≤ idx ∧ idx < 0x1140 then .t1s
  else if 0x1140 ≤ idx ∧ idx < 0x11A0 then .pcie
  else if 0x7000 ≤ idx ∧ idx < 0x7100 then .coll
  else if idx = 0x7460 then .nor
  else .mgmt

/-- A read of a value in force: the snapshot of a DOMAIN, or the value, of which a window slot takes at most DW_LEN bytes (R577). Of an
object whose domain is stopped nothing is read (R547). The objects of one group are read one by one, each as its unit held it at the
read (R546).
[DEDUCED, assumption 125] [DEDUCED, assumption 127] [DEDUCED, assumption 243] -/
def readForce (a : Ask) (r : Objects.Row) (key limit : Nat) (s : State) : State :=
  if domRuns s (objDom key) = false then answer a Status.CLK_DOMAIN_STOPPED 0 0 [] s
  else if isDomain r.ty then
    let mine (d : Snap) : Bool := d.path == a.path && d.key == key
    let snap := if a.args.offset = 0 then some (imageNow r key s) else (s.dict.snaps.find? mine).map (·.val)
    match snap with
    | none => answer a Status.OD_DOMAIN_SEQ 0 0 [] s
    | some v =>
      let s := { s with dict := { s.dict with
        snaps := s.dict.snaps.filter (fun d => !mine d) ++ [{ path := a.path, key := key, val := v, at_ := s.now }] } }
      let d := (v.drop a.args.offset).take limit
      answer a 0 d.length v.length d s
  else
    let d := (imageNow r key s).take limit
    afterRead key (answer a 0 d.length 0 d s)

/-- READ. -/
def serveRead (a : Ask) (s : State) : State :=
  let key := Objects.ob a.args.index.toNat a.args.sub.toNat
  let limit := match a.path with | .pcie _ _ => min a.args.len 4096 | p => segMax p
  let go (staged : KMap SVal) (s : State) : State :=
    match findObject key with
    | .error e => answer a e 0 0 [] s
    | .ok r =>
      if r.acc = .wo then answer a Status.OD_WRITE_ONLY 0 0 [] s
      else match kget? staged key with
        | some v =>
          let l := imageOf r.ty v
          let d := (if isDomain r.ty then l.drop a.args.offset else l).take limit
          answer a 0 d.length (if isDomain r.ty then l.length else 0) d s
        | none => readForce a r key limit s
  if a.args.txn = 0 then go [] s
  else match lookup a.path a.args.txn.toNat true s with
    | .error e => answer a e 0 0 [] s
    | .ok k => if (s.txn k).live then go (s.txn k).staged (nameTxn k s) else answer a Status.OD_TXN_STATE 0 0 [] s

/-! ### Validation at COMMIT (R473, R613, R623, R624) -/

/-- The session numbers that a commit writes into the records of the channels and DACs whose sealed objects it writes (R473).
[DEDUCED, assumption 96] -/
def sealExtras (staged : KMap SVal) (s : State) : KMap SVal :=
  staged.foldl (fun m e =>
    let idx := e.1 / 256
    let v : SVal := .num (s.g K.sk_SEAL_SESSION)
    if accOf e.1 ≠ .sealed then m
    else if 0x3100 ≤ idx ∧ idx < 0x3200 then kput m (K.cc_BASE_SEAL (idx - 0x3100)) v
    else if 0x5440 ≤ idx ∧ idx < 0x5500 then kput m (K.lt_BASE_LVL_SEAL (idx - 0x5440)) v
    else m) []

/-- The first PENDING transaction that would fail if this one applied first (R624).
[DEDUCED, assumption 132] -/
def conflict (s : State) (staged : KMap SVal) : Option Viol :=
  ((committed s).foldl (fun (acc : Option Viol × State) t =>
    match acc.1 with
    | some v => (some v, acc.2)
    | none => (validate (ctxOf s acc.2 t.staged t.kind t.sites), applyData t.values acc.2)) (none, applyData staged s)).1

/-- The next commit order. -/
def takeTick (s : State) : Nat × State := (s.dict.tick, { s with dict := { s.dict with tick := s.dict.tick + 1 } })

/-- A write outside a transaction is committed at once with apply point IMMEDIATE: it is answered as that COMMIT is, with the first
violating object when it fails (R613).
[DESIGN CHOICE, assumption 130] -/
def outsideCommit (a : Ask) (key : Nat) (v : SVal) (s : State) : State :=
  let staged : KMap SVal := [(key, v)]
  if (perOf key = .P ∨ perOf key = .S) ∧ pfw s then answer a Status.PWR_LOW 0 0 [] s
  else match validate (ctxOf s (projected s) staged 0 0) with
    | some v => answer a v.status v.first 0 [] s
    | none =>
      match conflict s staged with
      | some v => answer a Status.OD_CONFLICT v.first 0 [] s
      | none =>
        let r := takeTick s
        let t : Txn := { st := 1, owner := a.path, staged := staged, extra := sealExtras staged s, order := r.1, ask := some a }
        let n := r.2.dict.outs.length
        let t := if t.journalled then { t with wait := .record } else t
        let s := { r.2 with dict := { r.2.dict with outs := r.2.dict.outs ++ [t] } }
        if t.wait = .record then s else outReady n s

/-! ### WRITE (R610, R611, R618 to R620, R634, R635) -/

/-- A write outside a transaction of a whole value: a command object acts at once, any other is committed. A command that acts counts in
APPLIES, and one that is refused is the first violating object of its commit (R613).
[DESIGN CHOICE, assumption 25] -/
def outsideValue (a : Ask) (r : Objects.Row) (key : Nat) (v : SVal) (s : State) : State :=
  let cmd := match v with
    | .num x => if outsideOnly.contains key then
                  (if inRange r v then commandNum a.path key x.toNat s else some (Status.OD_RANGE, s)) else none
    | .bytes l => commandBytes key l s
  match cmd with
  | some q => if q.1 = 0 then answer a 0 0 0 [] (q.2.cnt64 K.te_APPLIES) else answer a q.1 key 0 [] q.2
  | none => outsideCommit a key v s

/-- The object is locked to the writer of another DOMAIN write in progress (R635). -/
def domainLocked (p : Path) (key : Nat) (s : State) : Bool := s.dict.domW.any (fun d => d.key == key && d.path != p)

/-- Drops the DOMAIN write in progress outside a transaction, with its lock. -/
def dropDomain (p : Path) (key : Nat) (s : State) : State :=
  let mine (d : DomW) : Bool := d.key == key && d.path == p
  let had := s.dict.domW.any mine
  let s := { s with dict := { s.dict with domW := s.dict.domW.filter (fun d => !mine d) } }
  if had ∧ key = K.fwm_FW_IMAGE then loadInterrupted s else s

/-- One segment of a DOMAIN write outside a transaction (R634, R635).
[DEDUCED, assumption 128] -/
def domainOutside (a : Ask) (r : Objects.Row) (key max : Nat) (s : State) : State :=
  let off := a.args.offset
  let cur := (s.dict.domW.find? (fun d => d.key == key && d.path == a.path)).map (·.got)
  let prior := if off = 0 then some [] else if cur.map (·.length) = some off then cur else none
  match prior with
  | none => answer a Status.OD_DOMAIN_SEQ 0 0 [] (dropDomain a.path key s)
  | some g =>
    let got := g ++ a.args.data
    let began := if off = 0 ∧ key = K.fwm_FW_IMAGE then fwBegin s else (0, s)
    if began.1 ≠ 0 then answer a began.1 0 0 [] began.2
    else
      let s := began.2
      let rest := s.dict.domW.filter (fun d => !(d.key == key && d.path == a.path))
      if max < got.length then answer a Status.OD_RANGE 0 0 [] (dropDomain a.path key
        { s with dict := { s.dict with domW := rest ++ [{ path := a.path, key := key, got := got, at_ := s.now }] } })
      else if a.args.data.length = segMax a.path then
        answer a 0 0 0 [] { s with dict := { s.dict with domW := rest ++ [{ path := a.path, key := key, got := got, at_ := s.now }] } }
      else outsideValue a r key (.bytes got) { s with dict := { s.dict with domW := rest } }

/-- Stages a value, unless the total would exceed 65,536 bytes (R618).
[DEDUCED, assumption 123] -/
def stage (a : Ask) (k : Fin 8) (t : Txn) (s : State) : State :=
  if 65536 < t.bytes then answer a Status.OD_STAGING_FULL 0 0 [] s else answer a 0 0 0 [] (s.setTxn k t)

/-- One segment of a DOMAIN write inside a transaction (R634, R635).
[DEDUCED, assumption 128] -/
def domainInside (a : Ask) (k : Fin 8) (key max : Nat) (s : State) : State :=
  let t := s.txn k
  let off := a.args.offset
  let cur := kget? t.dom key
  let prior := if off = 0 then some [] else if cur.map (·.length) = some off then cur else none
  let drop := s.setTxn k { t with dom := kdel t.dom key }
  if 65536 < max then answer a Status.OD_TXN_FORBIDDEN 0 0 [] s
  else match prior with
    | none => answer a Status.OD_DOMAIN_SEQ 0 0 [] drop
    | some g =>
      let got := g ++ a.args.data
      let t := { t with staged := if off = 0 then kdel t.staged key else t.staged }
      if max < got.length then answer a Status.OD_RANGE 0 0 [] drop
      else if a.args.data.length = segMax a.path then stage a k { t with dom := kput t.dom key got } s
      else stage a k { t with dom := kdel t.dom key, staged := kput t.staged key (.bytes got) } s

/-- The data fit the object's type: a segment at most the path's maximum, a STR at most 255 bytes, any other type exactly
its size (R610, R634).
[DEDUCED, assumption 123] -/
def lengthOk (p : Path) (ty : Objects.Ty) (data : List Byte) : Bool :=
  match ty with
  | .domain _ => decide (data.length ≤ segMax p)
  | .str => true
  | _ => tySize ty == some data.length

/-- A write of an existing, writable object: its lock, then its staging or its commit. -/
def writeValue (a : Ask) (r : Objects.Row) (key : Nat) (k : Option (Fin 8)) (s : State) : State :=
  if lengthOk a.path r.ty a.args.data = false then answer a Status.OD_LENGTH 0 0 [] s
  else if lockedElse s key k ∨ domainLocked a.path key s ∨
      (k.isSome ∧ s.dict.domW.any (fun d => d.key == key)) then answer a Status.OD_LOCKED 0 0 [] s
  else match k, r.ty with
    | none, .domain m => domainOutside a r key m s
    | none, ty => outsideValue a r key (valueOf ty a.args.data) s
    | some k, .domain m => domainInside a k key m s
    | some k, ty => stage a k { s.txn k with staged := kput (s.txn k).staged key (valueOf ty a.args.data) } s

/-- WRITE. -/
def serveWrite (a : Ask) (s : State) : State :=
  let key := Objects.ob a.args.index.toNat a.args.sub.toNat
  let denied := writeDenied a key (leNat (a.args.data.take 8)) s
  let go (k : Option (Fin 8)) (s : State) : State :=
    match findObject key with
    | .error e => answer a e 0 0 [] s
    | .ok r =>
      if r.acc = .const ∨ r.acc = .ro then answer a Status.OD_READ_ONLY 0 0 [] s
      else if r.acc = .rwt ∧ k = none then answer a Status.OD_TXN_REQUIRED 0 0 [] s
      else writeValue a r key k s
  if denied ≠ 0 then answer a denied 0 0 [] s
  else if a.args.txn = 0 then go none s
  else match lookup a.path a.args.txn.toNat false s with
    | .error e => answer a e 0 0 [] s
    | .ok k =>
      let t := s.txn k
      if t.st = 1 ∧ t.wait = .nothing then go (some k) (nameTxn k s) else answer a Status.OD_TXN_STATE 0 0 [] s

/-! ### BEGIN, COMMIT, ROLLBACK (R616, R622 to R627) -/

/-- The record that BEGIN takes: a FREE one, or the ended one that ended longest ago (R632). -/
def takeRecord (s : State) : Option (Fin 8) :=
  match allTxns.find? (fun k => (s.txn k).st == 0) with
  | some k => some k
  | none =>
    (allTxns.filter (fun k => !(s.txn k).live)).foldl (fun b k =>
      match b with
      | some j => if (s.txn k).ended < (s.txn j).ended then some k else b
      | none => some k) none

/-- The next transaction number whose record is not held (R616). -/
def nextNum (s : State) (taken : Fin 8) : Nat :=
  let held := (allTxns.filter (fun k => k != taken)).map (fun k => (s.txn k).num)
  ((List.range 9).map (fun d => (s.dict.lastNum + d) % 65535 + 1)).find? (fun n => !held.contains n) |>.getD 1

/-- BEGIN. -/
def serveBegin (a : Ask) (s : State) : State :=
  let denied := txnDenied a s
  if denied ≠ 0 then answer a denied 0 0 [] s
  else if 8 ≤ (allTxns.filter (fun k => (s.txn k).live)).length then answer a Status.OD_TXN_LIMIT 0 0 [] s
  else match takeRecord s with
    | none => answer a Status.OD_TXN_LIMIT 0 0 [] s
    | some k =>
      let n := nextNum s k
      let s := s.setTxn k { num := n, st := 1, owner := a.path, named := s.now }
      answer a 0 n 0 [] { s with dict := { s.dict with lastNum := n } }

/-- A COMMIT that fails: the transaction ends FAILED and the COMMIT is answered with the status and the first violating
object (R625). -/
def failCommit (a : Ask) (k : Fin 8) (v : Viol) (s : State) : State :=
  endTxn k 4 v.status v.first v.detail (s.setTxn k { s.txn k with ask := some a })

/-- A COMMIT that passes validation: the journal record first, or PENDING at once (R626). -/
def acceptCommit (a : Ask) (k : Fin 8) (s : State) : State :=
  let r := takeTick s
  let t := r.2.txn k
  let t := { t with order := r.1, ask := some a, extra := sealExtras t.staged s }
  if t.journalled then r.2.setTxn k { t with wait := .record } else becomePending k (r.2.setTxn k t)

/-- COMMIT of a transaction that may be committed.
[DEDUCED, assumption 131] -/
def commitTxn (a : Ask) (k : Fin 8) (s : State) : State :=
  let kind := a.args.apply
  let sites := a.args.sites
  if 3 < kind ∨ ((kind = 1 ∨ kind = 2) ∧ sites = 0) then answer a Status.OD_APPLY 0 0 [] s
  else
    let s := s.setTxn k { s.txn k with kind := kind, sites := sites, first := 0, detail := 0 }
    let t := s.txn k
    match t.dom with
    | (key, _) :: _ => failCommit a k (viol Status.OD_DOMAIN_SEQ key noUnit) s
    | [] =>
      if t.staged = [] then endTxn k 3 0 0 0 ((s.setTxn k { t with ask := some a }).cnt64 K.te_APPLIES)
      else if t.journalled ∧ pfw s then failCommit a k (viol Status.PWR_LOW 0 noUnit) s
      else match validate (ctxOf s (projected s) t.staged kind sites) with
        | some v => failCommit a k v s
        | none =>
          match conflict s t.staged with
          | some v => answer a Status.OD_CONFLICT v.first 0 [] (s.setTxn k { t with first := v.first, detail := v.detail })
          | none => acceptCommit a k s

/-- A VF may not write every object that the transaction stages (R579). -/
def stagesDenied (a : Ask) (t : Txn) (s : State) : Bool :=
  match a.path with
  | .pcie f _ =>
    f.val != 0 && (t.staged.any (fun e => !vfMayWrite f e.1 (match e.2 with | .num v => v.toNat | .bytes _ => 0) s) ||
      t.dom.any (fun e => !vfMayWrite f e.1 0 s))
  | _ => false

/-- COMMIT. -/
def serveCommit (a : Ask) (s : State) : State :=
  let denied := txnDenied a s
  if denied ≠ 0 then answer a denied 0 0 [] s
  else match lookup a.path a.args.txn.toNat false s with
    | .error e => answer a e 0 0 [] s
    | .ok k =>
      let t := s.txn k
      if stagesDenied a t s then answer a Status.DW_DENIED 0 0 [] s
      else if t.st = 1 ∧ t.wait = .nothing then commitTxn a k (nameTxn k s) else answer a Status.OD_TXN_STATE 0 0 [] s

/-- ROLLBACK. -/
def serveRollback (a : Ask) (s : State) : State :=
  let denied := txnDenied a s
  if denied ≠ 0 then answer a denied 0 0 [] s
  else match lookup a.path a.args.txn.toNat false s with
    | .error e => answer a e 0 0 [] s
    | .ok k =>
      let t := s.txn k
      if t.live ∧ t.wait ≠ .mark then answer a 0 0 0 [] (rollbackTxn k s) else answer a Status.OD_TXN_STATE 0 0 [] s

/-! ### One request -/

/-- One request reaches the transaction engine (R638). An unknown service is answered with a free status.
[DESIGN CHOICE, assumption 95] -/
def serve (a : Ask) (s : State) : State :=
  match a.service with
  | 1 => serveRead a s
  | 2 => serveWrite a s
  | 3 => serveBegin a s
  | 4 => serveCommit a s
  | 5 => serveRollback a s
  | _ => if txnDenied a s ≠ 0 then answer a (txnDenied a s) 0 0 [] s else answer a (s.drawn % 65536).toNat 0 0 [] s.advance

/-- The path is served in this phase of bring-up (R725): the field network and the window at P6, the mailbox from the end
of P3.
[DEDUCED, assumption 121] -/
def pathServed (p : Path) (s : State) : Bool :=
  match p with
  | .pcie f _ => s.n K.bu_PHASE == 6 && s.fnOn f && !(s.fnr f).d3hot
  | .t1s _ _ => s.portOn
  | .mbox => decide (4 ≤ s.n K.bu_PHASE) || s.pwr.hold

/-- The window slot of a request becomes busy until the answer (R578). -/
def slotBusy (p : Path) (s : State) : State :=
  match p with
  | .pcie f n =>
    let x := s.fnr f
    s.setFn f { x with slots := x.slots.set n { x.slots[n] with busy := true } }
  | _ => s

/-- The domain that a request needs besides its path's: a READ the domain of its object, a write of a command object of the timing group
that group, any other the transaction engine's (Table 12.2). -/
def Ask.dom (a : Ask) : Dom :=
  let key := Objects.ob a.args.index.toNat a.args.sub.toNat
  if a.service = 1 then objDom key
  else if a.service = 2 ∧ (key = K.sc_SITE_CMD ∨ key = K.tk_TMU_CMD ∨ key = K.cl_CAL_CMD ∨ key = K.ll_LVL_LOAD ∨ key = K.csd_CS_DOMAIN)
  then .timing
  else .mgmt

/-- A request waits for its domain: while a planned switch holds the domain, and a request other than a READ until a stopped one runs
again; the READ is answered (R543, R547). -/
def Ask.waits (a : Ask) (s : State) : Bool := !domRuns s a.dom && (a.service != 1 || domSwitches s a.dom)

/-- A request is served, or waits for its domain. -/
def serveOrHold (a : Ask) (s : State) : State :=
  if a.waits s then { s with dict := { s.dict with held := s.dict.held ++ [a] } } else serve a s

/-- The requests that wait come again, in their order. -/
def recallAsks (s : State) : State := s.dict.held.foldl (fun s a => serveOrHold a s) { s with dict := { s.dict with held := [] } }

/-- A request arrives: it is served, waits for its domain, waits for the end of a FIRMWARE reset (R735), or finds its path not served.
[DEDUCED, assumption 122] -/
def arrive (a : Ask) (s : State) : State :=
  if s.pwr.fwOnly then
    { slotBusy a.path s with pwr := { s.pwr with waiting := s.pwr.waiting ++ [a] } }
  else if pathServed a.path s then serveOrHold a (slotBusy a.path s)
  else s

/-- The request that a command of the window or of another path makes; none while the slot is busy (R578). -/
def askOf (service : Nat) (r : Req) (s : State) : Option Ask :=
  match r with
  | .direct p a => some { path := p, service := service, args := a }
  | .window f n =>
    let x := (s.fnr f).slots[n]
    if x.busy then none
    else some { path := .pcie f n, service := service, args := { x.args with data := (padTo x.args.len x.data).take x.args.len } }

/-- A dictionary command. -/
def dictCmd (service : Nat) (r : Req) (s : State) : State :=
  match askOf service r s with
  | some a => arrive a s
  | none => s

/-- READ. -/
def execRead (r : Req) (s : State) : Host.Outcome State Fault Refusal :=
  s.served (reqDom r) (.read r) fun s =>
  .next (dictCmd 1 r s.fresh)
/-- WRITE. -/
def execWrite (r : Req) (s : State) : Host.Outcome State Fault Refusal :=
  s.served (reqDom r) (.write r) fun s =>
  .next (dictCmd 2 r s.fresh)
/-- BEGIN. -/
def execBegin (r : Req) (s : State) : Host.Outcome State Fault Refusal :=
  s.served (reqDom r) (.begin r) fun s =>
  .next (dictCmd 3 r s.fresh)
/-- COMMIT. -/
def execCommit (r : Req) (s : State) : Host.Outcome State Fault Refusal :=
  s.served (reqDom r) (.commit r) fun s =>
  .next (dictCmd 4 r s.fresh)
/-- ROLLBACK. -/
def execRollback (r : Req) (s : State) : Host.Outcome State Fault Refusal :=
  s.served (reqDom r) (.rollback r) fun s =>
  .next (dictCmd 5 r s.fresh)

/-- FW_IMAGE: a segment of the image written to 7470h.08 (R681). -/
def execFwImage (p : Path) (offset : Nat) (data : List Byte) (s : State) : Host.Outcome State Fault Refusal :=
  s.served (pathDom p) (.fwImage p offset data) fun s =>
  .next (arrive { path := p, service := 2, args := { index := 0x7470, sub := 8, offset := offset, data := data } } s.fresh)

end Sys2Proof.Machine
end

