-- ==== Sys2Proof/Machine/Host.lean ====
section
/-! DEFINITION. The host interface: queue configuration, doorbells, fetch and dispatch, completions, events, interrupts,
registers, link and function events (R566 to R604; Tables 13.1 to 13.9). -/
namespace Sys2Proof.Machine
open Sys2Proof

/-! ### Queues and their commands in flight (R582, R596) -/

/-- BAR0 of a function is served: from P6 and through a FIRMWARE reset, while the function is present and in D0 (R574,
R603, R735).
[DEDUCED, assumption 121] -/
def barOn (f : FnId) (s : State) : Bool := (s.n K.bu_PHASE == 6 || s.pwr.fwOnly) && s.fnOn f && !(s.fnr f).d3hot

/-- The function owns the site in whose range a queue lies (R580). -/
def ownsQueue (f : FnId) (q : Nat) (s : State) : Bool :=
  match s.queueSite q with
  | some i => s.siteFn i == f
  | none => false

/-- The commands of a queue in flight. -/
def flightsOf (s : State) (q : Nat) : List Flight := s.host.flights.filter (fun x => x.tag.queue.val == q)
/-- A command leaves flight. -/
def endFlight (t : Tag) (s : State) : State :=
  { s with host := { s.host with flights := s.host.flights.eraseP (fun x => x.tag == t) } }

/-- No fetch of a queue is under way. -/
def noFetch (x : Queue) : Queue := { x with fetch := 0, entry := none, listLeft := 0 }

/-- A queue stops: ended commands are discarded, running ones will be, posted result buffers are given up (R582).
[DESIGN CHOICE, assumption 69] -/
def dropQueue (q : Nat) (s : State) : State :=
  match s.queue? q with
  | none => s
  | some x =>
    let ended (t : Tag) : Bool := s.host.compl.any (fun c => c.tag == t) || x.bufs.any (fun b => b.tag == t)
    let fl := (s.host.flights.filter (fun y => !(y.tag.queue.val == q && ended y.tag))).map
      (fun y => if y.tag.queue.val = q then { y with dropped := true } else y)
    let s := { s with host := { s.host with
      flights := fl, compl := s.host.compl.filter (fun c => c.tag.queue.val != q) } }
    s.setQueue q { noFetch x with st := .deleting, bufs := [] }

/-- Every queue of a function stops (R573, R601, R602). -/
def dropQueues (p : Nat → Queue → Bool) (s : State) : State :=
  (s.host.queues.filter (fun e => p e.1 e.2)).foldl (fun s e => dropQueue e.1 s) s

/-- A queue enters ERROR: it is neither fetched nor posted to (R584, R594). -/
def queueError (q : Nat) (s : State) : State :=
  match s.queue? q with
  | some x => s.setQueue q { noFetch x with st := .error }
  | none => s

/-! ### Queue configuration commands (R580 to R582, Table 13.4) -/

/-- The type code of Q_TYPE. -/
def QType.ofCode (v : BitVec 2) : QType := match v.toNat with | 0 => .command | 1 => .feed | 2 => .result | _ => .event
/-- Its code. -/
def QType.code (t : QType) : BitVec 2 := match t with | .command => 0 | .feed => 1 | .result => 2 | .event => 3
/-- Q_STATE of a queue number: 0 ABSENT, 1 ACTIVE, 2 DELETING, 3 ERROR. -/
def qStateCode (s : State) (q : Nat) : Nat :=
  match s.queue? q with
  | none => 0
  | some x => match x.st with | .active => 1 | .deleting => 2 | .error => 3

/-- A queue command ends: Q_STATUS and Q_STATE. -/
def qDone (f : FnId) (status : Nat) (s : State) : State :=
  let x := s.fnr f
  s.setFn f { x with qcfg := { x.qcfg with status := status, state := qStateCode s x.qcfg.num.toNat } }

/-- The stream that is bound to a queue number until its STREAM_CLOSE (R590).
[DESIGN CHOICE, assumption 117] -/
def boundStream (s : State) (q : Nat) : Option StreamId :=
  (List.finRange 64).find? (fun (n : StreamId) => s.n (K.sm_STATE n) != StrmSt.closed && s.n (K.sm_FEED_QUEUE n) == q)

/-- The queue that the registers describe.
[DESIGN CHOICE, assumption 117] -/
def newQueue (f : FnId) (c : QCfg) (s : State) : Queue :=
  let ty := QType.ofCode c.typ
  { typ := ty, fn := f, sqBase := c.sqBase, cqBase := c.cqBase, irq := c.irq,
    sqSize := if ty = .event then 0 else (c.sizes.extractLsb' 0 16).toNat + 1,
    cqSize := (c.sizes.extractLsb' 16 16).toNat + 1,
    bound := if ty = .feed then boundStream s c.num.toNat else none }

/-- The registers keep Table 13.4: sizes of 2 to 65,536 entries, bases aligned to 4,096, an existing vector (R581). -/
def cfgOk (f : FnId) (c : QCfg) : Bool :=
  (QType.ofCode c.typ == .event || c.sizes.extractLsb' 0 16 != 0) && c.sizes.extractLsb' 16 16 != 0
    && c.sqBase.extractLsb' 0 12 == 0 && c.cqBase.extractLsb' 0 12 == 0
    && decide ((c.irq.extractLsb' 0 8).toNat < vectors f)

/-- The status of CREATE (R581). -/
def createCheck (f : FnId) (s : State) : Nat :=
  let c := (s.fnr f).qcfg
  let q := c.num.toNat
  let ty := QType.ofCode c.typ
  let second := (ty == .event || ty == .result) &&
    s.host.queues.any (fun e => e.2.typ == ty && s.queueSite e.1 == s.queueSite q)
  if ownsQueue f q s = false ∨ cfgOk f c = false then Status.Q_RANGE
  else if (s.queue? q).isSome ∨ second then Status.Q_EXISTS
  else Status.OK

/-- CREATE: the queue becomes ACTIVE with heads and tails 0 and phase 1 (R581, R585). -/
def queueCreate (f : FnId) (s : State) : State :=
  let c := (s.fnr f).qcfg
  let st := createCheck f s
  qDone f st (if st = Status.OK then s.setQueue c.num.toNat (newQueue f c s) else s)

/-- CREATE. -/
def execCreate (f : FnId) (s : State) : Host.Outcome State Fault Refusal :=
  s.served .pcie (.create f) fun s =>
  let s := s.fresh
  .next (if barOn f s then queueCreate f s else s)

/-- DELETE (R582). Of a queue that is ABSENT the manual states no status.
[DESIGN CHOICE, assumption 69] [DEDUCED, assumption 107] [DESIGN CHOICE, assumption 108] -/
def queueDelete (f : FnId) (s : State) : State :=
  let q := (s.fnr f).qcfg.num.toNat
  if ownsQueue f q s = false then qDone f Status.Q_RANGE s
  else match s.queue? q with
    | none => qDone f (s.drawn % 65536).toNat s.advance
    | some x =>
      match x.bound with
      | some n => if s.n (K.sm_STATE n) ≠ StrmSt.closed then qDone f Status.Q_IN_USE s else qDone f Status.OK (dropQueue q s)
      | none => qDone f Status.OK (dropQueue q s)

/-- DELETE. -/
def execDelete (f : FnId) (s : State) : Host.Outcome State Fault Refusal :=
  s.served .pcie (.delete f) fun s =>
  let s := s.fresh
  .next (if barOn f s then queueDelete f s else s)

/-- QUEUE_ABSENT: the last command in flight of a DELETING queue has ended. -/
def execQueueAbsent (q : QueueId) (s : State) : Host.Outcome State Fault Refusal :=
  s.served .pcie (.queueAbsent q) fun s =>
  let s := s.fresh
  .next (match s.queue? q with
    | some x => if x.st = .deleting ∧ flightsOf s q = [] then
                  { s with host := { s.host with queues := kdel s.host.queues q } } else s
    | none => s)

/-- The registers that READ loads; of an ABSENT queue the manual states no values but that reserved bits
read 0 (R14). -/
def loadedCfg (s : State) (c : QCfg) : QCfg :=
  match s.queue? c.num.toNat with
  | some x => { c with
      typ := QType.code x.typ, sqBase := x.sqBase, cqBase := x.cqBase, irq := x.irq,
      sizes := BitVec.ofNat 32 ((x.cqSize - 1) * 65536 + (x.sqSize - 1)), sqHead := x.sqHead, cqTail := x.cqTail }
  | none =>
    let v (k : Nat) : Nat := (Config.freeInt (s.free + k) % 2 ^ 64).toNat
    { c with typ := BitVec.ofNat 2 (v 0), sqBase := BitVec.ofNat 64 (v 1), cqBase := BitVec.ofNat 64 (v 2),
             irq := BitVec.ofNat 32 (v 3) &&& 0x80FFFFFF#32, sizes := BitVec.ofNat 32 (v 4), sqHead := v 5 % 65536, cqTail := v 6 % 65536 }

/-- READ (R581).
[DEDUCED, assumption 107] [DESIGN CHOICE, assumption 108] -/
def queueRead (f : FnId) (s : State) : State :=
  let x := s.fnr f
  if ownsQueue f x.qcfg.num.toNat s = false then qDone f Status.Q_RANGE s
  else qDone f Status.OK ({ s with free := s.free + 7 }.setFn f { x with qcfg := loadedCfg s x.qcfg })

/-- Q_READ. -/
def execQRead (f : FnId) (s : State) : Host.Outcome State Fault Refusal :=
  s.served .pcie (.qRead f) fun s =>
  let s := s.fresh
  .next (if barOn f s then queueRead f s else s)

/-! ### Doorbells (R583, R584) -/

/-- A doorbell value that breaks R584: the queue enters ERROR and Q_ERROR is raised for the function. -/
def badDoorbell (f : FnId) (q : Nat) (s : State) : State := (queueError q s).report (Src.Q_ERROR f) 0 0

/-- A doorbell write that is ignored and counted. -/
def ignoredDoorbell (f : FnId) (s : State) : State :=
  let x := s.fnr f
  s.setFn f { x with dbErrors := min (x.dbErrors + 1) 0xFFFFFFFF }

/-- A doorbell write of a queue that the function owns and that is ACTIVE.
[DESIGN CHOICE, assumption 111] -/
def doorbell (act : Queue → State → State) (f : FnId) (q : Nat) (s : State) : State :=
  if barOn f s = false then s
  else match s.queue? q with
    | some x => if ownsQueue f q s ∧ x.st = .active then act x s else ignoredDoorbell f s
    | none => ignoredDoorbell f s

/-- The SQ tail.
[DESIGN CHOICE, assumption 109] -/
def sqTail (f : FnId) (q v : Nat) (x : Queue) (s : State) : State :=
  let s := s.setQueue q { x with dbTail := v }
  if x.sqSize ≤ v then badDoorbell f q s else s.setQueue q { x with dbTail := v, sqTail := v }

/-- SQ_TAIL_DOORBELL. -/
def execSqTailDoorbell (f : FnId) (q : QueueId) (v : BitVec 16) (s : State) : Host.Outcome State Fault Refusal :=
  s.served .pcie (.sqTailDoorbell f q v) fun s =>
  .next (doorbell (sqTail f q v.toNat) f q s.fresh)

/-- Entries of a CQ from one index to another. -/
def ringDist (size a b : Nat) : Nat := (b + size - a) % size

/-- The CQ head. -/
def cqHead (f : FnId) (q v : Nat) (x : Queue) (s : State) : State :=
  let s := s.setQueue q { x with dbHead := v }
  if x.cqSize ≤ v ∨ ringDist x.cqSize x.cqHead x.cqTail < ringDist x.cqSize x.cqHead v then badDoorbell f q s
  else s.setQueue q { x with dbHead := v, cqHead := v }

/-- CQ_HEAD_DOORBELL. -/
def execCqHeadDoorbell (f : FnId) (q : QueueId) (v : BitVec 16) (s : State) : Host.Outcome State Fault Refusal :=
  s.served .pcie (.cqHeadDoorbell f q v) fun s =>
  .next (doorbell (cqHead f q v.toNat) f q s.fresh)

/-! ### Submission entries (R586, R587, R589, R593, R572) -/
/-- The opcodes of Table 13.9. -/
def knownOp (o : Nat) : Bool :=
  (decide (0x40 ≤ o) && decide (o ≤ 0x4C)) || (decide (0x50 ≤ o) && decide (o ≤ 0x52)) || (decide (0x61 ≤ o) && decide (o ≤ 0x69))
    || o == 0x70 || o == 0x71 || o == 0x74

/-- The operands of a command lie in their ranges and reserved operands are zero (Tables 7.6, 13.9); nothing is known of the
operands of a reserved opcode. -/
def operandsOk (e : BitVec 512) : Bool :=
  let d := SqE.dw e
  let seg := decide (d 0 < 65536)
  match SqE.opcode e with
  | 0x40 => decide (d 0 < 4) && SqE.zeroFrom e 2
  | 0x41 | 0x44 => seg && decide (1 ≤ d 2) && decide (d 2 ≤ 65536) && SqE.zeroFrom e 3
  | 0x42 | 0x43 | 0x46 | 0x47 => seg && SqE.zeroFrom e 1
  | 0x45 => seg && decide (d 1 < 2) && SqE.zeroFrom e 2
  | 0x48 => decide (d 0 < 64) && decide (d 1 < 8192) && decide (d 3 < 3) && SqE.zeroFrom e 4
  | 0x49 | 0x4A => decide (d 0 < 64) && SqE.zeroFrom e 1
  | 0x4B => decide (1 ≤ d 0) && decide (d 0 ≤ 256) && SqE.zeroFrom e 1
  | 0x4C => SqE.zeroFrom e 0
  | 0x50 | 0x51 => decide (1 ≤ d 1) && decide (d 1 ≤ 4096) && SqE.zeroFrom e 2
  | 0x52 => decide (1 ≤ d 1) && decide (d 1 ≤ 131072) && SqE.zeroFrom e 2
  | 0x70 => decide (d 0 < 32) && decide (1 ≤ d 3) && decide (d 3 ≤ 65536) && SqE.zeroFrom e 4
  | 0x71 => decide (d 0 < 32) && d 1 % 32 == 0 && d 3 % 32 == 0 && decide (d 3 ≤ 67108864) && SqE.zeroFrom e 4
  | 0x74 => decide (d 0 % 16 < 10) && bits (d 0) 4 4 == 0 && (d 0 / 256 == 1 || d 0 / 256 == 2) && SqE.zeroFrom e 1
  | o => if 0x61 ≤ o ∧ o ≤ 0x69 then SqE.zeroFrom e 1 else true

/-- Bytes of an entry's buffer that its command reads from host memory (Table 13.9). -/
def readsOf (e : BitVec 512) : Nat :=
  match SqE.opcode e with
  | 0x41 | 0x4B | 0x50 => SqE.length e
  | _ => 0

/-- A scatter list keeps R587: 1 to 4,096 descriptors, 4-byte aligned addresses and lengths, reserved bytes zero, lengths
that add up to LENGTH. -/
def sglOk (l : List (BitVec 128)) (len : Nat) : Bool :=
  decide (1 ≤ l.length) && decide (l.length ≤ 4096) &&
  l.all (fun d => d.extractLsb' 0 2 == 0 && d.extractLsb' 64 2 == 0 && d.extractLsb' 96 32 == 0) &&
  l.foldl (fun a d => a + (d.extractLsb' 64 32).toNat) 0 == len

/-- The checks of Q_FIELD (R586, R587).
[DEDUCED, assumption 112] -/
def fieldOk (e : BitVec 512) (l : List (BitVec 128)) : Bool :=
  SqE.reservedZero e && operandsOk e &&
  (if SqE.sgl e then SqE.addr e % 16 == 0 && sglOk l (SqE.length e) else SqE.addr e % 4 == 0)

/-- The queue type accepts the opcode (R589). -/
def typeAccepts (t : QType) (o : Nat) : Bool :=
  match t with
  | .command => knownOp o && o != 0x4B && o != 0x4C
  | .feed => o == 0x4B
  | .result => o == 0x4C
  | .event => false

/-- LENGTH is what the command needs (Table 13.9); of a segment that is FREE its item size is not known.
[DESIGN CHOICE, assumption 15] -/
def lengthFits (e : BitVec 512) (s : State) : Bool :=
  let n := SqE.length e
  let d := SqE.dw e
  match SqE.opcode e with
  | 0x41 | 0x44 =>
    match s.seg? (d 0) with
    | some x => n == d 2 * SegKind.itemSize x.kind
    | none => n == d 2 * 4096 || n == d 2 * 128
  | 0x47 => n == 16
  | 0x4B => n == d 0 * 4096
  | 0x4C => n % 32 == 0 && decide (4096 ≤ n) && decide (n ≤ 16777216)
  | 0x50 | 0x51 => n == d 1 * 20
  | 0x52 => n == 12
  | 0x70 => n == d 3 * 32
  | 0x71 => n == d 3
  | _ => n == 0

/-- A CS_WRITE of a VF lies in the windows of its sites (R572). -/
def inWindows (f : FnId) (first count : Nat) (s : State) : Bool :=
  (List.range count).all (fun k => (sitesOf (s.fnSites f)).any (fun (i : SiteId) =>
    decide (s.n (K.sq_WIN_BASE i) ≤ first + k) && decide (first + k ≤ s.n (K.sq_WIN_LIMIT i))))

/-- The function may issue the command (R572); the PF is bound only by the rule on segments and streams.
[DEDUCED, assumption 113] -/
def mayIssue (f : FnId) (e : BitVec 512) (s : State) : Bool :=
  let d := SqE.dw e
  let vf := f.val != 0
  let segMine := match s.seg? (d 0) with | some x => x.owner == f | none => true
  let strm : StreamId := Fin.ofNat 64 (d 0)
  let strmMine := s.n (K.sm_STATE strm) == StrmSt.closed || (s.strm strm).owner == f
  match SqE.opcode e with
  | 0x41 | 0x42 | 0x43 | 0x44 | 0x45 | 0x46 => segMine
  | 0x49 | 0x4A => strmMine
  | 0x48 => strmMine && (!vf || (match s.queue? (d 1) with | some q => q.typ == .feed && q.fn == f | none => false))
  | 0x50 => !vf || inWindows f (d 0) (d 1) s
  | 0x70 | 0x71 => !vf || (s.fnSites f).getLsbD (d 0)
  | 0x74 => !vf
  | o => if 0x61 ≤ o ∧ o ≤ 0x69 then !vf || (BitVec.ofNat 32 (d 0) &&& ~~~(s.fnSites f)) == 0 else true

/-- The first status that refuses an entry, 0 when it is dispatched (R586, R572).
[DEDUCED, assumption 112] -/
def entryCheck (f : FnId) (x : Queue) (e : BitVec 512) (l : List (BitVec 128)) (s : State) : Nat :=
  if fieldOk e l = false then Status.Q_FIELD
  else if typeAccepts x.typ (SqE.opcode e) = false then Status.Q_OPCODE
  else if lengthFits e s = false then Status.Q_LENGTH
  else if mayIssue f e s = false then Status.Q_NOT_OWNER
  else Status.OK

/-! ### Fetch and dispatch (R595 to R597) -/

/-- What the other enabled functions are still assured of (R596). -/
def assured (f : FnId) (s : State) : Nat :=
  ((List.finRange 33).filter (fun (g : FnId) => g != f && s.fnOn g)).foldl (fun a g => a + (32 - inFlight s g)) 0

/-- Commands that the device holds, with the fetches under way (R596). -/
def heldCommands (s : State) : Nat :=
  s.host.flights.length + (s.host.queues.filter (fun e => e.2.entry.isSome || e.2.fetch != 0)).length

/-- The device may fetch from a queue: it is ACTIVE and has an entry, its CQ has room for every command in flight plus
one, and the limits of R590 and R596 leave room. It fetches one entry of a queue at a time.
[DESIGN CHOICE, assumption 207] -/
def mayFetch (q : Nat) (x : Queue) (s : State) : Bool :=
  let n := (flightsOf s q).length
  let all := heldCommands s
  x.st == .active && x.typ != .event && x.sqHead != x.sqTail && x.fetch == 0 && x.entry.isNone
    && decide (n + 1 ≤ x.cqSize - 1 - ringDist x.cqSize x.cqHead x.cqTail)
    && (x.typ != .feed || decide (n < 16))
    && decide (all < 4096)
    && (!s.host.vfEnable || decide (inFlight s x.fn < 32) || decide (assured x.fn s < 4096 - all))

/-- A command in flight has bytes of its buffer to read. -/
def beginReads (t : Tag) (n : Nat) (s : State) : State :=
  { s with host := { s.host with flights := s.host.flights.map (fun x => if x.tag = t then { x with toRead := n } else x) } }

/-- Queues from which the device may fetch, with their functions. -/
def fetchWork (s : State) : List (Nat × Nat) :=
  (s.host.queues.filter (fun e => mayFetch e.1 e.2 s)).map (fun e => (e.2.fn.val, e.1))

/-- Requests the entries at the heads of the queues that have one, in the order of the arbitration (R598), as far as tags are free
(R599). -/
def issueFetches : Nat → State → State
  | 0, s => s
  | n + 1, s =>
    let work := fetchWork s
    match s.host.queues.find? (fun e => mayFetch e.1 e.2 s && mayServe s s.host.fetches work (e.2.fn.val, e.1)) with
    | none => s
    | some (q, x) =>
      if fetchTagFree s = false then s
      else
        let arb := granted s s.host.fetches work (x.fn.val, q)
        let s := { s with host := { s.host with fetches := arb } }
        issueFetches n ((s.setQueue q { x with fetch := 1 }).emit (.memRead x.fn (Fin.ofNat 8192 q) 64))

/-- The entry at a queue's head is checked and dispatched to its unit, or completed with the status that refuses it. -/
def dispatch (q : QueueId) (x : Queue) (e : BitVec 512) (l : List (BitVec 128)) (s : State) : State :=
  let t : Tag := { fn := x.fn, queue := q, cid := SqE.cid e }
  let head := (x.sqHead + 1) % x.sqSize
  let s := s.setQueue q { noFetch x with sqHead := head }
  let s := { s with host := { s.host with
    flights := s.host.flights ++ [({ tag := t, opcode := SqE.opcode e, entry := e, head := head } : Flight)] } }
  let s := s.fromHost t (64 + (if SqE.sgl e then 16 * l.length else 0))
  let st := entryCheck x.fn x e l s
  if st = Status.OK then pumpReads (beginReads t (readsOf e) (s.emit (.dispatch t e)))
  else s.refuse t st

/-- An entry of a queue waits: for the reads of its scatter list, or, with FENCE, for every earlier command of its queue (R595). -/
def entryWaits (q : QueueId) (x : Queue) (e : BitVec 512) (s : State) : Bool :=
  decide (0 < x.listLeft) || (SqE.fence e && flightsOf s q != [])

/-- The entry that the device has requested arrives. One with a scatter list waits for the list, which is requested now; that one, and
one that waits for earlier commands, comes again when nothing holds it (R587, R595, R599).
[DEDUCED, assumption 114] -/
def sqFetch (q : QueueId) (e : BitVec 512) (l : List (BitVec 128)) (s : State) : State :=
  match s.queue? q with
  | none => s
  | some x =>
    match x.entry with
    | some held => if held ≠ (e, l) ∨ entryWaits q x e s then s else dispatch q x e l s
    | none =>
      if x.fetch = 0 then s
      else
        let y := { x with fetch := 0, entry := some (e, l), listLeft := if SqE.sgl e then 16 * l.length else 0 }
        if entryWaits q y e s then pumpReads (s.setQueue q y) else dispatch q x e l s

/-- SQ_FETCH: the entry, and the scatter list that it names, as read from host memory. -/
def execSqFetch (q : QueueId) (e : BitVec 512) (l : List (BitVec 128)) (s : State) : Host.Outcome State Fault Refusal :=
  s.served .pcie (.sqFetch q e l) fun s =>
  .next (sqFetch q e l s.fresh)

/-! ### Completions, events and interrupts (R585, R588, R592, R600) -/

/-- A CQ has a free entry.
[DEDUCED, assumption 110] -/
def cqRoom (x : Queue) : Bool := (x.cqTail + 1) % x.cqSize != x.cqHead
/-- The IEN bit of a CQ. -/
def Queue.ien (x : Queue) : Bool := x.irq.getLsbD 31
/-- Its ITIME, ICOUNT and IV. -/
def Queue.itime (x : Queue) : Nat := (x.irq.extractLsb' 16 8).toNat
/-- ICOUNT -/
def Queue.icount (x : Queue) : Nat := (x.irq.extractLsb' 8 8).toNat
/-- IV -/
def Queue.iv (x : Queue) : Nat := (x.irq.extractLsb' 0 8).toNat

/-- Writes an entry, given without its PHASE, at the tail of a CQ; the count of R600 may signal its vector. -/
def cqPost (q : QueueId) (e : BitVec 128) (s : State) : State :=
  match s.queue? q with
  | none => s
  | some x =>
    let tail := (x.cqTail + 1) % x.cqSize
    let n := if x.ien then x.unsig + 1 else 0
    let go := x.ien && decide (x.icount ≤ n)
    let y := { x with cqTail := tail, phase := if tail = 0 then !x.phase else x.phase, unsig := if go then 0 else n,
                      unsigAt := if x.unsig = 0 then s.now else x.unsigAt }
    let f := s.fnr x.fn
    let s := (s.setFn x.fn { f with wrBytes := (f.wrBytes + 16) % 2 ^ 64 }).setQueue q y
    let s := s.emit (.cqEntry q x.cqTail (if x.phase then e ||| (1#128 <<< 127) else e))
    if go then signal x.fn x.iv s else s

/-- The fields of a completion entry (Table 13.7). -/
def complEntry (c : Compl) (head : Nat) : BitVec 128 :=
  BitVec.ofNat 128 (c.result % 2 ^ 32 + c.status % 2 ^ 16 * 2 ^ 48 + c.tag.cid.toNat * 2 ^ 64 + head % 2 ^ 16 * 2 ^ 80
    + c.tag.queue.val * 2 ^ 96)

/-- COMPLETION_POST: the completion of an ended command is written once its data writes have left the device (R588), or discarded
when its queue is being deleted. -/
def completionPost (t : Tag) (s : State) : State :=
  match s.host.compl.find? (fun c => c.tag == t) with
  | none => s
  | some c =>
    let fl := s.host.flights.find? (fun x => x.tag == t)
    let gone := endFlight t { s with host := { s.host with compl := s.host.compl.erase c } }
    match s.queue? t.queue with
    | none => gone
    | some x =>
      if (match fl with | some y => y.dropped | none => false) = true then gone
      else if x.st = .active ∧ cqRoom x ∧ s.host.waiting.all (fun w => w.1 != t) then
        let f := gone.fnr t.fn
        cqPost t.queue (complEntry c (fl.elim x.sqHead (·.head))) (gone.setFn t.fn { f with cmds := (f.cmds + 1) % 2 ^ 64 })
      else s

/-- COMPLETION_POST. -/
def execCompletionPost (t : Tag) (s : State) : Host.Outcome State Fault Refusal :=
  s.served .pcie (.completionPost t) fun s =>
  .next (completionPost t s.fresh)

/-- INTERRUPT_COALESCE_TIMER: ITIME has passed since the first entry not yet signalled. -/
def coalesceTimer (q : QueueId) (s : State) : State :=
  match s.queue? q with
  | some x =>
    if x.ien ∧ x.itime ≠ 0 ∧ 0 < x.unsig ∧ x.unsigAt + 800 * x.itime ≤ s.now then
      signal x.fn x.iv (s.setQueue q { x with unsig := 0 })
    else s
  | none => s

/-- INTERRUPT_COALESCE_TIMER. -/
def execInterruptCoalesceTimer (q : QueueId) (s : State) : Host.Outcome State Fault Refusal :=
  s.served .pcie (.interruptCoalesceTimer q) fun s =>
  .next (coalesceTimer q s.fresh)

/-- EVENT_POST: the oldest event of a site's FIFO is written to its EVENT queue when the CQ has room and the link is up
(R592). -/
def eventPost (i : SiteId) (s : State) : State :=
  match (s.site i).evFifo, s.siteQueue i .event with
  | e :: rest, some q =>
    match s.queue? q with
    | some x => if cqRoom x ∧ s.pwr.link then cqPost (Fin.ofNat 8192 q) e (s.modSite i (fun y => { y with evFifo := rest })) else s
    | none => s
  | _, _ => s

/-- EVENT_POST. -/
def execEventPost (i : SiteId) (s : State) : Host.Outcome State Fault Refusal :=
  s.served .pcie (.eventPost i) fun s =>
  .next (eventPost i s.fresh)

/-! ### DMA failures (R594) -/

/-- Stores the yealms of a feed entry that arrived before the failure, up to the first that fails its check or has no room
in the ring (R83, R86). -/
def feedCut (n : StreamId) : List (List Byte) → Nat → State → Nat × State
  | [], k, s => (k, s)
  | y :: r, k, s =>
    if feedReady n 1 s = false ∨ s.n (K.sm_STATE n) = StrmSt.error ∨ s.n (K.sm_STATE n) = StrmSt.ended ∨
        feedCheck n y s ≠ Status.OK then (k, s)
    else feedCut n r (k + 1) (ringStore n y s)

/-- What a command had stored before its DMA failed, and its RESULT.
[DEDUCED, assumption 116] [DESIGN CHOICE, assumption 197] -/
def dmaKept (t : Tag) (cut : DmaCut) (s : State) : Nat × State :=
  match cut with
  | .segWrite n first data =>
    match s.seg? n with
    | some x =>
      let items := (chunks (SegKind.itemSize x.kind) 65536 data).filter (fun y => y.length == SegKind.itemSize x.kind)
      if x.st ≠ .opened ∨ x.len < first + items.length then (first, s)
      else
        let r := storeItems x.kind n items first x.data
        (match r.2 with | some b => b.1 | none => first + items.length,
          (s.fromHost t data.length).setSeg n { x with data := r.1 })
    | none => (first, s)
  | .streamFeed data =>
    match (s.queue? t.queue).bind Queue.bound with
    | some n =>
      let x := s.strm n
      let s := s.p (K.sm_LAST_STATUS n) Status.Q_DMA_ERROR
      match x.held.find? (fun f => f.tag == t) with
      | some f => (f.stored, s.setStrm n { x with held := x.held.filter (fun f => f.tag != t) })
      | none =>
        let ys := if x.held.isEmpty then (chunks 4096 256 data).filter (fun y => y.length == 4096) else []
        feedCut n ys 0 (s.fromHost t data.length)
    | none => (0, s)
  | .csWrite addr words =>
    let r := csStore addr words (s.fromHost t (20 * words.length))
    (if r.2.1 = Status.OK then addr + words.length else r.2.2, r.1)
  | _ => (0, s)

/-- Q_DMA_ERROR: a command in flight ends with Q_DMA_ERROR; a failed write to a CQ, of a completion or of an event, puts the queue in
ERROR.
[DEDUCED, assumption 116] -/
def dmaError (t : Tag) (cut : DmaCut) (s : State) : State :=
  if cut = .cqWrite then
    endFlight t (queueError t.queue { s with host := { s.host with compl := s.host.compl.eraseP (fun c => c.tag == t) } })
  else if s.host.flights.any (fun x => x.tag == t) = false then s
  else if s.ended t then s
  else
    let r := dmaKept t cut s
    r.2.complete t Status.Q_DMA_ERROR r.1

/-- Q_DMA_ERROR. -/
def execQDmaError (t : Tag) (cut : DmaCut) (s : State) : Host.Outcome State Fault Refusal :=
  s.served .pcie (.qDmaError t cut) fun s =>
  .next (dmaError t cut s.fresh)

/-! ### Registers (R574 to R578, Tables 13.3 to 13.5) -/

/-- The key of a 64-bit register in a function's latches. -/
def reg64Key (r : Reg64) : Nat := match r with | .fnCmds => 0 | .fnRdBytes => 1 | .fnWrBytes => 2 | .qSqBase => 3 | .qCqBase => 4
/-- Its value. -/
def reg64Value (r : Reg64) (x : Fn) : BitVec 64 :=
  match r with
  | .fnCmds => BitVec.ofNat 64 x.cmds
  | .fnRdBytes => BitVec.ofNat 64 x.rdBytes
  | .fnWrBytes => BitVec.ofNat 64 x.wrBytes
  | .qSqBase => x.qcfg.sqBase
  | .qCqBase => x.qcfg.cqBase

/-- The 64-bit registers with their offsets (Tables 13.3, 13.4). -/
def reg64s : List (Nat × Reg64) := [(0x10, .fnCmds), (0x18, .fnRdBytes), (0x20, .fnWrBytes), (0x1008, .qSqBase), (0x1010, .qCqBase)]

/-- The double word of a function's own registers at an offset, and of its queue configuration registers; the halves of 64-bit
registers have a rule of their own, and what has no field reads 0 (Tables 13.3, 13.4). -/
def fnDword (f : FnId) (off : Nat) (s : State) : Nat :=
  let x := s.fnr f
  let c := x.qcfg
  match off with
  | 0x00 => f.val
  | 0x04 => (s.fnSites f).toNat
  | 0x08 => inFlight s f
  | 0x28 => x.dbErrors
  | 0x1000 => c.num.toNat
  | 0x1004 => c.typ.toNat
  | 0x1018 => c.sizes.toNat
  | 0x101C => c.irq.toNat
  | 0x1024 => c.state * 65536 + c.status
  | 0x1028 => c.sqHead * 65536 + c.cqTail
  | _ => 0

/-- The double word of a window slot at an offset (Table 13.5). -/
def slotRead (off : Nat) (x : Slot) : Nat :=
  let a := x.args
  match off with
  | 0x00 => a.index.toNat * 256 + a.sub.toNat
  | 0x04 => a.txn.toNat
  | 0x08 => a.offset
  | 0x0C => a.len
  | 0x10 => a.apply
  | 0x14 => a.sites.toNat
  | 0x18 => b2n x.ien * 32768 + x.iv.toNat
  | 0x24 => b2n x.busy * 2 ^ 31 + x.status
  | 0x28 => x.result
  | 0x2C => x.total
  | _ => 0

/-- The window slot that an offset lies in: a VF has slot 0 alone (Table 13.2). -/
def slotOf (f : FnId) (off : Nat) : Option (Fin 4 × Nat) :=
  let n := (off - 0x2000) / 0x2000
  if off < 0x2000 ∨ 0xA000 ≤ off ∨ (f.val ≠ 0 ∧ n ≠ 0) then none else some (Fin.ofNat 4 n, (off - 0x2000) % 0x2000)

/-- The doorbells of a queue at an offset, as last written, for the function that owns it (R583).
[DESIGN CHOICE, assumption 111] -/
def bellRead (f : FnId) (off : Nat) (s : State) : Nat :=
  let q := (off - 0x80000) / 8
  match s.queue? q with
  | some x => if ownsQueue f q s then (if off % 8 = 0 then x.dbTail else x.dbHead) else 0
  | none => 0

/-- The double word at an aligned offset of BAR0 (Table 13.2), where a read has no effect: a reserved range reads 0. -/
def barDword (f : FnId) (off : Nat) (s : State) : Nat :=
  let x := s.fnr f
  if off < 0x1100 then fnDword f off s
  else if 0xC000 ≤ off ∧ off < 0xC000 + 16 * vectors f then
    let k := (off - 0xC000) / 4
    (kgetD x.msix k (if k % 4 = 3 then 1#32 else 0#32)).toNat
  else if 0xD000 ≤ off ∧ off < 0xD000 + vectors f / 8 then
    (List.range 32).foldl (fun a k => if x.msixPend.contains (8 * (off - 0xD000) + k) then a + 2 ^ k else a) 0
  else if 0x80000 ≤ off ∧ off < 0x90000 then bellRead f off s
  else match slotOf f off with
    | some (n, o) => slotRead o x.slots[n]
    | none => 0

/-- A 4-byte read: the low half of a 64-bit register latches the whole value, and the high half comes from the latch (R575).
[DESIGN CHOICE, assumption 115] -/
def read4 (f : FnId) (off : Nat) (s : State) : Nat × State :=
  let x := s.fnr f
  match reg64s.find? (fun r => r.1 == off || r.1 + 4 == off) with
  | some (o, r) =>
    if off = o then (((reg64Value r x).extractLsb' 0 32).toNat, s.setFn f { x with latch := kput x.latch (reg64Key r) (reg64Value r x) })
    else (((kgetD x.latch (reg64Key r) (reg64Value r x)).extractLsb' 32 32).toNat, s)
  | none => (barDword f off s, s)

/-- An 8-byte read: a 64-bit register returns its whole value (R575). -/
def read8 (f : FnId) (off : Nat) (s : State) : Nat :=
  match reg64s.find? (fun r => r.1 == off) with
  | some (_, r) => (reg64Value r (s.fnr f)).toNat
  | none => barDword f off s + 2 ^ 32 * barDword f (off + 4) s

/-- The bytes that a read of BAR0 returns, and the state after it: aligned accesses of 4 or 8 bytes, and any access to a slot's data
buffer; any other reads 0 (R574). -/
def barBytes (f : FnId) (off len : Nat) (s : State) : List Byte × State :=
  match (slotOf f off).filter (fun p => decide (0x1000 ≤ p.2)) with
  | some (n, o) =>
    (if o + len ≤ 0x2000 then ((padTo 4096 (s.fnr f).slots[n].data).drop (o - 0x1000)).take len else toBytes len 0, s)
  | none =>
    if len = 4 ∧ off % 4 = 0 then (toBytes 4 (read4 f off s).1, (read4 f off s).2)
    else if len = 8 ∧ off % 8 = 0 then (toBytes 8 (read8 f off s), s)
    else (toBytes len 0, s)

/-- Configuration Requests are served: from P6, and through a FIRMWARE reset; from link-up until then they are completed with CRS
(R603, R735).
[DEDUCED, assumption 121] -/
def cfgOn (s : State) : Bool := s.n K.bu_PHASE == 6 || s.pwr.fwOnly

/-- A Configuration Request has its effect, or is completed with CRS. -/
def cfgRequest (f : FnId) (act : State → State) (s : State) : State := if cfgOn s then act s else s.emit (.pcieMsg "CRS" f)

/-- The bytes of a register of the configuration space (Table 13.1, R569). Its layout within the base specification's structures is not
the manual's.
[PRESUMED, assumption 239] -/
def cfgBytes (f : FnId) (r : RegR) (s : State) : List Byte :=
  let x := s.fnr f
  match r with
  | .bar _ => []
  | .ids => toBytes 2 Config.vendorId.toNat ++ toBytes 2 (if f.val = 0 then 0x2560 else 0x2561)
  | .classCode => toBytes 3 0x118000
  | .devControl => toBytes 1 (b2n (s.b K.pcie_TAG10)) ++ toBytes 2 (s.n K.pcie_MPS) ++ toBytes 2 (s.n K.pcie_MRRS)
  | .msixControl => toBytes 1 (b2n x.msixEnable + 2 * b2n x.msixMask)
  | .power => toBytes 1 (if x.d3hot then 3 else 0)
  | .aer => toBytes 4 x.aerUnc.toNat ++ toBytes 4 x.aerCor.toNat
  | .serialNumber => toBytes 8 Config.deviceSerial.toNat

/-- A read of a function's registers. -/
def regRead (f : FnId) (r : RegR) (len : Nat) (s : State) : State :=
  match r with
  | .bar off =>
    if barOn f s = false then s
    else (barBytes f off len s).2.emit (.barRead f (barBytes f off len s).1)
  | r => cfgRequest f (fun s => if s.fnOn f then s.emit (.barRead f (cfgBytes f r s)) else s) s

/-- BAR64_HALF_READ. -/
def execBar64HalfRead (f : FnId) (r : RegR) (len : Nat) (s : State) : Host.Outcome State Fault Refusal :=
  s.served .pcie (.bar64HalfRead f r len) fun s =>
  .next (regRead f r len s.fresh)

/-- A 64-bit register takes a value; the counters are read-only. -/
def put64 (r : Reg64) (v : BitVec 64) (x : Fn) : Fn :=
  match r with
  | .qSqBase => { x with qcfg := { x.qcfg with sqBase := v } }
  | .qCqBase => { x with qcfg := { x.qcfg with cqBase := v } }
  | _ => x

/-- BAR64_HALF_WRITE: the low half is held until the high half is written (R576). -/
def half64Write (f : FnId) (r : Reg64) (high : Bool) (v : BitVec 32) (s : State) : State :=
  let x := s.fnr f
  if barOn f s = false then s
  else if high then
    let low := kgetD x.heldLow (reg64Key r) ((reg64Value r x).extractLsb' 0 32)
    s.setFn f (put64 r (v ++ low) { x with heldLow := kdel x.heldLow (reg64Key r) })
  else s.setFn f { x with heldLow := kput x.heldLow (reg64Key r) v }

/-- BAR64_HALF_WRITE. -/
def execBar64HalfWrite (f : FnId) (r : Reg64) (high : Bool) (v : BitVec 32) (s : State) :
    Host.Outcome State Fault Refusal :=
  s.served .pcie (.bar64HalfWrite f r high v) fun s =>
  .next (half64Write f r high v s.fresh)

/-- A 4-byte write of a slot register; reserved bits are ignored (Table 13.5, R14). -/
def slotDword (off v : Nat) (x : Slot) : Slot :=
  match off with
  | 0x00 => { x with args := { x.args with index := BitVec.ofNat 16 (bits v 8 16), sub := BitVec.ofNat 8 v } }
  | 0x04 => { x with args := { x.args with txn := BitVec.ofNat 16 v } }
  | 0x08 => { x with args := { x.args with offset := v } }
  | 0x0C => { x with args := { x.args with len := bits v 0 13 } }
  | 0x10 => { x with args := { x.args with apply := bits v 0 2 } }
  | 0x14 => { x with args := { x.args with sites := BitVec.ofNat 32 v } }
  | 0x18 => { x with ien := v.testBit 15, iv := BitVec.ofNat 8 v }
  | _ => x

/-- A 4-byte write of a queue configuration register.
[DESIGN CHOICE, assumption 106] -/
def cfgDword (off v : Nat) (c : QCfg) : QCfg :=
  match off with
  | 0x00 => { c with num := BitVec.ofNat 13 v }
  | 0x04 => { c with typ := BitVec.ofNat 2 v }
  | 0x18 => { c with sizes := BitVec.ofNat 32 v }
  | 0x1C => { c with irq := BitVec.ofNat 32 v &&& 0x80FFFFFF#32 }
  | _ => c

/-- Writes bytes into the data buffer of a slot. -/
def slotData (off : Nat) (d : List Byte) (x : Slot) : Slot :=
  let l := padTo 4096 x.data
  { x with data := l.take off ++ d ++ l.drop (off + d.length) }

/-- Changes a window slot unless it is busy (R578). -/
def modSlot (f : FnId) (n : Fin 4) (g : Slot → Slot) (s : State) : State :=
  let x := s.fnr f
  if x.slots[n].busy then s else s.setFn f { x with slots := x.slots.set n (g x.slots[n]) }

/-- An aligned 4-byte write of a register without a behaviour of its own; DW_CMD, Q_CMD, doorbells and 64-bit halves have
rows of their own, and other offsets ignore it (R574). -/
def regDword (f : FnId) (off v : Nat) (s : State) : State :=
  if 0x1000 ≤ off ∧ off < 0x1100 then
    let x := s.fnr f
    s.setFn f { x with qcfg := cfgDword (off - 0x1000) v x.qcfg }
  else if 0xC000 ≤ off ∧ off < 0xC000 + 16 * vectors f then
    let x := s.fnr f
    let k := (off - 0xC000) / 4
    signalPending f (s.setFn f { x with msix := kput x.msix k (if k % 4 = 3 then BitVec.ofNat 32 (v % 2) else BitVec.ofNat 32 v) })
  else match slotOf f off with
    | some (n, o) => modSlot f n (slotDword o v) s
    | none => s

/-- 4 or 8 aligned bytes of a register, or any bytes of a slot's data buffer, are written (R574, R577). -/
def barWrite (f : FnId) (off : Nat) (d : List Byte) (s : State) : State :=
  if barOn f s = false then s
  else match slotOf f off with
    | some (n, o) =>
      if 0x1000 ≤ o then (if o + d.length ≤ 0x2000 then modSlot f n (slotData (o - 0x1000) d) s else s)
      else if d.length = 4 ∧ o % 4 = 0 then regDword f off (leNat d) s
      else if d.length = 8 ∧ o % 8 = 0 then regDword f (off + 4) (leNat (d.drop 4)) (regDword f off (leNat (d.take 4)) s)
      else s
    | none =>
      if d.length = 8 ∧ (off = 0x1008 ∨ off = 0x1010) then
        s.setFn f (put64 (if off = 0x1008 then .qSqBase else .qCqBase) (BitVec.ofNat 64 (leNat d)) (s.fnr f))
      else if d.length = 4 ∧ off % 4 = 0 then regDword f off (leNat d) s
      else if d.length = 8 ∧ off % 8 = 0 then regDword f (off + 4) (leNat (d.drop 4)) (regDword f off (leNat (d.take 4)) s)
      else s

/-- A register of the configuration space is written (Table 13.1). Device Control of the PF holds for the device; a write of the power
state D0 is the row D3HOT_TO_D0.
[PRESUMED, assumption 239] -/
def cfgWrite (f : FnId) (w : RegW) (s : State) : State :=
  let x := s.fnr f
  match w with
  | .bar _ => s
  | .devControl tag10 mps mrrs =>
    if f.val = 0 then
      ((s.p K.pcie_TAG10 (b2n tag10)).p K.pcie_MPS (128 * 2 ^ mps.val : Nat)).p K.pcie_MRRS (128 * 2 ^ mrrs.val : Nat)
    else s
  | .msixControl enable mask => signalPending f (s.setFn f { x with msixEnable := enable, msixMask := mask })
  | .power d3 => if d3 then s.setFn f { x with d3hot := true } else s
  | .aer u c => s.setFn f { x with aerUnc := x.aerUnc &&& ~~~u, aerCor := x.aerCor &&& ~~~c }

/-- REGISTER_WRITE. -/
def registerWrite (f : FnId) (w : RegW) (d : List Byte) (s : State) : State :=
  match w with
  | .bar off => barWrite f off d s
  | w => cfgRequest f (fun s => if s.fnOn f then cfgWrite f w s else s) s

/-- REGISTER_WRITE. -/
def execRegisterWrite (f : FnId) (w : RegW) (d : List Byte) (s : State) : Host.Outcome State Fault Refusal :=
  s.served .pcie (.registerWrite f w d) fun s =>
  .next (registerWrite f w d s.fresh)

/-! ### Link and functions (R568, R569, R573, R601 to R604) -/

/-- The answer of a request of a window slot is given up: it completes unseen (R601). -/
def unseen (t : Txn) : Txn := match t.owner with | .pcie _ _ => { t with ask := none, vector := none } | _ => t

/-- A function's slots are idle and its MSI-X state is at its reset values (R601). -/
def fnLinkReset (x : Fn) : Fn :=
  { x with slots := x.slots.map (fun y => { y with busy := false }), msix := [], msixPend := [], msixEnable := false, msixMask := false }

/-- A request came through a window slot. -/
def Ask.ofSlot (a : Ask) : Bool := match a.path with | .pcie _ _ => true | _ => false

/-- What the loss of the link does to queues, slots and transactions (R601): requests of slots that wait for the end of a FIRMWARE reset
are given up, and data writes that have not left the device are lost.
[DEDUCED, assumption 122] [DEDUCED, assumption 240] -/
def linkLost (s : State) : State :=
  let s := dropQueues (fun _ _ => true) s
  let s := { s with dict := { s.dict with txns := s.dict.txns.map unseen, outs := s.dict.outs.map unseen } }
  let s := rollbackAll (fun t => match t.owner with | .pcie _ _ => true | _ => false) s
  { s with host := { s.host with fns := s.host.fns.map fnLinkReset, waiting := [] },
           dict := { s.dict with held := s.dict.held.filter (fun a => !a.ofSlot) },
           pwr := { s.pwr with waiting := s.pwr.waiting.filter (fun a => !a.ofSlot) } }

/-- PCIE_LINK_DOWN. -/
def linkDown (s : State) : State :=
  if s.pwr.link = false then s
  else
    let s := linkLost { s with pwr := { s.pwr with link := false } }
    let s := ((s.p K.pcie_LINK_SPEED 0).p K.pcie_LINK_WIDTH 0).sat32 K.pcie_LINK_DOWNS
    s.activate Src.PCIE_LINK_DOWN 0 0

/-- PCIE_LINK_DOWN. -/
def execPcieLinkDown (s : State) : Host.Outcome State Fault Refusal := .next (linkDown s.fresh)

/-- The trained speed, 2.5 to 32 GT/s, and width, x1, x2, x4 or x8; anything below 32 GT/s x8 raises PCIE_LINK_DEGRADED (R569).
[DEDUCED, assumption 119] -/
def linkTrained (speed : Fin 5) (width : Fin 4) (s : State) : State :=
  let s := (s.p K.pcie_LINK_SPEED (speed.val + 1 : Nat)).p K.pcie_LINK_WIDTH (2 ^ width.val : Nat)
  if speed.val < 4 ∨ width.val < 3 then s.activate Src.PCIE_LINK_DEGRADED 0 0 else s.deactivate Src.PCIE_LINK_DEGRADED

/-- PCIE_LINK_DEGRADED: the link trains to a lower speed or width. -/
def execPcieLinkDegraded (speed : Fin 5) (width : Fin 4) (s : State) : Host.Outcome State Fault Refusal :=
  let s := s.fresh
  .next (if s.pwr.link then linkTrained speed width s else s)

/-- PCIE_LINK_UP: the link trains once PERST_N is high, PCIE_REFCLK is GOOD and the host and management group runs from it (R541,
R568, Table 17.2). -/
def execPcieLinkUp (speed : Fin 5) (width : Fin 4) (s : State) : Host.Outcome State Fault Refusal :=
  let s := s.fresh
  .next (if s.pwr.on ∧ s.pwr.perst = false ∧ 1 ≤ s.n K.bu_PHASE ∧ refGood s 1 ∧ s.n (K.cg_SOURCE 1) = 1 ∧ s.pwr.link = false then
      linkTrained speed width (({ s with pwr := { s.pwr with link := true } }).deactivate Src.PCIE_LINK_DOWN)
    else s)

/-- An FRS Message of a function, when the upstream port has enabled FRS (R604). -/
def frs (on : Bool) (f : FnId) (s : State) : State := if on then s.emit (.pcieMsg "FRS" f) else s

/-- The VFs from a number on disappear: they lose their queues, and their sites pass to the PF (R570, R573).
[DEDUCED, assumption 120] -/
def setVfs (enable : Bool) (n : Nat) (s : State) : State :=
  let s := { s with host := { s.host with vfEnable := enable } }
  let s := s.p K.pcie_NUM_VFS n
  dropQueues (fun _ x => !s.fnOn x.fn) s

/-- VF_ENABLE_CHANGE: VF Enable and NumVFs take new values. -/
def execVfEnableChange (enable : Bool) (n : FnId) (frsOn : Bool) (s : State) : Host.Outcome State Fault Refusal :=
  s.served .pcie (.vfEnableChange enable n frsOn) fun s =>
  .next (cfgRequest 0 (fun s => frs frsOn 0 (setVfs enable n.val s)) s.fresh)

/-- FLR: the function's queues are deleted and its transactions rolled back; of the PF it also clears VF Enable (R602).
[DEDUCED, assumption 120] -/
def flr (f : FnId) (s : State) : State :=
  let s := rollbackFn f (dropQueues (fun _ x => x.fn == f) s)
  if f.val = 0 then setVfs false (s.n K.pcie_NUM_VFS) s else s

/-- FLR. -/
def execFlr (f : FnId) (frsOn : Bool) (s : State) : Host.Outcome State Fault Refusal :=
  s.served .pcie (.flr f frsOn) fun s =>
  let s := s.fresh
  .next (cfgRequest f (fun s => if s.fnOn f then frs frsOn f (flr f s) else s) s)

/-- D3HOT_TO_D0: the function is in D0 again; its pending vectors are signalled (R604).
[DESIGN CHOICE, assumption 118] -/
def execD3hotToD0 (f : FnId) (frsOn : Bool) (s : State) : Host.Outcome State Fault Refusal :=
  s.served .pcie (.d3hotToD0 f frsOn) fun s =>
  .next (cfgRequest f (fun s => frs frsOn f (signalPending f (s.setFn f { s.fnr f with d3hot := false }))) s.fresh)

end Sys2Proof.Machine
end

