-- ==== Sys2Proof/Machine/Resets.lean ====
section
/-! DEFINITION. The resets of Table 17.4 and what each preserves (R730 to R733), the supply supervisor (R736 to R740) and
the DIMM temperature (R760). -/
namespace Sys2Proof.Machine
open Sys2Proof

/-! ### What survives -/

/-- Boot control, the fuses, and the medium's own figures: objects outside the reach of every reset.
[DEDUCED, assumption 163] [DESIGN CHOICE, assumption 186] -/
def storedKey (k : Nat) : Bool :=
  let i := k / 256
  let j := k % 256
  (i == 0x7470 && decide (j ≤ 7)) || (i == 0x7820 && j == 2) || (i == 0x7460 && (j == 7 || j == 0xB)) ||
    (i == 0x1810 && decide (j ≤ 2))

/-- Objects that show a condition which a reset other than POWER_ON does not change: pins, references, the level outputs,
dies, and what R731 keeps. -/
def warmKey (k : Nat) : Bool :=
  let i := k / 256
  let j := k % 256
  storedKey k || i == 0x7000 || (decide (0x7020 ≤ i) && decide (i < 0x7040)) || k == K.net_NODE_ID ||
    (i == 0x6000 && (j == 1 || j == 2 || j == 3 || j == 5)) ||
    (decide (0x5000 ≤ i) && decide (i < 0x50C0) && (j == 2 || j == 3 || j == 4 || j == 9 || j == 0xA || j == 0xB)) ||
    (decide (0x50C0 ≤ i) && decide (i < 0x50C8) && j == 3) || k == K.ll_PARK_SOURCE || k == K.nr_NOR_COPIES ||
    k == K.lcy_TAMPER_ACTIVE || k == K.pw_PFW_ACTIVE

/-- Objects that show the running domain groups: kept while the groups run on. -/
def groupKey (k : Nat) : Bool :=
  let i := k / 256
  let j := k % 256
  (decide (0x6001 ≤ i) && decide (i < 0x6004) && decide (j ≤ 3)) || (decide (0x3000 ≤ i) && decide (i < 0x3100) && j == 5) ||
    (decide (0x4840 ≤ i) && decide (i < 0x484A) && j == 9)

/-- Objects that show the link: kept while the link is. -/
def linkKey (k : Nat) : Bool := k / 256 == 0x1140 && decide (4 ≤ k % 256) && decide (k % 256 ≤ 9)

/-- What the management subsystem holds without power: journal, log ring, secure partition, fuses, firmware slots.
[DEDUCED, assumption 162] -/
def Mgmt.stored (m : Mgmt) : Mgmt :=
  { logRing := m.logRing, logSeq := m.logSeq, journal := m.journal, jseq := m.jseq, epoch := m.epoch, pages := m.pages,
    freed := m.freed, progAt := m.progAt, rewrite := m.rewrite, spares := m.spares, partKey := m.partKey, mirror := m.mirror, scrapped := m.scrapped, slots := m.slots }

/-- What it holds through a reset with power: the log on its way, the sensors' limit checks, the data scratchpad, the NOR
work.
[DESIGN CHOICE, assumption 167] -/
def Mgmt.warm (m : Mgmt) (now : Nat) : Mgmt :=
  { m.stored with
    logPend := m.logPend, logRam := m.logRam, utcAt := now, erase := m.erase, pcommits := m.pcommits, budgetAt := m.budgetAt,
    spad := m.spad, code := m.code, mailReq := m.mailReq, mailResp := m.mailResp, sensAt := m.sensAt.filter (fun e => decide (e.1 < 200)) }

/-- What a source keeps: its life-long count of PERSISTENT verdicts, and with power its condition.
[DEDUCED, assumption 160] -/
def SrcStat.stored (x : SrcStat) : SrcStat := { persistent := x.persistent }
/-- The same through a reset with power. -/
def SrcStat.warm (x : SrcStat) : SrcStat := { persistent := x.persistent, active := x.active, broken := x.broken, lastEp := x.lastEp }

/-- The device without power: only what is stored remains (R739). -/
def unpowered (s : State) : State :=
  { now := s.now, out := s.out, pending := s.pending, free := s.free, mkLast := s.mkLast,
    od := s.od.filter (fun e => storedKey e.1),
    mgmt := s.mgmt.stored, flt := { srcs := s.flt.srcs.map (fun e => (e.1, e.2.stored)) } }

/-! ### Shared steps -/

/-- A fraction of SCLK counts as fs. -/
def fsOf (n : Nat) : Int := (n : Int) * 1250000

/-- A phase begins. -/
def beginPhase (p : Nat) (s : State) : State := { s.p K.bu_PHASE p with pwr := { s.pwr with phaseAt := s.now } }

/-- A reset takes effect: its code, the phase in which it does, and the phase in which bring-up restarts; firmware restarts
(R730, R732).
[DEDUCED, assumption 172] -/
def resetFrom (code inPhase first : Nat) (s : State) : State :=
  let s := (s.p K.bu_LAST_RESET code).p K.bu_RESET_PHASE inPhase
  let s := { s with
    mgmt := { s.mgmt with confirmEnd := none, revert := false },
    pwr := { s.pwr with fw := false, fwOnly := false, hold := false, noSlot := false, train := none, reset := none, done := [],
                        startAt := s.now, waiting := [] } }
  beginPhase first (zeroise s)

/-- The commit marks of everything already applied are made durable (R731). -/
def finishMarks (s : State) : State :=
  let l := (allTxns.map s.txn ++ s.dict.outs).filter (fun t => t.wait == .mark)
  l.foldl (fun s t => s.append t.num (.mark t.jseq)) s

/-- Retirements whose record is being programmed become durable (R731).
[DESIGN CHOICE, assumption 170] -/
def finishRetiring (s : State) : State :=
  let s := s.flt.retiring.foldl (fun s r =>
    match runitOf r.kind r.unit, (List.range 32).find? (fun j => !(s.n (K.rt_RETIRE j)).testBit 31) with
    | some u, some j => (s.p (K.rt_RETIRE j) (retireWord u r.spar)).persist [K.rt_RETIRE j]
    | _, _ => s) s
  { s with flt := { s.flt with retiring := [] } }

/-- Before anything is cleared: sites into slath state, NOR programs and marks complete, the event log's RAM buffer is
written (R731).
[DEDUCED, assumption 174] -/
def beforeClear (s : State) : State :=
  let s := allSites.foldl (fun s i => if s.active i then slathCut i 8000 slathGap s else s) s
  evlogProgram 1024 (finishRetiring (finishMarks s))

/-- The collector through a reset: episodes, raises under way and scheduled tests are kept; units are given back until the
retirements are applied again.
[DESIGN CHOICE, assumption 170] -/
def Flt.warm (f : Flt) : Flt :=
  { f with srcs := f.srcs.map (fun e => (e.1, e.2.warm)), stCmd := none, wants := [], pendSw := [], noEng := [], tempRet := [] }

/-- A segment after its contents are lost with the clocks (R537).
[DESIGN CHOICE, assumption 24] -/
def Seg.lost (x : Seg) : Seg := { x with st := .failed, refs := 0, moving := none }

/-- The open streams of a state.
[DESIGN CHOICE, assumption 24] -/
def openStreams (s : State) : List StreamId := (List.finRange 64).filter (fun n => s.g (K.sm_STATE n) != 0)

/-- A reset that clears the dictionary and the control store: kinds CLOCK_RESTART (2), PERST (3) and DEVICE (4) of Table
17.4.
[DESIGN CHOICE, assumption 24] [DEDUCED, assumption 163] [DEDUCED, assumption 168] [DEDUCED, assumption 169] -/
def clearReset (code first : Nat) (s : State) : State :=
  let phase := s.phase
  let s := beforeClear s
  let s := loadInterrupted s
  let s := if code = 2 ∨ levelsHiz s then s else levelsToPark true s
  let opens := openStreams s
  let link := code == 4
  let groups := code != 2
  let fns := if link then s.host.fns.map fnLinkReset else Vector.replicate 33 {}
  let t : State :=
    { now := s.now, out := s.out, pending := s.pending, free := s.free, mkLast := s.mkLast,
      od := s.od.filter (fun e => warmKey e.1 || (groups && groupKey e.1) || (link && linkKey e.1)),
      mem := if code = 2 then { segs := s.mem.segs.map (fun e => (e.1, e.2.lost)) } else {},
      host := { fns := fns, vfEnable := link && s.host.vfEnable },
      flt := s.flt.warm,
      lvl := s.lvl,
      clk := { refs := s.clk.refs, grps := if groups then s.clk.grps else Vector.replicate 3 {}, sscAt := s.clk.sscAt,
               sscFree := s.clk.sscFree, outside := s.clk.outside },
      mgmt := s.mgmt.warm s.now,
      pwr := { on := s.pwr.on, perst := s.pwr.perst, link := s.pwr.link } }
  let t := if code = 2 then opens.foldl (fun t (n : StreamId) => t.p (K.sm_STATE n) 4) t else t
  resetFrom code phase (min first phase) (dutReset s t)

/-- A FIRMWARE reset: firmware restarts, and only the secure scratchpad and the seal session go (R730, R732, R735).
[DEDUCED, assumption 173] -/
def firmwareReset (s : State) : State :=
  let phase := s.phase
  let waiting := s.pwr.waiting
  let s := resetFrom 5 phase (min 2 phase) s
  { s with pwr := { s.pwr with fwOnly := phase == 6, waiting := waiting } }

/-! ### Failing references (R520, R530) -/

/-- What can declare a reference failed; with PCIE_REFCLK not GOOD the link is down (R520). -/
def refFailed (f : State → State) (s : State) : State :=
  let t := f s
  if refGood t 1 then t else linkDown t

/-- REF_EDGE_ABSENT: the edge-absence detector of a reference trips. -/
def execRefEdgeAbsent (r : Fin 2) (s : State) : Host.Outcome State Fault Refusal := .next (refFailed (declareFailed r 0) s.fresh)

/-- PLL_LOCK_LOSS: a PLL locked to a reference loses lock. -/
def execPllLockLoss (r : Fin 2) (s : State) : Host.Outcome State Fault Refusal := .next (refFailed (declareFailed r 0) s.fresh)

/-- MONITOR_WINDOW. -/
def execMonitorWindow (dev : Int) (modulation : Nat) (s : State) : Host.Outcome State Fault Refusal :=
  .next (refFailed (monitorWindow dev modulation) s.fresh)

/-! ### The rows of the resets -/

/-- POWER_ON: VIN rises through 4.4 V; the strap NODE_ID is sampled (R505, R641, R730, R749).
[DEDUCED, assumption 172] -/
def powerOn (node : Fin 64) (s : State) : State :=
  if s.pwr.on then s
  else
    let s := unpowered s
    let s := { s with mgmt := { s.mgmt with utcAt := s.now }, pwr := { on := true } }
    let s := resetFrom 1 0 0 (loadInterrupted s)
    let s := s.p K.net_NODE_ID node.val
    if node = 0 then s.raise Src.T1S_NODE_INVALID else s

/-- POWER_ON.
[DESIGN CHOICE, assumption 161] -/
def execPowerOn (node : Fin 64) (s : State) : Host.Outcome State Fault Refusal := .next (powerOn node s.fresh)

/-- The groups whose primary reference is GOOD start in P1 (R722).
[DEDUCED, assumption 185] -/
def startPrimaries (s : State) : State :=
  allGrps.foldl (fun s g => if refGood s (primary g) then startGroup g (primary g) s else s) s

/-- CLOCK_RESTART: with both references failed, one is GOOD again; bring-up resumes with P1 (R539).
[DEDUCED, assumption 171] -/
def execClockRestart (s : State) : Host.Outcome State Fault Refusal :=
  let s := s.fresh
  .next (if s.clk.dead ∧ (refGood s 0 ∨ refGood s 1) then startPrimaries ((clearReset 2 1 (linkDown s)).p K.ck_LAST_STOP_TIME (-1)) else s)

/-- PERST: PERST_N has been low for 1 us (R730, R733).
[DEDUCED, assumption 171] -/
def execPerst (s : State) : Host.Outcome State Fault Refusal :=
  let s := s.fresh
  .next (if s.pwr.on ∧ s.pwr.perst = false then
      let s := linkDown s
      clearReset 3 2 { s with pwr := { s.pwr with perst := true } }
    else s)

/-- The timing group is gated in the hold (R733): DUT clocks low, withies and TMUs unlocked.
[DEDUCED, assumption 176] -/
def holdGate (s : State) : State :=
  let s := (List.range 8).foldl (fun (s : State) k => s.emit (.dutClk k false)) s
  let s := (List.finRange 32).foldl (fun s o => setWithy o false s) s
  let s := allTmus.foldl (fun (s : State) (u : TmuId) => s.p (K.tt_LOCKED u) 0) s
  { s with pwr := { s.pwr with hold := true } }

/-- Withies and TMUs whose gate is on lock (R253, R529).
[DESIGN CHOICE, assumption 103] -/
def lockAll (s : State) : State :=
  let s := (List.finRange 32).foldl (fun s o => if gateOn s (o.val / 4) then setWithy o true s else s) s
  allTmus.foldl (fun (s : State) (u : TmuId) =>
    if gateOn s (if u.val < 8 then 8 + u.val else 24 + u.val) then s.p (K.tt_LOCKED u) 1 else s) s

/-- PERST_DEASSERT: the hold ends and P4 starts (R733).
[DEDUCED, assumption 176] -/
def execPerstDeassert (s : State) : Host.Outcome State Fault Refusal :=
  let s := s.fresh
  let s := { s with pwr := { s.pwr with perst := false } }
  .next (if s.pwr.hold then beginPhase 4 (dutOn (lockAll { s with pwr := { s.pwr with hold := false } })) else s)

/-- DEVICE: DEV_RESET 01h (R734).
[DEDUCED, assumption 187] -/
def execDevice (s : State) : Host.Outcome State Fault Refusal :=
  s.served .mgmt (.device) fun s =>
  .next (devReset 1 s.fresh).2
/-- FIRMWARE: DEV_RESET 02h (R734).
[DEDUCED, assumption 187] -/
def execFirmware (s : State) : Host.Outcome State Fault Refusal :=
  s.served .mgmt (.firmware) fun s =>
  .next (devReset 2 s.fresh).2

/-- RESET_TAKES_EFFECT: an accepted reset, 1 ms after its answer (R731, R734). -/
def execResetTakesEffect (s : State) : Host.Outcome State Fault Refusal :=
  let s := s.fresh
  .next (match s.pwr.reset with
    | some (code, t) =>
      if t ≤ s.now then
        (if code = 2 then firmwareReset s else clearReset 4 2 s)
      else s
    | none => s)

/-! ### The supply supervisor -/

/-- VIN_PFW: VIN has stayed below PFW_THRESHOLD; an erase is suspended (R736, R737). -/
def execVinPfw (s : State) : Host.Outcome State Fault Refusal :=
  let s := s.fresh
  .next (if pfw s then s
    else
      let s := ((s.p K.pw_PFW_ACTIVE 1).sat32 K.pw_PFW_COUNT).activate Src.VIN_PFW 0 0
      { s with mgmt := { s.mgmt with erase := s.mgmt.erase.map (fun _ => true) } })

/-- PFW_CLEAR: VIN has stayed 200 mV above the threshold for 1 ms (R736). -/
def execPfwClear (s : State) : Host.Outcome State Fault Refusal := .next ((s.fresh.p K.pw_PFW_ACTIVE 0).deactivate Src.VIN_PFW)

/-- UVLO: VIN falls below 4.2 V; every domain stops and the outputs are undriven (R509, R739).
[DEDUCED, assumption 162] -/
def execUvlo (s : State) : Host.Outcome State Fault Refusal := .next ((unpowered s.fresh).emit .undriven)

/-- VIN_LOW: VIN has been below 4.5 V for 10 us, or is not any more (R740).
[DESIGN CHOICE, assumption 183] -/
def execVinLow (back : Bool) (s : State) : Host.Outcome State Fault Refusal :=
  let s := s.fresh
  .next (if back then s.deactivate Src.VIN_LOW else s.activate Src.VIN_LOW 0 0)

/-- VIN_HIGH: VIN has been above 18.5 V for 10 us, or is not any more (R740).
[DESIGN CHOICE, assumption 183] -/
def execVinHigh (back : Bool) (s : State) : Host.Outcome State Fault Refusal :=
  let s := s.fresh
  .next (if back then s.deactivate Src.VIN_HIGH else s.activate Src.VIN_HIGH 0 0)

/-! ### DIMM temperature -/

/-- DIMM_TEMP_READ: the temperatures that the fitted DIMMs' hubs report, in m°C (R760).
[DEDUCED, assumption 184] -/
def execDimmTempRead (first : Int) (rest : List Int) (s : State) : Host.Outcome State Fault Refusal :=
  let s := s.fresh
  .next (if s.g K.hm_DIMM_PRESENT = 0 then s else s.p K.ds_DIMM_TEMP_MAX (rest.foldl max first))

end Sys2Proof.Machine
end

