-- ==== Sys2Proof/Machine/BringUp.lean ====
section
/-! DEFINITION. Bring-up: the phases of Table 17.1, the boot ROM, journal replay, memory training and the quick self-test
(R671 to R673, R680 to R683, R721 to R729). -/
namespace Sys2Proof.Machine
open Sys2Proof

/-! ### P2: the boot ROM (R683, R723, R724) -/

/-- The counter mirror completes an interrupted advance of the fuses, or is rewritten from them (R683).
[DEDUCED, assumption 182] -/
def mirrorFuses (s : State) : State :=
  let f := s.n K.rk_FUSED_SVN
  if f < s.mgmt.mirror then s.p K.rk_FUSED_SVN s.mgmt.mirror
  else { s with mgmt := { s.mgmt with mirror := f } }

/-- A slot in TRIAL whose single trial boot was made and not confirmed has failed (R683).
[DEDUCED, assumption 177] -/
def staleTrials (s : State) : State :=
  [(0 : Fin 2), 1].foldl (fun s j => if slotState s j = 3 ∧ (s.slot j).booted then trialFailed j s else s) s

/-- A TRIAL slot whose single trial boot has not been made. -/
def freshTrial (s : State) : Option (Fin 2) :=
  [(0 : Fin 2), 1].find? (fun j => slotState s j == 3 && !(s.slot j).booted)

/-- The chosen slot fails the checks: a trial has failed, any other slot becomes INVALID (R683, R723).
[DEDUCED, assumption 177] -/
def slotFails (j : Fin 2) (s : State) : State := if slotState s j = 3 then trialFailed j s else setSlotState j 5 s

/-- The vendor directory: one entry for each entry address in use, in ascending address (R118). -/
def dirMap (dir : List VEntry) : KMap VEntry := dir.foldl (fun m e => kput m e.entry.val e) []

/-- The 32 bytes of a directory entry (Table 3.16). -/
def vendorBytes (e : VEntry) : List Byte :=
  toBytes 4 (e.entry.val + (if e.two then 2 else 1) * 2 ^ 16 + e.uses.toNat * 2 ^ 24) ++ toBytes 4 e.version.toNat ++
  (padTo 24 e.name).take 24

/-- A word of the image is loaded into the vendor region: words at entry addresses that the directory does not list stay
unwritten (R769).
[DESIGN CHOICE, assumption 178] -/
def vendorLoads (dir : List VEntry) (a : Nat) : Bool := decide (a < 0x2000) && (decide (0x100 ≤ a) || (kget? (dirMap dir) a).isSome)

/-- Firmware starts from a slot, with the vendor region and its directory from the image (R112, R118, R723).
[DESIGN CHOICE, assumption 178] -/
def bootSlot (j : Fin 2) (words : List (Nat × MWord)) (dir : List VEntry) (version : BitVec 32) (s : State) : State :=
  let s := s.setSlot j { s.slot j with booted := true }
  let s := { s with mgmt := { s.mgmt with running := j.val }, pwr := { s.pwr with fw := true } }
  let keep := s.mem.cs.filter (fun e => decide (0x2000 ≤ e.1))
  let s := s.setCs ((words.filter (fun e => vendorLoads dir e.1)).foldl (fun m e => kput m e.1 e.2) keep)
  let s := (s.p K.vd_VENDOR_VERSION version.toNat).p K.vd_VENDOR_CRC (crc32c (csBytes s [] 0 0x2000))
  let s := (s.p K.vd_VENDOR_ENTRIES ((dirMap dir).length : Nat)).putBlob K.vd_VENDOR_DIR ((dirMap dir).flatMap (fun e => vendorBytes e.2))
  startImage s

/-- The chosen slot is booted when its image passes; answers false when it fails. -/
def trySlot (j : Fin 2) (words : List (Nat × MWord)) (dir : List VEntry) (version : BitVec 32) (s : State) : Bool × State :=
  if imageCheck s (s.slot j).image = 0 then (true, bootSlot j words dir version s) else (false, slotFails j s)

/-- The boot ROM's steps (R723); with no slot that passes the device stays in P2 (R724).
[DEDUCED, assumption 177] [DESIGN CHOICE, assumption 178] -/
def bootRom (words : List (Nat × MWord)) (dir : List VEntry) (version : BitVec 32) (s : State) : State :=
  let s := staleTrials (mirrorFuses s)
  let j := (freshTrial s).getD (activeSlot s)
  let r := trySlot j words dir version s
  if r.1 then r.2
  else
    let o : Fin 2 := Fin.ofNat 2 (j.val + 1)
    let st := slotState r.2 o
    let r := if st = 2 ∨ st = 4 then trySlot o words dir version r.2 else (false, r.2)
    if r.1 then (setSlotState o 4 r.2).p K.fwm_ACTIVE_SLOT o.val
    else { r.2 with pwr := { r.2.pwr with noSlot := true } }

/-- BOOT_ROM: the vendor words, the directory and VENDOR_VERSION are those of the image that boots. -/
def execBootRom (words : List (Nat × MWord)) (dir : List VEntry) (version : BitVec 32) (s : State) :
    Host.Outcome State Fault Refusal :=
  s.served .mgmt (.bootRom words dir version) fun s =>
  let s := s.fresh
  .next (if s.phase = 2 ∧ s.pwr.on ∧ s.pwr.fw = false ∧ s.pwr.noSlot = false then bootRom words dir version s else s)

/-- KZ_FWLOAD: with no slot that boots, an image is written to slot A, to be checked at the next power-on reset (R724).
[DEDUCED, assumption 177] -/
def execKzFwload (img : List Byte) (s : State) : Host.Outcome State Fault Refusal :=
  let s := s.fresh
  .next (if s.phase = 2 ∧ s.pwr.noSlot then
      let s := (s.setSlot 0 { image := img }).p (K.fwm_SLOT_VERSION_A 0) (imageVersion img)
      setSlotState 0 2 (s.p (K.fwm_SLOT_SVN_A 0) (imageSvn img))
    else s)

/-! ### P3: journal replay (R671 to R673) -/

/-- What a die reads at the place of a journal record, where that is not what was programmed there: the record's JSEQ, the die, and
the bytes of its pages (R671 to R673). -/
structure JRead where
  /-- JSEQ of the record -/
  jseq : Nat
  /-- die -/
  die : Fin 2
  /-- the bytes read -/
  data : List Byte
  deriving DecidableEq, Repr

/-- What the two dies read, in one list. -/
def readsOfDies (d0 d1 : List (Nat × List Byte)) : List JRead :=
  d0.map (fun x => { jseq := x.1, die := 0, data := x.2 }) ++ d1.map (fun x => { jseq := x.1, die := 1, data := x.2 })

/-- What a die reads at the place of a record: the bytes that the command gives, or what was programmed there. A copy counts when it
is a valid record of the JSEQ (R670). -/
def copyOf (found : List JRead) (r : JRec) (d : Fin 2) : Option JRec :=
  match found.find? (fun f => f.jseq == r.jseq && f.die == d) with
  | some f => ((recordOf f.data).filter (fun x => x.jseq == r.jseq)).map (fun x => { x with on0 := r.on0, on1 := r.on1, page := r.page })
  | none => if (if d = 0 then r.on0 else r.on1) then some r else none

/-- Records of which a reset cut the programming before the store reported them: the places that the command gives beyond the last
JSEQ. -/
def cutRecords (m : Mgmt) (found : List JRead) : List JRec :=
  (found.foldl (fun (l : KMap JRec) f =>
    match recordOf f.data with
    | some x => if m.jseq ≤ f.jseq ∧ x.jseq = f.jseq then kput l f.jseq { x with on0 := false, on1 := false, page := m.pages } else l
    | none => l) []).map (·.2)

/-- Every record's place with what the two dies hold there, in JSEQ order. -/
def journalCopies (m : Mgmt) (found : List JRead) : List (JRec × Option JRec × Option JRec) :=
  (m.journal ++ cutRecords m found).map (fun r => (r, copyOf found r 0, copyOf found r 1))

/-- The records that are present: valid in at least one copy, taken from copy 0 when it is valid there (R671, R673). -/
def presentRecs (l : List (JRec × Option JRec × Option JRec)) : List JRec := l.filterMap (fun c => c.2.1.or c.2.2)

/-- Two valid copies with different contents (R673). -/
def copiesDiffer (c : JRec × Option JRec × Option JRec) : Bool :=
  match c.2.1, c.2.2 with
  | some x, some y => x != y
  | _, _ => false

/-- The dies and sectors to be rewritten: those of the copy that is not valid where the other is, and of copy 1 where the two differ
(R671, R673). -/
def rewriteMarks (l : List (JRec × Option JRec × Option JRec)) : List (Fin 2 × Nat) :=
  l.filterMap (fun c =>
    if (c.2.1.isSome && c.2.2.isNone) || copiesDiffer c then some (1, c.1.page / 256)
    else if c.2.1.isNone && c.2.2.isSome then some (0, c.1.page / 256)
    else none)

/-- The journal as the medium holds it after replay: each record with the dies that hold it. -/
def journalAfter (l : List (JRec × Option JRec × Option JRec)) : List JRec :=
  l.map (fun c => { (c.2.1.or c.2.2).getD c.1 with on0 := c.2.1.isSome, on1 := c.2.2.isSome && !copiesDiffer c })

/-- Torn pages: those of the copies that are neither erased nor part of a valid record (R672). -/
def tornPages (found : List JRead) : Nat :=
  found.foldl (fun n f =>
    let valid := match recordOf f.data with | some x => x.jseq == f.jseq | none => false
    if valid then n
    else n + ((List.range ((f.data.length + 255) / 256)).filter (fun k => ((f.data.drop (256 * k)).take 256).any (· != 0xFF))).length) 0

/-- The epoch and REPLAY_FROM of the newest CKPT_END that is present. -/
def newestEpoch (l : List JRec) : Option (Nat × Nat) :=
  l.foldl (fun b r => match r.body with | .ckptEnd _ f _ => some (r.epoch, f) | _ => b) none

/-- The present records from a JSEQ on, up to the first JSEQ that no copy holds. -/
def replayRun : Nat → List JRec → List JRec
  | _, [] => []
  | j, r :: l =>
    if r.jseq < j then replayRun j l
    else if r.jseq = j then r :: replayRun (j + 1) l
    else []

/-- The records that replay runs over: from REPLAY_FROM of the newest epoch (R671). -/
def replayed (l : List JRec) : List JRec := replayRun (((newestEpoch l).map Prod.snd).getD 0) l

/-- Restores entries over others. -/
def restoreOver (m e : KMap SVal) : KMap SVal := e.foldl (fun m x => kput m x.1 x.2) m

/-- A MARK that holds a JSEQ is among the records. -/
def markedIn (l : List JRec) (j : Nat) : Bool :=
  l.any (fun r => match r.body with | .mark k => k == j | _ => false)

/-- The values that replay restores from the records that are present (the pseudocode of R671). -/
def replayValues (l : List JRec) : KMap SVal :=
  let base := match newestEpoch l with
    | some (n, _) => l.foldl (fun m r => match r.body with
        | .ckpt x => if r.epoch = n then restoreOver m x else m
        | _ => m) []
    | none => []
  let run := replayed l
  run.foldl (fun m r => match r.body with
    | .txn x => if markedIn run r.jseq then restoreOver m x else m
    | _ => m) base

/-- A WIPE that no later WIPE_DONE follows among the records that replay runs over (R671, R688).
[DEDUCED, assumption 180] -/
def wipeOpen (l : List JRec) : Bool :=
  (replayed l).foldl (fun b r => match r.body with | .wipe => true | .wipeDone => false | _ => b) false

/-- The entry is part of a park record (R506).
[DESIGN CHOICE, assumption 165] -/
def isPark (k : Nat) : Bool := decide (0x5000 ≤ k / 256) && decide (k / 256 < 0x50C0) && decide (6 ≤ k % 256) && decide (k % 256 ≤ 8)

/-- Applies the retirements of the RETIRE entries again (R710, R711).
[DEDUCED, assumption 180] -/
def reapply (s : State) : State :=
  (List.range 32).foldl (fun s j =>
    let v := s.n (K.rt_RETIRE j)
    if v.testBit 31 then
      match runitOf (bits v 28 3) (v % 65536) with
      | some (.chan c) => (substitute c s).2
      | some u => retireEffect u s
      | none => s
    else s) s

/-- A page that ends a sector: appending resumes at the next erased sector (R672).
[DESIGN CHOICE, assumption 179] -/
def nextSector (m : Mgmt) : Mgmt := { m with pages := (m.pages + 255) / 256 * 256 }

/-- BOOTS is restored: the entries made since the reset take it (R663). -/
def bootsKnown (s : State) : State :=
  let pend := s.mgmt.logPend.map (fun (e : LogE) => { e with boot := some (e.boot.getD (s.n K.mg_BOOTS)) })
  { s with pwr := { s.pwr with replayed := true }, mgmt := { s.mgmt with logPend := pend } }

/-- What replay leaves in the journal: the records with the dies that hold them, the sectors to be rewritten, and where appending
resumes (R671 to R673). -/
def replayMedium (found : List JRead) (m : Mgmt) : Mgmt :=
  let l := journalCopies m found
  let cut := cutRecords m found
  nextSector { m with
    journal := journalAfter l, rewrite := m.rewrite ++ (rewriteMarks l).filter (fun x => !m.rewrite.contains x),
    jseq := cut.foldl (fun j r => max j (r.jseq + 1)) m.jseq, pages := m.pages + (cut.map (fun r => r.body.pages)).foldl (· + ·) 0 }

/-- The work of P3 in its order (Table 17.1): replay with what the dies read, the working key, retirements, interrupted wipes, level
DACs.
[DESIGN CHOICE, assumption 165] [DEDUCED, assumption 166] [DESIGN CHOICE, assumption 179] -/
def journalReplay (found : List JRead) (s : State) : State :=
  let l := journalCopies s.mgmt found
  let recs := presentRecs l
  let vals := replayValues recs
  let old := s
  let s := applyData vals s
  let ch := (vals.filter (changes old s)).map (·.1)
  let s := ch.foldl (fun u k => effectOf old k u) s
  let s := bootsKnown s
  let s := (l.filter copiesDiffer).foldl (fun s c =>
    (s.logSrc { kind := 9, source := Src.JOURNAL_MISMATCH, data := c.1.jseq }).raise Src.JOURNAL_MISMATCH) s
  let s := (s.p K.nr_TORN (min (tornPages found) 4294967295 : Nat)).p K.nr_REPLAY_TIME (fsOf (s.now - s.pwr.phaseAt))
  let s := { s with mgmt := replayMedium found s.mgmt }
  let s := if s.mgmt.scrapped then s.p K.lcy_LIFECYCLE 4 else s
  let s := reapply (reloadKey s)
  let s := if wipeOpen recs then
      let s := wipe s
      { s with mgmt := { s.mgmt with workKey := none } }
    else s
  let s := s.p K.kk_KEY_STATE (if s.mgmt.partKey.isSome then 2 else 0)
  let s := levelsPark (vals.any (fun e => isPark e.1)) s
  { s with pwr := { s.pwr with done := 3 :: s.pwr.done } }

/-- JOURNAL_REPLAY. -/
def execJournalReplay (d0 d1 : List (Nat × List Byte)) (s : State) : Host.Outcome State Fault Refusal :=
  s.served .mgmt (.journalReplay d0 d1) fun s =>
  let s := s.fresh
  .next (if s.phase = 3 ∧ s.pwr.done.contains 3 = false then journalReplay (readsOfDies d0 d1) s else s)

/-! ### P4: memory training (R726 to R728) -/

/-- HBM_TRAINING: every stack trains, or a stack fails and takes HBM out of service. -/
def hbmTraining (failed : Option (Fin 4)) (s : State) : State :=
  let s := (List.range 4).foldl (fun (s : State) k => if some k = failed.map Fin.val then s else s.deactivate (Src.HBM_UE k)) s
  let s := match failed with
    | some k => (s.activate (Src.HBM_UE k) 0 0)
    | none => s
  { s with mem := { s.mem with hbmUp := failed.isNone }, pwr := { s.pwr with done := 4 :: s.pwr.done } }

/-- HBM_TRAINING. -/
def execHbmTraining (failed : Option (Fin 4)) (s : State) : Host.Outcome State Fault Refusal :=
  s.served .mgmt (.hbmTraining failed) fun s =>
  let s := s.fresh
  .next (if s.phase = 4 ∧ s.pwr.done.contains 4 = false then hbmTraining failed s else s)

/-- The fitted DIMMs: DIMM d of channel c is bit 2c + d. -/
def dimmMask (caps : Vector Nat 8) : Nat := (List.finRange 8).foldl (fun m (i : Fin 8) => if caps[i] = 0 then m else m + 2 ^ i.val) 0

/-- The DIMMs of a channel. -/
def channelDimms (caps : Vector Nat 8) (c : Fin 4) : List Nat := [caps[2 * c.val], caps[2 * c.val + 1]].filter (· ≠ 0)

/-- All four channels carry the same number of RDIMMs of the same capacity (R49). -/
def dimmsFit (caps : Vector Nat 8) : Bool :=
  let a := channelDimms caps 0
  a ≠ [] && a.all (fun x => some x == a.head?) && (List.finRange 4).all (fun c => channelDimms caps c == a)

/-- DDR5_TRAINING: capacities of the DIMMs, whether the stored record serves (its CRC, DIMMs, serial numbers, speed bin and
the write and read-back pass), the channels that fail, and the record of a full training.
[DEDUCED, assumption 181] -/
def ddr5Training (caps : Vector Nat 8) (recordServes : Bool) (failed : List (Fin 4)) (record : List Byte) (s : State) : State :=
  let s := s.p K.hm_DIMM_PRESENT (dimmMask caps)
  let fit := dimmsFit caps
  let stored := fit && recordServes && s.g K.bu_FORCE_FULL_TRAIN == 0 && s.blob K.tn_TRAIN_RECORD != []
  let failed := if fit then failed else []
  let s := (List.finRange 4).foldl (fun (s : State) c =>
    if failed.contains c then s.activate (Src.DDR5_UE c) 0 0 else s.deactivate (Src.DDR5_UE c)) s
  let up := fit && failed.isEmpty
  let s := s.p K.hm_DDR5_INSTALLED (if up then caps.toList.foldl (· + ·) 0 else 0 : Nat)
  let s := (s.p K.bu_TRAIN_KIND (if up then (if stored then 0 else 1) else 2)).p K.tn_TRAIN_VALID (b2i stored)
  { s with pwr := { s.pwr with done := 5 :: s.pwr.done, train := if fit && !stored then some record else none } }

/-- DDR5_TRAINING. -/
def execDdr5Training (caps : Vector Nat 8) (recordServes : Bool) (failed : List (Fin 4)) (record : List Byte) (s : State) :
    Host.Outcome State Fault Refusal :=
  s.served .mgmt (.ddr5Training caps recordServes failed record) fun s =>
  let s := s.fresh
  .next (if s.phase = 4 ∧ s.pwr.done.contains 5 = false then ddr5Training caps recordServes failed record s else s)

/-- The end of P4: the fail regions are allocated unless HBM is out of service; a full training commits its record
as a transaction of class P, which applies once its journal record is durable (R18, R329, R727).
[DEDUCED, assumption 181] -/
def endP4 (s : State) : State :=
  let s := if s.mem.hbmUp then s else allSites.foldl (fun (s : State) (i : SiteId) => s.p (K.fc_LOG_EXTENTS i) 0) s
  match s.pwr.train with
  | some r =>
    let s := { s with pwr := { s.pwr with train := none } }
    s.publish .train 0 0 [K.tn_TRAIN_RECORD, K.bu_FORCE_FULL_TRAIN] ((s.putBlob K.tn_TRAIN_RECORD r).p K.bu_FORCE_FULL_TRAIN 0)
  | none => s

/-! ### P5: the quick self-test (R729, Table 17.3) -/

/-- The sources of Table 17.3. -/
def quickSource (x : Nat) : Bool :=
  x == 0x80A1 || (decide (0x9020 ≤ x) && decide (x ≤ 0x903F)) || (decide (0xE100 ≤ x) && decide (x ≤ 0xE10F)) ||
    (decide (0x9100 ≤ x) && decide (x ≤ 0x91FF)) || (decide (0xC000 ≤ x) && decide (x ≤ 0xC009)) ||
    (decide (0xB008 ≤ x) && decide (x ≤ 0xB00F))

/-- QUICK_SELF_TEST: the sources of the tests that fail are raised. -/
def execQuickSelfTest (failing : List (BitVec 16)) (s : State) : Host.Outcome State Fault Refusal :=
  s.served .mgmt (.quickSelfTest failing) fun s =>
  let s := s.fresh
  .next (if s.phase = 5 ∧ s.pwr.done.contains 6 = false then
      let s := ((failing.map BitVec.toNat).filter quickSource).foldl (fun s x => s.report x (srcSites s x) 0) s
      { s with pwr := { s.pwr with done := 6 :: s.pwr.done } }
    else s)

/-! ### The phases (Table 17.1) -/

/-- Every group runs. -/
def groupsRun (s : State) : Bool := allGrps.all (fun g => running s g)

/-- A phase ends: its duration is recorded (R721).
[DEDUCED, assumption 176] -/
def recordPhase (p : Nat) (s : State) : State := s.p (K.bp_PHASE_TIME p) (fsOf (s.now - s.pwr.phaseAt))

/-- Reaching P6: readiness on the link, the RESET entry, BOOTS, the confirm window, waiting notifications (R603, R683,
R730).
[DEDUCED, assumption 122] [DEDUCED, assumption 175] -/
def reachP6 (drsOn full : Bool) (s : State) : State :=
  let s := (beginPhase 6 s).p K.bu_BRINGUP_TIME (fsOf (s.now - s.pwr.startAt))
  let s := (s.cnt32 K.mg_BOOTS).persist [K.mg_BOOTS]
  let s := s.logEv { kind := 7, data := s.n K.bu_LAST_RESET + 256 * s.n K.bu_RESET_PHASE }
  let s := if slotState s (runningSlot s) = 3 then
      { s with mgmt := { s.mgmt with confirmEnd := some (s.now + s.n K.fwm_CONFIRM_WINDOW / 1250000) } }
    else s
  let s := if full ∧ drsOn ∧ s.pwr.link then s.emit (.pcieMsg "DRS" 0) else s
  nextNotif s

/-- The end of P2: P3 begins, or after a FIRMWARE reset the key is reloaded and the operations that wait are served in
arrival order (R659, R735). -/
def endP2 (s : State) : State :=
  if s.pwr.fwOnly then
    let l := s.pwr.waiting
    let s := reachP6 false false (reloadKey { s with pwr := { s.pwr with fwOnly := false, waiting := [] } })
    l.foldl (fun s a => serve a s) s
  else beginPhase 3 s

/-- PHASE_END: the phase in progress ends once its work is done; at the end of P0 TAMPER_N is sampled; at P6 the
Downstream Port may have enabled DRS.
[DEDUCED, assumption 173] [DEDUCED, assumption 185] -/
def phaseEnd (tamperLow drsOn : Bool) (s : State) : State :=
  match s.phase with
  | 0 =>
    if s.pwr.on then
      let s := startPrimaries (beginPhase 1 (recordPhase 0 s))
      if tamperLow then tamper s else s
    else s
  | 1 =>
    if groupsRun s then
      let s := allGrps.foldl (fun (s : State) (g : Fin 3) => s.deactivate (Src.CLOCK_LOST g)) (lockAll (recordPhase 1 s))
      beginPhase 2 { s with flt := { s.flt with latch := false } }
    else s
  | 2 => if s.pwr.fw then endP2 (recordPhase 2 s) else s
  | 3 =>
    if s.pwr.done.contains 3 ∧ s.pwr.hold = false then
      if s.pwr.perst then holdGate (recordPhase 3 s) else beginPhase 4 (recordPhase 3 s)
    else s
  | 4 =>
    if s.pwr.done.contains 4 ∧ s.pwr.done.contains 5 then beginPhase 5 (recordPhase 4 (endP4 s)) else s
  | 5 => if s.pwr.done.contains 6 then reachP6 drsOn true (recordPhase 5 s) else s
  | _ => s

/-- PHASE_END.
[DESIGN CHOICE, assumption 161] -/
def execPhaseEnd (tamperLow drsOn : Bool) (s : State) : Host.Outcome State Fault Refusal := .next (phaseEnd tamperLow drsOn s.fresh)

end Sys2Proof.Machine
end

