-- ==== Sys2Proof/Machine/Kdp.lean ====
section
/-! DEFINITION. The field-network port and the mailbox: frames received, retransmissions, sessions and PLCA (R639, R641
to R648). -/
namespace Sys2Proof.Machine
open Sys2Proof

/-- The fields of a received KDP frame: its header and service header (Tables 14.7, 14.8). -/
structure KdpIn where
  /-- VERSION -/
  version : Nat
  /-- TYPE -/
  typ : Nat
  /-- DST_NODE -/
  dst : Nat
  /-- SRC_NODE -/
  src : Nat
  /-- SESSION -/
  session : BitVec 16
  /-- SEQ -/
  seq : BitVec 16
  /-- LENGTH -/
  length : Nat
  /-- RETRY -/
  retry : Nat
  /-- reserved bits of the header, and of the service header when there is one -/
  rsv : Nat
  /-- service header and data -/
  body : List Byte
  deriving DecidableEq, Repr

/-- Reads the bytes after the EtherType. -/
def KdpIn.of (l : List Byte) : KdpIn :=
  let len := field l 8 2
  let body := (l.drop 12).take len
  { version := field l 0 1, typ := field l 1 1, dst := field l 2 1, src := field l 3 1,
    session := BitVec.ofNat 16 (field l 4 2), seq := BitVec.ofNat 16 (field l 6 2), length := len, retry := field l 10 1,
    rsv := field l 11 1 + (if len = 0 then 0 else field body 1 1 + field body 5 1 / 4), body := body }

/-- DATA_LEN of a service header. -/
def svcDataLen (b : List Byte) : Nat := field b 12 2

/-- The request of a service header with its data (Table 14.8). -/
def svcAsk (p : Path) (mac : BitVec 48) (seq : BitVec 16) (retry : Nat) (b : List Byte) : Ask :=
  { path := p, service := field b 0 1, seq := seq, retry := retry, mac := mac,
    args := { index := BitVec.ofNat 16 (field b 2 2), sub := BitVec.ofNat 8 (field b 4 1), apply := field b 5 1 % 4,
              txn := BitVec.ofNat 16 (field b 6 2), offset := field b 8 4, len := 1024,
              sites := BitVec.ofNat 32 (field b 16 4), data := (b.drop 24).take (svcDataLen b) } }

/-- The frame is ignored and counted (R643): misaddressed, or malformed. A frame that ends before its LENGTH is malformed.
DEDUCED: the list of R643 does not name it (assumption 140).
[DEDUCED, assumption 140] -/
def kdpBad (mac : BitVec 48) (node avail : Nat) (k : KdpIn) : Bool :=
  (mac != BitVec.allOnes 48 && mac != Config.macAddr)
  || k.version != 1 || k.rsv != 0
  || (if k.typ = 4 then k.length != 0 else k.length != 24 + svcDataLen k.body || k.length == 0)
  || (k.dst != node && k.dst != 0x7F)
  || decide (avail < 12 + k.length)

/-- The transactions of a node's earlier session that are OPEN are rolled back (R645). -/
def newSession (node : Nat) (session : BitVec 16) (s : State) : State :=
  rollbackAll (fun t => t.st == 1 && (match t.owner with
    | .t1s n a => n.val == node && a != session
    | _ => false)) s

/-- What a broadcast may carry (R644).
[DEDUCED, assumption 142] -/
def broadcastOk (a : Ask) : Bool := a.service == 1 || (a.service == 2 && a.args.txn == 0)

/-- A request of a client: a retransmission is answered with the kept response once that exists and never executed
again; any other is executed (R645).
[DEDUCED, assumption 142] -/
def kdpRequest (k : KdpIn) (src : BitVec 48) (node : Fin 64) (s : State) : State :=
  let kept := kget? s.dict.clients node.val
  let again := match kept with | some c => c.session == k.session && c.seq == k.seq | none => false
  if again then
    match kept.bind (·.resp) with
    | some body =>
      (s.sat32 K.net_KDP_RETX).emit
        (.kdp src node.val (kdpFrame 2 node.val (s.n K.net_NODE_ID) k.session.toNat k.seq.toNat k.retry body))
    | none => s
  else
    let s := newSession node.val k.session s
    let s := { s with dict := { s.dict with
      clients := kput s.dict.clients node.val { session := k.session, seq := k.seq, mac := src } } }
    let s := s.sat32 K.net_KDP_RX
    let a := svcAsk (.t1s node k.session) src k.seq k.retry k.body
    if k.dst = 0x7F ∧ broadcastOk a = false then answer a Status.OD_PATH_DENIED 0 0 [] s else arrive a s

/-- A KDP frame reaches the port. An acknowledgement ends the outstanding notification; a RESPONSE or NOTIFY has no
receiver here.
[DEDUCED, assumption 141] -/
def kdpReceive (mac src : BitVec 48) (bytes : List Byte) (s : State) : State :=
  let k := KdpIn.of bytes
  if s.g K.net_NODE_ID = 0 ∨ (s.portOn = false ∧ s.pwr.fwOnly = false) then s
  else if kdpBad mac (s.n K.net_NODE_ID) bytes.length k then s.sat32 K.net_KDP_BAD
  else if k.typ = 1 then kdpRequest k src (Fin.ofNat 64 k.src) s
  else if k.typ = 4 then acked k.seq s
  else s

/-- KDP_FRAME: a frame with the KDP EtherType, its destination and source addresses and the bytes after the EtherType. -/
def execKdpFrame (macs : FrameMacs) (bytes : List Byte) (s : State) : Host.Outcome State Fault Refusal :=
  s.served .t1s (.kdpFrame macs bytes) fun s =>
  .next (kdpReceive macs.dst macs.src bytes s.fresh)

/-- PLCA_BEACON_LOST: no beacon for 4 ms; the port transmits under CSMA/CD (R642).
[DESIGN CHOICE, assumption 143] -/
def execPlcaBeaconLost (s : State) : Host.Outcome State Fault Refusal :=
  s.served .t1s (.plcaBeaconLost) fun s =>
  .next ((s.fresh.p K.net_PLCA_STATUS 0).activate Src.PLCA_BEACON_LOST 0 0)

/-- PLCA_BEACON: a beacon returns the port to PLCA (R642).
[DESIGN CHOICE, assumption 143] -/
def execPlcaBeacon (s : State) : Host.Outcome State Fault Refusal :=
  s.served .t1s (.plcaBeacon) fun s =>
  .next ((s.fresh.p K.net_PLCA_STATUS 1).deactivate Src.PLCA_BEACON_LOST)

/-- MAILBOX_REQUEST: a service header and its data, written to the request half of the mailbox (R639).
[DESIGN CHOICE, assumption 144] -/
def execMailboxRequest (bytes : List Byte) (s : State) : Host.Outcome State Fault Refusal :=
  s.served .mgmt (.mailboxRequest bytes) fun s =>
  let s := s.fresh
  .next (arrive (svcAsk .mbox 0 0 0 bytes) { s with mgmt := { s.mgmt with mailReq := bytes } })

end Sys2Proof.Machine
end

