-- ==== Sys2Proof/Machine/Sequencer.lean ====
section
/-! DEFINITION. The sequencer: one execution of a microword (R115, R116, R125 to R167), safe points, eave points, the
stall that ends, and the safe-point watchdog. -/
namespace Sys2Proof.Machine
open Sys2Proof

/-! ### Marks (Table 3.15) -/

/-- The value of a set mark. -/
def markValue (entry ord : Nat) : Int := (2 ^ 63 + entry % 64 * 2 ^ 52 + ord % 2 ^ 48 : Nat)
/-- The read point of a mark; none while it is clear. -/
def markPoint (v : Nat) : Option (Nat × Nat) := if v.testBit 63 then some (bits v 52 6, bits v 0 48) else none

/-! ### Fetch (R113 to R116) -/

/-- The site may execute the word at an address: in its window, or in the vendor region when execution there began at an
entry point (R115, R116).
[DEDUCED, assumption 31] -/
def mayExecute (s : State) (i : SiteId) (a : Nat) : Bool :=
  (decide (s.n (K.sq_WIN_BASE i) ≤ a) && decide (a ≤ s.n (K.sq_WIN_LIMIT i))) || (decide (a < 0x2000) && (s.site i).vend)

/-- The sequencer executes in this SCLK (R127, R137, R160, R163): it runs, holds no stalled word, its frame FIFO has room,
and the result that the word can test has been latched (R139).
[DEDUCED, assumption 31] -/
def seqRuns (s : State) (i : SiteId) : Bool :=
  let x := s.site i
  let g := s.n (K.sr_FRAMES i)
  timingOn s && (s.st i == SS.armed || s.st i == SS.running || (s.st i == SS.paused && x.resuming))
    && !x.halted && !x.pausing && x.stall.isNone && decide (x.fifo.length < 21)
    && decide (s.g (K.sr_SINCE_SAFE i) < 4096)
    && (decide (g + 1 < s.horizon i) || (kget? x.results (g + 1 - s.horizon i)).isSome)

/-! ### One word -/

/-- What one execution of a word sees and is. -/
structure Exec where
  /-- its address -/
  addr : Nat
  /-- the word -/
  w : MWord
  /-- frame that it issues -/
  g : Nat
  /-- first execution of the word -/
  first : Bool
  /-- repetitions left after this one -/
  left : Nat
  /-- result of frame g - H + 1: compared, failed; none while that is negative (R140) -/
  res : Option (Bool × Bool)
  /-- sticky fail flag that the word leaves: after FAILACT CLEAR and the visible result (R141, Table 3.8) -/
  sticky : Bool
  /-- the condition holds -/
  holds : Bool
  deriving DecidableEq, Repr

/-- OP, COND and LCOP act (R126). -/
def Exec.last (e : Exec) : Bool := e.left == 0
/-- OP, when it acts and its condition holds. -/
def Exec.taken (e : Exec) (op : Nat) : Bool := e.last && e.holds && MW.op e.w == op
/-- The vector source operation of this execution (R126). -/
def Exec.vop (e : Exec) : Nat :=
  if e.first then MW.vop e.w else if MW.vop e.w = 1 then 1 else 0
/-- The loop counter or mark that the word names. -/
def Exec.lc (e : Exec) (i : SiteId) : Nat := K.lc_LC i (MW.lcsel e.w)

/-- The result visible to the word that issues frame g. -/
def visible (s : State) (i : SiteId) (g : Nat) : Option (Bool × Bool) :=
  if g + 1 < s.horizon i then none else kget? (s.site i).results (g + 1 - s.horizon i)

/-- FAILACT CLEAR clears the sticky flag; without a fail region it acts as COUNT (Table 3.8, R330).
[DESIGN CHOICE, assumption 68] -/
def clearsSticky (s : State) (i : SiteId) (w : MWord) : Bool := MW.failact w == 4 && s.g (K.fc_LOG_EXTENTS i) != 0

/-- The execution of the word at the site's next address; none while the word waits to know SRC_END (R143). Its condition reads
the sticky flag as the word before left it, with the result now visible; its own FAILACT CLEAR acts after that (R130, R141). Each
execution of a WAIT or WAITT word that executes again is a first one.
[DEDUCED, assumption 30] [DESIGN CHOICE, assumption 233] -/
def execOf (s : State) (i : SiteId) (w : MWord) : Option Exec :=
  let x := s.site i
  let g := s.n (K.sr_FRAMES i)
  let left := if x.mid then s.n (K.sr_REP_LEFT i) - 1 else MW.vrep w
  let res := visible s i g
  let old := s.b (K.sr_STICKY_FAIL i)
  let fail := match res with | some (_, f) => f | none => false
  let sticky := (old && !clearsSticky s i w) || fail
  let e : Exec := { addr := x.next, w := w, g := g, first := !x.mid, left := left, res := res, sticky := sticky, holds := false }
  if left = 0 then (condValue s i (MW.cond w) (MW.lcsel w) res (old || fail)).map (fun v => { e with holds := v != MW.cinv w })
  else some e

/-- The successor of the word (Table 3.4, R125, R129, R131, R132); a return address for RET. -/
def nextAddr (s : State) (i : SiteId) (e : Exec) : Nat :=
  let seqNext := e.addr + 1
  let lc := s.n (e.lc i)
  if !e.last then e.addr
  else match MW.op e.w with
    | 1 | 2 => if e.holds then MW.tgt e.w else seqNext
    | 3 => if e.holds then (match (s.site i).stack with | r :: _ => r.1 | [] => seqNext) else seqNext
    | 4 => if 1 < lc then MW.tgt e.w else seqNext
    | 5 => if e.holds then seqNext else e.addr
    | 6 => if e.holds then seqNext else if lc = 0 then MW.tgt e.w else e.addr
    | _ => seqNext

/-- The counter that LOOP or WAITT leaves (R131, R132). -/
def opCounter (s : State) (i : SiteId) (e : Exec) : State :=
  let v := s.g (e.lc i)
  if e.last && decide (0 < v) && (MW.op e.w == 4 || (MW.op e.w == 6 && !e.holds)) then s.p (e.lc i) (v - 1) else s

/-- LCOP (Table 3.6, R134). -/
def lcopAct (s : State) (i : SiteId) (e : Exec) : State :=
  let v := s.g (e.lc i)
  if !e.last then s
  else match MW.lcop e.w with
    | 1 => s.p (e.lc i) (MW.immd e.w)
    | 2 => s.p (e.lc i) (if v = 0 then 0 else v - 1)
    | 3 => s.p (e.lc i) (min (v + 1) 0xFFFFFFFF)
    | 4 => s.p (e.lc i) (seenObj s i (K.pa_PARAM i (MW.immd e.w % 64)) (Config.freeInt (s.free + 1) % 2 == 1))
    | _ => s

/-- Why the word parks its site, 0 when it does not: STACK_FAULT (R136), CS_PROTECT of a vector source operation (R147).
[DESIGN CHOICE, assumption 26] [DESIGN CHOICE, assumption 32] -/
def wordPark (s : State) (i : SiteId) (e : Exec) : Nat :=
  let x := s.site i
  let noEntry := (Store.source s.od i (MW.immd e.w % 64)).isNone
  if (e.taken 2 && decide (16 ≤ x.stack.length)) || (e.taken 3 && x.stack.isEmpty) then Src.STACK_FAULT i
  else if (e.vop = 4 ∧ markPoint (s.n (K.lc_MARK i (MW.lcsel e.w))) = none) ∨ ((e.vop = 5 ∨ e.vop = 6) ∧ noEntry = true) then
    Src.CS_PROTECT i
  else 0

/-- The word's OP branch is taken: JMP, CALL, RET, LOOP back to TGT, WAITT to TGT.
[DEDUCED, assumption 29] -/
def branchTaken (s : State) (i : SiteId) (e : Exec) : Bool :=
  e.taken 1 || e.taken 2 || e.taken 3
    || (e.last && MW.op e.w == 4 && decide (1 < s.n (e.lc i)))
    || (e.last && MW.op e.w == 6 && !e.holds && s.n (e.lc i) == 0)

/-- Where the word's records are, and the read point that its VOP leaves (Table 3.7).
[DEDUCED, assumption 21] [DESIGN CHOICE, assumption 27] [DEDUCED, assumption 28] -/
def vopAct (s : State) (i : SiteId) (e : Exec) : (Nat × Nat) × (Nat × Nat) :=
  let x := s.site i
  let n := s.n (K.sq_VEC_PER_FRAME i)
  let here := (x.entry, x.ord)
  let after := (x.entry, x.ord + n)
  let mark := markPoint (s.n (K.lc_MARK i (MW.lcsel e.w)))
  let imm := MW.immd e.w % 64
  match e.vop with
  | 1 => (here, here)
  | 3 => (here, if branchTaken s i e then
                  mark.getD ((Config.freeInt (s.free + 2) % 64).toNat, (Config.freeInt (s.free + 3) % 2 ^ 48).toNat) else after)
  | 4 => let m := mark.getD here
         (m, (m.1, m.2 + n))
  | 5 => ((imm, 0), (imm, n))
  | 6 => (here, if e.taken 2 then (imm, 0) else after)
  | 7 => (here, if e.taken 3 then (match x.stack with | (_, some p) :: _ => p | _ => after) else after)
  | _ => (here, after)

/-- The call stack that the word leaves (R135, R136, R146). -/
def stackAct (s : State) (i : SiteId) (e : Exec) : List (Nat × Option (Nat × Nat)) :=
  let x := s.site i
  if e.taken 2 then
    (e.addr + 1, if e.vop = 6 then some (x.entry, x.ord + s.n (K.sq_VEC_PER_FRAME i)) else none) :: x.stack
  else if e.taken 3 then x.stack.drop 1
  else x.stack

/-- The mark that VOP MARK sets, which becomes the newest loop head (Table 3.7, R90).
[DESIGN CHOICE, assumption 27] -/
def markAct (s : State) (i : SiteId) (e : Exec) : State :=
  let x := s.site i
  if e.vop = 2 then
    markHead i x.entry (s.yealmIdx i x.entry x.ord) (s.p (K.lc_MARK i (MW.lcsel e.w)) (markValue x.entry x.ord))
  else s

/-- EVTCLR on the first execution: a copy set in this SCLK stays set (R126, R142). -/
def evtclrAct (s : State) (i : SiteId) (e : Exec) : State :=
  if e.first then
    let x := s.site i
    let old := s.n (K.st_EVT_LATCHED i)
    let stays (n : Nat) : Bool := match kget? x.evtAt n with | some (t, _) => t == s.now | none => false
    let v := (List.range 16).foldl (fun a n =>
      if old.testBit n && (!(MW.evtclr e.w).testBit n || stays n) then a + 2 ^ n else a) 0
    s.p (K.st_EVT_LATCHED i) (v : Nat)
  else s

/-- SEQ_RESOURCE: the command is ignored, the source is raised and LAST_SEQ_FAULT shows it (R151, R170).
[DEDUCED, assumption 38] [DEDUCED, assumption 39] -/
def seqResource (i : SiteId) (s : State) : State :=
  (s.raiseSite (Src.SEQ_RESOURCE i) i).p (K.sr_LAST_SEQ_FAULT i) (Src.SEQ_RESOURCE i : Nat)

/-- One command for a unit, registered one SCLK later, or ignored with SEQ_RESOURCE (R151, R152).
[DEDUCED, assumption 38] -/
def unitAct (i : SiteId) (tmu mine : Bool) (code unit imm g : Nat) (s : State) : State :=
  if code = 0 then s
  else if mine then { s with unitCmds := s.unitCmds ++ [{ site := i, tmu := tmu, code := code, unit := unit, imm := imm, frame := g }] }
  else seqResource i s

/-- MKR, WFE and TMUC on the first execution (R126, R151, R152). -/
def sideAct (s : State) (i : SiteId) (e : Exec) : State :=
  if e.first then
    let mkr := MW.mkr e.w
    let wfe := MW.wfe e.w
    let tm := MW.tmuc e.w
    let s := if mkr / 64 ≠ 0 ∧ ownsMarker s i (mkr % 16) = false then seqResource i s else s
    let eng : EngId := Fin.ofNat 8 (bits wfe 2 3)
    let s := unitAct i false (s.engSite eng == some i) (bits wfe 5 3) eng.val (MW.immd e.w) e.g s
    unitAct i true (slotTmu s i (bits tm 1 2)).isSome (bits tm 3 3) (bits tm 1 2) (MW.immd e.w) e.g s
  else s

/-- The counts of an execution: EXECUTIONS, PC, the safe-point count (R162; its largest value includes the safe point).
[DESIGN CHOICE, assumption 32] [DEDUCED, assumption 33] -/
def countExec (s : State) (i : SiteId) (e : Exec) : State :=
  let n := s.g (K.sr_SINCE_SAFE i) + 1
  let s := (s.cnt64 (K.sr_EXECUTIONS i)).p (K.sr_PC i) e.addr
  let s := s.p (K.sr_MAX_SINCE_SAFE i) (max (s.g (K.sr_MAX_SINCE_SAFE i)) n)
  let s := s.p (K.sr_SINCE_SAFE i) (if MW.safe e.w then 0 else n)
  if MW.safe e.w then s.p (K.sr_LAST_SAFE_PC i) e.addr else s

/-- The registers of the sequencer that the word leaves: counters, stack, marks, read point, successor. -/
def seqState (s : State) (i : SiteId) (e : Exec) : State :=
  let pts := vopAct s i e
  let st := stackAct s i e
  let next := nextAddr s i e
  let vend := if e.addr < 0x2000 then true else e.taken 2 && decide (MW.tgt e.w < 0x100)
  let keep := fun (r : Nat × Bool × Bool) => decide (e.g + 1 < r.1 + s.horizon i)
  let s := evtclrAct (markAct s i e) i e
  let s := (lcopAct (opCounter s i e) i e)
  let s := { s with free := s.free + 4 }
  let s := (s.p (K.sr_STICKY_FAIL i) (b2i e.sticky)).p (K.sr_REP_LEFT i) e.left
  let s := s.cnt64 (K.sr_FRAMES i)
  s.modSite i (fun x => { x with
    next := next, mid := !e.last, stack := st, entry := pts.2.1, ord := pts.2.2, vend := vend, results := x.results.filter keep })

/-! ### The ends of a run and the interrupts (R155 to R157, R195, R198, R201) -/

/-- A last frame and its cause are set; the sequencer executes no further word. -/
def endAt (i : SiteId) (g cause : Nat) (s : State) : State :=
  s.modSite i (fun x => { x with halted := true, pausing := false, stopAt := some (mergeStop x.stopAt (g, cause)) })

/-- What the word itself ends: HALT, OP PAUSE, and the first-fail stop that falls due (R195, R201).
[DEDUCED, assumption 36] -/
def wordEnds (i : SiteId) (e : Exec) (s : State) : State :=
  let s := if e.taken 7 then endAt i e.g 1 s else s
  let s := if e.taken 8 then
      (if s.b (K.cf_PAUSABLE i) then s.modSite i (fun x => { x with pausing := !x.halted })
       else endAt i e.g 1 (s.raiseSite (Src.PAUSE_REFUSED i) i)) else s
  match (s.site i).ffStop with
  | some g0 => if g0 + s.horizon i ≤ e.g + 1 then endAt i e.g 4 s else s
  | none => s

/-- A HOSTEVT whose frame is discarded before its assembly is posted with a free cycle number.
[DESIGN CHOICE, assumption 35] -/
def postCut (i : SiteId) (s : State) : State :=
  match (s.site i).stall.bind Stall.post with
  | some d => (s.event i 1 (s.drawn % 2 ^ 48).toNat d).advance
  | none => s

/-- ABORT at a safe point in SCLK k: a stalled word's frame is discarded, no further word executes, and frames may be taken up
to SCLK k + 1 (Table 3.11).
[DEDUCED, assumption 34] -/
def abortNow (i : SiteId) (s : State) : State :=
  let s := postCut i s
  let n := if (s.site i).stall.isSome then 1 else 0
  s.modSite i (fun x => { x with stall := none, halted := true, pausing := false, cutAt := some (s.now + 1, n) })

/-- At the end of that SCLK the frames not taken are discarded, the channels go to slath state, and the run ends with the last
frame taken (Table 3.11, R241). -/
def abortCut (i : SiteId) (s : State) : State :=
  let x := s.site i
  match x.cutAt with
  | none => s
  | some (at_, n) =>
    if s.now < at_ then s
    else
      let gone := n + (x.fifo.filter (fun f => !f.pad)).length
      let s := s.setSite i { x with fifo := [], cutAt := none }
      slathCut i 6 slathGap (endAt i (s.n (K.sr_FRAMES i) - 1 - gone) 3 s)

/-- The same for every site. -/
def abortCuts (s : State) : State := allSites.foldl (fun s i => abortCut i s) s

/-- The pending interrupt that a safe point takes, in the order ABORT, STOP, PAUSE, SWAP (R157).
[DEDUCED, assumption 34] [DESIGN CHOICE, assumption 37] -/
def interrupts (i : SiteId) (e : Exec) (s : State) : State :=
  let m := s.n (K.sr_PENDING_INT i)
  if MW.safe e.w = false then s
  else if m.testBit 0 then
    abortNow i ((s.p (K.sr_PENDING_INT i) 0).modSite i (fun x => { x with swap := none, swapTaken := false, eaveAt := none }))
  else if m.testBit 1 then
    endAt i e.g 2 ((s.p (K.sr_PENDING_INT i) 0).modSite i (fun x => { x with swap := none, swapTaken := false, eaveAt := none }))
  else if m.testBit 2 then
    (s.p (K.sr_PENDING_INT i) (m - 4 : Nat)).modSite i (fun x => { x with pausing := !x.halted })
  else if m.testBit 3 then
    (s.p (K.sr_PENDING_INT i) (m - 8 : Nat)).modSite i (fun x => { x with swapTaken := true })
  else s

/-! ### Eave points (R157, R164 to R167) -/

/-- The word is an eave point at its first execution. -/
def eaveWord (w : MWord) (first : Bool) : Bool := MW.apply w && first

/-- The eave point after frame g: pending transactions apply; waiting changeovers and a taken SWAP are carried out once the
formatters have taken that frame (R296).
[DESIGN CHOICE, assumption 37] -/
def eavePoint (i : SiteId) (g : Nat) (s : State) : State :=
  let s := eaveApply i (s.modSite i (fun x => { x with eaveLast := some s.now }))
  let s := s.modSite i (fun x => { x with eaves := x.eaves ++ [(g, s.now, sitePending s i)] })
  s.modSite i (fun x => if x.swapTaken then { x with eaveAt := some g, swapTaken := false } else x)

/-- The frame of an executed word is assembled when its vectors are there, and waits as a stall otherwise (R154).
[DEDUCED, assumption 36] -/
def issue (i : SiteId) (st : Stall) (s : State) : State :=
  if dataReady s i st then assemble i st s else s.modSite i (fun x => { x with stall := some st })

/-- The eave point of a word whose frame has been assembled: that frame carries the old values. -/
def eaveOf (i : SiteId) (st : Stall) (s : State) : State :=
  if eaveWord st.word st.first ∧ (s.site i).stall = none then eavePoint i st.num s else s

/-- The stall record of an execution. -/
def stallOf (e : Exec) (at_ : Nat × Nat) : Stall :=
  { word := e.w, num := e.g, first := e.first, entry := at_.1, ord := at_.2,
    post := if e.taken 9 then some (MW.immd e.w % 65536) else none }

/-- The stream whose loop window a word leaves: its read moves the read point back to a yealm below RETAIN (R87). -/
def windowLeft (s : State) (i : SiteId) (e : Exec) : Option StreamId :=
  let (ent, ord) := (vopAct s i e).1
  match Store.source s.od i ent with
  | some (true, n) =>
    let k : StreamId := Fin.ofNat 64 n
    let back := match (s.site i).lastVec.addr with
                | some (strm, m, o) => decide ((strm, m) ≠ (true, n)) || decide (ord ≤ o)
                | none => false
    match locateRing (s.strm k) ord with
    | some (idx, _) =>
      if MW.vop e.w ≠ 1 ∧ back = true ∧ idx < s.retain k ∧ idx < s.n (K.sm_RD_PTR k) then some k else none
    | none => none
  | _ => none

/-- One execution of a word whose fields may act.
[DESIGN CHOICE, assumption 26] -/
def wordActs (i : SiteId) (e : Exec) (s : State) : State :=
  let src := wordPark s i e
  if src ≠ 0 then parkRaise i src 0 (countExec s i e)
  else
    let st := stallOf e (vopAct s i e).1
    let left := windowLeft s i e
    let s := seqState (sideAct (countExec s i e) i e) i e
    match left with
    | some k => parkRaise i (Src.LOOP_WINDOW_OVERFLOW k) 0 (strmError k s)
    | none => eaveOf i st (interrupts i e (wordEnds i e (issue i st s)))

/-- A corrected or uncorrectable fetch (R114): the correction is counted, the uncorrectable word parks the site. A correction
does not enter LAST_SEQ_FAULT (R171).
[DESIGN CHOICE, assumption 204] -/
def fetchEcc (i : SiteId) (c : Ecc) (s : State) : State :=
  match c with
  | .ok => s
  | .single => (s.cnt64 K.cs_CS_CE_COUNT).raise Src.CS_CE
  | .double => parkRaise i Src.CS_UE 0 (s.cnt64 K.cs_CS_UE_COUNT)

/-- One execution of the site's next word, which carries the OP code opc.
[DEDUCED, assumption 28] -/
def seqRow (i : SiteId) (opc : Nat) (c : Ecc) (s : State) : State :=
  if seqRuns s i = false then s
  else
    let a := (s.site i).next
    match kget? s.mem.cs a with
    | none => parkRaise i (Src.CS_PROTECT i) 0 s
    | some w =>
      if mayExecute s i a = false then parkRaise i (Src.CS_PROTECT i) 0 s
      else if c = .double then fetchEcc i c s
      else if MW.op w ≠ opc then s
      else match execOf s i w with
        | none => s
        | some e => wordActs i e (fetchEcc i c s)

/-- CONT. -/
def execCont (i : SiteId) (c : Ecc) (s : State) : Host.Outcome State Fault Refusal := .next (seqRow i 0 c s.fresh)
/-- JMP. -/
def execJmp (i : SiteId) (c : Ecc) (s : State) : Host.Outcome State Fault Refusal := .next (seqRow i 1 c s.fresh)
/-- CALL. -/
def execCall (i : SiteId) (c : Ecc) (s : State) : Host.Outcome State Fault Refusal := .next (seqRow i 2 c s.fresh)
/-- RET. -/
def execRet (i : SiteId) (c : Ecc) (s : State) : Host.Outcome State Fault Refusal := .next (seqRow i 3 c s.fresh)
/-- LOOP. -/
def execLoop (i : SiteId) (c : Ecc) (s : State) : Host.Outcome State Fault Refusal := .next (seqRow i 4 c s.fresh)
/-- WAIT. -/
def execWait (i : SiteId) (c : Ecc) (s : State) : Host.Outcome State Fault Refusal := .next (seqRow i 5 c s.fresh)
/-- WAITT. -/
def execWaitt (i : SiteId) (c : Ecc) (s : State) : Host.Outcome State Fault Refusal := .next (seqRow i 6 c s.fresh)
/-- HALT. -/
def execHalt (i : SiteId) (c : Ecc) (s : State) : Host.Outcome State Fault Refusal := .next (seqRow i 7 c s.fresh)
/-- OP PAUSE. -/
def execOpPause (i : SiteId) (c : Ecc) (s : State) : Host.Outcome State Fault Refusal := .next (seqRow i 8 c s.fresh)
/-- HOSTEVT. -/
def execHostevt (i : SiteId) (c : Ecc) (s : State) : Host.Outcome State Fault Refusal := .next (seqRow i 9 c s.fresh)

/-- ABORT_FORCED: an ABORT that has waited longer than ABORT_WAIT becomes a park (R159). -/
def execAbortForced (i : SiteId) (s : State) : Host.Outcome State Fault Refusal :=
  .next (s.fresh.timed (fun s =>
    if s.st i = SS.running ∧ (s.n (K.sr_PENDING_INT i)).testBit 0 ∧
              s.n (K.sq_ABORT_WAIT i) < (s.now - (s.site i).abortAt) * 1250000 then
        parkRaise i (Src.ABORT_FORCED i) 0 s
      else s))

/-- SAFE_POINT_STARVATION: 4,096 executions without a safe point (R163). -/
def execSafePointStarvation (i : SiteId) (s : State) : Host.Outcome State Fault Refusal :=
  .next (s.fresh.timed (fun s =>
    if 4096 ≤ s.n (K.sr_SINCE_SAFE i) then parkRaise i (Src.SAFE_POINT_STARVATION i) 0 s else s))

/-- STALL_END: the vectors of the stalled word have arrived (R102, R154). -/
def stallEnd (i : SiteId) (s : State) : State :=
  match (s.site i).stall with
  | some st => if s.active i && dataReady s i st then eaveOf i st (issue i st s) else s
  | none => s

/-- STALL_END. -/
def execStallEnd (i : SiteId) (s : State) : Host.Outcome State Fault Refusal :=
  .next (s.fresh.timed (stallEnd i))

end Sys2Proof.Machine
end

