-- ==== Sys2Proof/Machine/Ridge.lean ====
section
/-! DEFINITION. The ridge pulse: its registration, the ridge set and the effects that come with it (R192, R193, R206,
R553, R556, R557, R629). -/
namespace Sys2Proof.Machine
open Sys2Proof

/-- In REPEAT mode RIDGE_OUT follows an edge at RIDGE_IN, without a clock (R553). -/
def ridgeFollow (s : State) : State := if s.g K.rd_RIDGE_MODE = 2 then s.emit .ridgeOut else s

/-- The mean phase of arrivals within the SCLK grid that the last ridge calibration found, in fs; none before any (R559). -/
def ridgeMean (s : State) : Option Int :=
  if s.g K.rd_RIDGE_CAL_TIME = 0 then none else some ((s.g K.rd_RIDGE_PHASE + s.g K.rd_RIDGE_PATH) % 1250000)

/-- The edge that arrives at a phase of the present SCLK has drifted by more than t_rdg_track since the calibration (R556, Table 12.7).
[DEDUCED, assumption 237] -/
def ridgeDrifted (s : State) (ph : Nat) : Bool :=
  match ridgeMean s with
  | some m => let d := ((ph : Int) - m) % 1250000
              decide (500000 < min d (1250000 - d))
  | none => false

/-- A rising edge reaches RIDGE_IN: RIDGE_OUT may follow it; one that has drifted raises RIDGE_PHASE_DRIFT (R553, R556). -/
def ridgeEdge (ph : Nat) (s : State) : State :=
  let s := ridgeFollow s
  if ridgeDrifted s ph then s.raise Src.RIDGE_PHASE_DRIFT else s

/-- A, the SCLK whose start lies within 625 ps of r - RIDGE_EPS for an edge that arrives at a phase of the present SCLK; with a drifted
edge it may lie one SCLK to either side, as draw says (R555, R556). -/
def ridgeSclk (s : State) (ph : Nat) (draw : Int) : Int :=
  let a : Int := (s.now : Int) * 1250000 + ph - s.g K.rd_RIDGE_PATH - s.g K.rd_RIDGE_EPS
  (a + 625000) / 1250000 + (if ridgeDrifted s ph then draw % 3 - 1 else 0)

/-- The edge lies less than 80 SCLK after the last registered one, or before its registration (R557). -/
def ridgeClose (s : State) : Bool := s.clk.ridgeDue.isSome || (match s.clk.ridgeAt with | some t => decide (s.now < t + 80) | none => false)

/-- The ridge set: the sites that are ARMED with START_MODE RIDGE (R192). -/
def ridgeSet (s : State) : List SiteId :=
  allSites.filter (fun (i : SiteId) => s.st i == SS.armed && s.g (K.cf_START_MODE i) == 1 && (s.site i).startAt.isNone)

/-- A site of the set enters RUNNING in the SCLK after the registration (R192, R556).
[DESIGN CHOICE, assumption 53] -/
def ridgeStart (i : SiteId) (s : State) : State := s.modSite i (fun x => { x with startAt := some (s.now + 1) })

/-- A site that a ridge pulse has started enters RUNNING in its SCLK (R192).
[DESIGN CHOICE, assumption 53] -/
def ridgeRun (i : SiteId) (s : State) : State :=
  match (s.site i).startAt with
  | some t => if s.st i = SS.armed ∧ t ≤ s.now then runSite i s else s
  | none => s

/-- The same for every site. -/
def ridgeRuns (s : State) : State := allSites.foldl (fun s i => ridgeRun i s) s

/-- The evaluation of the ridge set (R192, R193). -/
def ridgeEval (s : State) : State :=
  let set := ridgeSet s
  if s.b K.sg_RIDGE_ARM = false ∨ set.isEmpty then s
  else if set.all (fun (i : SiteId) => s.b (K.st_READY i)) then
    set.foldl (fun s i => ridgeStart i s) ((s.p K.sg_RIDGE_ARM 0).cnt32 K.sg_RIDGE_STARTS)
  else s.cnt32 K.sg_RIDGE_SKIPPED

/-- A pulse is registered: RIDGE transactions apply, then RIDGE events qualify and the ridge set is evaluated. -/
def ridgeRegister (s : State) : State :=
  let s := s.cnt64 K.rd_RIDGE_COUNT
  let s := { s with clk := { s.clk with ridgeAt := some s.now } }
  ridgeEval (ridgeEvents (ridgeApply s))

/-- The pulse that has arrived is registered in its SCLK, A + 3 (R556). -/
def ridgeDue (s : State) : State :=
  match s.clk.ridgeDue with
  | some t => if t ≤ s.now then ridgeRegister { s with clk := { s.clk with ridgeDue := none } } else s
  | none => s

/-- The edge takes effect: in SCLK A + 3, and at once where that has passed.
[DESIGN CHOICE, assumption 238] -/
def ridgeArrives (ph : Nat) (s : State) : State :=
  let t := max s.now (ridgeSclk s ph s.drawn + 3).toNat
  let s := ridgeEdge ph s
  ridgeDue { s.advance with clk := { s.clk with ridgeDue := some t } }

/-- RIDGE_PULSE: a rising edge, at a phase of the present SCLK in fs, at least 80 SCLK after the last registered one. While the timing
group is stopped nothing registers.
[Safe: the operand can have every value., assumption 54]
[DESIGN CHOICE, assumption 54] -/
def execRidgePulse (ph : Fin 1250000) (s : State) : Host.Outcome State Fault Refusal :=
  let s := s.fresh
  .next (if timingOn s = false then ridgeFollow s else if ridgeClose s then s else ridgeArrives ph s)

/-- RIDGE_IGNORED: a rising edge within 80 SCLK of a registered one is not registered (R557).
[Safe: the operand can have every value., assumption 54]
[DESIGN CHOICE, assumption 54] -/
def execRidgeIgnored (ph : Fin 1250000) (s : State) : Host.Outcome State Fault Refusal :=
  let s := s.fresh
  .next (if timingOn s ∧ ridgeClose s then (ridgeEdge ph s).sat32 K.rd_RIDGE_IGNORED else s)

end Sys2Proof.Machine
end

