-- ==== Sys2Proof/Machine/Dispatch.lean ====
section
/-! DEFINITION. The dispatch of a command to its meaning: one arm per row of the opcode table. -/
namespace Sys2Proof.Machine
open Sys2Proof

def exec (i : Instr) (s : State) : Host.Outcome State Fault Refusal :=
  match i with
  | .segAlloc t kind home len => Sys2Proof.Machine.execSegAlloc t kind home len s
  | .segWrite t n first count data => Sys2Proof.Machine.execSegWrite t n first count data s
  | .segSeal t n => Sys2Proof.Machine.execSegSeal t n s
  | .segUnseal t n => Sys2Proof.Machine.execSegUnseal t n s
  | .segRead t n first count => Sys2Proof.Machine.execSegRead t n first count s
  | .segMigrate t n home => Sys2Proof.Machine.execSegMigrate t n home s
  | .segMigrateDone n => Sys2Proof.Machine.execSegMigrateDone n s
  | .segFree t n => Sys2Proof.Machine.execSegFree t n s
  | .segQuery t n => Sys2Proof.Machine.execSegQuery t n s
  | .streamOpen t n q octets beats => Sys2Proof.Machine.execStreamOpen t n q octets beats s
  | .streamReset t n => Sys2Proof.Machine.execStreamReset t n s
  | .streamClose t n => Sys2Proof.Machine.execStreamClose t n s
  | .streamFeed t data => Sys2Proof.Machine.execStreamFeed t data s
  | .streamFeedResume n => Sys2Proof.Machine.execStreamFeedResume n s
  | .resultBuf t len => Sys2Proof.Machine.execResultBuf t len s
  | .resultBufTimeout q => Sys2Proof.Machine.execResultBufTimeout q s
  | .csWrite t addr words => Sys2Proof.Machine.execCsWrite t addr words s
  | .csRead t addr count errs => Sys2Proof.Machine.execCsRead t addr count errs s
  | .csVerify t addr count errs => Sys2Proof.Machine.execCsVerify t addr count errs s
  | .csDomainWrite p l => Sys2Proof.Machine.execCsDomainWrite p l s
  | .load t mask => Sys2Proof.Machine.execLoad t mask s
  | .unload t mask => Sys2Proof.Machine.execUnload t mask s
  | .arm t mask => Sys2Proof.Machine.execArm t mask s
  | .start t mask => Sys2Proof.Machine.execStart t mask s
  | .startWhenReady mask => Sys2Proof.Machine.execStartWhenReady mask s
  | .pause t mask => Sys2Proof.Machine.execPause t mask s
  | .resume t mask => Sys2Proof.Machine.execResume t mask s
  | .stop t mask => Sys2Proof.Machine.execStop t mask s
  | .abort t mask => Sys2Proof.Machine.execAbort t mask s
  | .reset t mask => Sys2Proof.Machine.execReset t mask s
  | .ready j => Sys2Proof.Machine.execReady j s
  | .siteStopped j => Sys2Proof.Machine.execSiteStopped j s
  | .sitePaused j => Sys2Proof.Machine.execSitePaused j s
  | .resumeRunning j => Sys2Proof.Machine.execResumeRunning j s
  | .failRead t j first count run => Sys2Proof.Machine.execFailRead t j first count run s
  | .captureRead t j offset len run => Sys2Proof.Machine.execCaptureRead t j offset len run s
  | .tmuArm t u => Sys2Proof.Machine.execTmuArm t u s
  | .tmuDisarm t u => Sys2Proof.Machine.execTmuDisarm t u s
  | .read r => Sys2Proof.Machine.execRead r s
  | .write r => Sys2Proof.Machine.execWrite r s
  | .begin r => Sys2Proof.Machine.execBegin r s
  | .commit r => Sys2Proof.Machine.execCommit r s
  | .rollback r => Sys2Proof.Machine.execRollback r s
  | .journalRecordDurable w ok => Sys2Proof.Machine.execJournalRecordDurable w ok s
  | .applyPoint w => Sys2Proof.Machine.execApplyPoint w s
  | .commitMarkDurable w => Sys2Proof.Machine.execCommitMarkDurable w s
  | .txnTimeout k => Sys2Proof.Machine.execTxnTimeout k s
  | .domainWriteTimeout key => Sys2Proof.Machine.execDomainWriteTimeout key s
  | .domainSnapshotExpiry key => Sys2Proof.Machine.execDomainSnapshotExpiry key s
  | .kdpFrame macs bytes => Sys2Proof.Machine.execKdpFrame macs bytes s
  | .ack seq => Sys2Proof.Machine.execAck seq s
  | .notifyRepeat => Sys2Proof.Machine.execNotifyRepeat s
  | .plcaBeaconLost => Sys2Proof.Machine.execPlcaBeaconLost s
  | .plcaBeacon => Sys2Proof.Machine.execPlcaBeacon s
  | .mailboxRequest bytes => Sys2Proof.Machine.execMailboxRequest bytes s
  | .create f => Sys2Proof.Machine.execCreate f s
  | .delete f => Sys2Proof.Machine.execDelete f s
  | .queueAbsent q => Sys2Proof.Machine.execQueueAbsent q s
  | .qRead f => Sys2Proof.Machine.execQRead f s
  | .sqTailDoorbell f q v => Sys2Proof.Machine.execSqTailDoorbell f q v s
  | .cqHeadDoorbell f q v => Sys2Proof.Machine.execCqHeadDoorbell f q v s
  | .sqFetch q e l => Sys2Proof.Machine.execSqFetch q e l s
  | .completionPost t => Sys2Proof.Machine.execCompletionPost t s
  | .interruptCoalesceTimer q => Sys2Proof.Machine.execInterruptCoalesceTimer q s
  | .eventPost j => Sys2Proof.Machine.execEventPost j s
  | .qDmaError t cut => Sys2Proof.Machine.execQDmaError t cut s
  | .bar64HalfRead f r len => Sys2Proof.Machine.execBar64HalfRead f r len s
  | .bar64HalfWrite f r high v => Sys2Proof.Machine.execBar64HalfWrite f r high v s
  | .registerWrite f w d => Sys2Proof.Machine.execRegisterWrite f w d s
  | .pcieLinkDown => Sys2Proof.Machine.execPcieLinkDown s
  | .pcieLinkDegraded speed width => Sys2Proof.Machine.execPcieLinkDegraded speed width s
  | .flr f frsOn => Sys2Proof.Machine.execFlr f frsOn s
  | .vfEnableChange enable n frsOn => Sys2Proof.Machine.execVfEnableChange enable n frsOn s
  | .d3hotToD0 f frsOn => Sys2Proof.Machine.execD3hotToD0 f frsOn s
  | .cont j c => Sys2Proof.Machine.execCont j c s
  | .jmp j c => Sys2Proof.Machine.execJmp j c s
  | .call j c => Sys2Proof.Machine.execCall j c s
  | .ret j c => Sys2Proof.Machine.execRet j c s
  | .loop j c => Sys2Proof.Machine.execLoop j c s
  | .wait j c => Sys2Proof.Machine.execWait j c s
  | .waitt j c => Sys2Proof.Machine.execWaitt j c s
  | .halt j c => Sys2Proof.Machine.execHalt j c s
  | .opPause j c => Sys2Proof.Machine.execOpPause j c s
  | .hostevt j c => Sys2Proof.Machine.execHostevt j c s
  | .abortForced j => Sys2Proof.Machine.execAbortForced j s
  | .safePointStarvation j => Sys2Proof.Machine.execSafePointStarvation j s
  | .frameTake j => Sys2Proof.Machine.execFrameTake j s
  | .yealmFetch j e idx beyond c => Sys2Proof.Machine.execYealmFetch j e idx beyond c s
  | .underRun j => Sys2Proof.Machine.execUnderRun j s
  | .padFrame j => Sys2Proof.Machine.execPadFrame j s
  | .stallEnd j => Sys2Proof.Machine.execStallEnd j s
  | .moverRefill j e n c => Sys2Proof.Machine.execMoverRefill j e n c s
  | .patrolRead stack f sweepEnd => Sys2Proof.Machine.execPatrolRead stack f sweepEnd s
  | .sitePark j src => Sys2Proof.Machine.execSitePark j src s
  | .compareResultLatch j samples => Sys2Proof.Machine.execCompareResultLatch j samples s
  | .failLogEnqueue j => Sys2Proof.Machine.execFailLogEnqueue j s
  | .failLogWrite => Sys2Proof.Machine.execFailLogWrite s
  | .spillExtent j => Sys2Proof.Machine.execSpillExtent j s
  | .captureRecord j queue => Sys2Proof.Machine.execCaptureRecord j queue s
  | .evtQualify n gap => Sys2Proof.Machine.execEvtQualify n gap s
  | .glitch n gap width => Sys2Proof.Machine.execGlitch n gap width s
  | .evtOverrun n gap => Sys2Proof.Machine.execEvtOverrun n gap s
  | .evtHost mask => Sys2Proof.Machine.execEvtHost mask s
  | .evtLatch n => Sys2Proof.Machine.execEvtLatch n s
  | .evtStuck n => Sys2Proof.Machine.execEvtStuck n s
  | .evtRelease n => Sys2Proof.Machine.execEvtRelease n s
  | .ridgePulse ph => Sys2Proof.Machine.execRidgePulse ph s
  | .ridgeIgnored ph => Sys2Proof.Machine.execRidgeIgnored ph s
  | .ridgeFireStart => Sys2Proof.Machine.execRidgeFireStart s
  | .ridgeFireStop => Sys2Proof.Machine.execRidgeFireStop s
  | .ridgeGenerate => Sys2Proof.Machine.execRidgeGenerate s
  | .ridgeCal => Sys2Proof.Machine.execRidgeCal s
  | .ridgeCalDone edges phi sdev late => Sys2Proof.Machine.execRidgeCalDone edges phi sdev late s
  | .wfeStart j => Sys2Proof.Machine.execWfeStart j s
  | .wfeStop j => Sys2Proof.Machine.execWfeStop j s
  | .wfeJump j => Sys2Proof.Machine.execWfeJump j s
  | .wfeTrigger j => Sys2Proof.Machine.execWfeTrigger j s
  | .wfeFlist j => Sys2Proof.Machine.execWfeFlist j s
  | .granuleBoundary e => Sys2Proof.Machine.execGranuleBoundary e s
  | .wfSampleLate e => Sys2Proof.Machine.execWfSampleLate e s
  | .wfRecoveryEnd e => Sys2Proof.Machine.execWfRecoveryEnd e s
  | .wfSampleUe e stack => Sys2Proof.Machine.execWfSampleUe e stack s
  | .tmucArm j => Sys2Proof.Machine.execTmucArm j s
  | .tmucStart j => Sys2Proof.Machine.execTmucStart j s
  | .tmucStop j => Sys2Proof.Machine.execTmucStop j s
  | .tmucDisarm j => Sys2Proof.Machine.execTmucDisarm j s
  | .tmuEdgeCapture u elem coarse fine rise at_ => Sys2Proof.Machine.execTmuEdgeCapture u elem coarse fine rise at_ s
  | .tmuStopTimeout u k => Sys2Proof.Machine.execTmuStopTimeout u k s
  | .frequencyGateEnd u => Sys2Proof.Machine.execFrequencyGateEnd u s
  | .tmuSampleComplete u => Sys2Proof.Machine.execTmuSampleComplete u s
  | .tmuUnlock u => Sys2Proof.Machine.execTmuUnlock u s
  | .tmuCalRelease u => Sys2Proof.Machine.execTmuCalRelease u s
  | .withyUnlock o => Sys2Proof.Machine.execWithyUnlock o s
  | .withyRelock w => Sys2Proof.Machine.execWithyRelock w s
  | .peLos c => Sys2Proof.Machine.execPeLos c s
  | .losClear c => Sys2Proof.Machine.execLosClear c s
  | .native parts banks fm vm => Sys2Proof.Machine.execNative parts banks fm vm s
  | .nativeBankComplete b r => Sys2Proof.Machine.execNativeBankComplete b r s
  | .nativeAbort => Sys2Proof.Machine.execNativeAbort s
  | .liveNow c => Sys2Proof.Machine.execLiveNow c s
  | .calTick refs dacs => Sys2Proof.Machine.execCalTick refs dacs s
  | .calBlockEnd b x fm vm => Sys2Proof.Machine.execCalBlockEnd b x fm vm s
  | .calrefRecovered => Sys2Proof.Machine.execCalrefRecovered s
  | .directCalAbandon b => Sys2Proof.Machine.execDirectCalAbandon b s
  | .shadowJoin b => Sys2Proof.Machine.execShadowJoin b s
  | .alignMeasure b m => Sys2Proof.Machine.execAlignMeasure b m s
  | .swapRequest b => Sys2Proof.Machine.execSwapRequest b s
  | .sparSwitch j => Sys2Proof.Machine.execSparSwitch j s
  | .measurePublish b d => Sys2Proof.Machine.execMeasurePublish b d s
  | .returnStep b dd de => Sys2Proof.Machine.execReturnStep b dd de s
  | .swapBackComplete b p => Sys2Proof.Machine.execSwapBackComplete b p s
  | .swapWaitExpiry b => Sys2Proof.Machine.execSwapWaitExpiry b s
  | .sparReclaim p => Sys2Proof.Machine.execSparReclaim p s
  | .legacyPassEnd b => Sys2Proof.Machine.execLegacyPassEnd b s
  | .sealToken t => Sys2Proof.Machine.execSealToken t s
  | .sealClose v => Sys2Proof.Machine.execSealClose v s
  | .sealDurationExpiry => Sys2Proof.Machine.execSealDurationExpiry s
  | .lvlLoad v => Sys2Proof.Machine.execLvlLoad v s
  | .loadStrobe b => Sys2Proof.Machine.execLoadStrobe b s
  | .deglitchRelease b => Sys2Proof.Machine.execDeglitchRelease b s
  | .rerangeEnd d => Sys2Proof.Machine.execRerangeEnd d s
  | .lvlCompliance d openLoad => Sys2Proof.Machine.execLvlCompliance d openLoad s
  | .lvlOverload d => Sys2Proof.Machine.execLvlOverload d s
  | .lvlRefFault b outside => Sys2Proof.Machine.execLvlRefFault b outside s
  | .refEdgeAbsent r => Sys2Proof.Machine.execRefEdgeAbsent r s
  | .pllLockLoss r => Sys2Proof.Machine.execPllLockLoss r s
  | .monitorWindow dev modulation => Sys2Proof.Machine.execMonitorWindow dev modulation s
  | .sscDetectedClear => Sys2Proof.Machine.execSscDetectedClear s
  | .refGood r => Sys2Proof.Machine.execRefGood r s
  | .groupRestart g => Sys2Proof.Machine.execGroupRestart g s
  | .clockRestart => Sys2Proof.Machine.execClockRestart s
  | .switch g r => Sys2Proof.Machine.execSwitch g r s
  | .plannedSwitchDone g => Sys2Proof.Machine.execPlannedSwitchDone g s
  | .autoRevert g => Sys2Proof.Machine.execAutoRevert g s
  | .dutclkChange k => Sys2Proof.Machine.execDutclkChange k s
  | .dutclkRestart k => Sys2Proof.Machine.execDutclkRestart k s
  | .faultRaise n ext => Sys2Proof.Machine.execFaultRaise n ext s
  | .railDisagree src back => Sys2Proof.Machine.execRailDisagree src back s
  | .selftestVerdict src pass units => Sys2Proof.Machine.execSelftestVerdict src pass units s
  | .selftestDeferred src => Sys2Proof.Machine.execSelftestDeferred src s
  | .deferredTestFail src units => Sys2Proof.Machine.execDeferredTestFail src units s
  | .retirementDurable => Sys2Proof.Machine.execRetirementDurable s
  | .handlingEnd => Sys2Proof.Machine.execHandlingEnd s
  | .faultClear p num => Sys2Proof.Machine.execFaultClear p num s
  | .test u => Sys2Proof.Machine.execTest u s
  | .unretire u => Sys2Proof.Machine.execUnretire u s
  | .lockstepMismatch => Sys2Proof.Machine.execLockstepMismatch s
  | .spadCollision pa pb machine enA enB a b => Sys2Proof.Machine.execSpadCollision pa pb machine enA enB a b s
  | .scratchpadSelftestChunk k accessed fails => Sys2Proof.Machine.execScratchpadSelftestChunk k accessed fails s
  | .faultCheckConversion x v => Sys2Proof.Machine.execFaultCheckConversion x v s
  | .telemetryConversion x v => Sys2Proof.Machine.execTelemetryConversion x v s
  | .evlogEntry => Sys2Proof.Machine.execEvlogEntry s
  | .evlogProgram n => Sys2Proof.Machine.execEvlogProgram n s
  | .norProgramDone e => Sys2Proof.Machine.execNorProgramDone e s
  | .compaction why => Sys2Proof.Machine.execCompaction why s
  | .norScrub f => Sys2Proof.Machine.execNorScrub f s
  | .eraseSuspend resume => Sys2Proof.Machine.execEraseSuspend resume s
  | .journalBudget => Sys2Proof.Machine.execJournalBudget s
  | .fwImage p offset data => Sys2Proof.Machine.execFwImage p offset data s
  | .activate => Sys2Proof.Machine.execActivate s
  | .confirm => Sys2Proof.Machine.execConfirm s
  | .cancel => Sys2Proof.Machine.execCancel s
  | .erase => Sys2Proof.Machine.execErase s
  | .confirmWindowExpiry => Sys2Proof.Machine.execConfirmWindowExpiry s
  | .lcToken t => Sys2Proof.Machine.execLcToken t s
  | .sealKey k => Sys2Proof.Machine.execSealKey k s
  | .keyWindowExpiry => Sys2Proof.Machine.execKeyWindowExpiry s
  | .tamper => Sys2Proof.Machine.execTamper s
  | .powerOn node => Sys2Proof.Machine.execPowerOn node s
  | .phaseEnd tamperLow drsOn => Sys2Proof.Machine.execPhaseEnd tamperLow drsOn s
  | .p1FallbackStart g => Sys2Proof.Machine.execP1FallbackStart g s
  | .bootRom words dir version => Sys2Proof.Machine.execBootRom words dir version s
  | .kzFwload img => Sys2Proof.Machine.execKzFwload img s
  | .journalReplay d0 d1 => Sys2Proof.Machine.execJournalReplay d0 d1 s
  | .hbmTraining failed => Sys2Proof.Machine.execHbmTraining failed s
  | .ddr5Training caps recordServes failed record => Sys2Proof.Machine.execDdr5Training caps recordServes failed record s
  | .quickSelfTest failing => Sys2Proof.Machine.execQuickSelfTest failing s
  | .perst => Sys2Proof.Machine.execPerst s
  | .perstDeassert => Sys2Proof.Machine.execPerstDeassert s
  | .device => Sys2Proof.Machine.execDevice s
  | .firmware => Sys2Proof.Machine.execFirmware s
  | .resetTakesEffect => Sys2Proof.Machine.execResetTakesEffect s
  | .vinPfw => Sys2Proof.Machine.execVinPfw s
  | .pfwClear => Sys2Proof.Machine.execPfwClear s
  | .uvlo => Sys2Proof.Machine.execUvlo s
  | .vinLow back => Sys2Proof.Machine.execVinLow back s
  | .vinHigh back => Sys2Proof.Machine.execVinHigh back s
  | .pcieLinkUp speed width => Sys2Proof.Machine.execPcieLinkUp speed width s
  | .tamperRelease => Sys2Proof.Machine.execTamperRelease s
  | .refQualifying r => Sys2Proof.Machine.execRefQualifying r s
  | .lvlDetectClear d which => Sys2Proof.Machine.execLvlDetectClear d which s
  | .dimmTempRead first rest => Sys2Proof.Machine.execDimmTempRead first rest s

end Sys2Proof.Machine
end

