-- ==== Sys2Proof/Machine/Tick.lean ====
section
/-! DEFINITION. One SCLK of the timing group: what happens at the passing of time whatever is commanded. -/
namespace Sys2Proof.Machine
open Sys2Proof

/-- A spar returns the balls of a site that is no longer active once its last frame has left them (R462). -/
def ballsLeft (s : State) : State :=
  allSites.foldl (fun s i => if !s.active i && (s.site i).left then calSiteEnded i s else s) s

/-- What falls due by the end of the present SCLK: the words of the waveform engines (R353), the frames that an ABORT discards
(Table 3.11), the edges, strobes and lane levels at the balls (R239); the marker states that the next SCLK sees (Table
3.5), engine tests and the boundaries of engines at rest (R391, R396).
[DEDUCED, assumption 40] -/
def endSclk (s : State) : State :=
  let s := ballsLeft (fireAll (abortCuts (handOvers s)))
  restSnaps (testTimes { s with mkLast := markerBits s })

/-- What begins with a new SCLK: a ridge pulse is registered (R556), sites that it has started enter RUNNING (R192), changes of serving
engine reach the balls (R457), the edges of frames whose waveform words have now come are placed (R289), and the marker changes that
are due take place (R216). -/
def beginSclk (s : State) : State := dueMarks (driveAll (xbarDues (ridgeRuns (ridgeDue s))))

/-- Commands and requests that waited for a domain come again (R543).
[DESIGN CHOICE, assumption 11] -/
def recallRows (s : State) : State := recallAsks { s with pending := s.pending ++ s.delayed, delayed := [] }

/-- The host interface in one SCLK, while its domain runs: reads of host memory are answered, queue entries requested, and reads and
writes issued (R598, R599). -/
def linkSclk (s : State) : State :=
  if domRuns s .pcie then pumpWrites (pumpReads (issueFetches 128 (answerReads s))) else s

/-- One SCLK passes in which no command comes: time goes on, with it what the timing group clocks while that group runs, calibration
included (R426); planned switches stop the domains once the PLL is locked, and commands that waited for a domain come again (R543). -/
def State.tick (s : State) : State :=
  let s := (linkSclk s.fresh).timed (fun s => endSclk (calHolds s))
  recallRows (switchStops (({ s with now := s.now + 1 }).timed beginSclk))

end Sys2Proof.Machine
end

