-- ==== Sys2Proof/Safety.lean ====
section
/-! DEFINITION. What counts as a safe run, in the terms that statements use: the canonical form of the object store, and
runs of steps. -/
namespace Sys2Proof
open Sys2Proof.Machine

/-- Every sparse memory that software can reach is in its canonical form, so that equal contents are equal data: the
numeric and the STR and DOMAIN objects (no default, no empty value listed), the control store, the segment table, the
queues, the states of the fault sources. -/
def Canonical (s : State) : Prop :=
  Store.wf s.od = true ∧ Blobs.wf s.blobs = true ∧ ksorted s.mem.cs = true ∧ ksorted s.mem.segs = true ∧
  ksorted s.host.queues = true ∧ ksorted s.flt.srcs = true

/-- The state after a run of n steps, if no step stops. -/
def runFor : Nat → State → Option State
  | 0, s => some s
  | n + 1, s => match step s with | .next t => runFor n t | _ => none

/-- A run never stops with a fault or a refusal. -/
def Unstopped (s : State) : Prop := ∀ n, (runFor n s).isSome = true

/-- A command comes to its domain, which runs, and, where a submission queue delivers it, its unit may take it now (R595). -/
def comes (s : State) (o : Option Tag) (d : Dom) (c : Instr) : Bool := domRuns s d && o.all (fun t => s.turn t c)

/-- A queue command has ended: its completion, and no other, waits to be posted. -/
def Completed (s t : State) (tag : Tag) (status result : Nat) : Prop :=
  t.host.compl = s.host.compl ++ [⟨tag, status, result⟩]

/-- Every segment other than one is as before. -/
def OtherSegs (n : Nat) (s t : State) : Prop := ∀ m, m ≠ n → t.seg? m = s.seg? m

/-- Every numeric object outside a list is as before. -/
def OtherObjects (ks : List Nat) (s t : State) : Prop := ∀ k, k ∉ ks → t.g k = s.g k


/-- Every word of the control store other than one is as before. -/
def OtherWords (a : Nat) (s t : State) : Prop := ∀ b, b ≠ a → kget? t.mem.cs b = kget? s.mem.cs b

/-- A site's sequencer executes a word in this SCLK that parks no site and is no eave point, and finds the counts below their
ends. -/
abbrev Executes (i : SiteId) (w : MWord) (e : Exec) (s : State) : Prop :=
  seqRuns s i = true ∧ kget? s.mem.cs (s.site i).next = some w ∧ mayExecute s i (s.site i).next = true ∧ execOf s i w = some e ∧
  wordPark s i e = 0 ∧ windowLeft s i e = none ∧ MW.apply w = false ∧
  s.g (K.sr_EXECUTIONS i) < 18446744073709551615 ∧ s.g (K.sr_FRAMES i) < 18446744073709551615

/-- Neither a safe point nor a first-fail stop ends the run at the word. -/
abbrev GoesOn (i : SiteId) (w : MWord) (s : State) : Prop := MW.safe w = false ∧ (s.site i).ffStop = none

/-- The rows that execute words, with their OP codes (Table 3.3). -/
def opRows : List (Nat × (SiteId → Ecc → Instr)) :=
  [(0, .cont), (1, .jmp), (2, .call), (3, .ret), (4, .loop), (5, .wait), (6, .waitt), (7, .halt), (8, .opPause), (9, .hostevt)]

/-- What every executed word leaves: its address in PC, one more execution and one more frame, its repetitions left, and a
next address. -/
abbrev Executed (i : SiteId) (e : Exec) (next : Nat) (s t : State) : Prop :=
  t.g (K.sr_PC i) = e.addr ∧ t.g (K.sr_EXECUTIONS i) = s.g (K.sr_EXECUTIONS i) + 1 ∧ t.g (K.sr_FRAMES i) = s.g (K.sr_FRAMES i) + 1 ∧
  t.g (K.sr_REP_LEFT i) = e.left ∧ (t.site i).next = next

/-- Every site's record other than one is as before. -/
def OtherSites (i : SiteId) (s t : State) : Prop := ∀ j, j ≠ i → t.site j = s.site j

/-- Every queue other than one is as before. -/
def OtherQueues (q : Nat) (s t : State) : Prop := ∀ r, r ≠ q → t.queue? r = s.queue? r

/-- The formatters may take a frame of a site: its timing sets are valid, and it is a pad frame or its runs give no pattern error. -/
abbrev Takes (i : SiteId) (f : Frame) (s : State) : Prop :=
  tsetsValid f i = true ∧ (f.pad = true ∨
    (frameRuns (waveUnknown f.od) (chanAhead s i) i { f with cycle := (s.site i).cycle, start := (s.site i).vstart }).all (fun r => r.2.cause == 0) = true)

/-- The state in which a started site takes its frame 0, no other START waiting. -/
def startState (i : SiteId) (s : State) : State :=
  ((State.p { s.fresh with mem := { s.mem with starts := [] } } (K.st_READY i) 0).setSt i SS.running).modSite i
    (fun x => { x with origin := s.now, vstart := 0, startAt := none })

/-- The mailbox is served. -/
abbrev MboxOn (s : State) : Prop := domRuns s .mgmt = true ∧ s.pwr.fwOnly = false ∧ 4 ≤ s.n K.bu_PHASE

/-- The object that the operands of a service name. -/
def argKey (a : DictArgs) : Nat := Objects.ob a.index.toNat a.sub.toNat

/-- The object that a service header names. -/
def askKey (b : List Byte) : Nat := Objects.ob (field b 2 2) (field b 4 1)

/-- The state in which a new KDP request is executed: it is counted, and its session, SEQ and address are kept. -/
def heard (k : KdpIn) (src : BitVec 48) (s : State) : State :=
  { s.fresh with dict := { s.dict with clients := kput s.dict.clients (k.src % 64) ⟨k.session, k.seq, src, none⟩ } }.sat32 K.net_KDP_RX

/-- The frame of a response to a KDP request. -/
def kdpAnswer (k : KdpIn) (src : BitVec 48) (body : List Byte) (s : State) : Output :=
  .kdp src (k.src % 64) (kdpFrame 2 (k.src % 64) (s.n K.net_NODE_ID) k.session.toNat k.seq.toNat k.retry body)

/-- The answer on the mailbox stands first among the outputs. -/
abbrev MboxAnswer (t : State) (status result total : Nat) (data : List Byte) : Prop :=
  t.out.head? = some (.answer .mbox status result total data)

/-- A transaction record as a COMMIT with an apply point judges it. -/
def judged (k : Fin 8) (kind : Nat) (m : SiteMask) (s : State) : State :=
  s.fresh.setTxn k { s.txn k with named := s.now, kind := kind, sites := m, first := 0, detail := 0 }

/-- The state in which a write of a volatile object outside a transaction applies. -/
def written (a : Ask) (staged : KMap SVal) (s : State) : State :=
  let r : Txn := { st := 2, owner := a.path, staged := staged, order := s.dict.tick, ask := some a }
  { s.fresh with dict := { s.dict with tick := s.dict.tick + 1, outs := s.dict.outs ++ [r] } }

/-- Every transaction record other than one is as before. -/
def OtherTxns (k : Fin 8) (s t : State) : Prop := ∀ j, j ≠ k → t.txn j = s.txn j

/-- The operands of a write of a site PARAM outside a transaction. -/
def paramArgs (i : SiteId) (j : Fin 64) (d : BitVec 32) : DictArgs :=
  { index := BitVec.ofNat 16 (0x2270 + i.val), sub := BitVec.ofNat 8 (j.val + 1), data := toBytes 4 d.toNat }

/-- How many yealms of an entry are stored from a number on: none from the first that fails its check, and none behind LAST. -/
def feedStored (n : StreamId) (fmt : Nat × Nat) : Nat → List (List Byte) → Nat
  | _, [] => 0
  | w, y :: r =>
    if yealmCheck y true n (some fmt) w ≠ Status.OK then 0 else if Yealm.last y then 1 else 1 + feedStored n fmt (w + 1) r

/-- The status with which the entry completes: OK when all are stored, STREAM_ENDED behind LAST, else the check failed. -/
def feedStatus (n : StreamId) (fmt : Nat × Nat) (w : Nat) (ys : List (List Byte)) : Nat :=
  let k := feedStored n fmt w ys
  if k = ys.length then Status.OK
  else if 0 < k ∧ Yealm.last (ys.getD (k - 1) []) = true then Status.STREAM_ENDED
  else yealmCheck (ys.getD k []) true n (some fmt) (w + k)

/-- The first k yealms of an entry are stored at WR_PTR, which advances by k, and LAST has ended the stream. -/
abbrev Fed (n : StreamId) (ys : List (List Byte)) (k : Nat) (s t : State) : Prop :=
  t.g (K.sm_WR_PTR n) = (s.n (K.sm_WR_PTR n) + k : Nat) ∧
  (∀ j, j < k → kget? (t.strm n).ring (s.n (K.sm_WR_PTR n) + j) = some (ys.getD j [])) ∧
  t.g (K.sm_STATE n) = if 0 < k ∧ Yealm.last (ys.getD (k - 1) []) = true then 3 else s.g (K.sm_STATE n)

/-- The first k of some words are stored from an address on, and no other word changes. -/
def CsStored (addr : Nat) (words : List MWord) (k : Nat) (s t : State) : Prop :=
  (∀ j, j < k → kget? t.mem.cs (addr + j) = some (words.getD j 0)) ∧
  ∀ a, (a < addr ∨ addr + k ≤ a) → kget? t.mem.cs a = kget? s.mem.cs a

/-- How a site command is answered: the queue command's completion, or, for a write of SITE_CMD, CMD_COUNT. -/
def SiteAnswered (s t : State) (o : Option Tag) (status : Nat) : Prop :=
  match o with
  | some g => Completed s t g status 0 ∧ t.g K.sc_CMD_COUNT = s.g K.sc_CMD_COUNT
  | none => t.host.compl = s.host.compl ∧ t.n K.sc_CMD_COUNT = min (s.n K.sc_CMD_COUNT + 1) 4294967295

/-- A site command begins: its queue command is taken, or CMD_COUNT counts the write of SITE_CMD. -/
def siteBegun (o : Option Tag) (s : State) : State :=
  match o with
  | some g => (s.take g).fresh
  | none => s.fresh.cnt32 K.sc_CMD_COUNT

/-- It ends with a status. -/
def siteDone (o : Option Tag) (r : Nat × State) : State :=
  match o with
  | some g => r.2.complete g r.1 0
  | none => r.2

/-- Every PENDING transaction was committed before the next will be, and its apply point has not come. -/
abbrev NoneDue (s : State) : Prop :=
  (allTxns.map s.txn ++ s.dict.outs).all (fun t => !t.due s || (decide (t.order < s.dict.tick) && !pointReached s t)) = true

/-- No other PENDING transaction has the commit order of a record's, or an earlier one with an apply point that has come. -/
abbrev OnlyDue (k : Fin 8) (s : State) : Prop :=
  ((allTxns.filter (fun j => j != k)).map s.txn ++ s.dict.outs).all (fun t =>
    !t.due s || (t.order != (s.txn k).order && (decide ((s.txn k).order < t.order) || !pointReached s t))) = true

/-- How a TMU command of the host is answered: the queue command's completion, or TMU_CMD_STATUS for a write of TMU_CMD. -/
def TmuAnswered (s t : State) (o : Option Tag) (status : Nat) : Prop :=
  (∀ g, o = some g → Completed s t g status 0) ∧ (o = none → t.g K.tk_TMU_CMD_STATUS = status ∧ t.host.compl = s.host.compl)

/-- Every TMU's record other than one is as before. -/
def OtherTmus (u : TmuId) (s t : State) : Prop := ∀ v, v ≠ u → t.tmu v = s.tmu v

/-- Every engine's record other than one is as before. -/
def OtherEngs (e : EngId) (s t : State) : Prop := ∀ f, f ≠ e → t.eng f = s.eng f

/-- The first waiting WFE command of a site with a CMD code is for an engine, and that engine is assigned to the site. -/
abbrev WfeWaits (i : SiteId) (code : Nat) (c : UnitCmd) (e : EngId) (s : State) : Prop :=
  s.unitCmds.find? (fun d => !d.tmu && d.site == i && d.code == code) = some c ∧ Fin.ofNat 8 c.unit = e ∧ s.engSite e = some i

/-- Every bank's calibration record other than one is as before. -/
def OtherBanks (b : BankId) (s t : State) : Prop := ∀ c, c ≠ b → t.calBank c = s.calBank c

/-- A bank calibrates one channel and measures nothing else, and no user arming waits for its block. -/
abbrev Calibrates (b : BankId) (w : Swap) (s : State) : Prop :=
  (s.calBank b).cur = some w ∧ (s.calBank b).unit = none ∧ (s.calBank b).legacy = none ∧ (s.calBank b).firm = false

/-- What a change of who holds a bank's TMU may write. -/
def holdKeys (b : BankId) : List Nat := [K.tt_CAL_HOLD (bankTmu b), K.tt_CAL_WAIT_MAX (bankTmu b), K.tt_STATE (bankTmu b)]

/-- A trim after a residual in RETURN: above ALIGN_TOL it moves by at most 2,500 fs (R459). -/
def newTrim (s : State) (key : Nat) (r : Option Int) : Int :=
  match r with
  | some v => if s.g K.cl_ALIGN_TOL < iabs v then s.g key - clampTo 2500 v else s.g key
  | none => s.g key

/-- A fault source is active. -/
abbrev Active (s : State) (src : Nat) : Prop := (kgetD s.flt.srcs src {}).active = true
/-- A fault source is not active. -/
abbrev Quiet (s : State) (src : Nat) : Prop := (kgetD s.flt.srcs src {}).active = false
/-- A fault source's dual-rail pair is whole. -/
abbrev Whole (s : State) (src : Nat) : Prop := (kgetD s.flt.srcs src {}).broken = false

/-- Every function's record other than one is as before. -/
def OtherFns (f : FnId) (s t : State) : Prop := ∀ g, g ≠ f → t.fnr g = s.fnr g

/-- A transaction of the device itself: a job with an apply point and a site mask, which waits for its journal record where it
holds P or S objects, names only the listed objects, and gives some of them the listed numbers. -/
def OwnTxn (x : Txn) (job : CalJob) (kind : Nat) (sites : SiteMask) (keys : List Nat) (vals : List (Nat × Int)) : Prop :=
  x.job = some job ∧ x.kind = kind ∧ x.sites = sites ∧ x.ask = none ∧
    (x.st = if x.journalled then 1 else 2) ∧ (x.wait = if x.journalled then .record else .nothing) ∧
    (∀ e ∈ vals, kget? x.staged e.1 = some (.num e.2)) ∧ ∀ k, (kget? x.staged k).isSome = true → k ∈ keys

/-- The controller has one more transaction in progress, or, while its objects are not open or the budget is spent, one more that
waits. -/
def Publishes (job : CalJob) (kind : Nat) (sites : SiteMask) (keys : List Nat) (vals : List (Nat × Int)) (s t : State) : Prop :=
  ∃ x : Txn, OwnTxn x job kind sites keys vals ∧
    if mayPublish s keys then t.dict.outs = s.dict.outs ++ [x] ∧ t.cal.held = s.cal.held
    else t.dict.outs = s.dict.outs ∧ t.cal.held = s.cal.held ++ [x]

/-- The device has one more transaction of its own in progress. -/
def PublishesNow (job : CalJob) (kind : Nat) (sites : SiteMask) (keys : List Nat) (vals : List (Nat × Int)) (s t : State) : Prop :=
  ∃ x : Txn, OwnTxn x job kind sites keys vals ∧ t.dict.outs = s.dict.outs ++ [x]

/-- No other PENDING transaction has the commit order of the n-th of the device's own, or an earlier one with an apply point that has
come. -/
abbrev OnlyOut (n : Nat) (x : Txn) (s : State) : Prop :=
  (allTxns.map s.txn ++ s.dict.outs.eraseIdx n).all (fun t =>
    !t.due s || (t.order != x.order && (decide (x.order < t.order) || !pointReached s t))) = true

/-- The rows of what the timing group clocks: nothing of them happens while that group is stopped (R31, R538). -/
def clocked : Instr → Bool
  | .segMigrateDone .. | .streamFeedResume .. | .startWhenReady .. | .ready .. | .siteStopped .. | .sitePaused ..
  | .resumeRunning .. | .cont .. | .jmp .. | .call .. | .ret .. | .loop .. | .wait .. | .waitt .. | .halt .. | .opPause ..
  | .hostevt .. | .abortForced .. | .safePointStarvation .. | .sitePark .. | .frameTake .. | .yealmFetch .. | .underRun ..
  | .padFrame .. | .stallEnd .. | .moverRefill .. | .patrolRead .. | .compareResultLatch .. | .peLos .. | .losClear ..
  | .failLogEnqueue .. | .failLogWrite | .spillExtent .. | .captureRecord .. | .evtQualify .. | .glitch .. | .evtOverrun ..
  | .evtHost .. | .evtLatch .. | .evtStuck .. | .evtRelease .. | .ridgeIgnored .. | .ridgeGenerate | .ridgeCalDone ..
  | .wfeStart .. | .wfeStop .. | .wfeJump .. | .wfeTrigger .. | .wfeFlist .. | .granuleBoundary .. | .wfSampleLate ..
  | .wfRecoveryEnd .. | .wfSampleUe .. | .tmucArm .. | .tmucStart .. | .tmucStop .. | .tmucDisarm .. | .tmuEdgeCapture ..
  | .tmuStopTimeout .. | .frequencyGateEnd .. | .tmuSampleComplete .. | .tmuUnlock .. | .tmuCalRelease .. | .withyUnlock ..
  | .withyRelock .. | .nativeBankComplete .. | .calrefRecovered | .calTick .. | .calBlockEnd .. | .directCalAbandon ..
  | .shadowJoin .. | .alignMeasure .. | .swapRequest .. | .sparSwitch .. | .measurePublish .. | .returnStep ..
  | .swapBackComplete .. | .swapWaitExpiry .. | .sparReclaim .. | .legacyPassEnd .. | .loadStrobe .. | .deglitchRelease .. => true
  | _ => false

/-- The domain that serves a command which comes to one from outside it (Table 12.2). -/
def domOf : Instr → Option Dom
  | .segAlloc .. | .segWrite .. | .segSeal .. | .segUnseal .. | .segRead .. | .segMigrate .. | .segFree .. | .segQuery ..
  | .streamOpen .. | .streamReset .. | .streamClose .. | .streamFeed .. | .csWrite .. | .csRead .. | .csVerify ..
  | .csDomainWrite .. | .load .. | .unload .. | .arm .. | .start .. | .pause .. | .resume .. | .stop .. | .abort .. | .reset ..
  | .failRead .. | .captureRead .. | .tmuArm .. | .tmuDisarm .. | .native .. | .nativeAbort | .liveNow .. | .lvlLoad .. =>
    some .timing
  | .create .. | .delete .. | .queueAbsent .. | .qRead .. | .sqTailDoorbell .. | .cqHeadDoorbell .. | .sqFetch ..
  | .completionPost .. | .interruptCoalesceTimer .. | .eventPost .. | .qDmaError .. | .bar64HalfRead .. | .bar64HalfWrite ..
  | .registerWrite .. | .vfEnableChange .. | .flr .. | .d3hotToD0 .. | .resultBuf .. | .resultBufTimeout .. => some .pcie
  | .kdpFrame .. | .plcaBeaconLost | .plcaBeacon | .ack .. | .notifyRepeat => some .t1s
  | .retirementDurable | .faultRaise .. | .railDisagree .. | .selftestVerdict .. | .selftestDeferred .. | .deferredTestFail ..
  | .handlingEnd | .faultClear .. | .test .. | .unretire .. => some .coll
  | .journalRecordDurable .. | .applyPoint .. | .commitMarkDurable .. | .bootRom .. | .journalReplay .. | .hbmTraining ..
  | .ddr5Training .. | .quickSelfTest .. | .switch .. | .ridgeFireStart | .ridgeFireStop | .ridgeCal | .evlogEntry
  | .evlogProgram .. | .mailboxRequest .. | .lockstepMismatch | .spadCollision .. | .scratchpadSelftestChunk ..
  | .faultCheckConversion .. | .telemetryConversion .. | .norProgramDone .. | .eraseSuspend .. | .journalBudget | .compaction ..
  | .norScrub .. | .activate | .confirm | .cancel | .erase | .confirmWindowExpiry | .lcToken .. | .sealKey ..
  | .keyWindowExpiry | .device | .firmware | .sealClose .. | .sealDurationExpiry | .txnTimeout .. | .domainWriteTimeout ..
  | .domainSnapshotExpiry .. => some .mgmt
  | .read r | .write r | .begin r | .commit r | .rollback r => some (reqDom r)
  | .fwImage p _ _ => some (pathDom p)
  | .sealToken t => some (pathDom t.path)
  | _ => none

/-- The rows of management that read or program the NOR flash: they wait for its domain as well. -/
def norRow : Instr → Bool
  | .journalRecordDurable .. | .commitMarkDurable .. | .evlogProgram .. | .norProgramDone .. | .eraseSuspend .. | .compaction ..
  | .norScrub .. => true
  | _ => false

/-- An arming of the TMU waits for calibration, which holds it or comes first (R427, R428). -/
def armWaits (s : State) (u : TmuId) : Bool :=
  s.b (K.tt_CAL_HOLD u) || (if h : u.val < 8 then blockFirst s ⟨u, h⟩ else false)

/-- The first waiting TMUC command of a site with a TOP code. -/
def tmucNext (s : State) (i : SiteId) (code : Nat) : Option UnitCmd :=
  s.unitCmds.find? (fun c => c.tmu && c.site == i && c.code == code)

/-- The source of a level condition: 0 COMPLIANCE, 1 OPEN_LOAD, 2 OVERLOAD. -/
def detectSrc (which : Fin 3) (d : DacId) : Nat :=
  match which with | 0 => Src.LVL_COMPLIANCE d | 1 => Src.LVL_OPEN_LOAD d | 2 => Src.LVL_OVERLOAD d

/-- Every queue other than one is as before, but for the reads of its scatter list. -/
def OtherHeads (q : Nat) (s t : State) : Prop :=
  ∀ r, r ≠ q → (t.queue? r).map (fun x => { x with fetch := 0, listLeft := 0 }) = (s.queue? r).map (fun x => { x with fetch := 0, listLeft := 0 })

/-- The entry at the head of a queue arrives and nothing holds it: no scatter list is to be read and no earlier command is awaited; or it waited for them, and they
have ended. -/
abbrev EntryGoes (q : QueueId) (x : Queue) (e : BitVec 512) (l : List (BitVec 128)) (s : State) : Prop :=
  ((x.entry = some (e, l) ∧ x.listLeft = 0) ∨ (x.entry = none ∧ 0 < x.fetch ∧ SqE.sgl e = false)) ∧ (SqE.fence e = true → flightsOf s q = [])

/-- A function signals a vector at once (R600). -/
abbrev Signals (y : Fn) (f : FnId) (v : Nat) : Prop := v < vectors f ∧ y.msixEnable = true ∧ msixMasked y v = false ∧ y.d3hot = false

/-- A transaction of the device itself is in progress. -/
def OwnStands (job : CalJob) (keys : List Nat) (vals : List (Nat × Int)) (t : State) : Prop := ∃ x ∈ t.dict.outs, OwnTxn x job 0 0 keys vals

end Sys2Proof
end

