-- ==== Sys2Proof/Unchanged.lean ====
section
/-! DEFINITION. The parts of State by number, what it means that a change reaches nothing outside some of them, and what each
command may change: the terms in which frames are stated. -/
namespace Sys2Proof
open Sys2Proof.Machine

/-! ### What a command may change -/

/-- The areas of the dictionary: base index and number of units (the object tables); the position of an area in this list is
its number. -/
def areas : List (Nat × Nat) :=
  [(0x1000, 1), (0x1008, 1), (0x1100, 1), (0x1140, 1), (0x1141, 1), (0x1142, 1), (0x1150, 33), (0x1180, 32)] ++
  [(0x1200, 1), (0x1210, 8), (0x1800, 1), (0x1810, 1), (0x1811, 1), (0x2000, 1), (0x2010, 1), (0x2020, 32)] ++
  [(0x2040, 32), (0x2200, 1), (0x2201, 1), (0x2205, 1), (0x2206, 1), (0x2210, 32), (0x2230, 32), (0x2250, 32)] ++
  [(0x2270, 32), (0x2400, 1), (0x2401, 1), (0x2402, 1), (0x2403, 1), (0x2405, 1), (0x2406, 1), (0x2440, 32)] ++
  [(0x2460, 32), (0x2480, 64), (0x2600, 1), (0x2610, 32), (0x2630, 32), (0x2650, 32), (0x2680, 8), (0x3000, 256)] ++
  [(0x3100, 256), (0x3400, 2048), (0x4000, 1), (0x4010, 16), (0x4400, 1), (0x4410, 8), (0x4420, 8), (0x4430, 8)] ++
  [(0x4800, 1), (0x4801, 1), (0x4810, 32), (0x4830, 10), (0x4840, 10), (0x4850, 80), (0x48A0, 1), (0x5000, 192)] ++
  [(0x50C0, 8), (0x50D0, 1), (0x50E0, 32), (0x5400, 1), (0x5410, 10), (0x5430, 1), (0x5431, 1), (0x5438, 1)] ++
  [(0x5439, 1), (0x5440, 192), (0x6000, 1), (0x6001, 3), (0x6008, 1), (0x6010, 1), (0x6020, 1), (0x6030, 8)] ++
  [(0x6040, 1), (0x6400, 1), (0x6410, 16), (0x6430, 16), (0x7000, 1), (0x7008, 1), (0x7010, 1), (0x7018, 1)] ++
  [(0x7020, 32), (0x7060, 1), (0x7061, 1), (0x7068, 1), (0x7400, 1), (0x7401, 4), (0x7410, 1), (0x7420, 24)] ++
  [(0x7440, 1), (0x7450, 14), (0x7460, 1), (0x7470, 1), (0x7480, 1), (0x7481, 1), (0x7482, 1), (0x7483, 1)] ++
  [(0x7800, 1), (0x7810, 1), (0x7820, 1), (0x8000, 128), (0x8080, 128)]

/-- The key of an object lies in one of the areas of a mask. -/
def inAreas (W k : Nat) : Bool :=
  (areas.zipIdx).any (fun e => W.testBit e.2 && decide (e.1.1 ≤ k / 256) && decide (k / 256 < e.1.1 + e.1.2))

/-! The numbers of the areas, by the first part of the names in K; then those of the other parts of State. -/
namespace Area

/-- 1000h -/
abbrev id : Nat := 0
/-- 1008h -/
abbrev fam : Nat := 1
/-- 1100h -/
abbrev net : Nat := 2
/-- 1140h -/
abbrev pcie : Nat := 3
/-- 1141h -/
abbrev qp : Nat := 4
/-- 1142h -/
abbrev sf : Nat := 5
/-- 1150h to 1170h -/
abbrev fn : Nat := 6
/-- 1180h to 119Fh -/
abbrev se : Nat := 7
/-- 1200h -/
abbrev te : Nat := 8
/-- 1210h to 1217h -/
abbrev tr : Nat := 9
/-- 1800h -/
abbrev utc : Nat := 10
/-- 1810h -/
abbrev ev : Nat := 11
/-- 1811h -/
abbrev evd : Nat := 12
/-- 2000h -/
abbrev sg : Nat := 13
/-- 2010h -/
abbrev sc : Nat := 14
/-- 2020h to 203Fh -/
abbrev cf : Nat := 15
/-- 2040h to 205Fh -/
abbrev st : Nat := 16
/-- 2200h -/
abbrev cs : Nat := 17
/-- 2201h -/
abbrev vd : Nat := 18
/-- 2205h -/
abbrev csa : Nat := 19
/-- 2206h -/
abbrev csd : Nat := 20
/-- 2210h to 222Fh -/
abbrev sq : Nat := 21
/-- 2230h to 224Fh -/
abbrev sr : Nat := 22
/-- 2250h to 226Fh -/
abbrev lc : Nat := 23
/-- 2270h to 228Fh -/
abbrev pa : Nat := 24
/-- 2400h -/
abbrev hm : Nat := 25
/-- 2401h -/
abbrev ab : Nat := 26
/-- 2402h -/
abbrev ar : Nat := 27
/-- 2403h -/
abbrev rf : Nat := 28
/-- 2405h -/
abbrev hs : Nat := 29
/-- 2406h -/
abbrev ds : Nat := 30
/-- 2440h to 245Fh -/
abbrev md : Nat := 31
/-- 2460h to 247Fh -/
abbrev sl : Nat := 32
/-- 2480h to 24BFh -/
abbrev sm : Nat := 33
/-- 2600h -/
abbrev fl : Nat := 34
/-- 2610h to 262Fh -/
abbrev fc : Nat := 35
/-- 2630h to 264Fh -/
abbrev fr : Nat := 36
/-- 2650h to 266Fh -/
abbrev ff : Nat := 37
/-- 2680h to 2687h -/
abbrev pf : Nat := 38
/-- 3000h to 30FFh -/
abbrev ch : Nat := 39
/-- 3100h to 31FFh -/
abbrev cc : Nat := 40
/-- 3400h to 3BFFh -/
abbrev ts : Nat := 41
/-- 4000h -/
abbrev sp0 : Nat := 42
/-- 4010h to 401Fh -/
abbrev sp : Nat := 43
/-- 4400h -/
abbrev wf0 : Nat := 44
/-- 4410h to 4417h -/
abbrev wc : Nat := 45
/-- 4420h to 4427h -/
abbrev ws : Nat := 46
/-- 4430h to 4437h -/
abbrev wd : Nat := 47
/-- 4800h -/
abbrev tm0 : Nat := 48
/-- 4801h -/
abbrev tmo : Nat := 49
/-- 4810h to 482Fh -/
abbrev tl : Nat := 50
/-- 4830h to 4839h -/
abbrev tc : Nat := 51
/-- 4840h to 4849h -/
abbrev tt : Nat := 52
/-- 4850h to 489Fh -/
abbrev tv : Nat := 53
/-- 48A0h -/
abbrev tk : Nat := 54
/-- 5000h to 50BFh -/
abbrev da : Nat := 55
/-- 50C0h to 50C7h -/
abbrev lb : Nat := 56
/-- 50D0h -/
abbrev ll : Nat := 57
/-- 50E0h to 50FFh -/
abbrev lg : Nat := 58
/-- 5400h -/
abbrev cl : Nat := 59
/-- 5410h to 5419h -/
abbrev cb : Nat := 60
/-- 5430h -/
abbrev tf : Nat := 61
/-- 5431h -/
abbrev vf : Nat := 62
/-- 5438h -/
abbrev sk : Nat := 63
/-- 5439h -/
abbrev sb : Nat := 64
/-- 5440h to 54FFh -/
abbrev lt : Nat := 65
/-- 6000h -/
abbrev ck : Nat := 66
/-- 6001h to 6003h -/
abbrev cg : Nat := 67
/-- 6008h -/
abbrev cx : Nat := 68
/-- 6010h -/
abbrev cq : Nat := 69
/-- 6020h -/
abbrev gt : Nat := 70
/-- 6030h to 6037h -/
abbrev dk : Nat := 71
/-- 6040h -/
abbrev rd : Nat := 72
/-- 6400h -/
abbrev em : Nat := 73
/-- 6410h to 641Fh -/
abbrev el : Nat := 74
/-- 6430h to 643Fh -/
abbrev mk : Nat := 75
/-- 7000h -/
abbrev fz : Nat := 76
/-- 7008h -/
abbrev fy : Nat := 77
/-- 7010h -/
abbrev fx : Nat := 78
/-- 7018h -/
abbrev fw : Nat := 79
/-- 7020h to 703Fh -/
abbrev ep : Nat := 80
/-- 7060h -/
abbrev ru : Nat := 81
/-- 7061h -/
abbrev rt : Nat := 82
/-- 7068h -/
abbrev stc : Nat := 83
/-- 7400h -/
abbrev mg : Nat := 84
/-- 7401h to 7404h -/
abbrev spd : Nat := 85
/-- 7410h -/
abbrev tp : Nat := 86
/-- 7420h to 7437h -/
abbrev th : Nat := 87
/-- 7440h -/
abbrev vi : Nat := 88
/-- 7450h to 745Dh -/
abbrev rl : Nat := 89
/-- 7460h -/
abbrev nr : Nat := 90
/-- 7470h -/
abbrev fwm : Nat := 91
/-- 7480h -/
abbrev bu : Nat := 92
/-- 7481h -/
abbrev bp : Nat := 93
/-- 7482h -/
abbrev pw : Nat := 94
/-- 7483h -/
abbrev tn : Nat := 95
/-- 7800h -/
abbrev lcy : Nat := 96
/-- 7810h -/
abbrev kk : Nat := 97
/-- 7820h -/
abbrev rk : Nat := 98
/-- 8000h to 807Fh -/
abbrev cu : Nat := 99
/-- 8080h to 80FFh -/
abbrev cp : Nat := 100
/-- STR and DOMAIN objects -/
abbrev blobs : Nat := 104
/-- control store -/
abbrev store : Nat := 105
/-- segment table, segments under migration -/
abbrev segs : Nat := 106
/-- streams -/
abbrev strms : Nat := 107
/-- the rest of Mem: service state, start groups, counts of the last hour, losses of signal -/
abbrev memory : Nat := 108
/-- sites -/
abbrev sites : Nat := 109
/-- queues -/
abbrev queues : Nat := 110
/-- functions, VF Enable -/
abbrev functions : Nat := 111
/-- commands in flight and ended, arbitration of fetches, reads and writes, waiting writes -/
abbrev commands : Nat := 112
/-- transactions and field network -/
abbrev dict : Nat := 113
/-- raises on their way to the collector -/
abbrev raises : Nat := 114
/-- the rest of the fault collector -/
abbrev collector : Nat := 115
/-- TMUs -/
abbrev tmus : Nat := 116
/-- waveform engines -/
abbrev engs : Nat := 117
/-- event lines -/
abbrev evts : Nat := 118
/-- calibration controller -/
abbrev cal : Nat := 119
/-- level DACs -/
abbrev lvl : Nat := 120
/-- clocks -/
abbrev clk : Nat := 121
/-- management -/
abbrev mgmt : Nat := 122
/-- power and bring-up -/
abbrev pwr : Nat := 123
/-- unit commands of microwords -/
abbrev unitCmds : Nat := 124
/-- commands that wait for their domain -/
abbrev delayed : Nat := 125
/-- every object, the areas included -/
abbrev anything : Nat := 126

end Area

/-- The mask of a list of numbers. -/
def areaMask (l : List Nat) : Nat := l.foldl (fun m j => m ||| 2 ^ j) 0

/-- A change from s to t that reaches nothing outside a mask: every object of another area and every other part of State is
as before (out holds what the command sent, free is the counter of free values: neither is state of the device). -/
structure Unchanged (W : Nat) (s t : State) : Prop where
  objects : ∀ k, inAreas W k = false → W.testBit Area.anything = false → t.g k = s.g k
  blobs : W.testBit Area.blobs = false → t.blobs = s.blobs
  store : W.testBit Area.store = false → t.mem.cs = s.mem.cs
  segs : W.testBit Area.segs = false →
    t.mem.segs = s.mem.segs ∧ t.mem.movers = s.mem.movers
  strms : W.testBit Area.strms = false → t.mem.strms = s.mem.strms
  memory : W.testBit Area.memory = false →
    t.mem.hbmUp = s.mem.hbmUp ∧ t.mem.starts = s.mem.starts ∧ t.mem.logTurn = s.mem.logTurn ∧ t.mem.ceAt = s.mem.ceAt ∧ t.mem.bothAt = s.mem.bothAt ∧ t.mem.logAt = s.mem.logAt ∧ t.mem.losLog = s.mem.losLog
  sites : W.testBit Area.sites = false → t.sites = s.sites
  queues : W.testBit Area.queues = false → t.host.queues = s.host.queues
  functions : W.testBit Area.functions = false →
    t.host.fns = s.host.fns ∧ t.host.vfEnable = s.host.vfEnable
  commands : W.testBit Area.commands = false →
    t.host.flights = s.host.flights ∧ t.host.compl = s.host.compl ∧ t.host.fetches = s.host.fetches ∧ t.host.reads = s.host.reads ∧ t.host.writes = s.host.writes ∧ t.host.waiting = s.host.waiting
  dict : W.testBit Area.dict = false → t.dict = s.dict
  raises : W.testBit Area.raises = false → t.flt.reports = s.flt.reports
  collector : W.testBit Area.collector = false →
    t.flt.srcs = s.flt.srcs ∧ t.flt.tests = s.flt.tests ∧ t.flt.retiring = s.flt.retiring ∧ t.flt.clearedOrder = s.flt.clearedOrder ∧ t.flt.latch = s.flt.latch ∧ t.flt.stCmd = s.flt.stCmd ∧ t.flt.wants = s.flt.wants ∧ t.flt.pendSw = s.flt.pendSw ∧ t.flt.noEng = s.flt.noEng ∧ t.flt.tempRet = s.flt.tempRet
  tmus : W.testBit Area.tmus = false → t.tmus = s.tmus
  engs : W.testBit Area.engs = false → t.engs = s.engs
  evts : W.testBit Area.evts = false → t.evts = s.evts
  cal : W.testBit Area.cal = false → t.cal = s.cal
  lvl : W.testBit Area.lvl = false → t.lvl = s.lvl
  clk : W.testBit Area.clk = false → t.clk = s.clk
  mgmt : W.testBit Area.mgmt = false → t.mgmt = s.mgmt
  pwr : W.testBit Area.pwr = false → t.pwr = s.pwr
  unitCmds : W.testBit Area.unitCmds = false → t.unitCmds = s.unitCmds
  delayed : W.testBit Area.delayed = false → t.delayed = s.delayed
  marks : t.mkLast = s.mkLast


/-- Every area and every part. -/
def everything : List Nat := List.range 127

open Area in
/-- What a command may change: the areas of objects and the other parts of State that the rules of its meaning name. -/
def changes (c : Instr) : List Nat :=
  match c with
  | .segAlloc _ _ _ _ | .segSeal _ _ | .segUnseal _ _ | .segMigrate _ _ _ | .segFree _ _ =>
    [segs, commands, delayed]
  | .segWrite _ _ _ _ _ =>
    [segs, functions, commands, delayed]
  | .segRead _ _ _ _ =>
    [ds, segs, memory, commands, raises, delayed]
  | .segMigrateDone _ =>
    [ds, segs, memory, commands, raises]
  | .segQuery _ _ =>
    [commands, delayed]
  | .streamOpen _ _ _ _ _ | .streamClose _ _ =>
    [sm, strms, queues, commands, delayed]
  | .streamReset _ _ =>
    [sm, strms, commands, delayed]
  | .streamFeed _ _ =>
    [sm, strms, functions, commands, delayed]
  | .streamFeedResume _ =>
    [sm, strms, commands]
  | .resultBuf _ _ | .resultBufTimeout _ =>
    [queues, commands, delayed]
  | .csWrite _ _ _ =>
    [cs, store, functions, commands, delayed]
  | .csRead _ _ _ _ | .csVerify _ _ _ _ =>
    [cs, commands, raises, delayed]
  | .csDomainWrite _ _ =>
    [cs, blobs, store, functions, dict, mgmt, delayed]
  | .load _ _ =>
    [se, sc, st, sites, commands, raises, delayed]
  | .unload _ _ | .reset _ _ =>
    [se, sc, st, sm, segs, strms, sites, commands, raises, delayed]
  | .arm _ _ =>
    [se, sc, st, sr, lc, rf, md, sm, fr, ff, pf, ch, sp, ws, tt, tv, segs, strms, memory, sites, commands, dict,
     raises, collector, tmus, engs, cal, delayed]
  | .start _ _ =>
    [sc, st, memory, commands, delayed]
  | .startWhenReady _ =>
    [se, st, sr, md, fr, ch, sp, ws, tt, tv, memory, sites, dict, raises, collector, tmus, engs, cal]
  | .pause _ _ =>
    [sc, st, sr, commands, delayed]
  | .resume _ _ =>
    [sc, st, sites, commands, delayed]
  | .stop _ _ | .abort _ _ =>
    [se, sc, st, sr, md, ch, sp, ws, tt, tv, sites, commands, dict, raises, collector, tmus, engs, cal, delayed]
  | .ready _ =>
    [st]
  | .siteStopped _ | .sitePaused _ | .abortForced _ | .safePointStarvation _ | .sitePark _ _ | .withyUnlock _ =>
    [se, st, sr, md, ch, sp, ws, tt, tv, sites, dict, raises, collector, tmus, engs, cal]
  | .resumeRunning _ | .frameTake _ =>
    [se, st, sr, md, fr, ch, sp, ws, tt, tv, sites, dict, raises, collector, tmus, engs, cal]
  | .failRead _ _ _ _ _ =>
    [hs, ds, segs, commands, raises, delayed]
  | .captureRead _ _ _ _ _ =>
    [hs, ds, commands, raises, delayed]
  | .tmuArm _ _ | .tmuDisarm _ _ =>
    [tt, tv, tk, sites, commands, raises, tmus, cal, delayed]
  | .read _ =>
    [md, sm, functions, commands, dict, mgmt, pwr, delayed]
  | .write _ | .kdpFrame _ _ | .mailboxRequest _ | .fwImage _ _ _ =>
    [net, se, te, utc, sc, st, cs, sr, lc, rf, md, sm, fr, ff, pf, ch, cc, sp, ws, tt, tv, tk, da, cl, sk, ck, cg,
     cx, fz, ep, stc, fwm, bu, lcy, kk, rk, blobs, store, segs, strms, memory, sites, functions, commands, dict,
     raises, collector, tmus, engs, evts, cal, lvl, clk, mgmt, pwr, delayed, anything]
  | .begin _ =>
    [functions, dict, mgmt, pwr, delayed]
  | .commit _ =>
    [net, te, utc, st, fr, ch, cc, sp, tt, tv, da, cl, ck, cg, cx, kk, blobs, sites, functions, dict, raises,
     collector, tmus, engs, evts, cal, lvl, clk, mgmt, pwr, delayed, anything]
  | .rollback _ =>
    [net, functions, dict, raises, mgmt, pwr, delayed]
  | .journalRecordDurable _ _ | .applyPoint _ =>
    [net, te, utc, st, fr, ch, cc, sp, tt, tv, da, cl, ck, cg, cx, kk, blobs, sites, functions, dict, raises,
     collector, tmus, engs, evts, cal, lvl, clk, mgmt, delayed, anything]
  | .commitMarkDurable _ =>
    [net, cc, sp, tt, tv, cl, cx, sites, functions, dict, raises, collector, tmus, cal, clk, mgmt, delayed]
  | .txnTimeout _ =>
    [net, te, functions, dict, raises, mgmt, delayed]
  | .domainWriteTimeout _ =>
    [fwm, dict, delayed]
  | .domainSnapshotExpiry _ | .ack _ =>
    [dict, delayed]
  | .notifyRepeat =>
    [net, dict, raises, delayed]
  | .plcaBeaconLost =>
    [net, raises, collector, delayed]
  | .plcaBeacon =>
    [net, collector, delayed]
  | .create _ | .interruptCoalesceTimer _ =>
    [queues, functions, delayed]
  | .delete _ | .sqFetch _ _ _ | .completionPost _ =>
    [queues, functions, commands, delayed]
  | .queueAbsent _ =>
    [queues, delayed]
  | .qRead _ | .bar64HalfWrite _ _ _ _ | .d3hotToD0 _ _ =>
    [functions, delayed]
  | .sqTailDoorbell _ _ _ | .cqHeadDoorbell _ _ _ =>
    [queues, functions, raises, delayed]
  | .eventPost _ =>
    [se, sites, queues, functions, raises, delayed]
  | .qDmaError _ _ =>
    [cs, sm, store, segs, strms, queues, functions, commands, delayed]
  | .bar64HalfRead _ _ _ =>
    [functions, commands, delayed]
  | .registerWrite _ _ _ =>
    [pcie, functions, commands, delayed]
  | .pcieLinkDown =>
    [net, pcie, queues, functions, commands, dict, raises, collector, mgmt, pwr]
  | .pcieLinkDegraded _ _ =>
    [pcie, raises, collector]
  | .flr _ _ =>
    [net, pcie, queues, functions, commands, dict, raises, mgmt, delayed]
  | .vfEnableChange _ _ _ =>
    [pcie, queues, functions, commands, delayed]
  | .cont _ _ | .jmp _ _ | .call _ _ | .ret _ _ | .loop _ _ | .wait _ _ | .waitt _ _ | .halt _ _ | .opPause _ _ |
    .hostevt _ _ =>
    [net, se, te, utc, st, cs, sr, lc, md, sm, fr, ch, cc, sp, ws, tt, tv, da, cl, ck, cg, cx, kk, blobs, sites,
     functions, dict, raises, collector, tmus, engs, evts, cal, lvl, clk, mgmt, unitCmds, anything]
  | .yealmFetch _ _ _ _ _ =>
    [se, st, sr, hs, md, sm, ch, sp, ws, tt, tv, segs, sites, commands, dict, raises, collector, tmus, engs, cal]
  | .underRun _ =>
    [se, st, sr, md, sm, ch, sp, ws, tt, tv, sites, dict, raises, collector, tmus, engs, cal]
  | .padFrame _ =>
    [md, sm, sites]
  | .stallEnd _ =>
    [net, se, te, utc, st, fr, ch, cc, sp, tt, tv, da, cl, ck, cg, cx, kk, blobs, sites, functions, dict, raises,
     collector, tmus, engs, evts, cal, lvl, clk, mgmt, anything]
  | .moverRefill _ _ _ _ =>
    [se, st, sr, ds, md, ch, sp, ws, tt, tv, segs, memory, sites, commands, dict, raises, collector, tmus, engs, cal]
  | .patrolRead _ _ _ =>
    [hs, segs, memory, commands, raises]
  | .compareResultLatch _ _ =>
    [se, fr, ff, pf, ch, sp, memory, sites, dict, raises, tmus, cal]
  | .failLogEnqueue _ =>
    [fr, sites, raises]
  | .failLogWrite =>
    [fr, memory, sites, raises]
  | .spillExtent _ =>
    [fr, sites]
  | .captureRecord _ _ =>
    [fr, sites, queues, commands, raises]
  | .evtQualify _ _ | .glitch _ _ _ | .evtHost _ =>
    [el, evts]
  | .evtOverrun _ _ =>
    [el, raises, evts]
  | .evtLatch _ =>
    [st, ws, sites, engs, evts]
  | .evtStuck _ =>
    [em, el, raises, collector, evts]
  | .evtRelease _ =>
    [em, collector, evts]
  | .ridgePulse _ =>
    [net, te, utc, sg, st, fr, ch, cc, sp, tt, tv, da, cl, ck, cg, cx, rd, el, kk, blobs, sites, functions, dict,
     raises, collector, tmus, engs, evts, cal, lvl, clk, mgmt, anything]
  | .ridgeIgnored _ =>
    [rd, raises]
  | .ridgeFireStart | .ridgeFireStop =>
    [clk, delayed]
  | .ridgeGenerate | .dutclkChange _ =>
    [clk]
  | .ridgeCal =>
    [tt, tv, cx, tmus, cal, clk, delayed]
  | .ridgeCalDone _ _ _ _ =>
    [tt, tv, cx, rd, sites, dict, raises, tmus, cal, clk]
  | .wfeStart _ | .wfeStop _ | .wfeJump _ | .wfeTrigger _ | .wfeFlist _ =>
    [ws, raises, engs, unitCmds]
  | .granuleBoundary _ | .wfSampleLate _ =>
    [ws, raises, engs]
  | .wfRecoveryEnd _ =>
    [engs]
  | .wfSampleUe _ _ =>
    [hs, ws, segs, commands, raises, engs]
  | .tmucArm _ =>
    [tt, tv, tmus, cal, unitCmds]
  | .tmucStart _ | .tmucStop _ =>
    [tt, tmus, unitCmds]
  | .tmucDisarm _ =>
    [tt, tv, sites, raises, tmus, cal, unitCmds]
  | .tmuEdgeCapture _ _ _ _ _ _ | .frequencyGateEnd _ =>
    [tt, tmus]
  | .tmuStopTimeout _ _ =>
    [tmus]
  | .tmuSampleComplete _ =>
    [tt, tv, sites, raises, tmus, cal]
  | .tmuUnlock _ =>
    [tt, tv, sites, raises, collector, tmus, cal]
  | .tmuCalRelease _ =>
    [tt, tmus, cal]
  | .withyRelock _ =>
    [ch, tt, collector]
  | .peLos _ =>
    [ch, memory, raises, collector]
  | .losClear _ =>
    [ch, memory, collector]
  | .native _ _ _ _ =>
    [cc, sp, tt, cl, dict, raises, collector, tmus, cal, delayed]
  | .nativeBankComplete _ _ =>
    [cc, sp, tt, da, cl, cb, sb, lt, blobs, dict, raises, collector, tmus, cal, lvl]
  | .nativeAbort =>
    [cl, cal, delayed]
  | .liveNow _ =>
    [cc, sp, tt, cl, raises, collector, tmus, cal, delayed]
  | .calTick _ _ =>
    [cc, sp, tt, cl, cb, lt, dict, raises, collector, tmus, cal]
  | .calBlockEnd _ _ _ _ =>
    [cc, sp, tt, cl, cb, blobs, dict, raises, collector, tmus, cal]
  | .calrefRecovered =>
    [cc, sp, cl, raises, collector, cal]
  | .directCalAbandon _ | .alignMeasure _ _ | .measurePublish _ _ | .returnStep _ _ _ | .legacyPassEnd _ =>
    [cc, sp, tt, cl, dict, raises, collector, tmus, cal]
  | .shadowJoin _ =>
    [cal]
  | .swapRequest _ =>
    [sr, sites, cal]
  | .sparSwitch _ =>
    [sr, ch, cc, sp, sites, dict, collector, cal]
  | .swapBackComplete _ _ =>
    [cc, sp, dict, cal]
  | .swapWaitExpiry _ =>
    [sr, cc, sp, tt, cl, sites, raises, collector, tmus, cal]
  | .sparReclaim _ =>
    [sr, ch, cc, sp, sites, dict, raises, collector, cal]
  | .sealToken _ =>
    [sk, blobs, functions, commands, dict, raises, cal, mgmt, delayed]
  | .sealClose _ | .sealDurationExpiry =>
    [sk, blobs, cal, delayed]
  | .lvlLoad _ =>
    [lvl, delayed]
  | .loadStrobe _ =>
    [da, lb, lvl]
  | .deglitchRelease _ =>
    [da, lvl]
  | .rerangeEnd _ =>
    [lvl]
  | .lvlCompliance _ _ | .lvlOverload _ =>
    [da, raises, collector]
  | .lvlRefFault _ _ =>
    [lb, raises, collector]
  | .refEdgeAbsent _ | .pllLockLoss _ | .monitorWindow _ _ =>
    [net, pcie, st, ch, tt, tv, ck, cg, cx, sites, queues, functions, commands, dict, raises, collector, tmus, cal,
     clk, mgmt, pwr]
  | .sscDetectedClear =>
    [ck]
  | .refGood _ =>
    [ck, cg, cx, dk, collector, clk]
  | .groupRestart _ =>
    [net, se, te, utc, sg, st, sr, md, sm, fr, ch, cc, sp, ws, tt, tv, da, cl, ck, cg, cx, dk, rd, el, ep, kk, blobs,
     segs, memory, sites, queues, functions, commands, dict, raises, collector, tmus, engs, evts, cal, lvl, clk,
     mgmt, anything]
  | .clockRestart | .powerOn _ | .perst | .resetTakesEffect | .uvlo =>
    everything
  | .switch _ _ =>
    [cg, cx, clk, delayed]
  | .plannedSwitchDone _ =>
    [net, te, utc, sg, st, fr, ch, cc, sp, tt, tv, da, cl, ck, cg, cx, dk, rd, el, kk, blobs, memory, sites, queues,
     functions, dict, raises, collector, tmus, engs, evts, cal, lvl, clk, mgmt, anything]
  | .autoRevert _ =>
    [cg, cx, clk]
  | .dutclkRestart _ =>
    [dk, clk]
  | .faultRaise _ _ =>
    [net, se, st, sr, md, ch, cc, sp, ws, tt, tv, da, fz, ep, sites, functions, commands, dict, raises, collector,
     tmus, engs, cal, lvl, mgmt, delayed]
  | .railDisagree _ _ =>
    [raises, collector, delayed]
  | .selftestVerdict _ _ _ =>
    [net, se, st, sr, md, ch, cc, sp, ws, tt, tv, da, ep, rt, stc, sites, functions, dict, raises, collector, tmus,
     engs, cal, lvl, mgmt, delayed]
  | .selftestDeferred _ =>
    [net, se, st, sr, md, ch, cc, sp, ws, tt, tv, da, ep, sites, functions, dict, raises, collector, tmus, engs, cal,
     lvl, mgmt, delayed]
  | .deferredTestFail _ _ =>
    [raises, collector, engs, delayed]
  | .retirementDurable =>
    [sr, ch, cc, sp, ws, tt, tv, rt, sites, dict, raises, collector, tmus, engs, cal, mgmt, delayed]
  | .handlingEnd | .faultClear _ _ =>
    [net, fz, ep, functions, dict, raises, collector, mgmt, delayed]
  | .test _ =>
    [ws, stc, collector, engs, delayed]
  | .unretire _ =>
    [ch, sp, ws, rt, stc, collector, engs, mgmt, delayed]
  | .lockstepMismatch =>
    [sk, mg, blobs, raises, cal, mgmt, delayed]
  | .spadCollision _ _ _ _ _ _ _ =>
    [spd, raises, mgmt, delayed]
  | .scratchpadSelftestChunk _ _ _ =>
    [spd, commands, raises, mgmt, delayed]
  | .faultCheckConversion _ _ =>
    [raises, collector, mgmt, delayed]
  | .telemetryConversion _ _ =>
    [th, vi, rl, mgmt, delayed]
  | .evlogEntry =>
    [ev, raises, mgmt, delayed]
  | .evlogProgram _ =>
    [ev, commands, mgmt, delayed]
  | .norProgramDone _ | .compaction _ | .norScrub _ =>
    [nr, raises, collector, mgmt, delayed]
  | .eraseSuspend _ =>
    [mgmt, delayed]
  | .journalBudget =>
    [raises, mgmt, delayed]
  | .activate =>
    [fwm, rk, raises, collector, mgmt, delayed]
  | .confirm | .cancel | .erase =>
    [fwm, rk, mgmt, delayed]
  | .confirmWindowExpiry =>
    [fwm, raises, mgmt, delayed]
  | .lcToken _ =>
    [net, sk, lcy, blobs, functions, dict, raises, cal, mgmt, delayed]
  | .sealKey _ =>
    [kk, mgmt, delayed]
  | .keyWindowExpiry =>
    [kk, delayed]
  | .tamper =>
    [net, sk, lcy, kk, blobs, functions, dict, raises, cal, mgmt]
  | .phaseEnd _ _ =>
    [net, se, te, utc, sc, st, cs, sr, lc, rf, md, sm, fc, fr, ff, pf, ch, cc, sp, ws, tt, tv, tk, da, cl, sk, ck,
     cg, cx, dk, fz, ep, stc, mg, fwm, bu, bp, lcy, kk, rk, blobs, store, segs, strms, memory, sites, functions,
     commands, dict, raises, collector, tmus, engs, evts, cal, lvl, clk, mgmt, pwr, anything]
  | .p1FallbackStart _ =>
    [cg, cx, dk, clk]
  | .bootRom _ _ _ =>
    [vd, fwm, rk, blobs, store, raises, mgmt, pwr, delayed]
  | .kzFwload _ =>
    [fwm, mgmt]
  | .journalReplay _ _ =>
    [st, sr, fr, ch, cc, sp, ws, tt, tv, da, lb, ll, cl, ck, cg, cx, nr, lcy, kk, blobs, sites, dict, raises,
     collector, tmus, engs, evts, cal, lvl, clk, mgmt, pwr, delayed, anything]
  | .hbmTraining _ =>
    [memory, raises, collector, pwr, delayed]
  | .ddr5Training _ _ _ _ =>
    [hm, bu, tn, raises, collector, pwr, delayed]
  | .quickSelfTest _ =>
    [raises, pwr, delayed]
  | .perstDeassert =>
    [ch, tt, dk, bu, pwr]
  | .device | .firmware =>
    [bu, pwr, delayed]
  | .vinPfw =>
    [pw, raises, collector, mgmt]
  | .pfwClear =>
    [pw, collector]
  | .vinLow _ | .vinHigh _ =>
    [raises, collector]
  | .pcieLinkUp _ _ =>
    [pcie, raises, collector, pwr]
  | .tamperRelease =>
    [lcy]
  | .refQualifying _ =>
    [ck, clk]
  | .lvlDetectClear _ _ =>
    [da, collector]
  | .dimmTempRead _ _ =>
    [ds]

end Sys2Proof
end

