-- ==== Sys2Proof/Certificates/Slice0/Obligations.lean ====
section
/-! DEFINITION. The statements about the model, from the numbered rules of spec/, family by family. Every statement about a
command concludes that it answers a next state, and says which one. -/
open Sys2Proof Sys2Proof.Machine

/-- Reset (R721, R730; R609, Tables 0.2 to 18): no command waits, every numeric object holds its default, every STR and DOMAIN
object is empty, no segment, no written control-store word and no queue exists, and every site is IDLE. The defaults that the
tables leave open are the model's own (assumption 4). -/
def Obligations.ResetIsDefault : Prop :=
  State.reset.pending = [] ∧ (∀ k, State.reset.g k = Objects.dflt k) ∧ (∀ k, State.reset.blob k = []) ∧
  (∀ n, State.reset.seg? n = none) ∧ (∀ q, State.reset.queue? q = none) ∧ State.reset.mem.cs = [] ∧
  (∀ i : SiteId, State.reset.st i = SS.idle)

/-- A step runs the command at the front of the queue on the state with the rest of the queue. -/
def Obligations.StepRunsFront : Prop :=
  ∀ (c : Instr) (rest : List Instr) (s : State), s.pending = c :: rest → step s = exec c { s with pending := rest }

/-- On an empty queue one SCLK of 1.25 ns passes (DESIGN CHOICE, assumption 1). Every such step answers a next state, one SCLK
later, in which the commands that waited for their domain stand in the queue. While no request of the dictionary waits and no
ridge pulse is on its way, nothing outside the listed areas changes. While the timing group and the host interface are stopped,
and no switch and no request waits, only the time changes. -/
def Obligations.IdleStep : Prop :=
  (∀ s : State, s.pending = [] → ∃ t, step s = .next t ∧ t.now = s.now + 1 ∧ t.pending = s.delayed ∧ t.delayed = []) ∧
  (∀ s : State, s.pending = [] → s.dict.held = [] → s.clk.ridgeDue = none → ∃ t, step s = .next t ∧
    Unchanged (areaMask [Area.se, Area.st, Area.sr, Area.md, Area.fr, Area.ch, Area.cc, Area.sp, Area.ws, Area.tt, Area.tv, Area.cl,
      Area.cb, Area.cg, Area.cx, Area.sites, Area.queues, Area.functions, Area.commands, Area.dict, Area.raises, Area.collector,
      Area.tmus, Area.engs, Area.cal, Area.clk, Area.delayed]) s { t with mkLast := s.mkLast }) ∧
  (∀ s : State, s.pending = [] → timingOn s = false → domRuns s .pcie = false → (∀ g : Fin 3, (s.grp g).target = none) →
    s.delayed = [] → s.dict.held = [] → step s = .next { s with now := s.now + 1, out := [] })

/-- No row of the table has bits: no word spells a command (assumption 2). -/
def Obligations.NoWordSpells : Prop :=
  (∀ nbits w, decodeTableWord nbits w = none) ∧ (∀ (s : State) nbits w, s.withFetchWord nbits w = s)

/-- In the reset state the object store, the STR and DOMAIN values, the control store, the segment table, the queue table and the
table of sources have their canonical form. -/
def Obligations.ResetIsCanonical : Prop :=
Canonical State.reset

/-- INVARIANT. Every step keeps the canonical form of the object store, the STR and DOMAIN values, the control store, the segment
table, the queue table and the table of sources. -/
def Obligations.StepKeepsCanonical : Prop :=
∀ s t : State, Canonical s → step s = .next t → Canonical t

/-- Every command completes on every state, without fault or refusal, and touches neither the queue behind it nor the time. -/
def Obligations.EveryCommandCompletes : Prop :=
  ∀ (c : Instr) (s : State), ∃ t, exec c s = .next t ∧ t.pending = s.pending ∧ t.now = s.now

/-- A run of any length from any state never stops. While the commands that waited at its start last, it takes them from the
front of the queue in order, one a step, and no time passes; of each further step at most one SCLK passes. -/
def Obligations.RunsConsumeTheQueue : Prop :=
  ∀ (n : Nat) (s : State), ∃ t, runFor n s = some t ∧
    (n ≤ s.pending.length → t.pending = s.pending.drop n ∧ t.now = s.now) ∧
    s.now ≤ t.now ∧ t.now ≤ s.now + (n - s.pending.length)

/-- FRAME of every command: an object outside the areas that changes names for the command, and every other part of State that
changes does not name, is as before (the areas are those of the rules that the command's meaning follows). -/
def Obligations.EveryFrame : Prop :=
  ∀ (c : Instr) (s t : State), exec c s = .next t → Unchanged (areaMask (changes c)) s t

/-- While the timing group is stopped, every row of what it clocks by itself (words, frames, results, events, engines, TMUs,
calibration and load strobes) leaves the state as it is (R31, R538). A command that comes to a domain which does not run has no
effect; where a planned switch or a change of its frequency holds the domain, the command waits (R523, R543; DESIGN CHOICE,
assumption 213). The rows that read or program the NOR flash wait for its domain in the same way. -/
def Obligations.StoppedGroupStandsStill : Prop :=
  (∀ (c : Instr) (s : State), clocked c = true → timingOn s = false → exec c s = .next s.fresh) ∧
  (∀ (c : Instr) (d : Dom) (s : State), domOf c = some d → domRuns s d = false → domSwitches s d = false →
    exec c s = .next s.fresh) ∧
  (∀ (c : Instr) (d : Dom) (s : State), domOf c = some d → domRuns s d = false → domSwitches s d = true →
    exec c s = .next { s.fresh with delayed := s.delayed ++ [c] }) ∧
  (∀ (c : Instr) (s : State), norRow c = true → domRuns s .mgmt = true → domRuns s .nor = false →
    exec c s = .next (if domSwitches s .nor then { s.fresh with delayed := s.delayed ++ [c] } else s.fresh))

/-- SEG_ALLOC (R63): with a length in the kind's range, the tier present and room for the extents, the lowest-numbered FREE entry
becomes OPEN with the command's kind, home, length and owner, and RESULT is its number; no other entry changes. -/
def Obligations.SegAllocTakesLowestFree : Prop :=
  ∀ (tag : Tag) (kd : SegKind) (hm : Tier) (ln n : Nat) (s : State), comes s (some tag) .timing (.segAlloc tag kd hm ln) = true →
    (SegKind.lengths kd).1 ≤ ln → ln ≤ (SegKind.lengths kd).2 → (hm = .deep → s.deepOn = true) →
    Seg.extents { kind := kd, home := hm, len := ln, owner := tag.fn } ≤ s.tierFree hm → ksorted s.mem.segs = true → n < 65536 →
    s.seg? n = none → (∀ m, m < n → (s.seg? m).isSome = true) → ∃ t, exec (.segAlloc tag kd hm ln) s = .next t ∧
    t.seg? n = some { kind := kd, home := hm, len := ln, owner := tag.fn } ∧ OtherSegs n s t ∧ Completed s t tag Status.OK n

/-- SEG_WRITE of up to 65,536 items into an OPEN segment (R64, R365): the granules, or the yealms that pass their checks, enter
it at their indexes and the other items stay; RESULT 0 says that all are stored. A failing yealm ends the command with its status
and its index in RESULT; those before it are stored, it and those behind it are not. A write into a DEEP segment waits for its
turn at the mover (R77; DESIGN CHOICE, assumption 193). -/
def Obligations.SegWriteStores : Prop :=
  (∀ (tag : Tag) (n : SegId) (first count : Nat) (data : List Byte) (x : Seg) (s : State), comes s (some tag) .timing (.segWrite tag n first count data) = true →
    s.seg? n = some x → x.st = .opened → (x.home = .deep → moverServes (.copy tag) s = true) → 1 ≤ count → count ≤ 65536 →
    first + count ≤ x.len → data.length = count * SegKind.itemSize x.kind → (x.kind = .vector → ∀ j, j < count →
    yealmCheck ((data.drop (4096 * j)).take 4096) false n none (first + j) = Status.OK) →
    ∃ t, exec (.segWrite tag n first count data) s = .next t ∧ OtherSegs n s t ∧ Completed s t tag Status.OK 0 ∧
    (∃ m, t.seg? n = some { x with data := m } ∧ (∀ j, j < count →
    kget? m (first + j) = some ((data.drop (SegKind.itemSize x.kind * j)).take (SegKind.itemSize x.kind))) ∧ ∀ j, (j < first ∨
    first + count ≤ j) → kget? m j = kget? x.data j)) ∧
  (∀ (tag : Tag) (n : SegId) (first count k : Nat) (data : List Byte) (x : Seg) (s : State), comes s (some tag) .timing (.segWrite tag n first count data) = true →
    s.seg? n = some x → x.st = .opened → x.kind = .vector → (x.home = .deep → moverServes (.copy tag) s = true) → count ≤ 65536 →
    first + count ≤ x.len → data.length = count * 4096 → k < count → (∀ j, j < k →
    yealmCheck ((data.drop (4096 * j)).take 4096) false n none (first + j) = Status.OK) →
    yealmCheck ((data.drop (4096 * k)).take 4096) false n none (first + k) ≠ Status.OK →
    ∃ t, exec (.segWrite tag n first count data) s = .next t ∧ OtherSegs n s t ∧
    Completed s t tag (yealmCheck ((data.drop (4096 * k)).take 4096) false n none (first + k)) (first + k) ∧
    (∃ m, t.seg? n = some { x with data := m } ∧ (∀ j, j < k → kget? m (first + j) = some ((data.drop (4096 * j)).take 4096)) ∧
    ∀ j, (j < first ∨ first + k ≤ j) → kget? m j = kget? x.data j)) ∧
  (∀ (tag : Tag) (n : SegId) (first count : Nat) (data : List Byte) (x : Seg) (s : State), comes s (some tag) .timing (.segWrite tag n first count data) = true →
    s.seg? n = some x → x.st = .opened → x.home = .deep → moverServes (.copy tag) s = false → 1 ≤ count → count ≤ 65536 →
    first + count ≤ x.len → ∃ t, exec (.segWrite tag n first count data) s = .next t ∧ t.mem.segs = s.mem.segs ∧
    t.host.compl = s.host.compl ∧ t.mem.movers = if s.mem.movers.contains (.copy tag) then s.mem.movers else s.mem.movers ++ [.copy tag])

/-- SEG_SEAL (R65, R365): an OPEN segment that passes the seal check becomes INACTIVE, and one that does not stays as it is; the
check asks that every item is written and, of a vector segment, the marks of its first and last yealm and one SITE_OCTETS and
BEATS, which the segment keeps. SEG_UNSEAL (Table 2.4): an INACTIVE segment becomes OPEN again with its contents (that one under
migration is refused is DESIGN CHOICE, assumption 196). A segment in another state is refused. -/
def Obligations.SegSealAndUnseal : Prop :=
  (∀ (tag : Tag) (n : SegId) (x : Seg) (s : State), comes s (some tag) .timing (.segSeal tag n) = true → s.seg? n = some x → x.st = .opened →
    (sealCheck x).1 = Status.OK → ∃ t, exec (.segSeal tag n) s = .next t ∧
    t.seg? n = some { x with st := .inactive, octets := (sealCheck x).2.1, beats := (sealCheck x).2.2 } ∧ OtherSegs n s t ∧
    Completed s t tag Status.OK 0) ∧
  (∀ (tag : Tag) (n : SegId) (x : Seg) (s : State), comes s (some tag) .timing (.segSeal tag n) = true → s.seg? n = some x → x.st = .opened →
    (sealCheck x).1 ≠ Status.OK → ∃ t, exec (.segSeal tag n) s = .next t ∧ t.mem = s.mem ∧ Completed s t tag (sealCheck x).1 0) ∧
  (∀ (tag : Tag) (n : SegId) (s : State), comes s (some tag) .timing (.segSeal tag n) = true →
    (s.seg? n).all (fun x => x.st != .opened) = true → ∃ t, exec (.segSeal tag n) s = .next t ∧ t.mem = s.mem ∧
    Completed s t tag Status.SEG_STATE 0) ∧
  (∀ x : Seg, x.data.length < x.len → sealCheck x = (Status.SEG_INCOMPLETE, 0, 0)) ∧
  (∀ x : Seg, x.len ≤ x.data.length → x.kind = .sample → sealCheck x = (Status.OK, 0, 0)) ∧
  (∀ (y0 : List Byte) (x : Seg), x.len ≤ x.data.length → x.kind = .vector → kget? x.data 0 = some y0 →
    sealCheck x = if (∀ e ∈ x.data, Yealm.first e.2 = (e.1 == 0) ∧ Yealm.last e.2 = (e.1 + 1 == x.len) ∧ Yealm.octets e.2 = Yealm.octets y0 ∧
    Yealm.beats e.2 = Yealm.beats y0) then (Status.OK, Yealm.octets y0, Yealm.beats y0) else (Status.YEALM_FORMAT, 0, 0)) ∧
  (∀ (tag : Tag) (n : SegId) (x : Seg) (s : State), comes s (some tag) .timing (.segUnseal tag n) = true → s.seg? n = some x →
    x.st = .inactive → x.moving = none → ∃ t, exec (.segUnseal tag n) s = .next t ∧ t.seg? n = some { x with st := .opened } ∧
    OtherSegs n s t ∧ Completed s t tag Status.OK 0) ∧
  (∀ (tag : Tag) (n : SegId) (s : State), comes s (some tag) .timing (.segUnseal tag n) = true →
    (s.seg? n).all (fun x => x.st != .inactive || x.moving.isSome) = true → ∃ t, exec (.segUnseal tag n) s = .next t ∧ t.mem = s.mem ∧
    Completed s t tag (if (s.seg? n).any (fun x => x.st == .active) then Status.SEG_ACTIVE else Status.SEG_STATE) 0)

/-- SEG_MIGRATE of an INACTIVE segment (Table 2.4): a move to the other tier begins when that tier is present and has room, and
one to its own home completes at once. SEG_MIGRATE_DONE: when the mover serves the move (R77), the segment has its new home and
the command completes; an uncorrectable error met on the way makes it FAILED instead, and the command completes with SEG_STATE
(R79; DESIGN CHOICE, assumption 219); until then the row has no effect. SEG_FREE frees a segment that is not ACTIVE, not FAILED
with references and not moving (that one under migration is refused is DESIGN CHOICE, assumption 196). -/
def Obligations.SegMoveAndFree : Prop :=
  (∀ (tag : Tag) (n : SegId) (home : Tier) (x : Seg) (s : State), comes s (some tag) .timing (.segMigrate tag n home) = true →
    s.seg? n = some x → x.st = .inactive → x.moving = none → home ≠ x.home → (home = .deep → s.deepOn = true) → x.extents ≤ s.tierFree home
    → ∃ t, exec (.segMigrate tag n home) s = .next t ∧ t.seg? n = some { x with moving := some (home, tag) } ∧ OtherSegs n s t ∧
    t.mem.movers = s.mem.movers ++ [.move n.val] ∧ t.host.compl = s.host.compl) ∧
  (∀ (tag : Tag) (n : SegId) (x : Seg) (s : State), comes s (some tag) .timing (.segMigrate tag n x.home) = true → s.seg? n = some x →
    x.st = .inactive → x.moving = none → ∃ t, exec (.segMigrate tag n x.home) s = .next t ∧ t.mem = s.mem ∧ Completed s t tag Status.OK 0) ∧
  (∀ (tag : Tag) (n : SegId) (home : Tier) (c : MoverCheck) (x : Seg) (s : State), timingOn s = true → s.seg? n = some x →
    x.moving = some (home, tag) → moverServes (.move n.val) s = true → (x.home = .deep → c = .ok) →
    ∃ t, exec (.segMigrateDone ⟨n, c⟩) s = .next t ∧ t.seg? n = some { x with home := home, moving := none } ∧ OtherSegs n s t ∧
    t.mem.movers = s.mem.movers.filter (fun m => m != .move n.val) ∧ Completed s t tag Status.OK 0) ∧
  (∀ (tag : Tag) (n : SegId) (home : Tier) (item : Nat) (x : Seg) (s : State), timingOn s = true → s.seg? n = some x →
    x.moving = some (home, tag) → x.home = .deep → moverServes (.move n.val) s = true →
    ∃ t, exec (.segMigrateDone ⟨n, .ue item⟩) s = .next t ∧ t.seg? n = some { x with st := .failed, moving := none } ∧ OtherSegs n s t ∧
    Completed s t tag Status.SEG_STATE 0) ∧
  (∀ (n : SegId) (c : MoverCheck) (s : State), moverServes (.move n.val) s = false → exec (.segMigrateDone ⟨n, c⟩) s = .next s.fresh) ∧
  (∀ (tag : Tag) (n : SegId) (x : Seg) (s : State), comes s (some tag) .timing (.segFree tag n) = true → s.seg? n = some x → x.st ≠ .active →
    (x.st = .failed → x.refs = 0) → x.moving = none → ∃ t, exec (.segFree tag n) s = .next t ∧ t.seg? n = none ∧ OtherSegs n s t ∧
    Completed s t tag Status.OK 0)

/-- SEG_READ (R774, Table 13.9): the items asked for wait to be written to the host buffer, in order, and RESULT is their bytes;
an item never written is open. A read that meets an uncorrectable error of the deep store makes the segment FAILED and completes
(R79; the bytes of that item are open, DESIGN CHOICE, assumption 194), and one of a DEEP segment waits for its turn at the mover
(R77; DESIGN CHOICE, assumption 193). SEG_QUERY: 16 bytes say state, kind and migration, home, BEATS, length, references and
SITE_OCTETS, zeros for a FREE entry. -/
def Obligations.SegReadAndQuery : Prop :=
  (∀ (tag : Tag) (n : SegId) (first count : Nat) (c : MoverCheck) (x : Seg) (s : State), comes s (some tag) .timing (.segRead tag n first ⟨count, c⟩) = true →
    s.seg? n = some x → 1 ≤ count → count ≤ 65536 → first + count ≤ x.len → (x.home = .deep → moverServes (.copy tag) s = true ∧ c = .ok) →
    ∃ t, exec (.segRead tag n first ⟨count, c⟩) s = .next t ∧ t.mem.segs = s.mem.segs ∧
    t.host.waiting = s.host.waiting ++ (chunks (s.n K.pcie_MPS) (((List.range count).map (fun j => itemAt x s.free (first + j))).flatten).length (((List.range count).map (fun j => itemAt x s.free (first + j))).flatten)).map (fun d => (tag, d)) ∧
    Completed s t tag Status.OK (count * SegKind.itemSize x.kind)) ∧
  (∀ (x : Seg) (free i : Nat) (y : List Byte), kget? x.data i = some y → itemAt x free i = y) ∧
  (∀ (tag : Tag) (n : SegId) (first count item : Nat) (x : Seg) (s : State), comes s (some tag) .timing (.segRead tag n first ⟨count, .ue item⟩) = true →
    s.seg? n = some x → 1 ≤ count → count ≤ 65536 → first + count ≤ x.len → x.home = .deep → x.moving = none →
    moverServes (.copy tag) s = true → ∃ t, exec (.segRead tag n first ⟨count, .ue item⟩) s = .next t ∧
    t.seg? n = some { x with st := .failed } ∧ OtherSegs n s t ∧ Completed s t tag Status.OK (count * SegKind.itemSize x.kind)) ∧
  (∀ (tag : Tag) (n : SegId) (first count : Nat) (c : MoverCheck) (x : Seg) (s : State), comes s (some tag) .timing (.segRead tag n first ⟨count, c⟩) = true →
    s.seg? n = some x → 1 ≤ count → count ≤ 65536 → first + count ≤ x.len → x.home = .deep → moverServes (.copy tag) s = false →
    ∃ t, exec (.segRead tag n first ⟨count, c⟩) s = .next t ∧ t.mem.segs = s.mem.segs ∧ t.host.compl = s.host.compl ∧
    t.host.waiting = s.host.waiting ∧
    t.mem.movers = if s.mem.movers.contains (.copy tag) then s.mem.movers else s.mem.movers ++ [.copy tag]) ∧
  (∀ (tag : Tag) (n : SegId) (s : State), comes s (some tag) .timing (.segQuery tag n) = true → ∃ t, exec (.segQuery tag n) s = .next t ∧
    t.mem = s.mem ∧ Completed s t tag Status.OK 0 ∧
    t.host.waiting = s.host.waiting ++ (chunks (s.n K.pcie_MPS) 16 (segInfo (s.seg? n))).map (fun d => (tag, d))) ∧
  (segInfo none = List.replicate 16 0) ∧
  (∀ x : Seg, segInfo (some x) = [BitVec.ofNat 8 (SegSt.code x.st), BitVec.ofNat 8 ((if x.kind = .sample then 1 else 0) + (if x.moving.isSome = true then 128 else 0)), BitVec.ofNat 8 (if x.home = .deep then 1 else 0), BitVec.ofNat 8 x.beats] ++ toBytes 4 x.len ++ toBytes 4 x.refs ++ toBytes 4 x.octets)

/-- R774: a SEG_WRITE or SEG_READ of up to 65,536 items whose first index plus count exceeds the segment's length completes with
Q_FIELD; no segment changes and nothing is copied to the host. The check comes after those of the segment number and state: a
SEG_WRITE that names a segment that is not OPEN is refused with SEG_STATE and a SEG_READ of a FREE one with SEG_BAD_NUMBER,
whatever the index and count. -/
def Obligations.SegBeyondLengthRefused : Prop :=
  (∀ (tag : Tag) (n : SegId) (first count : Nat) (data : List Byte) (x : Seg) (s : State), comes s (some tag) .timing (.segWrite tag n first count data) = true →
    s.seg? n = some x → x.st = .opened → 1 ≤ count → count ≤ 65536 → x.len < first + count →
    ∃ t, exec (.segWrite tag n first count data) s = .next t ∧ t.mem.segs = s.mem.segs ∧ t.host.waiting = s.host.waiting ∧
    Completed s t tag Status.Q_FIELD 0) ∧
  (∀ (tag : Tag) (n : SegId) (first count : Nat) (c : MoverCheck) (x : Seg) (s : State), comes s (some tag) .timing (.segRead tag n first ⟨count, c⟩) = true →
    s.seg? n = some x → 1 ≤ count → count ≤ 65536 → x.len < first + count → ∃ t, exec (.segRead tag n first ⟨count, c⟩) s = .next t ∧
    t.mem.segs = s.mem.segs ∧ t.host.waiting = s.host.waiting ∧ Completed s t tag Status.Q_FIELD 0) ∧
  (∀ (tag : Tag) (n : SegId) (first count : Nat) (data : List Byte) (s : State), comes s (some tag) .timing (.segWrite tag n first count data) = true →
    (s.seg? n).all (fun x => x.st != .opened) = true → 1 ≤ count → count ≤ 65536 → ∃ t, exec (.segWrite tag n first count data) s = .next t ∧
    t.mem.segs = s.mem.segs ∧ t.host.waiting = s.host.waiting ∧ Completed s t tag Status.SEG_STATE 0) ∧
  (∀ (tag : Tag) (n : SegId) (first count : Nat) (c : MoverCheck) (s : State), comes s (some tag) .timing (.segRead tag n first ⟨count, c⟩) = true →
    s.seg? n = none → 1 ≤ count → count ≤ 65536 → ∃ t, exec (.segRead tag n first ⟨count, c⟩) s = .next t ∧ t.mem.segs = s.mem.segs ∧
    t.host.waiting = s.host.waiting ∧ Completed s t tag Status.SEG_BAD_NUMBER 0)

/-- STREAM_OPEN (R81, R590): a CLOSED stream with room for its ring of 128 extents becomes OPEN, bound to its feed queue, with an
empty ring and all pointers 0, and the SITE_OCTETS, BEATS and owner of the command. BEATS code 3 is none (Table 2.2): Q_FIELD
(DEDUCED, assumption 16). -/
def Obligations.StreamOpenBinds : Prop :=
  (∀ (tag : Tag) (n : StreamId) (q : QueueId) (o : BitVec 32) (b : Fin 4) (s : State), comes s (some tag) .timing (.streamOpen tag n q o b) = true →
    s.n (K.sm_STATE n) = StrmSt.closed → 128 ≤ s.hbmFree → b ≠ 3 → ∃ t, exec (.streamOpen tag n q o b) s = .next t ∧ t.g (K.sm_STATE n) = 1 ∧
    t.g (K.sm_FEED_QUEUE n) = (q.val : Int) ∧ t.g (K.sm_WR_PTR n) = 0 ∧ t.g (K.sm_RD_PTR n) = 0 ∧ t.g (K.sm_HIGH n) = 0 ∧
    t.strm n = { octets := o.toNat, beats := b.val, owner := tag.fn } ∧ (∀ m, m ≠ n → t.strm m = s.strm m) ∧
    t.queue? q = (s.queue? q).map (fun x => { x with bound := some n }) ∧
    OtherObjects [K.sm_STATE n, K.sm_FEED_QUEUE n, K.sm_WR_PTR n, K.sm_RD_PTR n, K.sm_HIGH n] s t ∧ Completed s t tag Status.OK 0) ∧
  (∀ (tag : Tag) (n : StreamId) (q : QueueId) (o : BitVec 32) (s : State), comes s (some tag) .timing (.streamOpen tag n q o 3) = true →
    ∃ t, exec (.streamOpen tag n q o 3) s = .next t ∧ t.mem = s.mem ∧ OtherObjects [] s t ∧ Completed s t tag Status.Q_FIELD 0)

/-- STREAM_RESET and STREAM_CLOSE (Table 2.4): a stream that is not CLOSED and that no site references loses its ring and its
pointers; its pending feed entries complete with STREAM_STATE and the yealms they stored (those held, then those fetched that
have stored none), then the command completes. RESET leaves it OPEN, CLOSE leaves it CLOSED with FEED_QUEUE FFFFh. One that a
site references is refused with STREAM_ACTIVE, a CLOSED one with STREAM_STATE. -/
def Obligations.StreamResetAndClose : Prop :=
  (∀ (tag : Tag) (n : StreamId) (s : State), comes s (some tag) .timing (.streamReset tag n) = true → s.n (K.sm_STATE n) ≠ StrmSt.closed →
    (s.strm n).refBy = none → ∃ t, exec (.streamReset tag n) s = .next t ∧ t.g (K.sm_STATE n) = 1 ∧ t.g (K.sm_WR_PTR n) = 0 ∧
    t.g (K.sm_RD_PTR n) = 0 ∧ t.g (K.sm_HIGH n) = 0 ∧ (t.strm n).ring = [] ∧ (t.strm n).held = [] ∧ (∀ m, m ≠ n → t.strm m = s.strm m) ∧
    t.host.queues = s.host.queues ∧
    t.host.compl = s.host.compl ++ (s.strm n).held.map (fun f => ⟨f.tag, Status.STREAM_STATE, f.stored⟩) ++ (feedsInFlight s n).map (fun g => ⟨g, Status.STREAM_STATE, 0⟩) ++ [⟨tag, Status.OK, 0⟩]) ∧
  (∀ (tag : Tag) (n : StreamId) (s : State), comes s (some tag) .timing (.streamClose tag n) = true → s.n (K.sm_STATE n) ≠ StrmSt.closed →
    (s.strm n).refBy = none → ∃ t, exec (.streamClose tag n) s = .next t ∧ t.g (K.sm_STATE n) = 0 ∧ t.g (K.sm_FEED_QUEUE n) = 0xFFFF ∧
    t.g (K.sm_WR_PTR n) = 0 ∧ t.g (K.sm_RD_PTR n) = 0 ∧ t.g (K.sm_HIGH n) = 0 ∧ (t.strm n).ring = [] ∧ (t.strm n).held = [] ∧ (∀ m, m ≠ n →
    t.strm m = s.strm m) ∧
    t.host.compl = s.host.compl ++ (s.strm n).held.map (fun f => ⟨f.tag, Status.STREAM_STATE, f.stored⟩) ++ (feedsInFlight s n).map (fun g => ⟨g, Status.STREAM_STATE, 0⟩) ++ [⟨tag, Status.OK, 0⟩]) ∧
  (∀ (tag : Tag) (n : StreamId) (s : State), comes s (some tag) .timing (.streamReset tag n) = true → (s.n (K.sm_STATE n) = StrmSt.closed ∨
    (s.strm n).refBy.isSome = true) → ∃ t, exec (.streamReset tag n) s = .next t ∧ t.mem = s.mem ∧ OtherObjects [] s t ∧
    Completed s t tag (if s.n (K.sm_STATE n) = StrmSt.closed then Status.STREAM_STATE else Status.STREAM_ACTIVE) 0) ∧
  (∀ (tag : Tag) (n : StreamId) (s : State), comes s (some tag) .timing (.streamClose tag n) = true → (s.n (K.sm_STATE n) = StrmSt.closed ∨
    (s.strm n).refBy.isSome = true) → ∃ t, exec (.streamClose tag n) s = .next t ∧ t.mem = s.mem ∧ OtherObjects [] s t ∧
    Completed s t tag (if s.n (K.sm_STATE n) = StrmSt.closed then Status.STREAM_STATE else Status.STREAM_ACTIVE) 0)

/-- STREAM_FEED and STREAM_FEED_RESUME (R82 to R86, R772), for entries of 1 to 256 yealms: with room in the ring for all of them,
the yealms up to the first that fails a check or that follows LAST enter the ring of the bound stream at WR_PTR, which advances
with each, and LAST ends the stream; the entry completes with OK, the check failed or STREAM_ENDED and the count of yealms
stored, and LAST_STATUS is that status. With no room, or behind a held entry, the entry is held and nothing completes. For an
ENDED stream or one in ERROR an entry stores nothing and completes with STREAM_ENDED or STREAM_STATE. -/
def Obligations.StreamFeedStores : Prop :=
  (∀ (tag : Tag) (n : StreamId) (ys : List (List Byte)) (s : State), (∀ y ∈ ys, y.length = 4096) → 1 ≤ ys.length → ys.length ≤ 256 →
    comes s (some tag) .timing (.streamFeed tag ys.flatten) = true → (s.queue? tag.queue).bind Queue.bound = some n →
    (s.n (K.sm_STATE n) = StrmSt.opened ∨ s.n (K.sm_STATE n) = StrmSt.active) → (s.strm n).held = [] →
    s.n (K.sm_WR_PTR n) + ys.length ≤ s.retain n + 65536 → ∃ t, exec (.streamFeed tag ys.flatten) s = .next t ∧
    OtherObjects [K.sm_WR_PTR n, K.sm_LAST_STATUS n, K.sm_STATE n] s t ∧
    Fed n ys (feedStored n ((s.strm n).octets, (s.strm n).beats) (s.n (K.sm_WR_PTR n)) ys) s t ∧
    t.g (K.sm_LAST_STATUS n) = (feedStatus n ((s.strm n).octets, (s.strm n).beats) (s.n (K.sm_WR_PTR n)) ys : Nat) ∧
    Completed s t tag (feedStatus n ((s.strm n).octets, (s.strm n).beats) (s.n (K.sm_WR_PTR n)) ys) (feedStored n ((s.strm n).octets, (s.strm n).beats) (s.n (K.sm_WR_PTR n)) ys)) ∧
  (∀ (tag : Tag) (n : StreamId) (ys : List (List Byte)) (s : State), (∀ y ∈ ys, y.length = 4096) → 1 ≤ ys.length → ys.length ≤ 256 →
    comes s (some tag) .timing (.streamFeed tag ys.flatten) = true → (s.queue? tag.queue).bind Queue.bound = some n → ((s.strm n).held ≠ [] ∨
    ((s.n (K.sm_STATE n) = StrmSt.opened ∨ s.n (K.sm_STATE n) = StrmSt.active) ∧ s.retain n + 65536 < s.n (K.sm_WR_PTR n) + ys.length)) →
    ∃ t, exec (.streamFeed tag ys.flatten) s = .next t ∧ (t.strm n).held = (s.strm n).held ++ [{ tag := tag, rest := ys }] ∧
    t.host.compl = s.host.compl ∧ OtherObjects [] s t) ∧
  (∀ (tag : Tag) (n : StreamId) (ys : List (List Byte)) (s : State), (∀ y ∈ ys, y.length = 4096) → 1 ≤ ys.length → ys.length ≤ 256 →
    comes s (some tag) .timing (.streamFeed tag ys.flatten) = true → (s.queue? tag.queue).bind Queue.bound = some n →
    (s.n (K.sm_STATE n) = StrmSt.ended ∨ s.n (K.sm_STATE n) = StrmSt.error) → (s.strm n).held = [] →
    ∃ t, exec (.streamFeed tag ys.flatten) s = .next t ∧ t.strm n = s.strm n ∧ OtherObjects [K.sm_LAST_STATUS n] s t ∧
    t.g (K.sm_LAST_STATUS n) = ((if s.n (K.sm_STATE n) = StrmSt.ended then Status.STREAM_ENDED else Status.STREAM_STATE : Nat) : Int) ∧
    Completed s t tag (if s.n (K.sm_STATE n) = StrmSt.ended then Status.STREAM_ENDED else Status.STREAM_STATE) 0) ∧
  (∀ (n : StreamId) (f : Feed) (r : List Feed) (s : State), timingOn s = true → (s.strm n).held = f :: r →
    (s.n (K.sm_STATE n) = StrmSt.opened ∨ s.n (K.sm_STATE n) = StrmSt.active) → f.rest.length ≤ 256 →
    s.n (K.sm_WR_PTR n) + f.rest.length ≤ s.retain n + 65536 → ∃ t, exec (.streamFeedResume n) s = .next t ∧ (t.strm n).held = r ∧
    OtherObjects [K.sm_WR_PTR n, K.sm_LAST_STATUS n, K.sm_STATE n] s t ∧
    Fed n f.rest (feedStored n ((s.strm n).octets, (s.strm n).beats) (s.n (K.sm_WR_PTR n)) f.rest) s t ∧
    Completed s t f.tag (feedStatus n ((s.strm n).octets, (s.strm n).beats) (s.n (K.sm_WR_PTR n)) f.rest) (f.stored + feedStored n ((s.strm n).octets, (s.strm n).beats) (s.n (K.sm_WR_PTR n)) f.rest)) ∧
  (∀ (n : StreamId) (s : State), (s.strm n).held = [] → exec (.streamFeedResume n) s = .next s.fresh)

/-- CS_WRITE of 1 to 4,096 words (R112, R119, R121) and CS_DOMAIN_WRITE at CS_DOMAIN_ADDR (R122): words of the customer region
that pass the load checks are stored in address order up to the first that fails, whose status and address are answered, and no
other word changes; nothing is stored where the range leaves the region (CS_RANGE) or overlaps the window of a site that is not
IDLE (CS_BUSY). A CS_DOMAIN value of no whole words is out of range (R171). CS_READ and CS_VERIFY (R114) send the 20-byte images
of a range, an unwritten word as all ones and an uncorrectable one as read (DESIGN CHOICE, assumption 25), or its CRC-32C, its
count of corrected words and the first uncorrectable address; a CS_READ that meets an uncorrectable word completes with
CS_DATA_ERROR and its address. -/
def Obligations.ControlStoreWriteReadVerify : Prop :=
  (∀ (tag : Tag) (addr : Nat) (words : List MWord) (s : State), comes s (some tag) .timing (.csWrite tag addr words) = true →
    1 ≤ words.length → words.length ≤ 4096 → 0x2000 ≤ addr → addr + words.length ≤ 0x20000 → csBusy s addr words.length = false →
    words.all (fun w => MW.loadCheck w == Status.OK) = true → ∃ t, exec (.csWrite tag addr words) s = .next t ∧
    CsStored addr words words.length s t ∧ t.g K.cs_CS_LAST_STATUS = 0 ∧ OtherObjects [K.cs_CS_LAST_STATUS] s t ∧
    Completed s t tag Status.OK 0) ∧
  (∀ (tag : Tag) (addr k : Nat) (words : List MWord) (s : State), comes s (some tag) .timing (.csWrite tag addr words) = true →
    k < words.length → words.length ≤ 4096 → 0x2000 ≤ addr → addr + words.length ≤ 0x20000 → csBusy s addr words.length = false →
    (∀ j, j < k → MW.loadCheck (words.getD j 0) = Status.OK) → MW.loadCheck (words.getD k 0) ≠ Status.OK →
    ∃ t, exec (.csWrite tag addr words) s = .next t ∧ CsStored addr words k s t ∧
    t.g K.cs_CS_LAST_STATUS = (MW.loadCheck (words.getD k 0) : Nat) ∧ t.g K.cs_CS_LAST_ADDR = (addr + k : Nat) ∧
    OtherObjects [K.cs_CS_LAST_STATUS, K.cs_CS_LAST_ADDR] s t ∧ Completed s t tag (MW.loadCheck (words.getD k 0)) (addr + k)) ∧
  (∀ (tag : Tag) (addr : Nat) (words : List MWord) (s : State), comes s (some tag) .timing (.csWrite tag addr words) = true →
    1 ≤ words.length → words.length ≤ 4096 → (addr < 0x2000 ∨ 0x20000 < addr + words.length ∨ csBusy s addr words.length = true) →
    ∃ t, exec (.csWrite tag addr words) s = .next t ∧ t.mem = s.mem ∧ OtherObjects [K.cs_CS_LAST_STATUS] s t ∧
    Completed s t tag (if addr < 0x2000 ∨ 0x20000 < addr + words.length then Status.CS_RANGE else Status.CS_BUSY) 0) ∧
  (∀ (tag : Tag) (addr count : Nat) (errs : List (Nat × CsErr)) (s : State), comes s (some tag) .timing (.csRead tag addr count errs) = true →
    1 ≤ count → count ≤ 4096 → addr + count ≤ 0x20000 → ∃ t, exec (.csRead tag addr count errs) s = .next t ∧ t.mem = s.mem ∧
    t.host.waiting = s.host.waiting ++ (chunks (s.n K.pcie_MPS) (csBytes s errs addr count).length (csBytes s errs addr count)).map (fun d => (tag, d)) ∧
    t.g K.cs_CS_LAST_STATUS = (if csBad errs addr count = [] then 0 else (Status.CS_DATA_ERROR : Int)) ∧
    OtherObjects [K.cs_CS_LAST_STATUS, K.cs_CS_LAST_ADDR, K.cs_CS_CE_COUNT] s t ∧
    (if csBad errs addr count = [] then Completed s t tag Status.OK 0 else t.g K.cs_CS_LAST_ADDR = ((csBad errs addr count).headD 0 : Nat) ∧
    Completed s t tag Status.CS_DATA_ERROR ((csBad errs addr count).headD 0))) ∧
  (∀ (tag : Tag) (addr count : Nat) (errs : List (Nat × CsErr)) (s : State), comes s (some tag) .timing (.csVerify tag addr count errs) = true →
    1 ≤ count → count ≤ 131072 → addr + count ≤ 0x20000 → ∃ t, exec (.csVerify tag addr count errs) s = .next t ∧ t.mem = s.mem ∧
    t.host.waiting = s.host.waiting ++ (chunks (s.n K.pcie_MPS) 12 (toBytes 4 (crc32c (csBytes s errs addr count)) ++ toBytes 4 (errs.filter (fun e => e.2 == .single && decide (addr ≤ e.1) && decide (e.1 < addr + count))).length ++ toBytes 4 ((csBad errs addr count).headD 0xFFFFFFFF))).map (fun d => (tag, d)) ∧
    t.g K.cs_CS_LAST_STATUS = 0 ∧ OtherObjects [K.cs_CS_LAST_STATUS, K.cs_CS_CE_COUNT] s t ∧ Completed s t tag Status.OK 0) ∧
  (∀ (errs : List (Nat × CsErr)) (a : Nat) (s : State), (∀ e ∈ errs, e.1 = a → e.2 = .single) →
    csRead s errs a = (kget? s.mem.cs a).getD (BitVec.allOnes 160)) ∧
  (∀ (tag : Tag) (addr count : Nat) (errs : List (Nat × CsErr)) (s : State), 1 ≤ count → 0x20000 < addr + count → (count ≤ 4096 →
    comes s (some tag) .timing (.csRead tag addr count errs) = true → ∃ t, exec (.csRead tag addr count errs) s = .next t ∧ t.mem = s.mem ∧
    t.host.waiting = s.host.waiting ∧ Completed s t tag Status.CS_RANGE 0) ∧ (count ≤ 131072 →
    comes s (some tag) .timing (.csVerify tag addr count errs) = true → ∃ t, exec (.csVerify tag addr count errs) s = .next t ∧
    t.mem = s.mem ∧ t.host.waiting = s.host.waiting ∧ Completed s t tag Status.CS_RANGE 0)) ∧
  (∀ (p : Path) (l : List Byte) (s : State), domRuns s .timing = true → l.length % 20 = 0 → l.length ≤ 81920 →
    0x2000 ≤ s.n K.csa_CS_DOMAIN_ADDR → s.n K.csa_CS_DOMAIN_ADDR + l.length / 20 ≤ 0x20000 →
    csBusy s (s.n K.csa_CS_DOMAIN_ADDR) (l.length / 20) = false → (wordsOf l).all (fun w => MW.loadCheck w == Status.OK) = true →
    ∃ t, exec (.csDomainWrite p l) s = .next t ∧ CsStored (s.n K.csa_CS_DOMAIN_ADDR) (wordsOf l) (l.length / 20) s t ∧
    t.blob K.csd_CS_DOMAIN = l ∧ t.g K.cs_CS_LAST_STATUS = 0 ∧ OtherObjects [K.cs_CS_LAST_STATUS] s t ∧
    t.out = [.answer p Status.OK 0 0 []]) ∧
  (∀ (p : Path) (k : Nat) (l : List Byte) (s : State), domRuns s .timing = true → l.length % 20 = 0 → l.length ≤ 81920 →
    k < (wordsOf l).length → 0x2000 ≤ s.n K.csa_CS_DOMAIN_ADDR → s.n K.csa_CS_DOMAIN_ADDR + l.length / 20 ≤ 0x20000 →
    csBusy s (s.n K.csa_CS_DOMAIN_ADDR) (l.length / 20) = false → (∀ j, j < k → MW.loadCheck ((wordsOf l).getD j 0) = Status.OK) →
    MW.loadCheck ((wordsOf l).getD k 0) ≠ Status.OK → ∃ t, exec (.csDomainWrite p l) s = .next t ∧
    CsStored (s.n K.csa_CS_DOMAIN_ADDR) (wordsOf l) k s t ∧ t.g K.cs_CS_LAST_ADDR = (s.n K.csa_CS_DOMAIN_ADDR + k : Nat) ∧
    t.out = [.answer p (MW.loadCheck ((wordsOf l).getD k 0)) (s.n K.csa_CS_DOMAIN_ADDR + k) 0 []]) ∧
  (∀ (p : Path) (l : List Byte) (s : State), domRuns s .timing = true → (l.length % 20 ≠ 0 ∨ s.n K.csa_CS_DOMAIN_ADDR < 0x2000 ∨
    csBusy s (s.n K.csa_CS_DOMAIN_ADDR) (wordsOf l).length = true) → ∃ t, exec (.csDomainWrite p l) s = .next t ∧ t.mem = s.mem ∧
    t.out = [.answer p (if l.length % 20 ≠ 0 then Status.OD_RANGE else if s.n K.csa_CS_DOMAIN_ADDR < 0x2000 ∨
    0x20000 < s.n K.csa_CS_DOMAIN_ADDR + (wordsOf l).length then Status.CS_RANGE else Status.CS_BUSY) 0 0 []])

/-- A site command of any mask, by a queue command or by SITE_CMD, is carried out on each of its sites in ascending order (START
excepted, which is stated in SiteRunCommands), is answered with the status of the lowest refused site, and counts in CMD_COUNT
only where SITE_CMD delivered it (R181, R183). Of one site (Table 4.3): LOAD takes an IDLE site with channels to LOADED; ARM
takes a LOADED site that passes the arming checks and whose octets are locked to ARMED, with its sequencer at START_ADDR, its
admission reserved and its counts cleared; one that fails a check stays LOADED with the status of the check; UNLOAD takes a
LOADED or STOPPED site, and a FAULTED one whose episode is no longer handled, to IDLE, RESET a STOPPED or such a FAULTED one to
LOADED, and both release its references (R67). In any other state SITE_STATE is answered. -/
def Obligations.SiteLoadArmUnload : Prop :=
  (∀ (p : (Option Tag → SiteMask → Instr) × (SiteId → State →
    Nat × State)) (o : Option Tag) (m : SiteMask) (s : State), p ∈ [(.load, loadSite), (.unload, leaveSite [SS.loaded, SS.stopped, SS.faulted] SS.idle), (.arm, armSiteCmd), (.pause, pauseSite), (.resume, resumeCmd), (.stop, endSite 1 2), (.abort, endSite 0 3), (.reset, leaveSite [SS.stopped, SS.faulted] SS.loaded)] →
    comes s o .timing (p.1 o m) = true → exec (p.1 o m) s = .next (siteDone o (eachCmd p.2 m (siteBegun o s)))) ∧
  (∀ (o : Option Tag) (i : SiteId) (s : State), comes s o .timing (.load o (oneSite i)) = true → s.st i = SS.idle → s.chans i ≠ [] →
    ∃ t, exec (.load o (oneSite i)) s = .next t ∧ t.g (K.st_STATE i) = 1 ∧ t.g (K.st_LAST_CMD_STATUS i) = 0 ∧
    OtherObjects [K.st_STATE i, K.st_LAST_CMD_STATUS i, K.sc_CMD_COUNT] s t ∧ SiteAnswered s t o Status.OK) ∧
  (∀ (o : Option Tag) (i : SiteId) (s : State), comes s o .timing (.load o (oneSite i)) = true → (s.st i ≠ SS.idle ∨ s.chans i = []) →
    ∃ t, exec (.load o (oneSite i)) s = .next t ∧
    t.g (K.st_LAST_CMD_STATUS i) = (if s.st i ≠ SS.idle then (Status.SITE_STATE : Int) else (Status.SITE_EMPTY : Int)) ∧
    OtherObjects [K.st_LAST_CMD_STATUS i, K.sc_CMD_COUNT] s t ∧
    SiteAnswered s t o (if s.st i ≠ SS.idle then Status.SITE_STATE else Status.SITE_EMPTY)) ∧
  (∀ (o : Option Tag) (i : SiteId) (s : State), comes s o .timing (.arm o (oneSite i)) = true → s.st i = SS.loaded →
    (armCheck i (siteBegun o s)).1 = Status.OK → (s.chans i).all (fun (c : ChanId) => s.b (K.ch_WITHY_LOCKED c)) = true →
    ∃ t, exec (.arm o (oneSite i)) s = .next t ∧ t.g (K.st_STATE i) = 2 ∧ t.g (K.st_LAST_CMD_STATUS i) = 0 ∧
    t.g (K.md_LAST_ARM_STATUS i) = 0 ∧ t.g (K.md_RESERVED_NOW i) = 1 ∧ t.g (K.sr_FRAMES i) = 0 ∧ t.g (K.st_STOP_CAUSE i) = 0 ∧
    (t.site i).next = s.n (K.sq_START_ADDR i) ∧ (t.site i).halted = false ∧ (t.site i).fifo = [] ∧ SiteAnswered s t o Status.OK) ∧
  (∀ (o : Option Tag) (i : SiteId) (s : State), comes s o .timing (.arm o (oneSite i)) = true → s.st i = SS.loaded →
    (armCheck i (siteBegun o s)).1 ≠ Status.OK → ∃ t, exec (.arm o (oneSite i)) s = .next t ∧ t.g (K.st_STATE i) = 1 ∧
    t.g (K.st_LAST_CMD_STATUS i) = ((armCheck i (siteBegun o s)).1 : Nat) ∧ t.sites = s.sites ∧
    SiteAnswered s t o (armCheck i (siteBegun o s)).1) ∧
  (∀ (o : Option Tag) (i : SiteId) (s : State), comes s o .timing (.unload o (oneSite i)) = true → (s.st i = SS.loaded ∨
    s.st i = SS.stopped ∨ (s.st i = SS.faulted ∧ siteFaultOpen (siteBegun o s) i = false)) → (s.site i).refs = [] →
    ∃ t, exec (.unload o (oneSite i)) s = .next t ∧ t.g (K.st_STATE i) = 0 ∧ t.g (K.st_LAST_CMD_STATUS i) = 0 ∧
    OtherObjects [K.st_STATE i, K.st_LAST_CMD_STATUS i, K.sc_CMD_COUNT] s t ∧ SiteAnswered s t o Status.OK) ∧
  (∀ (o : Option Tag) (i : SiteId) (n : Nat) (x : Seg) (s : State), comes s o .timing (.reset o (oneSite i)) = true → (s.st i = SS.stopped ∨
    (s.st i = SS.faulted ∧ siteFaultOpen (siteBegun o s) i = false)) → (s.site i).refs = [(false, n)] → s.seg? n = some x → x.st = .active →
    x.refs = 1 → ∃ t, exec (.reset o (oneSite i)) s = .next t ∧ t.g (K.st_STATE i) = 1 ∧ t.g (K.st_LAST_CMD_STATUS i) = 0 ∧
    (t.site i).refs = [] ∧ t.seg? n = some { x with refs := 0, st := .inactive } ∧ OtherSegs n s t ∧
    OtherObjects [K.st_STATE i, K.st_LAST_CMD_STATUS i, K.sc_CMD_COUNT] s t ∧ SiteAnswered s t o Status.OK) ∧
  (∀ (p : (Option Tag → SiteMask →
    Instr) × List Nat) (o : Option Tag) (i : SiteId) (s : State), p ∈ [(.arm, [SS.loaded]), (.unload, [SS.loaded, SS.stopped, SS.faulted]), (.reset, [SS.stopped, SS.faulted])] →
    comes s o .timing (p.1 o (oneSite i)) = true → p.2.contains (s.st i) = false → ∃ t, exec (p.1 o (oneSite i)) s = .next t ∧
    t.g (K.st_LAST_CMD_STATUS i) = Status.SITE_STATE ∧ OtherObjects [K.st_LAST_CMD_STATUS i, K.sc_CMD_COUNT] s t ∧ t.mem = s.mem ∧
    t.sites = s.sites ∧ SiteAnswered s t o Status.SITE_STATE)

/-- Table 4.2: START of ARMED sites in command mode makes them wait for READY together, and starts none where one of them may not
be started (R191; the status that a site without a fault of its own then keeps is DESIGN CHOICE, assumption 46). Of one site:
PAUSE of a pausable RUNNING site sets its PAUSE request; RESUME of a PAUSED site lets it wait for its frames; STOP and ABORT of a
RUNNING site set their requests, and of an ARMED or PAUSED site they end the run at once with causes 2 and 3. A command that the
site's state does not allow answers SITE_STATE. Each comes by a queue command or by SITE_CMD. -/
def Obligations.SiteRunCommands : Prop :=
  (∀ (o : Option Tag) (m : SiteMask) (s : State), comes s o .timing (.start o m) = true → m ≠ 0 → (∀ i ∈ sitesOf m, s.st i = SS.armed ∧
    s.g (K.cf_START_MODE i) ≠ 1) → ∃ t, exec (.start o m) s = .next t ∧ t.mem.starts = s.mem.starts ++ [m] ∧
    (∀ i ∈ sitesOf m, t.g (K.st_LAST_CMD_STATUS i) = 0) ∧
    OtherObjects (K.sc_CMD_COUNT :: (sitesOf m).map (fun (i : SiteId) => K.st_LAST_CMD_STATUS i)) s t ∧ SiteAnswered s t o Status.OK) ∧
  (∀ (o : Option Tag) (m : SiteMask) (i : SiteId) (s : State), comes s o .timing (.start o m) = true → i ∈ sitesOf m → (s.st i ≠ SS.armed ∨
    s.g (K.cf_START_MODE i) = 1) → ∃ t, exec (.start o m) s = .next t ∧ t.mem.starts = s.mem.starts ∧
    t.g (K.st_LAST_CMD_STATUS i) = (if s.st i ≠ SS.armed then (Status.SITE_STATE : Int) else (Status.SITE_START_MODE : Int)) ∧
    OtherObjects (K.sc_CMD_COUNT :: (sitesOf m).map (fun (i : SiteId) => K.st_LAST_CMD_STATUS i)) s t) ∧
  (∀ (o : Option Tag) (i : SiteId) (s : State), comes s o .timing (.pause o (oneSite i)) = true → s.st i = SS.running →
    s.b (K.cf_PAUSABLE i) = true → ∃ t, exec (.pause o (oneSite i)) s = .next t ∧ (t.n (K.sr_PENDING_INT i)).testBit 2 = true ∧
    t.g (K.st_LAST_CMD_STATUS i) = 0 ∧ OtherObjects [K.sr_PENDING_INT i, K.st_LAST_CMD_STATUS i, K.sc_CMD_COUNT] s t ∧
    SiteAnswered s t o Status.OK) ∧
  (∀ (o : Option Tag) (i : SiteId) (s : State), comes s o .timing (.pause o (oneSite i)) = true → (s.st i ≠ SS.running ∨
    s.b (K.cf_PAUSABLE i) = false) → ∃ t, exec (.pause o (oneSite i)) s = .next t ∧
    OtherObjects [K.st_LAST_CMD_STATUS i, K.sc_CMD_COUNT] s t ∧
    SiteAnswered s t o (if s.st i ≠ SS.running then Status.SITE_STATE else Status.SITE_NOT_PAUSABLE)) ∧
  (∀ (o : Option Tag) (i : SiteId) (s : State), comes s o .timing (.resume o (oneSite i)) = true → s.st i = SS.paused →
    ∃ t, exec (.resume o (oneSite i)) s = .next t ∧ t.site i = { s.site i with resuming := true } ∧ t.g (K.st_LAST_CMD_STATUS i) = 0 ∧
    OtherObjects [K.st_LAST_CMD_STATUS i, K.sc_CMD_COUNT] s t ∧ SiteAnswered s t o Status.OK) ∧
  (∀ (o : Option Tag) (i : SiteId) (s : State), comes s o .timing (.stop o (oneSite i)) = true → s.st i = SS.running →
    ∃ t, exec (.stop o (oneSite i)) s = .next t ∧
    t.n (K.sr_PENDING_INT i) = (if (s.n (K.sr_PENDING_INT i)).testBit 1 then s.n (K.sr_PENDING_INT i) else s.n (K.sr_PENDING_INT i) + 2) ∧
    t.g (K.st_LAST_CMD_STATUS i) = 0 ∧ OtherObjects [K.sr_PENDING_INT i, K.st_LAST_CMD_STATUS i, K.sc_CMD_COUNT] s t ∧
    SiteAnswered s t o Status.OK) ∧
  (∀ (o : Option Tag) (i : SiteId) (s : State), comes s o .timing (.abort o (oneSite i)) = true → s.st i = SS.running →
    (s.n (K.sr_PENDING_INT i)).testBit 0 = false → ∃ t, exec (.abort o (oneSite i)) s = .next t ∧
    t.n (K.sr_PENDING_INT i) = s.n (K.sr_PENDING_INT i) + 1 ∧ (t.site i).abortAt = s.now ∧ t.g (K.st_LAST_CMD_STATUS i) = 0 ∧
    OtherObjects [K.sr_PENDING_INT i, K.st_LAST_CMD_STATUS i, K.sc_CMD_COUNT] s t ∧ SiteAnswered s t o Status.OK) ∧
  (∀ (o : Option Tag) (i : SiteId) (s : State), comes s o .timing (.stop o (oneSite i)) = true → (s.st i = SS.armed ∨ s.st i = SS.paused) →
    ∃ t, exec (.stop o (oneSite i)) s = .next t ∧ t.g (K.st_STATE i) = 5 ∧ t.g (K.st_STOP_CAUSE i) = 2 ∧ (t.site i).fifo = [] ∧
    (t.site i).halted = true ∧ SiteAnswered s t o Status.OK) ∧
  (∀ (o : Option Tag) (i : SiteId) (s : State), comes s o .timing (.abort o (oneSite i)) = true → (s.st i = SS.armed ∨ s.st i = SS.paused)
    → ∃ t, exec (.abort o (oneSite i)) s = .next t ∧ t.g (K.st_STATE i) = 5 ∧ t.g (K.st_STOP_CAUSE i) = 3 ∧ (t.site i).fifo = [] ∧
    (t.site i).halted = true ∧ SiteAnswered s t o Status.OK) ∧
  (∀ (p : Option Tag → SiteMask → Instr) (o : Option Tag) (i : SiteId) (s : State), p ∈ [.resume, .stop, .abort] →
    comes s o .timing (p o (oneSite i)) = true → s.active i = false → ∃ t, exec (p o (oneSite i)) s = .next t ∧
    t.g (K.st_LAST_CMD_STATUS i) = Status.SITE_STATE ∧ OtherObjects [K.st_LAST_CMD_STATUS i, K.sc_CMD_COUNT] s t ∧
    SiteAnswered s t o Status.SITE_STATE)

/-- An ARMED site with 21 frames in its FIFO, or with all of them where its program has ended, a full staging area, no
calibration in the way, the heads of its engines' sample steps loaded (R387; DESIGN CHOICE, assumption 201) and no wait for an
event reports READY (R190; DESIGN CHOICE, assumption 48). The READY sites of a START run in one SCLK, in ascending order (R191),
and a site that runs enters RUNNING at its frame 0. A halted or pausing RUNNING site whose frames have left the balls and are
latched and logged enters STOPPED with its cause (R198) or PAUSED (R196). A resumed PAUSED site with 16 frames enters RUNNING and
counts a pause (R160, R197). The frames taken are such as the formatters may take. The timing group runs. -/
def Obligations.SiteTransitions : Prop :=
  (∀ (i : SiteId) (s : State), timingOn s = true → s.st i = SS.armed → (s.site i).stall = none → ((s.site i).fifo.length = 21 ∨
    (s.site i).halted = true ∨ (s.site i).pausing = true) → stagingFull s i = true → calFree s i = true → headsLoaded s i = true →
    waitsEvent s i = false → ∃ t, exec (.ready i) s = .next t ∧ t.g (K.st_READY i) = 1 ∧ OtherObjects [K.st_READY i] s t ∧
    t.sites = s.sites) ∧
  (∀ (m : SiteMask) (s : State), timingOn s = true → s.mem.starts.contains m = true → (∀ i ∈ sitesOf m, s.st i = SS.armed ∧
    s.b (K.st_READY i) = true) →
    exec (.startWhenReady m) s = .next (eachSite runSite m { s.fresh with mem := { s.mem with starts := s.mem.starts.filter (fun k => (k &&& m) == 0) } })) ∧
  (∀ (i : SiteId) (f : Frame) (r : List Frame) (s : State), timingOn s = true → s.mem.starts = [oneSite i] → s.st i = SS.armed →
    s.b (K.st_READY i) = true → (s.site i).fifo = f :: r → Takes i f (startState i s) → ∃ t, exec (.startWhenReady (oneSite i)) s = .next t ∧
    t.g (K.st_STATE i) = 3 ∧ t.g (K.st_READY i) = 0 ∧ t.mem.starts = [] ∧ (t.site i).origin = s.now ∧ (t.site i).fifo.length = r.length) ∧
  (∀ (i : SiteId) (s : State), timingOn s = true → s.st i = SS.running → (s.site i).halted = true → drained (s.site i) = true →
    ∃ t, exec (.siteStopped i) s = .next t ∧ t.g (K.st_STATE i) = 5 ∧ t.g (K.st_STOP_CAUSE i) = ((s.site i).stopAt.elim 0 (·.2) : Nat) ∧
    t.g (K.sr_PENDING_INT i) = 0 ∧ t.g (K.st_READY i) = 0 ∧ (t.site i).halted = true) ∧
  (∀ (i : SiteId) (s : State), timingOn s = true → s.st i = SS.running → (s.site i).pausing = true → drained (s.site i) = true →
    (s.n (K.sr_PENDING_INT i)).testBit 0 = false → (s.n (K.sr_PENDING_INT i)).testBit 1 = false → ∃ t, exec (.sitePaused i) s = .next t ∧
    t.g (K.st_STATE i) = 4 ∧ (t.n (K.sr_PENDING_INT i)).testBit 2 = false ∧ (t.site i).pausing = false) ∧
  (∀ (i : SiteId) (f : Frame) (r : List Frame) (s : State), timingOn s = true → s.st i = SS.paused → (s.site i).resuming = true →
    mayTake (s.site i) = true → (s.site i).fifo = f :: r → f.pad = true → tsetsValid f i = true → s.g (K.st_PAUSES i) < 4294967295 →
    ∃ t, exec (.resumeRunning i) s = .next t ∧ t.g (K.st_STATE i) = 3 ∧ t.g (K.st_PAUSES i) = s.g (K.st_PAUSES i) + 1 ∧
    (t.site i).resuming = false ∧ (t.site i).fifo.length = r.length)

/-- R119: a CS_WRITE of 1 to 4,096 words of the customer region, whose range overlaps the window of some site that is not IDLE,
is refused with CS_BUSY; the control store and every other memory are as before, and so is every object but CS_LAST_STATUS. -/
def Obligations.CsWriteOverWindowIsBusy : Prop :=
  ∀ (tag : Tag) (addr : Nat) (words : List MWord) (i : SiteId) (s : State), comes s (some tag) .timing (.csWrite tag addr words) = true →
    s.st i ≠ SS.idle → s.n (K.sq_WIN_BASE i) < addr + words.length → addr ≤ s.n (K.sq_WIN_LIMIT i) → 1 ≤ words.length → words.length ≤ 4096 →
    0x2000 ≤ addr → addr + words.length ≤ 0x20000 → ∃ t, exec (.csWrite tag addr words) s = .next t ∧ t.mem = s.mem ∧
    t.g K.cs_CS_LAST_STATUS = (Status.CS_BUSY : Nat) ∧ OtherObjects [K.cs_CS_LAST_STATUS] s t ∧ Completed s t tag Status.CS_BUSY 0

/-- The word at the site's next address executes (R125, R126, R129 to R131, R135), where it is no eave point and parks no site:
with repetitions left it stays at its address, whatever its OP; in its last one CONT goes on at the next word; JMP and CALL go to
TGT when their condition holds and else on, a CALL that does pushing its return address; RET with its condition returns to the
top of the stack and takes it off; LOOP goes to TGT while its counter is above 1, and a counter above 0 loses one. A fetch error
that cannot be corrected parks the site with CS_UE (R114), a next address that the site may not execute with CS_PROTECT (R115).
-/
def Obligations.WordsContJmpCallRetLoop : Prop :=
  (∀ (p : Nat × (SiteId → Ecc → Instr)) (i : SiteId) (c : Ecc) (w : MWord) (e : Exec) (s : State), p ∈ opRows → c ≠ .double →
    Executes i w e s → MW.op w = p.1 → e.left ≠ 0 → ∃ t, exec (p.2 i c) s = .next t ∧ Executed i e e.addr s t ∧ (t.site i).mid = true ∧
    (t.site i).stack = (s.site i).stack) ∧
  (∀ (i : SiteId) (c : Ecc) (w : MWord) (e : Exec) (s : State), c ≠ .double → Executes i w e s → MW.op w = 0 → e.left = 0 →
    ∃ t, exec (.cont i c) s = .next t ∧ Executed i e (e.addr + 1) s t ∧ (t.site i).mid = false ∧ (t.site i).stack = (s.site i).stack) ∧
  (∀ (i : SiteId) (c : Ecc) (w : MWord) (e : Exec) (s : State), c ≠ .double → Executes i w e s → MW.op w = 1 → e.left = 0 →
    ∃ t, exec (.jmp i c) s = .next t ∧ Executed i e (if e.holds then MW.tgt w else e.addr + 1) s t ∧ (t.site i).stack = (s.site i).stack) ∧
  (∀ (i : SiteId) (c : Ecc) (w : MWord) (e : Exec) (s : State), c ≠ .double → Executes i w e s → MW.op w = 2 → e.left = 0 →
    ∃ t, exec (.call i c) s = .next t ∧ Executed i e (if e.holds then MW.tgt w else e.addr + 1) s t ∧
    (t.site i).stack = (if e.holds then (e.addr + 1, if e.vop = 6 then some ((s.site i).entry, (s.site i).ord + s.n (K.sq_VEC_PER_FRAME i)) else none) :: (s.site i).stack else (s.site i).stack)) ∧
  (∀ (i : SiteId) (c : Ecc) (w : MWord) (e : Exec) (a : Nat) (p : Option (Nat × Nat)) (r : List (Nat × Option (Nat × Nat))) (s : State), c ≠ .double →
    Executes i w e s → MW.op w = 3 → e.left = 0 → (s.site i).stack = (a, p) :: r → ∃ t, exec (.ret i c) s = .next t ∧
    Executed i e (if e.holds then a else e.addr + 1) s t ∧ (t.site i).stack = (if e.holds then r else (a, p) :: r)) ∧
  (∀ (i : SiteId) (c : Ecc) (w : MWord) (e : Exec) (s : State), c ≠ .double → Executes i w e s → MW.op w = 4 → MW.lcop w = 0 → e.left = 0 →
    0 ≤ s.g (K.lc_LC i (MW.lcsel w)) → ∃ t, exec (.loop i c) s = .next t ∧
    Executed i e (if 1 < s.g (K.lc_LC i (MW.lcsel w)) then MW.tgt w else e.addr + 1) s t ∧
    t.g (K.lc_LC i (MW.lcsel w)) = (if 0 < s.g (K.lc_LC i (MW.lcsel w)) then s.g (K.lc_LC i (MW.lcsel w)) - 1 else 0)) ∧
  (∀ (p : Nat × (SiteId → Ecc → Instr)) (i : SiteId) (w : MWord) (s : State), p ∈ opRows → seqRuns s i = true →
    kget? s.mem.cs (s.site i).next = some w → mayExecute s i (s.site i).next = true → ∃ t, exec (p.2 i .double) s = .next t ∧
    t.g (K.st_STATE i) = 6 ∧ t.g (K.st_FAULT_SOURCE i) = (Src.CS_UE : Nat)) ∧
  (∀ (p : Nat × (SiteId → Ecc → Instr)) (i : SiteId) (c : Ecc) (s : State), p ∈ opRows → seqRuns s i = true →
    (kget? s.mem.cs (s.site i).next = none ∨ mayExecute s i (s.site i).next = false) → ∃ t, exec (p.2 i c) s = .next t ∧
    t.g (K.st_STATE i) = 6 ∧ t.g (K.st_FAULT_SOURCE i) = (Src.CS_PROTECT i : Nat))

/-- Of a word that is no eave point and parks no site: WAIT executes again until its condition holds; WAITT also takes one from a
counter above 0 and leaves to TGT when that is 0 (R132); HALT with its condition ends the run with its frame as the last (R198);
OP PAUSE with its condition makes a pausable site pause, and ends the run of another, with PAUSE_REFUSED (R195); HOSTEVT with its
condition posts a site event with the cycle number of its frame, here of a word that repeats the last vector. HALT and OP PAUSE
are stated of words that are no safe points and while no first-fail stop is due. -/
def Obligations.WordsWaitHaltPauseHostevt : Prop :=
  (∀ (i : SiteId) (c : Ecc) (w : MWord) (e : Exec) (s : State), c ≠ .double → Executes i w e s → MW.op w = 5 → e.left = 0 →
    ∃ t, exec (.wait i c) s = .next t ∧ Executed i e (if e.holds then e.addr + 1 else e.addr) s t) ∧
  (∀ (i : SiteId) (c : Ecc) (w : MWord) (e : Exec) (s : State), c ≠ .double → Executes i w e s → MW.op w = 6 → MW.lcop w = 0 → e.left = 0 →
    0 ≤ s.g (K.lc_LC i (MW.lcsel w)) → ∃ t, exec (.waitt i c) s = .next t ∧
    Executed i e (if e.holds then e.addr + 1 else if s.g (K.lc_LC i (MW.lcsel w)) = 0 then MW.tgt w else e.addr) s t ∧
    t.g (K.lc_LC i (MW.lcsel w)) = (if e.holds = false ∧
    0 < s.g (K.lc_LC i (MW.lcsel w)) then s.g (K.lc_LC i (MW.lcsel w)) - 1 else s.g (K.lc_LC i (MW.lcsel w)))) ∧
  (∀ (i : SiteId) (c : Ecc) (w : MWord) (e : Exec) (s : State), c ≠ .double → Executes i w e s → GoesOn i w s → MW.op w = 7 → e.left = 0 →
    ∃ t, exec (.halt i c) s = .next t ∧ Executed i e (e.addr + 1) s t ∧ (t.site i).halted = e.holds ∧
    (t.site i).stopAt = (if e.holds then some (mergeStop (s.site i).stopAt (e.g, 1)) else (s.site i).stopAt)) ∧
  (∀ (i : SiteId) (c : Ecc) (w : MWord) (e : Exec) (s : State), c ≠ .double → Executes i w e s → GoesOn i w s → MW.op w = 8 → e.left = 0 →
    ∃ t, exec (.opPause i c) s = .next t ∧ Executed i e (e.addr + 1) s t ∧ (t.site i).pausing = (e.holds && s.b (K.cf_PAUSABLE i)) ∧
    (t.site i).halted = (e.holds && !s.b (K.cf_PAUSABLE i)) ∧
    (t.site i).stopAt = (if e.holds && !s.b (K.cf_PAUSABLE i) then some (mergeStop (s.site i).stopAt (e.g, 1)) else (s.site i).stopAt)) ∧
  (∀ (i : SiteId) (c : Ecc) (w : MWord) (e : Exec) (s : State), c ≠ .double → Executes i w e s → MW.op w = 9 → MW.vop w = 1 → e.left = 0 →
    (s.site i).pad = none → (s.site i).evFifo.length < 64 → ∃ t, exec (.hostevt i c) s = .next t ∧ Executed i e (e.addr + 1) s t ∧
    (t.site i).evFifo = (s.site i).evFifo ++ (if e.holds then [eventEntry 1 i (nextCycle (s.site i)) (s.site i).evSeq (MW.immd w % 65536)] else []))

/-- An ABORT that has waited longer than ABORT_WAIT, and 4,096 executions without a safe point, park the site with their source
(R159, R163); a park takes an ARMED, RUNNING or PAUSED site to FAULTED with the source, its FIFO emptied and its sequencer ended
(R180, R187), and leaves the states of the other sites as they are. STALL_END assembles the frame of a word whose vectors are
there (R154), and leaves a word that lacks them waiting. -/
def Obligations.SequencerParksAndStallEnds : Prop :=
  (∀ (i : SiteId) (s : State), timingOn s = true → s.st i = SS.running → (s.n (K.sr_PENDING_INT i)).testBit 0 = true →
    s.n (K.sq_ABORT_WAIT i) < (s.now - (s.site i).abortAt) * 1250000 → ∃ t, exec (.abortForced i) s = .next t ∧ t.g (K.st_STATE i) = 6 ∧
    t.g (K.st_FAULT_SOURCE i) = (Src.ABORT_FORCED i : Nat) ∧ (t.site i).fifo = [] ∧ (t.site i).halted = true) ∧
  (∀ (i : SiteId) (s : State), timingOn s = true → s.active i = true → 4096 ≤ s.n (K.sr_SINCE_SAFE i) →
    ∃ t, exec (.safePointStarvation i) s = .next t ∧ t.g (K.st_STATE i) = 6 ∧
    t.g (K.st_FAULT_SOURCE i) = (Src.SAFE_POINT_STARVATION i : Nat) ∧ t.g (K.sr_LAST_SEQ_FAULT i) = (Src.SAFE_POINT_STARVATION i : Nat)) ∧
  (∀ (i : SiteId) (src : BitVec 16) (s : State), timingOn s = true → s.active i = true → ∃ t, exec (.sitePark i src) s = .next t ∧
    t.g (K.st_STATE i) = 6 ∧ t.g (K.st_FAULT_SOURCE i) = src.toNat ∧ (t.site i).fifo = [] ∧ (t.site i).halted = true ∧ (∀ j, j ≠ i →
    t.st j = s.st j)) ∧
  (∀ (i : SiteId) (st : Stall) (s : State), timingOn s = true → (s.site i).stall = some st → s.active i = true → dataReady s i st = true →
    MW.apply st.word = false → ∃ t, exec (.stallEnd i) s = .next t ∧ (t.site i).stall = none ∧
    (t.site i).fifo.length = (s.site i).fifo.length + 1) ∧
  (∀ (i : SiteId) (s : State), (s.site i).stall.all (fun st => !dataReady s i st) = true → exec (.stallEnd i) s = .next s.fresh)

/-- A yealm that a slot of the prefetch buffer waits for enters it: of a stream, HIGH follows, and RD_PTR when it fills the
lookahead (R70, R90, R91); of a segment, from HBM or its staging area; a fetch beyond the reservation counts in OVER_RES_COUNT. A
refill brings yealms of the followed deep segment into the window (R75), or meets an uncorrectable error of yealm i on channel (i
+ segment number) mod 4, which fails the segment and parks the site (R50, R79). A clean patrol read counts a sweep at its end
(R71). A slot that lacks its vectors inserts a pad frame where the action of the stream, or of the site for a segment, is PAD,
and parks the site where it is STOP, with the stream's or the site's under-run flag (R97, R99, R103). -/
def Obligations.SupplyFetchRefillPatrol : Prop :=
  (∀ (i : SiteId) (e : Fin 64) (idx n : Nat) (b : Bool) (s : State), timingOn s = true → s.active i = true →
    Store.source s.od i e = some (true, n) → n < 64 → wanted s i e idx = true → idx < s.n (K.sm_WR_PTR n) →
    s.n (K.sm_WR_PTR n) ≤ idx + 65536 → s.g (K.md_OVER_RES_COUNT i) < 4294967295 → inLookahead s i e idx = true →
    (s.site i).seqSlots.contains (e.val, idx) = false → (s.retain (Fin.ofNat 64 n) ≤ idx ∨ s.n (K.sm_RD_PTR n) ≤ idx) →
    ∃ t, exec (.yealmFetch i e idx b .ok) s = .next t ∧ held (t.site i) e idx = true ∧ t.g (K.sm_RD_PTR n) = (idx + 1 : Nat) ∧
    t.g (K.sm_HIGH n) = max (s.g (K.sm_HIGH n)) idx ∧ t.g (K.md_OVER_RES_COUNT i) = s.g (K.md_OVER_RES_COUNT i) + b2i b ∧
    OtherObjects [K.sm_RD_PTR n, K.sm_HIGH n, K.md_OVER_RES_COUNT i] s t ∧ OtherSites i s t) ∧
  (∀ (i : SiteId) (e : Fin 64) (idx n : Nat) (b : Bool) (s : State), timingOn s = true → s.active i = true →
    Store.source s.od i e = some (true, n) → n < 64 → wanted s i e idx = true → idx < s.n (K.sm_WR_PTR n) →
    s.n (K.sm_WR_PTR n) ≤ idx + 65536 → s.g (K.md_OVER_RES_COUNT i) < 4294967295 → (inLookahead s i e idx = false ∨
    (s.site i).seqSlots.contains (e.val, idx) = true) → ∃ t, exec (.yealmFetch i e idx b .ok) s = .next t ∧ held (t.site i) e idx = true ∧
    t.g (K.sm_HIGH n) = max (s.g (K.sm_HIGH n)) idx ∧ t.g (K.md_OVER_RES_COUNT i) = s.g (K.md_OVER_RES_COUNT i) + b2i b ∧
    OtherObjects [K.sm_HIGH n, K.md_OVER_RES_COUNT i] s t ∧ OtherSites i s t) ∧
  (∀ (i : SiteId) (e : Fin 64) (idx n : Nat) (b : Bool) (x : Seg) (s : State), timingOn s = true → s.active i = true →
    Store.source s.od i e = some (false, n) → s.seg? n = some x → idx < x.len → wanted s i e idx = true → staged s i e idx = true →
    s.g (K.md_OVER_RES_COUNT i) < 4294967295 → ∃ t, exec (.yealmFetch i e idx b .ok) s = .next t ∧ held (t.site i) e idx = true ∧
    t.g (K.md_OVER_RES_COUNT i) = s.g (K.md_OVER_RES_COUNT i) + b2i b ∧ OtherObjects [K.md_OVER_RES_COUNT i] s t ∧ OtherSites i s t) ∧
  (∀ (i : SiteId) (e : Fin 64) (k : Nat) (s : State), timingOn s = true → s.active i = true → s.deepEntry i e = true →
    moverBusy s i = false → s.deepEntry i (readPos (s.site i)).1 = false → (s.site i).staging.entry = some e.val → 0 < k →
    (s.site i).staging.count + k ≤ min (s.n (K.md_STAGE_WINDOW i)) (s.entryLen i e - (s.site i).staging.first) →
    ∃ t, exec (.moverRefill i e k .ok) s = .next t ∧ (t.site i).staging.count = (s.site i).staging.count + k ∧
    (t.site i).staging.first = (s.site i).staging.first ∧ t.od = s.od ∧ OtherSites i s t) ∧
  (∀ (i : SiteId) (e : Fin 64) (k n item : Nat) (s : State), timingOn s = true → s.active i = true → s.deepEntry i e = true →
    moverBusy s i = false → Store.source s.od i e = some (false, n) → s.g K.ds_DDR5_UE < 18446744073709551615 →
    ∃ t, exec (.moverRefill i e k (.ue item)) s = .next t ∧ t.g (K.st_STATE i) = 6 ∧
    t.g (K.st_FAULT_SOURCE i) = (Src.DDR5_UE (Fin.ofNat 4 (item + n)) : Nat) ∧ t.g K.ds_DDR5_UE = s.g K.ds_DDR5_UE + 1 ∧
    ((t.seg? n).map Seg.st) = some .failed) ∧
  (∀ (stack : Fin 4) (s : State), timingOn s = true → s.g K.hs_PATROL_SWEEPS < 18446744073709551615 →
    ∃ t, exec (.patrolRead stack .clean true) s = .next t ∧ t.g K.hs_PATROL_SWEEPS = s.g K.hs_PATROL_SWEEPS + 1 ∧
    OtherObjects [K.hs_PATROL_SWEEPS] s t ∧ t.mem = s.mem ∧ t.flt = s.flt) ∧
  (∀ (i : SiteId) (n : Nat) (s : State), timingOn s = true → slotLacks s i = true → (s.site i).pad = none →
    Store.source s.od i (readPos (s.site i)).1 = some (true, n) → n < 64 → s.g (K.sm_UNDERRUN_ACTION n) = 1 →
    s.g (K.md_PAD_FRAMES i) < 18446744073709551615 → s.g (K.sm_PAD_FRAMES n) < 18446744073709551615 →
    s.g (K.sm_UNDERRUN_COUNT n) < 4294967295 → ∃ t, exec (.underRun i) s = .next t ∧ t.g (K.sm_UNDERRUN_FLAG n) = 1 ∧
    t.g (K.sm_UNDERRUN_COUNT n) = s.g (K.sm_UNDERRUN_COUNT n) + 1 ∧ t.g (K.md_PAD_FRAMES i) = s.g (K.md_PAD_FRAMES i) + 1 ∧
    t.g (K.sm_PAD_FRAMES n) = s.g (K.sm_PAD_FRAMES n) + 1 ∧ (t.site i).fifo.length = (s.site i).fifo.length + 1 ∧
    (t.site i).pad.isSome = true ∧ OtherObjects [K.sm_UNDERRUN_FLAG n, K.sm_UNDERRUN_COUNT n, K.md_PAD_FRAMES i, K.sm_PAD_FRAMES n] s t ∧
    OtherSites i s t) ∧
  (∀ (i : SiteId) (n : Nat) (s : State), timingOn s = true → slotLacks s i = true → (s.site i).pad = none →
    Store.source s.od i (readPos (s.site i)).1 = some (true, n) → n < 64 → s.g (K.sm_UNDERRUN_ACTION n) ≠ 1 →
    ∃ t, exec (.underRun i) s = .next t ∧ t.g (K.sm_UNDERRUN_FLAG n) = 1 ∧ t.g (K.st_STATE i) = 6 ∧ t.g (K.sm_STATE n) = 4 ∧
    t.g (K.st_FAULT_SOURCE i) = (Src.STREAM_UNDERRUN n : Nat)) ∧
  (∀ (i : SiteId) (s : State), timingOn s = true → slotLacks s i = true → (s.site i).pad = none →
    (Store.source s.od i (readPos (s.site i)).1).all (fun x => !x.1) = true → s.g (K.md_SEG_UNDERRUN_ACTION i) = 1 →
    s.g (K.md_PAD_FRAMES i) < 18446744073709551615 → ∃ t, exec (.underRun i) s = .next t ∧ t.g (K.md_SEG_UNDERRUN_FLAG i) = 1 ∧
    t.g (K.md_PAD_FRAMES i) = s.g (K.md_PAD_FRAMES i) + 1 ∧ (t.site i).fifo.length = (s.site i).fifo.length + 1 ∧
    (t.site i).pad.isSome = true ∧ OtherObjects [K.md_SEG_UNDERRUN_FLAG i, K.md_PAD_FRAMES i] s t ∧ OtherSites i s t) ∧
  (∀ (i : SiteId) (s : State), timingOn s = true → slotLacks s i = true → (s.site i).pad = none →
    (Store.source s.od i (readPos (s.site i)).1).all (fun x => !x.1) = true → s.g (K.md_SEG_UNDERRUN_ACTION i) ≠ 1 →
    ∃ t, exec (.underRun i) s = .next t ∧ t.g (K.md_SEG_UNDERRUN_FLAG i) = 1 ∧ t.g (K.st_STATE i) = 6 ∧
    t.g (K.st_FAULT_SOURCE i) = (Src.SUPPLY_UNDERRUN i : Nat)) ∧
  (∀ (i : SiteId) (p : PadRun) (s : State), timingOn s = true → slotLacks s i = true → (s.site i).pad = some p →
    s.g (K.md_PAD_FRAMES i) < 18446744073709551615 → ∃ t, exec (.padFrame i) s = .next t ∧
    t.g (K.md_PAD_FRAMES i) = s.g (K.md_PAD_FRAMES i) + 1 ∧ (t.site i).fifo.length = (s.site i).fifo.length + 1 ∧
    (t.site i).pad = some { p with count := p.count + s.n (K.sq_VEC_PER_FRAME i) } ∧
    OtherObjects (K.md_PAD_FRAMES i :: (List.range 64).map (fun n => K.sm_PAD_FRAMES n)) s t ∧ OtherSites i s t)

/-- The formatters of a RUNNING site take the first frame of its FIFO when they may: it leaves the FIFO for the frames whose
results are to be latched, and the vectors driven count on (R21, R311). COMPARE_RESULT_LATCH takes the oldest such frame (R293):
a pad frame has no results, any other has its results latched by its number. PE_LOS and LOS_CLEAR set and clear the flag of a
channel that is not in loopback (R267, R295). -/
def Obligations.FramesAndResults : Prop :=
  (∀ (i : SiteId) (f : Frame) (r : List Frame) (s : State), timingOn s = true → s.st i = SS.running → mayTake (s.site i) = true →
    (s.site i).fifo = f :: r → Takes i f s → ∃ t, exec (.frameTake i) s = .next t ∧ (t.site i).fifo.length = r.length ∧
    (t.site i).taken.length = (s.site i).taken.length + 1 ∧ (t.site i).cycle = (s.site i).cycle + f.vecs.length ∧ t.g (K.st_STATE i) = 3) ∧
  (∀ (i : SiteId) (f : Frame) (r : List Frame) (samples : List Sample) (s : State), timingOn s = true → (s.site i).taken = f :: r →
    f.pad = true → (s.site i).logWait = [] → s.active i = true → ∃ t, exec (.compareResultLatch i samples) s = .next t ∧
    (t.site i).taken = r ∧ (t.site i).results = (s.site i).results ∧ OtherObjects [] s t ∧ OtherSites i s t) ∧
  (∀ (i : SiteId) (f : Frame) (r : List Frame) (samples : List Sample) (s : State), timingOn s = true → (s.site i).taken = f :: r →
    f.pad = false → s.active i = true → ∃ t, exec (.compareResultLatch i samples) s = .next t ∧ (t.site i).taken = r ∧
    (kget? (t.site i).results f.num).isSome = true) ∧
  (∀ (c : ChanId) (s : State), timingOn s = true → s.b (K.ch_LOOPBACK c) = false → s.b (K.ch_LOS c) = false →
    ∃ t, exec (.peLos c) s = .next t ∧ t.g (K.ch_LOS c) = 1 ∧ OtherObjects [K.ch_LOS c] s t) ∧
  (∀ (c : ChanId) (s : State), timingOn s = true → s.b (K.ch_LOOPBACK c) = false → s.b (K.ch_LOS c) = true →
    ∃ t, exec (.losClear c) s = .next t ∧ t.g (K.ch_LOS c) = 0 ∧ OtherObjects [K.ch_LOS c] s t) ∧
  (∀ (c : ChanId) (s : State), s.b (K.ch_LOOPBACK c) = true → exec (.peLos c) s = .next s.fresh ∧ exec (.losClear c) s = .next s.fresh)

/-- The entries of a frame enter the site's fail FIFO while no count-only cause holds (R324); under COUNT_ONLY each of its
failing vectors counts in LOG_LOST (R325); the writer stores the first entry of the next site that has one at its index and
LOG_WRITTEN follows (R322, R331); a whole extent moves to the spill area when no refill is due (R332); a capture record goes to
the capture region while there is room, or into the open result buffer of its site's queue (R339, R340, R591); RESULT_BUF posts a
buffer, and its timeout completes one that holds a single record 100 us old with the bytes packed (R591; DEDUCED, assumption 67).
FAIL_READ and CAPTURE_READ upload what is written, up to an uncorrectable error, RESULT being the entries or bytes copied (R342,
R344), and are refused with FAIL_RANGE outside it. -/
def Obligations.FailLogAndCapture : Prop :=
  (∀ (i : SiteId) (fs : List (List FailE)) (r : List (List (List FailE))) (s : State), timingOn s = true → (s.site i).failPend = fs :: r →
    s.g (K.fc_LOG_EXTENTS i) ≠ 0 → s.b (K.fr_COUNT_ONLY i) = false → fs.flatten.any (fun e => e.kind == 1) = false →
    logCause s i fs.flatten.length = 0 → ∃ t, exec (.failLogEnqueue i) s = .next t ∧ (t.site i).failPend = r ∧
    (t.site i).failIdx = (s.site i).failIdx + fs.flatten.length ∧
    (t.site i).failFifo.map (fun e => e.2) = (s.site i).failFifo.map (fun e => e.2) ++ fs.flatten ∧ OtherObjects [] s t ∧ OtherSites i s t) ∧
  (∀ (i : SiteId) (fs : List (List FailE)) (r : List (List (List FailE))) (s : State), timingOn s = true → (s.site i).failPend = fs :: r →
    s.g (K.fc_LOG_EXTENTS i) ≠ 0 → s.b (K.fr_COUNT_ONLY i) = true → fs.flatten.any (fun e => e.kind == 1) = false →
    ∃ t, exec (.failLogEnqueue i) s = .next t ∧ (t.site i).failPend = r ∧ (t.site i).failFifo = (s.site i).failFifo ∧
    t.g (K.fr_LOG_LOST i) = s.g (K.fr_LOG_LOST i) + ((fs.filter (fun es => es.any (fun e => e.kind == 0))).length : Nat) ∧
    OtherObjects [K.fr_LOG_LOST i] s t ∧ OtherSites i s t) ∧
  (∀ (i : SiteId) (k : Nat) (e : FailE) (r : List (Nat × FailE)) (s : State), timingOn s = true →
    ((List.range 32).map (fun j => Fin.ofNat 32 (s.mem.logTurn + 1 + j))).find? (logWritable s) = some i →
    (s.site i).failFifo = (k, e) :: r → s.logCap i ≠ 0 → ∃ t, exec (.failLogWrite) s = .next t ∧ (t.site i).failFifo = r ∧
    kget? (t.site i).failLog k = some (e.image i k) ∧ t.g (K.fr_LOG_WRITTEN i) = (k + 1 : Nat) ∧ t.mem.logTurn = i.val ∧
    OtherObjects [K.fr_LOG_WRITTEN i, K.fr_LOG_OLDEST i] s t ∧ OtherSites i s t) ∧
  (∀ (i : SiteId) (s : State), timingOn s = true → s.n (K.fc_LOG_FULL_ACTION i) = 2 → s.logCap i ≤ 2 * s.logHeld i → 65536 ≤ s.logHeld i →
    (s.site i).spillIdx / 65536 < s.n (K.fc_SPILL_SIZE i) → (∀ j : SiteId, refillDue s j = false) → ∃ t, exec (.spillExtent i) s = .next t ∧
    (t.site i).spillIdx = (s.site i).spillIdx + 65536 ∧ t.g (K.fr_SPILLED i) = s.g (K.fr_SPILLED i) + 65536 ∧
    OtherObjects [K.fr_SPILLED i] s t ∧ OtherSites i s t) ∧
  (∀ (i : SiteId) (c : CapRec) (s : State), timingOn s = true → (s.site i).capPend.find? (fun y => y.toQueue == false) = some c →
    s.n (K.fr_CAP_WRITTEN i) + c.size ≤ s.capSize i → ∃ t, exec (.captureRecord i false) s = .next t ∧
    (t.site i).capPend = (s.site i).capPend.erase c ∧ t.g (K.fr_CAP_WRITTEN i) = (s.n (K.fr_CAP_WRITTEN i) + c.size : Nat) ∧
    (∀ k, k < c.size / 32 → kget? (t.site i).capMem (s.n (K.fr_CAP_WRITTEN i) / 32 + k) = some (((c.image i).drop (32 * k)).take 32)) ∧
    OtherObjects [K.fr_CAP_WRITTEN i] s t ∧ OtherSites i s t) ∧
  (∀ (i : SiteId) (q : Nat) (c : CapRec) (x : Queue) (b : ResBuf) (r : List ResBuf) (s : State), timingOn s = true →
    (s.site i).capPend.find? (fun y => y.toQueue == true) = some c → s.siteQueue i .result = some q → s.queue? q = some x → x.bufs = b :: r →
    b.packed.length + c.size ≤ b.size → ∃ t, exec (.captureRecord i true) s = .next t ∧ (t.site i).capPend = (s.site i).capPend.erase c ∧
    t.queue? q = some { x with bufs := { b with packed := b.packed ++ c.image i, records := b.records + 1, since := if b.records = 0 then s.now else b.since } :: r } ∧
    OtherQueues q s t ∧ OtherObjects [] s t ∧ OtherSites i s t) ∧
  (∀ (tag : Tag) (ln : Nat) (x : Queue) (s : State), comes s (some tag) .pcie (.resultBuf tag ln) = true → s.queue? tag.queue = some x →
    x.typ = .result → ∃ t, exec (.resultBuf tag ln) s = .next t ∧
    t.queue? tag.queue = some { x with bufs := x.bufs ++ [{ tag := tag, size := ln }] } ∧ OtherQueues tag.queue s t ∧ OtherObjects [] s t ∧
    t.host.compl = s.host.compl) ∧
  (∀ (q : QueueId) (x : Queue) (b : ResBuf) (r : List ResBuf) (s : State), domRuns s .pcie = true → s.queue? q = some x → x.bufs = b :: r →
    b.records = 1 → b.since + 80000 ≤ s.now → (s.queueSite q).all (fun (i : SiteId) => (s.site i).capPend.all (fun c => !c.toQueue)) = true
    → ∃ t, exec (.resultBufTimeout q) s = .next t ∧ t.queue? q = some { x with bufs := r } ∧ OtherQueues q s t ∧
    t.host.waiting = s.host.waiting ++ (chunks (s.n K.pcie_MPS) b.packed.length b.packed).map (fun d => (b.tag, d)) ∧
    Completed s t b.tag Status.OK b.packed.length) ∧
  (∀ (tag : Tag) (i : SiteId) (first count : Nat) (s : State), comes s (some tag) .timing (.failRead tag i first count .whole) = true →
    first + count ≤ s.n (K.fr_LOG_WRITTEN i) → s.n (K.fr_LOG_OLDEST i) ≤ first → (s.site i).logDead ≤ first → (first < (s.site i).spillIdx →
    moverServes (.copy tag) s = true) → ∃ t, exec (.failRead tag i first count .whole) s = .next t ∧ OtherObjects [] s t ∧
    Completed s t tag Status.OK count ∧
    t.host.waiting = s.host.waiting ++ (chunks (s.n K.pcie_MPS) ((List.range count).map (fun k => kgetD (s.site i).failLog (first + k) [])).flatten.length ((List.range count).map (fun k => kgetD (s.site i).failLog (first + k) [])).flatten).map (fun d => (tag, d))) ∧
  (∀ (tag : Tag) (i : SiteId) (first count n : Nat) (u : Fin 4) (s : State), comes s (some tag) .timing (.failRead tag i first count (.dataError n false u)) = true →
    first + count ≤ s.n (K.fr_LOG_WRITTEN i) → s.n (K.fr_LOG_OLDEST i) ≤ first → (s.site i).logDead ≤ first → (s.site i).spillIdx ≤ first →
    ∃ t, exec (.failRead tag i first count (.dataError n false u)) s = .next t ∧ OtherObjects [K.hs_HBM_UE] s t ∧
    Completed s t tag Status.FAIL_DATA_ERROR (min n count)) ∧
  (∀ (tag : Tag) (i : SiteId) (first count : Nat) (run : Upload) (s : State), comes s (some tag) .timing (.failRead tag i first count run) = true →
    (s.n (K.fr_LOG_WRITTEN i) < first + count ∨ first < s.n (K.fr_LOG_OLDEST i)) → ∃ t, exec (.failRead tag i first count run) s = .next t ∧
    OtherObjects [] s t ∧ t.host.waiting = s.host.waiting ∧ Completed s t tag Status.FAIL_RANGE 0) ∧
  (∀ (tag : Tag) (i : SiteId) (o n : Nat) (s : State), comes s (some tag) .timing (.captureRead tag i o n .whole) = true → n % 32 = 0 →
    o + n ≤ s.n (K.fr_CAP_WRITTEN i) → (s.site i).capOldest ≤ o → (s.site i).capGone ≤ o → (s.site i).capDead ≤ o →
    ∃ t, exec (.captureRead tag i o n .whole) s = .next t ∧ OtherObjects [] s t ∧ Completed s t tag Status.OK n ∧
    t.host.waiting = s.host.waiting ++ (chunks (s.n K.pcie_MPS) ((List.range (n / 32)).map (fun k => kgetD (s.site i).capMem (o / 32 + k) [])).flatten.length ((List.range (n / 32)).map (fun k => kgetD (s.site i).capMem (o / 32 + k) [])).flatten).map (fun d => (tag, d))) ∧
  (∀ (tag : Tag) (i : SiteId) (o n : Nat) (run : Upload) (s : State), comes s (some tag) .timing (.captureRead tag i o n run) = true →
    s.n (K.fr_CAP_WRITTEN i) < o + n → ∃ t, exec (.captureRead tag i o n run) s = .next t ∧ OtherObjects [] s t ∧
    t.host.waiting = s.host.waiting ∧ Completed s t tag Status.FAIL_RANGE 0)

/-- Of an input whose source is PIN or MARKER: an edge after an inactive gap of at least QUAL_WIDTH samples qualifies (R203),
which QUAL_COUNT counts, the qualifier disarms and the copies are due six SCLK later; a shorter pulse is a glitch (R204); an edge
after a shorter gap counts in OVERRUN and raises (R205); an input active for STUCK_TIMEOUT is masked (R208). Every edge shows the
level of the EVT ball. A HOST event that is due qualifies, with any others of the mask (R206); six SCLK after a qualification the
copy of every assigned active site is set (R207); a masked input is released after its inactivity (R209), by any source (DESIGN
CHOICE, assumption 72). -/
def Obligations.EventLines : Prop :=
  (∀ (n : EvtId) (gap : Nat) (s : State), timingOn s = true → hasQualifier s n = true → evtMasked s n = false → (s.n (K.el_EVT_SRC n) = 0 ∨
    markerLevel s n = true) → s.n (K.el_QUAL_WIDTH n) ≤ gap → s.g (K.el_QUAL_COUNT n) < 18446744073709551615 →
    ∃ t, exec (.evtQualify n gap) s = .next t ∧ t.g (K.el_QUAL_COUNT n) = s.g (K.el_QUAL_COUNT n) + 1 ∧ (t.evt n).armed = false ∧
    (t.evt n).latches = (s.evt n).latches ++ [s.now] ∧ (t.evt n).qualAt = s.now ∧ OtherObjects [K.el_QUAL_COUNT n] s t) ∧
  (∀ (n : EvtId) (gap width : Nat) (s : State), timingOn s = true → hasQualifier s n = true → evtMasked s n = false →
    s.n (K.el_QUAL_WIDTH n) ≤ gap → width < s.n (K.el_QUAL_WIDTH n) → s.g (K.el_GLITCH n) < 4294967295 →
    ∃ t, exec (.glitch n gap width) s = .next t ∧ t.g (K.el_GLITCH n) = s.g (K.el_GLITCH n) + 1 ∧ (t.evt n).armed = true ∧
    (t.evt n).latches = (s.evt n).latches ∧ OtherObjects [K.el_GLITCH n] s t) ∧
  (∀ (n : EvtId) (gap : Nat) (s : State), timingOn s = true → hasQualifier s n = true → (s.evt n).armed = false →
    (s.evt n).restarted = false → gap < s.n (K.el_QUAL_WIDTH n) → s.g (K.el_OVERRUN n) < 4294967295 →
    (kgetD s.flt.srcs (Src.EVT_OVERRUN n) {}).active = false → ∃ t, exec (.evtOverrun n gap) s = .next t ∧
    t.g (K.el_OVERRUN n) = s.g (K.el_OVERRUN n) + 1 ∧ t.evt n = (seeEvt n true s).evt n ∧
    t.flt.reports = s.flt.reports ++ [{ src := Src.EVT_OVERRUN n }] ∧ OtherObjects [K.el_OVERRUN n] s t) ∧
  (∀ (n : EvtId) (mask : BitVec 16) (q : Nat) (r : List Nat) (s : State), timingOn s = true → mask.getLsbD n.val = true →
    s.n (K.el_EVT_SRC n) = 2 → (s.evt n).host = q :: r → q ≤ s.now → s.g (K.el_QUAL_COUNT n) < 18446744073709551615 →
    ∃ t, exec (.evtHost mask) s = .next t ∧ t.g (K.el_QUAL_COUNT n) = s.g (K.el_QUAL_COUNT n) + 1 ∧ (t.evt n).host = r ∧
    (t.evt n).latches = (s.evt n).latches ++ [q] ∧ (t.evt n).qualAt = q ∧
    OtherObjects (allEvts.map (fun (m : EvtId) => K.el_QUAL_COUNT m)) s t) ∧
  (∀ (n : EvtId) (at_ : Nat) (r : List Nat) (s : State), timingOn s = true → (s.evt n).latches = at_ :: r → at_ + 6 ≤ s.now →
    ∃ t, exec (.evtLatch n) s = .next t ∧ (t.evt n).latches = r ∧ (∀ i, s.active i = true → (s.n (K.el_EVT_SITES n)).testBit i.val = true →
    (t.n (K.st_EVT_LATCHED i)).testBit n.val = true) ∧ (∀ i, (s.active i = false ∨ (s.n (K.el_EVT_SITES n)).testBit i.val = false) →
    t.g (K.st_EVT_LATCHED i) = s.g (K.st_EVT_LATCHED i))) ∧
  (∀ (n : EvtId) (s : State), timingOn s = true → hasQualifier s n = true → evtMasked s n = false → 0 < s.n (K.el_STUCK_TIMEOUT n) →
    (s.evt n).armed = false → (s.evt n).restarted = false → (s.evt n).qualAt + s.n (K.el_STUCK_TIMEOUT n) ≤ s.now + 1 →
    s.g (K.el_STUCK_COUNT n) < 4294967295 → ∃ t, exec (.evtStuck n) s = .next t ∧ evtMasked t n = true ∧
    t.g (K.el_STUCK_COUNT n) = s.g (K.el_STUCK_COUNT n) + 1 ∧ t.evt n = (seeEvt n true s).evt n ∧
    OtherObjects [K.em_EVT_MASKED, K.el_STUCK_COUNT n] s t) ∧
  (∀ (n : EvtId) (s : State), timingOn s = true → evtMasked s n = true → ∃ t, exec (.evtRelease n) s = .next t ∧ evtMasked t n = false ∧
    (t.evt n).armed = true ∧ OtherObjects [K.em_EVT_MASKED] s t)

/-- While the management domain runs and the journal has been replayed (DEDUCED, assumption 155), the first entry on its way
enters the RAM buffer of 1,024 with the next SEQ, and EVLOG_NEXT follows (R663, R664); with the buffer full it is dropped,
counted in EVLOG_LOST and raised. EVLOG_PROGRAM moves the oldest buffered entries, as many as it names, in their order to the
ring of 262,144 entries on the dies in service, once no journal record is due (R664, R678), and the ring loses its oldest beyond
that number; while one is due, or with no die in service (R666), the entries stay in the buffer. -/
def Obligations.EventLogKeepsEntries : Prop :=
  (∀ (e : LogE) (r : List LogE) (s : State), domRuns s .mgmt = true → s.pwr.replayed = true → s.mgmt.logPend = e :: r →
    s.mgmt.logRam.length < 1024 → ∃ t, exec (.evlogEntry) s = .next t ∧ t.mgmt.logPend = r ∧
    t.mgmt.logRam = s.mgmt.logRam ++ [(s.mgmt.logSeq, e.image s.mgmt.logSeq)] ∧ t.mgmt.logSeq = s.mgmt.logSeq + 1 ∧
    t.g K.ev_EVLOG_NEXT = (s.mgmt.logSeq + 1 : Nat) ∧ OtherObjects [K.ev_EVLOG_NEXT] s t) ∧
  (∀ (e : LogE) (r : List LogE) (s : State), domRuns s .mgmt = true → s.pwr.replayed = true → s.mgmt.logPend = e :: r →
    1024 ≤ s.mgmt.logRam.length → s.g K.ev_EVLOG_LOST < 4294967295 → ∃ t, exec (.evlogEntry) s = .next t ∧ t.mgmt.logPend = r ∧
    t.mgmt.logRam = s.mgmt.logRam ∧ t.g K.ev_EVLOG_LOST = s.g K.ev_EVLOG_LOST + 1 ∧ OtherObjects [K.ev_EVLOG_LOST] s t) ∧
  (∀ (n len : Nat) (s : State), domRuns s .mgmt = true → domRuns s .nor = true → norUp s = true → journalDue s = false →
    (∀ k q b, (s.mgmt.logRing ++ s.mgmt.logRam)[k]? = some (q, b) → q = s.n K.ev_EVLOG_OLDEST + k) → 0 ≤ s.g K.ev_EVLOG_OLDEST →
    (s.mgmt.logRing ++ s.mgmt.logRam.take n).length = len → ∃ t, exec (.evlogProgram n) s = .next t ∧ t.mgmt.logRam = s.mgmt.logRam.drop n ∧
    t.mgmt.logRing = (s.mgmt.logRing ++ s.mgmt.logRam.take n).drop (len - 262144) ∧
    t.n K.ev_EVLOG_OLDEST = s.n K.ev_EVLOG_OLDEST + (len - 262144) ∧ OtherObjects [K.ev_EVLOG_OLDEST] s t) ∧
  (∀ (n : Nat) (s : State), domRuns s .mgmt = true → domRuns s .nor = true → (norUp s = false ∨ journalDue s = true) →
    ∃ t, exec (.evlogProgram n) s = .next t ∧ t.mgmt.logRam = s.mgmt.logRam)

/-- While the field network's domain runs: a good KDP request of a node in a later session or SEQ is counted, remembered with its
SESSION, SEQ and address, and answered to that address with the fields copied (R643 to R645), here a READ outside a transaction
while none is OPEN; the last request again is answered from the kept response and not executed (R645); a bad frame is only
counted (R643); at NODE_ID 0 every frame is ignored (R641). The ACK of the outstanding notification ends it and a repeat sends it
again, up to its 8th transmission; then it is lost (R647). The beacon rows set PLCA_STATUS (R642). -/
def Obligations.FieldNetworkPort : Prop :=
  (∀ (mac src : BitVec 48) (bytes : List Byte) (r : Objects.Row) (s : State), domRuns s .t1s = true → s.portOn = true →
    s.pwr.fwOnly = false → kdpBad mac (s.n K.net_NODE_ID) bytes.length (KdpIn.of bytes) = false → (KdpIn.of bytes).typ = 1 →
    (KdpIn.of bytes).dst ≠ 0x7F →
    (kget? s.dict.clients ((KdpIn.of bytes).src % 64)).all (fun c => c.session != (KdpIn.of bytes).session || c.seq != (KdpIn.of bytes).seq) = true →
    (allTxns.all (fun k => (s.txn k).st != 1)) = true → field (KdpIn.of bytes).body 0 1 = 1 → field (KdpIn.of bytes).body 6 2 = 0 →
    (findObject (askKey (KdpIn.of bytes).body)).toOption = some r → r.acc ≠ .wo → isDomain r.ty = false →
    domRuns s (objDom (askKey (KdpIn.of bytes).body)) = true → ∃ t, exec (.kdpFrame ⟨mac, src⟩ bytes) s = .next t ∧
    t.n K.net_KDP_RX = min (s.n K.net_KDP_RX + 1) 4294967295 ∧ OtherObjects [K.net_KDP_RX, askKey (KdpIn.of bytes).body] s t ∧
    (∃ d body, d = (imageNow r (askKey (KdpIn.of bytes).body) (heard (KdpIn.of bytes) src s)).take 1024 ∧
    body = ((svcAsk .mbox src 0 0 (KdpIn.of bytes).body).header 0 d.length 0).bytes d ∧
    kget? t.dict.clients ((KdpIn.of bytes).src % 64) = some ⟨(KdpIn.of bytes).session, (KdpIn.of bytes).seq, src, some body⟩ ∧
    t.out = [.answer (.t1s (Fin.ofNat 64 (KdpIn.of bytes).src) (KdpIn.of bytes).session) 0 d.length 0 d, kdpAnswer (KdpIn.of bytes) src body s])) ∧
  (∀ (mac src : BitVec 48) (bytes body : List Byte) (c : Client) (s : State), domRuns s .t1s = true → s.portOn = true →
    kdpBad mac (s.n K.net_NODE_ID) bytes.length (KdpIn.of bytes) = false → (KdpIn.of bytes).typ = 1 →
    kget? s.dict.clients ((KdpIn.of bytes).src % 64) = some c → c.session = (KdpIn.of bytes).session → c.seq = (KdpIn.of bytes).seq →
    c.resp = some body → ∃ t, exec (.kdpFrame ⟨mac, src⟩ bytes) s = .next t ∧ t.n K.net_KDP_RETX = min (s.n K.net_KDP_RETX + 1) 4294967295 ∧
    OtherObjects [K.net_KDP_RETX] s t ∧ t.dict = s.dict ∧ t.out = [kdpAnswer (KdpIn.of bytes) src body s]) ∧
  (∀ (mac src : BitVec 48) (bytes : List Byte) (s : State), domRuns s .t1s = true → s.portOn = true →
    kdpBad mac (s.n K.net_NODE_ID) bytes.length (KdpIn.of bytes) = true → ∃ t, exec (.kdpFrame ⟨mac, src⟩ bytes) s = .next t ∧
    t.n K.net_KDP_BAD = min (s.n K.net_KDP_BAD + 1) 4294967295 ∧ OtherObjects [K.net_KDP_BAD] s t ∧ t.dict = s.dict ∧ t.out = []) ∧
  (∀ (mac src : BitVec 48) (bytes : List Byte) (s : State), s.g K.net_NODE_ID = 0 → ∃ t, exec (.kdpFrame ⟨mac, src⟩ bytes) s = .next t ∧
    OtherObjects [] s t ∧ t.dict = s.dict ∧ t.out = []) ∧
  (∀ (n : Notif) (s : State), domRuns s .t1s = true → s.dict.notif = some n → s.dict.notifQ = [] → ∃ t, exec (.ack n.seq) s = .next t ∧
    t.dict.notif = none ∧ t.out = [] ∧ OtherObjects [] s t) ∧
  (∀ (seq : BitVec 16) (n : Notif) (s : State), s.dict.notif = some n → n.seq ≠ seq → domRuns s .t1s = true →
    ∃ t, exec (.ack seq) s = .next t ∧ t.dict = s.dict ∧ OtherObjects [] s t) ∧
  (∀ (n : Notif) (s : State), domRuns s .t1s = true → s.dict.notif = some n → n.tries < 8 → ∃ t, exec (.notifyRepeat) s = .next t ∧
    t.dict.notif = some { n with tries := n.tries + 1 } ∧
    t.out = [.kdp (nodeMac s n.node) n.node (kdpFrame 3 n.node (s.n K.net_NODE_ID) 0 n.seq.toNat n.tries n.body)] ∧ OtherObjects [] s t) ∧
  (∀ (n : Notif) (s : State), domRuns s .t1s = true → s.dict.notif = some n → 8 ≤ n.tries → s.dict.notifQ = [] →
    ∃ t, exec (.notifyRepeat) s = .next t ∧ t.dict.notif = none ∧ t.n K.net_NOTIFY_LOST = min (s.n K.net_NOTIFY_LOST + 1) 4294967295 ∧
    OtherObjects [K.net_NOTIFY_LOST] s t) ∧
  (∀ (s : State), domRuns s .t1s = true → ∃ t, exec (.plcaBeaconLost) s = .next t ∧ t.g K.net_PLCA_STATUS = 0 ∧
    OtherObjects [K.net_PLCA_STATUS] s t) ∧
  (∀ (s : State), domRuns s .t1s = true → ∃ t, exec (.plcaBeacon) s = .next t ∧ t.g K.net_PLCA_STATUS = 1 ∧
    OtherObjects [K.net_PLCA_STATUS] s t)

/-- Outside a transaction READ answers the bytes of an object that is not write-only and whose domain runs, here on the mailbox
and of a type other than DOMAIN (R612); of an object that does not exist or is write-only it answers the refusal, and of an
object whose group has lost its clock CLK_DOMAIN_STOPPED (R547). A READ that comes as a mailbox message is kept in the request
half and answers the same (R639). No object changes but a flag that the read clears (R105). -/
def Obligations.DictionaryReadsAndMailbox : Prop :=
  (∀ (a : DictArgs) (r : Objects.Row) (s : State), MboxOn s → domRuns s (objDom (argKey a)) = true → a.txn = 0 →
    (findObject (argKey a)).toOption = some r → r.acc ≠ .wo → isDomain r.ty = false → ∃ t, exec (.read (.direct .mbox a)) s = .next t ∧
    OtherObjects (if clearsOnRead (argKey a) then [argKey a] else []) s t ∧
    MboxAnswer t 0 ((imageNow r (argKey a) s).take 4096).length 0 ((imageNow r (argKey a) s).take 4096)) ∧
  (∀ (a : DictArgs) (s : State), MboxOn s → domRuns s (objDom (argKey a)) = true → a.txn = 0 → (∀ r, findObject (argKey a) = .ok r →
    r.acc = .wo) → ∃ t, exec (.read (.direct .mbox a)) s = .next t ∧ OtherObjects [] s t ∧
    MboxAnswer t (match findObject (argKey a) with | .ok _ => Status.OD_WRITE_ONLY | .error e => e) 0 0 []) ∧
  (∀ (a : DictArgs) (r : Objects.Row) (s : State), MboxOn s → a.txn = 0 → (findObject (argKey a)).toOption = some r → r.acc ≠ .wo →
    domRuns s (objDom (argKey a)) = false → domSwitches s (objDom (argKey a)) = false → ∃ t, exec (.read (.direct .mbox a)) s = .next t ∧
    OtherObjects [] s t ∧ MboxAnswer t Status.CLK_DOMAIN_STOPPED 0 0 []) ∧
  (∀ (bytes : List Byte) (r : Objects.Row) (s : State), MboxOn s → domRuns s (objDom (askKey bytes)) = true → field bytes 0 1 = 1 →
    field bytes 6 2 = 0 → (findObject (askKey bytes)).toOption = some r → r.acc ≠ .wo → isDomain r.ty = false →
    ∃ t, exec (.mailboxRequest bytes) s = .next t ∧ OtherObjects (if clearsOnRead (askKey bytes) then [askKey bytes] else []) s t ∧
    t.mgmt.mailReq = bytes ∧ MboxAnswer t 0 ((imageNow r (askKey bytes) s).take 4096).length 0 ((imageNow r (askKey bytes) s).take 4096))

/-- BEGIN opens the lowest FREE record with the next number (R616), and with eight OPEN or PENDING answers OD_TXN_LIMIT. A WRITE
inside a transaction stages its value and changes no object (R618); outside one, a volatile object, here a site PARAM while no
other apply is due, takes its value at once when the commit passes validation, and keeps it when it does not (R613). COMMIT with
apply point RIDGE of a transaction without DOMAIN writes in progress makes it FAILED when it does not pass validation, and leaves
it OPEN on a conflict (R623 to R625); when it passes, the transaction is PENDING, or waits for its journal record where it holds
a P or S object (R626). ROLLBACK ends a transaction (R622); COMMIT of one that does not exist answers OD_TXN_UNKNOWN. A full
segment of FW_IMAGE that goes on where the write in progress ends is kept (R634, R681); a segment with no write in progress is
refused. -/
def Obligations.TransactionsStageAndCommit : Prop :=
  (∀ (n : Nat) (a : DictArgs) (s : State), MboxOn s → (s.txn 0).st = 0 → nextNum s.fresh 0 = n →
    ∃ t, exec (.begin (.direct .mbox a)) s = .next t ∧ t.txn 0 = { num := n, st := 1, owner := .mbox, named := s.now } ∧ t.dict.lastNum = n ∧
    OtherTxns 0 s t ∧ OtherObjects [] s t ∧ MboxAnswer t 0 n 0 []) ∧
  (∀ (a : DictArgs) (s : State), MboxOn s → (allTxns.all (fun k => (s.txn k).live)) = true →
    ∃ t, exec (.begin (.direct .mbox a)) s = .next t ∧ t.dict.txns = s.dict.txns ∧ OtherObjects [] s t ∧
    MboxAnswer t Status.OD_TXN_LIMIT 0 0 []) ∧
  (∀ (a : DictArgs) (k : Fin 8) (r : Objects.Row) (s : State), MboxOn s → a.txn ≠ 0 → findTxn s a.txn.toNat = some k →
    (s.txn k).owner = .mbox → (s.txn k).st = 1 → (s.txn k).wait = .nothing →
    (findObject (Objects.ob a.index.toNat a.sub.toNat)).toOption = some r → (r.acc = .rw ∨ r.acc = .rwt) → tySize r.ty = some a.data.length →
    lockedElse s (Objects.ob a.index.toNat a.sub.toNat) (some k) = false → s.dict.domW = [] →
    Txn.bytes { s.txn k with named := s.now, staged := kput (s.txn k).staged (Objects.ob a.index.toNat a.sub.toNat) (valueOf r.ty a.data) } ≤ 65536
    → ∃ t, exec (.write (.direct .mbox a)) s = .next t ∧
    t.txn k = { s.txn k with named := s.now, staged := kput (s.txn k).staged (Objects.ob a.index.toNat a.sub.toNat) (valueOf r.ty a.data) } ∧
    OtherTxns k s t ∧ OtherObjects [] s t ∧ MboxAnswer t 0 0 0 []) ∧
  (∀ (i : SiteId) (j : Fin 64) (d : BitVec 32) (s : State), MboxOn s → timingOn s = true → NoneDue s →
    lockedElse s (K.pa_PARAM i j) none = false → s.dict.domW = [] → s.g K.te_APPLIES < 18446744073709551615 →
    ∃ t, exec (.write (.direct .mbox (paramArgs i j d))) s = .next t ∧ OtherObjects [K.pa_PARAM i j, K.te_APPLIES] s t ∧
    t.dict.outs = s.dict.outs ∧ (if validate (ctxOf s.fresh (projected s.fresh) [(K.pa_PARAM i j, .num d.toNat)] 0 0) = none ∧
    conflict s.fresh [(K.pa_PARAM i j, .num d.toNat)] = none ∧
    recheck (ctxOf (written { path := .mbox, service := 2, args := paramArgs i j d } [(K.pa_PARAM i j, .num d.toNat)] s) (written { path := .mbox, service := 2, args := paramArgs i j d } [(K.pa_PARAM i j, .num d.toNat)] s) [(K.pa_PARAM i j, .num d.toNat)] 0 0) = none then t.g (K.pa_PARAM i j) = d.toNat ∧
    t.g K.te_APPLIES = s.g K.te_APPLIES + 1 ∧ MboxAnswer t 0 0 0 [] else t.g (K.pa_PARAM i j) = s.g (K.pa_PARAM i j) ∧
    t.g K.te_APPLIES = s.g K.te_APPLIES)) ∧
  (∀ (a : DictArgs) (k : Fin 8) (s : State), MboxOn s → findTxn s a.txn.toNat = some k → (s.txn k).owner = .mbox → (s.txn k).st = 1 →
    (s.txn k).wait = .nothing → a.apply = 3 → (s.txn k).dom = [] → (s.txn k).staged ≠ [] → pfw s = false →
    ∃ t, exec (.commit (.direct .mbox a)) s = .next t ∧
    (if validate (ctxOf (judged k 3 a.sites s) (projected (judged k 3 a.sites s)) (s.txn k).staged 3 a.sites) = none then (if conflict (judged k 3 a.sites s) (s.txn k).staged = none then (t.txn k).kind = 3 ∧
    (t.txn k).staged = (s.txn k).staged ∧ OtherTxns k s t ∧ OtherObjects [] s t ∧ (if Txn.journalled (s.txn k) then (t.txn k).st = 1 ∧
    (t.txn k).wait = .record ∧ t.out = [] else (t.txn k).st = 2 ∧ MboxAnswer t 0 1 0 []) else (t.txn k).st = 1 ∧
    (t.txn k).staged = (s.txn k).staged) else (t.txn k).st = 4)) ∧
  (∀ (a : DictArgs) (k : Fin 8) (s : State), MboxOn s → findTxn s a.txn.toNat = some k → (s.txn k).owner = .mbox → (s.txn k).st = 1 →
    (s.txn k).wait = .nothing → (s.txn k).report = false → (s.txn k).ask = none → ∃ t, exec (.rollback (.direct .mbox a)) s = .next t ∧
    (t.txn k).st = 5 ∧ (t.txn k).staged = [] ∧ OtherTxns k s t ∧ OtherObjects [] s t ∧ MboxAnswer t 0 0 0 []) ∧
  (∀ (a : DictArgs) (s : State), MboxOn s → findTxn s a.txn.toNat = none → ∃ t, exec (.commit (.direct .mbox a)) s = .next t ∧
    t.dict = s.dict ∧ OtherObjects [] s t ∧ MboxAnswer t Status.OD_TXN_UNKNOWN 0 0 []) ∧
  (∀ (offset : Nat) (data : List Byte) (w : DomW) (s : State), MboxOn s → s.dict.domW = [w] → w.path = .mbox → w.key = K.fwm_FW_IMAGE →
    w.got.length = offset → 0 < offset → data.length = 4096 → offset + 4096 ≤ 1048576 → lockedElse s K.fwm_FW_IMAGE none = false →
    ∃ t, exec (.fwImage .mbox offset data) s = .next t ∧
    t.dict.domW = [{ path := .mbox, key := K.fwm_FW_IMAGE, got := w.got ++ data, at_ := s.now }] ∧ OtherObjects [] s t ∧
    MboxAnswer t 0 0 0 []) ∧
  (∀ (offset : Nat) (data : List Byte) (s : State), MboxOn s → 0 < offset → data.length ≤ 4096 → lockedElse s K.fwm_FW_IMAGE none = false →
    (s.dict.domW.all (fun d => d.key != K.fwm_FW_IMAGE)) = true → ∃ t, exec (.fwImage .mbox offset data) s = .next t ∧
    t.dict.domW = s.dict.domW ∧ OtherObjects [] s t ∧ MboxAnswer t Status.OD_DOMAIN_SEQ 0 0 [])

/-- While management and the NOR flash run and a die is in service: a durable record makes the transaction PENDING, here at
RIDGE, with the record in the journal (R626, R631), and one that cannot be made durable makes it FAILED with OD_JOURNAL (R666); a
durable mark ends a persistent one APPLIED (R631). At its apply point a volatile transaction, here with a site PARAM while no
other apply is due, takes effect and ends APPLIED (R627). An OPEN transaction not named for TXN_TIMEOUT ends TIMED_OUT (R621);
late DOMAIN writes and snapshots of an object are dropped, the others stay (R635, R636). -/
def Obligations.TransactionsApplyAndEnd : Prop :=
  (∀ (k : Fin 8) (s : State), domRuns s .mgmt = true → domRuns s .nor = true → norUp s = true → (s.txn k).st = 1 → (s.txn k).wait = .record →
    (s.txn k).kind = 3 → ∃ t, exec (.journalRecordDurable (.txn k) true) s = .next t ∧ (t.txn k).st = 2 ∧ (t.txn k).wait = .nothing ∧
    (t.txn k).jseq = s.mgmt.jseq ∧ t.mgmt.jseq = s.mgmt.jseq + 1 ∧ t.mgmt.journal.length = s.mgmt.journal.length + 1 ∧ OtherTxns k s t ∧
    OtherObjects [] s t) ∧
  (∀ (k : Fin 8) (ok : Bool) (s : State), domRuns s .mgmt = true → domRuns s .nor = true → (ok = false ∨ norUp s = false) →
    (s.txn k).st = 1 → (s.txn k).wait = .record → (s.txn k).report = false → ∃ t, exec (.journalRecordDurable (.txn k) ok) s = .next t ∧
    (t.txn k).st = 4 ∧ (t.txn k).status = Status.OD_JOURNAL ∧ (t.txn k).staged = [] ∧ t.mgmt.journal = s.mgmt.journal ∧ OtherTxns k s t ∧
    OtherObjects [] s t) ∧
  (∀ (k : Fin 8) (i : SiteId) (j : Fin 64) (v : Nat) (s : State), domRuns s .mgmt = true → (s.txn k).st = 2 → (s.txn k).wait = .nothing →
    pointReached s (s.txn k) = true → (s.txn k).staged = [(K.pa_PARAM i j, .num v)] → (s.txn k).extra = [] → (s.txn k).job = none →
    OnlyDue k s → (s.txn k).report = false → recheck (ctxOf s.fresh s.fresh [(K.pa_PARAM i j, .num v)] 0 0) = none →
    s.g K.te_APPLIES < 18446744073709551615 → ∃ t, exec (.applyPoint (.txn k)) s = .next t ∧ t.g (K.pa_PARAM i j) = v ∧
    t.g K.te_APPLIES = s.g K.te_APPLIES + 1 ∧ (t.txn k).st = 3 ∧ (t.txn k).staged = [] ∧ OtherTxns k s t ∧
    OtherObjects [K.pa_PARAM i j, K.te_APPLIES] s t) ∧
  (∀ (k : Fin 8) (s : State), domRuns s .mgmt = true → domRuns s .nor = true → norUp s = true → (s.txn k).st = 2 → (s.txn k).wait = .mark →
    (s.txn k).report = false → ∃ t, exec (.commitMarkDurable (.txn k)) s = .next t ∧ (t.txn k).st = 3 ∧ (t.txn k).staged = [] ∧
    t.mgmt.journal.length = s.mgmt.journal.length + 1 ∧ OtherTxns k s t ∧ OtherObjects [] s t) ∧
  (∀ (k : Fin 8) (s : State), domRuns s .mgmt = true → (s.txn k).st = 1 → (s.txn k).wait = .nothing → timedOut s (s.txn k).named = true →
    (s.txn k).report = false → s.g K.te_TIMEOUTS < 4294967295 → ∃ t, exec (.txnTimeout k) s = .next t ∧ (t.txn k).st = 6 ∧
    (t.txn k).staged = [] ∧ t.g K.te_TIMEOUTS = s.g K.te_TIMEOUTS + 1 ∧ OtherTxns k s t ∧ OtherObjects [K.te_TIMEOUTS] s t) ∧
  (∀ (key : BitVec 24) (s : State), domRuns s .mgmt = true → (key.toNat ≠ K.fwm_FW_IMAGE ∨
    (s.dict.domW.all (fun d => d.key != key.toNat || !timedOut s d.at_)) = true) → ∃ t, exec (.domainWriteTimeout key) s = .next t ∧
    t.dict.domW = s.dict.domW.filter (fun d => !(d.key == key.toNat && timedOut s d.at_)) ∧ OtherObjects [] s t) ∧
  (∀ (s : State), domRuns s .mgmt = true → (s.dict.domW.any (fun d => d.key == K.fwm_FW_IMAGE && timedOut s d.at_)) = true →
    ∃ t, exec (.domainWriteTimeout (BitVec.ofNat 24 K.fwm_FW_IMAGE)) s = .next t ∧
    t.dict.domW = s.dict.domW.filter (fun d => !(d.key == K.fwm_FW_IMAGE && timedOut s d.at_)) ∧
    t.g (K.fwm_SLOT_STATE_A 0) = (if s.g (K.fwm_SLOT_STATE_A 0) = 1 then 5 else s.g (K.fwm_SLOT_STATE_A 0)) ∧
    t.g (K.fwm_SLOT_STATE_A 1) = (if s.g (K.fwm_SLOT_STATE_A 1) = 1 then 5 else s.g (K.fwm_SLOT_STATE_A 1)) ∧
    OtherObjects [K.fwm_SLOT_STATE_A 0, K.fwm_SLOT_STATE_A 1] s t) ∧
  (∀ (key : BitVec 24) (s : State), domRuns s .mgmt = true → ∃ t, exec (.domainSnapshotExpiry key) s = .next t ∧
    t.dict.snaps = s.dict.snaps.filter (fun d => !(d.key == key.toNat && timedOut s d.at_)) ∧ OtherObjects [] s t)

/-- With no session open, SEAL_TOKEN opens one exactly when its checks hold, and answers OK or SEAL_TOKEN; with one open it
answers SEAL_BUSY and leaves it (R474, R475, R478). SEAL_CLOSE and the end of the duration close a session (R476). A ridge pulse
is registered in the third SCLK after that of its edge (R556): one that is due by then, while no RIDGE transaction is PENDING, is
counted at once and dates the start of a ready ridge set in the next SCLK, RIDGE_ARM returning to 0 (R192); another waits for its
SCLK. An edge within 80 SCLK of a registered one, or while one waits, is only counted (R557), and a pulse is none. With the
timing group stopped an edge is only repeated in REPEAT mode (DESIGN CHOICE, assumption 54). -/
def Obligations.SealSessionsAndRidge : Prop :=
  (∀ (p : Path) (tok : List Byte) (s : State), domRuns s (pathDom p) = true → sealOpen s = false →
    ∃ t, exec (.sealToken ⟨p, tok⟩) s = .next t ∧ t.g K.sk_SEAL_STATE = (if sealTokenOk s.fresh tok then 1 else 0) ∧
    t.out = [.answer p (if sealTokenOk s.fresh tok then Status.OK else Status.SEAL_TOKEN) 0 0 []]) ∧
  (∀ (p : Path) (tok : List Byte) (s : State), domRuns s (pathDom p) = true → sealOpen s = true →
    ∃ t, exec (.sealToken ⟨p, tok⟩) s = .next t ∧ t.out = [.answer p Status.SEAL_BUSY 0 0 []] ∧ t.cal.sealEnd = s.cal.sealEnd ∧
    OtherObjects [] s t) ∧
  (∀ (s : State), domRuns s .mgmt = true → sealOpen s = true → ∃ t, exec (.sealClose true) s = .next t ∧ t.g K.sk_SEAL_STATE = 0 ∧
    t.g K.sk_SEAL_SCOPE = 0 ∧ t.blob K.sk_SEAL_OPERATOR = [] ∧ t.cal.sealEnd = 0 ∧ OtherObjects [K.sk_SEAL_STATE, K.sk_SEAL_SCOPE] s t) ∧
  (∀ (s : State), domRuns s .mgmt = true → sealOpen s = true → s.cal.sealEnd ≤ s.now → ∃ t, exec (.sealDurationExpiry) s = .next t ∧
    t.g K.sk_SEAL_STATE = 0 ∧ t.g K.sk_SEAL_SCOPE = 0 ∧ t.blob K.sk_SEAL_OPERATOR = [] ∧
    OtherObjects [K.sk_SEAL_STATE, K.sk_SEAL_SCOPE] s t) ∧
  (∀ (ph : Fin 1250000) (s : State), timingOn s = true → ridgeClose s = false → ridgeSclk s ph.val s.drawn + 3 ≤ s.now →
    (s.b K.sg_RIDGE_ARM = false ∨ ridgeSet s = []) → (allEvts.all (fun n => s.n (K.el_EVT_SRC n) != 3)) = true →
    s.g K.rd_RIDGE_COUNT < 18446744073709551615 → (allTxns.map s.txn ++ s.dict.outs).all (fun x => !x.due s || x.kind != 3) = true →
    ∃ t, exec (.ridgePulse ph) s = .next t ∧ t.g K.rd_RIDGE_COUNT = s.g K.rd_RIDGE_COUNT + 1 ∧ t.clk.ridgeAt = some s.now ∧
    t.clk.ridgeDue = none ∧ t.sites = s.sites ∧ OtherObjects [K.rd_RIDGE_COUNT] s t) ∧
  (∀ (ph : Fin 1250000) (s : State), timingOn s = true → ridgeClose s = false → (s.now : Int) < ridgeSclk s ph.val s.drawn + 3 →
    ∃ t, exec (.ridgePulse ph) s = .next t ∧ t.clk.ridgeDue = some (ridgeSclk s ph.val s.drawn + 3).toNat ∧ t.sites = s.sites ∧
    OtherObjects [] s t) ∧
  (∀ (ph : Fin 1250000) (i : SiteId) (s : State), timingOn s = true → ridgeClose s = false → ridgeSclk s ph.val s.drawn + 3 ≤ s.now →
    s.b K.sg_RIDGE_ARM = true → i ∈ ridgeSet s → (ridgeSet s).all (fun kd => s.b (K.st_READY kd)) = true →
    (allEvts.all (fun n => s.n (K.el_EVT_SRC n) != 3)) = true → s.g K.sg_RIDGE_STARTS < 4294967295 →
    s.g K.rd_RIDGE_COUNT < 18446744073709551615 → (allTxns.map s.txn ++ s.dict.outs).all (fun x => !x.due s || x.kind != 3) = true →
    ∃ t, exec (.ridgePulse ph) s = .next t ∧ (t.site i).startAt = some (s.now + 1) ∧ t.g K.sg_RIDGE_ARM = 0 ∧
    t.g K.sg_RIDGE_STARTS = s.g K.sg_RIDGE_STARTS + 1 ∧ OtherObjects [K.rd_RIDGE_COUNT, K.sg_RIDGE_ARM, K.sg_RIDGE_STARTS] s t) ∧
  (∀ (ph : Fin 1250000) (s : State), timingOn s = false → ∃ t, exec (.ridgePulse ph) s = .next t ∧
    t.out = (if s.g K.rd_RIDGE_MODE = 2 then [.ridgeOut] else []) ∧ t.od = s.od ∧ t.clk = s.clk ∧ t.sites = s.sites) ∧
  (∀ (ph : Fin 1250000) (s : State), timingOn s = true → ridgeClose s = true → ∃ t, exec (.ridgeIgnored ph) s = .next t ∧
    t.n K.rd_RIDGE_IGNORED = min (s.n K.rd_RIDGE_IGNORED + 1) 4294967295 ∧ t.clk = s.clk ∧ OtherObjects [K.rd_RIDGE_IGNORED] s t) ∧
  (∀ (ph : Fin 1250000) (s : State), timingOn s = true → ridgeClose s = true → ∃ t, exec (.ridgePulse ph) s = .next t ∧ t.clk = s.clk ∧
    OtherObjects [] s t)

/-- TMU_ARM and TMU_DISARM by TMU_CMD or by opcode 74h (R408): a command for a TMU that the host does not own is refused with
TMU_NOT_OWNER, an ARM of a TMU whose arming is in progress with TMU_STATE; every other command is accepted. An arming clears
SAMPLES_DONE, END_STATUS and OUT_OF_LIMITS, and every result object of the TMU when ACCUM is 0, else the results stay; it stands
ARMED, or in WAIT_CAL while calibration holds the TMU, or comes first and takes it (DEDUCED, assumption 210). A DISARM ends the
arming in progress with END_STATUS DISARMED; a wait for calibration may raise CAL_WAIT_MAX with it, and gates that were discarded
count as missed samples with it. No other object changes. -/
def Obligations.TmuHostCommands : Prop :=
  (∀ (o : Option Tag) (u : TmuId) (s : State), comes s o .timing (.tmuArm o u) = true → s.n (K.tmo_OWNER u) = 0x80 → s.tmuBusy u = false →
    ∃ t, exec (.tmuArm o u) s = .next t ∧ t.g (K.tt_SAMPLES_DONE u) = 0 ∧ t.g (K.tt_END_STATUS u) = 0 ∧ t.g (K.tt_OUT_OF_LIMITS u) = 0 ∧
    (∀ k ∈ resultKeys u, t.g k = if s.b (K.tc_ACCUM u) then s.g k else 0) ∧ t.tst u = (if armWaits s u then TS.waitCal else TS.armed) ∧
    OtherTmus u s t ∧ TmuAnswered s t o Status.OK ∧
    OtherObjects ([K.tt_SAMPLES_DONE u, K.tt_END_STATUS u, K.tt_OUT_OF_LIMITS u, K.tt_STATE u, K.tt_CAL_HOLD u, K.tt_CAL_WAITS u, K.tk_TMU_CMD_STATUS] ++ resultKeys u) s t) ∧
  (∀ (o : Option Tag) (u : TmuId) (s : State), comes s o .timing (.tmuArm o u) = true → s.n (K.tmo_OWNER u) ≠ 0x80 →
    ∃ t, exec (.tmuArm o u) s = .next t ∧ t.tmus = s.tmus ∧ OtherObjects [K.tk_TMU_CMD_STATUS] s t ∧
    TmuAnswered s t o Status.TMU_NOT_OWNER) ∧
  (∀ (o : Option Tag) (u : TmuId) (s : State), comes s o .timing (.tmuArm o u) = true → s.n (K.tmo_OWNER u) = 0x80 → s.tmuBusy u = true →
    ∃ t, exec (.tmuArm o u) s = .next t ∧ t.tmus = s.tmus ∧ OtherObjects [K.tk_TMU_CMD_STATUS] s t ∧ TmuAnswered s t o Status.TMU_STATE) ∧
  (∀ (o : Option Tag) (u : TmuId) (s : State), comes s o .timing (.tmuDisarm o u) = true → s.n (K.tmo_OWNER u) = 0x80 →
    ∃ t, exec (.tmuDisarm o u) s = .next t ∧ TmuAnswered s t o Status.OK ∧ OtherTmus u s t ∧
    t.tst u = (if s.tmuBusy u then TS.done else s.tst u) ∧ t.g (K.tt_END_STATUS u) = (if s.tmuBusy u then 2 else s.g (K.tt_END_STATUS u)) ∧
    (s.tst u ≠ TS.waitCal → t.g (K.tt_CAL_WAIT_MAX u) = s.g (K.tt_CAL_WAIT_MAX u)) ∧ ((s.tmu u).skips = 0 → s.tst u ≠ TS.waitCal →
    ∀ k ∈ List.range 8, t.g (K.tv_MISSED (8 * u.val + k)) = s.g (K.tv_MISSED (8 * u.val + k))) ∧
    OtherObjects ([K.tt_STATE u, K.tt_END_STATUS u, K.tt_CAL_WAIT_MAX u, K.tk_TMU_CMD_STATUS] ++ (List.range 8).map (fun k => K.tv_MISSED (8 * u.val + k))) s t) ∧
  (∀ (o : Option Tag) (u : TmuId) (s : State), comes s o .timing (.tmuDisarm o u) = true → s.n (K.tmo_OWNER u) ≠ 0x80 →
    ∃ t, exec (.tmuDisarm o u) s = .next t ∧ t.tmus = s.tmus ∧ OtherObjects [K.tk_TMU_CMD_STATUS] s t ∧
    TmuAnswered s t o Status.TMU_NOT_OWNER)

/-- While the timing group runs, the first waiting TMUC command of the site with a code reaches the TMU of its slot (R405, R409):
ARM of a TMU at rest arms it; START of a GATED arming opens the start gate of the sample, or of the next one once the sample has
its start edge, and a gate that it replaces is skipped; STOP opens the gate of the next used stop of the sample whose START came
last (R415, R417); DISARM ends the arming. Any other command is discarded and counted (R409). When calibration releases the TMU,
or 200 us after the arming where it waits for a block (R428), an arming in WAIT_CAL stands ARMED and CAL_WAIT_MAX holds the
longest wait (R427). -/
def Obligations.TmuSequencerCommands : Prop :=
  (∀ (i : SiteId) (c : UnitCmd) (u : TmuId) (s : State), timingOn s = true → tmucNext s i 1 = some c → slotTmu s i c.unit = some u →
    s.tmuBusy u = false → ∃ t, exec (.tmucArm i) s = .next t ∧ t.unitCmds = s.unitCmds.erase c ∧
    t.tst u = (if armWaits s u then TS.waitCal else TS.armed) ∧ t.g (K.tt_SAMPLES_DONE u) = 0 ∧ t.g (K.tt_END_STATUS u) = 0 ∧
    OtherTmus u s t ∧
    OtherObjects ([K.tt_SAMPLES_DONE u, K.tt_END_STATUS u, K.tt_OUT_OF_LIMITS u, K.tt_STATE u, K.tt_CAL_HOLD u, K.tt_CAL_WAITS u] ++ resultKeys u) s t) ∧
  (∀ (i : SiteId) (c : UnitCmd) (u : TmuId) (s : State), timingOn s = true → tmucNext s i 2 = some c → slotTmu s i c.unit = some u →
    s.tmuBusy u = true → s.n (K.tc_GATE_MODE u) = 1 → ∃ t, exec (.tmucStart i) s = .next t ∧ t.unitCmds = s.unitCmds.erase c ∧
    (if (s.tmu u).start = none then (t.tmu u).gate = some { site := i, frame := c.frame } ∧ (t.tmu u).nextGate = (s.tmu u).nextGate ∧
    (t.tmu u).skips = (s.tmu u).skips + b2n (s.tmu u).gate.isSome ∧
    (t.tmu u).stopGates = (if (s.tmu u).gate = none then (s.tmu u).stopGates else []) else (t.tmu u).nextGate = some { site := i, frame := c.frame } ∧
    (t.tmu u).gate = (s.tmu u).gate ∧ (t.tmu u).skips = (s.tmu u).skips + b2n (s.tmu u).nextGate.isSome ∧
    (t.tmu u).stopGates = (s.tmu u).stopGates) ∧ OtherTmus u s t ∧ OtherObjects [] s t) ∧
  (∀ (i : SiteId) (c : UnitCmd) (u : TmuId) (s : State), timingOn s = true → tmucNext s i 3 = some c → slotTmu s i c.unit = some u →
    s.tmuBusy u = true → s.n (K.tc_GATE_MODE u) = 1 →
    (if (s.tmu u).nextGate.isSome then (s.tmu u).nextStops else (s.tmu u).stopGates).length < (usedStops s u).length →
    ∃ t, exec (.tmucStop i) s = .next t ∧ t.unitCmds = s.unitCmds.erase c ∧
    t.tmu u = (if (s.tmu u).nextGate.isSome then { s.tmu u with nextStops := (s.tmu u).nextStops ++ [{ site := i, frame := c.frame }] } else { s.tmu u with stopGates := (s.tmu u).stopGates ++ [{ site := i, frame := c.frame }] }) ∧
    OtherTmus u s t ∧ OtherObjects [] s t) ∧
  (∀ (i : SiteId) (c : UnitCmd) (u : TmuId) (s : State), timingOn s = true → tmucNext s i 4 = some c → slotTmu s i c.unit = some u →
    s.tmuBusy u = true → ∃ t, exec (.tmucDisarm i) s = .next t ∧ t.unitCmds = s.unitCmds.erase c ∧ t.tst u = TS.done ∧
    t.g (K.tt_END_STATUS u) = 2 ∧ t.tmu u = { undo := (s.tmu u).undo } ∧ OtherTmus u s t ∧ (s.tst u ≠ TS.waitCal →
    t.g (K.tt_CAL_WAIT_MAX u) = s.g (K.tt_CAL_WAIT_MAX u)) ∧ ((s.tmu u).skips = 0 → s.tst u ≠ TS.waitCal →
    ∀ k ∈ List.range 8, t.g (K.tv_MISSED (8 * u.val + k)) = s.g (K.tv_MISSED (8 * u.val + k))) ∧
    OtherObjects ([K.tt_STATE u, K.tt_END_STATUS u, K.tt_CAL_WAIT_MAX u] ++ (List.range 8).map (fun k => K.tv_MISSED (8 * u.val + k))) s t) ∧
  (∀ (p : Nat × (SiteId →
    Instr)) (i : SiteId) (c : UnitCmd) (u : TmuId) (s : State), p ∈ [(1, Instr.tmucArm), (2, .tmucStart), (3, .tmucStop), (4, .tmucDisarm)] →
    timingOn s = true → tmucNext s i p.1 = some c → slotTmu s i c.unit = some u →
    (if p.1 = 1 then s.tmuBusy u = true else s.tmuBusy u = false ∨ ((p.1 = 2 ∨ p.1 = 3) ∧ s.n (K.tc_GATE_MODE u) ≠ 1)) →
    ∃ t, exec (p.2 i) s = .next t ∧ t.unitCmds = s.unitCmds.erase c ∧
    t.n (K.tt_CMD_IGNORED u) = min (s.n (K.tt_CMD_IGNORED u) + 1) 4294967295 ∧ t.tmus = s.tmus ∧ OtherObjects [K.tt_CMD_IGNORED u] s t) ∧
  (∀ (u : TmuId) (s : State), timingOn s = true → s.tst u = TS.waitCal → (∀ b : BankId, bankTmu b = u → (s.calBank b).firm = true →
    (s.tmu u).waitAt + 160000 ≤ s.now) → ∃ t, exec (.tmuCalRelease u) s = .next t ∧ t.tst u = TS.armed ∧ t.g (K.tt_CAL_HOLD u) = 0 ∧
    t.g (K.tt_CAL_WAIT_MAX u) = max (s.g (K.tt_CAL_WAIT_MAX u)) ((s.now - (s.tmu u).waitAt) * 1250000 : Nat) ∧ ((s.tmu u).gate = none →
    t.tmu u = { s.tmu u with startAt := s.now }) ∧ OtherTmus u s t ∧ OtherObjects [K.tt_CAL_HOLD u, K.tt_CAL_WAIT_MAX u, K.tt_STATE u] s t)

/-- While the timing group runs: in FREE INTERVAL mode the start element's active edge makes an ARMED TMU ACTIVE with its
timestamp: the coarse count of 2,048 LSB, the fine code by the element's table, less the path offset of its source's kind (R399,
R401, R414; that offset's place is DEDUCED, assumption 208). The edge of a used stop that is at or after the start is kept with
its timestamp. An edge that is not the active one, one without lock and one in the open time after a sample are not captured
(R421). A used stop without an edge TIMEOUT after the start is missed (R417). A FREQUENCY gate ends after GATE_TIME, missed with
fewer than 2 edges (R420). A complete INTERVAL sample of stop 0 enters its first value into the statistics (R422), and after the
last sample of the arming it ends COMPLETE (R411). An unlock ends an arming UNLOCKED, and of a TMU at rest takes back the sample
whose last edge lies in the 16 SCLK before it (R403; DEDUCED, assumption 81). -/
def Obligations.TmuSamples : Prop :=
  (∀ (u : TmuId) (coarse : BitVec 40) (fine : Fin 2048) (rise : Bool) (at_ : Int) (s : State), timingOn s = true → s.tst u = TS.armed →
    s.b (K.tt_LOCKED u) = true → s.n (K.tc_MODE u) = 0 → s.n (K.tc_GATE_MODE u) = 0 → (s.tmu u).full = false → (s.tmu u).start = none →
    (s.tmu u).rearmAt ≤ s.now → ridgeUses s u = false → edgeActive s u (s.n (K.tc_START_SRC u)) rise at_ = true →
    ∃ t, exec (.tmuEdgeCapture u 0 coarse fine rise at_) s = .next t ∧ t.tst u = TS.active ∧
    (t.tmu u).start = some (2048 * (coarse.toNat : Int) + linOf (kgetD s.blobs (K.cb_TMU_LIN u) []) 0 fine - pathOf (kgetD s.blobs (K.cb_TMU_LIN u) []) (bits (s.n (K.tc_START_SRC u)) 12 4)) ∧
    t.tmu u = { s.tmu u with start := (t.tmu u).start, startAt := s.now, edgeAt := s.now } ∧ OtherTmus u s t ∧
    OtherObjects [K.tt_STATE u] s t) ∧
  (∀ (u : TmuId) (k : Fin 8) (elem : Fin 9) (coarse : BitVec 40) (fine : Fin 2048) (rise : Bool) (at_ t0 : Int) (s : State), timingOn s = true →
    s.tst u = TS.active → s.b (K.tt_LOCKED u) = true → s.n (K.tc_MODE u) = 0 → (s.tmu u).full = false → (s.tmu u).start = some t0 →
    (s.tmu u).rearmAt ≤ s.now → ridgeUses s u = false → elem.val = k.val + 1 → edgeActive s u (s.n (K.tc_STOP_SRC u k)) rise at_ = true →
    notEarlier t0 (timestamp s u elem coarse fine) = true → stopReady s u (s.tmu u) k at_ = true →
    ∃ t, exec (.tmuEdgeCapture u elem coarse fine rise at_) s = .next t ∧ t.tst u = TS.active ∧
    kget? (t.tmu u).stops k = some (timestamp s u elem coarse fine) ∧
    t.tmu u = { s.tmu u with stops := (t.tmu u).stops, edgeAt := s.now, full := (t.tmu u).full } ∧ OtherTmus u s t ∧ OtherObjects [] s t) ∧
  (∀ (u : TmuId) (elem : Fin 9) (coarse : BitVec 40) (fine : Fin 2048) (rise : Bool) (at_ : Int) (s : State), edgeActive s u (elemSrc s u elem) rise at_ = false ∨
    s.b (K.tt_LOCKED u) = false ∨ s.now < (s.tmu u).rearmAt → exec (.tmuEdgeCapture u elem coarse fine rise at_) s = .next s.fresh) ∧
  (∀ (u : TmuId) (k : Fin 8) (s : State), timingOn s = true → s.tst u = TS.active → (s.tmu u).start.isSome = true → (s.tmu u).full = false →
    s.n (K.tc_MODE u) = 0 → (usedStops s u).contains k.val = true → (kget? (s.tmu u).stops k).isNone = true →
    (s.tmu u).missed.contains k.val = false → (s.tmu u).startAt + s.n (K.tc_TIMEOUT u) / 1250000 ≤ s.now →
    ∃ t, exec (.tmuStopTimeout u k) s = .next t ∧ t.tmu u = { s.tmu u with missed := (s.tmu u).missed ++ [k.val], full := (t.tmu u).full } ∧
    (t.tmu u).full = (usedStops s u).all (fun j => (kget? (s.tmu u).stops j).isSome || ((s.tmu u).missed ++ [k.val]).contains j) ∧
    OtherTmus u s t ∧ OtherObjects [] s t) ∧
  (∀ (u : TmuId) (s : State), timingOn s = true → (s.tst u = TS.armed ∨ s.tst u = TS.active) → s.n (K.tc_MODE u) = 2 →
    ridgeUses s u = false → (s.tmu u).full = false → freqBegun s u (s.tmu u) = true →
    (s.tmu u).startAt + s.n (K.tc_GATE_TIME u) / 1250000 ≤ s.now → ∃ t, exec (.frequencyGateEnd u) s = .next t ∧ t.tst u = TS.active ∧
    t.tmu u = { s.tmu u with full := true, missed := if (s.tmu u).edges < 2 then [0] else (s.tmu u).missed } ∧ OtherTmus u s t ∧
    OtherObjects [K.tt_STATE u] s t) ∧
  (∀ (u : TmuId) (t0 t1 : Int) (s : State), timingOn s = true → s.tst u = TS.active → (s.tmu u).full = true → s.n (K.tc_QUAL u) = 0 →
    s.n (K.tc_MODE u) = 0 → (s.tmu u).start = some t0 → (s.tmu u).stops = [(0, t1)] → (s.tmu u).missed = [] → (s.tmu u).skips = 0 →
    (s.tmu u).edgeAt + 12 ≤ s.now → s.n (K.tv_COUNT (8 * u.val)) = 0 → s.n (K.tv_EXCLUDED (8 * u.val)) = 0 →
    s.g (K.tv_S1_LO (8 * u.val)) = 0 → s.g (K.tv_S1_HI (8 * u.val)) = 0 → s.g (K.tv_S2_LO (8 * u.val)) = 0 →
    s.g (K.tv_S2_HI (8 * u.val)) = 0 → s.g (K.tt_SAMPLES_DONE u) + 1 = s.g (K.tc_SAMPLES u) → ∃ t, exec (.tmuSampleComplete u) s = .next t ∧
    t.tst u = TS.done ∧ t.g (K.tt_END_STATUS u) = 1 ∧ t.g (K.tt_SAMPLES_DONE u) = s.g (K.tc_SAMPLES u) ∧ t.g (K.tv_COUNT (8 * u.val)) = 1 ∧
    t.g (K.tv_FIRST_RAW (8 * u.val)) = interval t0 t1 ∧ t.g (K.tv_LAST_RAW (8 * u.val)) = interval t0 t1 ∧
    t.g (K.tv_MIN_RAW (8 * u.val)) = interval t0 t1 ∧ t.g (K.tv_MAX_RAW (8 * u.val)) = interval t0 t1 ∧ t.g (K.tv_S1_LO (8 * u.val)) = 0 ∧
    t.g (K.tv_S2_LO (8 * u.val)) = 0 ∧ OtherTmus u s t ∧
    OtherObjects ([K.tt_STATE u, K.tt_END_STATUS u, K.tt_SAMPLES_DONE u, K.tt_OUT_OF_LIMITS u] ++ stopKeys u 0) s t) ∧
  (∀ (u : TmuId) (s : State), timingOn s = true → s.tmuBusy u = true → (s.tmu u).undo.all (fun q => decide (q.1 + 16 < s.now)) = true →
    ∃ t, exec (.tmuUnlock u) s = .next t ∧ t.g (K.tt_LOCKED u) = 0 ∧ t.tst u = TS.done ∧ t.g (K.tt_END_STATUS u) = 3 ∧ t.tmu u = {} ∧
    OtherTmus u s t ∧ (s.tst u ≠ TS.waitCal → t.g (K.tt_CAL_WAIT_MAX u) = s.g (K.tt_CAL_WAIT_MAX u)) ∧ ((s.tmu u).skips = 0 →
    s.tst u ≠ TS.waitCal → ∀ k ∈ List.range 8, t.g (K.tv_MISSED (8 * u.val + k)) = s.g (K.tv_MISSED (8 * u.val + k))) ∧
    OtherObjects ([K.tt_LOCKED u, K.tt_STATE u, K.tt_END_STATUS u, K.tt_CAL_WAIT_MAX u] ++ (List.range 8).map (fun k => K.tv_MISSED (8 * u.val + k))) s t) ∧
  (∀ (u : TmuId) (at_ : Nat) (old : List (Nat × Int)) (s : State), timingOn s = true → s.tmuBusy u = false →
    (s.tmu u).undo = some (at_, old) → s.now ≤ at_ + 16 → ∃ t, exec (.tmuUnlock u) s = .next t ∧ t.g (K.tt_LOCKED u) = 0 ∧
    t.tst u = s.tst u ∧ (t.tmu u).undo = none ∧ OtherTmus u s t ∧
    (∀ k ∈ K.tt_SAMPLES_DONE u :: resultKeys u, t.g k = (kget? old k).getD (s.g k)) ∧
    OtherObjects ([K.tt_LOCKED u, K.tt_SAMPLES_DONE u] ++ resultKeys u) s t)

/-- While the timing group runs, the first waiting WFE command of the site with a code reaches the engine it names, where that
engine is assigned to the site (R349). START in IDLE or ENDED: DEAD, GRANULES, F_NOW and TRIG_PENDING 0, phase 0, four granules
of dead time and no request pending (R373). STOP, JUMP and FLIST of an engine in DEAD, PLAYING or WAITING (DESIGN CHOICE,
assumption 227) leave a request of this SCLK, a STOP beside one that waits none; TRIGGER releases a wait for TRIGGER once, and
else sets TRIG_PENDING, but for FAULTED (R374; DEDUCED, assumption 76). In any other state the command is discarded and counted
(R373). -/
def Obligations.WaveCommands : Prop :=
  (∀ (i : SiteId) (c : UnitCmd) (e : EngId) (s : State), timingOn s = true → WfeWaits i 1 c e s → (s.wst e = WS.idle ∨ s.wst e = WS.ended)
    → ∃ t, exec (.wfeStart i) s = .next t ∧ t.unitCmds = s.unitCmds.erase c ∧ t.wst e = WS.dead ∧ t.g (K.ws_GRANULES e) = 0 ∧
    t.g (K.ws_F_NOW e) = 0 ∧ t.g (K.ws_TRIG_PENDING e) = 0 ∧ t.g (K.ws_MK_NOW e) = 0 ∧ (t.eng e).startFrame = some c.frame ∧
    (t.eng e).target = bits c.imm 0 14 ∧ (t.eng e).dead = 4 ∧ (t.eng e).phase = 0 ∧ (t.eng e).ts = none ∧ (t.eng e).jump = none ∧
    (t.eng e).stopAt = none ∧ (t.eng e).flist = none ∧ (t.eng e).release = none ∧ (t.eng e).steps = (s.eng e).steps ∧ OtherEngs e s t ∧
    OtherObjects [K.ws_WF_STATE e, K.ws_GRANULES e, K.ws_F_NOW e, K.ws_TRIG_PENDING e, K.ws_MK_NOW e] s t) ∧
  (∀ (i : SiteId) (c : UnitCmd) (e : EngId) (s : State), timingOn s = true → WfeWaits i 2 c e s → wAlive s e = true →
    ∃ t, exec (.wfeStop i) s = .next t ∧ t.unitCmds = s.unitCmds.erase c ∧
    t.eng e = { s.eng e with stopAt := some ((s.eng e).stopAt.getD s.now) } ∧ t.g (K.ws_TRIG_PENDING e) = 0 ∧ OtherEngs e s t ∧
    OtherObjects [K.ws_TRIG_PENDING e] s t) ∧
  (∀ (i : SiteId) (c : UnitCmd) (e : EngId) (s : State), timingOn s = true → WfeWaits i 3 c e s → wAlive s e = true →
    s.g (K.ws_JUMPS_REPLACED e) < 4294967295 → ∃ t, exec (.wfeJump i) s = .next t ∧ t.unitCmds = s.unitCmds.erase c ∧
    t.eng e = { s.eng e with jump := some { target := bits c.imm 0 14, at_ := s.now, seq := true } } ∧
    t.g (K.ws_JUMPS_REPLACED e) = (if (s.eng e).jump.isSome then s.g (K.ws_JUMPS_REPLACED e) + 1 else s.g (K.ws_JUMPS_REPLACED e)) ∧
    OtherEngs e s t ∧ OtherObjects [K.ws_JUMPS_REPLACED e] s t) ∧
  (∀ (i : SiteId) (c : UnitCmd) (e : EngId) (s : State), timingOn s = true → WfeWaits i 4 c e s → s.wst e ≠ WS.faulted →
    (s.wst e ≠ WS.waiting ∨ Step.waitsrc ((s.eng e).step (s.n (K.ws_STEP e))) ≠ 1) → ∃ t, exec (.wfeTrigger i) s = .next t ∧
    t.unitCmds = s.unitCmds.erase c ∧ t.g (K.ws_TRIG_PENDING e) = 1 ∧ t.engs = s.engs ∧ OtherObjects [K.ws_TRIG_PENDING e] s t) ∧
  (∀ (i : SiteId) (c : UnitCmd) (e : EngId) (s : State), timingOn s = true → WfeWaits i 4 c e s → s.wst e = WS.waiting →
    Step.waitsrc ((s.eng e).step (s.n (K.ws_STEP e))) = 1 → ∃ t, exec (.wfeTrigger i) s = .next t ∧ t.unitCmds = s.unitCmds.erase c ∧
    t.eng e = { s.eng e with release := some ((s.eng e).release.getD s.now) } ∧ OtherEngs e s t ∧ OtherObjects [] s t) ∧
  (∀ (i : SiteId) (c : UnitCmd) (e : EngId) (s : State), timingOn s = true → WfeWaits i 5 c e s → wAlive s e = true →
    ∃ t, exec (.wfeFlist i) s = .next t ∧ t.unitCmds = s.unitCmds.erase c ∧
    t.eng e = { s.eng e with flist := some (bits c.imm 0 12, s.now) } ∧ OtherEngs e s t ∧ OtherObjects [] s t) ∧
  (∀ (p : Nat × (SiteId →
    Instr)) (i : SiteId) (c : UnitCmd) (e : EngId) (s : State), p ∈ [(1, Instr.wfeStart), (2, .wfeStop), (3, .wfeJump), (4, .wfeTrigger), (5, .wfeFlist)] →
    timingOn s = true → WfeWaits i p.1 c e s → (if p.1 = 1 then s.wst e ≠ WS.idle ∧
    s.wst e ≠ WS.ended else if p.1 = 4 then s.wst e = WS.faulted else wAlive s e = false) → ∃ t, exec (p.2 i) s = .next t ∧
    t.unitCmds = s.unitCmds.erase c ∧ t.engs = s.engs ∧ t.n (K.ws_CMD_IGNORED e) = min (s.n (K.ws_CMD_IGNORED e) + 1) 4294967295 ∧
    OtherObjects [K.ws_CMD_IGNORED e, K.ws_LAST_WF_FAULT e] s t)

/-- While the timing group runs: a boundary in dead time, no FLIST pending, begins a granule of PARK_WORD and counts it (R373,
R354). After the dead time the target step begins, here a DDS step without a wait while no request is pending: it plays with
REPEAT further plays and F from the frequency list, and the phase, 0 first under PHMODE, advances by 64 F; its 64 play words
follow the phase (R358, R369). The objects 4420h then read as they stand at the boundary (R396). A granule of sample data that
may be late takes PARK_WORD and starts a recovery of four granules (R389; when it may be late is DEDUCED, assumption 202), after
whose end the play goes on; an uncorrectable error in sample data ends in FAULTED with the segment FAILED (R390). -/
def Obligations.WaveGranules : Prop :=
  (∀ (e : EngId) (ts : Int) (s : State), timingOn s = true → (s.eng e).ts = some ts → s.wst e = WS.dead → 0 < (s.eng e).dead →
    (s.eng e).flist = none → handSclk s e (ts + (slotLen s e * 64 * (s.eng e).gran : Nat)) ≤ s.now →
    ∃ t, exec (.granuleBoundary e) s = .next t ∧
    t.eng e = { s.eng e with dead := (s.eng e).dead - 1, gran := (s.eng e).gran + 1, phase := ((s.eng e).phase + 64 * s.n (K.ws_F_NOW e)) % 2 ^ 48, recovery := if (s.eng e).recovery = some 0 then none else (s.eng e).recovery.map (fun q => q - 1), snap := engObjects t e } ∧
    ((s.eng e).cfgOld = [] → kget? (s.eng e).play (s.eng e).gran = none →
    ∀ j ∈ List.range 64, slotWord t e ts (64 * (s.eng e).gran + j) = (BitVec.ofNat 16 (s.n (K.wc_PARK_WORD e)), false)) ∧
    t.g (K.ws_GRANULES e) = s.g (K.ws_GRANULES e) + 1 ∧ OtherEngs e s t ∧ OtherObjects [K.ws_GRANULES e] s t) ∧
  (∀ (e : EngId) (ts : Int) (w : BitVec 128) (s : State), timingOn s = true → (s.eng e).ts = some ts → s.wst e = WS.dead →
    (s.eng e).dead = 0 → handSclk s e (ts + (slotLen s e * 64 * (s.eng e).gran : Nat)) ≤ s.now → (s.eng e).flist = none →
    (s.eng e).jump = none → (s.eng e).stopAt = none → (s.eng e).recovery = none → (s.eng e).step (s.eng e).target = w → Step.kind w = 1 →
    Step.waitsrc w = 0 → ∃ t, exec (.granuleBoundary e) s = .next t ∧ t.wst e = WS.playing ∧ t.n (K.ws_STEP e) = (s.eng e).target ∧
    t.n (K.ws_PLAYS_LEFT e) = Step.rep w ∧ t.n (K.ws_F_NOW e) = kgetD (effLists s e).f (Step.fidx w) 0 ∧ (t.eng e).pos = 1 ∧
    (t.eng e).phase = ((if Step.phmode w then 0 else (s.eng e).phase) + 64 * kgetD (effLists s e).f (Step.fidx w) 0) % 2 ^ 48 ∧
    kget? (t.eng e).play (s.eng e).gran = some ((List.range 64).map (fun j => ddsWord (((if Step.phmode w then 0 else (s.eng e).phase) + j * kgetD (effLists s e).f (Step.fidx w) 0) % 2 ^ 48) (kgetD (effLists s e).p (Step.pidx w) 0) (kgetD (effLists s e).a (Step.aidx w) 0))) ∧
    (t.eng e).snap = engObjects t e ∧ t.g (K.ws_GRANULES e) = s.g (K.ws_GRANULES e) + 1 ∧ OtherEngs e s t ∧
    OtherObjects [K.ws_WF_STATE e, K.ws_STEP e, K.ws_PLAYS_LEFT e, K.ws_F_NOW e, K.ws_MK_NOW e, K.ws_GRANULES e] s t) ∧
  (∀ (e : EngId) (s : State), timingOn s = true → sampleDue s e = true → mayBeLate s e = true →
    s.g (K.ws_LATE_GRANULES e) < 18446744073709551615 → ∃ t, exec (.wfSampleLate e) s = .next t ∧
    t.eng e = { s.eng e with recovery := some 4, play := kdel (s.eng e).play ((s.eng e).gran - 1) } ∧
    t.g (K.ws_LATE_GRANULES e) = s.g (K.ws_LATE_GRANULES e) + 1 ∧ t.n (K.ws_LAST_WF_FAULT e) = Src.WF_SAMPLE_LATE e ∧ t.wst e = WS.playing ∧
    OtherEngs e s t ∧ OtherObjects [K.ws_LATE_GRANULES e, K.ws_LAST_WF_FAULT e] s t) ∧
  (∀ (e : EngId) (s : State), timingOn s = true → (s.eng e).recovery = some 0 → ∃ t, exec (.wfRecoveryEnd e) s = .next t ∧
    t.eng e = { s.eng e with recovery := none } ∧ OtherEngs e s t ∧ OtherObjects [] s t) ∧
  (∀ (e : EngId) (stack : Fin 4) (x : Seg) (s : State), timingOn s = true → sampleDue s e = true →
    s.seg? (Step.seg ((s.eng e).step (s.n (K.ws_STEP e)))) = some x → s.g K.hs_HBM_UE < 18446744073709551615 →
    ∃ t, exec (.wfSampleUe e stack) s = .next t ∧ t.wst e = WS.faulted ∧
    (t.seg? (Step.seg ((s.eng e).step (s.n (K.ws_STEP e))))).map (·.st) = some .failed ∧ kget? (t.eng e).play ((s.eng e).gran - 1) = none ∧
    t.g K.hs_HBM_UE = s.g K.hs_HBM_UE + 1 ∧ ((kgetD s.flt.srcs (Src.HBM_UE stack) {}).active = false →
    t.flt.reports = s.flt.reports ++ [{ src := Src.HBM_UE stack, sites := engMask s e, detail := 0 }]) ∧ OtherEngs e s t ∧
    OtherObjects [K.ws_WF_STATE e, K.ws_MK_NOW e, K.hs_HBM_UE] s t)

/-- While the timing domain runs, LVL_LOAD issues the strobe of each named bank in BANK_CMD, and with DEVICE of every bank in
DEVICE_CMD, unless one is on its way (R494, R495). In the SCLK after its issue, or later, a strobe loads the pending code of
every DAC of the bank that has one (R496): the output of a DAC that the change does not hold moves to it, the others keep their
level and are released 1,600 SCLK later (R497), to the code of the string. The end of re-ranging starts the hold of a DAC whose
strobe has come (R499). -/
def Obligations.LevelLoads : Prop :=
  (∀ (v : BitVec 16) (s : State), domRuns s .timing = true → ∃ t, exec (.lvlLoad v) s = .next t ∧ OtherObjects [] s t ∧
    t.lvl.dacs = s.lvl.dacs ∧ (∀ b : BankId, kget? t.lvl.strobes b.val = (if ((s.n (K.lb_LOAD_MODE b) = 1 ∧ v.getLsbD b.val = true) ∨
    (s.n (K.lb_LOAD_MODE b) = 2 ∧ v.getLsbD 8 = true)) ∧ kget? s.lvl.strobes b.val = none then some s.now else kget? s.lvl.strobes b.val))) ∧
  (∀ (b : BankId) (at_ : Nat) (s : State), timingOn s = true → kget? s.lvl.strobes b.val = some at_ → at_ + 1 ≤ s.now →
    s.g (K.lb_BANK_STROBES b) < 4294967295 → ∃ t, exec (.loadStrobe b) s = .next t ∧ kget? t.lvl.strobes b.val = none ∧
    t.g (K.lb_BANK_STROBES b) = s.g (K.lb_BANK_STROBES b) + 1 ∧ (∀ d : DacId, dacBank d = b.val → statusBit s d 1 = true →
    t.n (K.da_CODE d) = s.n (K.da_PENDING d) ∧ statusBit t d 1 = false ∧ (((heldBy s b).contains d = true ∨ statusBit s d 0 = true) →
    (t.dac d).level = (s.dac d).level ∧ statusBit t d 0 = true ∧
    (t.dac d).release = if (s.dac d).rerange then none else some (s.now + 1600)) ∧ ((heldBy s b).contains d = false →
    statusBit s d 0 = false → (t.dac d).level = s.n (K.da_PENDING d))) ∧ (∀ d : DacId, (dacBank d ≠ b.val ∨ statusBit s d 1 = false) →
    t.dac d = s.dac d ∧ t.g (K.da_CODE d) = s.g (K.da_CODE d) ∧ t.g (K.da_STATUS d) = s.g (K.da_STATUS d))) ∧
  (∀ (b : BankId) (s : State), timingOn s = true → ∃ t, exec (.deglitchRelease b) s = .next t ∧
    (∀ (d : DacId) (at_ : Nat), dacBank d = b.val → statusBit s d 0 = true → (s.dac d).release = some at_ → at_ ≤ s.now →
    statusBit t d 0 = false ∧ t.dac d = { s.dac d with level := s.n (K.da_CODE d), release := none }) ∧ (∀ d : DacId, (dacBank d ≠ b.val ∨
    statusBit s d 0 = false) → t.dac d = s.dac d ∧ t.g (K.da_STATUS d) = s.g (K.da_STATUS d))) ∧
  (∀ (d : DacId) (s : State), (s.dac d).rerange = true → ∃ t, exec (.rerangeEnd d) s = .next t ∧
    t.dac d = { s.dac d with rerange := false, release := if (s.dac d).needStrobe then none else some (s.now + 1600) } ∧
    (∀ e : DacId, e ≠ d → t.dac e = s.dac e) ∧ OtherObjects [] s t)

/-- A current DAC at 10 mA or more outside compliance sets COMPLIANCE and, at or above 4.8 V, OPEN_LOAD as well, with the source
of the higher active (R500; DEDUCED, assumption 97); another DAC sets neither. A voltage DAC in current limit sets OVERLOAD
(R501). The absence of a condition clears its bit and, where its dual-rail pair is whole, its source. The reference rows set
REF_OK and the source (R503; DESIGN CHOICE, assumption 98). CODE and the outputs stay. -/
def Obligations.LevelProtection : Prop :=
  (∀ (d : DacId) (s : State), isCurrent d = true → 10000 ≤ s.g (K.da_TARGET_I d) → ∃ t, exec (.lvlCompliance d false) s = .next t ∧
    statusBit t d 3 = true ∧ (kgetD t.flt.srcs (Src.LVL_COMPLIANCE d) {}).active = true ∧ t.lvl = s.lvl ∧ OtherObjects [K.da_STATUS d] s t) ∧
  (∀ (d : DacId) (s : State), isCurrent d = true → 10000 ≤ s.g (K.da_TARGET_I d) → ∃ t, exec (.lvlCompliance d true) s = .next t ∧
    statusBit t d 3 = true ∧ statusBit t d 4 = true ∧ (kgetD t.flt.srcs (Src.LVL_OPEN_LOAD d) {}).active = true ∧ t.lvl = s.lvl ∧
    OtherObjects [K.da_STATUS d] s t) ∧
  (∀ (d : DacId) (openLoad : Bool) (s : State), (isCurrent d = false ∨ s.g (K.da_TARGET_I d) < 10000) →
    ∃ t, exec (.lvlCompliance d openLoad) s = .next t ∧ t.lvl = s.lvl ∧ t.flt = s.flt ∧ OtherObjects [] s t) ∧
  (∀ (d : DacId) (s : State), isCurrent d = false → ∃ t, exec (.lvlOverload d) s = .next t ∧ statusBit t d 5 = true ∧
    (kgetD t.flt.srcs (Src.LVL_OVERLOAD d) {}).active = true ∧ t.lvl = s.lvl ∧ OtherObjects [K.da_STATUS d] s t) ∧
  (∀ (d : DacId) (which : Fin 3) (s : State), Whole s (detectSrc which d) → ∃ t, exec (.lvlDetectClear d which) s = .next t ∧
    statusBit t d (3 + which.val) = false ∧ Quiet t (detectSrc which d) ∧ t.lvl = s.lvl ∧ OtherObjects [K.da_STATUS d] s t) ∧
  (∀ (b : BankId) (outside : Bool) (s : State), (outside = true ∨ Whole s (Src.LVL_REF_FAULT b)) →
    ∃ t, exec (.lvlRefFault b outside) s = .next t ∧ t.g (K.lb_REF_OK b) = b2i (!outside) ∧
    (kgetD t.flt.srcs (Src.LVL_REF_FAULT b) {}).active = outside ∧ t.lvl = s.lvl ∧ OtherObjects [K.lb_REF_OK b] s t)

/-- While the timing domain runs: NATIVE answers its check's status; when that is 0000h the run owns the named banks, whose other
calibration is dropped, and holds their TMUs where no user arming is in progress (R442, R445, R426). NATIVE_ABORT marks the run
(R448), which a measurement's end then ends. A bank whose channels all succeed publishes them in one transaction, at once or as
soon as the objects are open and the budget allows it (DESIGN CHOICE, assumption 90): RT, the offsets, CAL_KIND 1 and CAL_TEMP
(R446, R447); one whose seal session does not cover it reports SEAL_CLOSED (R473), and one with a failing channel CAL_MEAS_FAIL
with the lowest one, and neither publishes. LIVE_NOW queues an eligible channel or begins a legacy pass of its bank (DEDUCED,
assumption 223), and is refused with CAL_MODE otherwise (R450). The tick records each bank's mean temperature and queues an
enabled channel that has moved by TEMP_TRIGGER; with LIVE_MODE OFF and the references within their limits it queues nothing. -/
def Obligations.CalibrationNativeRun : Prop :=
  (∀ (parts : BitVec 6) (banks : BitVec 8) (fm vm : Nat) (s : State), domRuns s .timing = true →
    nativeCheck s.fresh parts.toNat banks.toNat fm vm = 0 → ∃ t, exec (.native parts banks fm vm) s = .next t ∧
    t.g K.cl_CAL_LAST_STATUS = 0 ∧ t.g K.cl_CAL_STATE = 1 ∧
    t.cal.native = some { parts := parts.toNat, banks := banks.toNat, left := banks.toNat } ∧
    (∀ b : BankId, t.calBank b = if banks.getLsbD b.val then {} else s.calBank b) ∧ (∀ b : BankId, s.tmuBusy (bankTmu b) = false →
    t.g (K.tt_CAL_HOLD (bankTmu b)) = if banks.getLsbD b.val then 1 else s.g (K.tt_CAL_HOLD (bankTmu b))) ∧
    ((∀ b : BankId, banks.getLsbD b.val = true → s.calBank b = {}) →
    OtherObjects ([K.cl_CAL_LAST_STATUS, K.cl_CAL_STATE] ++ allTmus.map (fun (u : TmuId) => K.tt_CAL_HOLD u)) s t) ∧
    OtherObjects ([K.cl_CAL_LAST_STATUS, K.cl_CAL_STATE] ++ allTmus.map (fun (u : TmuId) => K.tt_CAL_HOLD u) ++ allChans.map (fun (c : ChanId) => K.cc_CAL_STATUS c) ++ (List.finRange 16).flatMap (fun (p : SparId) => [K.sp_SPAR_STATE p, K.sp_SPAR_CHAN p, K.sp_TRIM_DD p, K.sp_TRIM_DE p])) s t) ∧
  (∀ (parts : BitVec 6) (banks : BitVec 8) (fm vm : Nat) (s : State), domRuns s .timing = true →
    nativeCheck s.fresh parts.toNat banks.toNat fm vm ≠ 0 → ∃ t, exec (.native parts banks fm vm) s = .next t ∧
    t.n K.cl_CAL_LAST_STATUS = nativeCheck s.fresh parts.toNat banks.toNat fm vm ∧ t.cal = s.cal ∧ OtherObjects [K.cl_CAL_LAST_STATUS] s t) ∧
  (∀ (n : NativeRun) (s : State), domRuns s .timing = true → s.cal.native = some n → ∃ t, exec (.nativeAbort) s = .next t ∧
    t.cal.native = some { n with aborted := true } ∧ t.g K.cl_CAL_LAST_STATUS = 0 ∧ OtherObjects [K.cl_CAL_LAST_STATUS] s t) ∧
  (∀ (b : BankId) (fm vm : Nat) (n : NativeRun) (s : State), timingOn s = true → s.cal.native = some n → n.aborted = true →
    ∃ t, exec (.calBlockEnd b .native fm vm) s = .next t ∧ t.cal.native = none ∧ t.dict.outs = s.dict.outs ∧
    t.n K.cl_CAL_STATE = (if s.g K.cl_LIVE_MODE = 0 then 0 else if s.cal.refLost then 3 else 2)) ∧
  (∀ (b : BankId) (r : BankMeas) (n : NativeRun) (c : ChanId) (v : (Int × Int × Int) × List Int) (s : State), timingOn s = true →
    s.cal.native = some n → nativeReady s n b = true → (nativeResults s.fresh b n.parts r).all (fun e => e.2.2.isSome) = true →
    timingParts n.parts = true → sealCovers s (nativeKeys b n.parts r) = true → (∀ x : ChanId, bankOf x = b → chanActive s x = false) →
    bankOf c = b → nativeChan s.fresh n.parts c (measOf r c) = some v → s.g (K.cc_CAL_COUNT c) < 4294967295 →
    ∃ t, exec (.nativeBankComplete b r) s = .next t ∧ t.cal.native = some n ∧
    Publishes (.native b true) 0 0 (nativeKeys b n.parts r) ([(K.cc_RT c, v.1.1), (K.cc_RT_DE c, v.1.2.1), (K.cc_RET c, v.1.2.2), (K.cc_CAL_KIND c, 1), (K.cc_CAL_TEMP c, s.g (K.cb_BANK_TEMP b)), (K.cc_CAL_COUNT c, s.g (K.cc_CAL_COUNT c) + 1)] ++ (List.range 10).map (fun k => (K.cc_OFS c k, v.2.getD k 0))) s t ∧
    (n.parts.testBit 4 = false → OtherObjects [] s t)) ∧
  (∀ (b : BankId) (r : BankMeas) (n : NativeRun) (s : State), timingOn s = true → s.cal.native = some n → nativeReady s n b = true →
    (nativeResults s.fresh b n.parts r).all (fun e => e.2.2.isSome) = true → sealCovers s (nativeKeys b n.parts r) = false →
    ∃ t, exec (.nativeBankComplete b r) s = .next t ∧ t.n K.cl_CAL_LAST_STATUS = Status.SEAL_CLOSED ∧ t.dict.outs = s.dict.outs ∧
    t.cal.held = s.cal.held) ∧
  (∀ (b : BankId) (r : BankMeas) (n : NativeRun) (c : ChanId) (s : State), timingOn s = true → s.cal.native = some n →
    nativeReady s n b = true → n.left ≠ 2 ^ b.val → bankOf c = b → nativeChan s.fresh n.parts c (measOf r c) = none → (∀ x : ChanId, x < c →
    bankOf x = b → (nativeChan s.fresh n.parts x (measOf r x)).isSome = true) → ∃ t, exec (.nativeBankComplete b r) s = .next t ∧
    t.n K.cl_CAL_LAST_STATUS = Status.CAL_MEAS_FAIL ∧ t.n K.cl_CAL_FAIL_CHAN = c.val ∧ t.g (K.cc_CAL_STATUS c) = 4 ∧
    t.dict.outs = s.dict.outs ∧ (∀ x : ChanId, ∀ k, k < 10 → t.g (K.cc_OFS x k) = s.g (K.cc_OFS x k)) ∧
    t.cal.native = some { n with left := n.left - 2 ^ b.val }) ∧
  (∀ (c : ChanId) (fm vm : Nat) (s : State), domRuns s .timing = true → eligibleChan s c = true → gateOn s (bankOf c).val = true →
    (s.calBank (bankOf c)).liveNow.contains c.val = false → (s.calBank (bankOf c)).cur = none → (s.calBank (bankOf c)).busy = true →
    refsOk s fm vm = true → ∃ t, exec (.liveNow ⟨c, fm, vm⟩) s = .next t ∧ t.g K.cl_CAL_LAST_STATUS = 0 ∧ t.g (K.cc_CAL_STATUS c) = 1 ∧
    (t.calBank (bankOf c)).liveNow = (s.calBank (bankOf c)).liveNow ++ [c.val] ∧ OtherBanks (bankOf c) s t ∧
    OtherObjects ([K.cl_CAL_LAST_STATUS, K.cc_CAL_STATUS c] ++ holdKeys (bankOf c)) s t) ∧
  (∀ (c : ChanId) (fm vm : Nat) (s : State), domRuns s .timing = true → s.g K.cl_LIVE_MODE = 2 → takesPart s c = true →
    gateOn s (bankOf c).val = true → (s.calBank (bankOf c)).legacy = none → (s.calBank (bankOf c)).go = [] →
    s.tmuBusy (bankTmu (bankOf c)) = false → ∃ t, exec (.liveNow ⟨c, fm, vm⟩) s = .next t ∧ t.g K.cl_CAL_LAST_STATUS = 0 ∧
    (t.calBank (bankOf c)).legacy = some [] ∧ OtherBanks (bankOf c) s t ∧ OtherObjects ([K.cl_CAL_LAST_STATUS] ++ holdKeys (bankOf c)) s t) ∧
  (∀ (c : ChanId) (fm vm : Nat) (s : State), domRuns s .timing = true → (s.g K.cl_LIVE_MODE = 0 ∨ takesPart s c = false ∨
    gateOn s (bankOf c).val = false) → ∃ t, exec (.liveNow ⟨c, fm, vm⟩) s = .next t ∧ t.n K.cl_CAL_LAST_STATUS = Status.CAL_MODE ∧
    t.cal = s.cal ∧ OtherObjects [K.cl_CAL_LAST_STATUS] s t) ∧
  (∀ (m : RefMeas) (dacs : List (DacId × Int)) (s : State), timingOn s = true → s.g K.cl_LIVE_MODE = 0 → refsOk s m.freq m.volt = true →
    ∃ t, exec (.calTick m dacs) s = .next t ∧ t.cal.native = s.cal.native ∧ t.cal.refLost = s.cal.refLost ∧ t.dict.outs = s.dict.outs ∧
    (∀ b : BankId, (t.calBank b).cur.map (fun w => (w.chan, w.spar, w.phase)) = (s.calBank b).cur.map (fun w => (w.chan, w.spar, w.phase)) ∧
    (t.calBank b).queue = (s.calBank b).queue ∧ (t.calBank b).liveNow = (s.calBank b).liveNow) ∧
    (∀ b : BankId, t.g (K.cb_BANK_TEMP b) = bankTemp s b) ∧ t.g K.cl_CAL_STATE = (if s.cal.native.isSome then 1 else 0)) ∧
  (∀ (m : RefMeas) (dacs : List (DacId × Int)) (c : ChanId) (s : State), timingOn s = true → eligibleChan s c = true →
    gateOn s (bankOf c).val = true → (s.calBank (bankOf c)).busy = true → (s.calBank (bankOf c)).cur = none →
    (s.calBank (bankOf c)).queue.contains c.val = false → (s.calBank (bankOf c)).liveNow.contains c.val = false →
    (∀ d : BankId, d ≠ bankOf c → ((s.calBank d).queue ++ (s.calBank d).liveNow).contains c.val = false ∧
    (s.calBank d).cur.all (fun w => w.chan != c) = true) → s.cal.barred.contains c.val = false →
    s.g K.cl_TEMP_TRIGGER ≤ iabs (bankTemp s (bankOf c) - s.g (K.cc_CAL_TEMP c)) → ∃ t, exec (.calTick m dacs) s = .next t ∧
    (t.calBank (bankOf c)).queue.contains c.val = true ∧ t.g (K.cc_CAL_STATUS c) = 1)

/-- While the timing group runs: a block that goes on counts; the measured delays of a channel in direct calibration are
published as its offsets, with the record of kind 2, and those of the TMU as its linearity (R435, R447, R451, R453), at once or
when they may be (DESIGN CHOICE, assumption 90); at the apply point of the direct one, while no other apply is due, they are in
force and the work ends (R17). With the references measured outside their limits live calibration is suspended, and resumes with
CALREF (R439; DESIGN CHOICE, assumption 222). A direct calibration whose site is armed is abandoned without a trace in the
offsets (R453). A legacy pass ends with a correction for each channel from the mean, of which a channel's share is published, at
most 2,500 fs at a time (R470). -/
def Obligations.CalibrationDirectAndLegacy : Prop :=
  (∀ (b : BankId) (fm vm : Nat) (s : State), timingOn s = true → liveBlock s b = true → refsOk s fm vm = true →
    ∃ t, exec (.calBlockEnd b .more fm vm) s = .next t ∧ (t.calBank b).blocks = (s.calBank b).blocks + 1 ∧
    (t.calBank b).unit = (s.calBank b).unit ∧ (t.calBank b).cur = (s.calBank b).cur ∧ t.dict.outs = s.dict.outs ∧ OtherBanks b s t ∧
    OtherObjects (holdKeys b) s t) ∧
  (∀ (b : BankId) (fm vm : Nat) (s : State), timingOn s = true → s.g K.cl_LIVE_MODE ≠ 0 → refsOk s fm vm = false → s.cal.native = none →
    s.cal.refLost = false → blockStands s b = true → ((measuresNow s b = true ∧ (s.calBank b).legacy = none) ∨ startsWork s b = true) →
    ∃ t, exec (.calBlockEnd b .more fm vm) s = .next t ∧ t.cal.refLost = true ∧ t.g K.cl_CAL_STATE = 3 ∧ Active t Src.CALREF_LOST) ∧
  (∀ (b : BankId) (d : List Int) (w : Swap) (fm vm : Nat) (s : State), timingOn s = true → refsOk s fm vm = true → liveBlock s b = true →
    Calibrates b w s → w.phase = 0 → chanActive s w.chan = false → s.g (K.cc_CAL_COUNT w.chan) < 4294967295 →
    ∃ t, exec (.calBlockEnd b (.direct d) fm vm) s = .next t ∧
    Publishes (.direct b) 0 0 (chanKeys w.chan) ([(K.cc_CAL_KIND w.chan, 2), (K.cc_CAL_TEMP w.chan, s.g (K.cb_BANK_TEMP b)), (K.cc_CAL_TIME w.chan, (s.utc : Nat)), (K.cc_CAL_COUNT w.chan, s.g (K.cc_CAL_COUNT w.chan) + 1)] ++ (List.range 10).map (fun k => (K.cc_OFS w.chan k, (measured s w.chan d).getD k 0))) s t ∧
    (t.calBank b).cur = some w ∧ OtherBanks b s t ∧ OtherObjects [K.tt_CAL_HOLD (bankTmu b)] s t) ∧
  (∀ (b : BankId) (lin : List Byte) (fm vm : Nat) (s : State), timingOn s = true → refsOk s fm vm = true → liveBlock s b = true →
    (s.calBank b).unit = some (true, 0) → ∃ t, exec (.calBlockEnd b (.tmu lin) fm vm) s = .next t ∧
    Publishes (.unit b) 0 0 (K.cl_TIMEBASE_ERR :: tmuKeys (bankTmu b)) [(K.cl_TIMEBASE_ERR, timebaseErr (s.n K.tf_TREF_FREQ) fm), (K.cb_TMU_CAL_TEMP b, s.g (K.cb_BANK_TEMP b)), (K.cb_TMU_CAL_TIME b, (s.utc : Nat))] s t ∧
    OtherBanks b s t ∧ OtherObjects (holdKeys b) s t) ∧
  (∀ (n : Nat) (x : Txn) (b : BankId) (w : Swap) (s : State), domRuns s .mgmt = true → timingOn s = true → outAt s n = some x →
    OnlyOut n x s → x.job = some (.direct b) → x.kind = 0 → x.due s = true → recheck (ctxOf s.fresh s.fresh x.values 0 0) = none →
    (∀ e ∈ x.values, e.1 ∈ chanKeys w.chan) → Calibrates b w s → w.phase = 0 → ∃ t, exec (.applyPoint (.out n)) s = .next t ∧
    (t.calBank b).cur = none ∧ t.g (K.cc_CAL_STATUS w.chan) = 0 ∧ (∀ k, k ≠ K.cc_CAL_STATUS w.chan → k ≠ K.tt_CAL_HOLD (bankTmu b) →
    t.g k = (applyValues x.values s.fresh).g k) ∧ OtherBanks b s t) ∧
  (∀ (s : State), timingOn s = true → s.cal.native = none → Whole s Src.CALREF_LOST → ∃ t, exec (.calrefRecovered) s = .next t ∧
    t.cal.refLost = false ∧ t.g K.cl_CAL_STATE = (if s.g K.cl_LIVE_MODE = 0 then 0 else 2) ∧ Quiet t Src.CALREF_LOST ∧
    OtherObjects [K.cl_CAL_STATE] s t) ∧
  (∀ (b : BankId) (w : Swap) (s : State), timingOn s = true → Calibrates b w s → w.phase = 0 → chanActive s w.chan = true →
    ∃ t, exec (.directCalAbandon b) s = .next t ∧ t.g (K.cc_CAL_STATUS w.chan) = 0 ∧ (t.calBank b).cur = none ∧
    (∀ x ∈ t.dict.outs, x.job = some (.direct b) → x.wait = .mark) ∧ OtherBanks b s t ∧
    OtherObjects [K.cc_CAL_STATUS w.chan, K.tt_CAL_HOLD (bankTmu b)] s t) ∧
  (∀ (b : BankId) (l : KMap Int) (s : State), timingOn s = true → (s.calBank b).legacy = some l → (s.calBank b).cur = none →
    (s.calBank b).unit = none → ∃ t, exec (.legacyPassEnd b) s = .next t ∧ (t.calBank b).legacy = none ∧
    (t.calBank b).go = l.map (fun e => (e.1, meanOf (l.map (·.2)) - e.2)) ∧ OtherBanks b s t ∧ OtherObjects (holdKeys b) s t) ∧
  (∀ (b : BankId) (c : ChanId) (v : Int) (s : State), timingOn s = true → (s.calBank b).legacy = none → (s.calBank b).cur = none →
    (s.calBank b).unit = none → (s.calBank b).go = [(c.val, v)] → -2500 ≤ v → v ≤ 2500 → calPending s b = false →
    ∃ t, exec (.legacyPassEnd b) s = .next t ∧
    Publishes (.legacy b [(c.val, 0)]) (if (s.siteOf c).isSome then 2 else 0) (match s.siteOf c with | some i => oneSite i | none => 0) (chanKeys c) ([(K.cc_CAL_KIND c, 3), (K.cc_CAL_TEMP c, s.g (K.cb_BANK_TEMP b)), (K.cc_CAL_TIME c, (s.utc : Int)), (K.cc_CAL_COUNT c, s.g (K.cc_CAL_COUNT c))] ++ (List.range 10).map (fun k => (K.cc_OFS c k, s.g (K.cc_OFS c k) + v))) s t ∧
    OtherBanks b s t ∧ OtherObjects (holdKeys b) s t)

/-- While the timing group runs, of a bank that calibrates one channel and no unit: the first shadow frame leads to ALIGN (R455);
there a residual within ALIGN_TOL on the last lane leads to SWAP_OUT and a larger one publishes a new trim, the third such time
ends the swap with CAL_FAIL (R456); SWAP_OUT requests a SWAP of the channel's site; a SWAP whose change of engine has reached the
balls leads to MEASURE (R457, R296); MEASURE publishes offsets in steps of at most 2,500 fs, and RETURN begins when the last step
applies (R458); RETURN aligns the spar, a lane without transitions being recorded in ALIGN_SKIP (R459); with the balls back the
calibration is recorded with the mean temperature of MEASURE, and the spar is free when that record applies (R460). A SWAP out
not taken within SWAP_WAIT is withdrawn, one back requested again (R461). A spar that the collector wants and that holds no balls
becomes the substitute (R38). Applies are stated while no other is due. -/
def Obligations.CalibrationSwap : Prop :=
  (∀ (b : BankId) (w : Swap) (s : State), timingOn s = true → Calibrates b w s → w.phase = 1 → ∃ t, exec (.shadowJoin b) s = .next t ∧
    Calibrates b { w with phase := 2 } t ∧ OtherBanks b s t ∧ OtherObjects [] s t) ∧
  (∀ (b : BankId) (v : Int) (w : Swap) (p : SparId) (s : State), timingOn s = true → Calibrates b w s → w.phase = 2 → liveBlock s b = true →
    w.spar = some p → w.ok = (false, true) → refsStand s = true → iabs v ≤ s.g K.cl_ALIGN_TOL →
    ∃ t, exec (.alignMeasure b (.mean false v)) s = .next t ∧ Calibrates b { w with ok := (true, true), phase := 3 } t ∧
    t.g (K.sp_ALIGN_RESID p) = v ∧ OtherBanks b s t ∧ OtherObjects [K.sp_ALIGN_RESID p] s t) ∧
  (∀ (b : BankId) (v : Int) (w : Swap) (p : SparId) (s : State), timingOn s = true → Calibrates b w s → w.phase = 2 → liveBlock s b = true →
    w.spar = some p → w.tries.1 < 2 → s.g K.cl_ALIGN_TOL < iabs v → ∃ t, exec (.alignMeasure b (.mean false v)) s = .next t ∧
    Calibrates b { w with tries := (w.tries.1 + 1, w.tries.2) } t ∧
    Publishes (.align b) 0 0 [K.sp_TRIM_DD p] [(K.sp_TRIM_DD p, s.g (K.sp_TRIM_DD p) - v)] s t ∧ t.g (K.sp_ALIGN_RESID p) = v ∧
    OtherBanks b s t ∧ OtherObjects [K.sp_ALIGN_RESID p] s t) ∧
  (∀ (b : BankId) (v : Int) (w : Swap) (p : SparId) (s : State), timingOn s = true → Calibrates b w s → w.phase = 2 → liveBlock s b = true →
    w.spar = some p → w.tries.1 = 2 → s.g K.cl_ALIGN_TOL < iabs v → ∃ t, exec (.alignMeasure b (.mean false v)) s = .next t ∧
    t.g (K.cc_CAL_STATUS w.chan) = 4 ∧ t.g (K.sp_SPAR_STATE p) = 0 ∧ (t.calBank b).cur = none ∧
    (t.calBank b).spars.contains (p.val % 2) = true ∧ t.dict.outs = s.dict.outs ∧ OtherBanks b s t ∧
    OtherObjects [K.cc_CAL_STATUS w.chan, K.sp_ALIGN_RESID p, K.sp_SPAR_STATE p, K.sp_SPAR_CHAN p, K.sp_TRIM_DD p, K.sp_TRIM_DE p, K.tt_CAL_HOLD (bankTmu b)] s t) ∧
  (∀ (b : BankId) (w : Swap) (p : SparId) (i : SiteId) (s : State), timingOn s = true → Calibrates b w s → w.phase = 3 → w.spar = some p →
    s.siteOf w.chan = some i → s.active i = true → (s.site i).swap = none → ∃ t, exec (.swapRequest b) s = .next t ∧
    (t.n (K.sr_PENDING_INT i)).testBit 3 = true ∧ t.site i = { s.site i with swap := some (p, true), swapTaken := false, eaveAt := none } ∧
    Calibrates b { w with reqAt := s.now } t ∧ OtherBanks b s t ∧ OtherSites i s t ∧ OtherObjects [K.sr_PENDING_INT i] s t) ∧
  (∀ (i : SiteId) (p : SparId) (w : Swap) (e : XSwitch) (s : State), timingOn s = true → (s.site i).swap = some (p, true) →
    (s.site i).xsw = [e] → e.done = false → e.due ≤ s.now → e.kind = 0 → e.chan = w.chan → e.new = 1 + p.val % 2 →
    Calibrates (sparBank p) w s → s.cal.refLost = false → ∃ t, exec (.sparSwitch i) s = .next t ∧
    t.g (K.ch_XBAR_STATE w.chan) = (1 + p.val % 2 : Nat) ∧ t.g (K.sp_SPAR_STATE p) = 3 ∧
    Calibrates (sparBank p) { w with phase := 4, tempSum := s.g (K.cb_BANK_TEMP (sparBank p)), temps := 1 } t ∧ (t.site i).swap = none ∧
    (t.site i).eaveAt = none ∧ OtherSites i s t ∧ OtherBanks (sparBank p) s t ∧
    OtherObjects [K.ch_XBAR_STATE w.chan, K.sp_SPAR_STATE p] s t) ∧
  (∀ (i : SiteId) (p : SparId) (w : Swap) (s : State), timingOn s = true → (s.site i).swap = some (p, false) →
    (s.site i).xsw.all (fun e => e.done || decide (s.now < e.due)) = true → s.g (K.ch_XBAR_STATE w.chan) = 0 → Calibrates (sparBank p) w s
    → ∃ t, exec (.sparSwitch i) s = .next t ∧ (t.site i).swap = none ∧ (t.site i).eaveAt = none ∧ t.cal = s.cal ∧ OtherSites i s t ∧
    OtherObjects [] s t) ∧
  (∀ (b : BankId) (d : List Int) (w : Swap) (p : SparId) (s : State), timingOn s = true → Calibrates b w s → w.phase = 4 →
    liveBlock s b = true → w.spar = some p → w.newRt = none → mayPublish s (chanKeys w.chan) = true →
    ∃ t, exec (.measurePublish b d) s = .next t ∧
    Publishes (.publish b ((List.range 10).all (fun k => stepTo (s.g (K.cc_OFS w.chan k)) ((measured s w.chan d).getD k 0) == (measured s w.chan d).getD k 0))) 0 0 (chanKeys w.chan) ((List.range 10).map (fun k => (K.cc_OFS w.chan k, stepTo (s.g (K.cc_OFS w.chan k)) ((measured s w.chan d).getD k 0)))) s t ∧
    Calibrates b { w with before := if w.before = [] then (List.range 10).map (fun k => (k, s.g (K.cc_OFS w.chan k))) else w.before } t ∧
    OtherBanks b s t ∧ OtherObjects [] s t) ∧
  (∀ (n : Nat) (x : Txn) (b : BankId) (w : Swap) (p : SparId) (s : State), domRuns s .mgmt = true → timingOn s = true → outAt s n = some x →
    OnlyOut n x s → x.job = some (.publish b true) → x.kind = 0 → x.due s = true → recheck (ctxOf s.fresh s.fresh x.values 0 0) = none →
    (∀ e ∈ x.values, e.1 ∈ chanKeys w.chan) → Calibrates b w s → w.phase = 4 → w.spar = some p →
    ∃ t, exec (.applyPoint (.out n)) s = .next t ∧ Calibrates b { w with phase := 5 } t ∧ t.g (K.sp_SPAR_STATE p) = 4 ∧
    (∀ k, k ≠ K.sp_SPAR_STATE p → t.g k = (applyValues x.values s.fresh).g k) ∧ OtherBanks b s t) ∧
  (∀ (b : BankId) (dd de : Option Int) (w : Swap) (p : SparId) (s : State), timingOn s = true → Calibrates b w s → w.phase = 5 →
    blockStands s b = true → measuresNow s b = true → w.spar = some p → (∀ v, dd = some v → iabs v ≤ s.g K.cl_ALIGN_TOL) →
    (∀ v, de = some v → iabs v ≤ s.g K.cl_ALIGN_TOL) → ∃ t, exec (.returnStep b dd de) s = .next t ∧ Calibrates b { w with phase := 6 } t ∧
    t.g (K.sp_ALIGN_RESID p) = dd.getD (s.g (K.sp_ALIGN_RESID p)) ∧ (dd = none → (t.n (K.sp_ALIGN_SKIP p)).testBit 0 = true) ∧ (de = none →
    (t.n (K.sp_ALIGN_SKIP p)).testBit 1 = true) ∧ OtherBanks b s t ∧ OtherObjects [K.sp_ALIGN_RESID p, K.sp_ALIGN_SKIP p] s t) ∧
  (∀ (b : BankId) (dd de : Option Int) (w : Swap) (p : SparId) (s : State), timingOn s = true → Calibrates b w s → w.phase = 5 →
    blockStands s b = true → measuresNow s b = true → w.spar = some p → (∃ v, (dd = some v ∨ de = some v) ∧ s.g K.cl_ALIGN_TOL < iabs v) →
    ∃ t, exec (.returnStep b dd de) s = .next t ∧
    Publishes (.ret b ((List.range 4).foldl (fun m j => kput m (6 + j) (stepTo (kgetD w.sparOfs (6 + j) (sparOffset s.od p w.chan (6 + j))) (s.g (K.cc_OFS w.chan (6 + j))))) w.sparOfs)) (if (s.siteOf w.chan).isSome then 2 else 0) (match s.siteOf w.chan with | some i => oneSite i | none => 0) [K.sp_TRIM_DD p, K.sp_TRIM_DE p] [(K.sp_TRIM_DD p, newTrim s (K.sp_TRIM_DD p) dd), (K.sp_TRIM_DE p, newTrim s (K.sp_TRIM_DE p) de)] s t ∧
    Calibrates b w t ∧ t.g (K.sp_ALIGN_RESID p) = dd.getD (s.g (K.sp_ALIGN_RESID p)) ∧ OtherBanks b s t ∧
    OtherObjects [K.sp_ALIGN_RESID p, K.sp_ALIGN_SKIP p] s t) ∧
  (∀ (b : BankId) (w : Swap) (p : SparId) (s : State), timingOn s = true → Calibrates b w s → w.spar = some p → swapBack s w p = true →
    calPending s b = false → s.g (K.cc_CAL_COUNT w.chan) < 4294967295 → s.g (K.sp_SWAPS p) < 4294967295 →
    ∃ t, exec (.swapBackComplete b p) s = .next t ∧
    Publishes (.back b) 0 0 (chanKeys w.chan ++ [K.sp_SWAPS p]) [(K.cc_CAL_KIND w.chan, 2), (K.cc_CAL_TEMP w.chan, w.temp s b), (K.cc_CAL_TIME w.chan, (s.utc : Nat)), (K.cc_CAL_COUNT w.chan, s.g (K.cc_CAL_COUNT w.chan) + 1), (K.sp_SWAPS p, s.g (K.sp_SWAPS p) + 1)] s t ∧
    Calibrates b w t ∧ OtherBanks b s t ∧ OtherObjects [] s t) ∧
  (∀ (n : Nat) (x : Txn) (b : BankId) (w : Swap) (p : SparId) (s : State), domRuns s .mgmt = true → timingOn s = true → outAt s n = some x →
    OnlyOut n x s → x.job = some (.back b) → x.kind = 0 → x.due s = true → recheck (ctxOf s.fresh s.fresh x.values 0 0) = none →
    (∀ e ∈ x.values, e.1 ∈ chanKeys w.chan ++ [K.sp_SWAPS p]) → Calibrates b w s → w.spar = some p →
    ∃ t, exec (.applyPoint (.out n)) s = .next t ∧ (t.calBank b).cur = none ∧ t.g (K.cc_CAL_STATUS w.chan) = (if w.cut then 3 else 0) ∧
    t.g (K.sp_SPAR_STATE p) = 0 ∧
    (∀ k, k ∉ [K.cc_CAL_STATUS w.chan, K.sp_SPAR_STATE p, K.sp_SPAR_CHAN p, K.sp_TRIM_DD p, K.sp_TRIM_DE p, K.tt_CAL_HOLD (bankTmu b)] →
    t.g k = (applyValues x.values s.fresh).g k) ∧ OtherBanks b s t) ∧
  (∀ (b : BankId) (w : Swap) (p : SparId) (i : SiteId) (s : State), timingOn s = true → Calibrates b w s → w.phase = 3 → w.spar = some p →
    s.siteOf w.chan = some i → (s.site i).swap.map Prod.fst = some p → (s.site i).xsw.all (fun e => e.chan != w.chan) = true →
    s.n (K.ch_XBAR_STATE w.chan) ≠ 1 + p.val % 2 → w.reqAt + s.n K.cl_SWAP_WAIT / 1250000 ≤ s.now →
    ∃ t, exec (.swapWaitExpiry b) s = .next t ∧ (t.n (K.sr_PENDING_INT i)).testBit 3 = false ∧ (t.site i).swap = none ∧
    t.g (K.cc_CAL_STATUS w.chan) = 5 ∧ t.g (K.sp_SPAR_STATE p) = 0 ∧ t.cal.barred.contains w.chan.val = true ∧ (t.calBank b).cur = none ∧
    OtherBanks b s t ∧ OtherSites i s t) ∧
  (∀ (b : BankId) (w : Swap) (p : SparId) (i : SiteId) (s : State), timingOn s = true → Calibrates b w s → w.phase = 6 → w.spar = some p →
    s.siteOf w.chan = some i → (s.site i).swap.map Prod.fst = some p → (s.site i).xsw.all (fun e => e.chan != w.chan) = true →
    s.n (K.ch_XBAR_STATE w.chan) ≠ 0 → w.reqAt + s.n K.cl_SWAP_WAIT / 1250000 ≤ s.now → ∃ t, exec (.swapWaitExpiry b) s = .next t ∧
    (t.n (K.sr_PENDING_INT i)).testBit 3 = true ∧ (t.site i).swap = (s.site i).swap ∧ (t.site i).swapTaken = false ∧
    Calibrates b { w with reqAt := s.now } t ∧ OtherBanks b s t ∧ OtherSites i s t ∧ OtherObjects [K.sr_PENDING_INT i] s t) ∧
  (∀ (p : SparId) (w : Want) (s : State), timingOn s = true → s.flt.wants.find? (fun q => q.spar == p) = some w →
    s.calBank (sparBank p) = {} → ∃ t, exec (.sparReclaim p) s = .next t ∧ t.flt.wants = s.flt.wants.erase w ∧ t.g (K.sp_SPAR_STATE p) = 5 ∧
    t.g (K.sp_SPAR_CHAN p) = (w.chan.val : Nat) ∧ (chanActive s w.chan = true → kget? t.flt.pendSw w.chan.val = some (1 + p.val % 2) ∧
    OtherObjects [K.sp_SPAR_STATE p, K.sp_SPAR_CHAN p, K.sp_TRIM_DD p, K.sp_TRIM_DE p] s t) ∧ (chanActive s w.chan = false →
    s.g (K.ch_XBAR_STATE w.chan) = 0 → t.g (K.ch_XBAR_STATE w.chan) = (1 + p.val % 2 : Nat) ∧
    OtherObjects [K.ch_XBAR_STATE w.chan, K.sp_SPAR_STATE p, K.sp_SPAR_CHAN p, K.sp_TRIM_DD p, K.sp_TRIM_DE p] s t))

/-- An absent edge or a lost PLL makes a reference ABSENT with its source active, stops every group that runs from it or is being
switched to it, and with PCIE_REFCLK takes the link down (R520, R530, R531, R533); the other groups go on. The monitor records
each window's deviation and counts the windows in a row outside the limits; the second makes the blamed reference FAILED while
both are GOOD (R530), and two within them make a FAILED one QUALIFYING (R531). A modulated window sets SSC_DETECTED and stops the
field-network group on PCIE_REFCLK (R518, R521, R535); it is cleared after 1 s without one. An ABSENT reference qualifies with
its edges and is GOOD after 100 us; in P1 the groups of which it is the primary then start (R531, R722). -/
def Obligations.ClockReferences : Prop :=
  (∀ (r : Fin 2) (s : State), s.n (refKey r) ≠ 0 → s.n (refKey r) ≠ 3 → ∃ t, exec (.refEdgeAbsent r) s = .next t ∧ t.n (refKey r) = 0 ∧
    Active t (refSrc r) ∧ (r = 1 → t.pwr.link = false) ∧ (∀ g : Fin 3, usesRef s g r = true → t.n (K.cg_GROUP_STATE g) = 1 ∧
    t.n (K.cg_SOURCE g) = 0xFF ∧ (t.grp g).stopAt = s.now ∧ (t.grp g).bad = refSrc r ∧ (t.grp g).target = none) ∧
    (∀ g : Fin 3, usesRef s g r = false → t.g (K.cg_GROUP_STATE g) = s.g (K.cg_GROUP_STATE g) ∧ t.g (K.cg_SOURCE g) = s.g (K.cg_SOURCE g))) ∧
  (∀ (r : Fin 2) (s : State), s.n (refKey r) ≠ 0 → s.n (refKey r) ≠ 3 → ∃ t, exec (.pllLockLoss r) s = .next t ∧ t.n (refKey r) = 0 ∧
    Active t (refSrc r) ∧ (r = 1 → t.pwr.link = false) ∧ (∀ g : Fin 3, usesRef s g r = true → t.n (K.cg_GROUP_STATE g) = 1 ∧
    t.n (K.cg_SOURCE g) = 0xFF ∧ (t.grp g).stopAt = s.now ∧ (t.grp g).bad = refSrc r ∧ (t.grp g).target = none) ∧
    (∀ g : Fin 3, usesRef s g r = false → t.g (K.cg_GROUP_STATE g) = s.g (K.cg_GROUP_STATE g) ∧ t.g (K.cg_SOURCE g) = s.g (K.cg_SOURCE g))) ∧
  (∀ (dev : Int) (modulation : Nat) (s : State), modulation ≤ 600 → s.n K.ck_REFCLK_STATE = 2 → s.n K.ck_MTR_STATE ≠ 3 →
    inWindow s dev = true → ∃ t, exec (.monitorWindow dev modulation) s = .next t ∧ t.g K.ck_MUTUAL_DEV = dev ∧
    t.clk = { s.clk with outside := 0 } ∧ OtherObjects [K.ck_MUTUAL_DEV] s t) ∧
  (∀ (dev : Int) (modulation : Nat) (s : State), modulation ≤ 600 → s.n K.ck_REFCLK_STATE = 2 → s.n K.ck_MTR_STATE ≠ 3 →
    inWindow s dev = false → s.clk.outside = 0 → ∃ t, exec (.monitorWindow dev modulation) s = .next t ∧ t.g K.ck_MUTUAL_DEV = dev ∧
    t.clk = { s.clk with outside := 1 } ∧ OtherObjects [K.ck_MUTUAL_DEV] s t) ∧
  (∀ (r : Fin 2) (dev : Int) (modulation : Nat) (s : State), modulation ≤ 600 → r = (if s.g K.ck_MISMATCH_BLAME = 0 then 1 else 0) →
    refGood s 0 = true → refGood s 1 = true → 1 ≤ s.clk.outside → inWindow s dev = false →
    ∃ t, exec (.monitorWindow dev modulation) s = .next t ∧ t.g K.ck_MUTUAL_DEV = dev ∧ t.n (refKey r) = 3 ∧ t.n (refKey (other r)) = 2 ∧
    Active t Src.REF_MISMATCH ∧ Active t (refSrc r)) ∧
  (∀ (r : Fin 2) (dev : Int) (modulation : Nat) (s : State), modulation ≤ 600 → s.n (refKey r) = 3 → (s.ref r).within = 1 →
    inWindow s dev = true → ∃ t, exec (.monitorWindow dev modulation) s = .next t ∧ t.g K.ck_MUTUAL_DEV = dev ∧ t.n (refKey r) = 1 ∧
    (t.ref r).qualAt = s.now) ∧
  (∀ (dev : Int) (modulation : Nat) (s : State), 600 < modulation → s.g K.ck_REFCLK_SSC = 0 →
    ∃ t, exec (.monitorWindow dev modulation) s = .next t ∧ t.g K.ck_SSC_DETECTED = 1 ∧ t.clk.sscAt = s.now ∧
    Active t Src.REFCLK_SSC_UNDECLARED ∧ (running s 2 = true → s.n (K.cg_SOURCE 2) = 1 → t.n (K.cg_GROUP_STATE 2) = 1 ∧
    t.n (K.cg_SOURCE 2) = 0xFF)) ∧
  (∀ (s : State), s.b K.ck_SSC_DETECTED = true → s.clk.sscAt + 800000000 ≤ s.now → ∃ t, exec (.sscDetectedClear) s = .next t ∧
    t.g K.ck_SSC_DETECTED = 0 ∧ t.clk = s.clk ∧ OtherObjects [K.ck_SSC_DETECTED] s t) ∧
  (∀ (r : Fin 2) (s : State), s.n (refKey r) = 0 → ∃ t, exec (.refQualifying r) s = .next t ∧ t.n (refKey r) = 1 ∧ (t.ref r).qualAt = s.now ∧
    OtherObjects [refKey r] s t) ∧
  (∀ (r : Fin 2) (s : State), s.n (refKey r) = 1 → (s.ref r).qualAt + 80000 ≤ s.now → s.phase ≠ 1 → Whole s (refSrc r) →
    ∃ t, exec (.refGood r) s = .next t ∧ t.n (refKey r) = 2 ∧ (t.ref r).goodAt = s.now ∧ Quiet t (refSrc r) ∧ OtherObjects [refKey r] s t) ∧
  (∀ (r : Fin 2) (g : Fin 3) (s : State), s.n (refKey r) = 1 → (s.ref r).qualAt + 80000 ≤ s.now → s.phase = 1 → primary g = r →
    running s g = false → ∃ t, exec (.refGood r) s = .next t ∧ t.n (refKey r) = 2 ∧ t.n (K.cg_GROUP_STATE g) = 0 ∧
    t.n (K.cg_SOURCE g) = r.val)

/-- A stopped group with a ready fallback runs from it 16 cycles after the stop, counted as a switch, with the time of the stop
(R533); one that lost its clock runs again from its primary once that is ready (R535); a restart of the timing group parks every
active site (R536). With both references lost and one GOOD again bring-up resumes with P1 (R539). While the management domain
runs SWITCH is refused without a GOOD and permitted source and while busy (a switch of that group in progress among it, the
DEDUCED entry 104); else the group switches and its domains stop at once if the target's PLL is locked (R542, R543), and 16
cycles after the stop it runs from the target. A group on its fallback returns to its primary after 100 ms, the field-network
group at once (R521, R541, the DEDUCED entry 216); in P1 a group may start on its fallback (R722). While the timing group runs a
lost withy unlocks its octet's channels and parks the octet's sites, and locks again (R254, R255). -/
def Obligations.ClockGroups : Prop :=
  (∀ (g : Fin 3) (old : Fin 2) (s : State), s.n (K.cg_GROUP_STATE g) = 1 → s.clk.dead = false → 2 ≤ s.phase → (s.grp g).lost = false →
    (s.grp g).bad = refSrc old → canRestart s g (other old) = true → s.g (K.cg_SWITCHES g) < 4294967295 →
    ∃ t, exec (.groupRestart g) s = .next t ∧ t.n (K.cg_GROUP_STATE g) = 0 ∧ t.n (K.cg_SOURCE g) = (other old).val ∧
    t.g (K.cg_SWITCHES g) = s.g (K.cg_SWITCHES g) + 1 ∧ t.g K.ck_LAST_STOP_TIME = ((s.now - (s.grp g).stopAt) * 1250000 : Nat)) ∧
  (∀ (g : Fin 3) (s : State), s.n (K.cg_GROUP_STATE g) = 1 → s.clk.dead = false → 2 ≤ s.phase → (s.grp g).lost = true →
    canRestart s g (primary g) = true → ∃ t, exec (.groupRestart g) s = .next t ∧ t.n (K.cg_GROUP_STATE g) = 0 ∧
    t.n (K.cg_SOURCE g) = (primary g).val ∧ t.g K.ck_LAST_STOP_TIME = ((s.now - (s.grp g).stopAt) * 1250000 : Nat)) ∧
  (∀ (i : SiteId) (old : Fin 2) (s : State), s.n (K.cg_GROUP_STATE 0) = 1 → s.clk.dead = false → 2 ≤ s.phase → (s.grp 0).lost = false →
    (s.grp 0).bad = refSrc old → canRestart s 0 (other old) = true → s.active i = true → ∃ t, exec (.groupRestart 0) s = .next t ∧
    t.st i = SS.faulted ∧ t.n (K.st_FAULT_SOURCE i) = refSrc old) ∧
  (∀ (s : State), s.clk.dead = true → (refGood s 0 = true ∨ refGood s 1 = true) → 1 ≤ s.phase → ∃ t, exec (.clockRestart) s = .next t ∧
    t.n K.bu_LAST_RESET = 2 ∧ t.n K.bu_RESET_PHASE = s.phase ∧ t.n K.bu_PHASE = 1 ∧ t.g K.ck_LAST_STOP_TIME = -1 ∧ t.clk.dead = false ∧
    (∀ n x, t.seg? n = some x → x.st = .failed) ∧ t.host.queues = []) ∧
  (∀ (g : Fin 3) (r : Fin 2) (s : State), domRuns s .mgmt = true → ∃ t, exec (.switch g r) s = .next t ∧
    t.n K.cx_CLK_CMD_STATUS = (if refGood s r = false then Status.CLK_NO_SOURCE else if permitted s g r = false then Status.CLK_SSC else if (g = 0 ∧
    timingBusy s = true) ∨ (s.grp g).target.isSome = true ∨ running s g = false then Status.CLK_BUSY else Status.OK) ∧
    (t.n K.cx_CLK_CMD_STATUS = Status.OK → t.n (K.cg_GROUP_STATE g) = (if pllLocked s g r then 2 else 0) ∧ (t.grp g).target = some r.val ∧
    t.g K.cx_CLK_CMD_BUSY = 1) ∧ (t.n K.cx_CLK_CMD_STATUS ≠ Status.OK → t.clk = s.clk ∧ OtherObjects [K.cx_CLK_CMD_STATUS] s t) ∧
    OtherObjects [K.cx_CLK_CMD_STATUS, K.cx_CLK_CMD_BUSY, K.cg_GROUP_STATE g] s t) ∧
  (∀ (g : Fin 3) (r : Fin 2) (s : State), (s.grp g).target = some r.val → s.n (K.cg_GROUP_STATE g) = 2 → refGood s r = true →
    (s.grp g).stopAt + switchWait g ≤ s.now → s.g (K.cg_SWITCHES g) < 4294967295 → ∃ t, exec (.plannedSwitchDone g) s = .next t ∧
    t.n (K.cg_GROUP_STATE g) = 0 ∧ t.n (K.cg_SOURCE g) = r.val ∧ t.g (K.cg_SWITCHES g) = s.g (K.cg_SWITCHES g) + 1 ∧
    (t.grp g).target = none ∧ (t.grp g).pll = none ∧
    t.g K.cx_CLK_CMD_BUSY = b2i (s.clk.ridgeCal || allGrps.any (fun h => h != g && (s.grp h).target.isSome))) ∧
  (∀ (g : Fin 3) (s : State), s.b K.ck_AUTO_REVERT = true → running s g = true → s.n (K.cg_SOURCE g) ≠ (primary g).val →
    refGood s (primary g) = true → (s.ref (primary g)).goodAt + 80000000 ≤ s.now → (s.grp g).target = none → (g = 0 → timingBusy s = false)
    → ∃ t, exec (.autoRevert g) s = .next t ∧ t.n (K.cg_GROUP_STATE g) = (if pllLocked s g (primary g) then 2 else 0) ∧
    (t.grp g).target = some (primary g).val ∧ t.g K.cx_CLK_CMD_BUSY = 1 ∧ OtherObjects [K.cg_GROUP_STATE g, K.cx_CLK_CMD_BUSY] s t) ∧
  (∀ (s : State), running s 2 = true → s.n (K.cg_SOURCE 2) ≠ 0 → refGood s 0 = true → (s.grp 2).target = none →
    ∃ t, exec (.autoRevert 2) s = .next t ∧ t.n (K.cg_GROUP_STATE 2) = (if pllLocked s 2 0 then 2 else 0) ∧ (t.grp 2).target = some 0 ∧
    t.g K.cx_CLK_CMD_BUSY = 1 ∧ OtherObjects [K.cg_GROUP_STATE 2, K.cx_CLK_CMD_BUSY] s t) ∧
  (∀ (g : Fin 3) (s : State), s.phase = 1 → running s g = false → refGood s (other (primary g)) = true → refGood s (primary g) = false →
    permitted s g (other (primary g)) = true → (s.ref (other (primary g))).goodAt + 800000 ≤ s.now →
    ∃ t, exec (.p1FallbackStart g) s = .next t ∧ t.n (K.cg_GROUP_STATE g) = 0 ∧ t.n (K.cg_SOURCE g) = (other (primary g)).val ∧
    t.g (K.cg_DEGRADED g) = b2i (degraded s g (other (primary g)))) ∧
  (∀ (o : OctId) (s : State), timingOn s = true → gateOn s (o.val / 4) = true → (∀ i, s.active i = false) →
    ∃ t, exec (.withyUnlock o) s = .next t ∧ (∀ k, k < 8 → t.g (K.ch_WITHY_LOCKED (8 * o.val + k)) = 0) ∧ Active t (Src.WITHY_UNLOCK o) ∧
    OtherObjects ((List.range 8).map (fun k => K.ch_WITHY_LOCKED (8 * o.val + k))) s t) ∧
  (∀ (o : OctId) (i : SiteId) (c : ChanId) (s : State), timingOn s = true → gateOn s (o.val / 4) = true → (s.chans i).contains c = true →
    c.val / 8 = o.val → s.active i = true → ∃ t, exec (.withyUnlock o) s = .next t ∧ t.st i = SS.faulted ∧
    t.n (K.st_FAULT_SOURCE i) = Src.WITHY_UNLOCK o) ∧
  (∀ (o : OctId) (s : State), timingOn s = true → s.pwr.hold = false → gateOn s (o.val / 4) = true → Whole s (Src.WITHY_UNLOCK o) →
    ∃ t, exec (.withyRelock (.octet o)) s = .next t ∧ (∀ k, k < 8 → t.g (K.ch_WITHY_LOCKED (8 * o.val + k)) = 1) ∧
    Quiet t (Src.WITHY_UNLOCK o) ∧ OtherObjects ((List.range 8).map (fun k => K.ch_WITHY_LOCKED (8 * o.val + k))) s t) ∧
  (∀ (u : TmuId) (s : State), timingOn s = true → s.pwr.hold = false → gateOn s (if u.val < 8 then 8 + u.val else 24 + u.val) = true →
    Whole s (Src.TMU_UNLOCK u) → ∃ t, exec (.withyRelock (.tmu u)) s = .next t ∧ t.g (K.tt_LOCKED u) = 1 ∧ Quiet t (Src.TMU_UNLOCK u) ∧
    OtherObjects [K.tt_LOCKED u] s t)

/-- A change of a DUT clock holds it low until it restarts with its new frequency, the multiple of 6.4 GHz / 2^32 nearest to it,
and runs where its gate is on and the timing group runs (R549, R551). While the management domain runs RIDGE_FIRE starts the
generator at the first SCLK that is a multiple of 8 and at least 4 away, or stops it; a generated pulse is followed by the next a
period later (R553). RIDGE_CAL is refused while a site is active or TMU 8 is not the host's, else it arms TMU 8 (R559, the DESIGN
CHOICE of entry 236). It fails with too few edges, too large a deviation or an ended arming, else it publishes the phase to 125
fs, EPS, SKEW_TRIM and the mean temperature of the device (the DEDUCED entry 88); when they apply the run and the arming end. A
DUT clock sweeps from its lower bound to its upper one and back (R550). -/
def Obligations.DutClocksAndRidge : Prop :=
  (∀ (k : Fin 8) (s : State), s.clk.dutWait.contains k.val = false → ∃ t, exec (.dutclkChange k) s = .next t ∧
    t.clk.dutWait = s.clk.dutWait ++ [k.val] ∧ t.out = [.dutClk k.val false] ∧ OtherObjects [] s t) ∧
  (∀ (k : Fin 8) (s : State), s.clk.dutWait.contains k.val = true → ∃ t, exec (.dutclkRestart k) s = .next t ∧
    t.clk.dutWait = s.clk.dutWait.erase k.val ∧ t.n (K.dk_DUTCLK_ACTUAL k) = dutActual (s.n (K.dk_DUTCLK_FREQ k)) ∧
    (t.out = if gateOn s (24 + k.val) && timingOn s then [.dutClk k.val true, .dutSweep k.val (sweepBounds (dutActual (s.n (K.dk_DUTCLK_FREQ k))) (s.n (K.dk_SSC_PROFILE k)) (s.n (K.dk_SSC_DEPTH k))).1 (sweepBounds (dutActual (s.n (K.dk_DUTCLK_FREQ k))) (s.n (K.dk_SSC_PROFILE k)) (s.n (K.dk_SSC_DEPTH k))).2 (s.n (K.dk_SSC_RATE k))] else []) ∧
    OtherObjects [K.dk_DUTCLK_ACTUAL k] s t) ∧
  (∀ (s : State), domRuns s .mgmt = true → ∃ t, exec (.ridgeFireStart) s = .next t ∧
    t.clk = { s.clk with gen := some ((s.now + 11) / 8 * 8) } ∧ OtherObjects [] s t) ∧
  (∀ (s : State), domRuns s .mgmt = true → ∃ t, exec (.ridgeFireStop) s = .next t ∧ t.clk = { s.clk with gen := none } ∧
    OtherObjects [] s t) ∧
  (∀ (at_ : Nat) (s : State), timingOn s = true → s.clk.gen = some at_ → at_ ≤ s.now → ∃ t, exec (.ridgeGenerate) s = .next t ∧
    t.clk.gen = (if s.n K.rd_RIDGE_PERIOD = 0 then none else some (at_ + s.n K.rd_RIDGE_PERIOD)) ∧
    t.out = (if s.g K.rd_RIDGE_MODE = 1 then [.ridgeOut] else []) ∧ OtherObjects [] s t) ∧
  (∀ (s : State), domRuns s .mgmt = true → anyActive s = false → s.n (K.tmo_OWNER 8) = 0xFF → ∃ t, exec (.ridgeCal) s = .next t ∧
    t.g K.cx_CLK_CMD_STATUS = 0 ∧ t.g K.cx_CLK_CMD_BUSY = 1 ∧ t.clk.ridgeCal = true ∧ (s.b (K.tt_CAL_HOLD 8) = false → t.tst 8 = TS.armed) ∧
    (∀ k, k ≠ K.cx_CLK_CMD_STATUS → k ≠ K.cx_CLK_CMD_BUSY →
    t.g k = (tmuArm 8 { s.fresh with clk := { s.clk with ridgeCal := true } }).g k)) ∧
  (∀ (s : State), domRuns s .mgmt = true → (anyActive s = true ∨ s.n (K.tmo_OWNER 8) ≠ 0xFF) → ∃ t, exec (.ridgeCal) s = .next t ∧
    t.n K.cx_CLK_CMD_STATUS = Status.CLK_BUSY ∧ t.clk = s.clk ∧ OtherObjects [K.cx_CLK_CMD_STATUS] s t) ∧
  (∀ (edges : Nat) (phi sdev : Int) (late : Bool) (s : State), timingOn s = true → s.clk.ridgeCal = true →
    s.jobs (fun j => j == .ridge) = false → s.tst 8 ≠ TS.waitCal → (late = true ∧ edges < s.n K.rd_RIDGE_CAL_N ∨
    s.n K.rd_RIDGE_CAL_N ≤ edges ∧ 5000 < sdev ∨ s.tmuBusy 8 = false) → ∃ t, exec (.ridgeCalDone edges phi sdev late) s = .next t ∧
    t.n K.cx_CLK_CMD_STATUS = Status.RIDGE_CAL_FAIL ∧ t.clk = { s.clk with ridgeCal := false } ∧ (s.tmuBusy 8 = true → t.tst 8 = TS.done ∧
    t.n (K.tt_END_STATUS 8) = 2) ∧ t.dict = s.dict) ∧
  (∀ (edges : Nat) (phi sdev : Int) (s : State), timingOn s = true → s.clk.ridgeCal = true → s.tmuBusy 8 = true →
    edges < s.n K.rd_RIDGE_CAL_N → exec (.ridgeCalDone edges phi sdev false) s = .next s.fresh) ∧
  (∀ (edges : Nat) (phi sdev ph : Int) (late : Bool) (s : State), timingOn s = true → s.clk.ridgeCal = true →
    s.jobs (fun j => j == .ridge) = false → s.tst 8 ≠ TS.waitCal → s.tmuBusy 8 = true → s.n K.rd_RIDGE_CAL_N ≤ edges → sdev ≤ 5000 →
    openKeys s [K.rd_RIDGE_PHASE, K.rd_RIDGE_EPS, K.rd_SKEW_TRIM, K.rd_RIDGE_SDEV, K.rd_RIDGE_CAL_TIME, K.rd_RIDGE_CAL_TEMP] = true →
    ph = round125 ((phi - s.g K.rd_RIDGE_PATH) % 1250000) % 1250000 → ∃ t, exec (.ridgeCalDone edges phi sdev late) s = .next t ∧
    t.clk = s.clk ∧ OtherObjects [] s t ∧
    PublishesNow .ridge 0 0 [K.rd_RIDGE_PHASE, K.rd_RIDGE_EPS, K.rd_SKEW_TRIM, K.rd_RIDGE_SDEV, K.rd_RIDGE_CAL_TIME, K.rd_RIDGE_CAL_TEMP] [(K.rd_RIDGE_PHASE, ph), (K.rd_RIDGE_EPS, if 625000 ≤ ph then ph else ph + 1250000), (K.rd_SKEW_TRIM, if 625000 ≤ ph then ph - 1250000 else ph), (K.rd_RIDGE_SDEV, sdev), (K.rd_RIDGE_CAL_TIME, (s.utc : Nat)), (K.rd_RIDGE_CAL_TEMP, deviceTemp s)] s t) ∧
  (∀ (n : Nat) (x : Txn) (s : State), domRuns s .mgmt = true → timingOn s = true → outAt s n = some x → OnlyOut n x s → x.job = some .ridge →
    x.kind = 0 → x.due s = true → recheck (ctxOf s.fresh s.fresh x.values 0 0) = none →
    (∀ e ∈ x.values, e.1 ∈ [K.rd_RIDGE_PHASE, K.rd_RIDGE_EPS, K.rd_SKEW_TRIM, K.rd_RIDGE_SDEV, K.rd_RIDGE_CAL_TIME, K.rd_RIDGE_CAL_TEMP]) →
    ∃ t, exec (.applyPoint (.out n)) s = .next t ∧ t.clk = { s.clk with ridgeCal := false } ∧ (s.tmuBusy 8 = true → t.tst 8 = TS.done ∧
    t.n (K.tt_END_STATUS 8) = 1) ∧ (∀ e ∈ x.values, t.g e.1 = (applyValues x.values s.fresh).g e.1)) ∧
  (∀ (f profile depth rate at_ : Nat), depth ≤ 1000000 → (sweepBounds f profile depth).1 ≤ (sweepBounds f profile depth).2 ∧
    sweepAt (sweepBounds f profile depth).1 (sweepBounds f profile depth).2 rate 0 = (sweepBounds f profile depth).1 ∧
    (sweepBounds f profile depth).1 ≤ sweepAt (sweepBounds f profile depth).1 (sweepBounds f profile depth).2 rate at_ ∧
    sweepAt (sweepBounds f profile depth).1 (sweepBounds f profile depth).2 rate at_ ≤ (sweepBounds f profile depth).2)

/-- While the host domain runs and BAR0 is served: CREATE makes the described queue ACTIVE or ends with the status that refuses
it and no effect (R581); DELETE stops a queue (R582), which is ABSENT once no command of it is in flight; READ loads the
registers with the queue's; of a queue that is not the function's both end with Q_RANGE. A tail or head doorbell in range moves
the queue's tail or head, one out of range puts the queue in ERROR and reports Q_ERROR (R584), one of a queue that is not ACTIVE
or not the function's is counted (R583). -/
def Obligations.HostQueues : Prop :=
  (∀ (f : FnId) (s : State), domRuns s .pcie = true → barOn f s = true → createCheck f s = Status.OK → ∃ t, exec (.create f) s = .next t ∧
    t.queue? (s.fnr f).qcfg.num.toNat = some (newQueue f (s.fnr f).qcfg s) ∧
    (t.fnr f).qcfg = { (s.fnr f).qcfg with status := 0, state := 1 } ∧ OtherQueues (s.fnr f).qcfg.num.toNat s t ∧ OtherFns f s t ∧
    OtherObjects [] s t) ∧
  (∀ (f : FnId) (s : State), domRuns s .pcie = true → barOn f s = true → createCheck f s ≠ Status.OK → ∃ t, exec (.create f) s = .next t ∧
    (t.fnr f).qcfg.status = createCheck f s ∧ t.host.queues = s.host.queues ∧ OtherFns f s t ∧ OtherObjects [] s t) ∧
  (∀ (f : FnId) (x : Queue) (s : State), domRuns s .pcie = true → barOn f s = true → ownsQueue f (s.fnr f).qcfg.num.toNat s = true →
    s.queue? (s.fnr f).qcfg.num.toNat = some x → x.bound = none → ∃ t, exec (.delete f) s = .next t ∧
    t.queue? (s.fnr f).qcfg.num.toNat = some { noFetch x with st := .deleting, bufs := [] } ∧
    (t.fnr f).qcfg = { (s.fnr f).qcfg with status := 0, state := 2 } ∧ OtherQueues (s.fnr f).qcfg.num.toNat s t ∧ OtherFns f s t ∧
    OtherObjects [] s t) ∧
  (∀ (f : FnId) (s : State), domRuns s .pcie = true → barOn f s = true → ownsQueue f (s.fnr f).qcfg.num.toNat s = false →
    ∃ t, exec (.delete f) s = .next t ∧ (t.fnr f).qcfg.status = Status.Q_RANGE ∧ t.host.queues = s.host.queues ∧ OtherFns f s t ∧
    OtherObjects [] s t) ∧
  (∀ (f : FnId) (s : State), domRuns s .pcie = true → barOn f s = true → ownsQueue f (s.fnr f).qcfg.num.toNat s = false →
    ∃ t, exec (.qRead f) s = .next t ∧
    (t.fnr f).qcfg = { (s.fnr f).qcfg with status := Status.Q_RANGE, state := qStateCode s (s.fnr f).qcfg.num.toNat } ∧
    t.host.queues = s.host.queues ∧ OtherFns f s t ∧ OtherObjects [] s t) ∧
  (∀ (q : QueueId) (x : Queue) (s : State), domRuns s .pcie = true → s.queue? q = some x → x.st = .deleting → flightsOf s q = [] →
    ∃ t, exec (.queueAbsent q) s = .next t ∧ t.queue? q = none ∧ OtherQueues q s t ∧ OtherObjects [] s t) ∧
  (∀ (f : FnId) (x : Queue) (s : State), domRuns s .pcie = true → barOn f s = true → ownsQueue f (s.fnr f).qcfg.num.toNat s = true →
    s.queue? (s.fnr f).qcfg.num.toNat = some x → ∃ t, exec (.qRead f) s = .next t ∧ t.host.queues = s.host.queues ∧
    (t.fnr f).qcfg.status = 0 ∧ (t.fnr f).qcfg.state = qStateCode s (s.fnr f).qcfg.num.toNat ∧ (t.fnr f).qcfg.typ = QType.code x.typ ∧
    (t.fnr f).qcfg.sqBase = x.sqBase ∧ (t.fnr f).qcfg.cqBase = x.cqBase ∧ (t.fnr f).qcfg.irq = x.irq ∧ (t.fnr f).qcfg.sqHead = x.sqHead ∧
    (t.fnr f).qcfg.cqTail = x.cqTail ∧ OtherFns f s t ∧ OtherObjects [] s t) ∧
  (∀ (f : FnId) (q : QueueId) (v : BitVec 16) (x : Queue) (s : State), domRuns s .pcie = true → barOn f s = true → ownsQueue f q s = true →
    s.queue? q = some x → x.st = .active → ∃ t, exec (.sqTailDoorbell f q v) s = .next t ∧ OtherQueues q s t ∧
    (if v.toNat < x.sqSize then t.queue? q = some { x with dbTail := v.toNat, sqTail := v.toNat } else t.queue? q = some { noFetch x with dbTail := v.toNat, st := .error } ∧
    (Quiet s (Src.Q_ERROR f) → t.flt.reports = s.flt.reports ++ [({ src := Src.Q_ERROR f } : Report)]))) ∧
  (∀ (f : FnId) (q : QueueId) (v : BitVec 16) (x : Queue) (s : State), domRuns s .pcie = true → barOn f s = true → ownsQueue f q s = true →
    s.queue? q = some x → x.st = .active → ∃ t, exec (.cqHeadDoorbell f q v) s = .next t ∧ OtherQueues q s t ∧ (if v.toNat < x.cqSize ∧
    ringDist x.cqSize x.cqHead v.toNat ≤ ringDist x.cqSize x.cqHead x.cqTail then t.queue? q = some { x with dbHead := v.toNat, cqHead := v.toNat } else t.queue? q = some { noFetch x with dbHead := v.toNat, st := .error } ∧
    (Quiet s (Src.Q_ERROR f) → t.flt.reports = s.flt.reports ++ [({ src := Src.Q_ERROR f } : Report)]))) ∧
  (∀ (f : FnId) (q : QueueId) (v : BitVec 16) (s : State), domRuns s .pcie = true → barOn f s = true →
    (s.queue? q).all (fun z => !ownsQueue f q s || z.st != .active) = true → ∃ t, exec (.sqTailDoorbell f q v) s = .next t ∧
    t.host.queues = s.host.queues ∧ t.fnr f = { s.fnr f with dbErrors := min ((s.fnr f).dbErrors + 1) 4294967295 } ∧ OtherFns f s t ∧
    OtherObjects [] s t) ∧
  (∀ (f : FnId) (q : QueueId) (v : BitVec 16) (s : State), domRuns s .pcie = true → barOn f s = true →
    (s.queue? q).all (fun z => !ownsQueue f q s || z.st != .active) = true → ∃ t, exec (.cqHeadDoorbell f q v) s = .next t ∧
    t.host.queues = s.host.queues ∧ t.fnr f = { s.fnr f with dbErrors := min ((s.fnr f).dbErrors + 1) 4294967295 } ∧ OtherFns f s t ∧
    OtherObjects [] s t)

/-- While the host domain runs: an entry that arrives, or that waited and may go on, moves the SQ head and is in flight; one that
passes the checks is dispatched to its unit, one that breaks a check ends with its status (R586). One with a scatter list, or
with FENCE behind earlier commands, waits at the head of its queue (R587, R595). A completion is posted at the tail of its CQ
with the head, status and result once the data writes of its command have left (R588), and leaves flight; the count and the timer
of R600 signal an unmasked vector. The oldest event of a site goes to its EVENT queue (R592). A failed DMA ends its command with
Q_DMA_ERROR and what was stored, and a failed completion write puts its queue in ERROR (R594). -/
def Obligations.HostFlow : Prop :=
  (∀ (q : QueueId) (e : BitVec 512) (l : List (BitVec 128)) (x : Queue) (s : State), domRuns s .pcie = true → s.queue? q = some x →
    EntryGoes q x e l s → ∃ t, exec (.sqFetch q e l) s = .next t ∧ t.queue? q = some { noFetch x with sqHead := (x.sqHead + 1) % x.sqSize } ∧
    OtherHeads q s t ∧
    t.host.flights.map (fun y => (y.tag, y.opcode, y.entry, y.head)) = s.host.flights.map (fun y => (y.tag, y.opcode, y.entry, y.head)) ++ [(⟨x.fn, q, SqE.cid e⟩, SqE.opcode e, e, (x.sqHead + 1) % x.sqSize)] ∧
    (entryCheck x.fn x e l s = Status.OK → t.host.compl = s.host.compl ∧ .dispatch ⟨x.fn, q, SqE.cid e⟩ e ∈ t.out) ∧
    (entryCheck x.fn x e l s ≠ Status.OK → t.host.compl = s.host.compl ++ [⟨⟨x.fn, q, SqE.cid e⟩, entryCheck x.fn x e l s, 0⟩] ∧
    t.out = []) ∧ OtherObjects [] s t) ∧
  (∀ (q : QueueId) (e : BitVec 512) (l : List (BitVec 128)) (x : Queue) (s : State), domRuns s .pcie = true → s.queue? q = some x →
    x.entry = none → 0 < x.fetch → ((SqE.sgl e = true ∧ l ≠ []) ∨ (SqE.fence e = true ∧ flightsOf s q ≠ [])) →
    ∃ t, exec (.sqFetch q e l) s = .next t ∧ (t.queue? q).map (fun y => (y.entry, y.sqHead, y.st)) = some (some (e, l), x.sqHead, x.st) ∧
    OtherHeads q s t ∧
    t.host.flights.map (fun y => (y.tag, y.opcode, y.entry, y.head)) = s.host.flights.map (fun y => (y.tag, y.opcode, y.entry, y.head)) ∧
    t.host.compl = s.host.compl ∧ OtherObjects [] s t) ∧
  (∀ (tg : Tag) (c : Compl) (y : Flight) (x : Queue) (s : State), domRuns s .pcie = true →
    s.host.compl.find? (fun z => z.tag == tg) = some c → s.host.flights.find? (fun z => z.tag == tg) = some y → y.dropped = false →
    s.queue? tg.queue = some x → x.st = .active → cqRoom x = true → s.host.waiting.all (fun w => w.1 != tg) = true →
    ∃ t, exec (.completionPost tg) s = .next t ∧ t.host.compl = s.host.compl.erase c ∧
    t.host.flights = s.host.flights.eraseP (fun z => z.tag == tg) ∧
    t.queue? tg.queue = some { x with cqTail := (x.cqTail + 1) % x.cqSize, phase := (if (x.cqTail + 1) % x.cqSize = 0 then !x.phase else x.phase), unsig := (if x.ien = true ∧
    x.unsig + 1 < x.icount then x.unsig + 1 else 0), unsigAt := if x.unsig = 0 then s.now else x.unsigAt } ∧
    t.out = [.cqEntry tg.queue x.cqTail (if x.phase then complEntry c y.head ||| (1#128 <<< 127) else complEntry c y.head)] ++ (if x.ien = true ∧
    x.icount ≤ x.unsig + 1 ∧ Signals (t.fnr x.fn) x.fn x.iv then [.msix x.fn x.iv] else []) ∧ OtherQueues tg.queue s t ∧
    OtherObjects [] s t) ∧
  (∀ (q : QueueId) (x : Queue) (s : State), domRuns s .pcie = true → s.queue? q = some x → x.ien = true → x.itime ≠ 0 → 0 < x.unsig →
    x.unsigAt + 800 * x.itime ≤ s.now → x.iv < vectors x.fn → (s.fnr x.fn).msixEnable = true →
    ∃ t, exec (.interruptCoalesceTimer q) s = .next t ∧ t.queue? q = some { x with unsig := 0 } ∧ OtherQueues q s t ∧ OtherObjects [] s t ∧
    (if msixMasked (s.fnr x.fn) x.iv || (s.fnr x.fn).d3hot then t.out = [] ∧ x.iv ∈ (t.fnr x.fn).msixPend else t.out = [.msix x.fn x.iv])) ∧
  (∀ (i : SiteId) (q : QueueId) (e : BitVec 128) (r : List (BitVec 128)) (x : Queue) (s : State), domRuns s .pcie = true →
    (s.site i).evFifo = e :: r → s.siteQueue i .event = some q.val → s.queue? q = some x → cqRoom x = true → s.pwr.link = true →
    ∃ t, exec (.eventPost i) s = .next t ∧ (t.site i).evFifo = r ∧
    t.out = [.cqEntry q x.cqTail (if x.phase then e ||| (1#128 <<< 127) else e)] ++ (if x.ien = true ∧ x.icount ≤ x.unsig + 1 ∧
    Signals (t.fnr x.fn) x.fn x.iv then [.msix x.fn x.iv] else []) ∧
    t.queue? q = some { x with cqTail := (x.cqTail + 1) % x.cqSize, phase := (if (x.cqTail + 1) % x.cqSize = 0 then !x.phase else x.phase), unsig := (if x.ien = true ∧
    x.unsig + 1 < x.icount then x.unsig + 1 else 0), unsigAt := if x.unsig = 0 then s.now else x.unsigAt } ∧ OtherQueues q s t ∧
    OtherSites i s t ∧ OtherObjects [] s t) ∧
  (∀ (tg : Tag) (cut : DmaCut) (s : State), domRuns s .pcie = true → cut ≠ .cqWrite → s.host.flights.any (fun x => x.tag == tg) = true →
    s.ended tg = false → ∃ t, exec (.qDmaError tg cut) s = .next t ∧ Completed s t tg Status.Q_DMA_ERROR (dmaKept tg cut s.fresh).1) ∧
  (∀ (tg : Tag) (s : State), domRuns s .pcie = true → s.host.flights.any (fun x => x.tag == tg) = true → s.ended tg = false →
    ∃ t, exec (.qDmaError tg .other) s = .next t ∧ Completed s t tg Status.Q_DMA_ERROR 0 ∧ t.host.queues = s.host.queues ∧
    OtherObjects [] s t) ∧
  (∀ (tg : Tag) (x : Queue) (s : State), domRuns s .pcie = true → s.queue? tg.queue = some x →
    ∃ t, exec (.qDmaError tg .cqWrite) s = .next t ∧ t.queue? tg.queue = some { noFetch x with st := .error } ∧
    t.host.flights = s.host.flights.eraseP (fun y => y.tag == tg) ∧ t.host.compl = s.host.compl.eraseP (fun c => c.tag == tg) ∧
    OtherQueues tg.queue s t ∧ OtherObjects [] s t)

/-- While the host domain runs and BAR0 is served: a read of the low half of a 64-bit register latches it for the high half, a
read of 8 bytes gives it whole, and a write of the low half is held for the high half (R575, R576); a read of another double
word, or of a slot's data buffer, gives it without an effect, and a register write changes the register it addresses (R574,
R577). Registers of the configuration space are read and written from P6 on; before, a request of any of them is completed with
CRS (R603; the layout is that of the PRESUMED entry 239). Loss of the link idles every slot, stops every queue and clears the
MSI-X state (R601); training records speed and width, degraded below 32 GT/s x8 (R569). FLR and a change of NumVFs stop the
queues of their functions (R570, R602); D3hot ends with the pending vectors (R604). -/
def Obligations.HostLink : Prop :=
  (∀ (f : FnId) (off : Nat) (r : Reg64) (s : State), domRuns s .pcie = true → barOn f s = true →
    reg64s.find? (fun z => z.1 == off) = some (off, r) → ∃ t, exec (.bar64HalfRead f (.bar off) 4) s = .next t ∧
    t.fnr f = { s.fnr f with latch := kput (s.fnr f).latch (reg64Key r) (reg64Value r (s.fnr f)) } ∧
    t.out = [.barRead f (toBytes 4 ((reg64Value r (s.fnr f)).extractLsb' 0 32).toNat)] ∧ OtherFns f s t ∧ OtherObjects [] s t) ∧
  (∀ (f : FnId) (off : Nat) (r : Reg64) (v : BitVec 64) (s : State), domRuns s .pcie = true → barOn f s = true →
    reg64s.find? (fun z => z.1 == off) = some (off, r) → kget? (s.fnr f).latch (reg64Key r) = some v →
    ∃ t, exec (.bar64HalfRead f (.bar (off + 4)) 4) s = .next t ∧ t.host = s.host ∧
    t.out = [.barRead f (toBytes 4 (v.extractLsb' 32 32).toNat)] ∧ OtherObjects [] s t) ∧
  (∀ (f : FnId) (off : Nat) (r : Reg64) (s : State), domRuns s .pcie = true → barOn f s = true →
    reg64s.find? (fun z => z.1 == off) = some (off, r) → ∃ t, exec (.bar64HalfRead f (.bar off) 8) s = .next t ∧ t.host = s.host ∧
    t.out = [.barRead f (toBytes 8 (reg64Value r (s.fnr f)).toNat)] ∧ OtherObjects [] s t) ∧
  (∀ (f : FnId) (off : Nat) (s : State), domRuns s .pcie = true → barOn f s = true → off % 4 = 0 →
    reg64s.all (fun z => z.1 != off && z.1 + 4 != off) = true → (slotOf f off).all (fun z => decide (z.2 < 0x1000)) = true →
    ∃ t, exec (.bar64HalfRead f (.bar off) 4) s = .next t ∧ t.host = s.host ∧ t.out = [.barRead f (toBytes 4 (barDword f off s))] ∧
    OtherObjects [] s t) ∧
  (∀ (f : FnId) (n : Fin 4) (k len : Nat) (s : State), domRuns s .pcie = true → barOn f s = true → (f = 0 ∨ n = 0) → k < 4096 →
    k + len ≤ 4096 → ∃ t, exec (.bar64HalfRead f (.bar (0x3000 + 0x2000 * n.val + k)) len) s = .next t ∧ t.host = s.host ∧
    t.out = [.barRead f (((padTo 4096 (s.fnr f).slots[n].data).drop k).take len)] ∧ OtherObjects [] s t) ∧
  (∀ (f : FnId) (r : RegR) (len : Nat) (s : State), domRuns s .pcie = true → cfgOn s = true → s.fnOn f = true →
    r ∈ [.ids, .classCode, .devControl, .msixControl, .power, .aer, .serialNumber] → ∃ t, exec (.bar64HalfRead f r len) s = .next t ∧
    t.host = s.host ∧ t.out = [.barRead f (cfgBytes f r s)] ∧ OtherObjects [] s t) ∧
  (∀ (f : FnId) (r : RegR) (len : Nat) (s : State), domRuns s .pcie = true → cfgOn s = false →
    r ∈ [.ids, .classCode, .devControl, .msixControl, .power, .aer, .serialNumber] → ∃ t, exec (.bar64HalfRead f r len) s = .next t ∧
    t.host = s.host ∧ t.out = [.pcieMsg "CRS" f] ∧ OtherObjects [] s t) ∧
  (∀ (f : FnId) (r : Reg64) (v : BitVec 32) (s : State), domRuns s .pcie = true → barOn f s = true →
    ∃ t, exec (.bar64HalfWrite f r false v) s = .next t ∧ t.fnr f = { s.fnr f with heldLow := kput (s.fnr f).heldLow (reg64Key r) v } ∧
    OtherFns f s t ∧ OtherObjects [] s t) ∧
  (∀ (f : FnId) (r : Reg64) (v w : BitVec 32) (s : State), domRuns s .pcie = true → barOn f s = true →
    kget? (s.fnr f).heldLow (reg64Key r) = some w → ∃ t, exec (.bar64HalfWrite f r true v) s = .next t ∧
    t.fnr f = put64 r (v ++ w) { s.fnr f with heldLow := kdel (s.fnr f).heldLow (reg64Key r) } ∧ OtherFns f s t ∧ OtherObjects [] s t) ∧
  (∀ (f : FnId) (v : BitVec 32) (s : State), domRuns s .pcie = true → barOn f s = true →
    ∃ t, exec (.registerWrite f (.bar 0x1000) (toBytes 4 v.toNat)) s = .next t ∧
    t.fnr f = { s.fnr f with qcfg := { (s.fnr f).qcfg with num := BitVec.ofNat 13 v.toNat } } ∧ OtherFns f s t ∧ OtherObjects [] s t) ∧
  (∀ (f : FnId) (n : Fin 4) (k : Nat) (d : List Byte) (s : State), domRuns s .pcie = true → barOn f s = true → (f = 0 ∨ n = 0) →
    k + d.length ≤ 4096 → k < 4096 → (s.fnr f).slots[n].busy = false →
    ∃ t, exec (.registerWrite f (.bar (0x3000 + 0x2000 * n.val + k)) d) s = .next t ∧
    t.fnr f = { s.fnr f with slots := (s.fnr f).slots.set n (slotData k d (s.fnr f).slots[n]) } ∧ OtherFns f s t ∧ OtherObjects [] s t) ∧
  (∀ (tag10 : Bool) (mps : Fin 3) (mrrs : Fin 6) (d : List Byte) (s : State), domRuns s .pcie = true → cfgOn s = true →
    ∃ t, exec (.registerWrite 0 (.devControl tag10 mps mrrs) d) s = .next t ∧ t.n K.pcie_TAG10 = b2n tag10 ∧
    t.n K.pcie_MPS = 128 * 2 ^ mps.val ∧ t.n K.pcie_MRRS = 128 * 2 ^ mrrs.val ∧ t.host = s.host ∧
    OtherObjects [K.pcie_TAG10, K.pcie_MPS, K.pcie_MRRS] s t) ∧
  (∀ (f : FnId) (enable mask : Bool) (d : List Byte) (s : State), domRuns s .pcie = true → cfgOn s = true → s.fnOn f = true →
    (s.fnr f).d3hot = false → ∃ t, exec (.registerWrite f (.msixControl enable mask) d) s = .next t ∧ (t.fnr f).msixEnable = enable ∧
    (t.fnr f).msixMask = mask ∧
    (if enable && !mask then t.out = ((s.fnr f).msixPend.filter (fun v => !((kgetD (s.fnr f).msix (4 * v + 3) 1#32).getLsbD 0))).map (fun v => .msix f v) else t.out = [] ∧
    (t.fnr f).msixPend = (s.fnr f).msixPend) ∧ OtherFns f s t ∧ OtherObjects [] s t) ∧
  (∀ (f : FnId) (d : List Byte) (s : State), domRuns s .pcie = true → cfgOn s = true → s.fnOn f = true →
    ∃ t, exec (.registerWrite f (.power true) d) s = .next t ∧ t.fnr f = { s.fnr f with d3hot := true } ∧ OtherFns f s t ∧
    OtherObjects [] s t) ∧
  (∀ (f : FnId) (u c : BitVec 32) (d : List Byte) (s : State), domRuns s .pcie = true → cfgOn s = true → s.fnOn f = true →
    ∃ t, exec (.registerWrite f (.aer u c) d) s = .next t ∧
    t.fnr f = { s.fnr f with aerUnc := (s.fnr f).aerUnc &&& ~~~u, aerCor := (s.fnr f).aerCor &&& ~~~c } ∧ OtherFns f s t ∧
    OtherObjects [] s t) ∧
  (∀ (s : State), s.pwr.link = true → ∃ t, exec (.pcieLinkDown) s = .next t ∧ t.pwr.link = false ∧ t.g K.pcie_LINK_SPEED = 0 ∧
    t.g K.pcie_LINK_WIDTH = 0 ∧ Active t Src.PCIE_LINK_DOWN ∧ t.host.waiting = [] ∧ (∀ q x, t.queue? q = some x → x.st = .deleting) ∧
    (∀ (f : FnId), (t.fnr f).msix = [] ∧ (t.fnr f).msixPend = [] ∧ (t.fnr f).msixEnable = false ∧
    ∀ k : Fin 4, (t.fnr f).slots[k].busy = false)) ∧
  (∀ (speed : Fin 5) (width : Fin 4) (s : State), s.pwr.link = true → ∃ t, exec (.pcieLinkDegraded speed width) s = .next t ∧
    t.g K.pcie_LINK_SPEED = (speed.val + 1 : Nat) ∧ t.g K.pcie_LINK_WIDTH = (2 ^ width.val : Nat) ∧ (speed.val < 4 ∨ width.val < 3 →
    Active t Src.PCIE_LINK_DEGRADED) ∧ (speed.val = 4 → width.val = 3 → Whole s Src.PCIE_LINK_DEGRADED → Quiet t Src.PCIE_LINK_DEGRADED) ∧
    OtherObjects [K.pcie_LINK_SPEED, K.pcie_LINK_WIDTH] s t) ∧
  (∀ (speed : Fin 5) (width : Fin 4) (s : State), s.pwr.on = true → s.pwr.perst = false → 1 ≤ s.n K.bu_PHASE → refGood s 1 = true →
    s.n (K.cg_SOURCE 1) = 1 → s.pwr.link = false → Whole s Src.PCIE_LINK_DOWN → ∃ t, exec (.pcieLinkUp speed width) s = .next t ∧
    t.pwr.link = true ∧ t.g K.pcie_LINK_SPEED = (speed.val + 1 : Nat) ∧ t.g K.pcie_LINK_WIDTH = (2 ^ width.val : Nat) ∧
    Quiet t Src.PCIE_LINK_DOWN ∧ (speed.val < 4 ∨ width.val < 3 → Active t Src.PCIE_LINK_DEGRADED) ∧ (speed.val = 4 → width.val = 3 →
    Whole s Src.PCIE_LINK_DEGRADED → Quiet t Src.PCIE_LINK_DEGRADED) ∧ OtherObjects [K.pcie_LINK_SPEED, K.pcie_LINK_WIDTH] s t) ∧
  (∀ (f : FnId) (frsOn : Bool) (s : State), domRuns s .pcie = true → cfgOn s = true → s.fnOn f = true →
    ∃ t, exec (.flr f frsOn) s = .next t ∧ (∀ q x, t.queue? q = some x → x.fn = f → x.st = .deleting) ∧
    (∀ (k : Fin 8), (s.txn k).live = true → (s.txn k).wait = .nothing → (match (s.txn k).owner with | .pcie g _ => g = f | _ => False) →
    (t.txn k).live = false) ∧ (f.val = 0 → t.host.vfEnable = false) ∧ (frsOn = true → .pcieMsg "FRS" f ∈ t.out)) ∧
  (∀ (enable frsOn : Bool) (n : FnId) (s : State), domRuns s .pcie = true → cfgOn s = true →
    ∃ t, exec (.vfEnableChange enable n frsOn) s = .next t ∧ t.host.vfEnable = enable ∧ t.g K.pcie_NUM_VFS = (n.val : Nat) ∧
    (∀ q x, t.queue? q = some x → t.fnOn x.fn = false → x.st = .deleting) ∧ t.out = (if frsOn then [.pcieMsg "FRS" 0] else []) ∧
    OtherObjects [K.pcie_NUM_VFS] s t) ∧
  (∀ (f : FnId) (frsOn : Bool) (s : State), domRuns s .pcie = true → cfgOn s = true → ∃ t, exec (.d3hotToD0 f frsOn) s = .next t ∧
    (t.fnr f).d3hot = false ∧
    t.out = (if (s.fnr f).msixEnable then ((s.fnr f).msixPend.filter (fun v => !msixMasked (s.fnr f) v)).map (fun v => .msix f v) else []) ++ (if frsOn then [.pcieMsg "FRS" f] else []) ∧
    ((s.fnr f).msixEnable = true → (t.fnr f).msixPend = (s.fnr f).msixPend.filter (fun v => msixMasked (s.fnr f) v)) ∧ OtherFns f s t ∧
    OtherObjects [] s t)

/-- While the collector runs: a raise of severity LOG or higher opens an episode in the lowest free record when none is being
handled (R701), and otherwise counts in the one being handled (R702); one of severity IGNORE is only counted (R696). A rail
disagreement makes its source active until its rails are opposite again (R695). Handling ends HELD, or CLEARED at severity LOG,
when no test and no retirement is left (R705). FAULT_CLEAR clears a held episode whose causes are inactive, and refuses one being
handled or none (R706). -/
def Obligations.FaultEpisodes : Prop :=
  (∀ (n : Nat) (src : BitVec 16) (m : SiteMask) (sev k : Nat) (s : State), domRuns s .coll = true → s.flt.reports = [] →
    (s.src src.toNat).active = false → sevOf s src.toNat = some sev → 1 ≤ sev → sev ≤ 5 → handling s = none → newRecord s = some k → k < 32 →
    (Src.dfltSev src.toNat).isSome = true → s.g K.fz_EPISODES < 4294967295 → s.g K.fz_RAISES < 18446744073709551615 →
    ∃ t, exec (.faultRaise n [(src, m)]) s = .next t ∧ t.g K.fz_EPISODES = s.g K.fz_EPISODES + 1 ∧ t.g K.fz_RAISES = s.g K.fz_RAISES + 1 ∧
    t.n K.fz_HANDLING = k ∧ t.n (K.ep_EP_STATE k) = 1 ∧ t.g (K.ep_EP_NUM k) = s.g K.fz_EPISODES + 1 ∧ t.n (K.ep_EP_SOURCE k) = src.toNat ∧
    t.n (K.ep_EP_SEVERITY k) = sev ∧ (t.src src.toNat).raises = min ((s.src src.toNat).raises + 1) 4294967295) ∧
  (∀ (n : Nat) (src : BitVec 16) (m : SiteMask) (sev k : Nat) (s : State), domRuns s .coll = true → s.flt.reports = [] →
    (s.src src.toNat).active = false → sevOf s src.toNat = some sev → 1 ≤ sev → sev ≤ 5 → handling s = some k → k < 32 →
    (Src.dfltSev src.toNat).isSome = true → s.g K.fz_RAISES < 18446744073709551615 → ∃ t, exec (.faultRaise n [(src, m)]) s = .next t ∧
    t.g K.fz_EPISODES = s.g K.fz_EPISODES ∧ t.g K.fz_RAISES = s.g K.fz_RAISES + 1 ∧
    t.n (K.ep_EP_MERGED k) = min (s.n (K.ep_EP_MERGED k) + 1) 4294967295 ∧ (t.src src.toNat).lastEp = s.n (K.ep_EP_NUM k)) ∧
  (∀ (n : Nat) (src : BitVec 16) (m : SiteMask) (s : State), domRuns s .coll = true → s.flt.reports = [] → (s.src src.toNat).active = false →
    sevOf s src.toNat = some 0 → (Src.dfltSev src.toNat).isSome = true → s.g K.fz_RAISES < 18446744073709551615 →
    ∃ t, exec (.faultRaise n [(src, m)]) s = .next t ∧ t.g K.fz_RAISES = s.g K.fz_RAISES + 1 ∧
    (t.src src.toNat).raises = min ((s.src src.toNat).raises + 1) 4294967295 ∧ OtherObjects [K.fz_RAISES] s t ∧ t.sites = s.sites) ∧
  (∀ (src : BitVec 16) (s : State), domRuns s .coll = true → (s.src src.toNat).broken = false →
    ∃ t, exec (.railDisagree src none) s = .next t ∧ Active t src.toNat ∧ (t.src src.toNat).broken = true ∧ OtherObjects [] s t ∧
    (∀ x, x ≠ src.toNat → t.src x = s.src x)) ∧
  (∀ (src : BitVec 16) (a : Bool) (s : State), domRuns s .coll = true → (s.src src.toNat).broken = true →
    ∃ t, exec (.railDisagree src (some a)) s = .next t ∧ t.src src.toNat = { s.src src.toNat with broken := false, active := a } ∧
    OtherObjects [] s t ∧ (∀ x, x ≠ src.toNat → t.src x = s.src x)) ∧
  (∀ (k : Nat) (s : State), domRuns s .coll = true → handling s = some k →
    s.flt.tests.all (fun t => t.ep != s.n (K.ep_EP_NUM k) || t.deferred) = true →
    s.flt.retiring.all (fun r => r.ep != s.n (K.ep_EP_NUM k)) = true → ∃ t, exec (.handlingEnd) s = .next t ∧ t.n K.fz_HANDLING = 0xFF ∧
    t.n (K.ep_EP_STATE k) = (if s.n (K.ep_EP_SEVERITY k) = 1 then 3 else 2)) ∧
  (∀ (p : Path) (num : BitVec 32) (k : Nat) (s : State), domRuns s .coll = true → num ≠ 0xFFFFFFFF → epRecord s num.toNat = some k →
    epState s k = 2 → causeActive s k = false → ∃ t, exec (.faultClear p num) s = .next t ∧ t.n (K.ep_EP_STATE k) = 3 ∧
    t.n K.fz_CLEAR_STATUS = Status.OK ∧ OtherObjects [K.ep_EP_STATE k, K.ep_EP_CLEAR_TIME k, K.fz_CLEAR_STATUS] s t) ∧
  (∀ (p : Path) (num : BitVec 32) (k : Nat) (s : State), domRuns s .coll = true → num ≠ 0xFFFFFFFF → epRecord s num.toNat = some k →
    (epState s k = 1 ∨ (epState s k = 2 ∧ causeActive s k = true)) → ∃ t, exec (.faultClear p num) s = .next t ∧
    t.n K.fz_CLEAR_STATUS = Status.FLT_EPISODE_OPEN ∧ OtherObjects [K.fz_CLEAR_STATUS] s t) ∧
  (∀ (p : Path) (num : BitVec 32) (s : State), domRuns s .coll = true → num ≠ 0xFFFFFFFF → epRecord s num.toNat = none →
    ∃ t, exec (.faultClear p num) s = .next t ∧ t.n K.fz_CLEAR_STATUS = Status.FLT_NO_EPISODE ∧ OtherObjects [K.fz_CLEAR_STATUS] s t)

/-- While the collector runs: a passing test of a source counts TRANSIENT and leaves, a failing one PERSISTENT (R707); a DEFERRED
one that passes leaves; one that has waited SELFTEST_WAIT is DEFERRED and its failure is reported (R709); a retirement is durable
in the lowest free entry (R710). TEST and UNRETIRE start a test of a unit that is not in use and are refused otherwise; the end
of the test gives its verdict, and one that passes undoes the retirement of UNRETIRE (R712). An engine under test stands in DEAD
and ends with a dead time (R391). While the management domain runs: a lockstep mismatch counts, zeroises the secure scratchpad
and starts firmware again, which reloads the working key (R653, R659); writes of both scratchpad ports to one word are merged
lane by lane and counted (R656), a port that only reads gets the word as it was (R657), and one port alone writes and reads it
through its alias (R655); the secure scratchpad faults outside machine mode, a reserved address gives a bus error, and the fabric
reaches the data scratchpads alone (R654, R659); a chunk is tested or deferred (R658). -/
def Obligations.SelfTests : Prop :=
  (∀ (kind no : Nat) (un : Bool) (u : RUnit) (pass : Bool) (units : List RUnit) (s : State), domRuns s .coll = true →
    s.flt.stCmd = some (kind, no, un) → runitOf kind no = some u → unitInUse s u = false → testDead s u = false →
    (un && pass && retired s u) = false → ∃ t, exec (.selftestVerdict none pass units) s = .next t ∧ t.flt = { s.flt with stCmd := none } ∧
    t.n K.stc_ST_BUSY = 0 ∧ t.n K.stc_ST_VERDICT = (if pass then 1 else 2) ∧ (∀ e, u = .engine e →
    t.eng e = { s.eng e with test := none, testEnd := some (s.now + deadSclk s e) }) ∧ OtherObjects [K.stc_ST_BUSY, K.stc_ST_VERDICT] s t) ∧
  (∀ (kind no j : Nat) (u : RUnit) (units : List RUnit) (s : State), domRuns s .coll = true → s.flt.stCmd = some (kind, no, true) →
    runitOf kind no = some u → unitInUse s u = false → testDead s u = false → retireEntry s u = some j →
    ∃ t, exec (.selftestVerdict none true units) s = .next t ∧ t.flt.stCmd = none ∧ t.n K.stc_ST_BUSY = 0 ∧ t.n K.stc_ST_VERDICT = 1 ∧
    t.n (K.rt_RETIRE j) = 0) ∧
  (∀ (src : BitVec 16) (k : Nat) (x : Test) (s : State), domRuns s .coll = true → handling s = some k → liveTest s k src.toNat = some x →
    testWaits s src.toNat = false → ∃ t, exec (.selftestVerdict (some src) true []) s = .next t ∧
    (t.src src.toNat).transient = min ((s.src src.toNat).transient + 1) 4294967295 ∧ t.flt.tests = s.flt.tests.erase x) ∧
  (∀ (src : BitVec 16) (k : Nat) (x : Test) (units : List RUnit) (s : State), domRuns s .coll = true → handling s = some k →
    liveTest s k src.toNat = some x → testWaits s src.toNat = false → ∃ t, exec (.selftestVerdict (some src) false units) s = .next t ∧
    (t.src src.toNat).persistent = min ((s.src src.toNat).persistent + 1) 4294967295) ∧
  (∀ (src : BitVec 16) (x : Test) (units : List RUnit) (s : State), domRuns s .coll = true →
    ((handling s).bind (fun k => liveTest s k src.toNat)) = none → s.flt.tests.find? (fun z => z.src == src.toNat && z.deferred) = some x →
    testWaits s src.toNat = false → ∃ t, exec (.selftestVerdict (some src) true units) s = .next t ∧
    t.flt = { s.flt with tests := s.flt.tests.erase x } ∧ OtherObjects [] s t) ∧
  (∀ (src : BitVec 16) (k : Nat) (x : Test) (s : State), domRuns s .coll = true → handling s = some k → liveTest s k src.toNat = some x →
    x.at_ + s.n K.fy_SELFTEST_WAIT / 1250000 ≤ s.now → ∃ t, exec (.selftestDeferred src) s = .next t ∧
    t.flt.tests = s.flt.tests.map (fun y => if y = x then { y with deferred := true } else y)) ∧
  (∀ (src : BitVec 16) (x : Test) (s : State), domRuns s .coll = true →
    s.flt.tests.find? (fun t => t.src == src.toNat && t.deferred) = some x → testWaits s src.toNat = false →
    ∃ t, exec (.deferredTestFail src []) s = .next t ∧ t.flt.tests = s.flt.tests.erase x ∧ OtherObjects [] s t ∧
    t.flt.reports = s.flt.reports ++ [({ src := Src.DEFERRED_TEST_FAIL, detail := (match srcUnit src.toNat with | some u => runitNo u | none => 0) } : Report)]) ∧
  (∀ (r : Retiring) (u : RUnit) (j : Nat) (s : State), domRuns s .coll = true → s.flt.retiring = [r] → s.flt.wants = [] →
    runitOf r.kind r.unit = some u → (List.range 32).find? (fun m => !(s.n (K.rt_RETIRE m)).testBit 31) = some j →
    ∃ t, exec (.retirementDurable) s = .next t ∧ t.n (K.rt_RETIRE j) = retireWord u r.spar ∧ t.flt.retiring = []) ∧
  (∀ (u : RUnit) (s : State), domRuns s .coll = true → unitInUse s u = false → s.flt.stCmd = none → ∃ t, exec (.test u) s = .next t ∧
    t.flt = { s.flt with stCmd := some (runitKind u, runitNo u, false) } ∧ t.n K.stc_ST_STATUS = Status.OK ∧ t.n K.stc_ST_BUSY = 1 ∧
    (∀ e, u = .engine e → t.wst e = (if s.wst e = WS.faulted then WS.faulted else WS.dead) ∧ (t.eng e).test = some (s.now + deadSclk s e) ∧
    (t.eng e).ts = none) ∧
    OtherObjects ([K.stc_ST_STATUS, K.stc_ST_BUSY] ++ (match u with | .engine e => [K.ws_WF_STATE e] | _ => [])) s t) ∧
  (∀ (u : RUnit) (s : State), domRuns s .coll = true → unitInUse s u = false → s.flt.stCmd = none → ∃ t, exec (.unretire u) s = .next t ∧
    t.flt = { s.flt with stCmd := some (runitKind u, runitNo u, true) } ∧ t.n K.stc_ST_STATUS = Status.OK ∧ t.n K.stc_ST_BUSY = 1 ∧
    (∀ e, u = .engine e → t.wst e = (if s.wst e = WS.faulted then WS.faulted else WS.dead) ∧ (t.eng e).test = some (s.now + deadSclk s e) ∧
    (t.eng e).ts = none) ∧
    OtherObjects ([K.stc_ST_STATUS, K.stc_ST_BUSY] ++ (match u with | .engine e => [K.ws_WF_STATE e] | _ => [])) s t) ∧
  (∀ (u : RUnit) (s : State), domRuns s .coll = true → (unitInUse s u = true ∨ s.flt.stCmd.isSome = true) → ∃ t, exec (.test u) s = .next t ∧
    t.flt = s.flt ∧ t.n K.stc_ST_STATUS = Status.FLT_UNIT_BUSY ∧ OtherObjects [K.stc_ST_STATUS] s t) ∧
  (∀ (s : State), domRuns s .mgmt = true → s.g K.mg_LOCKSTEP_ERRORS < 4294967295 → ∃ t, exec (.lockstepMismatch) s = .next t ∧
    t.g K.mg_LOCKSTEP_ERRORS = s.g K.mg_LOCKSTEP_ERRORS + 1 ∧ t.mgmt.workKey = s.mgmt.partKey ∧ t.g K.sk_SEAL_STATE = 0 ∧ t.mem = s.mem ∧
    OtherObjects [K.mg_LOCKSTEP_ERRORS, K.sk_SEAL_STATE, K.sk_SEAL_SCOPE] s t) ∧
  (∀ (machine : Bool) (k : Fin 4) (w : Fin 8192) (rot : Fin 4) (enA enB : BitVec 4) (a b : BitVec 32) (s : State), domRuns s .mgmt = true →
    enA ≠ 0 → enB ≠ 0 → s.g (K.spd_COLLISIONS k) < 4294967295 →
    ∃ t, exec (.spadCollision (some (BitVec.ofNat 32 (0x20000000 + 0x20000 * rot.val + 32768 * k.val + 4 * w.val))) (some (BitVec.ofNat 32 (0x20000000 + 32768 * k.val + 4 * w.val))) machine enA enB a b) s = .next t ∧
    kgetD t.mgmt.spad (8192 * k.val + w.val) 0 = BitVec.ofNat 32 ((List.range 4).foldl (fun x l => x + 256 ^ l * mergedLane (kgetD s.mgmt.spad (8192 * k.val + w.val) 0) a b enA enB rot.val (s.g (K.spd_PRIORITY_PORT k) == 1) l) 0) ∧
    t.g (K.spd_COLLISIONS k) = s.g (K.spd_COLLISIONS k) + 1 ∧ (∀ n, n ≠ 8192 * k.val + w.val →
    kgetD t.mgmt.spad n 0 = kgetD s.mgmt.spad n 0) ∧ OtherObjects [K.spd_COLLISIONS k] s t) ∧
  (∀ (machine : Bool) (k : Fin 4) (w : Fin 8192) (rot : Fin 4) (enB : BitVec 4) (a b : BitVec 32) (s : State), domRuns s .mgmt = true →
    enB ≠ 0 →
    ∃ t, exec (.spadCollision (some (BitVec.ofNat 32 (0x20000000 + 0x20000 * rot.val + 32768 * k.val + 4 * w.val))) (some (BitVec.ofNat 32 (0x20000000 + 32768 * k.val + 4 * w.val))) machine 0 enB a b) s = .next t ∧
    kgetD t.mgmt.spad (8192 * k.val + w.val) 0 = BitVec.ofNat 32 ((List.range 4).foldl (fun x l => x + 256 ^ l * mergedLane (kgetD s.mgmt.spad (8192 * k.val + w.val) 0) a b 0 enB rot.val false l) 0) ∧
    t.out = [.spadRead false k w.val (rotated (kgetD s.mgmt.spad (8192 * k.val + w.val) 0) rot.val)] ∧ (∀ n, n ≠ 8192 * k.val + w.val →
    kgetD t.mgmt.spad n 0 = kgetD s.mgmt.spad n 0) ∧ OtherObjects [] s t) ∧
  (∀ (k : Fin 4) (w : Fin 8192) (rot : Fin 4) (en : BitVec 4) (v : BitVec 32) (machine : Bool) (s : State), domRuns s .mgmt = true →
    ∃ t, exec (.spadCollision (some (BitVec.ofNat 32 (0x20000000 + 0x20000 * rot.val + 32768 * k.val + 4 * w.val))) none machine en 0 v 0) s = .next t ∧
    kgetD t.mgmt.spad (8192 * k.val + w.val) 0 = BitVec.ofNat 32 ((List.range 4).foldl (fun x l => x + 256 ^ l * mergedLane (kgetD s.mgmt.spad (8192 * k.val + w.val) 0) v 0 en 0 rot.val false l) 0) ∧
    t.out = (if en = 0 then [.spadRead false k w.val (rotated (kgetD s.mgmt.spad (8192 * k.val + w.val) 0) rot.val)] else []) ∧
    (∀ n, n ≠ 8192 * k.val + w.val → kgetD t.mgmt.spad n 0 = kgetD s.mgmt.spad n 0) ∧ OtherObjects [] s t) ∧
  (∀ (addr v : BitVec 32) (en : BitVec 4) (s : State), domRuns s .mgmt = true → 0x30000000 ≤ addr.toNat → addr.toNat < 0x30004000 →
    ∃ t, exec (.spadCollision (some addr) none false en 0 v 0) s = .next t ∧ t.out = [.accessFault addr] ∧ t.mgmt = s.mgmt ∧
    OtherObjects [] s t) ∧
  (∀ (addr v : BitVec 32) (en : BitVec 4) (machine : Bool) (s : State), domRuns s .mgmt = true → (0x10000 ≤ addr.toNat ∧
    addr.toNat < 0x10000000 ∨ 0x10040000 ≤ addr.toNat ∧ addr.toNat < 0x20000000 ∨ 0x20080000 ≤ addr.toNat ∧ addr.toNat < 0x30000000 ∨
    0x30004000 ≤ addr.toNat ∧ addr.toNat < 0x40000000 ∨ 0x40014000 ≤ addr.toNat) →
    ∃ t, exec (.spadCollision (some addr) none machine en 0 v 0) s = .next t ∧ t.out = [.busError addr] ∧ t.mgmt = s.mgmt ∧
    OtherObjects [] s t) ∧
  (∀ (addr v : BitVec 32) (en : BitVec 4) (s : State), domRuns s .mgmt = true → (addr.toNat < 0x20000000 ∨ 0x20020000 ≤ addr.toNat) →
    ∃ t, exec (.spadCollision none (some addr) false 0 en 0 v) s = .next t ∧ t = s.fresh) ∧
  (∀ (k : Fin 4) (fails : Bool) (c : Nat) (r : List Nat) (s : State), domRuns s .mgmt = true → s.mgmt.spt[k].todo = c :: r → r ≠ [] →
    ∃ t, exec (.scratchpadSelftestChunk k false fails) s = .next t ∧ t.mgmt.spt[k] = { s.mgmt.spt[k] with todo := r, defers := 0 } ∧
    OtherObjects [] s t ∧ (fails = false → t.flt = s.flt)) ∧
  (∀ (k : Fin 4) (fails : Bool) (s : State), domRuns s .mgmt = true → s.mgmt.spt[k].defers < 15 → s.g (K.spd_SPT_DEFERRED k) < 4294967295 →
    ∃ t, exec (.scratchpadSelftestChunk k true fails) s = .next t ∧
    t.mgmt.spt[k] = { s.mgmt.spt[k] with defers := s.mgmt.spt[k].defers + 1 } ∧ t.g (K.spd_SPT_DEFERRED k) = s.g (K.spd_SPT_DEFERRED k) + 1 ∧
    OtherObjects [K.spd_SPT_DEFERRED k] s t)

/-- While the management domain runs: a conversion outside its limit makes its source active, one inside for 1 s inactive (R661);
telemetry records the value and its peak (R660); the highest DIMM temperature is kept (R760). Whatever runs, the power-fail
warning counts and suspends an erase, and clears (R736, R737); below 4.2 V only what is stored remains and the outputs are
undriven (R739); VIN_LOW and VIN_HIGH follow the supply (R740). -/
def Obligations.SensorsAndSupply : Prop :=
  (∀ (i : Fin 24) (v : Int) (s : State), domRuns s .mgmt = true → s.g (K.th_WARN_LIMIT i) < v → s.g (K.th_CRIT_LIMIT i) < v →
    ∃ t, exec (.faultCheckConversion (.thermal i) v) s = .next t ∧ Active t (Src.TEMP_WARN i) ∧ Active t (Src.TEMP_CRIT i) ∧
    OtherObjects [] s t) ∧
  (∀ (v : Int) (s : State), domRuns s .mgmt = true → v ≤ s.g K.vi_IIN_LIMIT → kgetD s.mgmt.sensAt 78 0 + 800000000 ≤ s.now →
    (s.src Src.IIN_LIMIT).broken = false → ∃ t, exec (.faultCheckConversion .iin v) s = .next t ∧ Quiet t Src.IIN_LIMIT ∧
    OtherObjects [] s t) ∧
  (∀ (i : Fin 24) (v : Int) (s : State), domRuns s .mgmt = true → ∃ t, exec (.telemetryConversion (.thermal i) v) s = .next t ∧
    t.g (K.th_TEMP i) = v ∧ v ≤ t.g (K.th_TEMP_PEAK i) ∧ OtherObjects [K.th_TEMP i, K.th_TEMP_PEAK i] s t) ∧
  (∀ (r : Fin 14) (v : Int) (s : State), domRuns s .mgmt = true → ∃ t, exec (.telemetryConversion (.rail r) v) s = .next t ∧
    t.g (K.rl_RAIL_V r) = v ∧ OtherObjects [K.rl_RAIL_V r] s t) ∧
  (∀ (v : Int) (s : State), domRuns s .mgmt = true → ∃ t, exec (.telemetryConversion .vin v) s = .next t ∧ t.g K.vi_VIN = v ∧
    t.g K.vi_PIN = v * s.g K.vi_IIN / 1000000 ∧ OtherObjects [K.vi_VIN, K.vi_PIN] s t) ∧
  (∀ (a : Int) (l : List Int) (s : State), s.g K.hm_DIMM_PRESENT ≠ 0 → ∃ t, exec (.dimmTempRead a l) s = .next t ∧
    (∀ x ∈ a :: l, x ≤ t.g K.ds_DIMM_TEMP_MAX) ∧ (t.g K.ds_DIMM_TEMP_MAX ∈ a :: l) ∧ OtherObjects [K.ds_DIMM_TEMP_MAX] s t) ∧
  (∀ (s : State), s.g K.pw_PFW_ACTIVE = 0 → s.g K.pw_PFW_COUNT < 4294967295 → ∃ t, exec (.vinPfw) s = .next t ∧ t.g K.pw_PFW_ACTIVE = 1 ∧
    t.g K.pw_PFW_COUNT = s.g K.pw_PFW_COUNT + 1 ∧ Active t Src.VIN_PFW ∧ t.mgmt = { s.mgmt with erase := s.mgmt.erase.map (fun _ => true) } ∧
    OtherObjects [K.pw_PFW_ACTIVE, K.pw_PFW_COUNT] s t) ∧
  (∀ (s : State), (s.src Src.VIN_PFW).broken = false → ∃ t, exec (.pfwClear) s = .next t ∧ t.g K.pw_PFW_ACTIVE = 0 ∧ Quiet t Src.VIN_PFW ∧
    OtherObjects [K.pw_PFW_ACTIVE] s t) ∧
  (∀ (s : State), ∃ t, exec (.uvlo) s = .next t ∧ t.out = [.undriven] ∧ t.pwr = {} ∧ t.mem = {} ∧ t.host = {} ∧ t.mgmt = s.mgmt.stored ∧
    (∀ k, storedKey k = true → t.g k = s.g k)) ∧
  (∀ (back : Bool) (s : State), (s.src Src.VIN_LOW).broken = false → ∃ t, exec (.vinLow back) s = .next t ∧
    (t.src Src.VIN_LOW).active = !back ∧ OtherObjects [] s t) ∧
  (∀ (back : Bool) (s : State), (s.src Src.VIN_HIGH).broken = false → ∃ t, exec (.vinHigh back) s = .next t ∧
    (t.src Src.VIN_HIGH).active = !back ∧ OtherObjects [] s t)

/-- While the management and NOR domains run: a failing journal sector takes a spare of its die; without a spare the die goes out
of service (R666, R667). Compaction and a scrubbed journal sector write a checkpoint of the next epoch when a die is in service,
nothing waits for its mark, no power-fail warning stands and the background work has its share of the NOR (R42, R674, R677, R737;
the counting of that share is the DESIGN CHOICE of log entry 212, the year of the refresh age the DEDUCED entry 246); otherwise
neither does anything. An erase is suspended and resumed (R678); the budget raises once an hour (R679). -/
def Obligations.NorStore : Prop :=
  (∀ (d : Fin 2) (s : State), domRuns s .mgmt = true → domRuns s .nor = true → 32 ≤ kgetD s.mgmt.spares d.val 0 →
    (s.n K.nr_NOR_COPIES).testBit d = true → ∃ t, exec (.norProgramDone { erase := false, failed := some (d, true) }) s = .next t ∧
    t.n K.nr_NOR_COPIES = s.n K.nr_NOR_COPIES - 2 ^ d.val ∧ Active t (Src.NOR_COPY_FAIL d) ∧
    OtherObjects [K.nr_NOR_COPIES, K.nr_LOW_SPACE] s t) ∧
  (∀ (d : Fin 2) (s : State), domRuns s .mgmt = true → domRuns s .nor = true → kgetD s.mgmt.spares d.val 0 < 32 → s.g K.nr_RETIRED < 255 →
    ∃ t, exec (.norProgramDone { erase := true, failed := some (d, true) }) s = .next t ∧
    kgetD t.mgmt.spares d.val 0 = kgetD s.mgmt.spares d.val 0 + 1 ∧ t.g K.nr_RETIRED = s.g K.nr_RETIRED + 1 ∧ t.mgmt.erase = none ∧
    OtherObjects [K.nr_RETIRED, K.nr_LOW_SPACE] s t) ∧
  (∀ (resume : Bool) (b : Bool) (s : State), domRuns s .mgmt = true → domRuns s .nor = true → s.mgmt.erase = some b → pfw s = false →
    ∃ t, exec (.eraseSuspend resume) s = .next t ∧ t.mgmt = { s.mgmt with erase := some (!resume) } ∧ OtherObjects [] s t) ∧
  (∀ (s : State), domRuns s .mgmt = true → domRuns s .nor = true → pfw s = true → ∃ t, exec (.eraseSuspend true) s = .next t ∧
    t.mgmt = s.mgmt ∧ OtherObjects [] s t) ∧
  (∀ (s : State), domRuns s .mgmt = true → 3000 < s.pcommitsHour → s.mgmt.budgetAt = none → ∃ t, exec (.journalBudget) s = .next t ∧
    t.mgmt = { s.mgmt with budgetAt := some s.now } ∧ OtherObjects [] s t) ∧
  (∀ (why : Compact) (s : State), domRuns s .mgmt = true → domRuns s .nor = true → pfw s = false → norUp s = true → noneMarking s = true →
    norShare s = true → (why = .tail ∧ 16384 < tailPages s.mgmt ∨ why = .age ∧ aged s = true ∨ why = .space ∧ s.b K.nr_LOW_SPACE = true ∨
    why = .rewrite ∧ s.mgmt.rewrite ≠ []) → ∃ t, exec (.compaction why) s = .next t ∧ t.mgmt.epoch = s.mgmt.epoch + 1 ∧
    t.mgmt.norBg = s.mgmt.norBg + 1 ∧ OtherObjects [K.nr_LOW_SPACE] s t ∧ t.blobs = s.blobs) ∧
  (∀ (s : State), domRuns s .mgmt = true → domRuns s .nor = true → pfw s = false → norUp s = true → noneMarking s = true →
    norShare s = true → ∃ t, exec (.norScrub .journal) s = .next t ∧ t.mgmt.epoch = s.mgmt.epoch + 1 ∧ OtherObjects [K.nr_LOW_SPACE] s t ∧
    t.blobs = s.blobs) ∧
  (∀ (s : State), domRuns s .mgmt = true → domRuns s .nor = true → pfw s = false → norShare s = true →
    ∃ t, exec (.norScrub .other) s = .next t ∧ t.mgmt = { s.mgmt with norFg := 0, norBg := s.mgmt.norBg + 1 } ∧ OtherObjects [] s t ∧
    t.blobs = s.blobs) ∧
  (∀ (f : ScrubFind) (s : State), domRuns s .mgmt = true → domRuns s .nor = true → (f = .clean ∨ pfw s = true ∨ norShare s = false ∨
    (f = .journal ∧ (norUp s = false ∨ noneMarking s = false))) → exec (.norScrub f) s = .next s.fresh) ∧
  (∀ (why : Compact) (s : State), domRuns s .mgmt = true → domRuns s .nor = true → (pfw s = true ∨ norUp s = false ∨ noneMarking s = false ∨
    norShare s = false ∨ why = .tail ∧ tailPages s.mgmt ≤ 16384 ∨ why = .age ∧ aged s = false ∨ why = .space ∧ s.b K.nr_LOW_SPACE = false ∨
    why = .rewrite ∧ s.mgmt.rewrite = []) → exec (.compaction why) s = .next s.fresh)

/-- While the management domain runs: ACTIVATE makes a VALID slot TRIAL, CANCEL returns it, CONFIRM makes the running trial
ACTIVE, ERASE empties the other slot; other slot states end with FW_STATE, a lifecycle that denies them with LC_DENIED, and the
power-fail warning ends ACTIVATE and CONFIRM with PWR_LOW (R682, R737). An unconfirmed trial becomes INVALID (R683). A token of a
state that the table does not reach is refused; an accepted one wipes the key and commits LIFECYCLE as a transaction of its own
(R18, R684, R685); a key is accepted in its window alone (R687). Whatever runs, TAMPER_N wipes the key and closes the window
(R688). -/
def Obligations.FirmwareAndKeys : Prop :=
  (∀ (s : State), domRuns s .mgmt = true → lcDenied s = false → pfw s = false → ∃ t, exec (.activate) s = .next t ∧
    (if slotState s (otherSlot s) = 2 then slotState t (otherSlot s) = 3 ∧ t.n K.fwm_FW_STATUS = 0 ∧ (t.slot (otherSlot s)).booted = false ∧
    OtherObjects [K.fwm_FW_STATUS, K.fwm_SLOT_STATE_A (otherSlot s)] s t else t.n K.fwm_FW_STATUS = Status.FW_STATE ∧
    OtherObjects [K.fwm_FW_STATUS] s t)) ∧
  (∀ (s : State), domRuns s .mgmt = true → lcDenied s = false → ∃ t, exec (.cancel) s = .next t ∧ (if slotState s (otherSlot s) = 3 ∧
    (s.slot (otherSlot s)).booted = false then slotState t (otherSlot s) = 2 ∧ t.n K.fwm_FW_STATUS = 0 ∧
    OtherObjects [K.fwm_FW_STATUS, K.fwm_SLOT_STATE_A (otherSlot s)] s t else t.n K.fwm_FW_STATUS = Status.FW_STATE ∧
    OtherObjects [K.fwm_FW_STATUS] s t)) ∧
  (∀ (s : State), domRuns s .mgmt = true → lcDenied s = false → pfw s = false → slotState s (runningSlot s) = 3 →
    (s.slot (runningSlot s)).booted = true → ∃ t, exec (.confirm) s = .next t ∧ slotState t (runningSlot s) = 4 ∧
    t.n K.fwm_ACTIVE_SLOT = (runningSlot s).val ∧ t.n K.fwm_FW_STATUS = 0 ∧ t.mgmt.confirmEnd = none ∧
    t.n K.rk_FUSED_SVN = max (s.n K.rk_FUSED_SVN) (s.n (K.fwm_SLOT_SVN_A (runningSlot s)))) ∧
  (∀ (s : State), domRuns s .mgmt = true → lcDenied s = false → ∃ t, exec (.erase) s = .next t ∧ slotState t (otherSlot s) = 0 ∧
    t.slot (otherSlot s) = {} ∧ t.n (K.fwm_SLOT_VERSION_A (otherSlot s)) = 0 ∧ t.n (K.fwm_SLOT_SVN_A (otherSlot s)) = 0 ∧
    t.n K.fwm_FW_STATUS = 0 ∧
    OtherObjects [K.fwm_FW_STATUS, K.fwm_SLOT_STATE_A (otherSlot s), K.fwm_SLOT_VERSION_A (otherSlot s), K.fwm_SLOT_SVN_A (otherSlot s)] s t) ∧
  (∀ (s : State), domRuns s .mgmt = true → lcDenied s = false → pfw s = false → ¬(slotState s (runningSlot s) = 3 ∧
    (s.slot (runningSlot s)).booted = true) → ∃ t, exec (.confirm) s = .next t ∧ t.n K.fwm_FW_STATUS = Status.FW_STATE ∧
    OtherObjects [K.fwm_FW_STATUS] s t) ∧
  (∀ (c : Instr) (s : State), domRuns s .mgmt = true → lcDenied s = true → c ∈ [.activate, .confirm, .cancel, .erase] →
    ∃ t, exec (c) s = .next t ∧ t.n K.fwm_FW_STATUS = Status.LC_DENIED ∧ OtherObjects [K.fwm_FW_STATUS] s t) ∧
  (∀ (c : Instr) (s : State), domRuns s .mgmt = true → lcDenied s = false → pfw s = true → c ∈ [.activate, .confirm] →
    ∃ t, exec (c) s = .next t ∧ t.n K.fwm_FW_STATUS = Status.PWR_LOW ∧ OtherObjects [K.fwm_FW_STATUS] s t) ∧
  (∀ (at_ : Nat) (s : State), domRuns s .mgmt = true → s.mgmt.confirmEnd = some at_ → at_ ≤ s.now →
    ∃ t, exec (.confirmWindowExpiry) s = .next t ∧ slotState t (runningSlot s) = 5 ∧
    t.mgmt = { s.mgmt with confirmEnd := none, revert := true } ∧ OtherObjects [K.fwm_SLOT_STATE_A (runningSlot s)] s t) ∧
  (∀ (b : List Byte) (s : State), domRuns s .mgmt = true → pfw s = false → b.length = 248 →
    lcTransition (s.n K.lcy_LIFECYCLE) (field b 6 1) = false → ∃ t, exec (.lcToken b) s = .next t ∧
    t.n K.lcy_LC_STATUS = Status.LC_TRANSITION ∧ t.mgmt = s.mgmt ∧ OtherObjects [K.lcy_LC_STATUS] s t) ∧
  (∀ (b : List Byte) (s : State), domRuns s .mgmt = true → pfw s = false → b.length = 248 →
    lcTransition (s.n K.lcy_LIFECYCLE) (field b 6 1) = true → ∃ t, exec (.lcToken b) s = .next t ∧
    (if lcTokenOk s b then t.n K.lcy_LC_STATUS = 0 ∧ t.mgmt.partKey = none ∧ t.mgmt.workKey = none ∧
    OwnStands (.life (field b 6 1)) [K.lcy_LIFECYCLE] [(K.lcy_LIFECYCLE, (field b 6 1 : Nat))] t else t.n K.lcy_LC_STATUS = Status.LC_TOKEN ∧
    OtherObjects [K.lcy_LC_STATUS] s t)) ∧
  (∀ (k : List Byte) (s : State), domRuns s .mgmt = true → pfw s = false → s.g K.kk_KEY_STATE = 1 → s.g K.lcy_TAMPER_ACTIVE = 0 →
    k.length = 96 → ∃ t, exec (.sealKey k) s = .next t ∧ (if Config.p384Point k then t.n K.kk_KEY_STATE = 2 ∧
    t.mgmt = { s.mgmt with partKey := some k, workKey := some k } else t.mgmt = s.mgmt) ∧ OtherObjects [K.kk_KEY_STATE] s t) ∧
  (∀ (s : State), domRuns s .mgmt = true → s.g K.kk_KEY_STATE = 1 → s.mgmt.keyEnd ≤ s.now → ∃ t, exec (.keyWindowExpiry) s = .next t ∧
    t.g K.kk_KEY_STATE = 0 ∧ t.mgmt = s.mgmt ∧ OtherObjects [K.kk_KEY_STATE] s t) ∧
  (∀ (s : State), s.g K.lcy_TAMPER_ACTIVE = 0 → s.g K.lcy_TAMPER_COUNT < 4294967295 → ∃ t, exec (.tamper) s = .next t ∧
    t.g K.lcy_TAMPER_ACTIVE = 1 ∧ t.g K.kk_KEY_STATE = 0 ∧ t.g K.lcy_TAMPER_COUNT = s.g K.lcy_TAMPER_COUNT + 1 ∧ t.mgmt.partKey = none ∧
    t.mgmt.workKey = none ∧ t.g K.sk_SEAL_STATE = 0) ∧
  (∀ (s : State), ∃ t, exec (.tamperRelease) s = .next t ∧ t.g K.lcy_TAMPER_ACTIVE = 0 ∧ t.mgmt = s.mgmt ∧
    OtherObjects [K.lcy_TAMPER_ACTIVE] s t)

/-- PERST_N low takes the link down and restarts bring-up with P2; its release ends a hold and starts P4 (R733). While the
management domain runs an accepted DEV_RESET takes effect 1 ms later, and one of FIRMWARE is refused while busy (R734): a
FIRMWARE reset restarts firmware alone (R735), a DEVICE reset clears what Table 17.4 does not keep (R731). -/
def Obligations.Resets : Prop :=
  (∀ (s : State), s.pwr.on = true → s.pwr.perst = false → ∃ t, exec (.perst) s = .next t ∧ t.pwr.perst = true ∧ t.pwr.link = false ∧
    t.n K.bu_LAST_RESET = 3 ∧ t.n K.bu_RESET_PHASE = s.phase ∧ t.n K.bu_PHASE = min 2 s.phase ∧ t.host.queues = [] ∧ t.mem = {} ∧
    t.flt.tests = s.flt.tests) ∧
  (∀ (s : State), s.pwr.hold = true → s.phase = 3 → ∃ t, exec (.perstDeassert) s = .next t ∧
    t.pwr = { s.pwr with perst := false, hold := false, phaseAt := s.now } ∧ t.n K.bu_PHASE = 4 ∧ t.mem = s.mem ∧ t.host = s.host) ∧
  (∀ (s : State), s.pwr.hold = false → ∃ t, exec (.perstDeassert) s = .next t ∧ t.pwr = { s.pwr with perst := false } ∧ OtherObjects [] s t ∧
    t.mem = s.mem ∧ t.host = s.host) ∧
  (∀ (s : State), domRuns s .mgmt = true → ∃ t, exec (.device) s = .next t ∧ t.pwr = { s.pwr with reset := some (1, s.now + 800000) } ∧
    t.g K.bu_DEV_RESET_STATUS = 0 ∧ OtherObjects [K.bu_DEV_RESET_STATUS] s t) ∧
  (∀ (s : State), domRuns s .mgmt = true → resetBusy s = false → ∃ t, exec (.firmware) s = .next t ∧
    t.pwr = { s.pwr with reset := some (2, s.now + 800000) } ∧ t.g K.bu_DEV_RESET_STATUS = 0 ∧ OtherObjects [K.bu_DEV_RESET_STATUS] s t) ∧
  (∀ (s : State), domRuns s .mgmt = true → resetBusy s = true → ∃ t, exec (.firmware) s = .next t ∧ t.pwr = s.pwr ∧
    t.n K.bu_DEV_RESET_STATUS = Status.RST_BUSY ∧ OtherObjects [K.bu_DEV_RESET_STATUS] s t) ∧
  (∀ (at_ : Nat) (s : State), s.pwr.reset = some (2, at_) → at_ ≤ s.now → ∃ t, exec (.resetTakesEffect) s = .next t ∧
    t.n K.bu_LAST_RESET = 5 ∧ t.n K.bu_RESET_PHASE = s.phase ∧ t.n K.bu_PHASE = min 2 s.phase ∧ t.mem = s.mem ∧ t.sites = s.sites ∧
    t.mgmt.workKey = none ∧ t.pwr.reset = none ∧ t.pwr.fwOnly = (s.phase == 6)) ∧
  (∀ (at_ : Nat) (s : State), s.pwr.reset = some (1, at_) → at_ ≤ s.now → ∃ t, exec (.resetTakesEffect) s = .next t ∧
    t.n K.bu_LAST_RESET = 4 ∧ t.n K.bu_RESET_PHASE = s.phase ∧ t.n K.bu_PHASE = min 2 s.phase ∧ t.mem = {} ∧ t.host.queues = [] ∧
    t.mgmt.workKey = none ∧ t.pwr.reset = none ∧ t.pwr.link = s.pwr.link)

/-- Whatever runs, power-on leaves what is stored and begins P0 with the strapped node (R730). While the management domain runs
the boot ROM boots a slot that passes or stays in P2 (R723, R724), where an image may be written to slot A (R724). Replay counts
the torn pages, resumes appending at a sector and reloads the key unless a wipe was interrupted (R671, R672); training and the
quick self-test record their work (R726, R727, R729); a phase ends when its work is done (R721), at the end of P4 a full training
is committed as a transaction (R18), and P6 counts BOOTS and sends DRS (R603, R730). -/
def Obligations.BringUp : Prop :=
  (∀ (node : Fin 64) (s : State), s.pwr.on = false → ∃ t, exec (.powerOn node) s = .next t ∧ t.pwr.on = true ∧ t.n K.bu_PHASE = 0 ∧
    t.n K.bu_LAST_RESET = 1 ∧ t.n K.net_NODE_ID = node.val ∧ t.mem = {} ∧ t.host = {} ∧ t.mgmt.journal = s.mgmt.journal ∧
    t.mgmt.workKey = none) ∧
  (∀ (drsOn : Bool) (s : State), s.pwr.on = true → s.phase = 0 → ∃ t, exec (.phaseEnd false drsOn) s = .next t ∧ t.n K.bu_PHASE = 1 ∧
    t.pwr.phaseAt = s.now ∧ t.g (K.bp_PHASE_TIME 0) = ((s.now - s.pwr.phaseAt) * 1250000 : Nat) ∧
    (∀ g : Fin 3, refGood s (primary g) = true → t.n (K.cg_GROUP_STATE g) = 0 ∧ t.n (K.cg_SOURCE g) = (primary g).val)) ∧
  (∀ (tamperLow drsOn : Bool) (s : State), s.phase = 3 → s.pwr.done.contains 3 = true → s.pwr.hold = false → s.pwr.perst = false →
    ∃ t, exec (.phaseEnd tamperLow drsOn) s = .next t ∧ t.n K.bu_PHASE = 4 ∧ t.pwr = { s.pwr with phaseAt := s.now } ∧
    OtherObjects [K.bu_PHASE, K.bp_PHASE_TIME 3] s t) ∧
  (∀ (tamperLow drsOn : Bool) (record : List Byte) (s : State), s.phase = 4 → s.pwr.done.contains 4 = true → s.pwr.done.contains 5 = true →
    s.mem.hbmUp = true → s.pwr.train = some record → ∃ t, exec (.phaseEnd tamperLow drsOn) s = .next t ∧ t.n K.bu_PHASE = 5 ∧
    t.pwr = { s.pwr with train := none, phaseAt := s.now } ∧ PublishesNow .train 0 0 [K.tn_TRAIN_RECORD, K.bu_FORCE_FULL_TRAIN] [] s t ∧
    OtherObjects [K.bu_PHASE, K.bp_PHASE_TIME 4] s t) ∧
  (∀ (tamperLow drsOn : Bool) (s : State), s.phase = 5 → s.pwr.done.contains 6 = true → s.g K.mg_BOOTS < 4294967295 →
    ∃ t, exec (.phaseEnd tamperLow drsOn) s = .next t ∧ t.n K.bu_PHASE = 6 ∧ t.g K.mg_BOOTS = s.g K.mg_BOOTS + 1 ∧ (drsOn = true →
    s.pwr.link = true → .pcieMsg "DRS" 0 ∈ t.out)) ∧
  (∀ (words : List (Nat × MWord)) (dir : List VEntry) (version : BitVec 32) (s : State), domRuns s .mgmt = true → s.phase = 2 →
    s.pwr.on = true → s.pwr.fw = false → s.pwr.noSlot = false → slotState s 0 ≠ 3 → slotState s 1 ≠ 3 → s.mgmt.mirror ≤ s.n K.rk_FUSED_SVN →
    ((s.slot 0).image.length < 257) → ((s.slot 1).image.length < 257) → ∃ t, exec (.bootRom words dir version) s = .next t ∧
    t.pwr = { s.pwr with noSlot := true } ∧ slotState t (activeSlot s) = 5 ∧ t.mem = s.mem ∧
    OtherObjects [K.fwm_SLOT_STATE_A 0, K.fwm_SLOT_STATE_A 1] s t) ∧
  (∀ (words : List (Nat × MWord)) (dir : List VEntry) (version : BitVec 32) (s : State), domRuns s .mgmt = true → s.phase = 2 →
    s.pwr.on = true → s.pwr.fw = false → s.pwr.noSlot = false → slotState s 0 = 4 → slotState s 1 = 0 → s.n K.fwm_ACTIVE_SLOT = 0 →
    s.mgmt.mirror ≤ s.n K.rk_FUSED_SVN → ∃ t, exec (.bootRom words dir version) s = .next t ∧
    t.pwr.fw = decide (imageCheck s (s.slot 0).image = 0) ∧ t.pwr.noSlot = decide (imageCheck s (s.slot 0).image ≠ 0) ∧
    slotState t 0 = (if imageCheck s (s.slot 0).image = 0 then 4 else 5)) ∧
  (∀ (img : List Byte) (s : State), s.phase = 2 → s.pwr.noSlot = true → ∃ t, exec (.kzFwload img) s = .next t ∧ slotState t 0 = 2 ∧
    t.slot 0 = { image := img } ∧ t.n (K.fwm_SLOT_VERSION_A 0) = imageVersion img ∧ t.n (K.fwm_SLOT_SVN_A 0) = imageSvn img ∧
    OtherObjects [K.fwm_SLOT_STATE_A 0, K.fwm_SLOT_VERSION_A 0, K.fwm_SLOT_SVN_A 0] s t) ∧
  (∀ (d0 d1 : List (Nat × List Byte)) (s : State), domRuns s .mgmt = true → s.phase = 3 → s.pwr.done.contains 3 = false →
    ∃ t, exec (.journalReplay d0 d1) s = .next t ∧ t.pwr.done = 3 :: s.pwr.done ∧
    t.n K.nr_TORN = min (tornPages (readsOfDies d0 d1)) 4294967295 ∧
    (wipeOpen (presentRecs (journalCopies s.mgmt (readsOfDies d0 d1))) = false → t.mgmt.workKey = s.mgmt.partKey ∧
    t.mgmt.partKey = s.mgmt.partKey ∧ t.mgmt.pages % 256 = 0 ∧ t.n K.kk_KEY_STATE = (if s.mgmt.partKey.isSome then 2 else 0))) ∧
  (∀ (s : State), domRuns s .mgmt = true → s.phase = 4 → s.pwr.done.contains 4 = false → ∃ t, exec (.hbmTraining none) s = .next t ∧
    t.mem = { s.mem with hbmUp := true } ∧ t.pwr = { s.pwr with done := 4 :: s.pwr.done } ∧ OtherObjects [] s t) ∧
  (∀ (k : Fin 4) (s : State), domRuns s .mgmt = true → s.phase = 4 → s.pwr.done.contains 4 = false →
    ∃ t, exec (.hbmTraining (some k)) s = .next t ∧ t.mem = { s.mem with hbmUp := false } ∧ t.pwr = { s.pwr with done := 4 :: s.pwr.done } ∧
    Active t (Src.HBM_UE k) ∧ OtherObjects [] s t) ∧
  (∀ (caps : Vector Nat 8) (r : Bool) (failed : List (Fin 4)) (record : List Byte) (s : State), domRuns s .mgmt = true → s.phase = 4 →
    s.pwr.done.contains 5 = false → ∃ t, exec (.ddr5Training caps r failed record) s = .next t ∧ t.pwr.done = 5 :: s.pwr.done ∧
    t.n K.hm_DIMM_PRESENT = dimmMask caps ∧ t.n K.hm_DDR5_INSTALLED = (if dimmsFit caps = true ∧
    failed = [] then caps.toList.foldl (· + ·) 0 else 0) ∧ t.mem = s.mem ∧
    OtherObjects [K.hm_DIMM_PRESENT, K.hm_DDR5_INSTALLED, K.bu_TRAIN_KIND, K.tn_TRAIN_VALID] s t) ∧
  (∀ (l : List (BitVec 16)) (s : State), domRuns s .mgmt = true → s.phase = 5 → s.pwr.done.contains 6 = false →
    ∃ t, exec (.quickSelfTest l) s = .next t ∧ t.pwr = { s.pwr with done := 6 :: s.pwr.done } ∧ OtherObjects [] s t ∧ (∀ x, x ∈ l →
    quickSource x.toNat = true → (s.src x.toNat).active = false → t.flt.reports.any (fun r => r.src == x.toNat) = true))
end

