-- ==== Sys2Proof/Laws/Store.lean ====
section
/-! SUPPORT. The laws of the sparse maps: reading after writing and deleting, and the canonical form, which every
operation keeps. -/
namespace Sys2Proof.Laws
open Sys2Proof Sys2Proof.Machine

theorem kget?_kput {α : Type} (m : KMap α) (k j : Nat) (v : α) :
    kget? (kput m k v) j = if j = k then some v else kget? m j := by
  induction m with
  | nil => simp [kput, kget?]
  | cons e r ih =>
    obtain ⟨a, b⟩ := e
    simp only [kput]
    split
    · simp [kget?]
    · split
      · rename_i h; subst h; simp [kget?]; split <;> simp_all
      · simp only [kget?, ih]; split <;> split <;> simp_all

theorem kget?_kdel {α : Type} (m : KMap α) (k j : Nat) :
    kget? (kdel m k) j = if j = k then none else kget? m j := by
  induction m with
  | nil => simp [kdel, kget?]
  | cons e r ih =>
    obtain ⟨a, b⟩ := e
    simp only [kdel]
    split
    · rename_i h; subst h; rw [ih]; simp [kget?]; split <;> simp_all
    · simp only [kget?, ih]; split <;> split <;> simp_all

/-- A key above a bound that the map respects is written above it. -/
theorem krising_kput {α : Type} (m : KMap α) (k : Nat) (v : α) :
    ∀ o : Option Nat, krising o m = true → (∀ b, o = some b → b < k) → krising o (kput m k v) = true := by
  induction m with
  | nil => intro o _ hb; cases o <;> simp [kput, krising]; exact hb _ rfl
  | cons e r ih =>
    obtain ⟨a, b⟩ := e
    intro o h hb
    simp only [kput]
    split
    · rename_i hk
      cases o with
      | none => simp [krising] at h ⊢; exact ⟨hk, h⟩
      | some c => simp [krising] at h ⊢; exact ⟨hb c rfl, hk, h.2⟩
    · split
      · rename_i hk; subst hk
        cases o <;> simpa [krising] using h
      · rename_i h1 h2
        have : a < k := by omega
        cases o with
        | none => simp [krising] at h ⊢; exact ih _ h (by intro b hb; cases hb; exact this)
        | some c =>
          simp [krising] at h ⊢
          exact ⟨h.1, ih _ h.2 (by intro b hb; cases hb; exact this)⟩

/-- A lower bound serves as well. -/
theorem krising_weaken {α : Type} (m : KMap α) (a : Nat) (o : Option Nat) (ho : ∀ b, o = some b → b ≤ a)
    (h : krising (some a) m = true) : krising o m = true := by
  cases m with
  | nil => cases o <;> rfl
  | cons e r =>
    obtain ⟨c, d⟩ := e
    simp [krising] at h
    cases o with
    | none => simpa [krising] using h.2
    | some b => simp [krising]; exact ⟨by have := ho b rfl; omega, h.2⟩

theorem krising_kdel {α : Type} (m : KMap α) (k : Nat) :
    ∀ o : Option Nat, krising o m = true → krising o (kdel m k) = true := by
  induction m with
  | nil => intro o _; cases o <;> rfl
  | cons e r ih =>
    obtain ⟨a, b⟩ := e
    intro o h
    simp only [kdel]
    split
    · cases o with
      | none => exact krising_weaken _ a _ (by simp) (ih _ (by simpa [krising] using h))
      | some c =>
        simp [krising] at h
        exact krising_weaken _ a _ (by intro b hb; cases hb; omega) (ih _ h.2)
    · cases o with
      | none => simp [krising] at h ⊢; exact ih _ h
      | some c => simp [krising] at h ⊢; exact ⟨h.1, ih _ h.2⟩

theorem krising_filter {α : Type} (p : Nat × α → Bool) (m : KMap α) :
    ∀ o : Option Nat, krising o m = true → krising o (m.filter p) = true := by
  induction m with
  | nil => intro o _; cases o <;> rfl
  | cons e r ih =>
    obtain ⟨a, b⟩ := e
    intro o h
    simp only [List.filter]
    split
    · cases o with
      | none => simp [krising] at h ⊢; exact ih _ h
      | some c => simp [krising] at h ⊢; exact ⟨h.1, ih _ h.2⟩
    · cases o with
      | none => exact krising_weaken _ a _ (by simp) (ih _ (by simpa [krising] using h))
      | some c =>
        simp [krising] at h
        exact krising_weaken _ a _ (by intro b hb; cases hb; omega) (ih _ h.2)

theorem ksorted_kput {α : Type} {m : KMap α} (h : ksorted m = true) (k : Nat) (v : α) : ksorted (kput m k v) = true :=
  krising_kput m k v none h (by simp)

theorem ksorted_kdel {α : Type} {m : KMap α} (h : ksorted m = true) (k : Nat) : ksorted (kdel m k) = true :=
  krising_kdel m k none h

theorem krising_map {α β : Type} (f : α → β) (m : KMap α) :
    ∀ o : Option Nat, krising o (m.map (fun e => (e.1, f e.2))) = krising o m := by
  induction m with
  | nil => intro o; cases o <;> rfl
  | cons e r ih =>
    obtain ⟨a, b⟩ := e
    intro o
    cases o <;> simp [krising, ih]

theorem ksorted_map {α β : Type} (f : α → β) (m : KMap α) : ksorted (m.map (fun e => (e.1, f e.2))) = ksorted m :=
  krising_map f m none

theorem ksorted_filter {α : Type} {m : KMap α} (h : ksorted m = true) (p : Nat × α → Bool) :
    ksorted (m.filter p) = true := krising_filter p m none h

theorem mem_kput {α : Type} {m : KMap α} {k : Nat} {v : α} {e : Nat × α} (h : e ∈ kput m k v) : e = (k, v) ∨ e ∈ m := by
  induction m with
  | nil => simp [kput] at h; exact .inl h
  | cons f r ih =>
    obtain ⟨a, b⟩ := f
    simp only [kput] at h
    split at h
    · simp at h; rcases h with h | h | h <;> simp [h]
    · split at h
      · simp at h; rcases h with h | h <;> simp [h]
      · simp at h
        rcases h with h | h
        · simp [h]
        · rcases ih h with h | h <;> simp [h]

theorem mem_kdel {α : Type} {m : KMap α} {k : Nat} {e : Nat × α} (h : e ∈ kdel m k) : e ∈ m := by
  induction m with
  | nil => simp [kdel] at h
  | cons f r ih =>
    obtain ⟨a, b⟩ := f
    simp only [kdel] at h
    split at h
    · exact List.mem_cons_of_mem _ (ih h)
    · simp at h
      rcases h with h | h
      · simp [h]
      · exact List.mem_cons_of_mem _ (ih h)

/-! ### Object stores -/

/-- Reading any object after a write of one. -/
theorem Store_val_write (m : Store) (k j : Nat) (v : Int) :
    Store.val (Store.write m k v) j = if j = k then v else Store.val m j := by
  unfold Store.val Store.write kgetD
  split
  · rename_i h
    rw [kget?_kdel]
    split
    · rename_i e; subst e; simp [h]
    · rfl
  · rw [kget?_kput]
    split
    · rename_i e; subst e; simp
    · rfl

/-- A write keeps the canonical form. -/
theorem Store_wf_write {m : Store} (h : Store.wf m = true) (k : Nat) (v : Int) : Store.wf (Store.write m k v) = true := by
  unfold Store.wf at h ⊢
  simp only [Bool.and_eq_true, List.all_eq_true, bne_iff_ne] at h ⊢
  unfold Store.write
  split
  · exact ⟨ksorted_kdel h.1 k, fun e he => h.2 e (mem_kdel he)⟩
  · rename_i hv
    refine ⟨ksorted_kput h.1 k v, fun e he => ?_⟩
    rcases mem_kput he with rfl | he
    · exact hv
    · exact h.2 e he

/-- Dropping objects back to their defaults keeps the canonical form. -/
theorem Store_wf_filter {m : Store} (h : Store.wf m = true) (p : Nat × Int → Bool) : Store.wf (m.filter p) = true := by
  unfold Store.wf at h ⊢
  simp only [Bool.and_eq_true, List.all_eq_true, bne_iff_ne] at h ⊢
  exact ⟨ksorted_filter h.1 p, fun e he => h.2 e ((List.mem_filter.mp he).1)⟩

theorem Store_wf_nil : Store.wf [] = true := rfl

/-! ### Objects of the state -/

/-- An object after a write of one. -/
theorem g_p (s : State) (k j : Nat) (v : Int) : (s.p k v).g j = if j = k then v else s.g j :=
  Store_val_write s.od k j v

theorem g_p_self (s : State) (k : Nat) (v : Int) : (s.p k v).g k = v := by rw [g_p]; simp

theorem g_p_ne {j k : Nat} (s : State) (v : Int) (h : j ≠ k) : (s.p k v).g j = s.g j := by rw [g_p]; simp [h]

end Sys2Proof.Laws
end

