-- ==== Sys2Proof/Laws/State.lean ====
section
/-! SUPPORT. What each named update of the state leaves alone: one lemma per update and field, so that no proof opens a
record update. -/
namespace Sys2Proof.Laws
open Sys2Proof Sys2Proof.Machine

variable (s : State)

/-! ### p -/
@[simp] theorem p_now (k : Nat) (v : Int) : (s.p k v).now = s.now := rfl
@[simp] theorem p_out (k : Nat) (v : Int) : (s.p k v).out = s.out := rfl
@[simp] theorem p_pending (k : Nat) (v : Int) : (s.p k v).pending = s.pending := rfl
@[simp] theorem p_delayed (k : Nat) (v : Int) : (s.p k v).delayed = s.delayed := rfl
@[simp] theorem p_free (k : Nat) (v : Int) : (s.p k v).free = s.free := rfl
@[simp] theorem p_blobs (k : Nat) (v : Int) : (s.p k v).blobs = s.blobs := rfl
@[simp] theorem p_mem (k : Nat) (v : Int) : (s.p k v).mem = s.mem := rfl
@[simp] theorem p_sites (k : Nat) (v : Int) : (s.p k v).sites = s.sites := rfl
@[simp] theorem p_host (k : Nat) (v : Int) : (s.p k v).host = s.host := rfl
@[simp] theorem p_dict (k : Nat) (v : Int) : (s.p k v).dict = s.dict := rfl
@[simp] theorem p_flt (k : Nat) (v : Int) : (s.p k v).flt = s.flt := rfl
@[simp] theorem p_tmus (k : Nat) (v : Int) : (s.p k v).tmus = s.tmus := rfl
@[simp] theorem p_engs (k : Nat) (v : Int) : (s.p k v).engs = s.engs := rfl
@[simp] theorem p_evts (k : Nat) (v : Int) : (s.p k v).evts = s.evts := rfl
@[simp] theorem p_mkLast (k : Nat) (v : Int) : (s.p k v).mkLast = s.mkLast := rfl
@[simp] theorem p_cal (k : Nat) (v : Int) : (s.p k v).cal = s.cal := rfl
@[simp] theorem p_lvl (k : Nat) (v : Int) : (s.p k v).lvl = s.lvl := rfl
@[simp] theorem p_clk (k : Nat) (v : Int) : (s.p k v).clk = s.clk := rfl
@[simp] theorem p_mgmt (k : Nat) (v : Int) : (s.p k v).mgmt = s.mgmt := rfl
@[simp] theorem p_pwr (k : Nat) (v : Int) : (s.p k v).pwr = s.pwr := rfl
@[simp] theorem p_unitCmds (k : Nat) (v : Int) : (s.p k v).unitCmds = s.unitCmds := rfl

/-! ### fresh -/
@[simp] theorem fresh_now : (s.fresh).now = s.now := rfl
@[simp] theorem fresh_pending : (s.fresh).pending = s.pending := rfl
@[simp] theorem fresh_delayed : (s.fresh).delayed = s.delayed := rfl
@[simp] theorem fresh_free : (s.fresh).free = s.free := rfl
@[simp] theorem fresh_od : (s.fresh).od = s.od := rfl
@[simp] theorem fresh_blobs : (s.fresh).blobs = s.blobs := rfl
@[simp] theorem fresh_mem : (s.fresh).mem = s.mem := rfl
@[simp] theorem fresh_sites : (s.fresh).sites = s.sites := rfl
@[simp] theorem fresh_host : (s.fresh).host = s.host := rfl
@[simp] theorem fresh_dict : (s.fresh).dict = s.dict := rfl
@[simp] theorem fresh_flt : (s.fresh).flt = s.flt := rfl
@[simp] theorem fresh_tmus : (s.fresh).tmus = s.tmus := rfl
@[simp] theorem fresh_engs : (s.fresh).engs = s.engs := rfl
@[simp] theorem fresh_evts : (s.fresh).evts = s.evts := rfl
@[simp] theorem fresh_mkLast : (s.fresh).mkLast = s.mkLast := rfl
@[simp] theorem fresh_cal : (s.fresh).cal = s.cal := rfl
@[simp] theorem fresh_lvl : (s.fresh).lvl = s.lvl := rfl
@[simp] theorem fresh_clk : (s.fresh).clk = s.clk := rfl
@[simp] theorem fresh_mgmt : (s.fresh).mgmt = s.mgmt := rfl
@[simp] theorem fresh_pwr : (s.fresh).pwr = s.pwr := rfl
@[simp] theorem fresh_unitCmds : (s.fresh).unitCmds = s.unitCmds := rfl
@[simp] theorem fresh_g (j : Nat) : (s.fresh).g j = s.g j := by unfold State.g; rw [fresh_od]
@[simp] theorem fresh_n (j : Nat) : (s.fresh).n j = s.n j := by unfold State.n; rw [fresh_g]
@[simp] theorem fresh_b (j : Nat) : (s.fresh).b j = s.b j := by unfold State.b; rw [fresh_g]

/-! ### emit -/
@[simp] theorem emit_now (o : Output) : (s.emit o).now = s.now := rfl
@[simp] theorem emit_pending (o : Output) : (s.emit o).pending = s.pending := rfl
@[simp] theorem emit_delayed (o : Output) : (s.emit o).delayed = s.delayed := rfl
@[simp] theorem emit_free (o : Output) : (s.emit o).free = s.free := rfl
@[simp] theorem emit_od (o : Output) : (s.emit o).od = s.od := rfl
@[simp] theorem emit_blobs (o : Output) : (s.emit o).blobs = s.blobs := rfl
@[simp] theorem emit_mem (o : Output) : (s.emit o).mem = s.mem := rfl
@[simp] theorem emit_sites (o : Output) : (s.emit o).sites = s.sites := rfl
@[simp] theorem emit_host (o : Output) : (s.emit o).host = s.host := rfl
@[simp] theorem emit_dict (o : Output) : (s.emit o).dict = s.dict := rfl
@[simp] theorem emit_flt (o : Output) : (s.emit o).flt = s.flt := rfl
@[simp] theorem emit_tmus (o : Output) : (s.emit o).tmus = s.tmus := rfl
@[simp] theorem emit_engs (o : Output) : (s.emit o).engs = s.engs := rfl
@[simp] theorem emit_evts (o : Output) : (s.emit o).evts = s.evts := rfl
@[simp] theorem emit_mkLast (o : Output) : (s.emit o).mkLast = s.mkLast := rfl
@[simp] theorem emit_cal (o : Output) : (s.emit o).cal = s.cal := rfl
@[simp] theorem emit_lvl (o : Output) : (s.emit o).lvl = s.lvl := rfl
@[simp] theorem emit_clk (o : Output) : (s.emit o).clk = s.clk := rfl
@[simp] theorem emit_mgmt (o : Output) : (s.emit o).mgmt = s.mgmt := rfl
@[simp] theorem emit_pwr (o : Output) : (s.emit o).pwr = s.pwr := rfl
@[simp] theorem emit_unitCmds (o : Output) : (s.emit o).unitCmds = s.unitCmds := rfl
@[simp] theorem emit_g (o : Output) (j : Nat) : (s.emit o).g j = s.g j := by unfold State.g; rw [emit_od]
@[simp] theorem emit_n (o : Output) (j : Nat) : (s.emit o).n j = s.n j := by unfold State.n; rw [emit_g]
@[simp] theorem emit_b (o : Output) (j : Nat) : (s.emit o).b j = s.b j := by unfold State.b; rw [emit_g]

/-! ### emits -/
@[simp] theorem emits_now (l : List Output) : (s.emits l).now = s.now := rfl
@[simp] theorem emits_pending (l : List Output) : (s.emits l).pending = s.pending := rfl
@[simp] theorem emits_delayed (l : List Output) : (s.emits l).delayed = s.delayed := rfl
@[simp] theorem emits_free (l : List Output) : (s.emits l).free = s.free := rfl
@[simp] theorem emits_od (l : List Output) : (s.emits l).od = s.od := rfl
@[simp] theorem emits_blobs (l : List Output) : (s.emits l).blobs = s.blobs := rfl
@[simp] theorem emits_mem (l : List Output) : (s.emits l).mem = s.mem := rfl
@[simp] theorem emits_sites (l : List Output) : (s.emits l).sites = s.sites := rfl
@[simp] theorem emits_host (l : List Output) : (s.emits l).host = s.host := rfl
@[simp] theorem emits_dict (l : List Output) : (s.emits l).dict = s.dict := rfl
@[simp] theorem emits_flt (l : List Output) : (s.emits l).flt = s.flt := rfl
@[simp] theorem emits_tmus (l : List Output) : (s.emits l).tmus = s.tmus := rfl
@[simp] theorem emits_engs (l : List Output) : (s.emits l).engs = s.engs := rfl
@[simp] theorem emits_evts (l : List Output) : (s.emits l).evts = s.evts := rfl
@[simp] theorem emits_mkLast (l : List Output) : (s.emits l).mkLast = s.mkLast := rfl
@[simp] theorem emits_cal (l : List Output) : (s.emits l).cal = s.cal := rfl
@[simp] theorem emits_lvl (l : List Output) : (s.emits l).lvl = s.lvl := rfl
@[simp] theorem emits_clk (l : List Output) : (s.emits l).clk = s.clk := rfl
@[simp] theorem emits_mgmt (l : List Output) : (s.emits l).mgmt = s.mgmt := rfl
@[simp] theorem emits_pwr (l : List Output) : (s.emits l).pwr = s.pwr := rfl
@[simp] theorem emits_unitCmds (l : List Output) : (s.emits l).unitCmds = s.unitCmds := rfl
@[simp] theorem emits_g (l : List Output) (j : Nat) : (s.emits l).g j = s.g j := by unfold State.g; rw [emits_od]
@[simp] theorem emits_n (l : List Output) (j : Nat) : (s.emits l).n j = s.n j := by unfold State.n; rw [emits_g]
@[simp] theorem emits_b (l : List Output) (j : Nat) : (s.emits l).b j = s.b j := by unfold State.b; rw [emits_g]

/-! ### advance -/
@[simp] theorem advance_now : (s.advance).now = s.now := rfl
@[simp] theorem advance_out : (s.advance).out = s.out := rfl
@[simp] theorem advance_pending : (s.advance).pending = s.pending := rfl
@[simp] theorem advance_delayed : (s.advance).delayed = s.delayed := rfl
@[simp] theorem advance_od : (s.advance).od = s.od := rfl
@[simp] theorem advance_blobs : (s.advance).blobs = s.blobs := rfl
@[simp] theorem advance_mem : (s.advance).mem = s.mem := rfl
@[simp] theorem advance_sites : (s.advance).sites = s.sites := rfl
@[simp] theorem advance_host : (s.advance).host = s.host := rfl
@[simp] theorem advance_dict : (s.advance).dict = s.dict := rfl
@[simp] theorem advance_flt : (s.advance).flt = s.flt := rfl
@[simp] theorem advance_tmus : (s.advance).tmus = s.tmus := rfl
@[simp] theorem advance_engs : (s.advance).engs = s.engs := rfl
@[simp] theorem advance_evts : (s.advance).evts = s.evts := rfl
@[simp] theorem advance_mkLast : (s.advance).mkLast = s.mkLast := rfl
@[simp] theorem advance_cal : (s.advance).cal = s.cal := rfl
@[simp] theorem advance_lvl : (s.advance).lvl = s.lvl := rfl
@[simp] theorem advance_clk : (s.advance).clk = s.clk := rfl
@[simp] theorem advance_mgmt : (s.advance).mgmt = s.mgmt := rfl
@[simp] theorem advance_pwr : (s.advance).pwr = s.pwr := rfl
@[simp] theorem advance_unitCmds : (s.advance).unitCmds = s.unitCmds := rfl
@[simp] theorem advance_g (j : Nat) : (s.advance).g j = s.g j := by unfold State.g; rw [advance_od]
@[simp] theorem advance_n (j : Nat) : (s.advance).n j = s.n j := by unfold State.n; rw [advance_g]
@[simp] theorem advance_b (j : Nat) : (s.advance).b j = s.b j := by unfold State.b; rw [advance_g]

/-! ### putBlob -/
@[simp] theorem putBlob_now (k : Nat) (l : List Byte) : (s.putBlob k l).now = s.now := rfl
@[simp] theorem putBlob_out (k : Nat) (l : List Byte) : (s.putBlob k l).out = s.out := rfl
@[simp] theorem putBlob_pending (k : Nat) (l : List Byte) : (s.putBlob k l).pending = s.pending := rfl
@[simp] theorem putBlob_delayed (k : Nat) (l : List Byte) : (s.putBlob k l).delayed = s.delayed := rfl
@[simp] theorem putBlob_free (k : Nat) (l : List Byte) : (s.putBlob k l).free = s.free := rfl
@[simp] theorem putBlob_od (k : Nat) (l : List Byte) : (s.putBlob k l).od = s.od := rfl
@[simp] theorem putBlob_mem (k : Nat) (l : List Byte) : (s.putBlob k l).mem = s.mem := rfl
@[simp] theorem putBlob_sites (k : Nat) (l : List Byte) : (s.putBlob k l).sites = s.sites := rfl
@[simp] theorem putBlob_host (k : Nat) (l : List Byte) : (s.putBlob k l).host = s.host := rfl
@[simp] theorem putBlob_dict (k : Nat) (l : List Byte) : (s.putBlob k l).dict = s.dict := rfl
@[simp] theorem putBlob_flt (k : Nat) (l : List Byte) : (s.putBlob k l).flt = s.flt := rfl
@[simp] theorem putBlob_tmus (k : Nat) (l : List Byte) : (s.putBlob k l).tmus = s.tmus := rfl
@[simp] theorem putBlob_engs (k : Nat) (l : List Byte) : (s.putBlob k l).engs = s.engs := rfl
@[simp] theorem putBlob_evts (k : Nat) (l : List Byte) : (s.putBlob k l).evts = s.evts := rfl
@[simp] theorem putBlob_mkLast (k : Nat) (l : List Byte) : (s.putBlob k l).mkLast = s.mkLast := rfl
@[simp] theorem putBlob_cal (k : Nat) (l : List Byte) : (s.putBlob k l).cal = s.cal := rfl
@[simp] theorem putBlob_lvl (k : Nat) (l : List Byte) : (s.putBlob k l).lvl = s.lvl := rfl
@[simp] theorem putBlob_clk (k : Nat) (l : List Byte) : (s.putBlob k l).clk = s.clk := rfl
@[simp] theorem putBlob_mgmt (k : Nat) (l : List Byte) : (s.putBlob k l).mgmt = s.mgmt := rfl
@[simp] theorem putBlob_pwr (k : Nat) (l : List Byte) : (s.putBlob k l).pwr = s.pwr := rfl
@[simp] theorem putBlob_unitCmds (k : Nat) (l : List Byte) : (s.putBlob k l).unitCmds = s.unitCmds := rfl
@[simp] theorem putBlob_g (k : Nat) (l : List Byte) (j : Nat) : (s.putBlob k l).g j = s.g j := by unfold State.g; rw [putBlob_od]
@[simp] theorem putBlob_n (k : Nat) (l : List Byte) (j : Nat) : (s.putBlob k l).n j = s.n j := by unfold State.n; rw [putBlob_g]
@[simp] theorem putBlob_b (k : Nat) (l : List Byte) (j : Nat) : (s.putBlob k l).b j = s.b j := by unfold State.b; rw [putBlob_g]

/-! ### setSite -/
@[simp] theorem setSite_now (i : SiteId) (x : Site) : (s.setSite i x).now = s.now := rfl
@[simp] theorem setSite_out (i : SiteId) (x : Site) : (s.setSite i x).out = s.out := rfl
@[simp] theorem setSite_pending (i : SiteId) (x : Site) : (s.setSite i x).pending = s.pending := rfl
@[simp] theorem setSite_delayed (i : SiteId) (x : Site) : (s.setSite i x).delayed = s.delayed := rfl
@[simp] theorem setSite_free (i : SiteId) (x : Site) : (s.setSite i x).free = s.free := rfl
@[simp] theorem setSite_od (i : SiteId) (x : Site) : (s.setSite i x).od = s.od := rfl
@[simp] theorem setSite_blobs (i : SiteId) (x : Site) : (s.setSite i x).blobs = s.blobs := rfl
@[simp] theorem setSite_mem (i : SiteId) (x : Site) : (s.setSite i x).mem = s.mem := rfl
@[simp] theorem setSite_host (i : SiteId) (x : Site) : (s.setSite i x).host = s.host := rfl
@[simp] theorem setSite_dict (i : SiteId) (x : Site) : (s.setSite i x).dict = s.dict := rfl
@[simp] theorem setSite_flt (i : SiteId) (x : Site) : (s.setSite i x).flt = s.flt := rfl
@[simp] theorem setSite_tmus (i : SiteId) (x : Site) : (s.setSite i x).tmus = s.tmus := rfl
@[simp] theorem setSite_engs (i : SiteId) (x : Site) : (s.setSite i x).engs = s.engs := rfl
@[simp] theorem setSite_evts (i : SiteId) (x : Site) : (s.setSite i x).evts = s.evts := rfl
@[simp] theorem setSite_mkLast (i : SiteId) (x : Site) : (s.setSite i x).mkLast = s.mkLast := rfl
@[simp] theorem setSite_cal (i : SiteId) (x : Site) : (s.setSite i x).cal = s.cal := rfl
@[simp] theorem setSite_lvl (i : SiteId) (x : Site) : (s.setSite i x).lvl = s.lvl := rfl
@[simp] theorem setSite_clk (i : SiteId) (x : Site) : (s.setSite i x).clk = s.clk := rfl
@[simp] theorem setSite_mgmt (i : SiteId) (x : Site) : (s.setSite i x).mgmt = s.mgmt := rfl
@[simp] theorem setSite_pwr (i : SiteId) (x : Site) : (s.setSite i x).pwr = s.pwr := rfl
@[simp] theorem setSite_unitCmds (i : SiteId) (x : Site) : (s.setSite i x).unitCmds = s.unitCmds := rfl
@[simp] theorem setSite_g (i : SiteId) (x : Site) (j : Nat) : (s.setSite i x).g j = s.g j := by unfold State.g; rw [setSite_od]
@[simp] theorem setSite_n (i : SiteId) (x : Site) (j : Nat) : (s.setSite i x).n j = s.n j := by unfold State.n; rw [setSite_g]
@[simp] theorem setSite_b (i : SiteId) (x : Site) (j : Nat) : (s.setSite i x).b j = s.b j := by unfold State.b; rw [setSite_g]

/-! ### modSite -/
@[simp] theorem modSite_now (i : SiteId) (f : Site → Site) : (s.modSite i f).now = s.now := rfl
@[simp] theorem modSite_out (i : SiteId) (f : Site → Site) : (s.modSite i f).out = s.out := rfl
@[simp] theorem modSite_pending (i : SiteId) (f : Site → Site) : (s.modSite i f).pending = s.pending := rfl
@[simp] theorem modSite_delayed (i : SiteId) (f : Site → Site) : (s.modSite i f).delayed = s.delayed := rfl
@[simp] theorem modSite_free (i : SiteId) (f : Site → Site) : (s.modSite i f).free = s.free := rfl
@[simp] theorem modSite_od (i : SiteId) (f : Site → Site) : (s.modSite i f).od = s.od := rfl
@[simp] theorem modSite_blobs (i : SiteId) (f : Site → Site) : (s.modSite i f).blobs = s.blobs := rfl
@[simp] theorem modSite_mem (i : SiteId) (f : Site → Site) : (s.modSite i f).mem = s.mem := rfl
@[simp] theorem modSite_host (i : SiteId) (f : Site → Site) : (s.modSite i f).host = s.host := rfl
@[simp] theorem modSite_dict (i : SiteId) (f : Site → Site) : (s.modSite i f).dict = s.dict := rfl
@[simp] theorem modSite_flt (i : SiteId) (f : Site → Site) : (s.modSite i f).flt = s.flt := rfl
@[simp] theorem modSite_tmus (i : SiteId) (f : Site → Site) : (s.modSite i f).tmus = s.tmus := rfl
@[simp] theorem modSite_engs (i : SiteId) (f : Site → Site) : (s.modSite i f).engs = s.engs := rfl
@[simp] theorem modSite_evts (i : SiteId) (f : Site → Site) : (s.modSite i f).evts = s.evts := rfl
@[simp] theorem modSite_mkLast (i : SiteId) (f : Site → Site) : (s.modSite i f).mkLast = s.mkLast := rfl
@[simp] theorem modSite_cal (i : SiteId) (f : Site → Site) : (s.modSite i f).cal = s.cal := rfl
@[simp] theorem modSite_lvl (i : SiteId) (f : Site → Site) : (s.modSite i f).lvl = s.lvl := rfl
@[simp] theorem modSite_clk (i : SiteId) (f : Site → Site) : (s.modSite i f).clk = s.clk := rfl
@[simp] theorem modSite_mgmt (i : SiteId) (f : Site → Site) : (s.modSite i f).mgmt = s.mgmt := rfl
@[simp] theorem modSite_pwr (i : SiteId) (f : Site → Site) : (s.modSite i f).pwr = s.pwr := rfl
@[simp] theorem modSite_unitCmds (i : SiteId) (f : Site → Site) : (s.modSite i f).unitCmds = s.unitCmds := rfl
@[simp] theorem modSite_g (i : SiteId) (f : Site → Site) (j : Nat) : (s.modSite i f).g j = s.g j := by unfold State.g; rw [modSite_od]
@[simp] theorem modSite_n (i : SiteId) (f : Site → Site) (j : Nat) : (s.modSite i f).n j = s.n j := by unfold State.n; rw [modSite_g]
@[simp] theorem modSite_b (i : SiteId) (f : Site → Site) (j : Nat) : (s.modSite i f).b j = s.b j := by unfold State.b; rw [modSite_g]

/-! ### setSeg -/
@[simp] theorem setSeg_now (n : Nat) (x : Seg) : (s.setSeg n x).now = s.now := rfl
@[simp] theorem setSeg_out (n : Nat) (x : Seg) : (s.setSeg n x).out = s.out := rfl
@[simp] theorem setSeg_pending (n : Nat) (x : Seg) : (s.setSeg n x).pending = s.pending := rfl
@[simp] theorem setSeg_delayed (n : Nat) (x : Seg) : (s.setSeg n x).delayed = s.delayed := rfl
@[simp] theorem setSeg_free (n : Nat) (x : Seg) : (s.setSeg n x).free = s.free := rfl
@[simp] theorem setSeg_od (n : Nat) (x : Seg) : (s.setSeg n x).od = s.od := rfl
@[simp] theorem setSeg_blobs (n : Nat) (x : Seg) : (s.setSeg n x).blobs = s.blobs := rfl
@[simp] theorem setSeg_sites (n : Nat) (x : Seg) : (s.setSeg n x).sites = s.sites := rfl
@[simp] theorem setSeg_host (n : Nat) (x : Seg) : (s.setSeg n x).host = s.host := rfl
@[simp] theorem setSeg_dict (n : Nat) (x : Seg) : (s.setSeg n x).dict = s.dict := rfl
@[simp] theorem setSeg_flt (n : Nat) (x : Seg) : (s.setSeg n x).flt = s.flt := rfl
@[simp] theorem setSeg_tmus (n : Nat) (x : Seg) : (s.setSeg n x).tmus = s.tmus := rfl
@[simp] theorem setSeg_engs (n : Nat) (x : Seg) : (s.setSeg n x).engs = s.engs := rfl
@[simp] theorem setSeg_evts (n : Nat) (x : Seg) : (s.setSeg n x).evts = s.evts := rfl
@[simp] theorem setSeg_mkLast (n : Nat) (x : Seg) : (s.setSeg n x).mkLast = s.mkLast := rfl
@[simp] theorem setSeg_cal (n : Nat) (x : Seg) : (s.setSeg n x).cal = s.cal := rfl
@[simp] theorem setSeg_lvl (n : Nat) (x : Seg) : (s.setSeg n x).lvl = s.lvl := rfl
@[simp] theorem setSeg_clk (n : Nat) (x : Seg) : (s.setSeg n x).clk = s.clk := rfl
@[simp] theorem setSeg_mgmt (n : Nat) (x : Seg) : (s.setSeg n x).mgmt = s.mgmt := rfl
@[simp] theorem setSeg_pwr (n : Nat) (x : Seg) : (s.setSeg n x).pwr = s.pwr := rfl
@[simp] theorem setSeg_unitCmds (n : Nat) (x : Seg) : (s.setSeg n x).unitCmds = s.unitCmds := rfl
@[simp] theorem setSeg_g (n : Nat) (x : Seg) (j : Nat) : (s.setSeg n x).g j = s.g j := by unfold State.g; rw [setSeg_od]
@[simp] theorem setSeg_n (n : Nat) (x : Seg) (j : Nat) : (s.setSeg n x).n j = s.n j := by unfold State.n; rw [setSeg_g]
@[simp] theorem setSeg_b (n : Nat) (x : Seg) (j : Nat) : (s.setSeg n x).b j = s.b j := by unfold State.b; rw [setSeg_g]

/-! ### delSeg -/
@[simp] theorem delSeg_now (n : Nat) : (s.delSeg n).now = s.now := rfl
@[simp] theorem delSeg_out (n : Nat) : (s.delSeg n).out = s.out := rfl
@[simp] theorem delSeg_pending (n : Nat) : (s.delSeg n).pending = s.pending := rfl
@[simp] theorem delSeg_delayed (n : Nat) : (s.delSeg n).delayed = s.delayed := rfl
@[simp] theorem delSeg_free (n : Nat) : (s.delSeg n).free = s.free := rfl
@[simp] theorem delSeg_od (n : Nat) : (s.delSeg n).od = s.od := rfl
@[simp] theorem delSeg_blobs (n : Nat) : (s.delSeg n).blobs = s.blobs := rfl
@[simp] theorem delSeg_sites (n : Nat) : (s.delSeg n).sites = s.sites := rfl
@[simp] theorem delSeg_host (n : Nat) : (s.delSeg n).host = s.host := rfl
@[simp] theorem delSeg_dict (n : Nat) : (s.delSeg n).dict = s.dict := rfl
@[simp] theorem delSeg_flt (n : Nat) : (s.delSeg n).flt = s.flt := rfl
@[simp] theorem delSeg_tmus (n : Nat) : (s.delSeg n).tmus = s.tmus := rfl
@[simp] theorem delSeg_engs (n : Nat) : (s.delSeg n).engs = s.engs := rfl
@[simp] theorem delSeg_evts (n : Nat) : (s.delSeg n).evts = s.evts := rfl
@[simp] theorem delSeg_mkLast (n : Nat) : (s.delSeg n).mkLast = s.mkLast := rfl
@[simp] theorem delSeg_cal (n : Nat) : (s.delSeg n).cal = s.cal := rfl
@[simp] theorem delSeg_lvl (n : Nat) : (s.delSeg n).lvl = s.lvl := rfl
@[simp] theorem delSeg_clk (n : Nat) : (s.delSeg n).clk = s.clk := rfl
@[simp] theorem delSeg_mgmt (n : Nat) : (s.delSeg n).mgmt = s.mgmt := rfl
@[simp] theorem delSeg_pwr (n : Nat) : (s.delSeg n).pwr = s.pwr := rfl
@[simp] theorem delSeg_unitCmds (n : Nat) : (s.delSeg n).unitCmds = s.unitCmds := rfl
@[simp] theorem delSeg_g (n : Nat) (j : Nat) : (s.delSeg n).g j = s.g j := by unfold State.g; rw [delSeg_od]
@[simp] theorem delSeg_n (n : Nat) (j : Nat) : (s.delSeg n).n j = s.n j := by unfold State.n; rw [delSeg_g]
@[simp] theorem delSeg_b (n : Nat) (j : Nat) : (s.delSeg n).b j = s.b j := by unfold State.b; rw [delSeg_g]

/-! ### setStrm -/
@[simp] theorem setStrm_now (n : StreamId) (x : Strm) : (s.setStrm n x).now = s.now := rfl
@[simp] theorem setStrm_out (n : StreamId) (x : Strm) : (s.setStrm n x).out = s.out := rfl
@[simp] theorem setStrm_pending (n : StreamId) (x : Strm) : (s.setStrm n x).pending = s.pending := rfl
@[simp] theorem setStrm_delayed (n : StreamId) (x : Strm) : (s.setStrm n x).delayed = s.delayed := rfl
@[simp] theorem setStrm_free (n : StreamId) (x : Strm) : (s.setStrm n x).free = s.free := rfl
@[simp] theorem setStrm_od (n : StreamId) (x : Strm) : (s.setStrm n x).od = s.od := rfl
@[simp] theorem setStrm_blobs (n : StreamId) (x : Strm) : (s.setStrm n x).blobs = s.blobs := rfl
@[simp] theorem setStrm_sites (n : StreamId) (x : Strm) : (s.setStrm n x).sites = s.sites := rfl
@[simp] theorem setStrm_host (n : StreamId) (x : Strm) : (s.setStrm n x).host = s.host := rfl
@[simp] theorem setStrm_dict (n : StreamId) (x : Strm) : (s.setStrm n x).dict = s.dict := rfl
@[simp] theorem setStrm_flt (n : StreamId) (x : Strm) : (s.setStrm n x).flt = s.flt := rfl
@[simp] theorem setStrm_tmus (n : StreamId) (x : Strm) : (s.setStrm n x).tmus = s.tmus := rfl
@[simp] theorem setStrm_engs (n : StreamId) (x : Strm) : (s.setStrm n x).engs = s.engs := rfl
@[simp] theorem setStrm_evts (n : StreamId) (x : Strm) : (s.setStrm n x).evts = s.evts := rfl
@[simp] theorem setStrm_mkLast (n : StreamId) (x : Strm) : (s.setStrm n x).mkLast = s.mkLast := rfl
@[simp] theorem setStrm_cal (n : StreamId) (x : Strm) : (s.setStrm n x).cal = s.cal := rfl
@[simp] theorem setStrm_lvl (n : StreamId) (x : Strm) : (s.setStrm n x).lvl = s.lvl := rfl
@[simp] theorem setStrm_clk (n : StreamId) (x : Strm) : (s.setStrm n x).clk = s.clk := rfl
@[simp] theorem setStrm_mgmt (n : StreamId) (x : Strm) : (s.setStrm n x).mgmt = s.mgmt := rfl
@[simp] theorem setStrm_pwr (n : StreamId) (x : Strm) : (s.setStrm n x).pwr = s.pwr := rfl
@[simp] theorem setStrm_unitCmds (n : StreamId) (x : Strm) : (s.setStrm n x).unitCmds = s.unitCmds := rfl
@[simp] theorem setStrm_g (n : StreamId) (x : Strm) (j : Nat) : (s.setStrm n x).g j = s.g j := by unfold State.g; rw [setStrm_od]
@[simp] theorem setStrm_n (n : StreamId) (x : Strm) (j : Nat) : (s.setStrm n x).n j = s.n j := by unfold State.n; rw [setStrm_g]
@[simp] theorem setStrm_b (n : StreamId) (x : Strm) (j : Nat) : (s.setStrm n x).b j = s.b j := by unfold State.b; rw [setStrm_g]

/-! ### setQueue -/
@[simp] theorem setQueue_now (q : Nat) (x : Queue) : (s.setQueue q x).now = s.now := rfl
@[simp] theorem setQueue_out (q : Nat) (x : Queue) : (s.setQueue q x).out = s.out := rfl
@[simp] theorem setQueue_pending (q : Nat) (x : Queue) : (s.setQueue q x).pending = s.pending := rfl
@[simp] theorem setQueue_delayed (q : Nat) (x : Queue) : (s.setQueue q x).delayed = s.delayed := rfl
@[simp] theorem setQueue_free (q : Nat) (x : Queue) : (s.setQueue q x).free = s.free := rfl
@[simp] theorem setQueue_od (q : Nat) (x : Queue) : (s.setQueue q x).od = s.od := rfl
@[simp] theorem setQueue_blobs (q : Nat) (x : Queue) : (s.setQueue q x).blobs = s.blobs := rfl
@[simp] theorem setQueue_mem (q : Nat) (x : Queue) : (s.setQueue q x).mem = s.mem := rfl
@[simp] theorem setQueue_sites (q : Nat) (x : Queue) : (s.setQueue q x).sites = s.sites := rfl
@[simp] theorem setQueue_dict (q : Nat) (x : Queue) : (s.setQueue q x).dict = s.dict := rfl
@[simp] theorem setQueue_flt (q : Nat) (x : Queue) : (s.setQueue q x).flt = s.flt := rfl
@[simp] theorem setQueue_tmus (q : Nat) (x : Queue) : (s.setQueue q x).tmus = s.tmus := rfl
@[simp] theorem setQueue_engs (q : Nat) (x : Queue) : (s.setQueue q x).engs = s.engs := rfl
@[simp] theorem setQueue_evts (q : Nat) (x : Queue) : (s.setQueue q x).evts = s.evts := rfl
@[simp] theorem setQueue_mkLast (q : Nat) (x : Queue) : (s.setQueue q x).mkLast = s.mkLast := rfl
@[simp] theorem setQueue_cal (q : Nat) (x : Queue) : (s.setQueue q x).cal = s.cal := rfl
@[simp] theorem setQueue_lvl (q : Nat) (x : Queue) : (s.setQueue q x).lvl = s.lvl := rfl
@[simp] theorem setQueue_clk (q : Nat) (x : Queue) : (s.setQueue q x).clk = s.clk := rfl
@[simp] theorem setQueue_mgmt (q : Nat) (x : Queue) : (s.setQueue q x).mgmt = s.mgmt := rfl
@[simp] theorem setQueue_pwr (q : Nat) (x : Queue) : (s.setQueue q x).pwr = s.pwr := rfl
@[simp] theorem setQueue_unitCmds (q : Nat) (x : Queue) : (s.setQueue q x).unitCmds = s.unitCmds := rfl
@[simp] theorem setQueue_g (q : Nat) (x : Queue) (j : Nat) : (s.setQueue q x).g j = s.g j := by unfold State.g; rw [setQueue_od]
@[simp] theorem setQueue_n (q : Nat) (x : Queue) (j : Nat) : (s.setQueue q x).n j = s.n j := by unfold State.n; rw [setQueue_g]
@[simp] theorem setQueue_b (q : Nat) (x : Queue) (j : Nat) : (s.setQueue q x).b j = s.b j := by unfold State.b; rw [setQueue_g]

/-! ### setFn -/
@[simp] theorem setFn_now (f : FnId) (x : Fn) : (s.setFn f x).now = s.now := rfl
@[simp] theorem setFn_out (f : FnId) (x : Fn) : (s.setFn f x).out = s.out := rfl
@[simp] theorem setFn_pending (f : FnId) (x : Fn) : (s.setFn f x).pending = s.pending := rfl
@[simp] theorem setFn_delayed (f : FnId) (x : Fn) : (s.setFn f x).delayed = s.delayed := rfl
@[simp] theorem setFn_free (f : FnId) (x : Fn) : (s.setFn f x).free = s.free := rfl
@[simp] theorem setFn_od (f : FnId) (x : Fn) : (s.setFn f x).od = s.od := rfl
@[simp] theorem setFn_blobs (f : FnId) (x : Fn) : (s.setFn f x).blobs = s.blobs := rfl
@[simp] theorem setFn_mem (f : FnId) (x : Fn) : (s.setFn f x).mem = s.mem := rfl
@[simp] theorem setFn_sites (f : FnId) (x : Fn) : (s.setFn f x).sites = s.sites := rfl
@[simp] theorem setFn_dict (f : FnId) (x : Fn) : (s.setFn f x).dict = s.dict := rfl
@[simp] theorem setFn_flt (f : FnId) (x : Fn) : (s.setFn f x).flt = s.flt := rfl
@[simp] theorem setFn_tmus (f : FnId) (x : Fn) : (s.setFn f x).tmus = s.tmus := rfl
@[simp] theorem setFn_engs (f : FnId) (x : Fn) : (s.setFn f x).engs = s.engs := rfl
@[simp] theorem setFn_evts (f : FnId) (x : Fn) : (s.setFn f x).evts = s.evts := rfl
@[simp] theorem setFn_mkLast (f : FnId) (x : Fn) : (s.setFn f x).mkLast = s.mkLast := rfl
@[simp] theorem setFn_cal (f : FnId) (x : Fn) : (s.setFn f x).cal = s.cal := rfl
@[simp] theorem setFn_lvl (f : FnId) (x : Fn) : (s.setFn f x).lvl = s.lvl := rfl
@[simp] theorem setFn_clk (f : FnId) (x : Fn) : (s.setFn f x).clk = s.clk := rfl
@[simp] theorem setFn_mgmt (f : FnId) (x : Fn) : (s.setFn f x).mgmt = s.mgmt := rfl
@[simp] theorem setFn_pwr (f : FnId) (x : Fn) : (s.setFn f x).pwr = s.pwr := rfl
@[simp] theorem setFn_unitCmds (f : FnId) (x : Fn) : (s.setFn f x).unitCmds = s.unitCmds := rfl
@[simp] theorem setFn_g (f : FnId) (x : Fn) (j : Nat) : (s.setFn f x).g j = s.g j := by unfold State.g; rw [setFn_od]
@[simp] theorem setFn_n (f : FnId) (x : Fn) (j : Nat) : (s.setFn f x).n j = s.n j := by unfold State.n; rw [setFn_g]
@[simp] theorem setFn_b (f : FnId) (x : Fn) (j : Nat) : (s.setFn f x).b j = s.b j := by unfold State.b; rw [setFn_g]

/-! ### complete -/
@[simp] theorem complete_now (t : Tag) (st r : Nat) : (s.complete t st r).now = s.now := rfl
@[simp] theorem complete_out (t : Tag) (st r : Nat) : (s.complete t st r).out = s.out := rfl
@[simp] theorem complete_pending (t : Tag) (st r : Nat) : (s.complete t st r).pending = s.pending := rfl
@[simp] theorem complete_delayed (t : Tag) (st r : Nat) : (s.complete t st r).delayed = s.delayed := rfl
@[simp] theorem complete_free (t : Tag) (st r : Nat) : (s.complete t st r).free = s.free := rfl
@[simp] theorem complete_od (t : Tag) (st r : Nat) : (s.complete t st r).od = s.od := rfl
@[simp] theorem complete_blobs (t : Tag) (st r : Nat) : (s.complete t st r).blobs = s.blobs := rfl
@[simp] theorem complete_mem (t : Tag) (st r : Nat) : (s.complete t st r).mem = s.mem := rfl
@[simp] theorem complete_sites (t : Tag) (st r : Nat) : (s.complete t st r).sites = s.sites := rfl
@[simp] theorem complete_dict (t : Tag) (st r : Nat) : (s.complete t st r).dict = s.dict := rfl
@[simp] theorem complete_flt (t : Tag) (st r : Nat) : (s.complete t st r).flt = s.flt := rfl
@[simp] theorem complete_tmus (t : Tag) (st r : Nat) : (s.complete t st r).tmus = s.tmus := rfl
@[simp] theorem complete_engs (t : Tag) (st r : Nat) : (s.complete t st r).engs = s.engs := rfl
@[simp] theorem complete_evts (t : Tag) (st r : Nat) : (s.complete t st r).evts = s.evts := rfl
@[simp] theorem complete_mkLast (t : Tag) (st r : Nat) : (s.complete t st r).mkLast = s.mkLast := rfl
@[simp] theorem complete_cal (t : Tag) (st r : Nat) : (s.complete t st r).cal = s.cal := rfl
@[simp] theorem complete_lvl (t : Tag) (st r : Nat) : (s.complete t st r).lvl = s.lvl := rfl
@[simp] theorem complete_clk (t : Tag) (st r : Nat) : (s.complete t st r).clk = s.clk := rfl
@[simp] theorem complete_mgmt (t : Tag) (st r : Nat) : (s.complete t st r).mgmt = s.mgmt := rfl
@[simp] theorem complete_pwr (t : Tag) (st r : Nat) : (s.complete t st r).pwr = s.pwr := rfl
@[simp] theorem complete_unitCmds (t : Tag) (st r : Nat) : (s.complete t st r).unitCmds = s.unitCmds := rfl
@[simp] theorem complete_g (t : Tag) (st r : Nat) (j : Nat) : (s.complete t st r).g j = s.g j := by unfold State.g; rw [complete_od]
@[simp] theorem complete_n (t : Tag) (st r : Nat) (j : Nat) : (s.complete t st r).n j = s.n j := by unfold State.n; rw [complete_g]
@[simp] theorem complete_b (t : Tag) (st r : Nat) (j : Nat) : (s.complete t st r).b j = s.b j := by unfold State.b; rw [complete_g]

/-! ### refuse -/
@[simp] theorem refuse_now (t : Tag) (st : Nat) : (s.refuse t st).now = s.now := rfl
@[simp] theorem refuse_out (t : Tag) (st : Nat) : (s.refuse t st).out = s.out := rfl
@[simp] theorem refuse_pending (t : Tag) (st : Nat) : (s.refuse t st).pending = s.pending := rfl
@[simp] theorem refuse_delayed (t : Tag) (st : Nat) : (s.refuse t st).delayed = s.delayed := rfl
@[simp] theorem refuse_free (t : Tag) (st : Nat) : (s.refuse t st).free = s.free := rfl
@[simp] theorem refuse_od (t : Tag) (st : Nat) : (s.refuse t st).od = s.od := rfl
@[simp] theorem refuse_blobs (t : Tag) (st : Nat) : (s.refuse t st).blobs = s.blobs := rfl
@[simp] theorem refuse_mem (t : Tag) (st : Nat) : (s.refuse t st).mem = s.mem := rfl
@[simp] theorem refuse_sites (t : Tag) (st : Nat) : (s.refuse t st).sites = s.sites := rfl
@[simp] theorem refuse_dict (t : Tag) (st : Nat) : (s.refuse t st).dict = s.dict := rfl
@[simp] theorem refuse_flt (t : Tag) (st : Nat) : (s.refuse t st).flt = s.flt := rfl
@[simp] theorem refuse_tmus (t : Tag) (st : Nat) : (s.refuse t st).tmus = s.tmus := rfl
@[simp] theorem refuse_engs (t : Tag) (st : Nat) : (s.refuse t st).engs = s.engs := rfl
@[simp] theorem refuse_evts (t : Tag) (st : Nat) : (s.refuse t st).evts = s.evts := rfl
@[simp] theorem refuse_mkLast (t : Tag) (st : Nat) : (s.refuse t st).mkLast = s.mkLast := rfl
@[simp] theorem refuse_cal (t : Tag) (st : Nat) : (s.refuse t st).cal = s.cal := rfl
@[simp] theorem refuse_lvl (t : Tag) (st : Nat) : (s.refuse t st).lvl = s.lvl := rfl
@[simp] theorem refuse_clk (t : Tag) (st : Nat) : (s.refuse t st).clk = s.clk := rfl
@[simp] theorem refuse_mgmt (t : Tag) (st : Nat) : (s.refuse t st).mgmt = s.mgmt := rfl
@[simp] theorem refuse_pwr (t : Tag) (st : Nat) : (s.refuse t st).pwr = s.pwr := rfl
@[simp] theorem refuse_unitCmds (t : Tag) (st : Nat) : (s.refuse t st).unitCmds = s.unitCmds := rfl
@[simp] theorem refuse_g (t : Tag) (st : Nat) (j : Nat) : (s.refuse t st).g j = s.g j := by unfold State.g; rw [refuse_od]
@[simp] theorem refuse_n (t : Tag) (st : Nat) (j : Nat) : (s.refuse t st).n j = s.n j := by unfold State.n; rw [refuse_g]
@[simp] theorem refuse_b (t : Tag) (st : Nat) (j : Nat) : (s.refuse t st).b j = s.b j := by unfold State.b; rw [refuse_g]

/-! ### fromHost -/
@[simp] theorem fromHost_now (t : Tag) (n : Nat) : (s.fromHost t n).now = s.now := rfl
@[simp] theorem fromHost_out (t : Tag) (n : Nat) : (s.fromHost t n).out = s.out := rfl
@[simp] theorem fromHost_pending (t : Tag) (n : Nat) : (s.fromHost t n).pending = s.pending := rfl
@[simp] theorem fromHost_delayed (t : Tag) (n : Nat) : (s.fromHost t n).delayed = s.delayed := rfl
@[simp] theorem fromHost_free (t : Tag) (n : Nat) : (s.fromHost t n).free = s.free := rfl
@[simp] theorem fromHost_od (t : Tag) (n : Nat) : (s.fromHost t n).od = s.od := rfl
@[simp] theorem fromHost_blobs (t : Tag) (n : Nat) : (s.fromHost t n).blobs = s.blobs := rfl
@[simp] theorem fromHost_mem (t : Tag) (n : Nat) : (s.fromHost t n).mem = s.mem := rfl
@[simp] theorem fromHost_sites (t : Tag) (n : Nat) : (s.fromHost t n).sites = s.sites := rfl
@[simp] theorem fromHost_dict (t : Tag) (n : Nat) : (s.fromHost t n).dict = s.dict := rfl
@[simp] theorem fromHost_flt (t : Tag) (n : Nat) : (s.fromHost t n).flt = s.flt := rfl
@[simp] theorem fromHost_tmus (t : Tag) (n : Nat) : (s.fromHost t n).tmus = s.tmus := rfl
@[simp] theorem fromHost_engs (t : Tag) (n : Nat) : (s.fromHost t n).engs = s.engs := rfl
@[simp] theorem fromHost_evts (t : Tag) (n : Nat) : (s.fromHost t n).evts = s.evts := rfl
@[simp] theorem fromHost_mkLast (t : Tag) (n : Nat) : (s.fromHost t n).mkLast = s.mkLast := rfl
@[simp] theorem fromHost_cal (t : Tag) (n : Nat) : (s.fromHost t n).cal = s.cal := rfl
@[simp] theorem fromHost_lvl (t : Tag) (n : Nat) : (s.fromHost t n).lvl = s.lvl := rfl
@[simp] theorem fromHost_clk (t : Tag) (n : Nat) : (s.fromHost t n).clk = s.clk := rfl
@[simp] theorem fromHost_mgmt (t : Tag) (n : Nat) : (s.fromHost t n).mgmt = s.mgmt := rfl
@[simp] theorem fromHost_pwr (t : Tag) (n : Nat) : (s.fromHost t n).pwr = s.pwr := rfl
@[simp] theorem fromHost_unitCmds (t : Tag) (n : Nat) : (s.fromHost t n).unitCmds = s.unitCmds := rfl
@[simp] theorem fromHost_g (t : Tag) (n : Nat) (j : Nat) : (s.fromHost t n).g j = s.g j := by unfold State.g; rw [fromHost_od]
@[simp] theorem fromHost_n (t : Tag) (n : Nat) (j : Nat) : (s.fromHost t n).n j = s.n j := by unfold State.n; rw [fromHost_g]
@[simp] theorem fromHost_b (t : Tag) (n : Nat) (j : Nat) : (s.fromHost t n).b j = s.b j := by unfold State.b; rw [fromHost_g]

/-! ### toHost -/
@[simp] theorem toHost_now (t : Tag) (d : List Byte) : (s.toHost t d).now = s.now := rfl
@[simp] theorem toHost_out (t : Tag) (d : List Byte) : (s.toHost t d).out = s.out := rfl
@[simp] theorem toHost_pending (t : Tag) (d : List Byte) : (s.toHost t d).pending = s.pending := rfl
@[simp] theorem toHost_delayed (t : Tag) (d : List Byte) : (s.toHost t d).delayed = s.delayed := rfl
@[simp] theorem toHost_free (t : Tag) (d : List Byte) : (s.toHost t d).free = s.free := rfl
@[simp] theorem toHost_od (t : Tag) (d : List Byte) : (s.toHost t d).od = s.od := rfl
@[simp] theorem toHost_blobs (t : Tag) (d : List Byte) : (s.toHost t d).blobs = s.blobs := rfl
@[simp] theorem toHost_mem (t : Tag) (d : List Byte) : (s.toHost t d).mem = s.mem := rfl
@[simp] theorem toHost_sites (t : Tag) (d : List Byte) : (s.toHost t d).sites = s.sites := rfl
@[simp] theorem toHost_dict (t : Tag) (d : List Byte) : (s.toHost t d).dict = s.dict := rfl
@[simp] theorem toHost_flt (t : Tag) (d : List Byte) : (s.toHost t d).flt = s.flt := rfl
@[simp] theorem toHost_tmus (t : Tag) (d : List Byte) : (s.toHost t d).tmus = s.tmus := rfl
@[simp] theorem toHost_engs (t : Tag) (d : List Byte) : (s.toHost t d).engs = s.engs := rfl
@[simp] theorem toHost_evts (t : Tag) (d : List Byte) : (s.toHost t d).evts = s.evts := rfl
@[simp] theorem toHost_mkLast (t : Tag) (d : List Byte) : (s.toHost t d).mkLast = s.mkLast := rfl
@[simp] theorem toHost_cal (t : Tag) (d : List Byte) : (s.toHost t d).cal = s.cal := rfl
@[simp] theorem toHost_lvl (t : Tag) (d : List Byte) : (s.toHost t d).lvl = s.lvl := rfl
@[simp] theorem toHost_clk (t : Tag) (d : List Byte) : (s.toHost t d).clk = s.clk := rfl
@[simp] theorem toHost_mgmt (t : Tag) (d : List Byte) : (s.toHost t d).mgmt = s.mgmt := rfl
@[simp] theorem toHost_pwr (t : Tag) (d : List Byte) : (s.toHost t d).pwr = s.pwr := rfl
@[simp] theorem toHost_unitCmds (t : Tag) (d : List Byte) : (s.toHost t d).unitCmds = s.unitCmds := rfl
@[simp] theorem toHost_g (t : Tag) (d : List Byte) (j : Nat) : (s.toHost t d).g j = s.g j := by unfold State.g; rw [toHost_od]
@[simp] theorem toHost_n (t : Tag) (d : List Byte) (j : Nat) : (s.toHost t d).n j = s.n j := by unfold State.n; rw [toHost_g]
@[simp] theorem toHost_b (t : Tag) (d : List Byte) (j : Nat) : (s.toHost t d).b j = s.b j := by unfold State.b; rw [toHost_g]

/-! ### incSat -/
@[simp] theorem incSat_now (k : Nat) (m : Int) : (s.incSat k m).now = s.now := rfl
@[simp] theorem incSat_out (k : Nat) (m : Int) : (s.incSat k m).out = s.out := rfl
@[simp] theorem incSat_pending (k : Nat) (m : Int) : (s.incSat k m).pending = s.pending := rfl
@[simp] theorem incSat_delayed (k : Nat) (m : Int) : (s.incSat k m).delayed = s.delayed := rfl
@[simp] theorem incSat_free (k : Nat) (m : Int) : (s.incSat k m).free = s.free := rfl
@[simp] theorem incSat_blobs (k : Nat) (m : Int) : (s.incSat k m).blobs = s.blobs := rfl
@[simp] theorem incSat_mem (k : Nat) (m : Int) : (s.incSat k m).mem = s.mem := rfl
@[simp] theorem incSat_sites (k : Nat) (m : Int) : (s.incSat k m).sites = s.sites := rfl
@[simp] theorem incSat_host (k : Nat) (m : Int) : (s.incSat k m).host = s.host := rfl
@[simp] theorem incSat_dict (k : Nat) (m : Int) : (s.incSat k m).dict = s.dict := rfl
@[simp] theorem incSat_flt (k : Nat) (m : Int) : (s.incSat k m).flt = s.flt := rfl
@[simp] theorem incSat_tmus (k : Nat) (m : Int) : (s.incSat k m).tmus = s.tmus := rfl
@[simp] theorem incSat_engs (k : Nat) (m : Int) : (s.incSat k m).engs = s.engs := rfl
@[simp] theorem incSat_evts (k : Nat) (m : Int) : (s.incSat k m).evts = s.evts := rfl
@[simp] theorem incSat_mkLast (k : Nat) (m : Int) : (s.incSat k m).mkLast = s.mkLast := rfl
@[simp] theorem incSat_cal (k : Nat) (m : Int) : (s.incSat k m).cal = s.cal := rfl
@[simp] theorem incSat_lvl (k : Nat) (m : Int) : (s.incSat k m).lvl = s.lvl := rfl
@[simp] theorem incSat_clk (k : Nat) (m : Int) : (s.incSat k m).clk = s.clk := rfl
@[simp] theorem incSat_mgmt (k : Nat) (m : Int) : (s.incSat k m).mgmt = s.mgmt := rfl
@[simp] theorem incSat_pwr (k : Nat) (m : Int) : (s.incSat k m).pwr = s.pwr := rfl
@[simp] theorem incSat_unitCmds (k : Nat) (m : Int) : (s.incSat k m).unitCmds = s.unitCmds := rfl

/-! ### sat32 -/
@[simp] theorem sat32_now (k : Nat) : (s.sat32 k).now = s.now := rfl
@[simp] theorem sat32_out (k : Nat) : (s.sat32 k).out = s.out := rfl
@[simp] theorem sat32_pending (k : Nat) : (s.sat32 k).pending = s.pending := rfl
@[simp] theorem sat32_delayed (k : Nat) : (s.sat32 k).delayed = s.delayed := rfl
@[simp] theorem sat32_free (k : Nat) : (s.sat32 k).free = s.free := rfl
@[simp] theorem sat32_blobs (k : Nat) : (s.sat32 k).blobs = s.blobs := rfl
@[simp] theorem sat32_mem (k : Nat) : (s.sat32 k).mem = s.mem := rfl
@[simp] theorem sat32_sites (k : Nat) : (s.sat32 k).sites = s.sites := rfl
@[simp] theorem sat32_host (k : Nat) : (s.sat32 k).host = s.host := rfl
@[simp] theorem sat32_dict (k : Nat) : (s.sat32 k).dict = s.dict := rfl
@[simp] theorem sat32_flt (k : Nat) : (s.sat32 k).flt = s.flt := rfl
@[simp] theorem sat32_tmus (k : Nat) : (s.sat32 k).tmus = s.tmus := rfl
@[simp] theorem sat32_engs (k : Nat) : (s.sat32 k).engs = s.engs := rfl
@[simp] theorem sat32_evts (k : Nat) : (s.sat32 k).evts = s.evts := rfl
@[simp] theorem sat32_mkLast (k : Nat) : (s.sat32 k).mkLast = s.mkLast := rfl
@[simp] theorem sat32_cal (k : Nat) : (s.sat32 k).cal = s.cal := rfl
@[simp] theorem sat32_lvl (k : Nat) : (s.sat32 k).lvl = s.lvl := rfl
@[simp] theorem sat32_clk (k : Nat) : (s.sat32 k).clk = s.clk := rfl
@[simp] theorem sat32_mgmt (k : Nat) : (s.sat32 k).mgmt = s.mgmt := rfl
@[simp] theorem sat32_pwr (k : Nat) : (s.sat32 k).pwr = s.pwr := rfl
@[simp] theorem sat32_unitCmds (k : Nat) : (s.sat32 k).unitCmds = s.unitCmds := rfl

/-! ### count -/
@[simp] theorem count_now (k : Nat) (m : Int) : (s.count k m).now = s.now := by unfold State.count; split <;> rfl
@[simp] theorem count_out (k : Nat) (m : Int) : (s.count k m).out = s.out := by unfold State.count; split <;> rfl
@[simp] theorem count_pending (k : Nat) (m : Int) : (s.count k m).pending = s.pending := by unfold State.count; split <;> rfl
@[simp] theorem count_delayed (k : Nat) (m : Int) : (s.count k m).delayed = s.delayed := by unfold State.count; split <;> rfl
@[simp] theorem count_blobs (k : Nat) (m : Int) : (s.count k m).blobs = s.blobs := by unfold State.count; split <;> rfl
@[simp] theorem count_mem (k : Nat) (m : Int) : (s.count k m).mem = s.mem := by unfold State.count; split <;> rfl
@[simp] theorem count_sites (k : Nat) (m : Int) : (s.count k m).sites = s.sites := by unfold State.count; split <;> rfl
@[simp] theorem count_host (k : Nat) (m : Int) : (s.count k m).host = s.host := by unfold State.count; split <;> rfl
@[simp] theorem count_dict (k : Nat) (m : Int) : (s.count k m).dict = s.dict := by unfold State.count; split <;> rfl
@[simp] theorem count_flt (k : Nat) (m : Int) : (s.count k m).flt = s.flt := by unfold State.count; split <;> rfl
@[simp] theorem count_tmus (k : Nat) (m : Int) : (s.count k m).tmus = s.tmus := by unfold State.count; split <;> rfl
@[simp] theorem count_engs (k : Nat) (m : Int) : (s.count k m).engs = s.engs := by unfold State.count; split <;> rfl
@[simp] theorem count_evts (k : Nat) (m : Int) : (s.count k m).evts = s.evts := by unfold State.count; split <;> rfl
@[simp] theorem count_mkLast (k : Nat) (m : Int) : (s.count k m).mkLast = s.mkLast := by unfold State.count; split <;> rfl
@[simp] theorem count_cal (k : Nat) (m : Int) : (s.count k m).cal = s.cal := by unfold State.count; split <;> rfl
@[simp] theorem count_lvl (k : Nat) (m : Int) : (s.count k m).lvl = s.lvl := by unfold State.count; split <;> rfl
@[simp] theorem count_clk (k : Nat) (m : Int) : (s.count k m).clk = s.clk := by unfold State.count; split <;> rfl
@[simp] theorem count_mgmt (k : Nat) (m : Int) : (s.count k m).mgmt = s.mgmt := by unfold State.count; split <;> rfl
@[simp] theorem count_pwr (k : Nat) (m : Int) : (s.count k m).pwr = s.pwr := by unfold State.count; split <;> rfl
@[simp] theorem count_unitCmds (k : Nat) (m : Int) : (s.count k m).unitCmds = s.unitCmds := by unfold State.count; split <;> rfl

/-! ### cnt32 -/
@[simp] theorem cnt32_now (k : Nat) : (s.cnt32 k).now = s.now := by unfold State.cnt32 State.count; split <;> rfl
@[simp] theorem cnt32_out (k : Nat) : (s.cnt32 k).out = s.out := by unfold State.cnt32 State.count; split <;> rfl
@[simp] theorem cnt32_pending (k : Nat) : (s.cnt32 k).pending = s.pending := by unfold State.cnt32 State.count; split <;> rfl
@[simp] theorem cnt32_delayed (k : Nat) : (s.cnt32 k).delayed = s.delayed := by unfold State.cnt32 State.count; split <;> rfl
@[simp] theorem cnt32_blobs (k : Nat) : (s.cnt32 k).blobs = s.blobs := by unfold State.cnt32 State.count; split <;> rfl
@[simp] theorem cnt32_mem (k : Nat) : (s.cnt32 k).mem = s.mem := by unfold State.cnt32 State.count; split <;> rfl
@[simp] theorem cnt32_sites (k : Nat) : (s.cnt32 k).sites = s.sites := by unfold State.cnt32 State.count; split <;> rfl
@[simp] theorem cnt32_host (k : Nat) : (s.cnt32 k).host = s.host := by unfold State.cnt32 State.count; split <;> rfl
@[simp] theorem cnt32_dict (k : Nat) : (s.cnt32 k).dict = s.dict := by unfold State.cnt32 State.count; split <;> rfl
@[simp] theorem cnt32_flt (k : Nat) : (s.cnt32 k).flt = s.flt := by unfold State.cnt32 State.count; split <;> rfl
@[simp] theorem cnt32_tmus (k : Nat) : (s.cnt32 k).tmus = s.tmus := by unfold State.cnt32 State.count; split <;> rfl
@[simp] theorem cnt32_engs (k : Nat) : (s.cnt32 k).engs = s.engs := by unfold State.cnt32 State.count; split <;> rfl
@[simp] theorem cnt32_evts (k : Nat) : (s.cnt32 k).evts = s.evts := by unfold State.cnt32 State.count; split <;> rfl
@[simp] theorem cnt32_mkLast (k : Nat) : (s.cnt32 k).mkLast = s.mkLast := by unfold State.cnt32 State.count; split <;> rfl
@[simp] theorem cnt32_cal (k : Nat) : (s.cnt32 k).cal = s.cal := by unfold State.cnt32 State.count; split <;> rfl
@[simp] theorem cnt32_lvl (k : Nat) : (s.cnt32 k).lvl = s.lvl := by unfold State.cnt32 State.count; split <;> rfl
@[simp] theorem cnt32_clk (k : Nat) : (s.cnt32 k).clk = s.clk := by unfold State.cnt32 State.count; split <;> rfl
@[simp] theorem cnt32_mgmt (k : Nat) : (s.cnt32 k).mgmt = s.mgmt := by unfold State.cnt32 State.count; split <;> rfl
@[simp] theorem cnt32_pwr (k : Nat) : (s.cnt32 k).pwr = s.pwr := by unfold State.cnt32 State.count; split <;> rfl
@[simp] theorem cnt32_unitCmds (k : Nat) : (s.cnt32 k).unitCmds = s.unitCmds := by unfold State.cnt32 State.count; split <;> rfl

/-! ### cnt64 -/
@[simp] theorem cnt64_now (k : Nat) : (s.cnt64 k).now = s.now := by unfold State.cnt64 State.count; split <;> rfl
@[simp] theorem cnt64_out (k : Nat) : (s.cnt64 k).out = s.out := by unfold State.cnt64 State.count; split <;> rfl
@[simp] theorem cnt64_pending (k : Nat) : (s.cnt64 k).pending = s.pending := by unfold State.cnt64 State.count; split <;> rfl
@[simp] theorem cnt64_delayed (k : Nat) : (s.cnt64 k).delayed = s.delayed := by unfold State.cnt64 State.count; split <;> rfl
@[simp] theorem cnt64_blobs (k : Nat) : (s.cnt64 k).blobs = s.blobs := by unfold State.cnt64 State.count; split <;> rfl
@[simp] theorem cnt64_mem (k : Nat) : (s.cnt64 k).mem = s.mem := by unfold State.cnt64 State.count; split <;> rfl
@[simp] theorem cnt64_sites (k : Nat) : (s.cnt64 k).sites = s.sites := by unfold State.cnt64 State.count; split <;> rfl
@[simp] theorem cnt64_host (k : Nat) : (s.cnt64 k).host = s.host := by unfold State.cnt64 State.count; split <;> rfl
@[simp] theorem cnt64_dict (k : Nat) : (s.cnt64 k).dict = s.dict := by unfold State.cnt64 State.count; split <;> rfl
@[simp] theorem cnt64_flt (k : Nat) : (s.cnt64 k).flt = s.flt := by unfold State.cnt64 State.count; split <;> rfl
@[simp] theorem cnt64_tmus (k : Nat) : (s.cnt64 k).tmus = s.tmus := by unfold State.cnt64 State.count; split <;> rfl
@[simp] theorem cnt64_engs (k : Nat) : (s.cnt64 k).engs = s.engs := by unfold State.cnt64 State.count; split <;> rfl
@[simp] theorem cnt64_evts (k : Nat) : (s.cnt64 k).evts = s.evts := by unfold State.cnt64 State.count; split <;> rfl
@[simp] theorem cnt64_mkLast (k : Nat) : (s.cnt64 k).mkLast = s.mkLast := by unfold State.cnt64 State.count; split <;> rfl
@[simp] theorem cnt64_cal (k : Nat) : (s.cnt64 k).cal = s.cal := by unfold State.cnt64 State.count; split <;> rfl
@[simp] theorem cnt64_lvl (k : Nat) : (s.cnt64 k).lvl = s.lvl := by unfold State.cnt64 State.count; split <;> rfl
@[simp] theorem cnt64_clk (k : Nat) : (s.cnt64 k).clk = s.clk := by unfold State.cnt64 State.count; split <;> rfl
@[simp] theorem cnt64_mgmt (k : Nat) : (s.cnt64 k).mgmt = s.mgmt := by unfold State.cnt64 State.count; split <;> rfl
@[simp] theorem cnt64_pwr (k : Nat) : (s.cnt64 k).pwr = s.pwr := by unfold State.cnt64 State.count; split <;> rfl
@[simp] theorem cnt64_unitCmds (k : Nat) : (s.cnt64 k).unitCmds = s.unitCmds := by unfold State.cnt64 State.count; split <;> rfl

/-! ### report -/
@[simp] theorem report_now (c : Nat) (m : SiteMask) (d : Nat) : (s.report c m d).now = s.now := by unfold State.report; split <;> rfl
@[simp] theorem report_out (c : Nat) (m : SiteMask) (d : Nat) : (s.report c m d).out = s.out := by unfold State.report; split <;> rfl
@[simp] theorem report_pending (c : Nat) (m : SiteMask) (d : Nat) : (s.report c m d).pending = s.pending := by unfold State.report; split <;> rfl
@[simp] theorem report_delayed (c : Nat) (m : SiteMask) (d : Nat) : (s.report c m d).delayed = s.delayed := by unfold State.report; split <;> rfl
@[simp] theorem report_free (c : Nat) (m : SiteMask) (d : Nat) : (s.report c m d).free = s.free := by unfold State.report; split <;> rfl
@[simp] theorem report_od (c : Nat) (m : SiteMask) (d : Nat) : (s.report c m d).od = s.od := by unfold State.report; split <;> rfl
@[simp] theorem report_blobs (c : Nat) (m : SiteMask) (d : Nat) : (s.report c m d).blobs = s.blobs := by unfold State.report; split <;> rfl
@[simp] theorem report_mem (c : Nat) (m : SiteMask) (d : Nat) : (s.report c m d).mem = s.mem := by unfold State.report; split <;> rfl
@[simp] theorem report_sites (c : Nat) (m : SiteMask) (d : Nat) : (s.report c m d).sites = s.sites := by unfold State.report; split <;> rfl
@[simp] theorem report_host (c : Nat) (m : SiteMask) (d : Nat) : (s.report c m d).host = s.host := by unfold State.report; split <;> rfl
@[simp] theorem report_dict (c : Nat) (m : SiteMask) (d : Nat) : (s.report c m d).dict = s.dict := by unfold State.report; split <;> rfl
@[simp] theorem report_tmus (c : Nat) (m : SiteMask) (d : Nat) : (s.report c m d).tmus = s.tmus := by unfold State.report; split <;> rfl
@[simp] theorem report_engs (c : Nat) (m : SiteMask) (d : Nat) : (s.report c m d).engs = s.engs := by unfold State.report; split <;> rfl
@[simp] theorem report_evts (c : Nat) (m : SiteMask) (d : Nat) : (s.report c m d).evts = s.evts := by unfold State.report; split <;> rfl
@[simp] theorem report_mkLast (c : Nat) (m : SiteMask) (d : Nat) : (s.report c m d).mkLast = s.mkLast := by unfold State.report; split <;> rfl
@[simp] theorem report_cal (c : Nat) (m : SiteMask) (d : Nat) : (s.report c m d).cal = s.cal := by unfold State.report; split <;> rfl
@[simp] theorem report_lvl (c : Nat) (m : SiteMask) (d : Nat) : (s.report c m d).lvl = s.lvl := by unfold State.report; split <;> rfl
@[simp] theorem report_clk (c : Nat) (m : SiteMask) (d : Nat) : (s.report c m d).clk = s.clk := by unfold State.report; split <;> rfl
@[simp] theorem report_mgmt (c : Nat) (m : SiteMask) (d : Nat) : (s.report c m d).mgmt = s.mgmt := by unfold State.report; split <;> rfl
@[simp] theorem report_pwr (c : Nat) (m : SiteMask) (d : Nat) : (s.report c m d).pwr = s.pwr := by unfold State.report; split <;> rfl
@[simp] theorem report_unitCmds (c : Nat) (m : SiteMask) (d : Nat) : (s.report c m d).unitCmds = s.unitCmds := by unfold State.report; split <;> rfl
@[simp] theorem report_g (c : Nat) (m : SiteMask) (d : Nat) (j : Nat) : (s.report c m d).g j = s.g j := by unfold State.g; rw [report_od]
@[simp] theorem report_n (c : Nat) (m : SiteMask) (d : Nat) (j : Nat) : (s.report c m d).n j = s.n j := by unfold State.n; rw [report_g]
@[simp] theorem report_b (c : Nat) (m : SiteMask) (d : Nat) (j : Nat) : (s.report c m d).b j = s.b j := by unfold State.b; rw [report_g]

/-! ### raiseSite -/
@[simp] theorem raiseSite_now (c : Nat) (i : SiteId) : (s.raiseSite c i).now = s.now := by unfold State.raiseSite State.report; split <;> rfl
@[simp] theorem raiseSite_out (c : Nat) (i : SiteId) : (s.raiseSite c i).out = s.out := by unfold State.raiseSite State.report; split <;> rfl
@[simp] theorem raiseSite_pending (c : Nat) (i : SiteId) : (s.raiseSite c i).pending = s.pending := by unfold State.raiseSite State.report; split <;> rfl
@[simp] theorem raiseSite_delayed (c : Nat) (i : SiteId) : (s.raiseSite c i).delayed = s.delayed := by unfold State.raiseSite State.report; split <;> rfl
@[simp] theorem raiseSite_free (c : Nat) (i : SiteId) : (s.raiseSite c i).free = s.free := by unfold State.raiseSite State.report; split <;> rfl
@[simp] theorem raiseSite_od (c : Nat) (i : SiteId) : (s.raiseSite c i).od = s.od := by unfold State.raiseSite State.report; split <;> rfl
@[simp] theorem raiseSite_blobs (c : Nat) (i : SiteId) : (s.raiseSite c i).blobs = s.blobs := by unfold State.raiseSite State.report; split <;> rfl
@[simp] theorem raiseSite_mem (c : Nat) (i : SiteId) : (s.raiseSite c i).mem = s.mem := by unfold State.raiseSite State.report; split <;> rfl
@[simp] theorem raiseSite_sites (c : Nat) (i : SiteId) : (s.raiseSite c i).sites = s.sites := by unfold State.raiseSite State.report; split <;> rfl
@[simp] theorem raiseSite_host (c : Nat) (i : SiteId) : (s.raiseSite c i).host = s.host := by unfold State.raiseSite State.report; split <;> rfl
@[simp] theorem raiseSite_dict (c : Nat) (i : SiteId) : (s.raiseSite c i).dict = s.dict := by unfold State.raiseSite State.report; split <;> rfl
@[simp] theorem raiseSite_tmus (c : Nat) (i : SiteId) : (s.raiseSite c i).tmus = s.tmus := by unfold State.raiseSite State.report; split <;> rfl
@[simp] theorem raiseSite_engs (c : Nat) (i : SiteId) : (s.raiseSite c i).engs = s.engs := by unfold State.raiseSite State.report; split <;> rfl
@[simp] theorem raiseSite_evts (c : Nat) (i : SiteId) : (s.raiseSite c i).evts = s.evts := by unfold State.raiseSite State.report; split <;> rfl
@[simp] theorem raiseSite_mkLast (c : Nat) (i : SiteId) : (s.raiseSite c i).mkLast = s.mkLast := by unfold State.raiseSite State.report; split <;> rfl
@[simp] theorem raiseSite_cal (c : Nat) (i : SiteId) : (s.raiseSite c i).cal = s.cal := by unfold State.raiseSite State.report; split <;> rfl
@[simp] theorem raiseSite_lvl (c : Nat) (i : SiteId) : (s.raiseSite c i).lvl = s.lvl := by unfold State.raiseSite State.report; split <;> rfl
@[simp] theorem raiseSite_clk (c : Nat) (i : SiteId) : (s.raiseSite c i).clk = s.clk := by unfold State.raiseSite State.report; split <;> rfl
@[simp] theorem raiseSite_mgmt (c : Nat) (i : SiteId) : (s.raiseSite c i).mgmt = s.mgmt := by unfold State.raiseSite State.report; split <;> rfl
@[simp] theorem raiseSite_pwr (c : Nat) (i : SiteId) : (s.raiseSite c i).pwr = s.pwr := by unfold State.raiseSite State.report; split <;> rfl
@[simp] theorem raiseSite_unitCmds (c : Nat) (i : SiteId) : (s.raiseSite c i).unitCmds = s.unitCmds := by unfold State.raiseSite State.report; split <;> rfl
@[simp] theorem raiseSite_g (c : Nat) (i : SiteId) (j : Nat) : (s.raiseSite c i).g j = s.g j := by unfold State.g; rw [raiseSite_od]
@[simp] theorem raiseSite_n (c : Nat) (i : SiteId) (j : Nat) : (s.raiseSite c i).n j = s.n j := by unfold State.n; rw [raiseSite_g]
@[simp] theorem raiseSite_b (c : Nat) (i : SiteId) (j : Nat) : (s.raiseSite c i).b j = s.b j := by unfold State.b; rw [raiseSite_g]

/-! ### raise -/
@[simp] theorem raise_now (c : Nat) : (s.raise c).now = s.now := by unfold State.raise State.report; split <;> rfl
@[simp] theorem raise_out (c : Nat) : (s.raise c).out = s.out := by unfold State.raise State.report; split <;> rfl
@[simp] theorem raise_pending (c : Nat) : (s.raise c).pending = s.pending := by unfold State.raise State.report; split <;> rfl
@[simp] theorem raise_delayed (c : Nat) : (s.raise c).delayed = s.delayed := by unfold State.raise State.report; split <;> rfl
@[simp] theorem raise_free (c : Nat) : (s.raise c).free = s.free := by unfold State.raise State.report; split <;> rfl
@[simp] theorem raise_od (c : Nat) : (s.raise c).od = s.od := by unfold State.raise State.report; split <;> rfl
@[simp] theorem raise_blobs (c : Nat) : (s.raise c).blobs = s.blobs := by unfold State.raise State.report; split <;> rfl
@[simp] theorem raise_mem (c : Nat) : (s.raise c).mem = s.mem := by unfold State.raise State.report; split <;> rfl
@[simp] theorem raise_sites (c : Nat) : (s.raise c).sites = s.sites := by unfold State.raise State.report; split <;> rfl
@[simp] theorem raise_host (c : Nat) : (s.raise c).host = s.host := by unfold State.raise State.report; split <;> rfl
@[simp] theorem raise_dict (c : Nat) : (s.raise c).dict = s.dict := by unfold State.raise State.report; split <;> rfl
@[simp] theorem raise_tmus (c : Nat) : (s.raise c).tmus = s.tmus := by unfold State.raise State.report; split <;> rfl
@[simp] theorem raise_engs (c : Nat) : (s.raise c).engs = s.engs := by unfold State.raise State.report; split <;> rfl
@[simp] theorem raise_evts (c : Nat) : (s.raise c).evts = s.evts := by unfold State.raise State.report; split <;> rfl
@[simp] theorem raise_mkLast (c : Nat) : (s.raise c).mkLast = s.mkLast := by unfold State.raise State.report; split <;> rfl
@[simp] theorem raise_cal (c : Nat) : (s.raise c).cal = s.cal := by unfold State.raise State.report; split <;> rfl
@[simp] theorem raise_lvl (c : Nat) : (s.raise c).lvl = s.lvl := by unfold State.raise State.report; split <;> rfl
@[simp] theorem raise_clk (c : Nat) : (s.raise c).clk = s.clk := by unfold State.raise State.report; split <;> rfl
@[simp] theorem raise_mgmt (c : Nat) : (s.raise c).mgmt = s.mgmt := by unfold State.raise State.report; split <;> rfl
@[simp] theorem raise_pwr (c : Nat) : (s.raise c).pwr = s.pwr := by unfold State.raise State.report; split <;> rfl
@[simp] theorem raise_unitCmds (c : Nat) : (s.raise c).unitCmds = s.unitCmds := by unfold State.raise State.report; split <;> rfl
@[simp] theorem raise_g (c : Nat) (j : Nat) : (s.raise c).g j = s.g j := by unfold State.g; rw [raise_od]
@[simp] theorem raise_n (c : Nat) (j : Nat) : (s.raise c).n j = s.n j := by unfold State.n; rw [raise_g]
@[simp] theorem raise_b (c : Nat) (j : Nat) : (s.raise c).b j = s.b j := by unfold State.b; rw [raise_g]

/-! ### activate -/
@[simp] theorem activate_now (c : Nat) (m : SiteMask) (d : Nat) : (s.activate c m d).now = s.now := by simp only [State.activate]; split <;> rfl
@[simp] theorem activate_out (c : Nat) (m : SiteMask) (d : Nat) : (s.activate c m d).out = s.out := by simp only [State.activate]; split <;> rfl
@[simp] theorem activate_pending (c : Nat) (m : SiteMask) (d : Nat) : (s.activate c m d).pending = s.pending := by simp only [State.activate]; split <;> rfl
@[simp] theorem activate_delayed (c : Nat) (m : SiteMask) (d : Nat) : (s.activate c m d).delayed = s.delayed := by simp only [State.activate]; split <;> rfl
@[simp] theorem activate_free (c : Nat) (m : SiteMask) (d : Nat) : (s.activate c m d).free = s.free := by simp only [State.activate]; split <;> rfl
@[simp] theorem activate_od (c : Nat) (m : SiteMask) (d : Nat) : (s.activate c m d).od = s.od := by simp only [State.activate]; split <;> rfl
@[simp] theorem activate_blobs (c : Nat) (m : SiteMask) (d : Nat) : (s.activate c m d).blobs = s.blobs := by simp only [State.activate]; split <;> rfl
@[simp] theorem activate_mem (c : Nat) (m : SiteMask) (d : Nat) : (s.activate c m d).mem = s.mem := by simp only [State.activate]; split <;> rfl
@[simp] theorem activate_sites (c : Nat) (m : SiteMask) (d : Nat) : (s.activate c m d).sites = s.sites := by simp only [State.activate]; split <;> rfl
@[simp] theorem activate_host (c : Nat) (m : SiteMask) (d : Nat) : (s.activate c m d).host = s.host := by simp only [State.activate]; split <;> rfl
@[simp] theorem activate_dict (c : Nat) (m : SiteMask) (d : Nat) : (s.activate c m d).dict = s.dict := by simp only [State.activate]; split <;> rfl
@[simp] theorem activate_tmus (c : Nat) (m : SiteMask) (d : Nat) : (s.activate c m d).tmus = s.tmus := by simp only [State.activate]; split <;> rfl
@[simp] theorem activate_engs (c : Nat) (m : SiteMask) (d : Nat) : (s.activate c m d).engs = s.engs := by simp only [State.activate]; split <;> rfl
@[simp] theorem activate_evts (c : Nat) (m : SiteMask) (d : Nat) : (s.activate c m d).evts = s.evts := by simp only [State.activate]; split <;> rfl
@[simp] theorem activate_mkLast (c : Nat) (m : SiteMask) (d : Nat) : (s.activate c m d).mkLast = s.mkLast := by simp only [State.activate]; split <;> rfl
@[simp] theorem activate_cal (c : Nat) (m : SiteMask) (d : Nat) : (s.activate c m d).cal = s.cal := by simp only [State.activate]; split <;> rfl
@[simp] theorem activate_lvl (c : Nat) (m : SiteMask) (d : Nat) : (s.activate c m d).lvl = s.lvl := by simp only [State.activate]; split <;> rfl
@[simp] theorem activate_clk (c : Nat) (m : SiteMask) (d : Nat) : (s.activate c m d).clk = s.clk := by simp only [State.activate]; split <;> rfl
@[simp] theorem activate_mgmt (c : Nat) (m : SiteMask) (d : Nat) : (s.activate c m d).mgmt = s.mgmt := by simp only [State.activate]; split <;> rfl
@[simp] theorem activate_pwr (c : Nat) (m : SiteMask) (d : Nat) : (s.activate c m d).pwr = s.pwr := by simp only [State.activate]; split <;> rfl
@[simp] theorem activate_unitCmds (c : Nat) (m : SiteMask) (d : Nat) : (s.activate c m d).unitCmds = s.unitCmds := by simp only [State.activate]; split <;> rfl
@[simp] theorem activate_g (c : Nat) (m : SiteMask) (d : Nat) (j : Nat) : (s.activate c m d).g j = s.g j := by unfold State.g; rw [activate_od]
@[simp] theorem activate_n (c : Nat) (m : SiteMask) (d : Nat) (j : Nat) : (s.activate c m d).n j = s.n j := by unfold State.n; rw [activate_g]
@[simp] theorem activate_b (c : Nat) (m : SiteMask) (d : Nat) (j : Nat) : (s.activate c m d).b j = s.b j := by unfold State.b; rw [activate_g]

/-! ### deactivate -/
@[simp] theorem deactivate_now (c : Nat) : (s.deactivate c).now = s.now := by simp only [State.deactivate]; split <;> rfl
@[simp] theorem deactivate_out (c : Nat) : (s.deactivate c).out = s.out := by simp only [State.deactivate]; split <;> rfl
@[simp] theorem deactivate_pending (c : Nat) : (s.deactivate c).pending = s.pending := by simp only [State.deactivate]; split <;> rfl
@[simp] theorem deactivate_delayed (c : Nat) : (s.deactivate c).delayed = s.delayed := by simp only [State.deactivate]; split <;> rfl
@[simp] theorem deactivate_free (c : Nat) : (s.deactivate c).free = s.free := by simp only [State.deactivate]; split <;> rfl
@[simp] theorem deactivate_od (c : Nat) : (s.deactivate c).od = s.od := by simp only [State.deactivate]; split <;> rfl
@[simp] theorem deactivate_blobs (c : Nat) : (s.deactivate c).blobs = s.blobs := by simp only [State.deactivate]; split <;> rfl
@[simp] theorem deactivate_mem (c : Nat) : (s.deactivate c).mem = s.mem := by simp only [State.deactivate]; split <;> rfl
@[simp] theorem deactivate_sites (c : Nat) : (s.deactivate c).sites = s.sites := by simp only [State.deactivate]; split <;> rfl
@[simp] theorem deactivate_host (c : Nat) : (s.deactivate c).host = s.host := by simp only [State.deactivate]; split <;> rfl
@[simp] theorem deactivate_dict (c : Nat) : (s.deactivate c).dict = s.dict := by simp only [State.deactivate]; split <;> rfl
@[simp] theorem deactivate_tmus (c : Nat) : (s.deactivate c).tmus = s.tmus := by simp only [State.deactivate]; split <;> rfl
@[simp] theorem deactivate_engs (c : Nat) : (s.deactivate c).engs = s.engs := by simp only [State.deactivate]; split <;> rfl
@[simp] theorem deactivate_evts (c : Nat) : (s.deactivate c).evts = s.evts := by simp only [State.deactivate]; split <;> rfl
@[simp] theorem deactivate_mkLast (c : Nat) : (s.deactivate c).mkLast = s.mkLast := by simp only [State.deactivate]; split <;> rfl
@[simp] theorem deactivate_cal (c : Nat) : (s.deactivate c).cal = s.cal := by simp only [State.deactivate]; split <;> rfl
@[simp] theorem deactivate_lvl (c : Nat) : (s.deactivate c).lvl = s.lvl := by simp only [State.deactivate]; split <;> rfl
@[simp] theorem deactivate_clk (c : Nat) : (s.deactivate c).clk = s.clk := by simp only [State.deactivate]; split <;> rfl
@[simp] theorem deactivate_mgmt (c : Nat) : (s.deactivate c).mgmt = s.mgmt := by simp only [State.deactivate]; split <;> rfl
@[simp] theorem deactivate_pwr (c : Nat) : (s.deactivate c).pwr = s.pwr := by simp only [State.deactivate]; split <;> rfl
@[simp] theorem deactivate_unitCmds (c : Nat) : (s.deactivate c).unitCmds = s.unitCmds := by simp only [State.deactivate]; split <;> rfl
@[simp] theorem deactivate_g (c : Nat) (j : Nat) : (s.deactivate c).g j = s.g j := by unfold State.g; rw [deactivate_od]
@[simp] theorem deactivate_n (c : Nat) (j : Nat) : (s.deactivate c).n j = s.n j := by unfold State.n; rw [deactivate_g]
@[simp] theorem deactivate_b (c : Nat) (j : Nat) : (s.deactivate c).b j = s.b j := by unfold State.b; rw [deactivate_g]

/-! ### event -/
@[simp] theorem event_now (i : SiteId) (kd c d : Nat) : (s.event i kd c d).now = s.now := by simp only [State.event]; split <;> simp
@[simp] theorem event_out (i : SiteId) (kd c d : Nat) : (s.event i kd c d).out = s.out := by simp only [State.event]; split <;> simp
@[simp] theorem event_pending (i : SiteId) (kd c d : Nat) : (s.event i kd c d).pending = s.pending := by simp only [State.event]; split <;> simp
@[simp] theorem event_delayed (i : SiteId) (kd c d : Nat) : (s.event i kd c d).delayed = s.delayed := by simp only [State.event]; split <;> simp
@[simp] theorem event_free (i : SiteId) (kd c d : Nat) : (s.event i kd c d).free = s.free := by simp only [State.event]; split <;> simp
@[simp] theorem event_blobs (i : SiteId) (kd c d : Nat) : (s.event i kd c d).blobs = s.blobs := by simp only [State.event]; split <;> simp
@[simp] theorem event_mem (i : SiteId) (kd c d : Nat) : (s.event i kd c d).mem = s.mem := by simp only [State.event]; split <;> simp
@[simp] theorem event_host (i : SiteId) (kd c d : Nat) : (s.event i kd c d).host = s.host := by simp only [State.event]; split <;> simp
@[simp] theorem event_dict (i : SiteId) (kd c d : Nat) : (s.event i kd c d).dict = s.dict := by simp only [State.event]; split <;> simp
@[simp] theorem event_tmus (i : SiteId) (kd c d : Nat) : (s.event i kd c d).tmus = s.tmus := by simp only [State.event]; split <;> simp
@[simp] theorem event_engs (i : SiteId) (kd c d : Nat) : (s.event i kd c d).engs = s.engs := by simp only [State.event]; split <;> simp
@[simp] theorem event_evts (i : SiteId) (kd c d : Nat) : (s.event i kd c d).evts = s.evts := by simp only [State.event]; split <;> simp
@[simp] theorem event_mkLast (i : SiteId) (kd c d : Nat) : (s.event i kd c d).mkLast = s.mkLast := by simp only [State.event]; split <;> simp
@[simp] theorem event_cal (i : SiteId) (kd c d : Nat) : (s.event i kd c d).cal = s.cal := by simp only [State.event]; split <;> simp
@[simp] theorem event_lvl (i : SiteId) (kd c d : Nat) : (s.event i kd c d).lvl = s.lvl := by simp only [State.event]; split <;> simp
@[simp] theorem event_clk (i : SiteId) (kd c d : Nat) : (s.event i kd c d).clk = s.clk := by simp only [State.event]; split <;> simp
@[simp] theorem event_mgmt (i : SiteId) (kd c d : Nat) : (s.event i kd c d).mgmt = s.mgmt := by simp only [State.event]; split <;> simp
@[simp] theorem event_pwr (i : SiteId) (kd c d : Nat) : (s.event i kd c d).pwr = s.pwr := by simp only [State.event]; split <;> simp
@[simp] theorem event_unitCmds (i : SiteId) (kd c d : Nat) : (s.event i kd c d).unitCmds = s.unitCmds := by simp only [State.event]; split <;> simp

/-! ### setSt -/
@[simp] theorem setSt_now (i : SiteId) (st : Nat) : (s.setSt i st).now = s.now := by simp only [State.setSt]; split <;> simp
@[simp] theorem setSt_out (i : SiteId) (st : Nat) : (s.setSt i st).out = s.out := by simp only [State.setSt]; split <;> simp
@[simp] theorem setSt_pending (i : SiteId) (st : Nat) : (s.setSt i st).pending = s.pending := by simp only [State.setSt]; split <;> simp
@[simp] theorem setSt_delayed (i : SiteId) (st : Nat) : (s.setSt i st).delayed = s.delayed := by simp only [State.setSt]; split <;> simp
@[simp] theorem setSt_free (i : SiteId) (st : Nat) : (s.setSt i st).free = s.free := by simp only [State.setSt]; split <;> simp
@[simp] theorem setSt_blobs (i : SiteId) (st : Nat) : (s.setSt i st).blobs = s.blobs := by simp only [State.setSt]; split <;> simp
@[simp] theorem setSt_mem (i : SiteId) (st : Nat) : (s.setSt i st).mem = s.mem := by simp only [State.setSt]; split <;> simp
@[simp] theorem setSt_host (i : SiteId) (st : Nat) : (s.setSt i st).host = s.host := by simp only [State.setSt]; split <;> simp
@[simp] theorem setSt_dict (i : SiteId) (st : Nat) : (s.setSt i st).dict = s.dict := by simp only [State.setSt]; split <;> simp
@[simp] theorem setSt_tmus (i : SiteId) (st : Nat) : (s.setSt i st).tmus = s.tmus := by simp only [State.setSt]; split <;> simp
@[simp] theorem setSt_engs (i : SiteId) (st : Nat) : (s.setSt i st).engs = s.engs := by simp only [State.setSt]; split <;> simp
@[simp] theorem setSt_evts (i : SiteId) (st : Nat) : (s.setSt i st).evts = s.evts := by simp only [State.setSt]; split <;> simp
@[simp] theorem setSt_mkLast (i : SiteId) (st : Nat) : (s.setSt i st).mkLast = s.mkLast := by simp only [State.setSt]; split <;> simp
@[simp] theorem setSt_cal (i : SiteId) (st : Nat) : (s.setSt i st).cal = s.cal := by simp only [State.setSt]; split <;> simp
@[simp] theorem setSt_lvl (i : SiteId) (st : Nat) : (s.setSt i st).lvl = s.lvl := by simp only [State.setSt]; split <;> simp
@[simp] theorem setSt_clk (i : SiteId) (st : Nat) : (s.setSt i st).clk = s.clk := by simp only [State.setSt]; split <;> simp
@[simp] theorem setSt_mgmt (i : SiteId) (st : Nat) : (s.setSt i st).mgmt = s.mgmt := by simp only [State.setSt]; split <;> simp
@[simp] theorem setSt_pwr (i : SiteId) (st : Nat) : (s.setSt i st).pwr = s.pwr := by simp only [State.setSt]; split <;> simp
@[simp] theorem setSt_unitCmds (i : SiteId) (st : Nat) : (s.setSt i st).unitCmds = s.unitCmds := by simp only [State.setSt]; split <;> simp

/-! ### What an update writes -/
@[simp] theorem fresh_out : s.fresh.out = [] := rfl
@[simp] theorem emit_out (o : Output) : (s.emit o).out = s.out ++ [o] := rfl
@[simp] theorem emits_out (l : List Output) : (s.emits l).out = s.out ++ l := rfl
@[simp] theorem advance_free : s.advance.free = s.free + 1 := rfl
@[simp] theorem complete_compl (t : Tag) (st r : Nat) : (s.complete t st r).host.compl = s.host.compl ++ [⟨t, st, r⟩] := rfl
@[simp] theorem refuse_compl (t : Tag) (st : Nat) : (s.refuse t st).host.compl = s.host.compl ++ [⟨t, st, 0⟩] := rfl
theorem site_setSite (i j : SiteId) (x : Site) : (s.setSite i x).site j = if i = j then x else s.site j := by
  simp only [State.site, State.setSite, Fin.getElem_fin, Vector.getElem_set, Fin.ext_iff]
theorem site_modSite (i j : SiteId) (f : Site → Site) : (s.modSite i f).site j = if i = j then f (s.site i) else s.site j :=
  site_setSite s i j _
theorem strm_setStrm (i j : StreamId) (x : Strm) : (s.setStrm i x).strm j = if i = j then x else s.strm j := by
  simp only [State.strm, State.setStrm, Fin.getElem_fin, Vector.getElem_set, Fin.ext_iff]
theorem fnr_setFn (i j : FnId) (x : Fn) : (s.setFn i x).fnr j = if i = j then x else s.fnr j := by
  simp only [State.fnr, State.setFn, Fin.getElem_fin, Vector.getElem_set, Fin.ext_iff]
theorem seg_setSeg (n j : Nat) (x : Seg) : (s.setSeg n x).seg? j = if j = n then some x else s.seg? j :=
  kget?_kput s.mem.segs n j x
theorem seg_delSeg (n j : Nat) : (s.delSeg n).seg? j = if j = n then none else s.seg? j := kget?_kdel s.mem.segs n j
theorem queue_setQueue (n j : Nat) (x : Queue) : (s.setQueue n x).queue? j = if j = n then some x else s.queue? j :=
  kget?_kput s.host.queues n j x
theorem blob_putBlob (k j : Nat) (l : List Byte) : (s.putBlob k l).blob j = if j = k then l else s.blob j := by
  simp only [State.blob, State.putBlob, kgetD]
  split
  · rename_i h; subst h; rw [kget?_kdel]; split <;> simp_all
  · rw [kget?_kput]; split <;> simp_all

/-- A saturating counter rises by one or stays at its largest value. -/
theorem sat32_g (k j : Nat) : (s.sat32 k).g j = if j = k then min (s.g k + 1) 4294967295 else s.g j := g_p s k j _
/-- A counter below its largest value rises by one. -/
theorem count_g (k j : Nat) (m : Int) (h : s.g k < m) : (s.count k m).g j = if j = k then s.g k + 1 else s.g j := by
  unfold State.count; rw [if_pos h]; exact g_p s k j _
/-- Reports keep every report made before. -/
theorem report_reports (c : Nat) (m : SiteMask) (d : Nat) (h : (kgetD s.flt.srcs c {}).active = false) :
    (s.report c m d).flt.reports = s.flt.reports ++ [{ src := c, sites := m, detail := d }] := by
  unfold State.report; simp [h]

end Sys2Proof.Laws
end

