-- ==== Sys2Proof/Laws/Kept.lean ====
section
/-! SUPPORT. Kept: what an operation within a mask of parts does to the rest; the rules by which the files KeptX prove it of
each operation of Machine/X.lean. -/
namespace Sys2Proof.Laws
open Sys2Proof Sys2Proof.Machine

variable {W : Nat} {s0 : State}

/-- A mask within another. -/
abbrev Sub (a b : Nat) : Prop := a &&& b = a

theorem Sub.bit {a b : Nat} (h : Sub a b) {j : Nat} (ha : a.testBit j = true) : b.testBit j = true := by
  have : (a &&& b).testBit j = true := by rw [h]; exact ha
  rw [Nat.testBit_and] at this
  simp at this
  exact this.2

theorem Sub.trans {a b c : Nat} (h : Sub a b) (h' : Sub b c) : Sub a c := by
  apply Nat.eq_of_testBit_eq
  intro j
  rw [Nat.testBit_and]
  cases e : a.testBit j
  · rfl
  · rw [h'.bit (h.bit e)]; rfl

/-- What an operation within a mask does: the canonical form stays, the queue and the time are kept, and nothing outside the
mask changes. -/
structure Kept (W : Nat) (s0 s : State) : Prop where
  can : Canonical s0 → Canonical s
  pending : s.pending = s0.pending
  now : s.now = s0.now
  frame : Unchanged W s0 s

theorem Kept.refl (W : Nat) (s : State) : Kept W s s :=
  ⟨id, rfl, rfl, ⟨fun _ _ _ => rfl, fun _ => rfl, fun _ => rfl, fun _ => ⟨rfl, rfl⟩, fun _ => rfl, fun _ => ⟨rfl, rfl, rfl, rfl, rfl, rfl, rfl⟩, fun _ => rfl, fun _ => rfl, fun _ => ⟨rfl, rfl⟩, fun _ => ⟨rfl, rfl, rfl, rfl, rfl, rfl⟩, fun _ => rfl, fun _ => rfl, fun _ => ⟨rfl, rfl, rfl, rfl, rfl, rfl, rfl, rfl, rfl, rfl⟩, fun _ => rfl, fun _ => rfl, fun _ => rfl, fun _ => rfl, fun _ => rfl, fun _ => rfl, fun _ => rfl, fun _ => rfl, fun _ => rfl, fun _ => rfl, rfl⟩⟩

/-- A key that an operation may write: in an area of the mask, or the mask has every object. -/
def May (W k : Nat) : Prop := inAreas W k = true ∨ W.testBit Area.anything = true

theorem may_any (h : W.testBit Area.anything = true) (k : Nat) : May W k := .inr h

theorem may_of {b n j : Nat} (hm : ((b, n), j) ∈ areas.zipIdx) (h : W.testBit j = true) (i c : Nat) (hi : i < n) (hc : c < 256) :
    May W (Objects.ob (b + i) c) := by
  refine .inl (List.any_eq_true.2 ⟨_, hm, ?_⟩)
  have : Objects.ob (b + i) c / 256 = b + i := by unfold Objects.ob; omega
  simp only [Bool.and_eq_true, decide_eq_true_eq]
  exact ⟨⟨h, by omega⟩, by omega⟩

theorem may_id (h : W.testBit 0 = true) (c : Nat) (hc : c < 256) : May W (Objects.ob 0x1000 c) :=
  may_of (b := 0x1000) (n := 1) (j := 0) (by decide) h 0 c (by decide) hc

theorem may_fam (h : W.testBit 1 = true) (c : Nat) (hc : c < 256) : May W (Objects.ob 0x1008 c) :=
  may_of (b := 0x1008) (n := 1) (j := 1) (by decide) h 0 c (by decide) hc

theorem may_net (h : W.testBit 2 = true) (c : Nat) (hc : c < 256) : May W (Objects.ob 0x1100 c) :=
  may_of (b := 0x1100) (n := 1) (j := 2) (by decide) h 0 c (by decide) hc

theorem may_pcie (h : W.testBit 3 = true) (c : Nat) (hc : c < 256) : May W (Objects.ob 0x1140 c) :=
  may_of (b := 0x1140) (n := 1) (j := 3) (by decide) h 0 c (by decide) hc

theorem may_qp (h : W.testBit 4 = true) (c : Nat) (hc : c < 256) : May W (Objects.ob 0x1141 c) :=
  may_of (b := 0x1141) (n := 1) (j := 4) (by decide) h 0 c (by decide) hc

theorem may_sf (h : W.testBit 5 = true) (c : Nat) (hc : c < 256) : May W (Objects.ob 0x1142 c) :=
  may_of (b := 0x1142) (n := 1) (j := 5) (by decide) h 0 c (by decide) hc

theorem may_fn (h : W.testBit 6 = true) (i c : Nat) (hi : i < 33) (hc : c < 256) : May W (Objects.ob (0x1150 + i) c) :=
  may_of (n := 33) (j := 6) (by decide) h i c hi hc

theorem may_se (h : W.testBit 7 = true) (i c : Nat) (hi : i < 32) (hc : c < 256) : May W (Objects.ob (0x1180 + i) c) :=
  may_of (n := 32) (j := 7) (by decide) h i c hi hc

theorem may_te (h : W.testBit 8 = true) (c : Nat) (hc : c < 256) : May W (Objects.ob 0x1200 c) :=
  may_of (b := 0x1200) (n := 1) (j := 8) (by decide) h 0 c (by decide) hc

theorem may_tr (h : W.testBit 9 = true) (i c : Nat) (hi : i < 8) (hc : c < 256) : May W (Objects.ob (0x1210 + i) c) :=
  may_of (n := 8) (j := 9) (by decide) h i c hi hc

theorem may_utc (h : W.testBit 10 = true) (c : Nat) (hc : c < 256) : May W (Objects.ob 0x1800 c) :=
  may_of (b := 0x1800) (n := 1) (j := 10) (by decide) h 0 c (by decide) hc

theorem may_ev (h : W.testBit 11 = true) (c : Nat) (hc : c < 256) : May W (Objects.ob 0x1810 c) :=
  may_of (b := 0x1810) (n := 1) (j := 11) (by decide) h 0 c (by decide) hc

theorem may_evd (h : W.testBit 12 = true) (c : Nat) (hc : c < 256) : May W (Objects.ob 0x1811 c) :=
  may_of (b := 0x1811) (n := 1) (j := 12) (by decide) h 0 c (by decide) hc

theorem may_sg (h : W.testBit 13 = true) (c : Nat) (hc : c < 256) : May W (Objects.ob 0x2000 c) :=
  may_of (b := 0x2000) (n := 1) (j := 13) (by decide) h 0 c (by decide) hc

theorem may_sc (h : W.testBit 14 = true) (c : Nat) (hc : c < 256) : May W (Objects.ob 0x2010 c) :=
  may_of (b := 0x2010) (n := 1) (j := 14) (by decide) h 0 c (by decide) hc

theorem may_cf (h : W.testBit 15 = true) (i c : Nat) (hi : i < 32) (hc : c < 256) : May W (Objects.ob (0x2020 + i) c) :=
  may_of (n := 32) (j := 15) (by decide) h i c hi hc

theorem may_st (h : W.testBit 16 = true) (i c : Nat) (hi : i < 32) (hc : c < 256) : May W (Objects.ob (0x2040 + i) c) :=
  may_of (n := 32) (j := 16) (by decide) h i c hi hc

theorem may_cs (h : W.testBit 17 = true) (c : Nat) (hc : c < 256) : May W (Objects.ob 0x2200 c) :=
  may_of (b := 0x2200) (n := 1) (j := 17) (by decide) h 0 c (by decide) hc

theorem may_vd (h : W.testBit 18 = true) (c : Nat) (hc : c < 256) : May W (Objects.ob 0x2201 c) :=
  may_of (b := 0x2201) (n := 1) (j := 18) (by decide) h 0 c (by decide) hc

theorem may_csa (h : W.testBit 19 = true) (c : Nat) (hc : c < 256) : May W (Objects.ob 0x2205 c) :=
  may_of (b := 0x2205) (n := 1) (j := 19) (by decide) h 0 c (by decide) hc

theorem may_csd (h : W.testBit 20 = true) (c : Nat) (hc : c < 256) : May W (Objects.ob 0x2206 c) :=
  may_of (b := 0x2206) (n := 1) (j := 20) (by decide) h 0 c (by decide) hc

theorem may_sq (h : W.testBit 21 = true) (i c : Nat) (hi : i < 32) (hc : c < 256) : May W (Objects.ob (0x2210 + i) c) :=
  may_of (n := 32) (j := 21) (by decide) h i c hi hc

theorem may_sr (h : W.testBit 22 = true) (i c : Nat) (hi : i < 32) (hc : c < 256) : May W (Objects.ob (0x2230 + i) c) :=
  may_of (n := 32) (j := 22) (by decide) h i c hi hc

theorem may_lc (h : W.testBit 23 = true) (i c : Nat) (hi : i < 32) (hc : c < 256) : May W (Objects.ob (0x2250 + i) c) :=
  may_of (n := 32) (j := 23) (by decide) h i c hi hc

theorem may_pa (h : W.testBit 24 = true) (i c : Nat) (hi : i < 32) (hc : c < 256) : May W (Objects.ob (0x2270 + i) c) :=
  may_of (n := 32) (j := 24) (by decide) h i c hi hc

theorem may_hm (h : W.testBit 25 = true) (c : Nat) (hc : c < 256) : May W (Objects.ob 0x2400 c) :=
  may_of (b := 0x2400) (n := 1) (j := 25) (by decide) h 0 c (by decide) hc

theorem may_ab (h : W.testBit 26 = true) (c : Nat) (hc : c < 256) : May W (Objects.ob 0x2401 c) :=
  may_of (b := 0x2401) (n := 1) (j := 26) (by decide) h 0 c (by decide) hc

theorem may_ar (h : W.testBit 27 = true) (c : Nat) (hc : c < 256) : May W (Objects.ob 0x2402 c) :=
  may_of (b := 0x2402) (n := 1) (j := 27) (by decide) h 0 c (by decide) hc

theorem may_rf (h : W.testBit 28 = true) (c : Nat) (hc : c < 256) : May W (Objects.ob 0x2403 c) :=
  may_of (b := 0x2403) (n := 1) (j := 28) (by decide) h 0 c (by decide) hc

theorem may_hs (h : W.testBit 29 = true) (c : Nat) (hc : c < 256) : May W (Objects.ob 0x2405 c) :=
  may_of (b := 0x2405) (n := 1) (j := 29) (by decide) h 0 c (by decide) hc

theorem may_ds (h : W.testBit 30 = true) (c : Nat) (hc : c < 256) : May W (Objects.ob 0x2406 c) :=
  may_of (b := 0x2406) (n := 1) (j := 30) (by decide) h 0 c (by decide) hc

theorem may_md (h : W.testBit 31 = true) (i c : Nat) (hi : i < 32) (hc : c < 256) : May W (Objects.ob (0x2440 + i) c) :=
  may_of (n := 32) (j := 31) (by decide) h i c hi hc

theorem may_sl (h : W.testBit 32 = true) (i c : Nat) (hi : i < 32) (hc : c < 256) : May W (Objects.ob (0x2460 + i) c) :=
  may_of (n := 32) (j := 32) (by decide) h i c hi hc

theorem may_sm (h : W.testBit 33 = true) (i c : Nat) (hi : i < 64) (hc : c < 256) : May W (Objects.ob (0x2480 + i) c) :=
  may_of (n := 64) (j := 33) (by decide) h i c hi hc

theorem may_fl (h : W.testBit 34 = true) (c : Nat) (hc : c < 256) : May W (Objects.ob 0x2600 c) :=
  may_of (b := 0x2600) (n := 1) (j := 34) (by decide) h 0 c (by decide) hc

theorem may_fc (h : W.testBit 35 = true) (i c : Nat) (hi : i < 32) (hc : c < 256) : May W (Objects.ob (0x2610 + i) c) :=
  may_of (n := 32) (j := 35) (by decide) h i c hi hc

theorem may_fr (h : W.testBit 36 = true) (i c : Nat) (hi : i < 32) (hc : c < 256) : May W (Objects.ob (0x2630 + i) c) :=
  may_of (n := 32) (j := 36) (by decide) h i c hi hc

theorem may_ff (h : W.testBit 37 = true) (i c : Nat) (hi : i < 32) (hc : c < 256) : May W (Objects.ob (0x2650 + i) c) :=
  may_of (n := 32) (j := 37) (by decide) h i c hi hc

theorem may_pf (h : W.testBit 38 = true) (i c : Nat) (hi : i < 8) (hc : c < 256) : May W (Objects.ob (0x2680 + i) c) :=
  may_of (n := 8) (j := 38) (by decide) h i c hi hc

theorem may_ch (h : W.testBit 39 = true) (i c : Nat) (hi : i < 256) (hc : c < 256) : May W (Objects.ob (0x3000 + i) c) :=
  may_of (n := 256) (j := 39) (by decide) h i c hi hc

theorem may_cc (h : W.testBit 40 = true) (i c : Nat) (hi : i < 256) (hc : c < 256) : May W (Objects.ob (0x3100 + i) c) :=
  may_of (n := 256) (j := 40) (by decide) h i c hi hc

theorem may_ts (h : W.testBit 41 = true) (i c : Nat) (hi : i < 2048) (hc : c < 256) : May W (Objects.ob (0x3400 + i) c) :=
  may_of (n := 2048) (j := 41) (by decide) h i c hi hc

theorem may_sp0 (h : W.testBit 42 = true) (c : Nat) (hc : c < 256) : May W (Objects.ob 0x4000 c) :=
  may_of (b := 0x4000) (n := 1) (j := 42) (by decide) h 0 c (by decide) hc

theorem may_sp (h : W.testBit 43 = true) (i c : Nat) (hi : i < 16) (hc : c < 256) : May W (Objects.ob (0x4010 + i) c) :=
  may_of (n := 16) (j := 43) (by decide) h i c hi hc

theorem may_wf0 (h : W.testBit 44 = true) (c : Nat) (hc : c < 256) : May W (Objects.ob 0x4400 c) :=
  may_of (b := 0x4400) (n := 1) (j := 44) (by decide) h 0 c (by decide) hc

theorem may_wc (h : W.testBit 45 = true) (i c : Nat) (hi : i < 8) (hc : c < 256) : May W (Objects.ob (0x4410 + i) c) :=
  may_of (n := 8) (j := 45) (by decide) h i c hi hc

theorem may_ws (h : W.testBit 46 = true) (i c : Nat) (hi : i < 8) (hc : c < 256) : May W (Objects.ob (0x4420 + i) c) :=
  may_of (n := 8) (j := 46) (by decide) h i c hi hc

theorem may_wd (h : W.testBit 47 = true) (i c : Nat) (hi : i < 8) (hc : c < 256) : May W (Objects.ob (0x4430 + i) c) :=
  may_of (n := 8) (j := 47) (by decide) h i c hi hc

theorem may_tm0 (h : W.testBit 48 = true) (c : Nat) (hc : c < 256) : May W (Objects.ob 0x4800 c) :=
  may_of (b := 0x4800) (n := 1) (j := 48) (by decide) h 0 c (by decide) hc

theorem may_tmo (h : W.testBit 49 = true) (c : Nat) (hc : c < 256) : May W (Objects.ob 0x4801 c) :=
  may_of (b := 0x4801) (n := 1) (j := 49) (by decide) h 0 c (by decide) hc

theorem may_tl (h : W.testBit 50 = true) (i c : Nat) (hi : i < 32) (hc : c < 256) : May W (Objects.ob (0x4810 + i) c) :=
  may_of (n := 32) (j := 50) (by decide) h i c hi hc

theorem may_tc (h : W.testBit 51 = true) (i c : Nat) (hi : i < 10) (hc : c < 256) : May W (Objects.ob (0x4830 + i) c) :=
  may_of (n := 10) (j := 51) (by decide) h i c hi hc

theorem may_tt (h : W.testBit 52 = true) (i c : Nat) (hi : i < 10) (hc : c < 256) : May W (Objects.ob (0x4840 + i) c) :=
  may_of (n := 10) (j := 52) (by decide) h i c hi hc

theorem may_tv (h : W.testBit 53 = true) (i c : Nat) (hi : i < 80) (hc : c < 256) : May W (Objects.ob (0x4850 + i) c) :=
  may_of (n := 80) (j := 53) (by decide) h i c hi hc

theorem may_tk (h : W.testBit 54 = true) (c : Nat) (hc : c < 256) : May W (Objects.ob 0x48A0 c) :=
  may_of (b := 0x48A0) (n := 1) (j := 54) (by decide) h 0 c (by decide) hc

theorem may_da (h : W.testBit 55 = true) (i c : Nat) (hi : i < 192) (hc : c < 256) : May W (Objects.ob (0x5000 + i) c) :=
  may_of (n := 192) (j := 55) (by decide) h i c hi hc

theorem may_lb (h : W.testBit 56 = true) (i c : Nat) (hi : i < 8) (hc : c < 256) : May W (Objects.ob (0x50C0 + i) c) :=
  may_of (n := 8) (j := 56) (by decide) h i c hi hc

theorem may_ll (h : W.testBit 57 = true) (c : Nat) (hc : c < 256) : May W (Objects.ob 0x50D0 c) :=
  may_of (b := 0x50D0) (n := 1) (j := 57) (by decide) h 0 c (by decide) hc

theorem may_lg (h : W.testBit 58 = true) (i c : Nat) (hi : i < 32) (hc : c < 256) : May W (Objects.ob (0x50E0 + i) c) :=
  may_of (n := 32) (j := 58) (by decide) h i c hi hc

theorem may_cl (h : W.testBit 59 = true) (c : Nat) (hc : c < 256) : May W (Objects.ob 0x5400 c) :=
  may_of (b := 0x5400) (n := 1) (j := 59) (by decide) h 0 c (by decide) hc

theorem may_cb (h : W.testBit 60 = true) (i c : Nat) (hi : i < 10) (hc : c < 256) : May W (Objects.ob (0x5410 + i) c) :=
  may_of (n := 10) (j := 60) (by decide) h i c hi hc

theorem may_tf (h : W.testBit 61 = true) (c : Nat) (hc : c < 256) : May W (Objects.ob 0x5430 c) :=
  may_of (b := 0x5430) (n := 1) (j := 61) (by decide) h 0 c (by decide) hc

theorem may_vf (h : W.testBit 62 = true) (c : Nat) (hc : c < 256) : May W (Objects.ob 0x5431 c) :=
  may_of (b := 0x5431) (n := 1) (j := 62) (by decide) h 0 c (by decide) hc

theorem may_sk (h : W.testBit 63 = true) (c : Nat) (hc : c < 256) : May W (Objects.ob 0x5438 c) :=
  may_of (b := 0x5438) (n := 1) (j := 63) (by decide) h 0 c (by decide) hc

theorem may_sb (h : W.testBit 64 = true) (c : Nat) (hc : c < 256) : May W (Objects.ob 0x5439 c) :=
  may_of (b := 0x5439) (n := 1) (j := 64) (by decide) h 0 c (by decide) hc

theorem may_lt (h : W.testBit 65 = true) (i c : Nat) (hi : i < 192) (hc : c < 256) : May W (Objects.ob (0x5440 + i) c) :=
  may_of (n := 192) (j := 65) (by decide) h i c hi hc

theorem may_ck (h : W.testBit 66 = true) (c : Nat) (hc : c < 256) : May W (Objects.ob 0x6000 c) :=
  may_of (b := 0x6000) (n := 1) (j := 66) (by decide) h 0 c (by decide) hc

theorem may_cg (h : W.testBit 67 = true) (i c : Nat) (hi : i < 3) (hc : c < 256) : May W (Objects.ob (0x6001 + i) c) :=
  may_of (n := 3) (j := 67) (by decide) h i c hi hc

theorem may_cx (h : W.testBit 68 = true) (c : Nat) (hc : c < 256) : May W (Objects.ob 0x6008 c) :=
  may_of (b := 0x6008) (n := 1) (j := 68) (by decide) h 0 c (by decide) hc

theorem may_cq (h : W.testBit 69 = true) (c : Nat) (hc : c < 256) : May W (Objects.ob 0x6010 c) :=
  may_of (b := 0x6010) (n := 1) (j := 69) (by decide) h 0 c (by decide) hc

theorem may_gt (h : W.testBit 70 = true) (c : Nat) (hc : c < 256) : May W (Objects.ob 0x6020 c) :=
  may_of (b := 0x6020) (n := 1) (j := 70) (by decide) h 0 c (by decide) hc

theorem may_dk (h : W.testBit 71 = true) (i c : Nat) (hi : i < 8) (hc : c < 256) : May W (Objects.ob (0x6030 + i) c) :=
  may_of (n := 8) (j := 71) (by decide) h i c hi hc

theorem may_rd (h : W.testBit 72 = true) (c : Nat) (hc : c < 256) : May W (Objects.ob 0x6040 c) :=
  may_of (b := 0x6040) (n := 1) (j := 72) (by decide) h 0 c (by decide) hc

theorem may_em (h : W.testBit 73 = true) (c : Nat) (hc : c < 256) : May W (Objects.ob 0x6400 c) :=
  may_of (b := 0x6400) (n := 1) (j := 73) (by decide) h 0 c (by decide) hc

theorem may_el (h : W.testBit 74 = true) (i c : Nat) (hi : i < 16) (hc : c < 256) : May W (Objects.ob (0x6410 + i) c) :=
  may_of (n := 16) (j := 74) (by decide) h i c hi hc

theorem may_mk (h : W.testBit 75 = true) (i c : Nat) (hi : i < 16) (hc : c < 256) : May W (Objects.ob (0x6430 + i) c) :=
  may_of (n := 16) (j := 75) (by decide) h i c hi hc

theorem may_fz (h : W.testBit 76 = true) (c : Nat) (hc : c < 256) : May W (Objects.ob 0x7000 c) :=
  may_of (b := 0x7000) (n := 1) (j := 76) (by decide) h 0 c (by decide) hc

theorem may_fy (h : W.testBit 77 = true) (c : Nat) (hc : c < 256) : May W (Objects.ob 0x7008 c) :=
  may_of (b := 0x7008) (n := 1) (j := 77) (by decide) h 0 c (by decide) hc

theorem may_fx (h : W.testBit 78 = true) (c : Nat) (hc : c < 256) : May W (Objects.ob 0x7010 c) :=
  may_of (b := 0x7010) (n := 1) (j := 78) (by decide) h 0 c (by decide) hc

theorem may_fw (h : W.testBit 79 = true) (c : Nat) (hc : c < 256) : May W (Objects.ob 0x7018 c) :=
  may_of (b := 0x7018) (n := 1) (j := 79) (by decide) h 0 c (by decide) hc

theorem may_ep (h : W.testBit 80 = true) (i c : Nat) (hi : i < 32) (hc : c < 256) : May W (Objects.ob (0x7020 + i) c) :=
  may_of (n := 32) (j := 80) (by decide) h i c hi hc

theorem may_ru (h : W.testBit 81 = true) (c : Nat) (hc : c < 256) : May W (Objects.ob 0x7060 c) :=
  may_of (b := 0x7060) (n := 1) (j := 81) (by decide) h 0 c (by decide) hc

theorem may_rt (h : W.testBit 82 = true) (c : Nat) (hc : c < 256) : May W (Objects.ob 0x7061 c) :=
  may_of (b := 0x7061) (n := 1) (j := 82) (by decide) h 0 c (by decide) hc

theorem may_stc (h : W.testBit 83 = true) (c : Nat) (hc : c < 256) : May W (Objects.ob 0x7068 c) :=
  may_of (b := 0x7068) (n := 1) (j := 83) (by decide) h 0 c (by decide) hc

theorem may_mg (h : W.testBit 84 = true) (c : Nat) (hc : c < 256) : May W (Objects.ob 0x7400 c) :=
  may_of (b := 0x7400) (n := 1) (j := 84) (by decide) h 0 c (by decide) hc

theorem may_spd (h : W.testBit 85 = true) (i c : Nat) (hi : i < 4) (hc : c < 256) : May W (Objects.ob (0x7401 + i) c) :=
  may_of (n := 4) (j := 85) (by decide) h i c hi hc

theorem may_tp (h : W.testBit 86 = true) (c : Nat) (hc : c < 256) : May W (Objects.ob 0x7410 c) :=
  may_of (b := 0x7410) (n := 1) (j := 86) (by decide) h 0 c (by decide) hc

theorem may_th (h : W.testBit 87 = true) (i c : Nat) (hi : i < 24) (hc : c < 256) : May W (Objects.ob (0x7420 + i) c) :=
  may_of (n := 24) (j := 87) (by decide) h i c hi hc

theorem may_vi (h : W.testBit 88 = true) (c : Nat) (hc : c < 256) : May W (Objects.ob 0x7440 c) :=
  may_of (b := 0x7440) (n := 1) (j := 88) (by decide) h 0 c (by decide) hc

theorem may_rl (h : W.testBit 89 = true) (i c : Nat) (hi : i < 14) (hc : c < 256) : May W (Objects.ob (0x7450 + i) c) :=
  may_of (n := 14) (j := 89) (by decide) h i c hi hc

theorem may_nr (h : W.testBit 90 = true) (c : Nat) (hc : c < 256) : May W (Objects.ob 0x7460 c) :=
  may_of (b := 0x7460) (n := 1) (j := 90) (by decide) h 0 c (by decide) hc

theorem may_fwm (h : W.testBit 91 = true) (c : Nat) (hc : c < 256) : May W (Objects.ob 0x7470 c) :=
  may_of (b := 0x7470) (n := 1) (j := 91) (by decide) h 0 c (by decide) hc

theorem may_bu (h : W.testBit 92 = true) (c : Nat) (hc : c < 256) : May W (Objects.ob 0x7480 c) :=
  may_of (b := 0x7480) (n := 1) (j := 92) (by decide) h 0 c (by decide) hc

theorem may_bp (h : W.testBit 93 = true) (c : Nat) (hc : c < 256) : May W (Objects.ob 0x7481 c) :=
  may_of (b := 0x7481) (n := 1) (j := 93) (by decide) h 0 c (by decide) hc

theorem may_pw (h : W.testBit 94 = true) (c : Nat) (hc : c < 256) : May W (Objects.ob 0x7482 c) :=
  may_of (b := 0x7482) (n := 1) (j := 94) (by decide) h 0 c (by decide) hc

theorem may_tn (h : W.testBit 95 = true) (c : Nat) (hc : c < 256) : May W (Objects.ob 0x7483 c) :=
  may_of (b := 0x7483) (n := 1) (j := 95) (by decide) h 0 c (by decide) hc

theorem may_lcy (h : W.testBit 96 = true) (c : Nat) (hc : c < 256) : May W (Objects.ob 0x7800 c) :=
  may_of (b := 0x7800) (n := 1) (j := 96) (by decide) h 0 c (by decide) hc

theorem may_kk (h : W.testBit 97 = true) (c : Nat) (hc : c < 256) : May W (Objects.ob 0x7810 c) :=
  may_of (b := 0x7810) (n := 1) (j := 97) (by decide) h 0 c (by decide) hc

theorem may_rk (h : W.testBit 98 = true) (c : Nat) (hc : c < 256) : May W (Objects.ob 0x7820 c) :=
  may_of (b := 0x7820) (n := 1) (j := 98) (by decide) h 0 c (by decide) hc

theorem may_cu (h : W.testBit 99 = true) (i c : Nat) (hi : i < 128) (hc : c < 256) : May W (Objects.ob (0x8000 + i) c) :=
  may_of (n := 128) (j := 99) (by decide) h i c hi hc

theorem may_cp (h : W.testBit 100 = true) (i c : Nat) (hi : i < 128) (hc : c < 256) : May W (Objects.ob (0x8080 + i) c) :=
  may_of (n := 128) (j := 100) (by decide) h i c hi hc

/-- Kept of a state given by its fields. -/
def KeptMk (W : Nat) (s0 : State) (now : Nat) (out : List Output) (pending : List Instr) (delayed : List Instr) (free : Nat) (od : Store) (blobs : KMap (List Byte)) (mem : Mem) (sites : Vector Site 32) (host : HostIf) (dict : Dict) (flt : Flt) (tmus : Vector Tmu 10) (engs : Vector Eng 8) (evts : Vector EvtLine 16) (mkLast : Nat) (cal : Cal) (lvl : Lvl) (clk : Clk) (mgmt : Mgmt) (pwr : Pwr) (unitCmds : List UnitCmd) : Prop :=
  Kept W s0 (State.mk now out pending delayed free od blobs mem sites host dict flt tmus engs evts mkLast cal lvl clk mgmt pwr unitCmds)

theorem kept_mk {f0 f1 f2 f3 f4 f5 f6 f7 f8 f9 f10 f11 f12 f13 f14 f15 f16 f17 f18 f19 f20 f21 : _} :
    Kept W s0 (State.mk f0 f1 f2 f3 f4 f5 f6 f7 f8 f9 f10 f11 f12 f13 f14 f15 f16 f17 f18 f19 f20 f21) ↔ KeptMk W s0 f0 f1 f2 f3 f4 f5 f6 f7 f8 f9 f10 f11 f12 f13 f14 f15 f16 f17 f18 f19 f20 f21 := Iff.rfl

theorem same {α : Type} {a : α} {p : Prop} : a = a ∨ p := .inl rfl

theorem pick {α : Type} {a b : α} {t : Bool} (h : a = b ∨ t = true) (hf : t = false) : a = b := by
  rcases h with h | h
  · exact h
  · rw [hf] at h; cases h

/-- The part mem of a state within a mask. -/
def MemOk (W : Nat) (x y : Mem) : Prop :=
  y.segs = x.segs ∧
  y.cs = x.cs ∧
  (W.testBit Area.segs = false → y.movers = x.movers) ∧
  (W.testBit Area.strms = false → y.strms = x.strms) ∧
  (W.testBit Area.memory = false → y.hbmUp = x.hbmUp ∧ y.starts = x.starts ∧ y.logTurn = x.logTurn ∧ y.ceAt = x.ceAt ∧ y.bothAt = x.bothAt ∧ y.logAt = x.logAt ∧ y.losLog = x.losLog)

theorem mem_same {x : Mem} : MemOk W x x := ⟨rfl, rfl, fun _ => rfl, fun _ => rfl, fun _ => ⟨rfl, rfl, rfl, rfl, rfl, rfl, rfl⟩⟩

theorem mem_upd {x : Mem} {v_strms v_hbmUp v_starts v_logTurn v_ceAt v_bothAt v_logAt v_movers v_losLog : _} (h_movers : v_movers = x.movers ∨ W.testBit Area.segs = true) (h_strms : v_strms = x.strms ∨ W.testBit Area.strms = true) (h_hbmUp : v_hbmUp = x.hbmUp ∨ W.testBit Area.memory = true) (h_starts : v_starts = x.starts ∨ W.testBit Area.memory = true) (h_logTurn : v_logTurn = x.logTurn ∨ W.testBit Area.memory = true) (h_ceAt : v_ceAt = x.ceAt ∨ W.testBit Area.memory = true) (h_bothAt : v_bothAt = x.bothAt ∨ W.testBit Area.memory = true) (h_logAt : v_logAt = x.logAt ∨ W.testBit Area.memory = true) (h_losLog : v_losLog = x.losLog ∨ W.testBit Area.memory = true) :
    MemOk W x (Mem.mk x.segs v_strms x.cs v_hbmUp v_starts v_logTurn v_ceAt v_bothAt v_logAt v_movers v_losLog) :=
  ⟨rfl, rfl, fun b => pick h_movers b, fun b => pick h_strms b, fun b => ⟨pick h_hbmUp b, pick h_starts b, pick h_logTurn b, pick h_ceAt b, pick h_bothAt b, pick h_logAt b, pick h_losLog b⟩⟩

/-- The part host of a state within a mask. -/
def HostOk (W : Nat) (x y : HostIf) : Prop :=
  y.queues = x.queues ∧
  (W.testBit Area.functions = false → y.fns = x.fns ∧ y.vfEnable = x.vfEnable) ∧
  (W.testBit Area.commands = false → y.flights = x.flights ∧ y.compl = x.compl ∧ y.fetches = x.fetches ∧ y.reads = x.reads ∧ y.writes = x.writes ∧ y.waiting = x.waiting)

theorem host_same {x : HostIf} : HostOk W x x := ⟨rfl, fun _ => ⟨rfl, rfl⟩, fun _ => ⟨rfl, rfl, rfl, rfl, rfl, rfl⟩⟩

theorem host_upd {x : HostIf} {v_fns v_vfEnable v_flights v_compl v_fetches v_reads v_writes v_waiting : _} (h_fns : v_fns = x.fns ∨ W.testBit Area.functions = true) (h_vfEnable : v_vfEnable = x.vfEnable ∨ W.testBit Area.functions = true) (h_flights : v_flights = x.flights ∨ W.testBit Area.commands = true) (h_compl : v_compl = x.compl ∨ W.testBit Area.commands = true) (h_fetches : v_fetches = x.fetches ∨ W.testBit Area.commands = true) (h_reads : v_reads = x.reads ∨ W.testBit Area.commands = true) (h_writes : v_writes = x.writes ∨ W.testBit Area.commands = true) (h_waiting : v_waiting = x.waiting ∨ W.testBit Area.commands = true) :
    HostOk W x (HostIf.mk x.queues v_fns v_vfEnable v_flights v_compl v_fetches v_reads v_writes v_waiting) :=
  ⟨rfl, fun b => ⟨pick h_fns b, pick h_vfEnable b⟩, fun b => ⟨pick h_flights b, pick h_compl b, pick h_fetches b, pick h_reads b, pick h_writes b, pick h_waiting b⟩⟩

/-- The part flt of a state within a mask. -/
def FltOk (W : Nat) (x y : Flt) : Prop :=
  y.srcs = x.srcs ∧
  (W.testBit Area.raises = false → y.reports = x.reports) ∧
  (W.testBit Area.collector = false → y.tests = x.tests ∧ y.retiring = x.retiring ∧ y.clearedOrder = x.clearedOrder ∧ y.latch = x.latch ∧ y.stCmd = x.stCmd ∧ y.wants = x.wants ∧ y.pendSw = x.pendSw ∧ y.noEng = x.noEng ∧ y.tempRet = x.tempRet)

theorem flt_same {x : Flt} : FltOk W x x := ⟨rfl, fun _ => rfl, fun _ => ⟨rfl, rfl, rfl, rfl, rfl, rfl, rfl, rfl, rfl⟩⟩

theorem flt_upd {x : Flt} {v_reports v_tests v_retiring v_clearedOrder v_latch v_stCmd v_wants v_pendSw v_noEng v_tempRet : _} (h_reports : v_reports = x.reports ∨ W.testBit Area.raises = true) (h_tests : v_tests = x.tests ∨ W.testBit Area.collector = true) (h_retiring : v_retiring = x.retiring ∨ W.testBit Area.collector = true) (h_clearedOrder : v_clearedOrder = x.clearedOrder ∨ W.testBit Area.collector = true) (h_latch : v_latch = x.latch ∨ W.testBit Area.collector = true) (h_stCmd : v_stCmd = x.stCmd ∨ W.testBit Area.collector = true) (h_wants : v_wants = x.wants ∨ W.testBit Area.collector = true) (h_pendSw : v_pendSw = x.pendSw ∨ W.testBit Area.collector = true) (h_noEng : v_noEng = x.noEng ∨ W.testBit Area.collector = true) (h_tempRet : v_tempRet = x.tempRet ∨ W.testBit Area.collector = true) :
    FltOk W x (Flt.mk x.srcs v_reports v_tests v_retiring v_clearedOrder v_latch v_stCmd v_wants v_pendSw v_noEng v_tempRet) :=
  ⟨rfl, fun b => pick h_reports b, fun b => ⟨pick h_tests b, pick h_retiring b, pick h_clearedOrder b, pick h_latch b, pick h_stCmd b, pick h_wants b, pick h_pendSw b, pick h_noEng b, pick h_tempRet b⟩⟩

theorem kept_upd {z : State} {v_out v_delayed v_free v_mem v_sites v_host v_dict v_flt v_tmus v_engs v_evts v_cal v_lvl v_clk v_mgmt v_pwr v_unitCmds : _} (h : Kept W s0 z) (h_mem : MemOk W z.mem v_mem) (h_host : HostOk W z.host v_host)
    (h_flt : FltOk W z.flt v_flt) (h_delayed : v_delayed = z.delayed ∨ W.testBit Area.delayed = true) (h_sites : v_sites = z.sites ∨ W.testBit Area.sites = true) (h_dict : v_dict = z.dict ∨ W.testBit Area.dict = true) (h_tmus : v_tmus = z.tmus ∨ W.testBit Area.tmus = true) (h_engs : v_engs = z.engs ∨ W.testBit Area.engs = true) (h_evts : v_evts = z.evts ∨ W.testBit Area.evts = true) (h_cal : v_cal = z.cal ∨ W.testBit Area.cal = true) (h_lvl : v_lvl = z.lvl ∨ W.testBit Area.lvl = true) (h_clk : v_clk = z.clk ∨ W.testBit Area.clk = true) (h_mgmt : v_mgmt = z.mgmt ∨ W.testBit Area.mgmt = true) (h_pwr : v_pwr = z.pwr ∨ W.testBit Area.pwr = true) (h_unitCmds : v_unitCmds = z.unitCmds ∨ W.testBit Area.unitCmds = true) :
    KeptMk W s0 z.now v_out z.pending v_delayed v_free z.od z.blobs v_mem v_sites v_host v_dict v_flt v_tmus v_engs v_evts z.mkLast v_cal v_lvl v_clk v_mgmt v_pwr v_unitCmds :=
  ⟨fun c => ⟨(h.can c).1, (h.can c).2.1, by rw [show v_mem.cs = z.mem.cs from h_mem.2.1]; exact (h.can c).2.2.1, by rw [show v_mem.segs = z.mem.segs from h_mem.1]; exact (h.can c).2.2.2.1,
    by rw [show v_host.queues = z.host.queues from h_host.1]; exact (h.can c).2.2.2.2.1, by rw [show v_flt.srcs = z.flt.srcs from h_flt.1]; exact (h.can c).2.2.2.2.2⟩, h.pending, h.now,
    ⟨h.frame.objects,
    h.frame.blobs,
    fun b => (h_mem.2.1).trans (h.frame.store b),
    fun b => ⟨(h_mem.1).trans (h.frame.segs b).1, ((h_mem.2.2.1 b)).trans (h.frame.segs b).2⟩,
    fun b => ((h_mem.2.2.2.1 b)).trans (h.frame.strms b),
    fun b => ⟨((h_mem.2.2.2.2 b).1).trans (h.frame.memory b).1, ((h_mem.2.2.2.2 b).2.1).trans (h.frame.memory b).2.1, ((h_mem.2.2.2.2 b).2.2.1).trans (h.frame.memory b).2.2.1, ((h_mem.2.2.2.2 b).2.2.2.1).trans (h.frame.memory b).2.2.2.1, ((h_mem.2.2.2.2 b).2.2.2.2.1).trans (h.frame.memory b).2.2.2.2.1, ((h_mem.2.2.2.2 b).2.2.2.2.2.1).trans (h.frame.memory b).2.2.2.2.2.1, ((h_mem.2.2.2.2 b).2.2.2.2.2.2).trans (h.frame.memory b).2.2.2.2.2.2⟩,
    fun b => (pick h_sites b).trans (h.frame.sites b),
    fun b => (h_host.1).trans (h.frame.queues b),
    fun b => ⟨((h_host.2.1 b).1).trans (h.frame.functions b).1, ((h_host.2.1 b).2).trans (h.frame.functions b).2⟩,
    fun b => ⟨((h_host.2.2 b).1).trans (h.frame.commands b).1, ((h_host.2.2 b).2.1).trans (h.frame.commands b).2.1, ((h_host.2.2 b).2.2.1).trans (h.frame.commands b).2.2.1, ((h_host.2.2 b).2.2.2.1).trans (h.frame.commands b).2.2.2.1, ((h_host.2.2 b).2.2.2.2.1).trans (h.frame.commands b).2.2.2.2.1, ((h_host.2.2 b).2.2.2.2.2).trans (h.frame.commands b).2.2.2.2.2⟩,
    fun b => (pick h_dict b).trans (h.frame.dict b),
    fun b => ((h_flt.2.1 b)).trans (h.frame.raises b),
    fun b => ⟨(h_flt.1).trans (h.frame.collector b).1, ((h_flt.2.2 b).1).trans (h.frame.collector b).2.1, ((h_flt.2.2 b).2.1).trans (h.frame.collector b).2.2.1, ((h_flt.2.2 b).2.2.1).trans (h.frame.collector b).2.2.2.1, ((h_flt.2.2 b).2.2.2.1).trans (h.frame.collector b).2.2.2.2.1, ((h_flt.2.2 b).2.2.2.2.1).trans (h.frame.collector b).2.2.2.2.2.1, ((h_flt.2.2 b).2.2.2.2.2.1).trans (h.frame.collector b).2.2.2.2.2.2.1, ((h_flt.2.2 b).2.2.2.2.2.2.1).trans (h.frame.collector b).2.2.2.2.2.2.2.1, ((h_flt.2.2 b).2.2.2.2.2.2.2.1).trans (h.frame.collector b).2.2.2.2.2.2.2.2.1, ((h_flt.2.2 b).2.2.2.2.2.2.2.2).trans (h.frame.collector b).2.2.2.2.2.2.2.2.2⟩,
    fun b => (pick h_tmus b).trans (h.frame.tmus b),
    fun b => (pick h_engs b).trans (h.frame.engs b),
    fun b => (pick h_evts b).trans (h.frame.evts b),
    fun b => (pick h_cal b).trans (h.frame.cal b),
    fun b => (pick h_lvl b).trans (h.frame.lvl b),
    fun b => (pick h_clk b).trans (h.frame.clk b),
    fun b => (pick h_mgmt b).trans (h.frame.mgmt b),
    fun b => (pick h_pwr b).trans (h.frame.pwr b),
    fun b => (pick h_unitCmds b).trans (h.frame.unitCmds b),
    fun b => (pick h_delayed b).trans (h.frame.delayed b),
    h.frame.marks⟩⟩

theorem kept_ite {c : Prop} [Decidable c] {s t : State} (hs : Kept W s0 s) (ht : Kept W s0 t) :
    Kept W s0 (if c then s else t) := by split <;> assumption

theorem kept_foldl {α : Type} (l : List α) (g : State → α → State) (hg : ∀ s x, x ∈ l → Kept W s0 s → Kept W s0 (g s x)) :
    ∀ s, Kept W s0 s → Kept W s0 (l.foldl g s) := by
  induction l with
  | nil => intro s h; exact h
  | cons a r ih =>
    intro s h
    exact ih (fun s x hx => hg s x (List.mem_cons_of_mem _ hx)) _ (hg _ _ List.mem_cons_self h)

theorem kept_foldlp {α β : Type} (l : List α) (g : β × State → α → β × State)
    (hg : ∀ s x, x ∈ l → Kept W s0 s.2 → Kept W s0 (g s x).2) : ∀ s, Kept W s0 s.2 → Kept W s0 (l.foldl g s).2 := by
  induction l with
  | nil => intro s h; exact h
  | cons a r ih =>
    intro s h
    exact ih (fun s x hx => hg s x (List.mem_cons_of_mem _ hx)) _ (hg _ _ List.mem_cons_self h)

theorem kept_snd {α : Type} {p : α × State} {a : α} {s : State} (h : p = (a, s)) (hp : Kept W s0 p.2) : Kept W s0 s := by
  subst h; exact hp

theorem kept_fst {α : Type} {p : State × α} {a : α} {s : State} (h : p = (s, a)) (hp : Kept W s0 p.1) : Kept W s0 s := by
  subst h; exact hp

theorem kept_optp {α : Type} {p : Option (α × State)} {a : α} {s : State} (h : p = some (a, s))
    (hp : ∀ r, p = some r → Kept W s0 r.2) : Kept W s0 s := hp _ h

theorem st_p_kept (s : State) (k : Nat) (v : Int) (hk : May W k) (h : Kept W s0 s) : Kept W s0 (s.p k v) :=
  ⟨fun c => ⟨Store_wf_write (h.can c).1 k v, (h.can c).2⟩, h.pending, h.now, ⟨fun j hj ha => (by
    rw [g_p]
    split
    · rename_i e
      subst e
      rcases hk with hk | hk
      · rw [hj] at hk; cases hk
      · rw [ha] at hk; cases hk
    · exact h.frame.objects j hj ha), h.frame.blobs, h.frame.store, h.frame.segs, h.frame.strms, h.frame.memory, h.frame.sites, h.frame.queues, h.frame.functions, h.frame.commands, h.frame.dict, h.frame.raises, h.frame.collector, h.frame.tmus, h.frame.engs, h.frame.evts, h.frame.cal, h.frame.lvl, h.frame.clk, h.frame.mgmt, h.frame.pwr, h.frame.unitCmds, h.frame.delayed, h.frame.marks⟩⟩

theorem st_putBlob_kept (s : State) (k : Nat) (l : List Byte) (hb : W.testBit Area.blobs = true) (h : Kept W s0 s) :
    Kept W s0 (s.putBlob k l) := by
  refine ⟨fun c => ?_, h.pending, h.now, ⟨h.frame.objects, fun e => (by rw [hb] at e; cases e), h.frame.store, h.frame.segs, h.frame.strms, h.frame.memory, h.frame.sites, h.frame.queues, h.frame.functions, h.frame.commands, h.frame.dict, h.frame.raises, h.frame.collector, h.frame.tmus, h.frame.engs, h.frame.evts, h.frame.cal, h.frame.lvl, h.frame.clk, h.frame.mgmt, h.frame.pwr, h.frame.unitCmds, h.frame.delayed, h.frame.marks⟩⟩
  have h_s := h.can c
  refine ⟨h_s.1, ?_, h_s.2.2⟩
  have h := h_s.2.1
  unfold Blobs.wf at h ⊢
  simp only [Bool.and_eq_true, List.all_eq_true] at h
  simp only [State.putBlob, Bool.and_eq_true, List.all_eq_true]
  split
  · exact ⟨ksorted_kdel h.1 k, fun e he => h.2 e (mem_kdel he)⟩
  · rename_i hl
    refine ⟨ksorted_kput h.1 k l, fun e he => ?_⟩
    rcases mem_kput he with rfl | he
    · simpa [List.isEmpty_iff] using hl
    · exact h.2 e he

theorem st_setSeg_kept (s : State) (n : Nat) (x : Seg) (hb : W.testBit Area.segs = true) (h : Kept W s0 s) :
    Kept W s0 (s.setSeg n x) :=
  ⟨fun c => by
    obtain ⟨a1, a2, a3, a4, a5, a6⟩ := h.can c
    exact ⟨a1, a2, a3, ksorted_kput a4 n x, a5, a6⟩, h.pending, h.now, ⟨h.frame.objects, h.frame.blobs, h.frame.store, fun e => (by rw [hb] at e; cases e), h.frame.strms, h.frame.memory, h.frame.sites, h.frame.queues, h.frame.functions, h.frame.commands, h.frame.dict, h.frame.raises, h.frame.collector, h.frame.tmus, h.frame.engs, h.frame.evts, h.frame.cal, h.frame.lvl, h.frame.clk, h.frame.mgmt, h.frame.pwr, h.frame.unitCmds, h.frame.delayed, h.frame.marks⟩⟩

theorem st_delSeg_kept (s : State) (n : Nat) (hb : W.testBit Area.segs = true) (h : Kept W s0 s) :
    Kept W s0 (s.delSeg n) :=
  ⟨fun c => by
    obtain ⟨a1, a2, a3, a4, a5, a6⟩ := h.can c
    exact ⟨a1, a2, a3, ksorted_kdel a4 n, a5, a6⟩, h.pending, h.now, ⟨h.frame.objects, h.frame.blobs, h.frame.store, fun e => (by rw [hb] at e; cases e), h.frame.strms, h.frame.memory, h.frame.sites, h.frame.queues, h.frame.functions, h.frame.commands, h.frame.dict, h.frame.raises, h.frame.collector, h.frame.tmus, h.frame.engs, h.frame.evts, h.frame.cal, h.frame.lvl, h.frame.clk, h.frame.mgmt, h.frame.pwr, h.frame.unitCmds, h.frame.delayed, h.frame.marks⟩⟩

theorem st_setQueue_kept (s : State) (n : Nat) (x : Queue) (hb : W.testBit Area.queues = true) (h : Kept W s0 s) :
    Kept W s0 (s.setQueue n x) :=
  ⟨fun c => by
    obtain ⟨a1, a2, a3, a4, a5, a6⟩ := h.can c
    exact ⟨a1, a2, a3, a4, ksorted_kput a5 n x, a6⟩, h.pending, h.now, ⟨h.frame.objects, h.frame.blobs, h.frame.store, h.frame.segs, h.frame.strms, h.frame.memory, h.frame.sites, fun e => (by rw [hb] at e; cases e), h.frame.functions, h.frame.commands, h.frame.dict, h.frame.raises, h.frame.collector, h.frame.tmus, h.frame.engs, h.frame.evts, h.frame.cal, h.frame.lvl, h.frame.clk, h.frame.mgmt, h.frame.pwr, h.frame.unitCmds, h.frame.delayed, h.frame.marks⟩⟩

theorem kept_delQueue (s : State) (n : Nat) (hb : W.testBit Area.queues = true) (h : Kept W s0 s) :
    Kept W s0 ({ s with host := { s.host with queues := kdel s.host.queues n } }) :=
  ⟨fun c => by
    obtain ⟨a1, a2, a3, a4, a5, a6⟩ := h.can c
    exact ⟨a1, a2, a3, a4, ksorted_kdel a5 n, a6⟩, h.pending, h.now, ⟨h.frame.objects, h.frame.blobs, h.frame.store, h.frame.segs, h.frame.strms, h.frame.memory, h.frame.sites, fun e => (by rw [hb] at e; cases e), h.frame.functions, h.frame.commands, h.frame.dict, h.frame.raises, h.frame.collector, h.frame.tmus, h.frame.engs, h.frame.evts, h.frame.cal, h.frame.lvl, h.frame.clk, h.frame.mgmt, h.frame.pwr, h.frame.unitCmds, h.frame.delayed, h.frame.marks⟩⟩

theorem kept_cs (s : State) (m : KMap MWord) (hm : Canonical s0 → ksorted m = true) (hb : W.testBit Area.store = true) (h : Kept W s0 s) :
    Kept W s0 (s.setCs m) :=
  ⟨fun c => by
    obtain ⟨a1, a2, a3, a4, a5, a6⟩ := h.can c
    exact ⟨a1, a2, hm c, a4, a5, a6⟩, h.pending, h.now, ⟨h.frame.objects, h.frame.blobs, fun e => (by rw [hb] at e; cases e), h.frame.segs, h.frame.strms, h.frame.memory, h.frame.sites, h.frame.queues, h.frame.functions, h.frame.commands, h.frame.dict, h.frame.raises, h.frame.collector, h.frame.tmus, h.frame.engs, h.frame.evts, h.frame.cal, h.frame.lvl, h.frame.clk, h.frame.mgmt, h.frame.pwr, h.frame.unitCmds, h.frame.delayed, h.frame.marks⟩⟩

theorem kept_queuesTo (s : State) (m : KMap Queue) (hm : Canonical s0 → ksorted m = true) (hb : W.testBit Area.queues = true) (h : Kept W s0 s) :
    Kept W s0 ({ s with host := { s.host with queues := m } }) :=
  ⟨fun c => by
    obtain ⟨a1, a2, a3, a4, a5, a6⟩ := h.can c
    exact ⟨a1, a2, a3, a4, hm c, a6⟩, h.pending, h.now, ⟨h.frame.objects, h.frame.blobs, h.frame.store, h.frame.segs, h.frame.strms, h.frame.memory, h.frame.sites, fun e => (by rw [hb] at e; cases e), h.frame.functions, h.frame.commands, h.frame.dict, h.frame.raises, h.frame.collector, h.frame.tmus, h.frame.engs, h.frame.evts, h.frame.cal, h.frame.lvl, h.frame.clk, h.frame.mgmt, h.frame.pwr, h.frame.unitCmds, h.frame.delayed, h.frame.marks⟩⟩

theorem kept_src (s : State) (n : Nat) (x : SrcStat) (hb : W.testBit Area.collector = true) (h : Kept W s0 s) :
    Kept W s0 ({ s with flt := { s.flt with srcs := kput s.flt.srcs n x } }) :=
  ⟨fun c => by
    obtain ⟨a1, a2, a3, a4, a5, a6⟩ := h.can c
    exact ⟨a1, a2, a3, a4, a5, ksorted_kput a6 n x⟩, h.pending, h.now, ⟨h.frame.objects, h.frame.blobs, h.frame.store, h.frame.segs, h.frame.strms, h.frame.memory, h.frame.sites, h.frame.queues, h.frame.functions, h.frame.commands, h.frame.dict, h.frame.raises, fun e => (by rw [hb] at e; cases e), h.frame.tmus, h.frame.engs, h.frame.evts, h.frame.cal, h.frame.lvl, h.frame.clk, h.frame.mgmt, h.frame.pwr, h.frame.unitCmds, h.frame.delayed, h.frame.marks⟩⟩

theorem krising_zipIdx {α β : Type} (f : (Nat × α) × Nat → β) (m : KMap α) :
    ∀ (n : Nat) (o : Option Nat), krising o ((m.zipIdx n).map (fun x => (x.1.1, f x))) = krising o m := by
  induction m with
  | nil => intro n o; cases o <;> rfl
  | cons a r ih => intro n o; cases o <;> simp [krising, List.zipIdx_cons, ih]

theorem ksorted_zipIdx {α β : Type} (f : (Nat × α) × Nat → β) (m : KMap α) (n : Nat) :
    ksorted ((m.zipIdx n).map (fun x => (x.1.1, f x))) = ksorted m := krising_zipIdx f m n none

theorem lt_of_find {n j : Nat} {p : Nat → Bool} (h : (List.range n).find? p = some j) : j < n :=
  List.mem_range.1 (List.mem_of_find?_eq_some h)

theorem lt_of_mem {n j : Nat} (h : j ∈ List.range n) : j < n := List.mem_range.1 h

end Sys2Proof.Laws
end

