-- ==== Sys2Proof/Laws/KeptOps.lean ====
section
/-! SUPPORT. One lemma per operation of Machine/Ops.lean: within which mask of parts it keeps the rest; a command's meaning
answers a next state that is so kept. The numeral of a mask has the bits of Area. -/
namespace Sys2Proof.Laws
open Sys2Proof Sys2Proof.Machine
variable {W : Nat} {s0 : State}

theorem st_incSat_kept (s : State) (k : Nat) (max : Int) (_hw : Sub 0x0 W) (hk : May W k) (h_s : Kept W s0 s) :
    Kept W s0 (State.incSat s k max) := by
  unfold State.incSat
  try dsimp only
  repeat' first
    | with_reducible assumption
    | (with_reducible refine st_p_kept _ _ _ ?_ ?_)

theorem st_sat32_kept (s : State) (k : Nat) (hw : Sub 0x0 W) (hk : May W k) (h_s : Kept W s0 s) :
    Kept W s0 (State.sat32 s k) := by
  unfold State.sat32
  try dsimp only
  repeat' first
    | with_reducible assumption
    | (with_reducible refine st_incSat_kept _ _ _ (Sub.trans (by decide) hw) ?_ ?_ )

theorem st_advance_kept (s : State) (_hw : Sub 0x0 W) (h_s : Kept W s0 s) :
    Kept W s0 (State.advance s) := by
  unfold State.advance
  try dsimp only
  repeat' first
    | with_reducible assumption
    | with_reducible exact same
    | with_reducible exact mem_same
    | with_reducible exact host_same
    | with_reducible exact flt_same
    | simp only [kept_mk]
    | with_reducible apply kept_upd

theorem st_count_kept (s : State) (k : Nat) (max : Int) (hw : Sub 0x0 W) (hk : May W k) (h_s : Kept W s0 s) :
    Kept W s0 (State.count s k max) := by
  unfold State.count
  try dsimp only
  repeat' first
    | with_reducible assumption
    | (with_reducible refine st_p_kept _ _ _ ?_ ?_)
    | (with_reducible refine st_advance_kept _ (Sub.trans (by decide) hw) ?_ )
    | with_reducible apply kept_ite

theorem st_cnt32_kept (s : State) (k : Nat) (hw : Sub 0x0 W) (hk : May W k) (h_s : Kept W s0 s) :
    Kept W s0 (State.cnt32 s k) := by
  unfold State.cnt32
  try dsimp only
  repeat' first
    | with_reducible assumption
    | (with_reducible refine st_count_kept _ _ _ (Sub.trans (by decide) hw) ?_ ?_ )

theorem st_cnt64_kept (s : State) (k : Nat) (hw : Sub 0x0 W) (hk : May W k) (h_s : Kept W s0 s) :
    Kept W s0 (State.cnt64 s k) := by
  unfold State.cnt64
  try dsimp only
  repeat' first
    | with_reducible assumption
    | (with_reducible refine st_count_kept _ _ _ (Sub.trans (by decide) hw) ?_ ?_ )

theorem st_emit_kept (s : State) (o : Output) (_hw : Sub 0x0 W) (h_s : Kept W s0 s) :
    Kept W s0 (State.emit s o) := by
  unfold State.emit
  try dsimp only
  repeat' first
    | with_reducible assumption
    | with_reducible exact same
    | with_reducible exact mem_same
    | with_reducible exact host_same
    | with_reducible exact flt_same
    | simp only [kept_mk]
    | with_reducible apply kept_upd

theorem st_emits_kept (s : State) (l : List Output) (_hw : Sub 0x0 W) (h_s : Kept W s0 s) :
    Kept W s0 (State.emits s l) := by
  unfold State.emits
  try dsimp only
  repeat' first
    | with_reducible assumption
    | with_reducible exact same
    | with_reducible exact mem_same
    | with_reducible exact host_same
    | with_reducible exact flt_same
    | simp only [kept_mk]
    | with_reducible apply kept_upd

theorem st_fresh_kept (s : State) (_hw : Sub 0x0 W) (h_s : Kept W s0 s) :
    Kept W s0 (State.fresh s) := by
  unfold State.fresh
  try dsimp only
  repeat' first
    | with_reducible assumption
    | with_reducible exact same
    | with_reducible exact mem_same
    | with_reducible exact host_same
    | with_reducible exact flt_same
    | simp only [kept_mk]
    | with_reducible apply kept_upd

theorem st_setSite_kept (s : State) (i : SiteId) (x : Site) (hw : Sub 0x2000000000000000000000000000 W) (h_s : Kept W s0 s) :
    Kept W s0 (State.setSite s i x) := by
  unfold State.setSite
  try dsimp only
  repeat' first
    | with_reducible assumption
    | with_reducible exact same
    | with_reducible exact mem_same
    | with_reducible exact host_same
    | with_reducible exact flt_same
    | exact .inr (hw.bit (by decide))
    | simp only [kept_mk]
    | with_reducible apply kept_upd

theorem st_modSite_kept (s : State) (i : SiteId) (f : Site → Site)
    (hw : Sub 0x2000000000000000000000000000 W) (h_s : Kept W s0 s) :
    Kept W s0 (State.modSite s i f) := by
  unfold State.modSite
  try dsimp only
  repeat' first
    | with_reducible assumption
    | (with_reducible refine st_setSite_kept _ _ _ (Sub.trans (by decide) hw) ?_ )

theorem st_setCalBank_kept (s : State) (b : BankId) (x : CalBank)
    (hw : Sub 0x800000000000000000000000000000 W) (h_s : Kept W s0 s) :
    Kept W s0 (State.setCalBank s b x) := by
  unfold State.setCalBank
  try dsimp only
  repeat' first
    | with_reducible assumption
    | with_reducible exact same
    | with_reducible exact mem_same
    | with_reducible exact host_same
    | with_reducible exact flt_same
    | exact .inr (hw.bit (by decide))
    | simp only [kept_mk]
    | with_reducible apply kept_upd

theorem cancelJobs_kept (b : BankId) (s : State) (hw : Sub 0x820000000000000000000000000000 W) (h_s : Kept W s0 s) :
    Kept W s0 (cancelJobs b s) := by
  unfold cancelJobs
  try dsimp only
  repeat' first
    | with_reducible assumption
    | with_reducible exact same
    | with_reducible exact mem_same
    | with_reducible exact host_same
    | with_reducible exact flt_same
    | exact .inr (hw.bit (by decide))
    | simp only [kept_mk]
    | with_reducible apply kept_upd

theorem st_setStrm_kept (s : State) (n : StreamId) (x : Strm) (hw : Sub 0x800000000000000000000000000 W) (h_s : Kept W s0 s) :
    Kept W s0 (State.setStrm s n x) := by
  unfold State.setStrm
  try dsimp only
  repeat' first
    | with_reducible assumption
    | with_reducible exact same
    | with_reducible exact host_same
    | with_reducible exact flt_same
    | with_reducible apply mem_upd
    | exact .inr (hw.bit (by decide))
    | simp only [kept_mk]
    | with_reducible apply kept_upd

theorem st_setFn_kept (s : State) (f : FnId) (x : Fn) (hw : Sub 0x8000000000000000000000000000 W) (h_s : Kept W s0 s) :
    Kept W s0 (State.setFn s f x) := by
  unfold State.setFn
  try dsimp only
  repeat' first
    | with_reducible assumption
    | with_reducible exact same
    | with_reducible exact mem_same
    | with_reducible exact flt_same
    | with_reducible apply host_upd
    | exact .inr (hw.bit (by decide))
    | simp only [kept_mk]
    | with_reducible apply kept_upd

theorem eachSite_kept (f : SiteId → State → State) (m : SiteMask) (s : State)
    (_hw : Sub 0x0 W) (h_f : ∀ a0 s, Kept W s0 s → Kept W s0 (f a0 s)) (h_s : Kept W s0 s) :
    Kept W s0 (eachSite f m s) := by
  unfold eachSite
  try dsimp only
  repeat' first
    | with_reducible assumption
    | intro _
    | apply h_f
    | with_reducible apply kept_foldl

theorem st_served_kept (s : State) (d : Dom) (c : Instr) (f : State → Host.Outcome State Fault Refusal)
    (hw : Sub 0x20000000000000000000000000000000 W)
    (h_s : Kept W s0 s) (hf : ∀ s, Kept W s0 s → ∃ t, f s = .next t ∧ Kept W s0 t) : ∃ t, s.served d c f = .next t ∧ Kept W s0 t := by
  unfold State.served
  split
  · exact hf s h_s
  · split
    · refine ⟨_, rfl, ?_⟩
      simp only [kept_mk]
      apply kept_upd (st_fresh_kept _ (Sub.trans (by decide) hw) h_s)
      repeat' first
        | with_reducible exact mem_same
        | with_reducible exact host_same
        | with_reducible exact flt_same
        | with_reducible exact same
        | exact .inr (hw.bit (by decide))
    · exact ⟨_, rfl, st_fresh_kept _ (Sub.trans (by decide) hw) h_s⟩

theorem st_timed_kept (s : State) (f : State → State)
    (_hw : Sub 0x0 W) (h_s : Kept W s0 s) (h_f : ∀  s, Kept W s0 s → Kept W s0 (f  s)) :
    Kept W s0 (State.timed s f) := by
  unfold State.timed
  try dsimp only
  repeat' first
    | with_reducible assumption
    | apply h_f
    | with_reducible apply kept_ite

theorem st_report_kept (s : State) (src : Nat) (sites : SiteMask) (detail : Nat)
    (hw : Sub 0x40000000000000000000000000000 W) (h_s : Kept W s0 s) :
    Kept W s0 (State.report s src sites detail) := by
  unfold State.report
  try dsimp only
  repeat' first
    | with_reducible assumption
    | with_reducible apply kept_ite
    | with_reducible exact same
    | with_reducible exact mem_same
    | with_reducible exact host_same
    | with_reducible apply flt_upd
    | exact .inr (hw.bit (by decide))
    | simp only [kept_mk]
    | with_reducible apply kept_upd

theorem st_raiseSite_kept (s : State) (src : Nat) (i : SiteId) (hw : Sub 0x40000000000000000000000000000 W) (h_s : Kept W s0 s) :
    Kept W s0 (State.raiseSite s src i) := by
  unfold State.raiseSite
  try dsimp only
  repeat' first
    | with_reducible assumption
    | (with_reducible refine st_report_kept _ _ _ _ (Sub.trans (by decide) hw) ?_ )

theorem st_raise_kept (s : State) (src : Nat) (hw : Sub 0x40000000000000000000000000000 W) (h_s : Kept W s0 s) :
    Kept W s0 (State.raise s src) := by
  unfold State.raise
  try dsimp only
  repeat' first
    | with_reducible assumption
    | (with_reducible refine st_report_kept _ _ _ _ (Sub.trans (by decide) hw) ?_ )

theorem st_activate_kept (s : State) (src : Nat) (sites : SiteMask) (detail : Nat)
    (hw : Sub 0xc0000000000000000000000000000 W) (h_s : Kept W s0 s) :
    Kept W s0 (State.activate s src sites detail) := by
  unfold State.activate
  dsimp only
  split
  · exact h_s
  · have h1 := kept_src s src { kgetD s.flt.srcs src {} with active := true } (hw.bit (by decide)) h_s
    simp only [kept_mk]
    apply kept_upd h1
    repeat' first
      | with_reducible exact mem_same
      | with_reducible exact host_same
      | with_reducible exact flt_same
      | with_reducible apply mem_upd
      | with_reducible apply host_upd
      | with_reducible apply flt_upd
      | with_reducible exact mem_same
      | with_reducible exact host_same
      | with_reducible exact flt_same
      | with_reducible apply mem_upd
      | with_reducible apply host_upd
      | with_reducible apply flt_upd
      | with_reducible exact same
      | exact .inr (hw.bit (by decide))

theorem st_deactivate_kept (s : State) (src : Nat) (hw : Sub 0x80000000000000000000000000000 W) (h_s : Kept W s0 s) :
    Kept W s0 (State.deactivate s src) := by
  unfold State.deactivate
  dsimp only
  split
  · exact h_s
  · exact kept_src s src _ (hw.bit (by decide)) h_s

theorem st_event_kept (s : State) (i : SiteId) (kind cycle data : Nat)
    (hw : Sub 0x42000000000000000000000000080 W) (h_s : Kept W s0 s) :
    Kept W s0 (State.event s i kind cycle data) := by
  unfold State.event
  try dsimp only
  repeat' first
    | with_reducible assumption
    | (with_reducible refine st_sat32_kept _ _ (Sub.trans (by decide) hw) ?_ ?_ )
    | (with_reducible refine st_setSite_kept _ _ _ (Sub.trans (by decide) hw) ?_ )
    | (with_reducible refine st_raise_kept _ _ (Sub.trans (by decide) hw) ?_ )
    | with_reducible apply kept_ite
    | (with_reducible refine may_se (hw.bit (by decide)) _ _ ?_ ?_)
    | exact Fin.isLt _
    | decide

theorem st_setSt_kept (s : State) (i : SiteId) (st : Nat) (hw : Sub 0x42000000000000000000000010080 W) (h_s : Kept W s0 s) :
    Kept W s0 (State.setSt s i st) := by
  unfold State.setSt
  try dsimp only
  repeat' first
    | with_reducible assumption
    | (with_reducible refine st_p_kept _ _ _ ?_ ?_)
    | (with_reducible refine st_event_kept _ _ _ _ _ (Sub.trans (by decide) hw) ?_ )
    | with_reducible apply kept_ite
    | (with_reducible refine may_st (hw.bit (by decide)) _ _ ?_ ?_)
    | exact Fin.isLt _
    | decide

theorem st_complete_kept (s : State) (t : Tag) (status result : Nat)
    (hw : Sub 0x10000000000000000000000000000 W) (h_s : Kept W s0 s) :
    Kept W s0 (State.complete s t status result) := by
  unfold State.complete
  try dsimp only
  repeat' first
    | with_reducible assumption
    | with_reducible exact same
    | with_reducible exact mem_same
    | with_reducible exact flt_same
    | with_reducible apply host_upd
    | exact .inr (hw.bit (by decide))
    | simp only [kept_mk]
    | with_reducible apply kept_upd

theorem st_refuse_kept (s : State) (t : Tag) (status : Nat) (hw : Sub 0x10000000000000000000000000000 W) (h_s : Kept W s0 s) :
    Kept W s0 (State.refuse s t status) := by
  unfold State.refuse
  try dsimp only
  repeat' first
    | with_reducible assumption
    | (with_reducible refine st_complete_kept _ _ _ _ (Sub.trans (by decide) hw) ?_ )

theorem st_inRange_kept (s : State) (t : Tag) (ok : Bool) (f : State → State)
    (hw : Sub 0x10000000000000000000000000000 W) (h_s : Kept W s0 s) (h_f : ∀  s, Kept W s0 s → Kept W s0 (f  s)) :
    Kept W s0 (State.inRange s t ok f) := by
  unfold State.inRange
  try dsimp only
  repeat' first
    | with_reducible assumption
    | apply h_f
    | (with_reducible refine st_refuse_kept _ _ _ (Sub.trans (by decide) hw) ?_ )
    | with_reducible apply kept_ite

theorem st_toHost_kept (s : State) (t : Tag) (d : List Byte) (hw : Sub 0x10000000000000000000000000000 W) (h_s : Kept W s0 s) :
    Kept W s0 (State.toHost s t d) := by
  unfold State.toHost
  try dsimp only
  repeat' first
    | with_reducible assumption
    | with_reducible exact same
    | with_reducible exact mem_same
    | with_reducible exact flt_same
    | with_reducible apply host_upd
    | exact .inr (hw.bit (by decide))
    | simp only [kept_mk]
    | with_reducible apply kept_upd

theorem st_fromHost_kept (s : State) (t : Tag) (n : Nat) (hw : Sub 0x18000000000000000000000000000 W) (h_s : Kept W s0 s) :
    Kept W s0 (State.fromHost s t n) := by
  unfold State.fromHost
  try dsimp only
  repeat' first
    | with_reducible assumption
    | (with_reducible refine st_setFn_kept _ _ _ (Sub.trans (by decide) hw) ?_ )
    | with_reducible exact same
    | with_reducible exact mem_same
    | with_reducible exact flt_same
    | with_reducible apply host_upd
    | exact .inr (hw.bit (by decide))
    | simp only [kept_mk]
    | with_reducible apply kept_upd

theorem st_take_kept (s : State) (t : Tag) (hw : Sub 0x10000000000000000000000000000 W) (h_s : Kept W s0 s) :
    Kept W s0 (State.take s t) := by
  unfold State.take
  try dsimp only
  repeat' first
    | with_reducible assumption
    | with_reducible exact same
    | with_reducible exact mem_same
    | with_reducible exact flt_same
    | with_reducible apply host_upd
    | exact .inr (hw.bit (by decide))
    | simp only [kept_mk]
    | with_reducible apply kept_upd

theorem st_queued_kept (s : State) (t : Tag) (d : Dom) (c : Instr) (f : State → Host.Outcome State Fault Refusal)
    (hw : Sub 0x20010000000000000000000000000000 W)
    (h_s : Kept W s0 s) (hf : ∀ s, Kept W s0 s → ∃ t, f s = .next t ∧ Kept W s0 t) : ∃ u, s.queued t d c f = .next u ∧ Kept W s0 u := by
  unfold State.queued
  refine st_served_kept _ _ _ _ (Sub.trans (by decide) hw) h_s fun s h => ?_
  split
  · exact hf _ (st_take_kept _ _ (Sub.trans (by decide) hw) h)
  · exact ⟨_, rfl, st_fresh_kept _ (Sub.trans (by decide) hw) h⟩

theorem st_either_kept (s : State) (t : Option Tag) (d : Dom) (c : Instr) (f : State → Host.Outcome State Fault Refusal)
    (hw : Sub 0x20010000000000000000000000000000 W)
    (h_s : Kept W s0 s) (hf : ∀ s, Kept W s0 s → ∃ t, f s = .next t ∧ Kept W s0 t) : ∃ u, s.either t d c f = .next u ∧ Kept W s0 u := by
  unfold State.either
  split
  · exact st_queued_kept _ _ _ _ _ (Sub.trans (by decide) hw) h_s hf
  · exact st_served_kept _ _ _ _ (Sub.trans (by decide) hw) h_s hf

theorem releaseRef_kept (s : State) (r : Bool × Nat) (hw : Sub 0xc00000000000000000200000000 W) (h_s : Kept W s0 s) :
    Kept W s0 (releaseRef s r) := by
  unfold releaseRef
  try dsimp only
  repeat' first
    | with_reducible assumption
    | (with_reducible refine st_p_kept _ _ _ ?_ ?_)
    | (with_reducible refine st_setSeg_kept _ _ _ (hw.bit (by decide)) ?_)
    | (with_reducible refine st_setStrm_kept _ _ _ (Sub.trans (by decide) hw) ?_ )
    | (with_reducible refine may_sm (hw.bit (by decide)) _ _ ?_ ?_)
    | decide
    | split

theorem st_releaseRefs_kept (s : State) (i : SiteId) (hw : Sub 0x2c00000000000000000200000000 W) (h_s : Kept W s0 s) :
    Kept W s0 (State.releaseRefs s i) := by
  unfold State.releaseRefs
  try dsimp only
  repeat' first
    | with_reducible assumption
    | intro _
    | (with_reducible refine st_modSite_kept _ _ _ (Sub.trans (by decide) hw) ?_ )
    | (with_reducible refine releaseRef_kept _ _ (Sub.trans (by decide) hw) ?_ )
    | with_reducible apply kept_foldl

theorem st_releaseRes_kept (s : State) (i : SiteId) (hw : Sub 0x2000000000000000000080000000 W) (h_s : Kept W s0 s) :
    Kept W s0 (State.releaseRes s i) := by
  unfold State.releaseRes
  try dsimp only
  repeat' first
    | with_reducible assumption
    | (with_reducible refine st_p_kept _ _ _ ?_ ?_)
    | (with_reducible refine st_modSite_kept _ _ _ (Sub.trans (by decide) hw) ?_ )
    | (with_reducible refine may_md (hw.bit (by decide)) _ _ ?_ ?_)
    | exact Fin.isLt _
    | decide

end Sys2Proof.Laws
end

