-- ==== Sys2Proof/Laws/KeptDrive.lean ====
section
/-! SUPPORT. One lemma per operation of Machine/Drive.lean: within which mask of parts it keeps the rest; a command's meaning
answers a next state that is so kept. The numeral of a mask has the bits of Area. -/
namespace Sys2Proof.Laws
open Sys2Proof Sys2Proof.Machine
variable {W : Nat} {s0 : State}

theorem putMem_kept (s : State) (e : MemE) (hw : Sub 0x8000000000 W) (h_s : Kept W s0 s) :
    Kept W s0 (putMem s e) := by
  unfold putMem
  try dsimp only
  repeat' first
    | with_reducible assumption
    | (with_reducible refine st_p_kept _ _ _ ?_ ?_)
    | (with_reducible refine may_ch (hw.bit (by decide)) _ _ ?_ ?_)
    | exact Fin.isLt _
    | decide

theorem pend_kept (i : SiteId) (l : List Placed) (s : State) (hw : Sub 0x2000000000000000000000000000 W) (h_s : Kept W s0 s) :
    Kept W s0 (pend i l s) := by
  unfold pend
  try dsimp only
  repeat' first
    | with_reducible assumption
    | (with_reducible refine st_modSite_kept _ _ _ (Sub.trans (by decide) hw) ?_ )

theorem fireDue_kept (s : State) (i : SiteId) (hw : Sub 0x2000000000000000008000000000 W) (h_s : Kept W s0 s) :
    Kept W s0 (fireDue s i) := by
  unfold fireDue
  try dsimp only
  repeat' first
    | with_reducible assumption
    | intro _
    | (with_reducible refine st_emits_kept _ _ (Sub.trans (by decide) hw) ?_ )
    | (with_reducible refine st_setSite_kept _ _ _ (Sub.trans (by decide) hw) ?_ )
    | (with_reducible refine putMem_kept _ _ (Sub.trans (by decide) hw) ?_ )
    | with_reducible apply kept_foldl

theorem fireAll_kept (s : State) (hw : Sub 0x2000000000000000008000000000 W) (h_s : Kept W s0 s) :
    Kept W s0 (fireAll s) := by
  unfold fireAll
  try dsimp only
  repeat' first
    | with_reducible assumption
    | intro _
    | (with_reducible refine fireDue_kept _ _ (Sub.trans (by decide) hw) ?_ )
    | with_reducible apply kept_foldl

theorem lanes_kept (i : SiteId) (m : Store) (l : List Placed) (s : State)
    (hw : Sub 0x2000000000000000000000000000 W) (h_s : Kept W s0 s) :
    Kept W s0 (lanes i m l s) := by
  unfold lanes
  try dsimp only
  repeat' first
    | with_reducible assumption
    | (with_reducible refine st_modSite_kept _ _ _ (Sub.trans (by decide) hw) ?_ )
    | (with_reducible refine pend_kept _ _ _ (Sub.trans (by decide) hw) ?_ )

theorem slathAt_kept (i : SiteId) (m : Store) (gap : Nat) (hi : Option Int) (time : ChanId → Int) (s : State)
    (hw : Sub 0x2000000000000000000000000000 W) (h_s : Kept W s0 s) :
    Kept W s0 (slathAt i m gap hi time s) := by
  unfold slathAt
  try dsimp only
  repeat' first
    | with_reducible assumption
    | (with_reducible refine st_setSite_kept _ _ _ (Sub.trans (by decide) hw) ?_ )
    | (with_reducible refine lanes_kept _ _ _ _ (Sub.trans (by decide) hw) ?_ )
    | with_reducible exact same
    | with_reducible exact mem_same
    | with_reducible exact host_same
    | with_reducible exact flt_same
    | simp only [kept_mk]
    | with_reducible apply kept_upd

theorem slathAfter_kept (i : SiteId) (m : Store) (t : Int) (s : State)
    (hw : Sub 0x2000000000000000000000000000 W) (h_s : Kept W s0 s) :
    Kept W s0 (slathAfter i m t s) := by
  unfold slathAfter
  try dsimp only
  repeat' first
    | with_reducible assumption
    | (with_reducible refine slathAt_kept _ _ _ _ _ _ (Sub.trans (by decide) hw) ?_ )

theorem driveFrame_kept (i : SiteId) (f : Frame) (s : State) (hw : Sub 0x2000000000000000000000000000 W) (h_s : Kept W s0 s) :
    Kept W s0 (driveFrame i f s) := by
  unfold driveFrame
  try dsimp only
  repeat' first
    | with_reducible assumption
    | (with_reducible refine st_modSite_kept _ _ _ (Sub.trans (by decide) hw) ?_ )
    | (with_reducible refine lanes_kept _ _ _ _ (Sub.trans (by decide) hw) ?_ )
    | (with_reducible refine slathAfter_kept _ _ _ _ (Sub.trans (by decide) hw) ?_ )
    | with_reducible apply kept_ite
    | with_reducible exact same
    | with_reducible exact mem_same
    | with_reducible exact host_same
    | with_reducible exact flt_same
    | simp only [kept_mk]
    | with_reducible apply kept_upd

theorem driveList_kept (i : SiteId) (l : List Frame) (hw : Sub 0x2000000000000000000000000000 W) :
    ∀ s, Kept W s0 s → Kept W s0 (driveList i l s) := by
  induction l with
  | nil => intro s h; exact h
  | cons f r ih =>
    intro s h
    unfold driveList
    split
    · exact ih _ (driveFrame_kept _ _ _ (Sub.trans (by decide) hw) h)
    · exact h

theorem driveReady_kept (i : SiteId) (s : State) (hw : Sub 0x2000000000000000000000000000 W) (h_s : Kept W s0 s) :
    Kept W s0 (driveReady i s) := by
  unfold driveReady
  dsimp only
  have h1 := driveList_kept i (s.site i).undriven (Sub.trans (by decide) hw) s h_s
  exact kept_ite (slathAfter_kept _ _ _ _ (Sub.trans (by decide) hw) h1) h1

theorem driveAll_kept (s : State) (hw : Sub 0x2000000000000000000000000000 W) (h_s : Kept W s0 s) :
    Kept W s0 (driveAll s) := by
  unfold driveAll
  try dsimp only
  repeat' first
    | with_reducible assumption
    | intro _
    | (with_reducible refine driveReady_kept _ _ (Sub.trans (by decide) hw) ?_ )
    | with_reducible apply kept_foldl

theorem slathCut_kept (i : SiteId) (n gap : Nat) (s : State) (hw : Sub 0x2000000000000000000000000000 W) (h_s : Kept W s0 s) :
    Kept W s0 (slathCut i n gap s) := by
  unfold slathCut
  try dsimp only
  repeat' first
    | with_reducible assumption
    | intro _
    | (with_reducible refine st_advance_kept _ (Sub.trans (by decide) hw) ?_ )
    | (with_reducible refine st_setSite_kept _ _ _ (Sub.trans (by decide) hw) ?_ )
    | (with_reducible refine st_modSite_kept _ _ _ (Sub.trans (by decide) hw) ?_ )
    | (with_reducible refine slathAt_kept _ _ _ _ _ _ (Sub.trans (by decide) hw) ?_ )
    | (with_reducible refine driveFrame_kept _ _ _ (Sub.trans (by decide) hw) ?_ )
    | with_reducible apply kept_ite
    | with_reducible apply kept_foldl

end Sys2Proof.Laws
end

