-- ==== Sys2Proof/Laws/KeptEvLog.lean ====
section
/-! SUPPORT. One lemma per operation of Machine/EvLog.lean: within which mask of parts it keeps the rest; a command's meaning
answers a next state that is so kept. The numeral of a mask has the bits of Area. -/
namespace Sys2Proof.Laws
open Sys2Proof Sys2Proof.Machine
variable {W : Nat} {s0 : State}

theorem st_logEv_kept (s : State) (e : LogE) (hw : Sub 0x4000000000000000000000000000000 W) (h_s : Kept W s0 s) :
    Kept W s0 (State.logEv s e) := by
  unfold State.logEv
  try dsimp only
  repeat' first
    | with_reducible assumption
    | with_reducible exact same
    | with_reducible exact mem_same
    | with_reducible exact host_same
    | with_reducible exact flt_same
    | exact .inr (hw.bit (by decide))
    | simp only [kept_mk]
    | with_reducible apply kept_upd

theorem st_logSrc_kept (s : State) (e : LogE) (hw : Sub 0x4000000000000000000000000000000 W) (h_s : Kept W s0 s) :
    Kept W s0 (State.logSrc s e) := by
  unfold State.logSrc
  try dsimp only
  repeat' first
    | with_reducible assumption
    | (with_reducible refine st_logEv_kept _ _ (Sub.trans (by decide) hw) ?_ )

theorem evlogEntry_kept (s : State) (hw : Sub 0x4040000000000000000000000000800 W) (h_s : Kept W s0 s) :
    Kept W s0 (evlogEntry s) := by
  unfold evlogEntry
  try dsimp only
  repeat' first
    | with_reducible assumption
    | (with_reducible refine st_p_kept _ _ _ ?_ ?_)
    | (with_reducible refine st_sat32_kept _ _ (Sub.trans (by decide) hw) ?_ ?_ )
    | (with_reducible refine st_raise_kept _ _ (Sub.trans (by decide) hw) ?_ )
    | (with_reducible refine may_ev (hw.bit (by decide)) _ ?_)
    | with_reducible exact same
    | with_reducible exact mem_same
    | with_reducible exact host_same
    | with_reducible exact flt_same
    | exact .inr (hw.bit (by decide))
    | decide
    | simp only [kept_mk]
    | with_reducible apply kept_upd
    | split

theorem execEvlogEntry_kept (s : State) (hw : Sub 0x24040000000000000000000000000800 W) (h_s : Kept W s0 s) :
    ∃ t', execEvlogEntry s = .next t' ∧ Kept W s0 t' := by
  unfold execEvlogEntry
  refine st_served_kept _ _ _ _ (Sub.trans (by decide) hw) (by assumption) fun s h_s => ?_
  refine ⟨_, rfl, ?_⟩
  try dsimp only
  repeat' first
    | with_reducible assumption
    | (with_reducible refine st_fresh_kept _ (Sub.trans (by decide) hw) ?_ )
    | (with_reducible refine evlogEntry_kept _ (Sub.trans (by decide) hw) ?_ )

theorem evlogProgram_kept (n : Nat) (s : State) (hw : Sub 0x4010000000000000000000000000800 W) (h_s : Kept W s0 s) :
    Kept W s0 (evlogProgram n s) := by
  unfold evlogProgram
  try dsimp only
  repeat' first
    | with_reducible assumption
    | (with_reducible refine st_p_kept _ _ _ ?_ ?_)
    | (with_reducible refine may_ev (hw.bit (by decide)) _ ?_)
    | with_reducible exact same
    | with_reducible exact mem_same
    | with_reducible exact host_same
    | with_reducible exact flt_same
    | exact .inr (hw.bit (by decide))
    | decide
    | simp only [kept_mk]
    | with_reducible apply kept_upd

theorem norFore_kept (s : State) (hw : Sub 0x4000000000000000000000000000000 W) (h_s : Kept W s0 s) :
    Kept W s0 (norFore s) := by
  unfold norFore
  try dsimp only
  repeat' first
    | with_reducible assumption
    | with_reducible exact same
    | with_reducible exact mem_same
    | with_reducible exact host_same
    | with_reducible exact flt_same
    | exact .inr (hw.bit (by decide))
    | simp only [kept_mk]
    | with_reducible apply kept_upd

theorem execEvlogProgram_kept (n : Nat) (s : State) (hw : Sub 0x24010000000000000000000000000800 W) (h_s : Kept W s0 s) :
    ∃ t', execEvlogProgram n s = .next t' ∧ Kept W s0 t' := by
  unfold execEvlogProgram
  refine st_served_kept _ _ _ _ (Sub.trans (by decide) hw) (by assumption) fun s h_s => ?_
  refine st_served_kept _ _ _ _ (Sub.trans (by decide) hw) (by assumption) fun s h_s => ?_
  refine ⟨_, rfl, ?_⟩
  try dsimp only
  repeat' first
    | with_reducible assumption
    | (with_reducible refine st_fresh_kept _ (Sub.trans (by decide) hw) ?_ )
    | (with_reducible refine evlogProgram_kept _ _ (Sub.trans (by decide) hw) ?_ )
    | (with_reducible refine norFore_kept _ (Sub.trans (by decide) hw) ?_ )
    | with_reducible apply kept_ite

theorem st_append_kept (s : State) (txn : Nat) (b : JBody) (hw : Sub 0x4000000000000000000000000000000 W) (h_s : Kept W s0 s) :
    Kept W s0 (State.append s txn b) := by
  unfold State.append
  try dsimp only
  repeat' first
    | with_reducible assumption
    | with_reducible apply kept_ite
    | with_reducible exact same
    | with_reducible exact mem_same
    | with_reducible exact host_same
    | with_reducible exact flt_same
    | exact .inr (hw.bit (by decide))
    | simp only [kept_mk]
    | with_reducible apply kept_upd

theorem st_persist_kept (s : State) (keys : List Nat) (hw : Sub 0x4000000000000000000000000000000 W) (h_s : Kept W s0 s) :
    Kept W s0 (State.persist s keys) := by
  unfold State.persist
  try dsimp only
  repeat' first
    | with_reducible assumption
    | (with_reducible refine st_append_kept _ _ _ (Sub.trans (by decide) hw) ?_ )

end Sys2Proof.Laws
end

