-- ==== Sys2Proof/Laws/KeptLevels.lean ====
section
/-! SUPPORT. One lemma per operation of Machine/Levels.lean: within which mask of parts it keeps the rest; a command's meaning
answers a next state that is so kept. The numeral of a mask has the bits of Area. -/
namespace Sys2Proof.Laws
open Sys2Proof Sys2Proof.Machine
variable {W : Nat} {s0 : State}

theorem st_setDac_kept (s : State) (d : DacId) (x : Dac) (hw : Sub 0x1000000000000000000000000000000 W) (h_s : Kept W s0 s) :
    Kept W s0 (State.setDac s d x) := by
  unfold State.setDac
  try dsimp only
  repeat' first
    | with_reducible assumption
    | with_reducible exact same
    | with_reducible exact mem_same
    | with_reducible exact host_same
    | with_reducible exact flt_same
    | exact .inr (hw.bit (by decide))
    | simp only [kept_mk]
    | with_reducible apply kept_upd

theorem setStatusBit_kept (d : DacId) (k : Nat) (v : Bool) (s : State) (hw : Sub 0x80000000000000 W) (h_s : Kept W s0 s) :
    Kept W s0 (setStatusBit d k v s) := by
  unfold setStatusBit
  try dsimp only
  repeat' first
    | with_reducible assumption
    | (with_reducible refine st_p_kept _ _ _ ?_ ?_)
    | (with_reducible refine may_da (hw.bit (by decide)) _ _ ?_ ?_)
    | exact Fin.isLt _
    | decide

theorem issueStrobe_kept (b : Nat) (s : State) (hw : Sub 0x1000000000000000000000000000000 W) (h_s : Kept W s0 s) :
    Kept W s0 (issueStrobe b s) := by
  unfold issueStrobe
  try dsimp only
  repeat' first
    | with_reducible assumption
    | with_reducible exact same
    | with_reducible exact mem_same
    | with_reducible exact host_same
    | with_reducible exact flt_same
    | exact .inr (hw.bit (by decide))
    | simp only [kept_mk]
    | with_reducible apply kept_upd
    | split

theorem formPending_kept (d : DacId) (rangeChanged : Bool) (s : State)
    (hw : Sub 0x1000000000000000080000000000000 W) (h_s : Kept W s0 s) :
    Kept W s0 (formPending d rangeChanged s) := by
  unfold formPending
  try dsimp only
  repeat' first
    | with_reducible assumption
    | (with_reducible refine st_p_kept _ _ _ ?_ ?_)
    | (with_reducible refine st_setDac_kept _ _ _ (Sub.trans (by decide) hw) ?_ )
    | (with_reducible refine setStatusBit_kept _ _ _ _ (Sub.trans (by decide) hw) ?_ )
    | (with_reducible refine issueStrobe_kept _ _ (Sub.trans (by decide) hw) ?_ )
    | with_reducible apply kept_ite
    | (with_reducible refine may_da (hw.bit (by decide)) _ _ ?_ ?_)
    | exact Fin.isLt _
    | decide

theorem loadDac_kept (hold : Bool) (d : DacId) (s : State) (hw : Sub 0x1000000000000000080000000000000 W) (h_s : Kept W s0 s) :
    Kept W s0 (loadDac hold d s) := by
  unfold loadDac
  try dsimp only
  repeat' first
    | with_reducible assumption
    | (with_reducible refine st_p_kept _ _ _ ?_ ?_)
    | (with_reducible refine st_sat32_kept _ _ (Sub.trans (by decide) hw) ?_ ?_ )
    | (with_reducible refine st_emit_kept _ _ (Sub.trans (by decide) hw) ?_ )
    | (with_reducible refine st_setDac_kept _ _ _ (Sub.trans (by decide) hw) ?_ )
    | (with_reducible refine setStatusBit_kept _ _ _ _ (Sub.trans (by decide) hw) ?_ )
    | with_reducible apply kept_ite
    | (with_reducible refine may_da (hw.bit (by decide)) _ _ ?_ ?_)
    | exact Fin.isLt _
    | decide

theorem strobeBank_kept (b : BankId) (s : State) (hw : Sub 0x1000000000000000180000000000000 W) (h_s : Kept W s0 s) :
    Kept W s0 (strobeBank b s) := by
  unfold strobeBank
  try dsimp only
  repeat' first
    | with_reducible assumption
    | intro _
    | (with_reducible refine st_sat32_kept _ _ (Sub.trans (by decide) hw) ?_ ?_ )
    | (with_reducible refine loadDac_kept _ _ _ (Sub.trans (by decide) hw) ?_ )
    | with_reducible apply kept_foldl
    | (with_reducible refine may_lb (hw.bit (by decide)) _ _ ?_ ?_)
    | exact Fin.isLt _
    | decide

theorem execLoadStrobe_kept (b : BankId) (s : State) (hw : Sub 0x1000000000000000180000000000000 W) (h_s : Kept W s0 s) :
    ∃ t', execLoadStrobe b s = .next t' ∧ Kept W s0 t' := by
  unfold execLoadStrobe
  refine ⟨_, rfl, ?_⟩
  try dsimp only
  repeat' first
    | with_reducible assumption
    | intro _
    | (with_reducible refine st_fresh_kept _ (Sub.trans (by decide) hw) ?_ )
    | (with_reducible refine st_timed_kept _ _ (Sub.trans (by decide) hw) ?_ ?_ )
    | (with_reducible refine strobeBank_kept _ _ (Sub.trans (by decide) hw) ?_ )
    | with_reducible exact same
    | with_reducible exact mem_same
    | with_reducible exact host_same
    | with_reducible exact flt_same
    | exact .inr (hw.bit (by decide))
    | simp only [kept_mk]
    | with_reducible apply kept_upd
    | split

theorem lvlLoad_kept (v : Nat) (s : State) (hw : Sub 0x1000000000000000000000000000000 W) (h_s : Kept W s0 s) :
    Kept W s0 (lvlLoad v s) := by
  unfold lvlLoad
  try dsimp only
  repeat' first
    | with_reducible assumption
    | intro _
    | (with_reducible refine issueStrobe_kept _ _ (Sub.trans (by decide) hw) ?_ )
    | with_reducible apply kept_ite
    | with_reducible apply kept_foldl

theorem execLvlLoad_kept (v : BitVec 16) (s : State) (hw : Sub 0x21000000000000000000000000000000 W) (h_s : Kept W s0 s) :
    ∃ t', execLvlLoad v s = .next t' ∧ Kept W s0 t' := by
  unfold execLvlLoad
  refine st_served_kept _ _ _ _ (Sub.trans (by decide) hw) (by assumption) fun s h_s => ?_
  refine ⟨_, rfl, ?_⟩
  try dsimp only
  repeat' first
    | with_reducible assumption
    | (with_reducible refine st_fresh_kept _ (Sub.trans (by decide) hw) ?_ )
    | (with_reducible refine lvlLoad_kept _ _ (Sub.trans (by decide) hw) ?_ )

theorem releaseDac_kept (d : DacId) (s : State) (hw : Sub 0x1000000000000000080000000000000 W) (h_s : Kept W s0 s) :
    Kept W s0 (releaseDac d s) := by
  unfold releaseDac
  try dsimp only
  repeat' first
    | with_reducible assumption
    | (with_reducible refine st_emit_kept _ _ (Sub.trans (by decide) hw) ?_ )
    | (with_reducible refine st_setDac_kept _ _ _ (Sub.trans (by decide) hw) ?_ )
    | (with_reducible refine setStatusBit_kept _ _ _ _ (Sub.trans (by decide) hw) ?_ )
    | with_reducible apply kept_ite

theorem execDeglitchRelease_kept (b : BankId) (s : State) (hw : Sub 0x1000000000000000080000000000000 W) (h_s : Kept W s0 s) :
    ∃ t', execDeglitchRelease b s = .next t' ∧ Kept W s0 t' := by
  unfold execDeglitchRelease
  refine ⟨_, rfl, ?_⟩
  try dsimp only
  repeat' first
    | with_reducible assumption
    | intro _
    | (with_reducible refine st_fresh_kept _ (Sub.trans (by decide) hw) ?_ )
    | (with_reducible refine st_timed_kept _ _ (Sub.trans (by decide) hw) ?_ ?_ )
    | (with_reducible refine releaseDac_kept _ _ (Sub.trans (by decide) hw) ?_ )
    | with_reducible apply kept_foldl

theorem execRerangeEnd_kept (d : DacId) (s : State) (hw : Sub 0x1000000000000000000000000000000 W) (h_s : Kept W s0 s) :
    ∃ t', execRerangeEnd d s = .next t' ∧ Kept W s0 t' := by
  unfold execRerangeEnd
  refine ⟨_, rfl, ?_⟩
  try dsimp only
  repeat' first
    | with_reducible assumption
    | (with_reducible refine st_fresh_kept _ (Sub.trans (by decide) hw) ?_ )
    | (with_reducible refine st_setDac_kept _ _ _ (Sub.trans (by decide) hw) ?_ )
    | with_reducible apply kept_ite

theorem execLvlCompliance_kept (d : DacId) (openLoad : Bool) (s : State)
    (hw : Sub 0xc0000000000000080000000000000 W) (h_s : Kept W s0 s) :
    ∃ t', execLvlCompliance d openLoad s = .next t' ∧ Kept W s0 t' := by
  unfold execLvlCompliance
  refine ⟨_, rfl, ?_⟩
  try dsimp only
  repeat' first
    | with_reducible assumption
    | (with_reducible refine st_fresh_kept _ (Sub.trans (by decide) hw) ?_ )
    | (with_reducible refine st_activate_kept _ _ _ _ (Sub.trans (by decide) hw) ?_ )
    | (with_reducible refine setStatusBit_kept _ _ _ _ (Sub.trans (by decide) hw) ?_ )
    | with_reducible apply kept_ite

theorem execLvlOverload_kept (d : DacId) (s : State) (hw : Sub 0xc0000000000000080000000000000 W) (h_s : Kept W s0 s) :
    ∃ t', execLvlOverload d s = .next t' ∧ Kept W s0 t' := by
  unfold execLvlOverload
  refine ⟨_, rfl, ?_⟩
  try dsimp only
  repeat' first
    | with_reducible assumption
    | (with_reducible refine st_fresh_kept _ (Sub.trans (by decide) hw) ?_ )
    | (with_reducible refine st_activate_kept _ _ _ _ (Sub.trans (by decide) hw) ?_ )
    | (with_reducible refine setStatusBit_kept _ _ _ _ (Sub.trans (by decide) hw) ?_ )
    | with_reducible apply kept_ite

theorem execLvlDetectClear_kept (d : DacId) (which : Fin 3) (s : State)
    (hw : Sub 0x80000000000000080000000000000 W) (h_s : Kept W s0 s) :
    ∃ t', execLvlDetectClear d which s = .next t' ∧ Kept W s0 t' := by
  unfold execLvlDetectClear
  refine ⟨_, rfl, ?_⟩
  try dsimp only
  repeat' first
    | with_reducible assumption
    | (with_reducible refine st_fresh_kept _ (Sub.trans (by decide) hw) ?_ )
    | (with_reducible refine st_deactivate_kept _ _ (Sub.trans (by decide) hw) ?_ )
    | (with_reducible refine setStatusBit_kept _ _ _ _ (Sub.trans (by decide) hw) ?_ )

theorem execLvlRefFault_kept (b : BankId) (outside : Bool) (s : State)
    (hw : Sub 0xc0000000000000100000000000000 W) (h_s : Kept W s0 s) :
    ∃ t', execLvlRefFault b outside s = .next t' ∧ Kept W s0 t' := by
  unfold execLvlRefFault
  refine ⟨_, rfl, ?_⟩
  try dsimp only
  repeat' first
    | with_reducible assumption
    | (with_reducible refine st_p_kept _ _ _ ?_ ?_)
    | (with_reducible refine st_fresh_kept _ (Sub.trans (by decide) hw) ?_ )
    | (with_reducible refine st_activate_kept _ _ _ _ (Sub.trans (by decide) hw) ?_ )
    | (with_reducible refine st_deactivate_kept _ _ (Sub.trans (by decide) hw) ?_ )
    | with_reducible apply kept_ite
    | (with_reducible refine may_lb (hw.bit (by decide)) _ _ ?_ ?_)
    | exact Fin.isLt _
    | decide

theorem parkValues_kept (record : Bool) (d : DacId) (s : State) (hw : Sub 0x80000000000000 W) (h_s : Kept W s0 s) :
    Kept W s0 (parkValues record d s) := by
  unfold parkValues
  try dsimp only
  repeat' first
    | with_reducible assumption
    | (with_reducible refine st_p_kept _ _ _ ?_ ?_)
    | (with_reducible refine may_da (hw.bit (by decide)) _ _ ?_ ?_)
    | exact Fin.isLt _
    | decide

theorem parkSource_kept (record : Bool) (s : State) (hw : Sub 0x40000000000000200000000000000 W) (h_s : Kept W s0 s) :
    Kept W s0 (parkSource record s) := by
  unfold parkSource
  try dsimp only
  repeat' first
    | with_reducible assumption
    | (with_reducible refine st_p_kept _ _ _ ?_ ?_)
    | (with_reducible refine st_raise_kept _ _ (Sub.trans (by decide) hw) ?_ )
    | with_reducible apply kept_ite
    | (with_reducible refine may_ll (hw.bit (by decide)) _ ?_)
    | decide

theorem levelsToPark_kept (record : Bool) (s : State) (hw : Sub 0x1000000000000000080000000000000 W) (h_s : Kept W s0 s) :
    Kept W s0 (levelsToPark record s) := by
  unfold levelsToPark
  try dsimp only
  repeat' first
    | with_reducible assumption
    | intro _
    | (with_reducible refine issueStrobe_kept _ _ (Sub.trans (by decide) hw) ?_ )
    | (with_reducible refine formPending_kept _ _ _ (Sub.trans (by decide) hw) ?_ )
    | (with_reducible refine parkValues_kept _ _ _ (Sub.trans (by decide) hw) ?_ )
    | with_reducible apply kept_foldl

theorem levelsEnable_kept (record : Bool) (s : State) (hw : Sub 0x1000000000000000180000000000000 W) (h_s : Kept W s0 s) :
    Kept W s0 (levelsEnable record s) := by
  unfold levelsEnable
  try dsimp only
  repeat' first
    | with_reducible assumption
    | intro _
    | (with_reducible refine st_p_kept _ _ _ ?_ ?_)
    | (with_reducible refine st_emit_kept _ _ (Sub.trans (by decide) hw) ?_ )
    | (with_reducible refine st_setDac_kept _ _ _ (Sub.trans (by decide) hw) ?_ )
    | (with_reducible refine parkValues_kept _ _ _ (Sub.trans (by decide) hw) ?_ )
    | with_reducible apply kept_foldl
    | (with_reducible refine may_da (hw.bit (by decide)) _ _ ?_ ?_)
    | (with_reducible refine may_lb (hw.bit (by decide)) _ _ ?_ ?_)
    | with_reducible exact same
    | with_reducible exact mem_same
    | with_reducible exact host_same
    | with_reducible exact flt_same
    | exact .inr (hw.bit (by decide))
    | exact Fin.isLt _
    | decide
    | (have hj := lt_of_mem (by with_reducible assumption); omega)
    | simp only [kept_mk]
    | with_reducible apply kept_upd

theorem levelsPark_kept (record : Bool) (s : State) (hw : Sub 0x1040000000000000380000000000000 W) (h_s : Kept W s0 s) :
    Kept W s0 (levelsPark record s) := by
  unfold levelsPark
  try dsimp only
  repeat' first
    | with_reducible assumption
    | (with_reducible refine parkSource_kept _ _ (Sub.trans (by decide) hw) ?_ )
    | (with_reducible refine levelsToPark_kept _ _ (Sub.trans (by decide) hw) ?_ )
    | (with_reducible refine levelsEnable_kept _ _ (Sub.trans (by decide) hw) ?_ )
    | with_reducible apply kept_ite

end Sys2Proof.Laws
end

