-- ==== Sys2Proof/Laws/KeptNotify.lean ====
section
/-! SUPPORT. One lemma per operation of Machine/Notify.lean: within which mask of parts it keeps the rest; a command's meaning
answers a next state that is so kept. The numeral of a mask has the bits of Area. -/
namespace Sys2Proof.Laws
open Sys2Proof Sys2Proof.Machine
variable {W : Nat} {s0 : State}

theorem signal_kept (f : FnId) (v : Nat) (s : State) (hw : Sub 0x8000000000000000000000000000 W) (h_s : Kept W s0 s) :
    Kept W s0 (signal f v s) := by
  unfold signal
  try dsimp only
  repeat' first
    | with_reducible assumption
    | (with_reducible refine st_emit_kept _ _ (Sub.trans (by decide) hw) ?_ )
    | (with_reducible refine st_setFn_kept _ _ _ (Sub.trans (by decide) hw) ?_ )
    | with_reducible apply kept_ite

theorem signalPending_kept (f : FnId) (s : State) (hw : Sub 0x8000000000000000000000000000 W) (h_s : Kept W s0 s) :
    Kept W s0 (signalPending f s) := by
  unfold signalPending
  try dsimp only
  repeat' first
    | with_reducible assumption
    | (with_reducible refine st_emits_kept _ _ (Sub.trans (by decide) hw) ?_ )
    | (with_reducible refine st_setFn_kept _ _ _ (Sub.trans (by decide) hw) ?_ )
    | with_reducible apply kept_ite

theorem sendNotif_kept (n : Notif) (s : State) (hw : Sub 0x0 W) (h_s : Kept W s0 s) :
    Kept W s0 (sendNotif n s) := by
  unfold sendNotif
  try dsimp only
  repeat' first
    | with_reducible assumption
    | (with_reducible refine st_emit_kept _ _ (Sub.trans (by decide) hw) ?_ )

theorem nextNotif_kept (s : State) (hw : Sub 0x20000000000000000000000000000 W) (h_s : Kept W s0 s) :
    Kept W s0 (nextNotif s) := by
  unfold nextNotif
  try dsimp only
  repeat' first
    | with_reducible assumption
    | (with_reducible refine sendNotif_kept _ _ (Sub.trans (by decide) hw) ?_ )
    | with_reducible exact same
    | with_reducible exact mem_same
    | with_reducible exact host_same
    | with_reducible exact flt_same
    | exact .inr (hw.bit (by decide))
    | simp only [kept_mk]
    | with_reducible apply kept_upd
    | split

theorem notifLost_kept (s : State) (hw : Sub 0x40000000000000000000000000004 W) (h_s : Kept W s0 s) :
    Kept W s0 (notifLost s) := by
  unfold notifLost
  try dsimp only
  repeat' first
    | with_reducible assumption
    | (with_reducible refine st_sat32_kept _ _ (Sub.trans (by decide) hw) ?_ ?_ )
    | (with_reducible refine st_raise_kept _ _ (Sub.trans (by decide) hw) ?_ )
    | (with_reducible refine may_net (hw.bit (by decide)) _ ?_)
    | decide

theorem notify_kept (node : Nat) (body : List Byte) (s : State) (hw : Sub 0x60000000000000000000000000004 W) (h_s : Kept W s0 s) :
    Kept W s0 (notify node body s) := by
  unfold notify
  try dsimp only
  repeat' first
    | with_reducible assumption
    | (with_reducible refine nextNotif_kept _ (Sub.trans (by decide) hw) ?_ )
    | (with_reducible refine notifLost_kept _ (Sub.trans (by decide) hw) ?_ )
    | with_reducible apply kept_ite
    | with_reducible exact same
    | with_reducible exact mem_same
    | with_reducible exact host_same
    | with_reducible exact flt_same
    | exact .inr (hw.bit (by decide))
    | simp only [kept_mk]
    | with_reducible apply kept_upd

theorem acked_kept (seq : BitVec 16) (s : State) (hw : Sub 0x20000000000000000000000000000 W) (h_s : Kept W s0 s) :
    Kept W s0 (acked seq s) := by
  unfold acked
  try dsimp only
  repeat' first
    | with_reducible assumption
    | (with_reducible refine nextNotif_kept _ (Sub.trans (by decide) hw) ?_ )
    | with_reducible exact same
    | with_reducible exact mem_same
    | with_reducible exact host_same
    | with_reducible exact flt_same
    | exact .inr (hw.bit (by decide))
    | simp only [kept_mk]
    | with_reducible apply kept_upd
    | split

theorem execAck_kept (seq : BitVec 16) (s : State) (hw : Sub 0x20020000000000000000000000000000 W) (h_s : Kept W s0 s) :
    ∃ t', execAck seq s = .next t' ∧ Kept W s0 t' := by
  unfold execAck
  refine st_served_kept _ _ _ _ (Sub.trans (by decide) hw) (by assumption) fun s h_s => ?_
  refine ⟨_, rfl, ?_⟩
  try dsimp only
  repeat' first
    | with_reducible assumption
    | (with_reducible refine st_fresh_kept _ (Sub.trans (by decide) hw) ?_ )
    | (with_reducible refine acked_kept _ _ (Sub.trans (by decide) hw) ?_ )

theorem execNotifyRepeat_kept (s : State) (hw : Sub 0x20060000000000000000000000000004 W) (h_s : Kept W s0 s) :
    ∃ t', execNotifyRepeat s = .next t' ∧ Kept W s0 t' := by
  unfold execNotifyRepeat
  refine st_served_kept _ _ _ _ (Sub.trans (by decide) hw) (by assumption) fun s h_s => ?_
  refine ⟨_, rfl, ?_⟩
  try dsimp only
  repeat' first
    | with_reducible assumption
    | (with_reducible refine st_fresh_kept _ (Sub.trans (by decide) hw) ?_ )
    | (with_reducible refine sendNotif_kept _ _ (Sub.trans (by decide) hw) ?_ )
    | (with_reducible refine nextNotif_kept _ (Sub.trans (by decide) hw) ?_ )
    | (with_reducible refine notifLost_kept _ (Sub.trans (by decide) hw) ?_ )
    | with_reducible exact same
    | with_reducible exact mem_same
    | with_reducible exact host_same
    | with_reducible exact flt_same
    | exact .inr (hw.bit (by decide))
    | simp only [kept_mk]
    | with_reducible apply kept_upd
    | split

end Sys2Proof.Laws
end

