-- ==== Sys2Proof/Laws/KeptMarkers.lean ====
section
/-! SUPPORT. One lemma per operation of Machine/Markers.lean: within which mask of parts it keeps the rest; a command's meaning
answers a next state that is so kept. The numeral of a mask has the bits of Area. -/
namespace Sys2Proof.Laws
open Sys2Proof Sys2Proof.Machine
variable {W : Nat} {s0 : State}

theorem changeMarks_kept (i : SiteId) (od : Store) (time : Int) (f : Site → Site) (s : State)
    (hw : Sub 0x2000000000000000000000000000 W) (h_s : Kept W s0 s) :
    Kept W s0 (changeMarks i od time f s) := by
  unfold changeMarks
  try dsimp only
  repeat' first
    | with_reducible assumption
    | (with_reducible refine st_emits_kept _ _ (Sub.trans (by decide) hw) ?_ )
    | (with_reducible refine st_modSite_kept _ _ _ (Sub.trans (by decide) hw) ?_ )

theorem applyMk_kept (i : SiteId) (s : State) (c : MkChange) (hw : Sub 0x2000000000000000000000000000 W) (h_s : Kept W s0 s) :
    Kept W s0 (applyMk i s c) := by
  unfold applyMk
  try dsimp only
  repeat' first
    | with_reducible assumption
    | (with_reducible refine st_emit_kept _ _ (Sub.trans (by decide) hw) ?_ )
    | (with_reducible refine st_modSite_kept _ _ _ (Sub.trans (by decide) hw) ?_ )
    | with_reducible apply kept_ite

theorem flushMk_kept (i : SiteId) (p : MkChange → Bool) (s : State)
    (hw : Sub 0x2000000000000000000000000000 W) (h_s : Kept W s0 s) :
    Kept W s0 (flushMk i p s) := by
  unfold flushMk
  try dsimp only
  repeat' first
    | with_reducible assumption
    | intro _
    | (with_reducible refine st_modSite_kept _ _ _ (Sub.trans (by decide) hw) ?_ )
    | (with_reducible refine applyMk_kept _ _ _ (Sub.trans (by decide) hw) ?_ )
    | with_reducible apply kept_foldl

theorem dueMarks_kept (s : State) (hw : Sub 0x2000000000000000000000000000 W) (h_s : Kept W s0 s) :
    Kept W s0 (dueMarks s) := by
  unfold dueMarks
  try dsimp only
  repeat' first
    | with_reducible assumption
    | intro _
    | (with_reducible refine flushMk_kept _ _ _ (Sub.trans (by decide) hw) ?_ )
    | with_reducible apply kept_foldl

theorem dropMarks_kept (i : SiteId) (time : Int) (s : State) (hw : Sub 0x2000000000000000000000000000 W) (h_s : Kept W s0 s) :
    Kept W s0 (dropMarks i time s) := by
  unfold dropMarks
  try dsimp only
  repeat' first
    | with_reducible assumption
    | (with_reducible refine st_modSite_kept _ _ _ (Sub.trans (by decide) hw) ?_ )
    | (with_reducible refine changeMarks_kept _ _ _ _ _ (Sub.trans (by decide) hw) ?_ )

end Sys2Proof.Laws
end

