-- ==== Sys2Proof/Laws/KeptTmu.lean ====
section
/-! SUPPORT. One lemma per operation of Machine/Tmu.lean: within which mask of parts it keeps the rest; a command's meaning
answers a next state that is so kept. The numeral of a mask has the bits of Area. -/
namespace Sys2Proof.Laws
open Sys2Proof Sys2Proof.Machine
variable {W : Nat} {s0 : State}

theorem usedStops_lt {s : State} {u : TmuId} {k : Nat} (h : k ∈ usedStops s u) : 8 * u.val + k < 80 := by
  have hu : u.val < 10 := u.isLt
  have : k < 8 := by
    unfold usedStops at h
    split at h
    · exact List.mem_range.1 (List.mem_filter.1 h).1
    · simp at h; omega
  omega

theorem may_results (h : W.testBit Area.tv = true) {u : TmuId} {k : Nat} (hk : k ∈ resultKeys u) : May W k := by
  simp only [resultKeys, stopKeys, List.mem_flatMap, List.mem_map, List.mem_range] at hk
  obtain ⟨a, ha, b, hb, rfl⟩ := hk
  rw [show 0x4850 + 8 * u.val + a = 0x4850 + (8 * u.val + a) by omega]
  exact may_tv h _ _ (by omega) (by omega)

theorem may_tmuKeys (h : W.testBit Area.tv = true) (h' : W.testBit Area.tt = true) {u : TmuId} {k : Nat}
    (hk : k ∈ K.tt_SAMPLES_DONE u :: resultKeys u) : May W k := by
  rcases List.mem_cons.1 hk with rfl | hk
  · exact may_tt h' _ _ u.isLt (by decide)
  · exact may_results h hk

theorem st_setTmu_kept (s : State) (u : TmuId) (x : Tmu) (hw : Sub 0x100000000000000000000000000000 W) (h_s : Kept W s0 s) :
    Kept W s0 (State.setTmu s u x) := by
  unfold State.setTmu
  try dsimp only
  repeat' first
    | with_reducible assumption
    | with_reducible exact same
    | with_reducible exact mem_same
    | with_reducible exact host_same
    | with_reducible exact flt_same
    | exact .inr (hw.bit (by decide))
    | simp only [kept_mk]
    | with_reducible apply kept_upd

theorem st_zero_kept (s : State) (l : List Nat) (hw : Sub 0x0 W) (hk : ∀ k ∈ l, May W k) (h_s : Kept W s0 s) :
    Kept W s0 (State.zero s l) := by
  unfold State.zero
  exact kept_foldl _ _ (fun s x hx h => st_p_kept _ _ _ (hk x hx) h) _ h_s

theorem yieldTmu_kept (u : TmuId) (s : State) (hw : Sub 0x800000000000000010000000000000 W) (h_s : Kept W s0 s) :
    Kept W s0 (yieldTmu u s) := by
  unfold yieldTmu
  try dsimp only
  repeat' first
    | with_reducible assumption
    | (with_reducible refine st_p_kept _ _ _ ?_ ?_)
    | (with_reducible refine st_setCalBank_kept _ _ _ (Sub.trans (by decide) hw) ?_ )
    | (with_reducible refine may_tt (hw.bit (by decide)) _ _ ?_ ?_)
    | exact Fin.isLt _
    | decide
    | split

theorem tmuArm_kept (u : TmuId) (s : State) (hw : Sub 0x900000000000000030000000000000 W) (h_s : Kept W s0 s) :
    Kept W s0 (tmuArm u s) := by
  unfold tmuArm
  try dsimp only
  repeat' first
    | with_reducible assumption
    | (with_reducible refine List.forall_mem_cons.2 ⟨?_, ?_⟩)
    | with_reducible exact List.forall_mem_nil _
    | intro _
    | (with_reducible refine st_p_kept _ _ _ ?_ ?_)
    | (with_reducible refine st_sat32_kept _ _ (Sub.trans (by decide) hw) ?_ ?_ )
    | (with_reducible refine st_setTmu_kept _ _ _ (Sub.trans (by decide) hw) ?_ )
    | (with_reducible refine st_zero_kept _ _ (Sub.trans (by decide) hw) ?_ ?_ )
    | (with_reducible refine yieldTmu_kept _ _ (Sub.trans (by decide) hw) ?_ )
    | exact may_results (hw.bit (by decide)) (by with_reducible assumption)
    | with_reducible apply kept_ite
    | (with_reducible refine may_tt (hw.bit (by decide)) _ _ ?_ ?_)
    | exact Fin.isLt _
    | decide

theorem tmuEndSeen_kept (u : TmuId) (complete : Bool) (s : State)
    (hw : Sub 0x2000000000000000000000000000 W) (h_s : Kept W s0 s) :
    Kept W s0 (tmuEndSeen u complete s) := by
  unfold tmuEndSeen
  try dsimp only
  repeat' first
    | with_reducible assumption
    | (with_reducible refine st_modSite_kept _ _ _ (Sub.trans (by decide) hw) ?_ )
    | split

theorem missStop_kept (u : TmuId) (k : Fin 8) (s : State) (hw : Sub 0x140000000000000020000000000000 W) (_h_s : Kept W s0 s) :
    Kept W s0 (missStop u k s) := by
  unfold missStop
  try dsimp only
  repeat' first
    | (with_reducible refine st_cnt32_kept _ _ (Sub.trans (by decide) hw) ?_ ?_ )
    | (with_reducible refine st_raise_kept _ _ (Sub.trans (by decide) hw) ?_ )
    | (with_reducible refine st_setTmu_kept _ _ _ (Sub.trans (by decide) hw) ?_ )
    | with_reducible apply kept_ite
    | (with_reducible refine may_tv (hw.bit (by decide)) _ _ ?_ ?_)
    | omega

theorem missAll_kept (u : TmuId) (s : State) (hw : Sub 0x140000000000000020000000000000 W) (h_s : Kept W s0 s) :
    Kept W s0 (missAll u s) := by
  unfold missAll
  try dsimp only
  repeat' first
    | with_reducible assumption
    | intro _
    | (with_reducible refine missStop_kept _ _ _ (Sub.trans (by decide) hw) ?_ )
    | with_reducible apply kept_foldl

theorem skipGate_kept (u : TmuId) (s : State) (hw : Sub 0x100000000000000000000000000000 W) (h_s : Kept W s0 s) :
    Kept W s0 (skipGate u s) := by
  unfold skipGate
  try dsimp only
  repeat' first
    | with_reducible assumption
    | (with_reducible refine st_setTmu_kept _ _ _ (Sub.trans (by decide) hw) ?_ )

theorem countSkips_kept (u : TmuId) (s : State) (hw : Sub 0x140000000000000020000000000000 W) (h_s : Kept W s0 s) :
    Kept W s0 (countSkips u s) := by
  unfold countSkips
  try dsimp only
  repeat' first
    | with_reducible assumption
    | intro _
    | (with_reducible refine st_setTmu_kept _ _ _ (Sub.trans (by decide) hw) ?_ )
    | (with_reducible refine missAll_kept _ _ (Sub.trans (by decide) hw) ?_ )
    | with_reducible apply kept_foldl

theorem waitGates_kept (u : TmuId) (s : State) (hw : Sub 0x100000000000000000000000000000 W) (h_s : Kept W s0 s) :
    Kept W s0 (waitGates u s) := by
  unfold waitGates
  try dsimp only
  repeat' first
    | with_reducible assumption
    | (with_reducible refine st_setTmu_kept _ _ _ (Sub.trans (by decide) hw) ?_ )
    | split

theorem waitEnds_kept (u : TmuId) (s : State) (hw : Sub 0x100000000000000010000000000000 W) (h_s : Kept W s0 s) :
    Kept W s0 (waitEnds u s) := by
  unfold waitEnds
  try dsimp only
  repeat' first
    | with_reducible assumption
    | (with_reducible refine st_p_kept _ _ _ ?_ ?_)
    | (with_reducible refine waitGates_kept _ _ (Sub.trans (by decide) hw) ?_ )
    | with_reducible apply kept_ite
    | (with_reducible refine may_tt (hw.bit (by decide)) _ _ ?_ ?_)
    | exact Fin.isLt _
    | decide

theorem oweBlock_kept (u : TmuId) (s : State) (hw : Sub 0x800000000000000000000000000000 W) (h_s : Kept W s0 s) :
    Kept W s0 (oweBlock u s) := by
  unfold oweBlock
  try dsimp only
  repeat' first
    | with_reducible assumption
    | (with_reducible refine st_setCalBank_kept _ _ _ (Sub.trans (by decide) hw) ?_ )
    | split

theorem tmuEnd_kept (u : TmuId) (status : Nat) (s : State) (hw : Sub 0x942000000000000030000000000000 W) (h_s : Kept W s0 s) :
    Kept W s0 (tmuEnd u status s) := by
  unfold tmuEnd
  try dsimp only
  repeat' first
    | with_reducible assumption
    | (with_reducible refine st_p_kept _ _ _ ?_ ?_)
    | (with_reducible refine st_setTmu_kept _ _ _ (Sub.trans (by decide) hw) ?_ )
    | (with_reducible refine tmuEndSeen_kept _ _ _ (Sub.trans (by decide) hw) ?_ )
    | (with_reducible refine countSkips_kept _ _ (Sub.trans (by decide) hw) ?_ )
    | (with_reducible refine waitEnds_kept _ _ (Sub.trans (by decide) hw) ?_ )
    | (with_reducible refine oweBlock_kept _ _ (Sub.trans (by decide) hw) ?_ )
    | with_reducible apply kept_ite
    | (with_reducible refine may_tt (hw.bit (by decide)) _ _ ?_ ?_)
    | exact Fin.isLt _
    | decide

theorem tmuSiteEnded_kept (i : SiteId) (s : State) (hw : Sub 0x942000000000000030000000000000 W) (h_s : Kept W s0 s) :
    Kept W s0 (tmuSiteEnded i s) := by
  unfold tmuSiteEnded
  try dsimp only
  repeat' first
    | with_reducible assumption
    | intro _
    | (with_reducible refine tmuEnd_kept _ _ _ (Sub.trans (by decide) hw) ?_ )
    | with_reducible apply kept_ite
    | with_reducible apply kept_foldl

theorem derive_kept (u : TmuId) (k : Fin 8) (s : State) (hw : Sub 0x20000000000000 W) (_h_s : Kept W s0 s) :
    Kept W s0 (derive u k s) := by
  unfold derive
  try dsimp only
  repeat' first
    | (with_reducible refine List.forall_mem_cons.2 ⟨?_, ?_⟩)
    | with_reducible exact List.forall_mem_nil _
    | (with_reducible refine st_p_kept _ _ _ ?_ ?_)
    | (with_reducible refine st_zero_kept _ _ (Sub.trans (by decide) hw) ?_ ?_ )
    | with_reducible apply kept_ite
    | (with_reducible refine may_tv (hw.bit (by decide)) _ _ ?_ ?_)
    | omega

theorem addValue_kept (u : TmuId) (k : Fin 8) (x : Int) (s : State) (hw : Sub 0x20000000000000 W) (_h_s : Kept W s0 s) :
    Kept W s0 (addValue u k x s) := by
  unfold addValue
  try dsimp only
  repeat' first
    | (with_reducible refine st_p_kept _ _ _ ?_ ?_)
    | (with_reducible refine st_cnt32_kept _ _ (Sub.trans (by decide) hw) ?_ ?_ )
    | (with_reducible refine derive_kept _ _ _ (Sub.trans (by decide) hw) ?_ )
    | with_reducible apply kept_ite
    | (with_reducible refine may_tv (hw.bit (by decide)) _ _ ?_ ?_)
    | omega

theorem sampleDone_kept (u : TmuId) (s : State) (hw : Sub 0x942000000000000030000000000000 W) (h_s : Kept W s0 s) :
    Kept W s0 (sampleDone u s) := by
  unfold sampleDone
  try dsimp only
  repeat' first
    | with_reducible assumption
    | (with_reducible refine st_p_kept _ _ _ ?_ ?_)
    | (with_reducible refine st_advance_kept _ (Sub.trans (by decide) hw) ?_ )
    | (with_reducible refine st_setTmu_kept _ _ _ (Sub.trans (by decide) hw) ?_ )
    | (with_reducible refine tmuEnd_kept _ _ _ (Sub.trans (by decide) hw) ?_ )
    | with_reducible apply kept_ite
    | (with_reducible refine may_tt (hw.bit (by decide)) _ _ ?_ ?_)
    | exact Fin.isLt _
    | decide

theorem tmuHostCmd_kept (arm : Bool) (u : TmuId) (s : State) (hw : Sub 0x942000000000000030000000000000 W) (h_s : Kept W s0 s) :
    Kept W s0 (tmuHostCmd arm u s).2 := by
  unfold tmuHostCmd
  try dsimp only
  repeat' first
    | with_reducible assumption
    | (with_reducible refine tmuArm_kept _ _ (Sub.trans (by decide) hw) ?_ )
    | (with_reducible refine tmuEnd_kept _ _ _ (Sub.trans (by decide) hw) ?_ )
    | split

theorem takeUnit_kept (tmu : Bool) (i : SiteId) (code : Nat) (s : State)
    (hw : Sub 0x10000000000000000000000000000000 W) (h_s : Kept W s0 s) :
    ∀ r, takeUnit tmu i code s = some r → Kept W s0 r.2 := by
  intro r hr
  unfold takeUnit at hr
  try dsimp only at hr
  repeat' split at hr
  all_goals first
    | (cases hr; done)
    | (simp only [Option.some.injEq] at hr; subst hr; try dsimp only)
  all_goals repeat' first
    | with_reducible assumption
    | with_reducible exact same
    | with_reducible exact mem_same
    | with_reducible exact host_same
    | with_reducible exact flt_same
    | exact .inr (hw.bit (by decide))
    | simp only [kept_mk]
    | with_reducible apply kept_upd

theorem tmuc_kept (code : Nat) (f : TmuId → UnitCmd → State → Option State) (i : SiteId) (s : State)
    (hw : Sub 0x10000000000000000010000000000000 W)
    (h_f : ∀ u c s r, Kept W s0 s → f u c s = some r → Kept W s0 r) (h_s : Kept W s0 s) :
    Kept W s0 (tmuc code f i s) := by
  unfold tmuc
  split
  · exact h_s
  · rename_i c s' heq
    have h := takeUnit_kept _ _ _ _ (Sub.trans (by decide) hw) h_s _ heq
    split
    · exact h
    · split
      · exact h_f _ _ _ _ h (by assumption)
      · exact st_sat32_kept _ _ (Sub.trans (by decide) hw) (may_tt (hw.bit (by decide)) _ _ (Fin.isLt _) (by decide)) h

theorem execTmucArm_kept (i : SiteId) (s : State) (hw : Sub 0x10900000000000000030000000000000 W) (h_s : Kept W s0 s) :
    ∃ t', execTmucArm i s = .next t' ∧ Kept W s0 t' := by
  refine ⟨_, rfl, ?_⟩
  unfold State.timed
  split
  case isFalse => exact st_fresh_kept _ (Sub.trans (by decide) hw) h_s
  refine tmuc_kept _ _ _ _ (Sub.trans (by decide) hw) ?_ (st_fresh_kept _ (Sub.trans (by decide) hw) h_s)
  intro u c s r hs hr
  try dsimp only at hr
  split at hr
  · cases hr
  · cases hr; exact tmuArm_kept _ _ (Sub.trans (by decide) hw) hs

theorem execTmucStart_kept (i : SiteId) (s : State) (hw : Sub 0x10100000000000000010000000000000 W) (h_s : Kept W s0 s) :
    ∃ t', execTmucStart i s = .next t' ∧ Kept W s0 t' := by
  refine ⟨_, rfl, ?_⟩
  unfold State.timed
  split
  case isFalse => exact st_fresh_kept _ (Sub.trans (by decide) hw) h_s
  refine tmuc_kept _ _ _ _ (Sub.trans (by decide) hw) ?_ (st_fresh_kept _ (Sub.trans (by decide) hw) h_s)
  intro u c s r hs hr
  dsimp only at hr
  repeat' split at hr
  all_goals first
    | (cases hr; done)
    | (simp only [Option.some.injEq] at hr; subst hr)
  all_goals repeat' first
    | with_reducible assumption
    | with_reducible refine skipGate_kept _ _ (Sub.trans (by decide) hw) ?_
    | with_reducible refine st_setTmu_kept _ _ _ (Sub.trans (by decide) hw) ?_

theorem execTmucStop_kept (i : SiteId) (s : State) (hw : Sub 0x10100000000000000010000000000000 W) (h_s : Kept W s0 s) :
    ∃ t', execTmucStop i s = .next t' ∧ Kept W s0 t' := by
  refine ⟨_, rfl, ?_⟩
  unfold State.timed
  split
  case isFalse => exact st_fresh_kept _ (Sub.trans (by decide) hw) h_s
  refine tmuc_kept _ _ _ _ (Sub.trans (by decide) hw) ?_ (st_fresh_kept _ (Sub.trans (by decide) hw) h_s)
  intro u c s r hs hr
  dsimp only at hr
  repeat' split at hr
  all_goals first
    | (cases hr; done)
    | (simp only [Option.some.injEq] at hr; subst hr)
  all_goals repeat' first
    | with_reducible assumption
    | with_reducible refine skipGate_kept _ _ (Sub.trans (by decide) hw) ?_
    | with_reducible refine st_setTmu_kept _ _ _ (Sub.trans (by decide) hw) ?_

theorem execTmucDisarm_kept (i : SiteId) (s : State) (hw : Sub 0x10942000000000000030000000000000 W) (h_s : Kept W s0 s) :
    ∃ t', execTmucDisarm i s = .next t' ∧ Kept W s0 t' := by
  refine ⟨_, rfl, ?_⟩
  unfold State.timed
  split
  case isFalse => exact st_fresh_kept _ (Sub.trans (by decide) hw) h_s
  refine tmuc_kept _ _ _ _ (Sub.trans (by decide) hw) ?_ (st_fresh_kept _ (Sub.trans (by decide) hw) h_s)
  intro u c s r hs hr
  try dsimp only at hr
  split at hr
  · cases hr; exact tmuEnd_kept _ _ _ (Sub.trans (by decide) hw) hs
  · cases hr

theorem tmuAnswer_kept (t : Option Tag) (r : Nat × State) (hw : Sub 0x10000000000000040000000000000 W) (h_r : Kept W s0 r.2) :
    Kept W s0 (tmuAnswer t r) := by
  unfold tmuAnswer
  try dsimp only
  repeat' first
    | with_reducible assumption
    | (with_reducible refine st_p_kept _ _ _ ?_ ?_)
    | (with_reducible refine st_complete_kept _ _ _ _ (Sub.trans (by decide) hw) ?_ )
    | (with_reducible refine may_tk (hw.bit (by decide)) _ ?_)
    | decide
    | split

theorem execTmuArm_kept (t : Option Tag) (u : TmuId) (s : State)
    (hw : Sub 0x20952000000000000070000000000000 W) (h_s : Kept W s0 s) :
    ∃ t', execTmuArm t u s = .next t' ∧ Kept W s0 t' := by
  unfold execTmuArm
  refine st_either_kept _ _ _ _ _ (Sub.trans (by decide) hw) (by assumption) fun s h_s => ?_
  refine ⟨_, rfl, ?_⟩
  try dsimp only
  repeat' first
    | with_reducible assumption
    | (with_reducible refine st_fresh_kept _ (Sub.trans (by decide) hw) ?_ )
    | (with_reducible refine tmuHostCmd_kept _ _ _ (Sub.trans (by decide) hw) ?_ )
    | (with_reducible refine tmuAnswer_kept _ _ (Sub.trans (by decide) hw) ?_ )

theorem execTmuDisarm_kept (t : Option Tag) (u : TmuId) (s : State)
    (hw : Sub 0x20952000000000000070000000000000 W) (h_s : Kept W s0 s) :
    ∃ t', execTmuDisarm t u s = .next t' ∧ Kept W s0 t' := by
  unfold execTmuDisarm
  refine st_either_kept _ _ _ _ _ (Sub.trans (by decide) hw) (by assumption) fun s h_s => ?_
  refine ⟨_, rfl, ?_⟩
  try dsimp only
  repeat' first
    | with_reducible assumption
    | (with_reducible refine st_fresh_kept _ (Sub.trans (by decide) hw) ?_ )
    | (with_reducible refine tmuHostCmd_kept _ _ _ (Sub.trans (by decide) hw) ?_ )
    | (with_reducible refine tmuAnswer_kept _ _ (Sub.trans (by decide) hw) ?_ )

theorem startEdge_kept (u : TmuId) (x : Tmu) (ts : Int) (s : State)
    (hw : Sub 0x100000000000000010000000000000 W) (h_s : Kept W s0 s) :
    Kept W s0 (startEdge u x ts s) := by
  unfold startEdge
  try dsimp only
  repeat' first
    | with_reducible assumption
    | (with_reducible refine st_p_kept _ _ _ ?_ ?_)
    | (with_reducible refine st_setTmu_kept _ _ _ (Sub.trans (by decide) hw) ?_ )
    | (with_reducible refine may_tt (hw.bit (by decide)) _ _ ?_ ?_)
    | exact Fin.isLt _
    | decide

theorem tmuEdge_kept (u : TmuId) (elem : Fin 9) (ts at_ : Int) (s : State)
    (hw : Sub 0x100000000000000010000000000000 W) (h_s : Kept W s0 s) :
    Kept W s0 (tmuEdge u elem ts at_ s) := by
  unfold tmuEdge
  try dsimp only
  repeat' first
    | with_reducible assumption
    | (with_reducible refine st_p_kept _ _ _ ?_ ?_)
    | (with_reducible refine st_setTmu_kept _ _ _ (Sub.trans (by decide) hw) ?_ )
    | (with_reducible refine startEdge_kept _ _ _ _ (Sub.trans (by decide) hw) ?_ )
    | (with_reducible refine may_tt (hw.bit (by decide)) _ _ ?_ ?_)
    | exact Fin.isLt _
    | decide
    | split

theorem execTmuEdgeCapture_kept (u : TmuId) (elem : Fin 9) (coarse : BitVec 40) (fine : Fin 2048) (rise : Bool) (at_ : Int) (s : State)
    (hw : Sub 0x100000000000000010000000000000 W) (h_s : Kept W s0 s) :
    ∃ t', execTmuEdgeCapture u elem coarse fine rise at_ s = .next t' ∧ Kept W s0 t' := by
  unfold execTmuEdgeCapture
  refine ⟨_, rfl, ?_⟩
  try dsimp only
  repeat' first
    | with_reducible assumption
    | intro _
    | (with_reducible refine st_fresh_kept _ (Sub.trans (by decide) hw) ?_ )
    | (with_reducible refine st_timed_kept _ _ (Sub.trans (by decide) hw) ?_ ?_ )
    | (with_reducible refine tmuEdge_kept _ _ _ _ _ (Sub.trans (by decide) hw) ?_ )
    | with_reducible apply kept_ite

theorem tmuStopTimeout_kept (u : TmuId) (k : Fin 8) (s : State)
    (hw : Sub 0x100000000000000000000000000000 W) (h_s : Kept W s0 s) :
    Kept W s0 (tmuStopTimeout u k s) := by
  unfold tmuStopTimeout
  try dsimp only
  repeat' first
    | with_reducible assumption
    | (with_reducible refine st_setTmu_kept _ _ _ (Sub.trans (by decide) hw) ?_ )
    | with_reducible apply kept_ite

theorem execTmuStopTimeout_kept (u : TmuId) (k : Fin 8) (s : State)
    (hw : Sub 0x100000000000000000000000000000 W) (h_s : Kept W s0 s) :
    ∃ t', execTmuStopTimeout u k s = .next t' ∧ Kept W s0 t' := by
  unfold execTmuStopTimeout
  refine ⟨_, rfl, ?_⟩
  try dsimp only
  repeat' first
    | with_reducible assumption
    | intro _
    | (with_reducible refine st_fresh_kept _ (Sub.trans (by decide) hw) ?_ )
    | (with_reducible refine st_timed_kept _ _ (Sub.trans (by decide) hw) ?_ ?_ )
    | (with_reducible refine tmuStopTimeout_kept _ _ _ (Sub.trans (by decide) hw) ?_ )

theorem frequencyGateEnd_kept (u : TmuId) (s : State) (hw : Sub 0x100000000000000010000000000000 W) (h_s : Kept W s0 s) :
    Kept W s0 (frequencyGateEnd u s) := by
  unfold frequencyGateEnd
  try dsimp only
  repeat' first
    | with_reducible assumption
    | (with_reducible refine st_p_kept _ _ _ ?_ ?_)
    | (with_reducible refine st_setTmu_kept _ _ _ (Sub.trans (by decide) hw) ?_ )
    | with_reducible apply kept_ite
    | (with_reducible refine may_tt (hw.bit (by decide)) _ _ ?_ ?_)
    | exact Fin.isLt _
    | decide

theorem execFrequencyGateEnd_kept (u : TmuId) (s : State) (hw : Sub 0x100000000000000010000000000000 W) (h_s : Kept W s0 s) :
    ∃ t', execFrequencyGateEnd u s = .next t' ∧ Kept W s0 t' := by
  unfold execFrequencyGateEnd
  refine ⟨_, rfl, ?_⟩
  try dsimp only
  repeat' first
    | with_reducible assumption
    | intro _
    | (with_reducible refine st_fresh_kept _ (Sub.trans (by decide) hw) ?_ )
    | (with_reducible refine st_timed_kept _ _ (Sub.trans (by decide) hw) ?_ ?_ )
    | (with_reducible refine frequencyGateEnd_kept _ _ (Sub.trans (by decide) hw) ?_ )

theorem sampleResults_kept (u : TmuId) (x : Tmu) (s : State) (hw : Sub 0x140000000000000020000000000000 W) (h_s : Kept W s0 s) :
    Kept W s0 (sampleResults u x s) := by
  unfold sampleResults
  try dsimp only
  repeat' first
    | with_reducible assumption
    | intro _
    | (with_reducible refine st_cnt32_kept _ _ (Sub.trans (by decide) hw) ?_ ?_ )
    | (with_reducible refine missStop_kept _ _ _ (Sub.trans (by decide) hw) ?_ )
    | (with_reducible refine addValue_kept _ _ _ _ (Sub.trans (by decide) hw) ?_ )
    | exact usedStops_lt (by with_reducible assumption)
    | with_reducible apply kept_ite
    | with_reducible apply kept_foldl
    | (with_reducible refine may_tv (hw.bit (by decide)) _ _ ?_ ?_)
    | decide

theorem tmuSampleComplete_kept (u : TmuId) (s : State) (hw : Sub 0x942000000000000030000000000000 W) (h_s : Kept W s0 s) :
    Kept W s0 (tmuSampleComplete u s) := by
  unfold tmuSampleComplete
  try dsimp only
  repeat' first
    | with_reducible assumption
    | (with_reducible refine st_setTmu_kept _ _ _ (Sub.trans (by decide) hw) ?_ )
    | (with_reducible refine countSkips_kept _ _ (Sub.trans (by decide) hw) ?_ )
    | (with_reducible refine sampleDone_kept _ _ (Sub.trans (by decide) hw) ?_ )
    | (with_reducible refine sampleResults_kept _ _ _ (Sub.trans (by decide) hw) ?_ )
    | with_reducible apply kept_ite

theorem execTmuSampleComplete_kept (u : TmuId) (s : State) (hw : Sub 0x942000000000000030000000000000 W) (h_s : Kept W s0 s) :
    ∃ t', execTmuSampleComplete u s = .next t' ∧ Kept W s0 t' := by
  unfold execTmuSampleComplete
  refine ⟨_, rfl, ?_⟩
  try dsimp only
  repeat' first
    | with_reducible assumption
    | intro _
    | (with_reducible refine st_fresh_kept _ (Sub.trans (by decide) hw) ?_ )
    | (with_reducible refine st_timed_kept _ _ (Sub.trans (by decide) hw) ?_ ?_ )
    | (with_reducible refine tmuSampleComplete_kept _ _ (Sub.trans (by decide) hw) ?_ )

theorem tmuUnlock_kept (u : TmuId) (s : State) (hw : Sub 0x9c2000000000000030000000000000 W) (h_s : Kept W s0 s) :
    Kept W s0 (tmuUnlock u s) := by
  unfold tmuUnlock
  try dsimp only
  repeat' first
    | with_reducible assumption
    | (with_reducible refine List.forall_mem_cons.2 ⟨?_, ?_⟩)
    | intro _
    | (with_reducible refine st_p_kept _ _ _ ?_ ?_)
    | (with_reducible refine st_activate_kept _ _ _ _ (Sub.trans (by decide) hw) ?_ )
    | (with_reducible refine st_setTmu_kept _ _ _ (Sub.trans (by decide) hw) ?_ )
    | (with_reducible refine tmuEnd_kept _ _ _ (Sub.trans (by decide) hw) ?_ )
    | exact may_results (hw.bit (by decide)) (by with_reducible assumption)
    | with_reducible apply kept_foldl
    | (with_reducible refine may_tt (hw.bit (by decide)) _ _ ?_ ?_)
    | exact Fin.isLt _
    | decide
    | split

theorem execTmuUnlock_kept (u : TmuId) (s : State) (hw : Sub 0x9c2000000000000030000000000000 W) (h_s : Kept W s0 s) :
    ∃ t', execTmuUnlock u s = .next t' ∧ Kept W s0 t' := by
  unfold execTmuUnlock
  refine ⟨_, rfl, ?_⟩
  try dsimp only
  repeat' first
    | with_reducible assumption
    | intro _
    | (with_reducible refine st_fresh_kept _ (Sub.trans (by decide) hw) ?_ )
    | (with_reducible refine st_timed_kept _ _ (Sub.trans (by decide) hw) ?_ ?_ )
    | (with_reducible refine tmuUnlock_kept _ _ (Sub.trans (by decide) hw) ?_ )

theorem tmuFrameTaken_kept (i : SiteId) (f : Frame) (strobes : Vec → ChanId → List Int) (s : State)
    (hw : Sub 0x100000000000000000000000000000 W) (h_s : Kept W s0 s) :
    Kept W s0 (tmuFrameTaken i f strobes s) := by
  unfold tmuFrameTaken
  try dsimp only
  repeat' first
    | with_reducible assumption
    | intro _
    | (with_reducible refine st_setTmu_kept _ _ _ (Sub.trans (by decide) hw) ?_ )
    | with_reducible apply kept_ite
    | with_reducible apply kept_foldl

theorem tmuFrameResults_kept (i : SiteId) (num : Nat) (result : ChanId → Option Bool) (s : State)
    (hw : Sub 0x100000000000000000000000000000 W) (h_s : Kept W s0 s) :
    Kept W s0 (tmuFrameResults i num result s) := by
  unfold tmuFrameResults
  try dsimp only
  repeat' first
    | with_reducible assumption
    | intro _
    | (with_reducible refine st_setTmu_kept _ _ _ (Sub.trans (by decide) hw) ?_ )
    | with_reducible apply kept_ite
    | with_reducible apply kept_foldl

end Sys2Proof.Laws
end

