-- ==== Sys2Proof/Laws/KeptSegments.lean ====
section
/-! SUPPORT. One lemma per operation of Machine/Segments.lean: within which mask of parts it keeps the rest; a command's meaning
answers a next state that is so kept. The numeral of a mask has the bits of Area. -/
namespace Sys2Proof.Laws
open Sys2Proof Sys2Proof.Machine
variable {W : Nat} {s0 : State}

theorem failSeg_kept (n : Nat) (s : State) (hw : Sub 0x10400000000000000000000000000 W) (h_s : Kept W s0 s) :
    Kept W s0 (failSeg n s) := by
  unfold failSeg
  try dsimp only
  repeat' first
    | with_reducible assumption
    | (with_reducible refine st_setSeg_kept _ _ _ (hw.bit (by decide)) ?_)
    | (with_reducible refine st_complete_kept _ _ _ _ (Sub.trans (by decide) hw) ?_ )
    | with_reducible exact same
    | with_reducible exact host_same
    | with_reducible exact flt_same
    | with_reducible apply mem_upd
    | exact .inr (hw.bit (by decide))
    | simp only [kept_mk]
    | with_reducible apply kept_upd
    | split

theorem correctable_kept (u : Nat) (s : State) (hw : Sub 0x41000000000000000000000000000 W) (h_s : Kept W s0 s) :
    Kept W s0 (correctable u s) := by
  unfold correctable
  try dsimp only
  repeat' first
    | with_reducible assumption
    | (with_reducible refine st_raise_kept _ _ (Sub.trans (by decide) hw) ?_ )
    | with_reducible apply kept_ite
    | with_reducible exact same
    | with_reducible exact host_same
    | with_reducible exact flt_same
    | with_reducible apply mem_upd
    | exact .inr (hw.bit (by decide))
    | simp only [kept_mk]
    | with_reducible apply kept_upd

theorem moverCe_kept (k : SegKind) (n : Nat) (c : MoverCheck) (s : State)
    (hw : Sub 0x41000000000000000000040000000 W) (h_s : Kept W s0 s) :
    Kept W s0 (moverCe k n c s) := by
  unfold moverCe
  try dsimp only
  repeat' first
    | with_reducible assumption
    | (with_reducible refine st_cnt64_kept _ _ (Sub.trans (by decide) hw) ?_ ?_ )
    | (with_reducible refine correctable_kept _ _ (Sub.trans (by decide) hw) ?_ )
    | (with_reducible refine may_ds (hw.bit (by decide)) _ ?_)
    | decide
    | split

theorem moverUe_kept (k : SegKind) (n item : Nat) (sites : SiteMask) (s : State)
    (hw : Sub 0x50400000000000000000040000000 W) (h_s : Kept W s0 s) :
    Kept W s0 (moverUe k n item sites s) := by
  unfold moverUe
  try dsimp only
  repeat' first
    | with_reducible assumption
    | (with_reducible refine st_cnt64_kept _ _ (Sub.trans (by decide) hw) ?_ ?_ )
    | (with_reducible refine st_report_kept _ _ _ _ (Sub.trans (by decide) hw) ?_ )
    | (with_reducible refine failSeg_kept _ _ (Sub.trans (by decide) hw) ?_ )
    | (with_reducible refine may_ds (hw.bit (by decide)) _ ?_)
    | decide

theorem segAlloc_kept (t : Tag) (kind : SegKind) (home : Tier) (len : Nat) (s : State)
    (hw : Sub 0x10400000000000000000000000000 W) (h_s : Kept W s0 s) :
    Kept W s0 (segAlloc t kind home len s) := by
  unfold segAlloc
  try dsimp only
  repeat' first
    | with_reducible assumption
    | (with_reducible refine st_setSeg_kept _ _ _ (hw.bit (by decide)) ?_)
    | (with_reducible refine st_complete_kept _ _ _ _ (Sub.trans (by decide) hw) ?_ )
    | (with_reducible refine st_refuse_kept _ _ _ (Sub.trans (by decide) hw) ?_ )
    | with_reducible apply kept_ite

theorem execSegAlloc_kept (t : Tag) (kind : SegKind) (home : Tier) (len : Nat) (s : State)
    (hw : Sub 0x20010400000000000000000000000000 W) (h_s : Kept W s0 s) :
    ∃ t', execSegAlloc t kind home len s = .next t' ∧ Kept W s0 t' := by
  unfold execSegAlloc
  refine st_queued_kept _ _ _ _ _ (Sub.trans (by decide) hw) (by assumption) fun s h_s => ?_
  refine ⟨_, rfl, ?_⟩
  try dsimp only
  repeat' first
    | with_reducible assumption
    | (with_reducible refine st_fresh_kept _ (Sub.trans (by decide) hw) ?_ )
    | (with_reducible refine segAlloc_kept _ _ _ _ _ (Sub.trans (by decide) hw) ?_ )

theorem segSeal_kept (t : Tag) (n : SegId) (s : State) (hw : Sub 0x10400000000000000000000000000 W) (h_s : Kept W s0 s) :
    Kept W s0 (segSeal t n s) := by
  unfold segSeal
  try dsimp only
  repeat' first
    | with_reducible assumption
    | (with_reducible refine st_setSeg_kept _ _ _ (hw.bit (by decide)) ?_)
    | (with_reducible refine st_complete_kept _ _ _ _ (Sub.trans (by decide) hw) ?_ )
    | (with_reducible refine st_refuse_kept _ _ _ (Sub.trans (by decide) hw) ?_ )
    | split

theorem execSegSeal_kept (t : Tag) (n : SegId) (s : State) (hw : Sub 0x20010400000000000000000000000000 W) (h_s : Kept W s0 s) :
    ∃ t', execSegSeal t n s = .next t' ∧ Kept W s0 t' := by
  unfold execSegSeal
  refine st_queued_kept _ _ _ _ _ (Sub.trans (by decide) hw) (by assumption) fun s h_s => ?_
  refine ⟨_, rfl, ?_⟩
  try dsimp only
  repeat' first
    | with_reducible assumption
    | (with_reducible refine st_fresh_kept _ (Sub.trans (by decide) hw) ?_ )
    | (with_reducible refine segSeal_kept _ _ _ (Sub.trans (by decide) hw) ?_ )

theorem segUnseal_kept (t : Tag) (n : SegId) (s : State) (hw : Sub 0x10400000000000000000000000000 W) (h_s : Kept W s0 s) :
    Kept W s0 (segUnseal t n s) := by
  unfold segUnseal
  try dsimp only
  repeat' first
    | with_reducible assumption
    | (with_reducible refine st_setSeg_kept _ _ _ (hw.bit (by decide)) ?_)
    | (with_reducible refine st_complete_kept _ _ _ _ (Sub.trans (by decide) hw) ?_ )
    | (with_reducible refine st_refuse_kept _ _ _ (Sub.trans (by decide) hw) ?_ )
    | split

theorem execSegUnseal_kept (t : Tag) (n : SegId) (s : State) (hw : Sub 0x20010400000000000000000000000000 W) (h_s : Kept W s0 s) :
    ∃ t', execSegUnseal t n s = .next t' ∧ Kept W s0 t' := by
  unfold execSegUnseal
  refine st_queued_kept _ _ _ _ _ (Sub.trans (by decide) hw) (by assumption) fun s h_s => ?_
  refine ⟨_, rfl, ?_⟩
  try dsimp only
  repeat' first
    | with_reducible assumption
    | (with_reducible refine st_fresh_kept _ (Sub.trans (by decide) hw) ?_ )
    | (with_reducible refine segUnseal_kept _ _ _ (Sub.trans (by decide) hw) ?_ )

theorem segFree_kept (t : Tag) (n : SegId) (s : State) (hw : Sub 0x10400000000000000000000000000 W) (h_s : Kept W s0 s) :
    Kept W s0 (segFree t n s) := by
  unfold segFree
  try dsimp only
  repeat' first
    | with_reducible assumption
    | (with_reducible refine st_delSeg_kept _ _ (hw.bit (by decide)) ?_)
    | (with_reducible refine st_complete_kept _ _ _ _ (Sub.trans (by decide) hw) ?_ )
    | (with_reducible refine st_refuse_kept _ _ _ (Sub.trans (by decide) hw) ?_ )
    | split

theorem execSegFree_kept (t : Tag) (n : SegId) (s : State) (hw : Sub 0x20010400000000000000000000000000 W) (h_s : Kept W s0 s) :
    ∃ t', execSegFree t n s = .next t' ∧ Kept W s0 t' := by
  unfold execSegFree
  refine st_queued_kept _ _ _ _ _ (Sub.trans (by decide) hw) (by assumption) fun s h_s => ?_
  refine ⟨_, rfl, ?_⟩
  try dsimp only
  repeat' first
    | with_reducible assumption
    | (with_reducible refine st_fresh_kept _ (Sub.trans (by decide) hw) ?_ )
    | (with_reducible refine segFree_kept _ _ _ (Sub.trans (by decide) hw) ?_ )

theorem execSegQuery_kept (t : Tag) (n : SegId) (s : State) (hw : Sub 0x20010000000000000000000000000000 W) (h_s : Kept W s0 s) :
    ∃ t', execSegQuery t n s = .next t' ∧ Kept W s0 t' := by
  unfold execSegQuery
  refine st_queued_kept _ _ _ _ _ (Sub.trans (by decide) hw) (by assumption) fun s h_s => ?_
  refine ⟨_, rfl, ?_⟩
  try dsimp only
  repeat' first
    | with_reducible assumption
    | (with_reducible refine st_fresh_kept _ (Sub.trans (by decide) hw) ?_ )
    | (with_reducible refine st_complete_kept _ _ _ _ (Sub.trans (by decide) hw) ?_ )
    | (with_reducible refine st_toHost_kept _ _ _ (Sub.trans (by decide) hw) ?_ )

end Sys2Proof.Laws
end

