-- ==== Sys2Proof/Laws/KeptWave.lean ====
section
/-! SUPPORT. One lemma per operation of Machine/Wave.lean: within which mask of parts it keeps the rest; a command's meaning
answers a next state that is so kept. The numeral of a mask has the bits of Area. -/
namespace Sys2Proof.Laws
open Sys2Proof Sys2Proof.Machine
variable {W : Nat} {s0 : State}

theorem st_setEng_kept (s : State) (e : EngId) (x : Eng) (hw : Sub 0x200000000000000000000000000000 W) (h_s : Kept W s0 s) :
    Kept W s0 (State.setEng s e x) := by
  unfold State.setEng
  try dsimp only
  repeat' first
    | with_reducible assumption
    | with_reducible exact same
    | with_reducible exact mem_same
    | with_reducible exact host_same
    | with_reducible exact flt_same
    | exact .inr (hw.bit (by decide))
    | simp only [kept_mk]
    | with_reducible apply kept_upd

theorem wFault_kept (e : EngId) (src : Nat) (s : State) (hw : Sub 0x40000000000000000400000000000 W) (h_s : Kept W s0 s) :
    Kept W s0 (wFault e src s) := by
  unfold wFault
  try dsimp only
  repeat' first
    | with_reducible assumption
    | (with_reducible refine st_p_kept _ _ _ ?_ ?_)
    | (with_reducible refine st_report_kept _ _ _ _ (Sub.trans (by decide) hw) ?_ )
    | (with_reducible refine may_ws (hw.bit (by decide)) _ _ ?_ ?_)
    | exact Fin.isLt _
    | decide

theorem clipAct_kept (e : EngId) (at_ : Nat) (s : State) (hw : Sub 0x240000000000000000400000000000 W) (h_s : Kept W s0 s) :
    Kept W s0 (clipAct e at_ s) := by
  unfold clipAct
  try dsimp only
  repeat' first
    | with_reducible assumption
    | (with_reducible refine st_cnt64_kept _ _ (Sub.trans (by decide) hw) ?_ ?_ )
    | (with_reducible refine st_setEng_kept _ _ _ (Sub.trans (by decide) hw) ?_ )
    | (with_reducible refine wFault_kept _ _ _ (Sub.trans (by decide) hw) ?_ )
    | with_reducible apply kept_ite
    | (with_reducible refine may_ws (hw.bit (by decide)) _ _ ?_ ?_)
    | exact Fin.isLt _
    | decide

theorem handOver_kept (e : EngId) (s : State) (hw : Sub 0x240000000000000000400000000000 W) (h_s : Kept W s0 s) :
    Kept W s0 (handOver e s) := by
  unfold handOver
  try dsimp only
  repeat' first
    | with_reducible assumption
    | intro _
    | (with_reducible refine st_emit_kept _ _ (Sub.trans (by decide) hw) ?_ )
    | (with_reducible refine st_setEng_kept _ _ _ (Sub.trans (by decide) hw) ?_ )
    | (with_reducible refine clipAct_kept _ _ _ (Sub.trans (by decide) hw) ?_ )
    | with_reducible apply kept_foldl
    | split

theorem handOvers_kept (s : State) (hw : Sub 0x240000000000000000400000000000 W) (h_s : Kept W s0 s) :
    Kept W s0 (handOvers s) := by
  unfold handOvers
  try dsimp only
  repeat' first
    | with_reducible assumption
    | intro _
    | (with_reducible refine handOver_kept _ _ (Sub.trans (by decide) hw) ?_ )
    | with_reducible apply kept_foldl

theorem wEnter_kept (e : EngId) (st : Nat) (s : State) (hw : Sub 0x400000000000 W) (h_s : Kept W s0 s) :
    Kept W s0 (wEnter e st s) := by
  unfold wEnter
  try dsimp only
  repeat' first
    | with_reducible assumption
    | (with_reducible refine st_p_kept _ _ _ ?_ ?_)
    | with_reducible apply kept_ite
    | (with_reducible refine may_ws (hw.bit (by decide)) _ _ ?_ ?_)
    | exact Fin.isLt _
    | decide

theorem wRest_kept (e : EngId) (st : Nat) (s : State) (hw : Sub 0x200000000000000000400000000000 W) (h_s : Kept W s0 s) :
    Kept W s0 (wRest e st s) := by
  unfold wRest
  try dsimp only
  repeat' first
    | with_reducible assumption
    | (with_reducible refine st_setEng_kept _ _ _ (Sub.trans (by decide) hw) ?_ )
    | (with_reducible refine wEnter_kept _ _ _ (Sub.trans (by decide) hw) ?_ )

theorem wSeqFault_kept (e : EngId) (s : State) (hw : Sub 0x240000000000000000400000000000 W) (h_s : Kept W s0 s) :
    Kept W s0 (wSeqFault e s) := by
  unfold wSeqFault
  try dsimp only
  repeat' first
    | with_reducible assumption
    | (with_reducible refine wFault_kept _ _ _ (Sub.trans (by decide) hw) ?_ )
    | (with_reducible refine wRest_kept _ _ _ (Sub.trans (by decide) hw) ?_ )

theorem wIgnore_kept (e : EngId) (s : State) (hw : Sub 0x40000000000000000400000000000 W) (h_s : Kept W s0 s) :
    Kept W s0 (wIgnore e s) := by
  unfold wIgnore
  try dsimp only
  repeat' first
    | with_reducible assumption
    | (with_reducible refine st_cnt32_kept _ _ (Sub.trans (by decide) hw) ?_ ?_ )
    | (with_reducible refine wFault_kept _ _ _ (Sub.trans (by decide) hw) ?_ )
    | (with_reducible refine may_ws (hw.bit (by decide)) _ _ ?_ ?_)
    | exact Fin.isLt _
    | decide

theorem wPlay_kept (e : EngId) (k : Nat) (w : BitVec 128) (s : State)
    (hw : Sub 0x200000000000000000400000000000 W) (h_s : Kept W s0 s) :
    Kept W s0 (wPlay e k w s) := by
  unfold wPlay
  try dsimp only
  repeat' first
    | with_reducible assumption
    | (with_reducible refine st_p_kept _ _ _ ?_ ?_)
    | (with_reducible refine st_setEng_kept _ _ _ (Sub.trans (by decide) hw) ?_ )
    | with_reducible apply kept_ite
    | (with_reducible refine may_ws (hw.bit (by decide)) _ _ ?_ ?_)
    | exact Fin.isLt _
    | decide

theorem wBegin_kept (e : EngId) (k : Nat) (jumped : Bool) (s : State)
    (hw : Sub 0x240000000000000000400000000000 W) (h_s : Kept W s0 s) :
    Kept W s0 (wBegin e k jumped s) := by
  unfold wBegin
  try dsimp only
  repeat' first
    | with_reducible assumption
    | (with_reducible refine st_p_kept _ _ _ ?_ ?_)
    | (with_reducible refine st_setEng_kept _ _ _ (Sub.trans (by decide) hw) ?_ )
    | (with_reducible refine wEnter_kept _ _ _ (Sub.trans (by decide) hw) ?_ )
    | (with_reducible refine wSeqFault_kept _ _ (Sub.trans (by decide) hw) ?_ )
    | (with_reducible refine wPlay_kept _ _ _ _ (Sub.trans (by decide) hw) ?_ )
    | with_reducible apply kept_ite
    | (with_reducible refine may_ws (hw.bit (by decide)) _ _ ?_ ?_)
    | exact Fin.isLt _
    | decide

theorem wTakeJump_kept (e : EngId) (j : Jump) (s : State) (hw : Sub 0x240000000000000000400000000000 W) (h_s : Kept W s0 s) :
    Kept W s0 (wTakeJump e j s) := by
  unfold wTakeJump
  try dsimp only
  repeat' first
    | with_reducible assumption
    | (with_reducible refine st_cnt32_kept _ _ (Sub.trans (by decide) hw) ?_ ?_ )
    | (with_reducible refine st_setEng_kept _ _ _ (Sub.trans (by decide) hw) ?_ )
    | (with_reducible refine wBegin_kept _ _ _ _ (Sub.trans (by decide) hw) ?_ )
    | with_reducible apply kept_ite
    | (with_reducible refine may_ws (hw.bit (by decide)) _ _ ?_ ?_)
    | exact Fin.isLt _
    | decide

theorem wDropJump_kept (e : EngId) (s : State) (hw : Sub 0x200000000000000000400000000000 W) (h_s : Kept W s0 s) :
    Kept W s0 (wDropJump e s) := by
  unfold wDropJump
  try dsimp only
  repeat' first
    | with_reducible assumption
    | (with_reducible refine st_cnt32_kept _ _ (Sub.trans (by decide) hw) ?_ ?_ )
    | (with_reducible refine st_setEng_kept _ _ _ (Sub.trans (by decide) hw) ?_ )
    | (with_reducible refine may_ws (hw.bit (by decide)) _ _ ?_ ?_)
    | exact Fin.isLt _
    | decide

theorem wNatural_kept (e : EngId) (w : BitVec 128) (s : State) (hw : Sub 0x240000000000000000400000000000 W) (h_s : Kept W s0 s) :
    Kept W s0 (wNatural e w s) := by
  unfold wNatural
  try dsimp only
  repeat' first
    | with_reducible assumption
    | (with_reducible refine st_p_kept _ _ _ ?_ ?_)
    | (with_reducible refine st_setEng_kept _ _ _ (Sub.trans (by decide) hw) ?_ )
    | (with_reducible refine wRest_kept _ _ _ (Sub.trans (by decide) hw) ?_ )
    | (with_reducible refine wPlay_kept _ _ _ _ (Sub.trans (by decide) hw) ?_ )
    | (with_reducible refine wBegin_kept _ _ _ _ (Sub.trans (by decide) hw) ?_ )
    | with_reducible apply kept_ite
    | (with_reducible refine may_ws (hw.bit (by decide)) _ _ ?_ ?_)
    | exact Fin.isLt _
    | decide

theorem wBoundaryPlaying_kept (e : EngId) (s : State) (hw : Sub 0x240000000000000000400000000000 W) (h_s : Kept W s0 s) :
    Kept W s0 (wBoundaryPlaying e s) := by
  unfold wBoundaryPlaying
  try dsimp only
  repeat' first
    | with_reducible assumption
    | (with_reducible refine wRest_kept _ _ _ (Sub.trans (by decide) hw) ?_ )
    | (with_reducible refine wTakeJump_kept _ _ _ (Sub.trans (by decide) hw) ?_ )
    | (with_reducible refine wDropJump_kept _ _ (Sub.trans (by decide) hw) ?_ )
    | (with_reducible refine wNatural_kept _ _ _ (Sub.trans (by decide) hw) ?_ )
    | split

theorem wBoundaryWaiting_kept (e : EngId) (s : State) (hw : Sub 0x240000000000000000400000000000 W) (h_s : Kept W s0 s) :
    Kept W s0 (wBoundaryWaiting e s) := by
  unfold wBoundaryWaiting
  try dsimp only
  repeat' first
    | with_reducible assumption
    | (with_reducible refine wRest_kept _ _ _ (Sub.trans (by decide) hw) ?_ )
    | (with_reducible refine wPlay_kept _ _ _ _ (Sub.trans (by decide) hw) ?_ )
    | (with_reducible refine wTakeJump_kept _ _ _ (Sub.trans (by decide) hw) ?_ )
    | (with_reducible refine wDropJump_kept _ _ (Sub.trans (by decide) hw) ?_ )
    | split

theorem wFlistDue_kept (e : EngId) (s : State) (hw : Sub 0x200000000000000000400000000000 W) (h_s : Kept W s0 s) :
    Kept W s0 (wFlistDue e s) := by
  unfold wFlistDue
  try dsimp only
  repeat' first
    | with_reducible assumption
    | (with_reducible refine st_p_kept _ _ _ ?_ ?_)
    | (with_reducible refine st_cnt32_kept _ _ (Sub.trans (by decide) hw) ?_ ?_ )
    | (with_reducible refine st_setEng_kept _ _ _ (Sub.trans (by decide) hw) ?_ )
    | (with_reducible refine may_ws (hw.bit (by decide)) _ _ ?_ ?_)
    | exact Fin.isLt _
    | decide
    | split

theorem wGranule_kept (e : EngId) (s : State) (hw : Sub 0x200000000000000000400000000000 W) (h_s : Kept W s0 s) :
    Kept W s0 (wGranule e s) := by
  unfold wGranule
  try dsimp only
  repeat' first
    | with_reducible assumption
    | (with_reducible refine st_p_kept _ _ _ ?_ ?_)
    | (with_reducible refine st_setEng_kept _ _ _ (Sub.trans (by decide) hw) ?_ )
    | (with_reducible refine may_ws (hw.bit (by decide)) _ _ ?_ ?_)
    | exact Fin.isLt _
    | decide

theorem wPulseEnd_kept (e : EngId) (s : State) (hw : Sub 0x400000000000 W) (h_s : Kept W s0 s) :
    Kept W s0 (wPulseEnd e s) := by
  unfold wPulseEnd
  try dsimp only
  repeat' first
    | with_reducible assumption
    | (with_reducible refine st_p_kept _ _ _ ?_ ?_)
    | with_reducible apply kept_ite
    | (with_reducible refine may_ws (hw.bit (by decide)) _ _ ?_ ?_)
    | exact Fin.isLt _
    | decide

theorem wBoundary_kept (e : EngId) (s : State) (hw : Sub 0x240000000000000000400000000000 W) (h_s : Kept W s0 s) :
    Kept W s0 (wBoundary e s) := by
  unfold wBoundary
  try dsimp only
  repeat' first
    | with_reducible assumption
    | (with_reducible refine st_setEng_kept _ _ _ (Sub.trans (by decide) hw) ?_ )
    | (with_reducible refine wRest_kept _ _ _ (Sub.trans (by decide) hw) ?_ )
    | (with_reducible refine wBegin_kept _ _ _ _ (Sub.trans (by decide) hw) ?_ )
    | (with_reducible refine wTakeJump_kept _ _ _ (Sub.trans (by decide) hw) ?_ )
    | (with_reducible refine wBoundaryPlaying_kept _ _ (Sub.trans (by decide) hw) ?_ )
    | (with_reducible refine wBoundaryWaiting_kept _ _ (Sub.trans (by decide) hw) ?_ )
    | (with_reducible refine wFlistDue_kept _ _ (Sub.trans (by decide) hw) ?_ )
    | (with_reducible refine wGranule_kept _ _ (Sub.trans (by decide) hw) ?_ )
    | (with_reducible refine wPulseEnd_kept _ _ (Sub.trans (by decide) hw) ?_ )
    | split

theorem wRecovered_kept (e : EngId) (s : State) (hw : Sub 0x200000000000000000000000000000 W) (h_s : Kept W s0 s) :
    Kept W s0 (wRecovered e s) := by
  unfold wRecovered
  try dsimp only
  repeat' first
    | with_reducible assumption
    | (with_reducible refine st_setEng_kept _ _ _ (Sub.trans (by decide) hw) ?_ )
    | with_reducible apply kept_ite

theorem wSnap_kept (e : EngId) (s : State) (hw : Sub 0x200000000000000000000000000000 W) (h_s : Kept W s0 s) :
    Kept W s0 (wSnap e s) := by
  unfold wSnap
  try dsimp only
  repeat' first
    | with_reducible assumption
    | (with_reducible refine st_setEng_kept _ _ _ (Sub.trans (by decide) hw) ?_ )

theorem restSnaps_kept (s : State) (hw : Sub 0x200000000000000000000000000000 W) (h_s : Kept W s0 s) :
    Kept W s0 (restSnaps s) := by
  unfold restSnaps
  try dsimp only
  repeat' first
    | with_reducible assumption
    | intro _
    | (with_reducible refine wSnap_kept _ _ (Sub.trans (by decide) hw) ?_ )
    | with_reducible apply kept_ite
    | with_reducible apply kept_foldl

theorem granuleBoundary_kept (e : EngId) (s : State) (hw : Sub 0x240000000000000000400000000000 W) (h_s : Kept W s0 s) :
    Kept W s0 (granuleBoundary e s) := by
  unfold granuleBoundary
  try dsimp only
  repeat' first
    | with_reducible assumption
    | (with_reducible refine st_emits_kept _ _ (Sub.trans (by decide) hw) ?_ )
    | (with_reducible refine wBoundary_kept _ _ (Sub.trans (by decide) hw) ?_ )
    | (with_reducible refine wRecovered_kept _ _ (Sub.trans (by decide) hw) ?_ )
    | (with_reducible refine wSnap_kept _ _ (Sub.trans (by decide) hw) ?_ )
    | split

theorem execGranuleBoundary_kept (e : EngId) (s : State) (hw : Sub 0x240000000000000000400000000000 W) (h_s : Kept W s0 s) :
    ∃ t', execGranuleBoundary e s = .next t' ∧ Kept W s0 t' := by
  unfold execGranuleBoundary
  refine ⟨_, rfl, ?_⟩
  try dsimp only
  repeat' first
    | with_reducible assumption
    | intro _
    | (with_reducible refine st_fresh_kept _ (Sub.trans (by decide) hw) ?_ )
    | (with_reducible refine st_timed_kept _ _ (Sub.trans (by decide) hw) ?_ ?_ )
    | (with_reducible refine granuleBoundary_kept _ _ (Sub.trans (by decide) hw) ?_ )

theorem wfe_kept (code : Nat) (f : EngId → UnitCmd → State → State) (i : SiteId) (s : State)
    (hw : Sub 0x10000000000000000000000000000000 W) (h_f : ∀ a0 a1 s, Kept W s0 s → Kept W s0 (f a0 a1 s)) (h_s : Kept W s0 s) :
    Kept W s0 (wfe code f i s) := by
  unfold wfe
  try dsimp only
  repeat' first
    | with_reducible assumption
    | apply h_f
    | (with_reducible refine takeUnit_kept _ _ _ _ (Sub.trans (by decide) hw) ?_ _ (by assumption))
    | split

theorem wRequest_kept (e : EngId) (target : Nat) (seq : Bool) (r : Nat) (s : State)
    (hw : Sub 0x200000000000000000400000000000 W) (h_s : Kept W s0 s) :
    Kept W s0 (wRequest e target seq r s) := by
  unfold wRequest
  try dsimp only
  repeat' first
    | with_reducible assumption
    | (with_reducible refine st_cnt32_kept _ _ (Sub.trans (by decide) hw) ?_ ?_ )
    | (with_reducible refine st_setEng_kept _ _ _ (Sub.trans (by decide) hw) ?_ )
    | (with_reducible refine may_ws (hw.bit (by decide)) _ _ ?_ ?_)
    | exact Fin.isLt _
    | decide
    | split

theorem execWfeStart_kept (i : SiteId) (s : State) (hw : Sub 0x10240000000000000000400000000000 W) (h_s : Kept W s0 s) :
    ∃ t', execWfeStart i s = .next t' ∧ Kept W s0 t' := by
  unfold execWfeStart
  refine ⟨_, rfl, ?_⟩
  try dsimp only
  repeat' first
    | with_reducible assumption
    | intro _
    | (with_reducible refine st_p_kept _ _ _ ?_ ?_)
    | (with_reducible refine st_fresh_kept _ (Sub.trans (by decide) hw) ?_ )
    | (with_reducible refine st_timed_kept _ _ (Sub.trans (by decide) hw) ?_ ?_ )
    | (with_reducible refine st_setEng_kept _ _ _ (Sub.trans (by decide) hw) ?_ )
    | (with_reducible refine wEnter_kept _ _ _ (Sub.trans (by decide) hw) ?_ )
    | (with_reducible refine wIgnore_kept _ _ (Sub.trans (by decide) hw) ?_ )
    | (with_reducible refine wfe_kept _ _ _ _ (Sub.trans (by decide) hw) ?_ ?_ )
    | with_reducible apply kept_ite
    | (with_reducible refine may_ws (hw.bit (by decide)) _ _ ?_ ?_)
    | exact Fin.isLt _
    | decide

theorem execWfeStop_kept (i : SiteId) (s : State) (hw : Sub 0x10240000000000000000400000000000 W) (h_s : Kept W s0 s) :
    ∃ t', execWfeStop i s = .next t' ∧ Kept W s0 t' := by
  unfold execWfeStop
  refine ⟨_, rfl, ?_⟩
  try dsimp only
  repeat' first
    | with_reducible assumption
    | intro _
    | (with_reducible refine st_p_kept _ _ _ ?_ ?_)
    | (with_reducible refine st_fresh_kept _ (Sub.trans (by decide) hw) ?_ )
    | (with_reducible refine st_timed_kept _ _ (Sub.trans (by decide) hw) ?_ ?_ )
    | (with_reducible refine st_setEng_kept _ _ _ (Sub.trans (by decide) hw) ?_ )
    | (with_reducible refine wIgnore_kept _ _ (Sub.trans (by decide) hw) ?_ )
    | (with_reducible refine wfe_kept _ _ _ _ (Sub.trans (by decide) hw) ?_ ?_ )
    | with_reducible apply kept_ite
    | (with_reducible refine may_ws (hw.bit (by decide)) _ _ ?_ ?_)
    | exact Fin.isLt _
    | decide

theorem execWfeJump_kept (i : SiteId) (s : State) (hw : Sub 0x10240000000000000000400000000000 W) (h_s : Kept W s0 s) :
    ∃ t', execWfeJump i s = .next t' ∧ Kept W s0 t' := by
  unfold execWfeJump
  refine ⟨_, rfl, ?_⟩
  try dsimp only
  repeat' first
    | with_reducible assumption
    | intro _
    | (with_reducible refine st_fresh_kept _ (Sub.trans (by decide) hw) ?_ )
    | (with_reducible refine st_timed_kept _ _ (Sub.trans (by decide) hw) ?_ ?_ )
    | (with_reducible refine wIgnore_kept _ _ (Sub.trans (by decide) hw) ?_ )
    | (with_reducible refine wfe_kept _ _ _ _ (Sub.trans (by decide) hw) ?_ ?_ )
    | (with_reducible refine wRequest_kept _ _ _ _ _ (Sub.trans (by decide) hw) ?_ )
    | with_reducible apply kept_ite

theorem execWfeTrigger_kept (i : SiteId) (s : State) (hw : Sub 0x10240000000000000000400000000000 W) (h_s : Kept W s0 s) :
    ∃ t', execWfeTrigger i s = .next t' ∧ Kept W s0 t' := by
  unfold execWfeTrigger
  refine ⟨_, rfl, ?_⟩
  try dsimp only
  repeat' first
    | with_reducible assumption
    | intro _
    | (with_reducible refine st_p_kept _ _ _ ?_ ?_)
    | (with_reducible refine st_fresh_kept _ (Sub.trans (by decide) hw) ?_ )
    | (with_reducible refine st_timed_kept _ _ (Sub.trans (by decide) hw) ?_ ?_ )
    | (with_reducible refine st_setEng_kept _ _ _ (Sub.trans (by decide) hw) ?_ )
    | (with_reducible refine wIgnore_kept _ _ (Sub.trans (by decide) hw) ?_ )
    | (with_reducible refine wfe_kept _ _ _ _ (Sub.trans (by decide) hw) ?_ ?_ )
    | with_reducible apply kept_ite
    | (with_reducible refine may_ws (hw.bit (by decide)) _ _ ?_ ?_)
    | exact Fin.isLt _
    | decide

theorem execWfeFlist_kept (i : SiteId) (s : State) (hw : Sub 0x10240000000000000000400000000000 W) (h_s : Kept W s0 s) :
    ∃ t', execWfeFlist i s = .next t' ∧ Kept W s0 t' := by
  unfold execWfeFlist
  refine ⟨_, rfl, ?_⟩
  try dsimp only
  repeat' first
    | with_reducible assumption
    | intro _
    | (with_reducible refine st_fresh_kept _ (Sub.trans (by decide) hw) ?_ )
    | (with_reducible refine st_timed_kept _ _ (Sub.trans (by decide) hw) ?_ ?_ )
    | (with_reducible refine st_setEng_kept _ _ _ (Sub.trans (by decide) hw) ?_ )
    | (with_reducible refine wIgnore_kept _ _ (Sub.trans (by decide) hw) ?_ )
    | (with_reducible refine wfe_kept _ _ _ _ (Sub.trans (by decide) hw) ?_ ?_ )
    | with_reducible apply kept_ite

theorem wEvent_kept (n : EvtId) (r : Nat) (s : State) (hw : Sub 0x200000000000000000400000000000 W) (h_s : Kept W s0 s) :
    Kept W s0 (wEvent n r s) := by
  unfold wEvent
  try dsimp only
  repeat' first
    | with_reducible assumption
    | intro _
    | (with_reducible refine st_setEng_kept _ _ _ (Sub.trans (by decide) hw) ?_ )
    | (with_reducible refine wRequest_kept _ _ _ _ _ (Sub.trans (by decide) hw) ?_ )
    | with_reducible apply kept_foldl
    | split

theorem wFrameTaken_kept (i : SiteId) (f : Frame) (s : State) (hw : Sub 0x200000000000000000000000000000 W) (h_s : Kept W s0 s) :
    Kept W s0 (wFrameTaken i f s) := by
  unfold wFrameTaken
  try dsimp only
  repeat' first
    | with_reducible assumption
    | intro _
    | (with_reducible refine st_setEng_kept _ _ _ (Sub.trans (by decide) hw) ?_ )
    | with_reducible apply kept_ite
    | with_reducible apply kept_foldl

theorem wSiteEnded_kept (i : SiteId) (s : State) (hw : Sub 0x200000000000000000400000000000 W) (h_s : Kept W s0 s) :
    Kept W s0 (wSiteEnded i s) := by
  unfold wSiteEnded
  try dsimp only
  repeat' first
    | with_reducible assumption
    | intro _
    | (with_reducible refine wRest_kept _ _ _ (Sub.trans (by decide) hw) ?_ )
    | with_reducible apply kept_ite
    | with_reducible apply kept_foldl

theorem loadHeads_kept (e : EngId) (s : State) (hw : Sub 0x200000000000000000000000000000 W) (h_s : Kept W s0 s) :
    Kept W s0 (loadHeads e s) := by
  unfold loadHeads
  try dsimp only
  repeat' first
    | with_reducible assumption
    | (with_reducible refine st_advance_kept _ (Sub.trans (by decide) hw) ?_ )
    | (with_reducible refine st_setEng_kept _ _ _ (Sub.trans (by decide) hw) ?_ )
    | with_reducible apply kept_ite

theorem wSiteArmed_kept (i : SiteId) (s : State) (hw : Sub 0x200000000000000000400000000000 W) (h_s : Kept W s0 s) :
    Kept W s0 (wSiteArmed i s) := by
  unfold wSiteArmed
  try dsimp only
  repeat' first
    | with_reducible assumption
    | (with_reducible refine List.forall_mem_cons.2 ⟨?_, ?_⟩)
    | with_reducible exact List.forall_mem_nil _
    | intro _
    | (with_reducible refine st_zero_kept _ _ (Sub.trans (by decide) hw) ?_ ?_ )
    | (with_reducible refine st_setEng_kept _ _ _ (Sub.trans (by decide) hw) ?_ )
    | (with_reducible refine wRest_kept _ _ _ (Sub.trans (by decide) hw) ?_ )
    | (with_reducible refine loadHeads_kept _ _ (Sub.trans (by decide) hw) ?_ )
    | with_reducible apply kept_ite
    | with_reducible apply kept_foldl
    | (with_reducible refine may_ws (hw.bit (by decide)) _ _ ?_ ?_)
    | exact Fin.isLt _
    | decide

theorem dropGranule_kept (e : EngId) (s : State) (hw : Sub 0x200000000000000000000000000000 W) (h_s : Kept W s0 s) :
    Kept W s0 (dropGranule e s) := by
  unfold dropGranule
  try dsimp only
  repeat' first
    | with_reducible assumption
    | (with_reducible refine st_setEng_kept _ _ _ (Sub.trans (by decide) hw) ?_ )

theorem execWfSampleLate_kept (e : EngId) (s : State) (hw : Sub 0x240000000000000000400000000000 W) (h_s : Kept W s0 s) :
    ∃ t', execWfSampleLate e s = .next t' ∧ Kept W s0 t' := by
  unfold execWfSampleLate
  refine ⟨_, rfl, ?_⟩
  try dsimp only
  repeat' first
    | with_reducible assumption
    | intro _
    | (with_reducible refine st_cnt64_kept _ _ (Sub.trans (by decide) hw) ?_ ?_ )
    | (with_reducible refine st_fresh_kept _ (Sub.trans (by decide) hw) ?_ )
    | (with_reducible refine st_timed_kept _ _ (Sub.trans (by decide) hw) ?_ ?_ )
    | (with_reducible refine st_setEng_kept _ _ _ (Sub.trans (by decide) hw) ?_ )
    | (with_reducible refine wFault_kept _ _ _ (Sub.trans (by decide) hw) ?_ )
    | (with_reducible refine dropGranule_kept _ _ (Sub.trans (by decide) hw) ?_ )
    | with_reducible apply kept_ite
    | (with_reducible refine may_ws (hw.bit (by decide)) _ _ ?_ ?_)
    | exact Fin.isLt _
    | decide

theorem execWfRecoveryEnd_kept (e : EngId) (s : State) (hw : Sub 0x200000000000000000000000000000 W) (h_s : Kept W s0 s) :
    ∃ t', execWfRecoveryEnd e s = .next t' ∧ Kept W s0 t' := by
  unfold execWfRecoveryEnd
  refine ⟨_, rfl, ?_⟩
  try dsimp only
  repeat' first
    | with_reducible assumption
    | intro _
    | (with_reducible refine st_fresh_kept _ (Sub.trans (by decide) hw) ?_ )
    | (with_reducible refine st_timed_kept _ _ (Sub.trans (by decide) hw) ?_ ?_ )
    | (with_reducible refine wRecovered_kept _ _ (Sub.trans (by decide) hw) ?_ )

theorem execWfSampleUe_kept (e : EngId) (stack : Fin 4) (s : State)
    (hw : Sub 0x250400000000000000400020000000 W) (h_s : Kept W s0 s) :
    ∃ t', execWfSampleUe e stack s = .next t' ∧ Kept W s0 t' := by
  unfold execWfSampleUe
  refine ⟨_, rfl, ?_⟩
  try dsimp only
  repeat' first
    | with_reducible assumption
    | intro _
    | (with_reducible refine st_cnt64_kept _ _ (Sub.trans (by decide) hw) ?_ ?_ )
    | (with_reducible refine st_emits_kept _ _ (Sub.trans (by decide) hw) ?_ )
    | (with_reducible refine st_fresh_kept _ (Sub.trans (by decide) hw) ?_ )
    | (with_reducible refine st_timed_kept _ _ (Sub.trans (by decide) hw) ?_ ?_ )
    | (with_reducible refine st_report_kept _ _ _ _ (Sub.trans (by decide) hw) ?_ )
    | (with_reducible refine failSeg_kept _ _ (Sub.trans (by decide) hw) ?_ )
    | (with_reducible refine wRest_kept _ _ _ (Sub.trans (by decide) hw) ?_ )
    | (with_reducible refine dropGranule_kept _ _ (Sub.trans (by decide) hw) ?_ )
    | with_reducible apply kept_ite
    | (with_reducible refine may_hs (hw.bit (by decide)) _ ?_)
    | decide

end Sys2Proof.Laws
end

