-- ==== Sys2Proof/Laws/KeptSiteEnd.lean ====
section
/-! SUPPORT. One lemma per operation of Machine/SiteEnd.lean: within which mask of parts it keeps the rest; a command's meaning
answers a next state that is so kept. The numeral of a mask has the bits of Area. -/
namespace Sys2Proof.Laws
open Sys2Proof Sys2Proof.Machine
variable {W : Nat} {s0 : State}

theorem waitLog_kept (i : SiteId) (a : Nat) (e : FailE) (s : State)
    (hw : Sub 0x2000000000000000000000000000 W) (h_s : Kept W s0 s) :
    Kept W s0 (waitLog i a e s) := by
  unfold waitLog
  try dsimp only
  repeat' first
    | with_reducible assumption
    | (with_reducible refine st_modSite_kept _ _ _ (Sub.trans (by decide) hw) ?_ )

theorem flushLog_kept (i : SiteId) (upTo : Nat) (s : State) (hw : Sub 0x2000000000000000000000000000 W) (h_s : Kept W s0 s) :
    Kept W s0 (flushLog i upTo s) := by
  unfold flushLog
  try dsimp only
  repeat' first
    | with_reducible assumption
    | (with_reducible refine st_modSite_kept _ _ _ (Sub.trans (by decide) hw) ?_ )

theorem closeFails_kept (i : SiteId) (s : State) (hw : Sub 0x2000000000000000000000000000 W) (h_s : Kept W s0 s) :
    Kept W s0 (closeFails i s) := by
  unfold closeFails
  try dsimp only
  repeat' first
    | with_reducible assumption
    | (with_reducible refine st_modSite_kept _ _ _ (Sub.trans (by decide) hw) ?_ )

theorem closePad_kept (i : SiteId) (first : Option Vec) (s : State)
    (hw : Sub 0x2000000000000000000000000000 W) (h_s : Kept W s0 s) :
    Kept W s0 (closePad i first s) := by
  unfold closePad
  try dsimp only
  repeat' first
    | with_reducible assumption
    | (with_reducible refine st_modSite_kept _ _ _ (Sub.trans (by decide) hw) ?_ )
    | (with_reducible refine waitLog_kept _ _ _ _ (Sub.trans (by decide) hw) ?_ )
    | split

theorem cutLog_kept (i : SiteId) (s : State) (hw : Sub 0x2000000000000000000000000000 W) (h_s : Kept W s0 s) :
    Kept W s0 (cutLog i s) := by
  unfold cutLog
  try dsimp only
  repeat' first
    | with_reducible assumption
    | (with_reducible refine st_modSite_kept _ _ _ (Sub.trans (by decide) hw) ?_ )

theorem freeSpar_kept (p : SparId) (s : State) (hw : Sub 0x80000000000 W) (h_s : Kept W s0 s) :
    Kept W s0 (freeSpar p s) := by
  unfold freeSpar
  try dsimp only
  repeat' first
    | with_reducible assumption
    | (with_reducible refine st_p_kept _ _ _ ?_ ?_)
    | (with_reducible refine may_sp (hw.bit (by decide)) _ _ ?_ ?_)
    | exact Fin.isLt _
    | decide

theorem putSwapBit_kept (i : SiteId) (on : Bool) (s : State) (hw : Sub 0x400000 W) (h_s : Kept W s0 s) :
    Kept W s0 (putSwapBit i on s) := by
  unfold putSwapBit
  try dsimp only
  repeat' first
    | with_reducible assumption
    | (with_reducible refine st_p_kept _ _ _ ?_ ?_)
    | (with_reducible refine may_sr (hw.bit (by decide)) _ _ ?_ ?_)
    | exact Fin.isLt _
    | decide

theorem dropSwap_kept (i : SiteId) (s : State) (hw : Sub 0x2000000000000000000000400000 W) (h_s : Kept W s0 s) :
    Kept W s0 (dropSwap i s) := by
  unfold dropSwap
  try dsimp only
  repeat' first
    | with_reducible assumption
    | (with_reducible refine st_modSite_kept _ _ _ (Sub.trans (by decide) hw) ?_ )
    | (with_reducible refine putSwapBit_kept _ _ _ (Sub.trans (by decide) hw) ?_ )

theorem calClear_kept (b : BankId) (s : State) (hw : Sub 0x820000000000000000090000000000 W) (h_s : Kept W s0 s) :
    Kept W s0 (calClear b s) := by
  unfold calClear
  try dsimp only
  repeat' first
    | with_reducible assumption
    | intro _
    | (with_reducible refine st_p_kept _ _ _ ?_ ?_)
    | (with_reducible refine st_setCalBank_kept _ _ _ (Sub.trans (by decide) hw) ?_ )
    | (with_reducible refine cancelJobs_kept _ _ (Sub.trans (by decide) hw) ?_ )
    | (with_reducible refine freeSpar_kept _ _ (Sub.trans (by decide) hw) ?_ )
    | with_reducible apply kept_foldl
    | (with_reducible refine may_cc (hw.bit (by decide)) _ _ ?_ ?_)
    | exact Fin.isLt _
    | decide
    | split

theorem calSiteEnded_kept (i : SiteId) (s : State) (hw : Sub 0x822000000000000000088000000000 W) (h_s : Kept W s0 s) :
    Kept W s0 (calSiteEnded i s) := by
  unfold calSiteEnded
  try dsimp only
  repeat' first
    | with_reducible assumption
    | intro _
    | (with_reducible refine st_p_kept _ _ _ ?_ ?_)
    | (with_reducible refine st_modSite_kept _ _ _ (Sub.trans (by decide) hw) ?_ )
    | (with_reducible refine st_setCalBank_kept _ _ _ (Sub.trans (by decide) hw) ?_ )
    | (with_reducible refine cancelJobs_kept _ _ (Sub.trans (by decide) hw) ?_ )
    | (with_reducible refine freeSpar_kept _ _ (Sub.trans (by decide) hw) ?_ )
    | with_reducible apply kept_foldl
    | (with_reducible refine may_ch (hw.bit (by decide)) _ _ ?_ ?_)
    | exact Fin.isLt _
    | decide
    | split

theorem changeover_kept (c : ChanId) (v : Nat) (s : State) (hw : Sub 0x80000000000000000088000000000 W) (h_s : Kept W s0 s) :
    Kept W s0 (changeover c v s) := by
  unfold changeover
  try dsimp only
  repeat' first
    | with_reducible assumption
    | (with_reducible refine st_p_kept _ _ _ ?_ ?_)
    | (with_reducible refine freeSpar_kept _ _ (Sub.trans (by decide) hw) ?_ )
    | with_reducible apply kept_ite
    | (with_reducible refine may_ch (hw.bit (by decide)) _ _ ?_ ?_)
    | with_reducible exact same
    | with_reducible exact mem_same
    | with_reducible exact host_same
    | with_reducible apply flt_upd
    | exact .inr (hw.bit (by decide))
    | exact Fin.isLt _
    | decide
    | simp only [kept_mk]
    | with_reducible apply kept_upd

theorem changeovers_kept (l : List (ChanId × Nat)) (s : State) (hw : Sub 0x80000000000000000088000000000 W) (h_s : Kept W s0 s) :
    Kept W s0 (changeovers l s) := by
  unfold changeovers
  try dsimp only
  repeat' first
    | with_reducible assumption
    | intro _
    | (with_reducible refine changeover_kept _ _ _ (Sub.trans (by decide) hw) ?_ )
    | with_reducible apply kept_ite
    | with_reducible apply kept_foldl

theorem switchAt_kept (i : SiteId) (c : ChanId) (v kind : Nat) (t : Int) (s : State)
    (hw : Sub 0x2000000000000000000000000000 W) (h_s : Kept W s0 s) :
    Kept W s0 (switchAt i c v kind t s) := by
  unfold switchAt
  try dsimp only
  repeat' first
    | with_reducible assumption
    | (with_reducible refine st_modSite_kept _ _ _ (Sub.trans (by decide) hw) ?_ )

theorem swapAt_kept (i : SiteId) (f : Frame) (s : State) (hw : Sub 0x2000000000000000000000000000 W) (h_s : Kept W s0 s) :
    Kept W s0 (swapAt i f s) := by
  unfold swapAt
  try dsimp only
  repeat' first
    | with_reducible assumption
    | (with_reducible refine switchAt_kept _ _ _ _ _ _ (Sub.trans (by decide) hw) ?_ )
    | split

theorem eaveTaken_kept (i : SiteId) (f : Frame) (s : State) (hw : Sub 0x2000000000000000000000000000 W) (h_s : Kept W s0 s) :
    Kept W s0 (eaveTaken i f s) := by
  unfold eaveTaken
  try dsimp only
  repeat' first
    | with_reducible assumption
    | intro _
    | (with_reducible refine st_setSite_kept _ _ _ (Sub.trans (by decide) hw) ?_ )
    | (with_reducible refine switchAt_kept _ _ _ _ _ _ (Sub.trans (by decide) hw) ?_ )
    | (with_reducible refine swapAt_kept _ _ _ (Sub.trans (by decide) hw) ?_ )
    | with_reducible apply kept_foldl
    | split

theorem endMarks_kept (i : SiteId) (time : Int) (s : State) (hw : Sub 0x202000000000000000400000000000 W) (h_s : Kept W s0 s) :
    Kept W s0 (endMarks i time s) := by
  unfold endMarks
  try dsimp only
  repeat' first
    | with_reducible assumption
    | (with_reducible refine st_emits_kept _ _ (Sub.trans (by decide) hw) ?_ )
    | (with_reducible refine flushMk_kept _ _ _ (Sub.trans (by decide) hw) ?_ )
    | (with_reducible refine dropMarks_kept _ _ _ (Sub.trans (by decide) hw) ?_ )
    | (with_reducible refine wSiteEnded_kept _ _ (Sub.trans (by decide) hw) ?_ )

theorem siteEnds_kept (i : SiteId) (st : Nat) (s : State) (hw : Sub 0xbe2000000000000030488080410080 W) (h_s : Kept W s0 s) :
    Kept W s0 (siteEnds i st s) := by
  unfold siteEnds
  try dsimp only
  repeat' first
    | with_reducible assumption
    | (with_reducible refine st_p_kept _ _ _ ?_ ?_)
    | (with_reducible refine st_modSite_kept _ _ _ (Sub.trans (by decide) hw) ?_ )
    | (with_reducible refine st_setSt_kept _ _ _ (Sub.trans (by decide) hw) ?_ )
    | (with_reducible refine st_releaseRes_kept _ _ (Sub.trans (by decide) hw) ?_ )
    | (with_reducible refine tmuSiteEnded_kept _ _ (Sub.trans (by decide) hw) ?_ )
    | (with_reducible refine slathAfter_kept _ _ _ _ (Sub.trans (by decide) hw) ?_ )
    | (with_reducible refine slathCut_kept _ _ _ _ (Sub.trans (by decide) hw) ?_ )
    | (with_reducible refine flushLog_kept _ _ _ (Sub.trans (by decide) hw) ?_ )
    | (with_reducible refine closeFails_kept _ _ (Sub.trans (by decide) hw) ?_ )
    | (with_reducible refine closePad_kept _ _ _ (Sub.trans (by decide) hw) ?_ )
    | (with_reducible refine cutLog_kept _ _ (Sub.trans (by decide) hw) ?_ )
    | (with_reducible refine calSiteEnded_kept _ _ (Sub.trans (by decide) hw) ?_ )
    | (with_reducible refine changeovers_kept _ _ (Sub.trans (by decide) hw) ?_ )
    | (with_reducible refine endMarks_kept _ _ _ (Sub.trans (by decide) hw) ?_ )
    | with_reducible apply kept_ite
    | (with_reducible refine may_sr (hw.bit (by decide)) _ _ ?_ ?_)
    | (with_reducible refine may_st (hw.bit (by decide)) _ _ ?_ ?_)
    | exact Fin.isLt _
    | decide

theorem parkSite_kept (i : SiteId) (src : Nat) (s : State) (hw : Sub 0xbe2000000000000030488080410080 W) (h_s : Kept W s0 s) :
    Kept W s0 (parkSite i src s) := by
  unfold parkSite
  try dsimp only
  repeat' first
    | with_reducible assumption
    | (with_reducible refine st_p_kept _ _ _ ?_ ?_)
    | (with_reducible refine st_advance_kept _ (Sub.trans (by decide) hw) ?_ )
    | (with_reducible refine st_modSite_kept _ _ _ (Sub.trans (by decide) hw) ?_ )
    | (with_reducible refine st_event_kept _ _ _ _ _ (Sub.trans (by decide) hw) ?_ )
    | (with_reducible refine siteEnds_kept _ _ _ (Sub.trans (by decide) hw) ?_ )
    | (with_reducible refine may_sr (hw.bit (by decide)) _ _ ?_ ?_)
    | (with_reducible refine may_st (hw.bit (by decide)) _ _ ?_ ?_)
    | exact Fin.isLt _
    | decide
    | split

theorem parkRaise_kept (i : SiteId) (src : Nat) (detail : Nat) (s : State)
    (hw : Sub 0xbe2000000000000030488080410080 W) (h_s : Kept W s0 s) :
    Kept W s0 (parkRaise i src detail s) := by
  unfold parkRaise
  try dsimp only
  repeat' first
    | with_reducible assumption
    | (with_reducible refine st_report_kept _ _ _ _ (Sub.trans (by decide) hw) ?_ )
    | (with_reducible refine parkSite_kept _ _ _ (Sub.trans (by decide) hw) ?_ )

theorem execSitePark_kept (i : SiteId) (src : BitVec 16) (s : State)
    (hw : Sub 0xbe2000000000000030488080410080 W) (h_s : Kept W s0 s) :
    ∃ t', execSitePark i src s = .next t' ∧ Kept W s0 t' := by
  unfold execSitePark
  refine ⟨_, rfl, ?_⟩
  try dsimp only
  repeat' first
    | with_reducible assumption
    | intro _
    | (with_reducible refine st_fresh_kept _ (Sub.trans (by decide) hw) ?_ )
    | (with_reducible refine st_timed_kept _ _ (Sub.trans (by decide) hw) ?_ ?_ )
    | (with_reducible refine parkSite_kept _ _ _ (Sub.trans (by decide) hw) ?_ )

end Sys2Proof.Laws
end

