-- ==== Sys2Proof/Laws/KeptFaults.lean ====
section
/-! SUPPORT. One lemma per operation of Machine/Faults.lean: within which mask of parts it keeps the rest; a command's meaning
answers a next state that is so kept. The numeral of a mask has the bits of Area. -/
namespace Sys2Proof.Laws
open Sys2Proof Sys2Proof.Machine
variable {W : Nat} {s0 : State}

theorem handling_lt {s : State} {k : Nat} (h : handling s = some k) : k < 32 := by
  unfold handling at h
  split at h
  · cases h; assumption
  · cases h

theorem newRecord_lt {s : State} {k : Nat} (h : newRecord s = some k) : k < 32 := by
  unfold newRecord at h
  split at h
  · cases h; exact lt_of_find (by assumption)
  · simpa using List.find?_some h

theorem foldl_pick {f : Option Nat → Nat → Bool} {n : Nat} (l : List Nat) : ∀ (m : Option Nat), (∀ j, m = some j → j < n) →
    (∀ j ∈ l, j < n) → ∀ k, l.foldl (fun m k => if f m k then some k else m) m = some k → k < n := by
  induction l with
  | nil => intro m hm _ k h; exact hm k h
  | cons a r ih =>
    intro m hm hl k h
    refine ih _ ?_ (fun j hj => hl j (List.mem_cons_of_mem _ hj)) k h
    intro j hj
    cases e : f m a
    · simp only [e, Bool.false_eq_true, if_false] at hj; exact hm j hj
    · simp only [e, if_true] at hj; cases hj; exact hl _ List.mem_cons_self

theorem newestHeld_lt {s : State} {k : Nat} (h : newestHeld s = some k) : k < 32 :=
  foldl_pick (f := fun m k => epState s k == epHeld &&
    (match m with | some j => decide (s.n (K.ep_EP_NUM j) < s.n (K.ep_EP_NUM k)) | none => true)) _ none (by simp)
    (fun j hj => List.mem_range.1 hj) k h

theorem epRecord_lt {s : State} {num k : Nat} (h : epRecord s num = some k) : k < 32 := lt_of_find h

theorem causeOf_lt {s : State} {k src j : Nat} (h : causeOf s k src = some j) : j < 8 := lt_of_find h

theorem freeCause_lt {s : State} {k j : Nat} (h : freeCause s k = some j) : j < 8 := lt_of_find h

theorem retireEntry_lt {s : State} {u : RUnit} {j : Nat} (h : retireEntry s u = some j) : j < 32 := lt_of_find h

theorem mem_episodes {p q : Nat → Bool} {k : Nat} (h : k ∈ ((List.range 32).filter p).filter q) : k < 32 :=
  List.mem_range.1 (List.mem_filter.1 (List.mem_filter.1 h).1).1

theorem st_setSrc_kept (s : State) (src : Nat) (x : SrcStat) (hw : Sub 0x80000000000000000000000000000 W) (h_s : Kept W s0 s) :
    Kept W s0 (State.setSrc s src x) := by
  exact kept_src s src _ (hw.bit (by decide)) h_s

theorem announce_kept (k : Nat) (s : State) (hw : Sub 0x68000000000000000000000000004 W) (h_s : Kept W s0 s) :
    Kept W s0 (announce k s) := by
  unfold announce
  try dsimp only
  repeat' first
    | with_reducible assumption
    | (with_reducible refine signal_kept _ _ _ (Sub.trans (by decide) hw) ?_ )
    | (with_reducible refine notify_kept _ _ _ (Sub.trans (by decide) hw) ?_ )
    | with_reducible apply kept_ite

theorem epLog_kept (kind src k data : Nat) (s : State) (hw : Sub 0x4000000000000000000000000000000 W) (h_s : Kept W s0 s) :
    Kept W s0 (epLog kind src k data s) := by
  unfold epLog
  try dsimp only
  repeat' first
    | with_reducible assumption
    | (with_reducible refine st_logSrc_kept _ _ (Sub.trans (by decide) hw) ?_ )

theorem parkAll_kept (src : Nat) (m : SiteMask) (s : State) (hw : Sub 0xbe2000000000000030488080410080 W) (h_s : Kept W s0 s) :
    Kept W s0 (parkAll src m s) := by
  unfold parkAll
  try dsimp only
  repeat' first
    | with_reducible assumption
    | intro _
    | (with_reducible refine eachSite_kept _ _ _ (Sub.trans (by decide) hw) ?_ ?_ )
    | (with_reducible refine parkSite_kept _ _ _ (Sub.trans (by decide) hw) ?_ )

theorem react_kept (src sev : Nat) (sites : SiteMask) (s : State)
    (hw : Sub 0x1be20000000000000b0488080410080 W) (h_s : Kept W s0 s) :
    Kept W s0 (react src sev sites s) := by
  unfold react
  try dsimp only
  repeat' first
    | with_reducible assumption
    | intro _
    | (with_reducible refine wRest_kept _ _ _ (Sub.trans (by decide) hw) ?_ )
    | (with_reducible refine levelsToPark_kept _ _ (Sub.trans (by decide) hw) ?_ )
    | (with_reducible refine parkAll_kept _ _ _ (Sub.trans (by decide) hw) ?_ )
    | with_reducible apply kept_ite
    | with_reducible apply kept_foldl

theorem adopt_kept (src k : Nat) (s : State) (hw : Sub 0x2000000100000000000000000000 W) (hk : k < 32) (h_s : Kept W s0 s) :
    Kept W s0 (adopt src k s).1 := by
  unfold adopt
  try dsimp only
  repeat' first
    | with_reducible assumption
    | intro _
    | (with_reducible refine st_p_kept _ _ _ ?_ ?_)
    | (with_reducible refine st_modSite_kept _ _ _ (Sub.trans (by decide) hw) ?_ )
    | (with_reducible refine eachSite_kept _ _ _ (Sub.trans (by decide) hw) ?_ ?_ )
    | (with_reducible refine may_ep (hw.bit (by decide)) _ _ ?_ ?_)
    | decide

theorem raiseSev_kept (k src sev : Nat) (sites : SiteMask) (s : State)
    (hw : Sub 0x1bea0000001000000b0488080410084 W) (hk : k < 32) (h_s : Kept W s0 s) :
    Kept W s0 (raiseSev k src sev sites s) := by
  unfold raiseSev
  try dsimp only
  repeat' first
    | with_reducible assumption
    | (with_reducible refine st_p_kept _ _ _ ?_ ?_)
    | (with_reducible refine announce_kept _ _ (Sub.trans (by decide) hw) ?_ )
    | (with_reducible refine react_kept _ _ _ _ (Sub.trans (by decide) hw) ?_ )
    | (with_reducible refine adopt_kept _ _ _ (Sub.trans (by decide) hw) ?_ ?_ )
    | with_reducible apply kept_ite
    | (with_reducible refine may_ep (hw.bit (by decide)) _ _ ?_ ?_)
    | decide

theorem setVerdict_kept (k src verdict sev : Nat) (s : State)
    (hw : Sub 0x5bea0000001000000b0498080410084 W) (hk : k < 32) (h_s : Kept W s0 s) :
    Kept W s0 (setVerdict k src verdict sev s) := by
  unfold setVerdict
  try dsimp only
  repeat' first
    | with_reducible assumption
    | (with_reducible refine st_p_kept _ _ _ ?_ ?_)
    | (have hj := causeOf_lt (by with_reducible assumption); omega)
    | (with_reducible refine may_ep (hw.bit (by decide)) _ _ ?_ ?_)
    | split

theorem selftestLog_kept (k src verdict : Nat) (unit : Option Nat) (spar : Option SparId) (retired : Bool) (s : State)
    (hw : Sub 0x5bea0000001000000b0498080410084 W) (h_s : Kept W s0 s) :
    Kept W s0 (selftestLog k src verdict unit spar retired s) := by
  unfold selftestLog
  try dsimp only
  repeat' first
    | with_reducible assumption
    | (with_reducible refine st_advance_kept _ (Sub.trans (by decide) hw) ?_ )
    | (with_reducible refine epLog_kept _ _ _ _ _ (Sub.trans (by decide) hw) ?_ )
    | split

theorem takeFromCal_kept (p : SparId) (s : State) (hw : Sub 0x822000000000000000090000400000 W) (h_s : Kept W s0 s) :
    Kept W s0 (takeFromCal p s) := by
  unfold takeFromCal
  try dsimp only
  repeat' first
    | with_reducible assumption
    | (with_reducible refine st_p_kept _ _ _ ?_ ?_)
    | (with_reducible refine st_setCalBank_kept _ _ _ (Sub.trans (by decide) hw) ?_ )
    | (with_reducible refine cancelJobs_kept _ _ (Sub.trans (by decide) hw) ?_ )
    | (with_reducible refine freeSpar_kept _ _ (Sub.trans (by decide) hw) ?_ )
    | (with_reducible refine dropSwap_kept _ _ (Sub.trans (by decide) hw) ?_ )
    | (with_reducible refine may_cc (hw.bit (by decide)) _ _ ?_ ?_)
    | exact Fin.isLt _
    | decide
    | split

theorem assignSpar_kept (c : ChanId) (p : SparId) (s : State) (hw : Sub 0x80000000000000000088000000000 W) (h_s : Kept W s0 s) :
    Kept W s0 (assignSpar c p s) := by
  unfold assignSpar
  try dsimp only
  repeat' first
    | with_reducible assumption
    | (with_reducible refine st_p_kept _ _ _ ?_ ?_)
    | (with_reducible refine changeover_kept _ _ _ (Sub.trans (by decide) hw) ?_ )
    | with_reducible apply kept_ite
    | (with_reducible refine may_sp (hw.bit (by decide)) _ _ ?_ ?_)
    | with_reducible exact same
    | with_reducible exact mem_same
    | with_reducible exact host_same
    | with_reducible apply flt_upd
    | exact .inr (hw.bit (by decide))
    | exact Fin.isLt _
    | decide
    | simp only [kept_mk]
    | with_reducible apply kept_upd

theorem substitute_kept (c : ChanId) (s : State) (hw : Sub 0x8e2000000000000000098000400000 W) (h_s : Kept W s0 s) :
    Kept W s0 (substitute c s).2 := by
  unfold substitute
  try dsimp only
  repeat' first
    | with_reducible assumption
    | (with_reducible refine st_report_kept _ _ _ _ (Sub.trans (by decide) hw) ?_ )
    | (with_reducible refine takeFromCal_kept _ _ (Sub.trans (by decide) hw) ?_ )
    | (with_reducible refine assignSpar_kept _ _ _ (Sub.trans (by decide) hw) ?_ )
    | with_reducible exact same
    | with_reducible exact mem_same
    | with_reducible exact host_same
    | with_reducible apply flt_upd
    | exact .inr (hw.bit (by decide))
    | simp only [kept_mk]
    | with_reducible apply kept_upd
    | split

theorem retireUnit_kept (k src : Nat) (u : RUnit) (s : State)
    (hw : Sub 0x5bea0000001000000b0498080410084 W) (hk : k < 32) (h_s : Kept W s0 s) :
    Kept W s0 (retireUnit k src u s) := by
  unfold retireUnit
  try dsimp only
  repeat' first
    | with_reducible assumption
    | (with_reducible refine st_incSat_kept _ _ _ (Sub.trans (by decide) hw) ?_ ?_ )
    | (with_reducible refine selftestLog_kept _ _ _ _ _ _ _ (Sub.trans (by decide) hw) ?_ )
    | (with_reducible refine substitute_kept _ _ (Sub.trans (by decide) hw) ?_ )
    | (with_reducible refine may_ep (hw.bit (by decide)) _ _ ?_ ?_)
    | with_reducible exact same
    | with_reducible exact mem_same
    | with_reducible exact host_same
    | with_reducible apply flt_upd
    | exact .inr (hw.bit (by decide))
    | decide
    | simp only [kept_mk]
    | with_reducible apply kept_upd
    | split

theorem retireEffect_kept (u : RUnit) (s : State) (hw : Sub 0xbe2000000000000030498000400000 W) (h_s : Kept W s0 s) :
    Kept W s0 (retireEffect u s) := by
  unfold retireEffect
  dsimp only
  split
  · exact h_s
  · apply kept_ite
    · exact tmuEnd_kept _ _ _ (Sub.trans (by decide) hw) h_s
    · exact h_s
  · exact wRest_kept _ _ _ (Sub.trans (by decide) hw) h_s
  · rename_i p
    have h0 : Kept W s0 ((s.p (K.sp_SPAR_STATE p) 6).p (K.sp_SPAR_CHAN p) 0xFFFF) :=
      st_p_kept _ _ _ (may_sp (hw.bit (by decide)) _ _ p.isLt (by decide)) (st_p_kept _ _ _ (may_sp (hw.bit (by decide)) _ _ p.isLt (by decide)) h_s)
    apply kept_ite
    · apply substitute_kept _ _ (Sub.trans (by decide) hw)
      simp only [kept_mk]
      apply kept_upd h0
      repeat' first
        | exact mem_same
        | exact host_same
        | exact flt_same
        | with_reducible apply mem_upd
        | with_reducible apply host_upd
        | apply flt_upd
        | exact .inl rfl
        | exact .inr (hw.bit (by decide))
    · apply st_p_kept _ _ _ (may_sp (hw.bit (by decide)) _ _ p.isLt (by decide))
      apply st_p_kept _ _ _ (may_sp (hw.bit (by decide)) _ _ p.isLt (by decide))
      have h1 : Kept W s0 (match holdsBalls s p with
        | some d =>
          if unitInUse s (.chan d) then { s with flt := { s.flt with pendSw := kput s.flt.pendSw d 0 } } else s.p (K.ch_XBAR_STATE d) 0
        | none => s) := by
        split
        · apply kept_ite
          · simp only [kept_mk]
            apply kept_upd h_s
            repeat' first
              | exact mem_same
              | exact host_same
              | exact flt_same
              | with_reducible apply mem_upd
              | with_reducible apply host_upd
              | apply flt_upd
              | exact .inl rfl
              | exact .inr (hw.bit (by decide))
          · exact st_p_kept _ _ _ (may_ch (hw.bit (by decide)) _ _ (Fin.isLt _) (by decide)) h_s
        · exact h_s
      exact kept_ite (takeFromCal_kept _ _ (Sub.trans (by decide) hw) h1) h1

theorem execRetirementDurable_kept (s : State) (hw : Sub 0x24be2000000400000030498000400000 W) (h_s : Kept W s0 s) :
    ∃ t', execRetirementDurable s = .next t' ∧ Kept W s0 t' := by
  unfold execRetirementDurable
  refine st_served_kept _ _ _ _ (Sub.trans (by decide) hw) (by assumption) fun s h_s => ?_
  refine ⟨_, rfl, ?_⟩
  try dsimp only
  repeat' first
    | with_reducible assumption
    | (with_reducible refine st_p_kept _ _ _ ?_ ?_)
    | (with_reducible refine st_fresh_kept _ (Sub.trans (by decide) hw) ?_ )
    | (with_reducible refine st_persist_kept _ _ (Sub.trans (by decide) hw) ?_ )
    | (with_reducible refine retireEffect_kept _ _ (Sub.trans (by decide) hw) ?_ )
    | (with_reducible refine may_rt (hw.bit (by decide)) _ ?_)
    | with_reducible exact same
    | with_reducible exact mem_same
    | with_reducible exact host_same
    | with_reducible apply flt_upd
    | exact .inr (hw.bit (by decide))
    | (have hj := lt_of_find (by with_reducible assumption); omega)
    | simp only [kept_mk]
    | with_reducible apply kept_upd
    | split

theorem schedule_kept (k : Nat) (r : Report) (sev : Nat) (s : State)
    (hw : Sub 0x5bea0000001000000b0498080410084 W) (hk : k < 32) (h_s : Kept W s0 s) :
    Kept W s0 (schedule k r sev s) := by
  unfold schedule
  try dsimp only
  repeat' first
    | with_reducible assumption
    | intro _
    | (with_reducible refine setVerdict_kept _ _ _ _ _ (Sub.trans (by decide) hw) ?_ ?_ )
    | (with_reducible refine selftestLog_kept _ _ _ _ _ _ _ (Sub.trans (by decide) hw) ?_ )
    | (with_reducible refine retireUnit_kept _ _ _ _ (Sub.trans (by decide) hw) ?_ ?_ )
    | with_reducible apply kept_ite
    | with_reducible apply kept_foldl
    | with_reducible exact same
    | with_reducible exact mem_same
    | with_reducible exact host_same
    | with_reducible apply flt_upd
    | exact .inr (hw.bit (by decide))
    | simp only [kept_mk]
    | with_reducible apply kept_upd

theorem openEp_kept (k : Nat) (r : Report) (sev : Nat) (s : State)
    (hw : Sub 0x5bea0000001100000b0498080410084 W) (hk : k < 32) (h_s : Kept W s0 s) :
    Kept W s0 (openEp k r sev s) := by
  unfold openEp
  try dsimp only
  repeat' first
    | with_reducible assumption
    | intro _
    | (with_reducible refine st_p_kept _ _ _ ?_ ?_)
    | (with_reducible refine st_cnt32_kept _ _ (Sub.trans (by decide) hw) ?_ ?_ )
    | (with_reducible refine st_setSrc_kept _ _ _ (Sub.trans (by decide) hw) ?_ )
    | (with_reducible refine announce_kept _ _ (Sub.trans (by decide) hw) ?_ )
    | (with_reducible refine epLog_kept _ _ _ _ _ (Sub.trans (by decide) hw) ?_ )
    | (with_reducible refine react_kept _ _ _ _ (Sub.trans (by decide) hw) ?_ )
    | (with_reducible refine adopt_kept _ _ _ (Sub.trans (by decide) hw) ?_ ?_ )
    | (with_reducible refine schedule_kept _ _ _ _ (Sub.trans (by decide) hw) ?_ ?_ )
    | with_reducible apply kept_foldl
    | (with_reducible refine may_ep (hw.bit (by decide)) _ _ ?_ ?_)
    | (with_reducible refine may_fz (hw.bit (by decide)) _ ?_)
    | with_reducible exact same
    | with_reducible exact mem_same
    | with_reducible exact host_same
    | with_reducible apply flt_upd
    | exact .inr (hw.bit (by decide))
    | decide
    | (have hj := lt_of_mem (by with_reducible assumption); omega)
    | simp only [kept_mk]
    | with_reducible apply kept_upd

theorem sharpen_kept (num : Nat) (r : Report) (sev : Nat) (s : State)
    (hw : Sub 0x82000000000000000000000000000 W) (h_s : Kept W s0 s) :
    Kept W s0 (sharpen num r sev s) := by
  unfold sharpen
  try dsimp only
  repeat' first
    | with_reducible assumption
    | with_reducible exact same
    | with_reducible exact mem_same
    | with_reducible exact host_same
    | with_reducible apply flt_upd
    | exact .inr (hw.bit (by decide))
    | simp only [kept_mk]
    | with_reducible apply kept_upd

theorem mergeCause_kept (k : Nat) (r : Report) (sev : Nat) (known : Bool) (s : State)
    (hw : Sub 0x100000000000000000000 W) (hk : k < 32) (h_s : Kept W s0 s) :
    Kept W s0 (mergeCause k r sev known s) := by
  unfold mergeCause
  try dsimp only
  repeat' first
    | with_reducible assumption
    | (with_reducible refine st_p_kept _ _ _ ?_ ?_)
    | (have hj := causeOf_lt (by with_reducible assumption); omega)
    | (have hj := freeCause_lt (by with_reducible assumption); omega)
    | (with_reducible refine may_ep (hw.bit (by decide)) _ _ ?_ ?_)
    | split

theorem mergeEp_kept (k : Nat) (r : Report) (sev : Nat) (s : State)
    (hw : Sub 0x5bea0000001000000b0498080410084 W) (hk : k < 32) (h_s : Kept W s0 s) :
    Kept W s0 (mergeEp k r sev s) := by
  unfold mergeEp
  try dsimp only
  repeat' first
    | with_reducible assumption
    | (with_reducible refine st_p_kept _ _ _ ?_ ?_)
    | (with_reducible refine st_sat32_kept _ _ (Sub.trans (by decide) hw) ?_ ?_ )
    | (with_reducible refine st_setSrc_kept _ _ _ (Sub.trans (by decide) hw) ?_ )
    | (with_reducible refine announce_kept _ _ (Sub.trans (by decide) hw) ?_ )
    | (with_reducible refine epLog_kept _ _ _ _ _ (Sub.trans (by decide) hw) ?_ )
    | (with_reducible refine react_kept _ _ _ _ (Sub.trans (by decide) hw) ?_ )
    | (with_reducible refine adopt_kept _ _ _ (Sub.trans (by decide) hw) ?_ ?_ )
    | (with_reducible refine schedule_kept _ _ _ _ (Sub.trans (by decide) hw) ?_ ?_ )
    | (with_reducible refine sharpen_kept _ _ _ _ (Sub.trans (by decide) hw) ?_ )
    | (with_reducible refine mergeCause_kept _ _ _ _ _ (Sub.trans (by decide) hw) ?_ ?_ )
    | with_reducible apply kept_ite
    | (with_reducible refine may_ep (hw.bit (by decide)) _ _ ?_ ?_)
    | decide

theorem takeRaise_kept (r : Report) (sev : Nat) (s : State) (hw : Sub 0x5bea0000001100000b0498080410084 W) (h_s : Kept W s0 s) :
    Kept W s0 (takeRaise r sev s) := by
  unfold takeRaise
  try dsimp only
  repeat' first
    | with_reducible assumption
    | (with_reducible refine st_p_kept _ _ _ ?_ ?_)
    | (with_reducible refine st_sat32_kept _ _ (Sub.trans (by decide) hw) ?_ ?_ )
    | (with_reducible refine announce_kept _ _ (Sub.trans (by decide) hw) ?_ )
    | (with_reducible refine openEp_kept _ _ _ _ (Sub.trans (by decide) hw) ?_ ?_ )
    | (with_reducible refine mergeEp_kept _ _ _ _ (Sub.trans (by decide) hw) ?_ ?_ )
    | exact handling_lt (by with_reducible assumption)
    | exact newRecord_lt (by with_reducible assumption)
    | exact newestHeld_lt (by with_reducible assumption)
    | (with_reducible refine may_ep (hw.bit (by decide)) _ _ ?_ ?_)
    | (with_reducible refine may_fz (hw.bit (by decide)) _ ?_)
    | decide
    | split

theorem oneRaise_kept (r : Report) (s : State) (hw : Sub 0x5bea0000001100000b0498080410084 W) (h_s : Kept W s0 s) :
    Kept W s0 (oneRaise r s) := by
  unfold oneRaise
  try dsimp only
  repeat' first
    | with_reducible assumption
    | (with_reducible refine st_cnt64_kept _ _ (Sub.trans (by decide) hw) ?_ ?_ )
    | (with_reducible refine st_setSrc_kept _ _ _ (Sub.trans (by decide) hw) ?_ )
    | (with_reducible refine takeRaise_kept _ _ _ (Sub.trans (by decide) hw) ?_ )
    | (with_reducible refine may_fz (hw.bit (by decide)) _ ?_)
    | decide
    | split

theorem collect_kept (rs : List Report) (s : State) (hw : Sub 0x5bea0000001100000b0498080410084 W) (h_s : Kept W s0 s) :
    Kept W s0 (collect rs s) := by
  unfold collect
  try dsimp only
  repeat' first
    | with_reducible assumption
    | intro _
    | (with_reducible refine oneRaise_kept _ _ (Sub.trans (by decide) hw) ?_ )
    | with_reducible apply kept_foldl

theorem logAer_kept (srcs : List Nat) (s : State) (hw : Sub 0x8000000000000000000000000000 W) (h_s : Kept W s0 s) :
    Kept W s0 (logAer srcs s) := by
  unfold logAer
  try dsimp only
  repeat' first
    | with_reducible assumption
    | (with_reducible refine st_setFn_kept _ _ _ (Sub.trans (by decide) hw) ?_ )
    | with_reducible apply kept_ite
    | with_reducible exact same
    | with_reducible exact mem_same
    | with_reducible exact host_same
    | with_reducible exact flt_same
    | simp only [kept_mk]
    | with_reducible apply kept_upd

theorem execFaultRaise_kept (n : Nat) (ext : List (BitVec 16 × SiteMask)) (s : State)
    (hw : Sub 0x25bfa0000001100000b0498080410084 W) (h_s : Kept W s0 s) :
    ∃ t', execFaultRaise n ext s = .next t' ∧ Kept W s0 t' := by
  unfold execFaultRaise
  refine st_served_kept _ _ _ _ (Sub.trans (by decide) hw) (by assumption) fun s h_s => ?_
  refine ⟨_, rfl, ?_⟩
  try dsimp only
  repeat' first
    | with_reducible assumption
    | (with_reducible refine st_fresh_kept _ (Sub.trans (by decide) hw) ?_ )
    | (with_reducible refine collect_kept _ _ (Sub.trans (by decide) hw) ?_ )
    | (with_reducible refine logAer_kept _ _ (Sub.trans (by decide) hw) ?_ )
    | with_reducible exact same
    | with_reducible exact mem_same
    | with_reducible exact host_same
    | with_reducible apply flt_upd
    | exact .inr (hw.bit (by decide))
    | simp only [kept_mk]
    | with_reducible apply kept_upd

theorem railDisagree_kept (src : Nat) (back : Option Bool) (s : State)
    (hw : Sub 0xc0000000000000000000000000000 W) (h_s : Kept W s0 s) :
    Kept W s0 (railDisagree src back s) := by
  unfold railDisagree
  try dsimp only
  repeat' first
    | with_reducible assumption
    | (with_reducible refine st_report_kept _ _ _ _ (Sub.trans (by decide) hw) ?_ )
    | (with_reducible refine st_activate_kept _ _ _ _ (Sub.trans (by decide) hw) ?_ )
    | (with_reducible refine st_setSrc_kept _ _ _ (Sub.trans (by decide) hw) ?_ )
    | split

theorem execRailDisagree_kept (src : BitVec 16) (back : Option Bool) (s : State)
    (hw : Sub 0x200c0000000000000000000000000000 W) (h_s : Kept W s0 s) :
    ∃ t', execRailDisagree src back s = .next t' ∧ Kept W s0 t' := by
  unfold execRailDisagree
  refine st_served_kept _ _ _ _ (Sub.trans (by decide) hw) (by assumption) fun s h_s => ?_
  refine ⟨_, rfl, ?_⟩
  try dsimp only
  repeat' first
    | with_reducible assumption
    | (with_reducible refine st_fresh_kept _ (Sub.trans (by decide) hw) ?_ )
    | (with_reducible refine railDisagree_kept _ _ _ (Sub.trans (by decide) hw) ?_ )

theorem dropTest_kept (t : Test) (s : State) (hw : Sub 0x80000000000000000000000000000 W) (h_s : Kept W s0 s) :
    Kept W s0 (dropTest t s) := by
  unfold dropTest
  try dsimp only
  repeat' first
    | with_reducible assumption
    | with_reducible exact same
    | with_reducible exact mem_same
    | with_reducible exact host_same
    | with_reducible apply flt_upd
    | exact .inr (hw.bit (by decide))
    | simp only [kept_mk]
    | with_reducible apply kept_upd

theorem testBegins_kept (u : RUnit) (s : State) (hw : Sub 0x200000000000000000400000000000 W) (h_s : Kept W s0 s) :
    Kept W s0 (testBegins u s) := by
  unfold testBegins
  try dsimp only
  repeat' first
    | with_reducible assumption
    | (with_reducible refine st_p_kept _ _ _ ?_ ?_)
    | (with_reducible refine st_setEng_kept _ _ _ (Sub.trans (by decide) hw) ?_ )
    | (with_reducible refine may_ws (hw.bit (by decide)) _ _ ?_ ?_)
    | exact Fin.isLt _
    | decide
    | split

theorem testEnds_kept (u : RUnit) (s : State) (hw : Sub 0x200000000000000000000000000000 W) (h_s : Kept W s0 s) :
    Kept W s0 (testEnds u s) := by
  unfold testEnds
  try dsimp only
  repeat' first
    | with_reducible assumption
    | (with_reducible refine st_setEng_kept _ _ _ (Sub.trans (by decide) hw) ?_ )
    | split

theorem testTime_kept (s : State) (e : EngId) (hw : Sub 0x200000000000000000400000000000 W) (h_s : Kept W s0 s) :
    Kept W s0 (testTime s e) := by
  unfold testTime
  try dsimp only
  repeat' first
    | with_reducible assumption
    | (with_reducible refine st_setEng_kept _ _ _ (Sub.trans (by decide) hw) ?_ )
    | (with_reducible refine wRest_kept _ _ _ (Sub.trans (by decide) hw) ?_ )
    | (with_reducible refine testBegins_kept _ _ (Sub.trans (by decide) hw) ?_ )
    | split

theorem testTimes_kept (s : State) (hw : Sub 0x200000000000000000400000000000 W) (h_s : Kept W s0 s) :
    Kept W s0 (testTimes s) := by
  unfold testTimes
  try dsimp only
  repeat' first
    | with_reducible assumption
    | intro _
    | (with_reducible refine testTime_kept _ _ (Sub.trans (by decide) hw) ?_ )
    | with_reducible apply kept_foldl

theorem verdict_kept (src : Nat) (pass : Bool) (units : List RUnit) (s : State)
    (hw : Sub 0x5bea0000001000000b0498080410084 W) (h_s : Kept W s0 s) :
    Kept W s0 (verdict src pass units s) := by
  unfold verdict
  try dsimp only
  repeat' first
    | with_reducible assumption
    | intro _
    | (with_reducible refine st_setSrc_kept _ _ _ (Sub.trans (by decide) hw) ?_ )
    | (with_reducible refine raiseSev_kept _ _ _ _ _ (Sub.trans (by decide) hw) ?_ ?_ )
    | (with_reducible refine setVerdict_kept _ _ _ _ _ (Sub.trans (by decide) hw) ?_ ?_ )
    | (with_reducible refine selftestLog_kept _ _ _ _ _ _ _ (Sub.trans (by decide) hw) ?_ )
    | (with_reducible refine retireUnit_kept _ _ _ _ (Sub.trans (by decide) hw) ?_ ?_ )
    | (with_reducible refine dropTest_kept _ _ (Sub.trans (by decide) hw) ?_ )
    | (with_reducible refine testEnds_kept _ _ (Sub.trans (by decide) hw) ?_ )
    | exact handling_lt (by with_reducible assumption)
    | with_reducible apply kept_foldl
    | split

theorem dropRetire_kept (u : RUnit) (s : State) (hw : Sub 0x4080000000400000000000000000000 W) (h_s : Kept W s0 s) :
    Kept W s0 (dropRetire u s) := by
  unfold dropRetire
  try dsimp only
  repeat' first
    | with_reducible assumption
    | (with_reducible refine st_p_kept _ _ _ ?_ ?_)
    | (with_reducible refine st_persist_kept _ _ (Sub.trans (by decide) hw) ?_ )
    | (have hj := retireEntry_lt (by with_reducible assumption); omega)
    | (with_reducible refine may_rt (hw.bit (by decide)) _ ?_)
    | with_reducible exact same
    | with_reducible exact mem_same
    | with_reducible exact host_same
    | with_reducible apply flt_upd
    | exact .inr (hw.bit (by decide))
    | simp only [kept_mk]
    | with_reducible apply kept_upd
    | split

theorem freeSubstitute_kept (c : ChanId) (p : SparId) (s : State) (hw : Sub 0x80000000000 W) (h_s : Kept W s0 s) :
    Kept W s0 (freeSubstitute c p s) := by
  unfold freeSubstitute
  try dsimp only
  repeat' first
    | with_reducible assumption
    | (with_reducible refine freeSpar_kept _ _ (Sub.trans (by decide) hw) ?_ )
    | with_reducible apply kept_ite

theorem freeChannel_kept (c : ChanId) (s : State) (hw : Sub 0x80000000000000000088000000000 W) (h_s : Kept W s0 s) :
    Kept W s0 (freeChannel c s) := by
  unfold freeChannel
  try dsimp only
  repeat' first
    | with_reducible assumption
    | (with_reducible refine changeover_kept _ _ _ (Sub.trans (by decide) hw) ?_ )
    | (with_reducible refine freeSubstitute_kept _ _ _ (Sub.trans (by decide) hw) ?_ )
    | with_reducible apply kept_ite
    | with_reducible exact same
    | with_reducible exact mem_same
    | with_reducible exact host_same
    | with_reducible apply flt_upd
    | exact .inr (hw.bit (by decide))
    | simp only [kept_mk]
    | with_reducible apply kept_upd

theorem unretire_kept (u : RUnit) (s : State) (hw : Sub 0x4280000000400000000488000000000 W) (h_s : Kept W s0 s) :
    Kept W s0 (unretire u s) := by
  unfold unretire
  try dsimp only
  repeat' first
    | with_reducible assumption
    | (with_reducible refine wRest_kept _ _ _ (Sub.trans (by decide) hw) ?_ )
    | (with_reducible refine freeSpar_kept _ _ (Sub.trans (by decide) hw) ?_ )
    | (with_reducible refine dropRetire_kept _ _ (Sub.trans (by decide) hw) ?_ )
    | (with_reducible refine freeChannel_kept _ _ (Sub.trans (by decide) hw) ?_ )
    | split

theorem stVerdict_kept (pass : Bool) (s : State) (hw : Sub 0x4280000000c00000000488000000000 W) (h_s : Kept W s0 s) :
    Kept W s0 (stVerdict pass s) := by
  unfold stVerdict
  try dsimp only
  repeat' first
    | with_reducible assumption
    | (with_reducible refine st_p_kept _ _ _ ?_ ?_)
    | (with_reducible refine testEnds_kept _ _ (Sub.trans (by decide) hw) ?_ )
    | (with_reducible refine unretire_kept _ _ (Sub.trans (by decide) hw) ?_ )
    | (with_reducible refine may_stc (hw.bit (by decide)) _ ?_)
    | with_reducible exact same
    | with_reducible exact mem_same
    | with_reducible exact host_same
    | with_reducible apply flt_upd
    | exact .inr (hw.bit (by decide))
    | decide
    | simp only [kept_mk]
    | with_reducible apply kept_upd
    | split

theorem laterPass_kept (src : Nat) (s : State) (hw : Sub 0x280000000000000000000000000000 W) (h_s : Kept W s0 s) :
    Kept W s0 (laterPass src s) := by
  unfold laterPass
  try dsimp only
  repeat' first
    | with_reducible assumption
    | (with_reducible refine dropTest_kept _ _ (Sub.trans (by decide) hw) ?_ )
    | (with_reducible refine testEnds_kept _ _ (Sub.trans (by decide) hw) ?_ )
    | split

theorem execSelftestVerdict_kept (src : Option (BitVec 16)) (pass : Bool) (units : List RUnit) (s : State)
    (hw : Sub 0x25bea000000d000000b0498080410084 W) (h_s : Kept W s0 s) :
    ∃ t', execSelftestVerdict src pass units s = .next t' ∧ Kept W s0 t' := by
  unfold execSelftestVerdict
  refine st_served_kept _ _ _ _ (Sub.trans (by decide) hw) (by assumption) fun s h_s => ?_
  refine ⟨_, rfl, ?_⟩
  try dsimp only
  repeat' first
    | with_reducible assumption
    | (with_reducible refine st_fresh_kept _ (Sub.trans (by decide) hw) ?_ )
    | (with_reducible refine verdict_kept _ _ _ _ (Sub.trans (by decide) hw) ?_ )
    | (with_reducible refine stVerdict_kept _ _ (Sub.trans (by decide) hw) ?_ )
    | (with_reducible refine laterPass_kept _ _ (Sub.trans (by decide) hw) ?_ )
    | split

theorem execSelftestDeferred_kept (src : BitVec 16) (s : State)
    (hw : Sub 0x25bea0000001000000b0498080410084 W) (h_s : Kept W s0 s) :
    ∃ t', execSelftestDeferred src s = .next t' ∧ Kept W s0 t' := by
  unfold execSelftestDeferred
  refine st_served_kept _ _ _ _ (Sub.trans (by decide) hw) (by assumption) fun s h_s => ?_
  refine ⟨_, rfl, ?_⟩
  try dsimp only
  repeat' first
    | with_reducible assumption
    | (with_reducible refine st_fresh_kept _ (Sub.trans (by decide) hw) ?_ )
    | (with_reducible refine setVerdict_kept _ _ _ _ _ (Sub.trans (by decide) hw) ?_ ?_ )
    | (with_reducible refine selftestLog_kept _ _ _ _ _ _ _ (Sub.trans (by decide) hw) ?_ )
    | exact handling_lt (by with_reducible assumption)
    | with_reducible exact same
    | with_reducible exact mem_same
    | with_reducible exact host_same
    | with_reducible apply flt_upd
    | exact .inr (hw.bit (by decide))
    | simp only [kept_mk]
    | with_reducible apply kept_upd
    | split

theorem execDeferredTestFail_kept (src : BitVec 16) (units : List RUnit) (s : State)
    (hw : Sub 0x202c0000000000000000000000000000 W) (h_s : Kept W s0 s) :
    ∃ t', execDeferredTestFail src units s = .next t' ∧ Kept W s0 t' := by
  unfold execDeferredTestFail
  refine st_served_kept _ _ _ _ (Sub.trans (by decide) hw) (by assumption) fun s h_s => ?_
  refine ⟨_, rfl, ?_⟩
  try dsimp only
  repeat' first
    | with_reducible assumption
    | (with_reducible refine st_fresh_kept _ (Sub.trans (by decide) hw) ?_ )
    | (with_reducible refine dropTest_kept _ _ (Sub.trans (by decide) hw) ?_ )
    | (with_reducible refine testEnds_kept _ _ (Sub.trans (by decide) hw) ?_ )
    | with_reducible exact same
    | with_reducible exact mem_same
    | with_reducible exact host_same
    | with_reducible apply flt_upd
    | exact .inr (hw.bit (by decide))
    | simp only [kept_mk]
    | with_reducible apply kept_upd
    | split

theorem clearEp_kept (k path : Nat) (s : State) (hw : Sub 0x40e8000000100000000000000000004 W) (hk : k < 32) (h_s : Kept W s0 s) :
    Kept W s0 (clearEp k path s) := by
  unfold clearEp
  try dsimp only
  repeat' first
    | with_reducible assumption
    | (with_reducible refine st_p_kept _ _ _ ?_ ?_)
    | (with_reducible refine announce_kept _ _ (Sub.trans (by decide) hw) ?_ )
    | (with_reducible refine epLog_kept _ _ _ _ _ (Sub.trans (by decide) hw) ?_ )
    | (with_reducible refine may_ep (hw.bit (by decide)) _ _ ?_ ?_)
    | with_reducible exact same
    | with_reducible exact mem_same
    | with_reducible exact host_same
    | with_reducible apply flt_upd
    | exact .inr (hw.bit (by decide))
    | decide
    | simp only [kept_mk]
    | with_reducible apply kept_upd

theorem execHandlingEnd_kept (s : State) (hw : Sub 0x240e8000000110000000000000000004 W) (h_s : Kept W s0 s) :
    ∃ t', execHandlingEnd s = .next t' ∧ Kept W s0 t' := by
  unfold execHandlingEnd
  refine st_served_kept _ _ _ _ (Sub.trans (by decide) hw) (by assumption) fun s h_s => ?_
  refine ⟨_, rfl, ?_⟩
  try dsimp only
  repeat' first
    | with_reducible assumption
    | (with_reducible refine st_p_kept _ _ _ ?_ ?_)
    | (with_reducible refine st_fresh_kept _ (Sub.trans (by decide) hw) ?_ )
    | (with_reducible refine announce_kept _ _ (Sub.trans (by decide) hw) ?_ )
    | (with_reducible refine clearEp_kept _ _ _ (Sub.trans (by decide) hw) ?_ ?_ )
    | exact handling_lt (by with_reducible assumption)
    | (with_reducible refine may_ep (hw.bit (by decide)) _ _ ?_ ?_)
    | (with_reducible refine may_fz (hw.bit (by decide)) _ ?_)
    | decide
    | split

theorem faultClear_kept (p : Path) (num : Nat) (s : State) (hw : Sub 0x40e8000000110000000000000000004 W) (h_s : Kept W s0 s) :
    Kept W s0 (faultClear p num s) := by
  unfold faultClear
  try dsimp only
  repeat' first
    | with_reducible assumption
    | intro _
    | (with_reducible refine st_p_kept _ _ _ ?_ ?_)
    | (with_reducible refine clearEp_kept _ _ _ (Sub.trans (by decide) hw) ?_ ?_ )
    | exact mem_episodes (by with_reducible assumption)
    | exact epRecord_lt (by with_reducible assumption)
    | with_reducible apply kept_foldl
    | (with_reducible refine may_fz (hw.bit (by decide)) _ ?_)
    | decide
    | split

theorem execFaultClear_kept (p : Path) (num : BitVec 32) (s : State)
    (hw : Sub 0x240e8000000110000000000000000004 W) (h_s : Kept W s0 s) :
    ∃ t', execFaultClear p num s = .next t' ∧ Kept W s0 t' := by
  unfold execFaultClear
  refine st_served_kept _ _ _ _ (Sub.trans (by decide) hw) (by assumption) fun s h_s => ?_
  refine ⟨_, rfl, ?_⟩
  try dsimp only
  repeat' first
    | with_reducible assumption
    | (with_reducible refine st_fresh_kept _ (Sub.trans (by decide) hw) ?_ )
    | (with_reducible refine faultClear_kept _ _ _ (Sub.trans (by decide) hw) ?_ )

theorem stCmd_kept (un : Bool) (u : RUnit) (s : State) (hw : Sub 0x280000000800000000400000000000 W) (h_s : Kept W s0 s) :
    Kept W s0 (stCmd un u s) := by
  unfold stCmd
  try dsimp only
  repeat' first
    | with_reducible assumption
    | (with_reducible refine st_p_kept _ _ _ ?_ ?_)
    | (with_reducible refine testBegins_kept _ _ (Sub.trans (by decide) hw) ?_ )
    | with_reducible apply kept_ite
    | (with_reducible refine may_stc (hw.bit (by decide)) _ ?_)
    | with_reducible exact same
    | with_reducible exact mem_same
    | with_reducible exact host_same
    | with_reducible apply flt_upd
    | exact .inr (hw.bit (by decide))
    | decide
    | simp only [kept_mk]
    | with_reducible apply kept_upd

theorem execTest_kept (u : RUnit) (s : State) (hw : Sub 0x20280000000800000000400000000000 W) (h_s : Kept W s0 s) :
    ∃ t', execTest u s = .next t' ∧ Kept W s0 t' := by
  unfold execTest
  refine st_served_kept _ _ _ _ (Sub.trans (by decide) hw) (by assumption) fun s h_s => ?_
  refine ⟨_, rfl, ?_⟩
  try dsimp only
  repeat' first
    | with_reducible assumption
    | (with_reducible refine st_fresh_kept _ (Sub.trans (by decide) hw) ?_ )
    | (with_reducible refine stCmd_kept _ _ _ (Sub.trans (by decide) hw) ?_ )

theorem execUnretire_kept (u : RUnit) (s : State) (hw : Sub 0x24280000000c00000000488000000000 W) (h_s : Kept W s0 s) :
    ∃ t', execUnretire u s = .next t' ∧ Kept W s0 t' := by
  unfold execUnretire
  refine st_served_kept _ _ _ _ (Sub.trans (by decide) hw) (by assumption) fun s h_s => ?_
  refine ⟨_, rfl, ?_⟩
  try dsimp only
  repeat' first
    | with_reducible assumption
    | (with_reducible refine st_fresh_kept _ (Sub.trans (by decide) hw) ?_ )
    | (with_reducible refine stCmd_kept _ _ _ (Sub.trans (by decide) hw) ?_ )

end Sys2Proof.Laws
end

