-- ==== Sys2Proof/Laws/KeptTxn.lean ====
section
/-! SUPPORT. One lemma per operation of Machine/Txn.lean: within which mask of parts it keeps the rest; a command's meaning
answers a next state that is so kept. The numeral of a mask has the bits of Area. -/
namespace Sys2Proof.Laws
open Sys2Proof Sys2Proof.Machine
variable {W : Nat} {s0 : State}

theorem st_setTxn_kept (s : State) (k : Fin 8) (t : Txn) (hw : Sub 0x20000000000000000000000000000 W) (h_s : Kept W s0 s) :
    Kept W s0 (State.setTxn s k t) := by
  unfold State.setTxn
  try dsimp only
  repeat' first
    | with_reducible assumption
    | with_reducible exact same
    | with_reducible exact mem_same
    | with_reducible exact host_same
    | with_reducible exact flt_same
    | exact .inr (hw.bit (by decide))
    | simp only [kept_mk]
    | with_reducible apply kept_upd

theorem st_publishTxn_kept (x : Txn) (s : State) (hw : Sub 0x20000000000000000000000000000 W) (h_s : Kept W s0 s) :
    Kept W s0 (State.publishTxn x s) := by
  unfold State.publishTxn
  try dsimp only
  repeat' first
    | with_reducible assumption
    | with_reducible exact same
    | with_reducible exact mem_same
    | with_reducible exact host_same
    | with_reducible exact flt_same
    | exact .inr (hw.bit (by decide))
    | simp only [kept_mk]
    | with_reducible apply kept_upd

theorem st_publish_kept (s : State) (job : CalJob) (kind : Nat) (sites : SiteMask) (keys : List Nat) (t : State)
    (hw : Sub 0x20000000000000000000000000000 W) (h_s : Kept W s0 s) (h_t : Kept W s0 t) :
    Kept W s0 (State.publish s job kind sites keys t) := by
  unfold State.publish
  try dsimp only
  repeat' first
    | with_reducible assumption
    | (with_reducible refine st_publishTxn_kept _ _ (Sub.trans (by decide) hw) ?_ )
    | with_reducible exact same
    | with_reducible exact mem_same
    | with_reducible exact host_same
    | with_reducible exact flt_same
    | simp only [kept_mk]
    | with_reducible apply kept_upd

theorem st_mail_kept (s : State) (body : List Byte) (hw : Sub 0x4000000000000000000000000000000 W) (h_s : Kept W s0 s) :
    Kept W s0 (State.mail s body) := by
  unfold State.mail
  try dsimp only
  repeat' first
    | with_reducible assumption
    | (with_reducible refine st_emit_kept _ _ (Sub.trans (by decide) hw) ?_ )
    | with_reducible exact same
    | with_reducible exact mem_same
    | with_reducible exact host_same
    | with_reducible exact flt_same
    | exact .inr (hw.bit (by decide))
    | simp only [kept_mk]
    | with_reducible apply kept_upd

theorem answer_kept (a : Ask) (status result total : Nat) (data : List Byte) (s : State)
    (hw : Sub 0x4028000000000000000000000000000 W) (h_s : Kept W s0 s) :
    Kept W s0 (answer a status result total data s) := by
  unfold answer
  try dsimp only
  repeat' first
    | with_reducible assumption
    | (with_reducible refine st_emit_kept _ _ (Sub.trans (by decide) hw) ?_ )
    | (with_reducible refine st_setFn_kept _ _ _ (Sub.trans (by decide) hw) ?_ )
    | (with_reducible refine signal_kept _ _ _ (Sub.trans (by decide) hw) ?_ )
    | (with_reducible refine st_mail_kept _ _ (Sub.trans (by decide) hw) ?_ )
    | with_reducible exact same
    | with_reducible exact mem_same
    | with_reducible exact host_same
    | with_reducible exact flt_same
    | exact .inr (hw.bit (by decide))
    | simp only [kept_mk]
    | with_reducible apply kept_upd
    | split

theorem reportEnd_kept (t : Txn) (st status : Nat) (s : State)
    (hw : Sub 0x4068000000000000000000000000004 W) (h_s : Kept W s0 s) :
    Kept W s0 (reportEnd t st status s) := by
  unfold reportEnd
  try dsimp only
  repeat' first
    | with_reducible assumption
    | (with_reducible refine signal_kept _ _ _ (Sub.trans (by decide) hw) ?_ )
    | (with_reducible refine notify_kept _ _ _ (Sub.trans (by decide) hw) ?_ )
    | (with_reducible refine st_mail_kept _ _ (Sub.trans (by decide) hw) ?_ )
    | split

theorem endTxn_kept (k : Fin 8) (st status first detail : Nat) (s : State)
    (hw : Sub 0x4068000000000000000000000000004 W) (h_s : Kept W s0 s) :
    Kept W s0 (endTxn k st status first detail s) := by
  unfold endTxn
  try dsimp only
  repeat' first
    | with_reducible assumption
    | (with_reducible refine st_setTxn_kept _ _ _ (Sub.trans (by decide) hw) ?_ )
    | (with_reducible refine answer_kept _ _ _ _ _ _ (Sub.trans (by decide) hw) ?_ )
    | (with_reducible refine reportEnd_kept _ _ _ _ (Sub.trans (by decide) hw) ?_ )
    | with_reducible exact same
    | with_reducible exact mem_same
    | with_reducible exact host_same
    | with_reducible exact flt_same
    | exact .inr (hw.bit (by decide))
    | simp only [kept_mk]
    | with_reducible apply kept_upd
    | split

theorem rollbackTxn_kept (k : Fin 8) (s : State) (hw : Sub 0x4068000000000000000000000000004 W) (h_s : Kept W s0 s) :
    Kept W s0 (rollbackTxn k s) := by
  unfold rollbackTxn
  try dsimp only
  repeat' first
    | with_reducible assumption
    | (with_reducible refine endTxn_kept _ _ _ _ _ _ (Sub.trans (by decide) hw) ?_ )
    | with_reducible apply kept_ite

theorem rollbackAll_kept (p : Txn → Bool) (s : State) (hw : Sub 0x4068000000000000000000000000004 W) (h_s : Kept W s0 s) :
    Kept W s0 (rollbackAll p s) := by
  unfold rollbackAll
  try dsimp only
  repeat' first
    | with_reducible assumption
    | intro _
    | (with_reducible refine rollbackTxn_kept _ _ (Sub.trans (by decide) hw) ?_ )
    | with_reducible apply kept_ite
    | with_reducible apply kept_foldl

theorem rollbackFn_kept (f : FnId) (s : State) (hw : Sub 0x4068000000000000000000000000004 W) (h_s : Kept W s0 s) :
    Kept W s0 (rollbackFn f s) := by
  unfold rollbackFn
  try dsimp only
  repeat' first
    | with_reducible assumption
    | (with_reducible refine rollbackAll_kept _ _ (Sub.trans (by decide) hw) ?_ )

theorem execTxnTimeout_kept (k : Fin 8) (s : State) (hw : Sub 0x24068000000000000000000000000104 W) (h_s : Kept W s0 s) :
    ∃ t', execTxnTimeout k s = .next t' ∧ Kept W s0 t' := by
  unfold execTxnTimeout
  refine st_served_kept _ _ _ _ (Sub.trans (by decide) hw) (by assumption) fun s h_s => ?_
  refine ⟨_, rfl, ?_⟩
  try dsimp only
  repeat' first
    | with_reducible assumption
    | (with_reducible refine st_sat32_kept _ _ (Sub.trans (by decide) hw) ?_ ?_ )
    | (with_reducible refine st_fresh_kept _ (Sub.trans (by decide) hw) ?_ )
    | (with_reducible refine st_raise_kept _ _ (Sub.trans (by decide) hw) ?_ )
    | (with_reducible refine endTxn_kept _ _ _ _ _ _ (Sub.trans (by decide) hw) ?_ )
    | with_reducible apply kept_ite
    | (with_reducible refine may_te (hw.bit (by decide)) _ ?_)
    | decide

theorem loadInterrupted_kept (s : State) (hw : Sub 0x80000000000000000000000 W) (h_s : Kept W s0 s) :
    Kept W s0 (loadInterrupted s) := by
  unfold loadInterrupted
  try dsimp only
  repeat' first
    | with_reducible assumption
    | (with_reducible refine List.forall_mem_cons.2 ⟨?_, ?_⟩)
    | with_reducible exact List.forall_mem_nil _
    | intro _
    | (with_reducible refine st_p_kept _ _ _ ?_ ?_)
    | with_reducible apply kept_ite
    | with_reducible apply kept_foldl
    | (with_reducible refine may_fwm (hw.bit (by decide)) _ ?_)
    | decide

theorem execDomainWriteTimeout_kept (key : BitVec 24) (s : State)
    (hw : Sub 0x20020000080000000000000000000000 W) (h_s : Kept W s0 s) :
    ∃ t', execDomainWriteTimeout key s = .next t' ∧ Kept W s0 t' := by
  unfold execDomainWriteTimeout
  refine st_served_kept _ _ _ _ (Sub.trans (by decide) hw) (by assumption) fun s h_s => ?_
  refine ⟨_, rfl, ?_⟩
  try dsimp only
  repeat' first
    | with_reducible assumption
    | (with_reducible refine st_fresh_kept _ (Sub.trans (by decide) hw) ?_ )
    | (with_reducible refine loadInterrupted_kept _ (Sub.trans (by decide) hw) ?_ )
    | with_reducible apply kept_ite
    | with_reducible exact same
    | with_reducible exact mem_same
    | with_reducible exact host_same
    | with_reducible exact flt_same
    | exact .inr (hw.bit (by decide))
    | simp only [kept_mk]
    | with_reducible apply kept_upd

theorem execDomainSnapshotExpiry_kept (key : BitVec 24) (s : State)
    (hw : Sub 0x20020000000000000000000000000000 W) (h_s : Kept W s0 s) :
    ∃ t', execDomainSnapshotExpiry key s = .next t' ∧ Kept W s0 t' := by
  unfold execDomainSnapshotExpiry
  refine st_served_kept _ _ _ _ (Sub.trans (by decide) hw) (by assumption) fun s h_s => ?_
  refine ⟨_, rfl, ?_⟩
  try dsimp only
  repeat' first
    | with_reducible assumption
    | (with_reducible refine st_fresh_kept _ (Sub.trans (by decide) hw) ?_ )
    | with_reducible exact same
    | with_reducible exact mem_same
    | with_reducible exact host_same
    | with_reducible exact flt_same
    | exact .inr (hw.bit (by decide))
    | simp only [kept_mk]
    | with_reducible apply kept_upd

end Sys2Proof.Laws
end

