-- ==== Sys2Proof/Laws/KeptClocks.lean ====
section
/-! SUPPORT. One lemma per operation of Machine/Clocks.lean: within which mask of parts it keeps the rest; a command's meaning
answers a next state that is so kept. The numeral of a mask has the bits of Area. -/
namespace Sys2Proof.Laws
open Sys2Proof Sys2Proof.Machine
variable {W : Nat} {s0 : State}

theorem may_refKey (h : W.testBit Area.ck = true) (r : Fin 2) : May W (refKey r) := by
  unfold refKey
  split
  · exact may_ck h _ (by decide)
  · exact may_ck h _ (by decide)

theorem st_setRef_kept (s : State) (r : Fin 2) (x : Ref) (hw : Sub 0x2000000000000000000000000000000 W) (h_s : Kept W s0 s) :
    Kept W s0 (State.setRef s r x) := by
  unfold State.setRef
  try dsimp only
  repeat' first
    | with_reducible assumption
    | with_reducible exact same
    | with_reducible exact mem_same
    | with_reducible exact host_same
    | with_reducible exact flt_same
    | exact .inr (hw.bit (by decide))
    | simp only [kept_mk]
    | with_reducible apply kept_upd

theorem st_setGrp_kept (s : State) (g : Fin 3) (x : Grp) (hw : Sub 0x2000000000000000000000000000000 W) (h_s : Kept W s0 s) :
    Kept W s0 (State.setGrp s g x) := by
  unfold State.setGrp
  try dsimp only
  repeat' first
    | with_reducible assumption
    | with_reducible exact same
    | with_reducible exact mem_same
    | with_reducible exact host_same
    | with_reducible exact flt_same
    | exact .inr (hw.bit (by decide))
    | simp only [kept_mk]
    | with_reducible apply kept_upd

theorem dutRun_kept (k : Nat) (s : State) (hw : Sub 0x0 W) (h_s : Kept W s0 s) :
    Kept W s0 (dutRun k s) := by
  unfold dutRun
  try dsimp only
  repeat' first
    | with_reducible assumption
    | (with_reducible refine st_emits_kept _ _ (Sub.trans (by decide) hw) ?_ )

theorem dutChange_kept (k : Nat) (s : State) (hw : Sub 0x2000000000000000000000000000000 W) (h_s : Kept W s0 s) :
    Kept W s0 (dutChange k s) := by
  unfold dutChange
  try dsimp only
  repeat' first
    | with_reducible assumption
    | (with_reducible refine st_emit_kept _ _ (Sub.trans (by decide) hw) ?_ )
    | with_reducible exact same
    | with_reducible exact mem_same
    | with_reducible exact host_same
    | with_reducible exact flt_same
    | exact .inr (hw.bit (by decide))
    | simp only [kept_mk]
    | with_reducible apply kept_upd

theorem setWithy_kept (o : Fin 32) (v : Bool) (s : State) (hw : Sub 0x8000000000 W) (h_s : Kept W s0 s) :
    Kept W s0 (setWithy o v s) := by
  unfold setWithy
  try dsimp only
  repeat' first
    | with_reducible assumption
    | intro _
    | (with_reducible refine st_p_kept _ _ _ ?_ ?_)
    | with_reducible apply kept_foldl
    | (with_reducible refine may_ch (hw.bit (by decide)) _ _ ?_ ?_)
    | (have hj := lt_of_mem (by with_reducible assumption); omega)

theorem gateChange_kept (old : Nat) (s : State) (hw : Sub 0x820000000000000010098000000000 W) (h_s : Kept W s0 s) :
    Kept W s0 (gateChange old s) := by
  unfold gateChange
  try dsimp only
  repeat' first
    | intro _
    | (with_reducible refine st_p_kept _ _ _ ?_ ?_)
    | (with_reducible refine st_emit_kept _ _ (Sub.trans (by decide) hw) ?_ )
    | (with_reducible refine calClear_kept _ _ (Sub.trans (by decide) hw) ?_ )
    | (with_reducible refine dutRun_kept _ _ (Sub.trans (by decide) hw) ?_ )
    | (with_reducible refine setWithy_kept _ _ _ (Sub.trans (by decide) hw) ?_ )
    | with_reducible apply kept_ite
    | with_reducible apply kept_foldl
    | (with_reducible refine may_tt (hw.bit (by decide)) _ _ ?_ ?_)
    | omega
    | (have hj := lt_of_mem (by with_reducible assumption); omega)

theorem withyUnlock_kept (o : OctId) (s : State) (hw : Sub 0xbe2000000000000030488080410080 W) (h_s : Kept W s0 s) :
    Kept W s0 (withyUnlock o s) := by
  unfold withyUnlock
  try dsimp only
  repeat' first
    | with_reducible assumption
    | intro _
    | (with_reducible refine eachSite_kept _ _ _ (Sub.trans (by decide) hw) ?_ ?_ )
    | (with_reducible refine st_activate_kept _ _ _ _ (Sub.trans (by decide) hw) ?_ )
    | (with_reducible refine parkSite_kept _ _ _ (Sub.trans (by decide) hw) ?_ )
    | (with_reducible refine setWithy_kept _ _ _ (Sub.trans (by decide) hw) ?_ )
    | with_reducible apply kept_ite

theorem execWithyUnlock_kept (o : OctId) (s : State) (hw : Sub 0xbe2000000000000030488080410080 W) (h_s : Kept W s0 s) :
    ∃ t', execWithyUnlock o s = .next t' ∧ Kept W s0 t' := by
  unfold execWithyUnlock
  refine ⟨_, rfl, ?_⟩
  try dsimp only
  repeat' first
    | with_reducible assumption
    | intro _
    | (with_reducible refine st_fresh_kept _ (Sub.trans (by decide) hw) ?_ )
    | (with_reducible refine st_timed_kept _ _ (Sub.trans (by decide) hw) ?_ ?_ )
    | (with_reducible refine withyUnlock_kept _ _ (Sub.trans (by decide) hw) ?_ )

theorem withyRelock_kept (w : Withy) (s : State) (hw : Sub 0x80000000000000010008000000000 W) (h_s : Kept W s0 s) :
    Kept W s0 (withyRelock w s) := by
  unfold withyRelock
  try dsimp only
  repeat' first
    | with_reducible assumption
    | (with_reducible refine st_p_kept _ _ _ ?_ ?_)
    | (with_reducible refine st_deactivate_kept _ _ (Sub.trans (by decide) hw) ?_ )
    | (with_reducible refine setWithy_kept _ _ _ (Sub.trans (by decide) hw) ?_ )
    | (with_reducible refine may_tt (hw.bit (by decide)) _ _ ?_ ?_)
    | exact Fin.isLt _
    | decide
    | split

theorem execWithyRelock_kept (w : Withy) (s : State) (hw : Sub 0x80000000000000010008000000000 W) (h_s : Kept W s0 s) :
    ∃ t', execWithyRelock w s = .next t' ∧ Kept W s0 t' := by
  unfold execWithyRelock
  refine ⟨_, rfl, ?_⟩
  try dsimp only
  repeat' first
    | with_reducible assumption
    | (with_reducible refine st_fresh_kept _ (Sub.trans (by decide) hw) ?_ )
    | (with_reducible refine withyRelock_kept _ _ (Sub.trans (by decide) hw) ?_ )

theorem startPll_kept (g : Fin 3) (r : Fin 2) (s : State) (hw : Sub 0x2000000000000000000000000000000 W) (h_s : Kept W s0 s) :
    Kept W s0 (startPll g r s) := by
  unfold startPll
  try dsimp only
  repeat' first
    | with_reducible assumption
    | (with_reducible refine st_advance_kept _ (Sub.trans (by decide) hw) ?_ )
    | (with_reducible refine st_setGrp_kept _ _ _ (Sub.trans (by decide) hw) ?_ )
    | with_reducible apply kept_ite

theorem putBusy_kept (s : State) (hw : Sub 0x100000000000000000 W) (h_s : Kept W s0 s) :
    Kept W s0 (putBusy s) := by
  unfold putBusy
  try dsimp only
  repeat' first
    | with_reducible assumption
    | (with_reducible refine st_p_kept _ _ _ ?_ ?_)
    | (with_reducible refine may_cx (hw.bit (by decide)) _ ?_)
    | decide

theorem runLanes_kept (on : Bool) (s : State) (hw : Sub 0x0 W) (h_s : Kept W s0 s) :
    Kept W s0 (runLanes on s) := by
  unfold runLanes
  try dsimp only
  repeat' first
    | with_reducible assumption
    | intro _
    | (with_reducible refine st_emit_kept _ _ (Sub.trans (by decide) hw) ?_ )
    | with_reducible apply kept_foldl
    | split

theorem clampSite_kept (s : State) (i : SiteId) (hw : Sub 0x2000000000000000000000000000 W) (h_s : Kept W s0 s) :
    Kept W s0 (clampSite s i) := by
  unfold clampSite
  try dsimp only
  repeat' first
    | with_reducible assumption
    | (with_reducible refine st_advance_kept _ (Sub.trans (by decide) hw) ?_ )
    | (with_reducible refine st_emits_kept _ _ (Sub.trans (by decide) hw) ?_ )
    | (with_reducible refine st_setSite_kept _ _ _ (Sub.trans (by decide) hw) ?_ )
    | (with_reducible refine st_modSite_kept _ _ _ (Sub.trans (by decide) hw) ?_ )
    | (with_reducible refine slathAt_kept _ _ _ _ _ _ (Sub.trans (by decide) hw) ?_ )

theorem clampTiming_kept (s : State) (hw : Sub 0x29c2000000000000030008000000000 W) (h_s : Kept W s0 s) :
    Kept W s0 (clampTiming s) := by
  unfold clampTiming
  try dsimp only
  repeat' first
    | with_reducible assumption
    | intro _
    | (with_reducible refine st_emit_kept _ _ (Sub.trans (by decide) hw) ?_ )
    | (with_reducible refine tmuUnlock_kept _ _ (Sub.trans (by decide) hw) ?_ )
    | (with_reducible refine dutChange_kept _ _ (Sub.trans (by decide) hw) ?_ )
    | (with_reducible refine setWithy_kept _ _ _ (Sub.trans (by decide) hw) ?_ )
    | (with_reducible refine runLanes_kept _ _ (Sub.trans (by decide) hw) ?_ )
    | (with_reducible refine clampSite_kept _ _ (Sub.trans (by decide) hw) ?_ )
    | with_reducible apply kept_ite
    | with_reducible apply kept_foldl

theorem stopGroup_kept (g : Fin 3) (r : Fin 2) (s : State) (hw : Sub 0x29c20000000001c0030008000010000 W) (h_s : Kept W s0 s) :
    Kept W s0 (stopGroup g r s) := by
  unfold stopGroup
  try dsimp only
  repeat' first
    | with_reducible assumption
    | (with_reducible refine st_p_kept _ _ _ ?_ ?_)
    | (with_reducible refine st_sat32_kept _ _ (Sub.trans (by decide) hw) ?_ ?_ )
    | (with_reducible refine st_activate_kept _ _ _ _ (Sub.trans (by decide) hw) ?_ )
    | (with_reducible refine st_setGrp_kept _ _ _ (Sub.trans (by decide) hw) ?_ )
    | (with_reducible refine startPll_kept _ _ _ (Sub.trans (by decide) hw) ?_ )
    | (with_reducible refine putBusy_kept _ (Sub.trans (by decide) hw) ?_ )
    | (with_reducible refine clampTiming_kept _ (Sub.trans (by decide) hw) ?_ )
    | with_reducible apply kept_ite
    | (with_reducible refine may_cg (hw.bit (by decide)) _ _ ?_ ?_)
    | (with_reducible refine may_ck (hw.bit (by decide)) _ ?_)
    | with_reducible exact same
    | with_reducible exact mem_same
    | with_reducible exact host_same
    | with_reducible apply flt_upd
    | exact .inr (hw.bit (by decide))
    | exact Fin.isLt _
    | decide
    | simp only [kept_mk]
    | with_reducible apply kept_upd

theorem switchGone_kept (g : Fin 3) (s : State) (hw : Sub 0x2000000000000100000000000000000 W) (h_s : Kept W s0 s) :
    Kept W s0 (switchGone g s) := by
  unfold switchGone
  try dsimp only
  repeat' first
    | with_reducible assumption
    | (with_reducible refine st_setGrp_kept _ _ _ (Sub.trans (by decide) hw) ?_ )
    | (with_reducible refine putBusy_kept _ (Sub.trans (by decide) hw) ?_ )

theorem allDead_kept (s : State) (hw : Sub 0x2000000000000000000000000000000 W) (h_s : Kept W s0 s) :
    Kept W s0 (allDead s) := by
  unfold allDead
  try dsimp only
  repeat' first
    | with_reducible assumption
    | with_reducible apply kept_ite
    | with_reducible exact same
    | with_reducible exact mem_same
    | with_reducible exact host_same
    | with_reducible exact flt_same
    | exact .inr (hw.bit (by decide))
    | simp only [kept_mk]
    | with_reducible apply kept_upd

theorem declareFailed_kept (r : Fin 2) (st : Nat) (s : State) (hw : Sub 0x29c20000000001c0030008000010000 W) (h_s : Kept W s0 s) :
    Kept W s0 (declareFailed r st s) := by
  unfold declareFailed
  try dsimp only
  repeat' first
    | with_reducible assumption
    | intro _
    | (with_reducible refine st_p_kept _ _ _ ?_ ?_)
    | (with_reducible refine st_activate_kept _ _ _ _ (Sub.trans (by decide) hw) ?_ )
    | (with_reducible refine st_setRef_kept _ _ _ (Sub.trans (by decide) hw) ?_ )
    | (with_reducible refine stopGroup_kept _ _ _ (Sub.trans (by decide) hw) ?_ )
    | (with_reducible refine switchGone_kept _ _ (Sub.trans (by decide) hw) ?_ )
    | (with_reducible refine allDead_kept _ (Sub.trans (by decide) hw) ?_ )
    | with_reducible exact may_refKey (hw.bit (by decide)) _
    | with_reducible apply kept_ite
    | with_reducible apply kept_foldl
    | with_reducible exact same
    | with_reducible exact mem_same
    | with_reducible exact host_same
    | with_reducible exact flt_same
    | exact .inr (hw.bit (by decide))
    | simp only [kept_mk]
    | with_reducible apply kept_upd

theorem t1sSpread_kept (s : State) (hw : Sub 0x29c20000000001c0030008000010000 W) (h_s : Kept W s0 s) :
    Kept W s0 (t1sSpread s) := by
  unfold t1sSpread
  try dsimp only
  repeat' first
    | with_reducible assumption
    | (with_reducible refine stopGroup_kept _ _ _ (Sub.trans (by decide) hw) ?_ )
    | (with_reducible refine allDead_kept _ (Sub.trans (by decide) hw) ?_ )
    | with_reducible apply kept_ite

theorem requalify_kept (r : Fin 2) (within : Bool) (s : State)
    (hw : Sub 0x2080000000000040000000000000000 W) (h_s : Kept W s0 s) :
    Kept W s0 (requalify r within s) := by
  unfold requalify
  try dsimp only
  repeat' first
    | with_reducible assumption
    | (with_reducible refine st_p_kept _ _ _ ?_ ?_)
    | (with_reducible refine st_deactivate_kept _ _ (Sub.trans (by decide) hw) ?_ )
    | (with_reducible refine st_setRef_kept _ _ _ (Sub.trans (by decide) hw) ?_ )
    | with_reducible exact may_refKey (hw.bit (by decide)) _
    | with_reducible apply kept_ite

theorem monitorWindow_kept (dev : Int) (modulation : Nat) (s : State)
    (hw : Sub 0x29c20000000001c0030008000010000 W) (h_s : Kept W s0 s) :
    Kept W s0 (monitorWindow dev modulation s) := by
  unfold monitorWindow
  try dsimp only
  repeat' first
    | with_reducible assumption
    | intro _
    | (with_reducible refine st_p_kept _ _ _ ?_ ?_)
    | (with_reducible refine st_activate_kept _ _ _ _ (Sub.trans (by decide) hw) ?_ )
    | (with_reducible refine st_deactivate_kept _ _ (Sub.trans (by decide) hw) ?_ )
    | (with_reducible refine declareFailed_kept _ _ _ (Sub.trans (by decide) hw) ?_ )
    | (with_reducible refine t1sSpread_kept _ (Sub.trans (by decide) hw) ?_ )
    | (with_reducible refine requalify_kept _ _ _ (Sub.trans (by decide) hw) ?_ )
    | with_reducible apply kept_ite
    | with_reducible apply kept_foldl
    | (with_reducible refine may_ck (hw.bit (by decide)) _ ?_)
    | with_reducible exact same
    | with_reducible exact mem_same
    | with_reducible exact host_same
    | with_reducible exact flt_same
    | exact .inr (hw.bit (by decide))
    | decide
    | simp only [kept_mk]
    | with_reducible apply kept_upd

theorem execSscDetectedClear_kept (s : State) (hw : Sub 0x40000000000000000 W) (h_s : Kept W s0 s) :
    ∃ t', execSscDetectedClear s = .next t' ∧ Kept W s0 t' := by
  unfold execSscDetectedClear
  refine ⟨_, rfl, ?_⟩
  try dsimp only
  repeat' first
    | with_reducible assumption
    | (with_reducible refine st_p_kept _ _ _ ?_ ?_)
    | (with_reducible refine st_fresh_kept _ (Sub.trans (by decide) hw) ?_ )
    | with_reducible apply kept_ite
    | (with_reducible refine may_ck (hw.bit (by decide)) _ ?_)
    | decide

theorem execRefQualifying_kept (r : Fin 2) (s : State) (hw : Sub 0x2000000000000040000000000000000 W) (h_s : Kept W s0 s) :
    ∃ t', execRefQualifying r s = .next t' ∧ Kept W s0 t' := by
  unfold execRefQualifying
  refine ⟨_, rfl, ?_⟩
  try dsimp only
  repeat' first
    | with_reducible assumption
    | (with_reducible refine st_p_kept _ _ _ ?_ ?_)
    | (with_reducible refine st_fresh_kept _ (Sub.trans (by decide) hw) ?_ )
    | (with_reducible refine st_setRef_kept _ _ _ (Sub.trans (by decide) hw) ?_ )
    | with_reducible exact may_refKey (hw.bit (by decide)) _
    | with_reducible apply kept_ite

theorem dutOn_kept (s : State) (hw : Sub 0x800000000000000000 W) (h_s : Kept W s0 s) :
    Kept W s0 (dutOn s) := by
  unfold dutOn
  try dsimp only
  repeat' first
    | with_reducible assumption
    | intro _
    | (with_reducible refine st_p_kept _ _ _ ?_ ?_)
    | (with_reducible refine dutRun_kept _ _ (Sub.trans (by decide) hw) ?_ )
    | with_reducible apply kept_ite
    | with_reducible apply kept_foldl
    | (with_reducible refine may_dk (hw.bit (by decide)) _ _ ?_ ?_)
    | (have hj := lt_of_mem (by with_reducible assumption); omega)

theorem dutReset_kept (old : State) (s : State)
    (hw : Sub 0x2000000000000800000000000000000 W) (h_old : Kept W s0 old) (h_s : Kept W s0 s) :
    Kept W s0 (dutReset old s) := by
  unfold dutReset
  try dsimp only
  repeat' first
    | with_reducible assumption
    | intro _
    | (with_reducible refine st_p_kept _ _ _ ?_ ?_)
    | (with_reducible refine dutChange_kept _ _ (Sub.trans (by decide) hw) ?_ )
    | with_reducible apply kept_ite
    | with_reducible apply kept_foldl
    | (with_reducible refine may_dk (hw.bit (by decide)) _ _ ?_ ?_)
    | (have hj := lt_of_mem (by with_reducible assumption); omega)

theorem memoryLost_kept (s : State) (hw : Sub 0x12400000000000000000200000000 W) (h_s : Kept W s0 s) :
    Kept W s0 (memoryLost s) := by
  unfold memoryLost
  try dsimp only
  repeat' first
    | with_reducible assumption
    | intro _
    | (with_reducible refine st_p_kept _ _ _ ?_ ?_)
    | (with_reducible refine st_modSite_kept _ _ _ (Sub.trans (by decide) hw) ?_ )
    | (with_reducible refine failSeg_kept _ _ (Sub.trans (by decide) hw) ?_ )
    | with_reducible apply kept_ite
    | with_reducible apply kept_foldl
    | (with_reducible refine may_sm (hw.bit (by decide)) _ _ ?_ ?_)
    | exact Fin.isLt _
    | decide

theorem adoptLate_kept (src : Nat) (s : State) (hw : Sub 0x2000000100000000000000000000 W) (h_s : Kept W s0 s) :
    Kept W s0 (adoptLate src s) := by
  unfold adoptLate
  try dsimp only
  repeat' first
    | with_reducible assumption
    | (with_reducible refine adopt_kept _ _ _ (Sub.trans (by decide) hw) ?_ ?_ )
    | exact epRecord_lt (by with_reducible assumption)
    | split

theorem laterTiming_kept (d : Nat) (s : State) (hw : Sub 0x47feb1020000051c08b0099000012504 W) (h_s : Kept W s0 s) :
    Kept W s0 (laterTiming d s) := by
  unfold laterTiming
  try dsimp only
  repeat' first
    | with_reducible assumption
    | with_reducible exact same
    | with_reducible exact host_same
    | with_reducible exact flt_same
    | with_reducible apply mem_upd
    | exact .inr (hw.bit (by decide))
    | simp only [kept_mk]
    | with_reducible apply kept_upd

theorem laterHost_kept (d : Nat) (s : State) (hw : Sub 0x48a4000000000000000000000000000 W) (h_s : Kept W s0 s) :
    Kept W s0 (laterHost d s) := by
  have h1 := kept_queuesTo s (s.host.queues.map (fun e => (e.1, e.2.later d))) (fun c => (ksorted_map (Queue.later d) _).trans (h_s.can c).2.2.2.2.1) (hw.bit (by decide)) h_s
  unfold laterHost
  simp only [kept_mk]
  apply kept_upd h1
  repeat' first
    | with_reducible exact same
    | with_reducible exact mem_same
    | with_reducible exact host_same
    | with_reducible apply flt_upd
    | exact .inr (hw.bit (by decide))

theorem laterGroup_kept (g : Fin 3) (d : Nat) (s : State) (hw : Sub 0x47fef1020000051c08b0099000012504 W) (h_s : Kept W s0 s) :
    Kept W s0 (laterGroup g d s) := by
  unfold laterGroup
  try dsimp only
  repeat' first
    | with_reducible assumption
    | (with_reducible refine laterTiming_kept _ _ (Sub.trans (by decide) hw) ?_ )
    | (with_reducible refine laterHost_kept _ _ (Sub.trans (by decide) hw) ?_ )
    | split

theorem domRestart_kept (g : Fin 3) (t : Nat) (s : State) (hw : Sub 0x2000000000000000000000000000000 W) (h_s : Kept W s0 s) :
    Kept W s0 (domRestart g t s) := by
  unfold domRestart
  try dsimp only
  repeat' first
    | with_reducible assumption
    | with_reducible apply kept_ite
    | with_reducible exact same
    | with_reducible exact mem_same
    | with_reducible exact host_same
    | with_reducible exact flt_same
    | exact .inr (hw.bit (by decide))
    | simp only [kept_mk]
    | with_reducible apply kept_upd

theorem runFrom_kept (g : Fin 3) (r : Fin 2) (s : State) (hw : Sub 0x2000000000000980000000000000000 W) (h_s : Kept W s0 s) :
    Kept W s0 (runFrom g r s) := by
  unfold runFrom
  try dsimp only
  repeat' first
    | with_reducible assumption
    | (with_reducible refine st_p_kept _ _ _ ?_ ?_)
    | (with_reducible refine st_setGrp_kept _ _ _ (Sub.trans (by decide) hw) ?_ )
    | (with_reducible refine putBusy_kept _ (Sub.trans (by decide) hw) ?_ )
    | (with_reducible refine dutOn_kept _ (Sub.trans (by decide) hw) ?_ )
    | with_reducible apply kept_ite
    | (with_reducible refine may_cg (hw.bit (by decide)) _ _ ?_ ?_)
    | exact Fin.isLt _
    | decide

theorem restartGroup_kept (g : Fin 3) (r : Fin 2) (s : State)
    (hw : Sub 0x47fff5020001059c08b0499280412584 W) (h_s : Kept W s0 s) :
    Kept W s0 (restartGroup g r s) := by
  unfold restartGroup
  try dsimp only
  repeat' first
    | with_reducible assumption
    | intro _
    | (with_reducible refine st_p_kept _ _ _ ?_ ?_)
    | (with_reducible refine st_sat32_kept _ _ (Sub.trans (by decide) hw) ?_ ?_ )
    | (with_reducible refine st_deactivate_kept _ _ (Sub.trans (by decide) hw) ?_ )
    | (with_reducible refine parkSite_kept _ _ _ (Sub.trans (by decide) hw) ?_ )
    | (with_reducible refine runLanes_kept _ _ (Sub.trans (by decide) hw) ?_ )
    | (with_reducible refine memoryLost_kept _ (Sub.trans (by decide) hw) ?_ )
    | (with_reducible refine adoptLate_kept _ _ (Sub.trans (by decide) hw) ?_ )
    | (with_reducible refine laterGroup_kept _ _ _ (Sub.trans (by decide) hw) ?_ )
    | (with_reducible refine domRestart_kept _ _ _ (Sub.trans (by decide) hw) ?_ )
    | (with_reducible refine runFrom_kept _ _ _ (Sub.trans (by decide) hw) ?_ )
    | with_reducible apply kept_ite
    | with_reducible apply kept_foldl
    | with_reducible exact same
    | with_reducible exact mem_same
    | with_reducible exact host_same
    | with_reducible apply flt_upd
    | exact .inr (hw.bit (by decide))
    | exact Fin.isLt _
    | decide
    | simp only [kept_mk]
    | with_reducible apply kept_upd

theorem execGroupRestart_kept (g : Fin 3) (s : State) (hw : Sub 0x47fff5020001059c08b0499280412584 W) (h_s : Kept W s0 s) :
    ∃ t', execGroupRestart g s = .next t' ∧ Kept W s0 t' := by
  unfold execGroupRestart
  refine ⟨_, rfl, ?_⟩
  try dsimp only
  repeat' first
    | with_reducible assumption
    | (with_reducible refine st_fresh_kept _ (Sub.trans (by decide) hw) ?_ )
    | (with_reducible refine restartGroup_kept _ _ _ (Sub.trans (by decide) hw) ?_ )
    | with_reducible apply kept_ite

theorem startGroup_kept (g : Fin 3) (r : Fin 2) (s : State) (hw : Sub 0x2000000000000980000000000000000 W) (h_s : Kept W s0 s) :
    Kept W s0 (startGroup g r s) := by
  unfold startGroup
  try dsimp only
  repeat' first
    | with_reducible assumption
    | (with_reducible refine runFrom_kept _ _ _ (Sub.trans (by decide) hw) ?_ )
    | with_reducible apply kept_ite

theorem execRefGood_kept (r : Fin 2) (s : State) (hw : Sub 0x20800000000009c0000000000000000 W) (h_s : Kept W s0 s) :
    ∃ t', execRefGood r s = .next t' ∧ Kept W s0 t' := by
  unfold execRefGood
  refine ⟨_, rfl, ?_⟩
  try dsimp only
  repeat' first
    | with_reducible assumption
    | intro _
    | (with_reducible refine st_p_kept _ _ _ ?_ ?_)
    | (with_reducible refine st_fresh_kept _ (Sub.trans (by decide) hw) ?_ )
    | (with_reducible refine st_deactivate_kept _ _ (Sub.trans (by decide) hw) ?_ )
    | (with_reducible refine st_setRef_kept _ _ _ (Sub.trans (by decide) hw) ?_ )
    | (with_reducible refine st_setGrp_kept _ _ _ (Sub.trans (by decide) hw) ?_ )
    | (with_reducible refine startGroup_kept _ _ _ (Sub.trans (by decide) hw) ?_ )
    | with_reducible exact may_refKey (hw.bit (by decide)) _
    | with_reducible apply kept_ite
    | with_reducible apply kept_foldl

theorem execP1FallbackStart_kept (g : Fin 3) (s : State) (hw : Sub 0x2000000000000980000000000000000 W) (h_s : Kept W s0 s) :
    ∃ t', execP1FallbackStart g s = .next t' ∧ Kept W s0 t' := by
  unfold execP1FallbackStart
  refine ⟨_, rfl, ?_⟩
  try dsimp only
  repeat' first
    | with_reducible assumption
    | (with_reducible refine st_fresh_kept _ (Sub.trans (by decide) hw) ?_ )
    | (with_reducible refine startGroup_kept _ _ _ (Sub.trans (by decide) hw) ?_ )
    | with_reducible apply kept_ite

theorem stopForSwitch_kept (g : Fin 3) (s : State) (hw : Sub 0x2000000000000080000000000000000 W) (h_s : Kept W s0 s) :
    Kept W s0 (stopForSwitch g s) := by
  unfold stopForSwitch
  try dsimp only
  repeat' first
    | with_reducible assumption
    | intro _
    | (with_reducible refine st_p_kept _ _ _ ?_ ?_)
    | (with_reducible refine st_setGrp_kept _ _ _ (Sub.trans (by decide) hw) ?_ )
    | (with_reducible refine dutChange_kept _ _ (Sub.trans (by decide) hw) ?_ )
    | with_reducible apply kept_ite
    | with_reducible apply kept_foldl
    | (with_reducible refine may_cg (hw.bit (by decide)) _ _ ?_ ?_)
    | exact Fin.isLt _
    | decide

theorem beginSwitch_kept (g : Fin 3) (r : Fin 2) (s : State) (hw : Sub 0x2000000000000180000000000000000 W) (h_s : Kept W s0 s) :
    Kept W s0 (beginSwitch g r s) := by
  unfold beginSwitch
  try dsimp only
  repeat' first
    | with_reducible assumption
    | (with_reducible refine st_setGrp_kept _ _ _ (Sub.trans (by decide) hw) ?_ )
    | (with_reducible refine startPll_kept _ _ _ (Sub.trans (by decide) hw) ?_ )
    | (with_reducible refine putBusy_kept _ (Sub.trans (by decide) hw) ?_ )
    | (with_reducible refine stopForSwitch_kept _ _ (Sub.trans (by decide) hw) ?_ )
    | with_reducible apply kept_ite

theorem switchStops_kept (s : State) (hw : Sub 0x2000000000000080000000000000000 W) (h_s : Kept W s0 s) :
    Kept W s0 (switchStops s) := by
  unfold switchStops
  try dsimp only
  repeat' first
    | with_reducible assumption
    | intro _
    | (with_reducible refine stopForSwitch_kept _ _ (Sub.trans (by decide) hw) ?_ )
    | with_reducible apply kept_foldl
    | split

theorem switchCmd_kept (g : Fin 3) (r : Fin 2) (s : State) (hw : Sub 0x2000000000000180000000000000000 W) (h_s : Kept W s0 s) :
    Kept W s0 (switchCmd g r s).2 := by
  unfold switchCmd
  try dsimp only
  repeat' first
    | with_reducible assumption
    | (with_reducible refine beginSwitch_kept _ _ _ (Sub.trans (by decide) hw) ?_ )
    | with_reducible exact same
    | with_reducible exact mem_same
    | with_reducible exact host_same
    | with_reducible exact flt_same
    | exact .inr (hw.bit (by decide))
    | decide
    | simp only [kept_mk]
    | with_reducible apply kept_upd
    | split

theorem clkAnswer_kept (r : Nat × State) (hw : Sub 0x100000000000000000 W) (h_r : Kept W s0 r.2) :
    Kept W s0 (clkAnswer r) := by
  unfold clkAnswer
  try dsimp only
  repeat' first
    | with_reducible assumption
    | (with_reducible refine st_p_kept _ _ _ ?_ ?_)
    | (with_reducible refine may_cx (hw.bit (by decide)) _ ?_)
    | decide

theorem execSwitch_kept (g : Fin 3) (r : Fin 2) (s : State) (hw : Sub 0x22000000000000180000000000000000 W) (h_s : Kept W s0 s) :
    ∃ t', execSwitch g r s = .next t' ∧ Kept W s0 t' := by
  unfold execSwitch
  refine st_served_kept _ _ _ _ (Sub.trans (by decide) hw) (by assumption) fun s h_s => ?_
  refine ⟨_, rfl, ?_⟩
  try dsimp only
  repeat' first
    | with_reducible assumption
    | (with_reducible refine st_fresh_kept _ (Sub.trans (by decide) hw) ?_ )
    | (with_reducible refine switchCmd_kept _ _ _ (Sub.trans (by decide) hw) ?_ )
    | (with_reducible refine clkAnswer_kept _ (Sub.trans (by decide) hw) ?_ )

theorem execPlannedSwitchDone_kept (g : Fin 3) (s : State) (hw : Sub 0x47fef1020000059c08b0099000012504 W) (h_s : Kept W s0 s) :
    ∃ t', execPlannedSwitchDone g s = .next t' ∧ Kept W s0 t' := by
  unfold execPlannedSwitchDone
  refine ⟨_, rfl, ?_⟩
  try dsimp only
  repeat' first
    | with_reducible assumption
    | (with_reducible refine st_sat32_kept _ _ (Sub.trans (by decide) hw) ?_ ?_ )
    | (with_reducible refine st_fresh_kept _ (Sub.trans (by decide) hw) ?_ )
    | (with_reducible refine laterGroup_kept _ _ _ (Sub.trans (by decide) hw) ?_ )
    | (with_reducible refine domRestart_kept _ _ _ (Sub.trans (by decide) hw) ?_ )
    | (with_reducible refine runFrom_kept _ _ _ (Sub.trans (by decide) hw) ?_ )
    | (with_reducible refine may_cg (hw.bit (by decide)) _ _ ?_ ?_)
    | exact Fin.isLt _
    | decide
    | split

theorem execAutoRevert_kept (g : Fin 3) (s : State) (hw : Sub 0x2000000000000180000000000000000 W) (h_s : Kept W s0 s) :
    ∃ t', execAutoRevert g s = .next t' ∧ Kept W s0 t' := by
  unfold execAutoRevert
  refine ⟨_, rfl, ?_⟩
  try dsimp only
  repeat' first
    | with_reducible assumption
    | (with_reducible refine st_fresh_kept _ (Sub.trans (by decide) hw) ?_ )
    | (with_reducible refine beginSwitch_kept _ _ _ (Sub.trans (by decide) hw) ?_ )
    | with_reducible apply kept_ite

theorem execDutclkChange_kept (k : Fin 8) (s : State) (hw : Sub 0x2000000000000000000000000000000 W) (h_s : Kept W s0 s) :
    ∃ t', execDutclkChange k s = .next t' ∧ Kept W s0 t' := by
  unfold execDutclkChange
  refine ⟨_, rfl, ?_⟩
  try dsimp only
  repeat' first
    | with_reducible assumption
    | (with_reducible refine st_fresh_kept _ (Sub.trans (by decide) hw) ?_ )
    | (with_reducible refine dutChange_kept _ _ (Sub.trans (by decide) hw) ?_ )

theorem execDutclkRestart_kept (k : Fin 8) (s : State) (hw : Sub 0x2000000000000800000000000000000 W) (h_s : Kept W s0 s) :
    ∃ t', execDutclkRestart k s = .next t' ∧ Kept W s0 t' := by
  unfold execDutclkRestart
  refine ⟨_, rfl, ?_⟩
  try dsimp only
  repeat' first
    | with_reducible assumption
    | (with_reducible refine st_p_kept _ _ _ ?_ ?_)
    | (with_reducible refine st_fresh_kept _ (Sub.trans (by decide) hw) ?_ )
    | (with_reducible refine dutRun_kept _ _ (Sub.trans (by decide) hw) ?_ )
    | with_reducible apply kept_ite
    | (with_reducible refine may_dk (hw.bit (by decide)) _ _ ?_ ?_)
    | with_reducible exact same
    | with_reducible exact mem_same
    | with_reducible exact host_same
    | with_reducible exact flt_same
    | exact .inr (hw.bit (by decide))
    | exact Fin.isLt _
    | decide
    | simp only [kept_mk]
    | with_reducible apply kept_upd

theorem domSwitch_kept (nor : Bool) (s : State) (hw : Sub 0x2000000000000000000000000000000 W) (h_s : Kept W s0 s) :
    Kept W s0 (domSwitch nor s) := by
  unfold domSwitch
  try dsimp only
  repeat' first
    | with_reducible assumption
    | (with_reducible refine st_emit_kept _ _ (Sub.trans (by decide) hw) ?_ )
    | with_reducible exact same
    | with_reducible exact mem_same
    | with_reducible exact host_same
    | with_reducible exact flt_same
    | exact .inr (hw.bit (by decide))
    | simp only [kept_mk]
    | with_reducible apply kept_upd

theorem ridgeFire_kept (v : Nat) (s : State) (hw : Sub 0x2000000000000000000000000000000 W) (h_s : Kept W s0 s) :
    Kept W s0 (ridgeFire v s) := by
  unfold ridgeFire
  try dsimp only
  repeat' first
    | with_reducible assumption
    | with_reducible apply kept_ite
    | with_reducible exact same
    | with_reducible exact mem_same
    | with_reducible exact host_same
    | with_reducible exact flt_same
    | exact .inr (hw.bit (by decide))
    | simp only [kept_mk]
    | with_reducible apply kept_upd

theorem execRidgeFireStart_kept (s : State) (hw : Sub 0x22000000000000000000000000000000 W) (h_s : Kept W s0 s) :
    ∃ t', execRidgeFireStart s = .next t' ∧ Kept W s0 t' := by
  unfold execRidgeFireStart
  refine st_served_kept _ _ _ _ (Sub.trans (by decide) hw) (by assumption) fun s h_s => ?_
  refine ⟨_, rfl, ?_⟩
  try dsimp only
  repeat' first
    | with_reducible assumption
    | (with_reducible refine st_fresh_kept _ (Sub.trans (by decide) hw) ?_ )
    | (with_reducible refine ridgeFire_kept _ _ (Sub.trans (by decide) hw) ?_ )

theorem execRidgeFireStop_kept (s : State) (hw : Sub 0x22000000000000000000000000000000 W) (h_s : Kept W s0 s) :
    ∃ t', execRidgeFireStop s = .next t' ∧ Kept W s0 t' := by
  unfold execRidgeFireStop
  refine st_served_kept _ _ _ _ (Sub.trans (by decide) hw) (by assumption) fun s h_s => ?_
  refine ⟨_, rfl, ?_⟩
  try dsimp only
  repeat' first
    | with_reducible assumption
    | (with_reducible refine st_fresh_kept _ (Sub.trans (by decide) hw) ?_ )
    | (with_reducible refine ridgeFire_kept _ _ (Sub.trans (by decide) hw) ?_ )

theorem ridgeGenerate_kept (s : State) (hw : Sub 0x2000000000000000000000000000000 W) (h_s : Kept W s0 s) :
    Kept W s0 (ridgeGenerate s) := by
  unfold ridgeGenerate
  try dsimp only
  repeat' first
    | with_reducible assumption
    | (with_reducible refine st_emit_kept _ _ (Sub.trans (by decide) hw) ?_ )
    | with_reducible exact same
    | with_reducible exact mem_same
    | with_reducible exact host_same
    | with_reducible exact flt_same
    | exact .inr (hw.bit (by decide))
    | simp only [kept_mk]
    | with_reducible apply kept_upd
    | split

theorem execRidgeGenerate_kept (s : State) (hw : Sub 0x2000000000000000000000000000000 W) (h_s : Kept W s0 s) :
    ∃ t', execRidgeGenerate s = .next t' ∧ Kept W s0 t' := by
  unfold execRidgeGenerate
  refine ⟨_, rfl, ?_⟩
  try dsimp only
  repeat' first
    | with_reducible assumption
    | intro _
    | (with_reducible refine st_fresh_kept _ (Sub.trans (by decide) hw) ?_ )
    | (with_reducible refine st_timed_kept _ _ (Sub.trans (by decide) hw) ?_ ?_ )
    | (with_reducible refine ridgeGenerate_kept _ (Sub.trans (by decide) hw) ?_ )

theorem ridgeCalCmd_kept (s : State) (hw : Sub 0x2900000000000100030000000000000 W) (h_s : Kept W s0 s) :
    Kept W s0 (ridgeCalCmd s).2 := by
  unfold ridgeCalCmd
  try dsimp only
  repeat' first
    | with_reducible assumption
    | (with_reducible refine tmuArm_kept _ _ (Sub.trans (by decide) hw) ?_ )
    | (with_reducible refine putBusy_kept _ (Sub.trans (by decide) hw) ?_ )
    | with_reducible exact same
    | with_reducible exact mem_same
    | with_reducible exact host_same
    | with_reducible exact flt_same
    | exact .inr (hw.bit (by decide))
    | simp only [kept_mk]
    | with_reducible apply kept_upd
    | split

theorem execRidgeCal_kept (s : State) (hw : Sub 0x22900000000000100030000000000000 W) (h_s : Kept W s0 s) :
    ∃ t', execRidgeCal s = .next t' ∧ Kept W s0 t' := by
  unfold execRidgeCal
  refine st_served_kept _ _ _ _ (Sub.trans (by decide) hw) (by assumption) fun s h_s => ?_
  refine ⟨_, rfl, ?_⟩
  try dsimp only
  repeat' first
    | with_reducible assumption
    | (with_reducible refine st_fresh_kept _ (Sub.trans (by decide) hw) ?_ )
    | (with_reducible refine clkAnswer_kept _ (Sub.trans (by decide) hw) ?_ )
    | (with_reducible refine ridgeCalCmd_kept _ (Sub.trans (by decide) hw) ?_ )

theorem ridgeCalEnds_kept (status : Nat) (s : State) (hw : Sub 0x2942000000000100030000000000000 W) (h_s : Kept W s0 s) :
    Kept W s0 (ridgeCalEnds status s) := by
  unfold ridgeCalEnds
  try dsimp only
  repeat' first
    | with_reducible assumption
    | (with_reducible refine tmuEnd_kept _ _ _ (Sub.trans (by decide) hw) ?_ )
    | (with_reducible refine putBusy_kept _ (Sub.trans (by decide) hw) ?_ )
    | with_reducible apply kept_ite
    | with_reducible exact same
    | with_reducible exact mem_same
    | with_reducible exact host_same
    | with_reducible exact flt_same
    | exact .inr (hw.bit (by decide))
    | simp only [kept_mk]
    | with_reducible apply kept_upd

theorem ridgeCalDone_kept (edges : Nat) (phi sdev : Int) (late : Bool) (s : State)
    (hw : Sub 0x2962000000001100030000000000000 W) (h_s : Kept W s0 s) :
    Kept W s0 (ridgeCalDone edges phi sdev late s) := by
  unfold ridgeCalDone
  try dsimp only
  repeat' first
    | with_reducible assumption
    | (with_reducible refine st_p_kept _ _ _ ?_ ?_)
    | (with_reducible refine st_publish_kept _ _ _ _ _ _ (Sub.trans (by decide) hw) ?_ ?_ )
    | (with_reducible refine ridgeCalEnds_kept _ _ (Sub.trans (by decide) hw) ?_ )
    | with_reducible apply kept_ite
    | (with_reducible refine may_cx (hw.bit (by decide)) _ ?_)
    | (with_reducible refine may_rd (hw.bit (by decide)) _ ?_)
    | decide

theorem execRidgeCalDone_kept (edges : Nat) (phi sdev : Int) (late : Bool) (s : State)
    (hw : Sub 0x2962000000001100030000000000000 W) (h_s : Kept W s0 s) :
    ∃ t', execRidgeCalDone edges phi sdev late s = .next t' ∧ Kept W s0 t' := by
  unfold execRidgeCalDone
  refine ⟨_, rfl, ?_⟩
  try dsimp only
  repeat' first
    | with_reducible assumption
    | intro _
    | (with_reducible refine st_fresh_kept _ (Sub.trans (by decide) hw) ?_ )
    | (with_reducible refine st_timed_kept _ _ (Sub.trans (by decide) hw) ?_ ?_ )
    | (with_reducible refine ridgeCalDone_kept _ _ _ _ _ (Sub.trans (by decide) hw) ?_ )

end Sys2Proof.Laws
end

