-- ==== Sys2Proof/Laws/KeptCalibration.lean ====
section
/-! SUPPORT. One lemma per operation of Machine/Calibration.lean: within which mask of parts it keeps the rest; a command's meaning
answers a next state that is so kept. The numeral of a mask has the bits of Area. -/
namespace Sys2Proof.Laws
open Sys2Proof Sys2Proof.Machine
variable {W : Nat} {s0 : State}

theorem elems_lt {j : Nat} (h : j ∈ elems) : j < 10 := List.mem_range.1 h

theorem calPublish_kept (x : Txn) (s : State) (hw : Sub 0x820000000000000000000000000000 W) (h_s : Kept W s0 s) :
    Kept W s0 (calPublish x s) := by
  unfold calPublish
  try dsimp only
  repeat' first
    | with_reducible assumption
    | (with_reducible refine st_publishTxn_kept _ _ (Sub.trans (by decide) hw) ?_ )
    | with_reducible apply kept_ite
    | with_reducible exact same
    | with_reducible exact mem_same
    | with_reducible exact host_same
    | with_reducible exact flt_same
    | exact .inr (hw.bit (by decide))
    | simp only [kept_mk]
    | with_reducible apply kept_upd

theorem calCommit_kept (job : CalJob) (kind : Nat) (sites : SiteMask) (keys : List Nat) (t s : State)
    (hw : Sub 0x820000000000000000000000000000 W) (h_t : Kept W s0 t) (h_s : Kept W s0 s) :
    Kept W s0 (calCommit job kind sites keys t s) := by
  unfold calCommit
  try dsimp only
  repeat' first
    | with_reducible assumption
    | (with_reducible refine calPublish_kept _ _ (Sub.trans (by decide) hw) ?_ )
    | with_reducible apply kept_ite
    | with_reducible exact same
    | with_reducible exact mem_same
    | with_reducible exact host_same
    | with_reducible exact flt_same
    | exact .inr (hw.bit (by decide))
    | simp only [kept_mk]
    | with_reducible apply kept_upd

theorem putOffsets_kept (c : ChanId) (o : List Int) (s : State) (hw : Sub 0x10000000000 W) (h_s : Kept W s0 s) :
    Kept W s0 (putOffsets c o s) := by
  unfold putOffsets
  try dsimp only
  repeat' first
    | with_reducible assumption
    | intro _
    | (with_reducible refine st_p_kept _ _ _ ?_ ?_)
    | (have hj := elems_lt (by with_reducible assumption); omega)
    | with_reducible apply kept_foldl
    | (with_reducible refine may_cc (hw.bit (by decide)) _ _ ?_ ?_)
    | exact Fin.isLt _
    | decide

theorem recordKind_kept (c : ChanId) (kind : Nat) (temp : Int) (s : State) (hw : Sub 0x10000000000 W) (h_s : Kept W s0 s) :
    Kept W s0 (recordKind c kind temp s) := by
  unfold recordKind
  try dsimp only
  repeat' first
    | with_reducible assumption
    | (with_reducible refine st_p_kept _ _ _ ?_ ?_)
    | (with_reducible refine may_cc (hw.bit (by decide)) _ _ ?_ ?_)
    | exact Fin.isLt _
    | decide

theorem recordCal_kept (c : ChanId) (kind : Nat) (temp : Int) (s : State) (hw : Sub 0x10000000000 W) (h_s : Kept W s0 s) :
    Kept W s0 (recordCal c kind temp s) := by
  unfold recordCal
  try dsimp only
  repeat' first
    | with_reducible assumption
    | (with_reducible refine st_cnt32_kept _ _ (Sub.trans (by decide) hw) ?_ ?_ )
    | (with_reducible refine recordKind_kept _ _ _ _ (Sub.trans (by decide) hw) ?_ )
    | (with_reducible refine may_cc (hw.bit (by decide)) _ _ ?_ ?_)
    | exact Fin.isLt _
    | decide

theorem putCalState_kept (s : State) (hw : Sub 0x800000000000000 W) (h_s : Kept W s0 s) :
    Kept W s0 (putCalState s) := by
  unfold putCalState
  try dsimp only
  repeat' first
    | with_reducible assumption
    | (with_reducible refine st_p_kept _ _ _ ?_ ?_)
    | (with_reducible refine may_cl (hw.bit (by decide)) _ ?_)
    | decide

theorem releaseTmu_kept (u : TmuId) (s : State) (hw : Sub 0x100000000000000010000000000000 W) (h_s : Kept W s0 s) :
    Kept W s0 (releaseTmu u s) := by
  unfold releaseTmu
  try dsimp only
  repeat' first
    | with_reducible assumption
    | (with_reducible refine st_p_kept _ _ _ ?_ ?_)
    | (with_reducible refine st_setTmu_kept _ _ _ (Sub.trans (by decide) hw) ?_ )
    | (with_reducible refine waitEnds_kept _ _ (Sub.trans (by decide) hw) ?_ )
    | with_reducible apply kept_ite
    | (with_reducible refine may_tt (hw.bit (by decide)) _ _ ?_ ?_)
    | exact Fin.isLt _
    | decide

theorem execTmuCalRelease_kept (u : TmuId) (s : State) (hw : Sub 0x900000000000000010000000000000 W) (h_s : Kept W s0 s) :
    ∃ t', execTmuCalRelease u s = .next t' ∧ Kept W s0 t' := by
  unfold execTmuCalRelease
  refine ⟨_, rfl, ?_⟩
  try dsimp only
  repeat' first
    | with_reducible assumption
    | intro _
    | (with_reducible refine st_fresh_kept _ (Sub.trans (by decide) hw) ?_ )
    | (with_reducible refine st_setCalBank_kept _ _ _ (Sub.trans (by decide) hw) ?_ )
    | (with_reducible refine st_timed_kept _ _ (Sub.trans (by decide) hw) ?_ ?_ )
    | (with_reducible refine releaseTmu_kept _ _ (Sub.trans (by decide) hw) ?_ )
    | split

theorem calStatus_kept (c : ChanId) (v : Nat) (s : State) (hw : Sub 0x10000000000 W) (h_s : Kept W s0 s) :
    Kept W s0 (calStatus c v s) := by
  unfold calStatus
  try dsimp only
  repeat' first
    | with_reducible assumption
    | (with_reducible refine st_p_kept _ _ _ ?_ ?_)
    | (with_reducible refine may_cc (hw.bit (by decide)) _ _ ?_ ?_)
    | exact Fin.isLt _
    | decide

theorem cutSwap_kept (b : BankId) (w : Swap) (s : State) (hw : Sub 0x800000000000000000090000000000 W) (h_s : Kept W s0 s) :
    Kept W s0 (cutSwap b w s) := by
  unfold cutSwap
  try dsimp only
  repeat' first
    | with_reducible assumption
    | (with_reducible refine st_p_kept _ _ _ ?_ ?_)
    | (with_reducible refine st_setCalBank_kept _ _ _ (Sub.trans (by decide) hw) ?_ )
    | (with_reducible refine calStatus_kept _ _ _ (Sub.trans (by decide) hw) ?_ )
    | (with_reducible refine may_sp (hw.bit (by decide)) _ _ ?_ ?_)
    | exact Fin.isLt _
    | decide
    | split

theorem refLost_kept (s : State) (hw : Sub 0x8c0000000000000800090000000000 W) (h_s : Kept W s0 s) :
    Kept W s0 (refLost s) := by
  unfold refLost
  try dsimp only
  repeat' first
    | with_reducible assumption
    | intro _
    | (with_reducible refine st_activate_kept _ _ _ _ (Sub.trans (by decide) hw) ?_ )
    | (with_reducible refine putCalState_kept _ (Sub.trans (by decide) hw) ?_ )
    | (with_reducible refine cutSwap_kept _ _ _ (Sub.trans (by decide) hw) ?_ )
    | with_reducible apply kept_foldl
    | with_reducible exact same
    | with_reducible exact mem_same
    | with_reducible exact host_same
    | with_reducible exact flt_same
    | exact .inr (hw.bit (by decide))
    | simp only [kept_mk]
    | with_reducible apply kept_upd
    | split

theorem refMeasured_kept (fm vm : Nat) (s : State) (hw : Sub 0x800000000000000000000000000000 W) (h_s : Kept W s0 s) :
    Kept W s0 (refMeasured fm vm s) := by
  unfold refMeasured
  try dsimp only
  repeat' first
    | with_reducible assumption
    | with_reducible exact same
    | with_reducible exact mem_same
    | with_reducible exact host_same
    | with_reducible exact flt_same
    | exact .inr (hw.bit (by decide))
    | simp only [kept_mk]
    | with_reducible apply kept_upd

theorem refCheck_kept (b : BankId) (s : State) (hw : Sub 0x8c0000000000000800090000000000 W) (h_s : Kept W s0 s) :
    Kept W s0 (refCheck b s) := by
  unfold refCheck
  try dsimp only
  repeat' first
    | with_reducible assumption
    | (with_reducible refine refLost_kept _ (Sub.trans (by decide) hw) ?_ )
    | with_reducible apply kept_ite

theorem execCalrefRecovered_kept (s : State) (hw : Sub 0x8c0000000000000800090000000000 W) (h_s : Kept W s0 s) :
    ∃ t', execCalrefRecovered s = .next t' ∧ Kept W s0 t' := by
  unfold execCalrefRecovered
  refine ⟨_, rfl, ?_⟩
  try dsimp only
  repeat' first
    | with_reducible assumption
    | intro _
    | (with_reducible refine st_fresh_kept _ (Sub.trans (by decide) hw) ?_ )
    | (with_reducible refine st_timed_kept _ _ (Sub.trans (by decide) hw) ?_ ?_ )
    | (with_reducible refine st_deactivate_kept _ _ (Sub.trans (by decide) hw) ?_ )
    | (with_reducible refine putCalState_kept _ (Sub.trans (by decide) hw) ?_ )
    | with_reducible exact same
    | with_reducible exact mem_same
    | with_reducible exact host_same
    | with_reducible exact flt_same
    | exact .inr (hw.bit (by decide))
    | simp only [kept_mk]
    | with_reducible apply kept_upd

theorem blockEnds_kept (b : BankId) (s : State) (hw : Sub 0x9c0000000000000810090000000000 W) (h_s : Kept W s0 s) :
    Kept W s0 (blockEnds b s) := by
  unfold blockEnds
  try dsimp only
  repeat' first
    | with_reducible assumption
    | (with_reducible refine st_setCalBank_kept _ _ _ (Sub.trans (by decide) hw) ?_ )
    | (with_reducible refine releaseTmu_kept _ _ (Sub.trans (by decide) hw) ?_ )
    | (with_reducible refine refCheck_kept _ _ (Sub.trans (by decide) hw) ?_ )
    | with_reducible apply kept_ite

theorem idleTmu_kept (b : BankId) (s : State) (hw : Sub 0x900000000000000010000000000000 W) (h_s : Kept W s0 s) :
    Kept W s0 (idleTmu b s) := by
  unfold idleTmu
  try dsimp only
  repeat' first
    | with_reducible assumption
    | (with_reducible refine st_p_kept _ _ _ ?_ ?_)
    | (with_reducible refine st_setCalBank_kept _ _ _ (Sub.trans (by decide) hw) ?_ )
    | (with_reducible refine releaseTmu_kept _ _ (Sub.trans (by decide) hw) ?_ )
    | with_reducible apply kept_ite
    | (with_reducible refine may_tt (hw.bit (by decide)) _ _ ?_ ?_)
    | exact Fin.isLt _
    | decide

theorem holdTmu_kept (b : BankId) (s : State) (hw : Sub 0x9c0000000000000810090000000000 W) (h_s : Kept W s0 s) :
    Kept W s0 (holdTmu b s) := by
  unfold holdTmu
  try dsimp only
  repeat' first
    | with_reducible assumption
    | (with_reducible refine st_p_kept _ _ _ ?_ ?_)
    | (with_reducible refine st_setCalBank_kept _ _ _ (Sub.trans (by decide) hw) ?_ )
    | (with_reducible refine refCheck_kept _ _ (Sub.trans (by decide) hw) ?_ )
    | (with_reducible refine idleTmu_kept _ _ (Sub.trans (by decide) hw) ?_ )
    | with_reducible apply kept_ite
    | (with_reducible refine may_tt (hw.bit (by decide)) _ _ ?_ ?_)
    | exact Fin.isLt _
    | decide

theorem beginChan_kept (b : BankId) (c : ChanId) (p : Option SparId) (s : State)
    (hw : Sub 0x800000000000000000090000000000 W) (h_s : Kept W s0 s) :
    Kept W s0 (beginChan b c p s) := by
  unfold beginChan
  try dsimp only
  repeat' first
    | with_reducible assumption
    | (with_reducible refine List.forall_mem_cons.2 ⟨?_, ?_⟩)
    | with_reducible exact List.forall_mem_nil _
    | (with_reducible refine st_p_kept _ _ _ ?_ ?_)
    | (with_reducible refine st_setCalBank_kept _ _ _ (Sub.trans (by decide) hw) ?_ )
    | (with_reducible refine st_zero_kept _ _ (Sub.trans (by decide) hw) ?_ ?_ )
    | (with_reducible refine calStatus_kept _ _ _ (Sub.trans (by decide) hw) ?_ )
    | (with_reducible refine may_sp (hw.bit (by decide)) _ _ ?_ ?_)
    | exact Fin.isLt _
    | decide
    | split

theorem beginFirst_kept (b : BankId) (l : List Nat) (s : State)
    (hw : Sub 0x800000000000000000090000000000 W) (h_s : Kept W s0 s) :
    Kept W s0 (beginFirst b l s) := by
  induction l generalizing s with
  | nil => exact h_s
  | cons x r ih =>
    unfold beginFirst
    dsimp only
    repeat' first
      | with_reducible assumption
      | with_reducible apply kept_ite
      | with_reducible refine beginChan_kept _ _ _ _ (Sub.trans (by decide) hw) ?_
      | with_reducible refine calStatus_kept _ _ _ (Sub.trans (by decide) hw) ?_
      | with_reducible refine st_setCalBank_kept _ _ _ (Sub.trans (by decide) hw) ?_
      | (apply ih; done)
      | with_reducible apply ih
      | split

theorem queueUnfit_kept (b : BankId) (s : State) (hw : Sub 0x800000000000000000000000000000 W) (h_s : Kept W s0 s) :
    Kept W s0 (queueUnfit b s) := by
  unfold queueUnfit
  try dsimp only
  repeat' first
    | with_reducible assumption
    | (with_reducible refine st_setCalBank_kept _ _ _ (Sub.trans (by decide) hw) ?_ )
    | with_reducible apply kept_ite

theorem calNext_kept (b : BankId) (s : State) (hw : Sub 0x9c0000000000000810090000000000 W) (h_s : Kept W s0 s) :
    Kept W s0 (calNext b s) := by
  unfold calNext
  try dsimp only
  repeat' first
    | with_reducible assumption
    | (with_reducible refine st_p_kept _ _ _ ?_ ?_)
    | (with_reducible refine st_setCalBank_kept _ _ _ (Sub.trans (by decide) hw) ?_ )
    | (with_reducible refine refLost_kept _ (Sub.trans (by decide) hw) ?_ )
    | (with_reducible refine holdTmu_kept _ _ (Sub.trans (by decide) hw) ?_ )
    | (with_reducible refine beginFirst_kept _ _ _ (Sub.trans (by decide) hw) ?_ )
    | (with_reducible refine queueUnfit_kept _ _ (Sub.trans (by decide) hw) ?_ )
    | (with_reducible refine may_sp (hw.bit (by decide)) _ _ ?_ ?_)
    | exact Fin.isLt _
    | decide
    | split

theorem queueChan_kept (b : BankId) (c : ChanId) (s : State) (hw : Sub 0x800000000000000000010000000000 W) (h_s : Kept W s0 s) :
    Kept W s0 (queueChan b c s) := by
  unfold queueChan
  try dsimp only
  repeat' first
    | with_reducible assumption
    | (with_reducible refine st_setCalBank_kept _ _ _ (Sub.trans (by decide) hw) ?_ )
    | (with_reducible refine calStatus_kept _ _ _ (Sub.trans (by decide) hw) ?_ )
    | with_reducible apply kept_ite

theorem suspendReport_kept (b : BankId) (s : State) (hw : Sub 0xc0000000000001000000000000000 W) (_h_s : Kept W s0 s) :
    Kept W s0 (suspendReport b s) := by
  unfold suspendReport
  try dsimp only
  repeat' first
    | (with_reducible refine st_p_kept _ _ _ ?_ ?_)
    | (with_reducible refine st_activate_kept _ _ _ _ (Sub.trans (by decide) hw) ?_ )
    | (with_reducible refine st_deactivate_kept _ _ (Sub.trans (by decide) hw) ?_ )
    | with_reducible apply kept_ite
    | (with_reducible refine may_cb (hw.bit (by decide)) _ _ ?_ ?_)
    | omega

theorem holdHigh_kept (u : TmuId) (s : State) (hw : Sub 0x10000000000000 W) (h_s : Kept W s0 s) :
    Kept W s0 (holdHigh u s) := by
  unfold holdHigh
  try dsimp only
  repeat' first
    | with_reducible assumption
    | (with_reducible refine st_p_kept _ _ _ ?_ ?_)
    | with_reducible apply kept_ite
    | (with_reducible refine may_tt (hw.bit (by decide)) _ _ ?_ ?_)
    | exact Fin.isLt _
    | decide

theorem bankReports_kept (b : BankId) (s : State) (hw : Sub 0xc0000000000001000000000000000 W) (_h_s : Kept W s0 s) :
    Kept W s0 (bankReports b s) := by
  unfold bankReports
  try dsimp only
  repeat' first
    | (with_reducible refine st_p_kept _ _ _ ?_ ?_)
    | (with_reducible refine st_activate_kept _ _ _ _ (Sub.trans (by decide) hw) ?_ )
    | (with_reducible refine st_deactivate_kept _ _ (Sub.trans (by decide) hw) ?_ )
    | with_reducible apply kept_ite
    | (with_reducible refine may_cb (hw.bit (by decide)) _ _ ?_ ?_)
    | omega

theorem measureTemp_kept (b : BankId) (s : State) (hw : Sub 0x800000000000000000000000000000 W) (h_s : Kept W s0 s) :
    Kept W s0 (measureTemp b s) := by
  unfold measureTemp
  try dsimp only
  repeat' first
    | with_reducible assumption
    | (with_reducible refine st_setCalBank_kept _ _ _ (Sub.trans (by decide) hw) ?_ )
    | split

theorem legacyBegin_kept (b : BankId) (want : List Nat) (s : State)
    (hw : Sub 0x9c0000000000000810090000000000 W) (h_s : Kept W s0 s) :
    Kept W s0 (legacyBegin b want s) := by
  unfold legacyBegin
  try dsimp only
  repeat' first
    | with_reducible assumption
    | (with_reducible refine st_setCalBank_kept _ _ _ (Sub.trans (by decide) hw) ?_ )
    | with_reducible apply kept_ite

theorem tickBank_kept (b : BankId) (s : State) (hw : Sub 0x9c0000000000001810090000000000 W) (_h_s : Kept W s0 s) :
    Kept W s0 (tickBank b s) := by
  unfold tickBank
  try dsimp only
  repeat' first
    | intro _
    | (with_reducible refine st_p_kept _ _ _ ?_ ?_)
    | (with_reducible refine st_setCalBank_kept _ _ _ (Sub.trans (by decide) hw) ?_ )
    | (with_reducible refine queueChan_kept _ _ _ (Sub.trans (by decide) hw) ?_ )
    | (with_reducible refine bankReports_kept _ _ (Sub.trans (by decide) hw) ?_ )
    | (with_reducible refine measureTemp_kept _ _ (Sub.trans (by decide) hw) ?_ )
    | (with_reducible refine legacyBegin_kept _ _ _ (Sub.trans (by decide) hw) ?_ )
    | with_reducible apply kept_ite
    | with_reducible apply kept_foldl
    | (with_reducible refine may_cb (hw.bit (by decide)) _ _ ?_ ?_)
    | omega

theorem calStart_kept (b : BankId) (fm vm : Nat) (s : State) (hw : Sub 0x9c0000000000000810090000000000 W) (h_s : Kept W s0 s) :
    Kept W s0 (calStart b fm vm s) := by
  unfold calStart
  try dsimp only
  repeat' first
    | with_reducible assumption
    | (with_reducible refine refMeasured_kept _ _ _ (Sub.trans (by decide) hw) ?_ )
    | (with_reducible refine calNext_kept _ _ (Sub.trans (by decide) hw) ?_ )

theorem trimLevel_kept (d : DacId) (err : Int) (s : State) (hw : Sub 0x820000000000020000000000000000 W) (h_s : Kept W s0 s) :
    Kept W s0 (trimLevel d err s) := by
  unfold trimLevel
  try dsimp only
  repeat' first
    | with_reducible assumption
    | (with_reducible refine st_p_kept _ _ _ ?_ ?_)
    | (with_reducible refine calCommit_kept _ _ _ _ _ _ (Sub.trans (by decide) hw) ?_ ?_ )
    | with_reducible apply kept_ite
    | (with_reducible refine may_lt (hw.bit (by decide)) _ _ ?_ ?_)
    | exact Fin.isLt _
    | decide

theorem execCalTick_kept (refs : RefMeas) (dacs : List (DacId × Int)) (s : State)
    (hw : Sub 0x9e0000000000021810090000000000 W) (h_s : Kept W s0 s) :
    ∃ t', execCalTick refs dacs s = .next t' ∧ Kept W s0 t' := by
  unfold execCalTick
  refine ⟨_, rfl, ?_⟩
  try dsimp only
  repeat' first
    | with_reducible assumption
    | intro _
    | (with_reducible refine st_fresh_kept _ (Sub.trans (by decide) hw) ?_ )
    | (with_reducible refine st_timed_kept _ _ (Sub.trans (by decide) hw) ?_ ?_ )
    | (with_reducible refine putCalState_kept _ (Sub.trans (by decide) hw) ?_ )
    | (with_reducible refine refMeasured_kept _ _ _ (Sub.trans (by decide) hw) ?_ )
    | (with_reducible refine calNext_kept _ _ (Sub.trans (by decide) hw) ?_ )
    | (with_reducible refine tickBank_kept _ _ (Sub.trans (by decide) hw) ?_ )
    | (with_reducible refine trimLevel_kept _ _ _ (Sub.trans (by decide) hw) ?_ )
    | with_reducible apply kept_foldl

theorem nativeLeaves_kept (n : NativeRun) (b : BankId) (s : State)
    (hw : Sub 0x9c0000000000000810090000000000 W) (h_s : Kept W s0 s) :
    Kept W s0 (nativeLeaves n b s) := by
  unfold nativeLeaves
  try dsimp only
  repeat' first
    | with_reducible assumption
    | (with_reducible refine st_emit_kept _ _ (Sub.trans (by decide) hw) ?_ )
    | (with_reducible refine holdTmu_kept _ _ (Sub.trans (by decide) hw) ?_ )
    | with_reducible apply kept_ite

theorem nativeCmd_kept (parts banks fm vm : Nat) (s : State) (hw : Sub 0x9e0000000000000810090000000000 W) (h_s : Kept W s0 s) :
    Kept W s0 (nativeCmd parts banks fm vm s) := by
  unfold nativeCmd
  try dsimp only
  repeat' first
    | with_reducible assumption
    | intro _
    | (with_reducible refine st_p_kept _ _ _ ?_ ?_)
    | (with_reducible refine st_emit_kept _ _ (Sub.trans (by decide) hw) ?_ )
    | (with_reducible refine calClear_kept _ _ (Sub.trans (by decide) hw) ?_ )
    | (with_reducible refine putCalState_kept _ (Sub.trans (by decide) hw) ?_ )
    | (with_reducible refine holdTmu_kept _ _ (Sub.trans (by decide) hw) ?_ )
    | (with_reducible refine holdHigh_kept _ _ (Sub.trans (by decide) hw) ?_ )
    | with_reducible apply kept_ite
    | with_reducible apply kept_foldl
    | (with_reducible refine may_cl (hw.bit (by decide)) _ ?_)
    | with_reducible exact same
    | with_reducible exact mem_same
    | with_reducible exact host_same
    | with_reducible exact flt_same
    | exact .inr (hw.bit (by decide))
    | decide
    | simp only [kept_mk]
    | with_reducible apply kept_upd

theorem execNative_kept (parts : BitVec 6) (banks : BitVec 8) (fm vm : Nat) (s : State)
    (hw : Sub 0x209e0000000000000810090000000000 W) (h_s : Kept W s0 s) :
    ∃ t', execNative parts banks fm vm s = .next t' ∧ Kept W s0 t' := by
  unfold execNative
  refine st_served_kept _ _ _ _ (Sub.trans (by decide) hw) (by assumption) fun s h_s => ?_
  refine ⟨_, rfl, ?_⟩
  try dsimp only
  repeat' first
    | with_reducible assumption
    | (with_reducible refine st_fresh_kept _ (Sub.trans (by decide) hw) ?_ )
    | (with_reducible refine nativeCmd_kept _ _ _ _ _ (Sub.trans (by decide) hw) ?_ )

theorem nativeEnd_kept (s : State) (hw : Sub 0x9c0000000000000810090000000000 W) (h_s : Kept W s0 s) :
    Kept W s0 (nativeEnd s) := by
  unfold nativeEnd
  try dsimp only
  repeat' first
    | with_reducible assumption
    | intro _
    | (with_reducible refine putCalState_kept _ (Sub.trans (by decide) hw) ?_ )
    | (with_reducible refine holdHigh_kept _ _ (Sub.trans (by decide) hw) ?_ )
    | (with_reducible refine nativeLeaves_kept _ _ _ (Sub.trans (by decide) hw) ?_ )
    | with_reducible apply kept_foldl
    | with_reducible exact same
    | with_reducible exact mem_same
    | with_reducible exact host_same
    | with_reducible exact flt_same
    | exact .inr (hw.bit (by decide))
    | simp only [kept_mk]
    | with_reducible apply kept_upd
    | split

theorem nativeAbort_kept (s : State) (hw : Sub 0x800000000000000800000000000000 W) (h_s : Kept W s0 s) :
    Kept W s0 (nativeAbort s) := by
  unfold nativeAbort
  try dsimp only
  repeat' first
    | with_reducible assumption
    | (with_reducible refine st_p_kept _ _ _ ?_ ?_)
    | (with_reducible refine may_cl (hw.bit (by decide)) _ ?_)
    | with_reducible exact same
    | with_reducible exact mem_same
    | with_reducible exact host_same
    | with_reducible exact flt_same
    | exact .inr (hw.bit (by decide))
    | decide
    | simp only [kept_mk]
    | with_reducible apply kept_upd
    | split

theorem execNativeAbort_kept (s : State) (hw : Sub 0x20800000000000000800000000000000 W) (h_s : Kept W s0 s) :
    ∃ t', execNativeAbort s = .next t' ∧ Kept W s0 t' := by
  unfold execNativeAbort
  refine st_served_kept _ _ _ _ (Sub.trans (by decide) hw) (by assumption) fun s h_s => ?_
  refine ⟨_, rfl, ?_⟩
  try dsimp only
  repeat' first
    | with_reducible assumption
    | (with_reducible refine st_fresh_kept _ (Sub.trans (by decide) hw) ?_ )
    | (with_reducible refine nativeAbort_kept _ (Sub.trans (by decide) hw) ?_ )

theorem nativePut_kept (parts : Nat) (temp : Int) (c : ChanId) (m : ChanMeas) (v : (Int × Int × Int) × List Int) (s : State)
    (hw : Sub 0x100000000000000010000000000 W) (h_s : Kept W s0 s) :
    Kept W s0 (nativePut parts temp c m v s) := by
  unfold nativePut
  try dsimp only
  repeat' first
    | with_reducible assumption
    | intro _
    | (with_reducible refine st_p_kept _ _ _ ?_ ?_)
    | (with_reducible refine st_putBlob_kept _ _ _ (hw.bit (by decide)) ?_)
    | (with_reducible refine putOffsets_kept _ _ _ (Sub.trans (by decide) hw) ?_ )
    | (with_reducible refine recordCal_kept _ _ _ _ (Sub.trans (by decide) hw) ?_ )
    | (have hj := elems_lt (by with_reducible assumption); omega)
    | with_reducible apply kept_ite
    | with_reducible apply kept_foldl
    | (with_reducible refine may_cc (hw.bit (by decide)) _ _ ?_ ?_)
    | exact Fin.isLt _
    | decide

theorem putSpar_kept (b : BankId) (m : SparMeas) (temp : Int) (s : State) (hw : Sub 0x80000000000 W) (h_s : Kept W s0 s) :
    Kept W s0 (putSpar b m temp s) := by
  unfold putSpar
  try dsimp only
  repeat' first
    | with_reducible assumption
    | intro _
    | (with_reducible refine st_p_kept _ _ _ ?_ ?_)
    | (have hj := elems_lt (by with_reducible assumption); omega)
    | with_reducible apply kept_ite
    | with_reducible apply kept_foldl
    | (with_reducible refine may_sp (hw.bit (by decide)) _ _ ?_ ?_)
    | exact Fin.isLt _
    | decide

theorem sparFails_kept (b : BankId) (l : List SparMeas) (s : State)
    (hw : Sub 0x40000000000000000000000000000 W) (h_s : Kept W s0 s) :
    Kept W s0 (sparFails b l s) := by
  unfold sparFails
  try dsimp only
  repeat' first
    | with_reducible assumption
    | intro _
    | (with_reducible refine st_raise_kept _ _ (Sub.trans (by decide) hw) ?_ )
    | with_reducible apply kept_foldl

theorem putTmu_kept (u : TmuId) (lin : List Byte) (temp : Int) (s : State)
    (hw : Sub 0x100000000001000000000000000 W) (h_s : Kept W s0 s) :
    Kept W s0 (putTmu u lin temp s) := by
  unfold putTmu
  try dsimp only
  repeat' first
    | with_reducible assumption
    | (with_reducible refine st_p_kept _ _ _ ?_ ?_)
    | (with_reducible refine st_putBlob_kept _ _ _ (hw.bit (by decide)) ?_)
    | (with_reducible refine may_cb (hw.bit (by decide)) _ _ ?_ ?_)
    | exact Fin.isLt _
    | decide

theorem putDac_kept (temp : Int) (e : DacId × Int × Int) (s : State) (hw : Sub 0x20000000000000000 W) (h_s : Kept W s0 s) :
    Kept W s0 (putDac temp e s) := by
  unfold putDac
  try dsimp only
  repeat' first
    | with_reducible assumption
    | (with_reducible refine st_p_kept _ _ _ ?_ ?_)
    | (with_reducible refine may_lt (hw.bit (by decide)) _ _ ?_ ?_)
    | exact Fin.isLt _
    | decide

theorem levelsPart_kept (b : BankId) (s : State) (hw : Sub 0x1000000000000000080000000000000 W) (h_s : Kept W s0 s) :
    Kept W s0 (levelsPart b s) := by
  unfold levelsPart
  try dsimp only
  repeat' first
    | with_reducible assumption
    | intro _
    | (with_reducible refine st_p_kept _ _ _ ?_ ?_)
    | (with_reducible refine st_emits_kept _ _ (Sub.trans (by decide) hw) ?_ )
    | (with_reducible refine st_setDac_kept _ _ _ (Sub.trans (by decide) hw) ?_ )
    | (with_reducible refine issueStrobe_kept _ _ (Sub.trans (by decide) hw) ?_ )
    | (with_reducible refine formPending_kept _ _ _ (Sub.trans (by decide) hw) ?_ )
    | with_reducible apply kept_ite
    | with_reducible apply kept_foldl
    | (with_reducible refine may_da (hw.bit (by decide)) _ _ ?_ ?_)
    | exact Fin.isLt _
    | decide

theorem sealChan_kept (c : ChanId) (s : State) (hw : Sub 0x10000000000 W) (h_s : Kept W s0 s) :
    Kept W s0 (sealChan c s) := by
  unfold sealChan
  try dsimp only
  repeat' first
    | with_reducible assumption
    | intro _
    | (with_reducible refine st_p_kept _ _ _ ?_ ?_)
    | (have hj := elems_lt (by with_reducible assumption); omega)
    | with_reducible apply kept_foldl
    | (with_reducible refine may_cc (hw.bit (by decide)) _ _ ?_ ?_)
    | exact Fin.isLt _
    | decide

theorem sealDac_kept (d : DacId) (s : State) (hw : Sub 0x20000000000000000 W) (h_s : Kept W s0 s) :
    Kept W s0 (sealDac d s) := by
  unfold sealDac
  try dsimp only
  repeat' first
    | with_reducible assumption
    | (with_reducible refine st_p_kept _ _ _ ?_ ?_)
    | (with_reducible refine may_lt (hw.bit (by decide)) _ _ ?_ ?_)
    | exact Fin.isLt _
    | decide

theorem sealDevice_kept (s : State) (hw : Sub 0x100000000010000000000000000 W) (h_s : Kept W s0 s) :
    Kept W s0 (sealDevice s) := by
  unfold sealDevice
  try dsimp only
  repeat' first
    | with_reducible assumption
    | (with_reducible refine st_p_kept _ _ _ ?_ ?_)
    | (with_reducible refine st_putBlob_kept _ _ _ (hw.bit (by decide)) ?_)
    | (with_reducible refine may_sb (hw.bit (by decide)) _ ?_)
    | decide

theorem nativeData_kept (b : BankId) (parts : Nat) (r : BankMeas) (good : GoodChans) (s : State)
    (hw : Sub 0x100000000031800090000000000 W) (h_s : Kept W s0 s) :
    Kept W s0 (nativeData b parts r good s) := by
  unfold nativeData
  try dsimp only
  repeat' first
    | with_reducible assumption
    | intro _
    | (with_reducible refine st_p_kept _ _ _ ?_ ?_)
    | (with_reducible refine st_putBlob_kept _ _ _ (hw.bit (by decide)) ?_)
    | (with_reducible refine nativePut_kept _ _ _ _ _ _ (Sub.trans (by decide) hw) ?_ )
    | (with_reducible refine putSpar_kept _ _ _ _ (Sub.trans (by decide) hw) ?_ )
    | (with_reducible refine putTmu_kept _ _ _ _ (Sub.trans (by decide) hw) ?_ )
    | (with_reducible refine putDac_kept _ _ _ (Sub.trans (by decide) hw) ?_ )
    | (with_reducible refine sealChan_kept _ _ (Sub.trans (by decide) hw) ?_ )
    | (with_reducible refine sealDac_kept _ _ (Sub.trans (by decide) hw) ?_ )
    | (with_reducible refine sealDevice_kept _ (Sub.trans (by decide) hw) ?_ )
    | with_reducible apply kept_ite
    | with_reducible apply kept_foldl
    | (with_reducible refine may_cl (hw.bit (by decide)) _ ?_)
    | decide

theorem nativeBankDone_kept (b : BankId) (s : State) (hw : Sub 0x9c0000000000000810090000000000 W) (h_s : Kept W s0 s) :
    Kept W s0 (nativeBankDone b s) := by
  unfold nativeBankDone
  try dsimp only
  repeat' first
    | with_reducible assumption
    | (with_reducible refine nativeLeaves_kept _ _ _ (Sub.trans (by decide) hw) ?_ )
    | (with_reducible refine nativeEnd_kept _ (Sub.trans (by decide) hw) ?_ )
    | with_reducible exact same
    | with_reducible exact mem_same
    | with_reducible exact host_same
    | with_reducible exact flt_same
    | exact .inr (hw.bit (by decide))
    | simp only [kept_mk]
    | with_reducible apply kept_upd
    | split

theorem nativeComplete_kept (b : BankId) (r : BankMeas) (s : State)
    (hw : Sub 0x19e0100000000031890090000000000 W) (h_s : Kept W s0 s) :
    Kept W s0 (nativeComplete b r s) := by
  unfold nativeComplete
  try dsimp only
  repeat' first
    | with_reducible assumption
    | intro _
    | (with_reducible refine st_p_kept _ _ _ ?_ ?_)
    | (with_reducible refine st_raise_kept _ _ (Sub.trans (by decide) hw) ?_ )
    | (with_reducible refine calCommit_kept _ _ _ _ _ _ (Sub.trans (by decide) hw) ?_ ?_ )
    | (with_reducible refine calStatus_kept _ _ _ (Sub.trans (by decide) hw) ?_ )
    | (with_reducible refine sparFails_kept _ _ _ (Sub.trans (by decide) hw) ?_ )
    | (with_reducible refine levelsPart_kept _ _ (Sub.trans (by decide) hw) ?_ )
    | (with_reducible refine nativeData_kept _ _ _ _ _ (Sub.trans (by decide) hw) ?_ )
    | (with_reducible refine nativeBankDone_kept _ _ (Sub.trans (by decide) hw) ?_ )
    | with_reducible apply kept_foldl
    | (with_reducible refine may_cl (hw.bit (by decide)) _ ?_)
    | decide
    | split

theorem execNativeBankComplete_kept (b : BankId) (r : BankMeas) (s : State)
    (hw : Sub 0x19e0100000000031890090000000000 W) (h_s : Kept W s0 s) :
    ∃ t', execNativeBankComplete b r s = .next t' ∧ Kept W s0 t' := by
  unfold execNativeBankComplete
  refine ⟨_, rfl, ?_⟩
  try dsimp only
  repeat' first
    | with_reducible assumption
    | intro _
    | (with_reducible refine st_fresh_kept _ (Sub.trans (by decide) hw) ?_ )
    | (with_reducible refine st_timed_kept _ _ (Sub.trans (by decide) hw) ?_ ?_ )
    | (with_reducible refine nativeComplete_kept _ _ _ (Sub.trans (by decide) hw) ?_ )

theorem liveNow_kept (c : ChanId) (fm vm : Nat) (s : State) (hw : Sub 0x9c0000000000000810090000000000 W) (h_s : Kept W s0 s) :
    Kept W s0 (liveNow c fm vm s) := by
  unfold liveNow
  try dsimp only
  repeat' first
    | with_reducible assumption
    | (with_reducible refine st_p_kept _ _ _ ?_ ?_)
    | (with_reducible refine st_setCalBank_kept _ _ _ (Sub.trans (by decide) hw) ?_ )
    | (with_reducible refine calStatus_kept _ _ _ (Sub.trans (by decide) hw) ?_ )
    | (with_reducible refine refMeasured_kept _ _ _ (Sub.trans (by decide) hw) ?_ )
    | (with_reducible refine holdTmu_kept _ _ (Sub.trans (by decide) hw) ?_ )
    | (with_reducible refine legacyBegin_kept _ _ _ (Sub.trans (by decide) hw) ?_ )
    | (with_reducible refine calStart_kept _ _ _ _ (Sub.trans (by decide) hw) ?_ )
    | with_reducible apply kept_ite
    | (with_reducible refine may_cl (hw.bit (by decide)) _ ?_)
    | decide

theorem execLiveNow_kept (c : LiveReq) (s : State) (hw : Sub 0x209c0000000000000810090000000000 W) (h_s : Kept W s0 s) :
    ∃ t', execLiveNow c s = .next t' ∧ Kept W s0 t' := by
  unfold execLiveNow
  refine st_served_kept _ _ _ _ (Sub.trans (by decide) hw) (by assumption) fun s h_s => ?_
  refine ⟨_, rfl, ?_⟩
  try dsimp only
  repeat' first
    | with_reducible assumption
    | (with_reducible refine st_fresh_kept _ (Sub.trans (by decide) hw) ?_ )
    | (with_reducible refine liveNow_kept _ _ _ _ (Sub.trans (by decide) hw) ?_ )

theorem calDone_kept (b : BankId) (s : State) (hw : Sub 0x9c0000000000000810090000000000 W) (h_s : Kept W s0 s) :
    Kept W s0 (calDone b s) := by
  unfold calDone
  try dsimp only
  repeat' first
    | with_reducible assumption
    | (with_reducible refine st_setCalBank_kept _ _ _ (Sub.trans (by decide) hw) ?_ )
    | (with_reducible refine holdTmu_kept _ _ (Sub.trans (by decide) hw) ?_ )

theorem blockDone_kept (b : BankId) (x : CalDone) (fm : Nat) (s : State)
    (hw : Sub 0x9e0100000000001810090000000000 W) (h_s : Kept W s0 s) :
    Kept W s0 (blockDone b x fm s) := by
  unfold blockDone
  try dsimp only
  repeat' first
    | with_reducible assumption
    | (with_reducible refine st_p_kept _ _ _ ?_ ?_)
    | (with_reducible refine st_setCalBank_kept _ _ _ (Sub.trans (by decide) hw) ?_ )
    | (with_reducible refine calCommit_kept _ _ _ _ _ _ (Sub.trans (by decide) hw) ?_ ?_ )
    | (with_reducible refine putOffsets_kept _ _ _ (Sub.trans (by decide) hw) ?_ )
    | (with_reducible refine recordCal_kept _ _ _ _ (Sub.trans (by decide) hw) ?_ )
    | (with_reducible refine blockEnds_kept _ _ (Sub.trans (by decide) hw) ?_ )
    | (with_reducible refine putSpar_kept _ _ _ _ (Sub.trans (by decide) hw) ?_ )
    | (with_reducible refine putTmu_kept _ _ _ _ (Sub.trans (by decide) hw) ?_ )
    | (with_reducible refine may_cl (hw.bit (by decide)) _ ?_)
    | exact Fin.isLt _
    | decide
    | split

theorem execCalBlockEnd_kept (b : BankId) (x : CalDone) (fm vm : Nat) (s : State)
    (hw : Sub 0x9e0100000000001810090000000000 W) (h_s : Kept W s0 s) :
    ∃ t', execCalBlockEnd b x fm vm s = .next t' ∧ Kept W s0 t' := by
  unfold execCalBlockEnd
  refine ⟨_, rfl, ?_⟩
  try dsimp only
  repeat' first
    | with_reducible assumption
    | intro _
    | (with_reducible refine st_p_kept _ _ _ ?_ ?_)
    | (with_reducible refine st_fresh_kept _ (Sub.trans (by decide) hw) ?_ )
    | (with_reducible refine st_timed_kept _ _ (Sub.trans (by decide) hw) ?_ ?_ )
    | (with_reducible refine refMeasured_kept _ _ _ (Sub.trans (by decide) hw) ?_ )
    | (with_reducible refine calNext_kept _ _ (Sub.trans (by decide) hw) ?_ )
    | (with_reducible refine nativeEnd_kept _ (Sub.trans (by decide) hw) ?_ )
    | (with_reducible refine blockDone_kept _ _ _ _ (Sub.trans (by decide) hw) ?_ )
    | (with_reducible refine may_cl (hw.bit (by decide)) _ ?_)
    | decide
    | split

theorem execDirectCalAbandon_kept (b : BankId) (s : State) (hw : Sub 0x9e0000000000000810090000000000 W) (h_s : Kept W s0 s) :
    ∃ t', execDirectCalAbandon b s = .next t' ∧ Kept W s0 t' := by
  unfold execDirectCalAbandon
  refine ⟨_, rfl, ?_⟩
  try dsimp only
  repeat' first
    | with_reducible assumption
    | intro _
    | (with_reducible refine st_fresh_kept _ (Sub.trans (by decide) hw) ?_ )
    | (with_reducible refine cancelJobs_kept _ _ (Sub.trans (by decide) hw) ?_ )
    | (with_reducible refine st_timed_kept _ _ (Sub.trans (by decide) hw) ?_ ?_ )
    | (with_reducible refine calStatus_kept _ _ _ (Sub.trans (by decide) hw) ?_ )
    | (with_reducible refine calDone_kept _ _ (Sub.trans (by decide) hw) ?_ )
    | split

theorem setSwap_kept (b : BankId) (w : Swap) (s : State) (hw : Sub 0x800000000000000000000000000000 W) (h_s : Kept W s0 s) :
    Kept W s0 (setSwap b w s) := by
  unfold setSwap
  try dsimp only
  repeat' first
    | with_reducible assumption
    | (with_reducible refine st_setCalBank_kept _ _ _ (Sub.trans (by decide) hw) ?_ )

theorem execShadowJoin_kept (b : BankId) (s : State) (hw : Sub 0x800000000000000000000000000000 W) (h_s : Kept W s0 s) :
    ∃ t', execShadowJoin b s = .next t' ∧ Kept W s0 t' := by
  unfold execShadowJoin
  refine ⟨_, rfl, ?_⟩
  try dsimp only
  repeat' first
    | with_reducible assumption
    | intro _
    | (with_reducible refine st_fresh_kept _ (Sub.trans (by decide) hw) ?_ )
    | (with_reducible refine st_timed_kept _ _ (Sub.trans (by decide) hw) ?_ ?_ )
    | (with_reducible refine setSwap_kept _ _ _ (Sub.trans (by decide) hw) ?_ )
    | split

theorem swapEnds_kept (w : Swap) (s : State) (hw : Sub 0x80000000000 W) (h_s : Kept W s0 s) :
    Kept W s0 (swapEnds w s) := by
  unfold swapEnds
  try dsimp only
  repeat' first
    | with_reducible assumption
    | (with_reducible refine freeSpar_kept _ _ (Sub.trans (by decide) hw) ?_ )
    | split

theorem trackRt_kept (b : BankId) (w : Swap) (rt : Int) (s : State)
    (hw : Sub 0x840000000000000000000000000000 W) (h_s : Kept W s0 s) :
    Kept W s0 (trackRt b w rt s) := by
  unfold trackRt
  try dsimp only
  repeat' first
    | with_reducible assumption
    | (with_reducible refine st_raise_kept _ _ (Sub.trans (by decide) hw) ?_ )
    | (with_reducible refine setSwap_kept _ _ _ (Sub.trans (by decide) hw) ?_ )
    | with_reducible apply kept_ite

theorem alignLane_kept (b : BankId) (w : Swap) (p : SparId) (de : Bool) (v : Int) (s : State)
    (hw : Sub 0x9e0000000000000810090000000000 W) (h_s : Kept W s0 s) :
    Kept W s0 (alignLane b w p de v s) := by
  unfold alignLane
  try dsimp only
  repeat' first
    | with_reducible assumption
    | (with_reducible refine st_p_kept _ _ _ ?_ ?_)
    | (with_reducible refine st_setCalBank_kept _ _ _ (Sub.trans (by decide) hw) ?_ )
    | (with_reducible refine st_raise_kept _ _ (Sub.trans (by decide) hw) ?_ )
    | (with_reducible refine calCommit_kept _ _ _ _ _ _ (Sub.trans (by decide) hw) ?_ ?_ )
    | (with_reducible refine calStatus_kept _ _ _ (Sub.trans (by decide) hw) ?_ )
    | (with_reducible refine calDone_kept _ _ (Sub.trans (by decide) hw) ?_ )
    | (with_reducible refine setSwap_kept _ _ _ (Sub.trans (by decide) hw) ?_ )
    | (with_reducible refine swapEnds_kept _ _ (Sub.trans (by decide) hw) ?_ )
    | (with_reducible refine may_sp (hw.bit (by decide)) _ _ ?_ ?_)
    | exact Fin.isLt _
    | decide
    | split

theorem skipLane_kept (p : SparId) (de : Bool) (s : State) (hw : Sub 0x80000000000 W) (h_s : Kept W s0 s) :
    Kept W s0 (skipLane p de s) := by
  unfold skipLane
  try dsimp only
  repeat' first
    | with_reducible assumption
    | (with_reducible refine st_p_kept _ _ _ ?_ ?_)
    | (with_reducible refine may_sp (hw.bit (by decide)) _ _ ?_ ?_)
    | exact Fin.isLt _
    | decide

theorem execAlignMeasure_kept (b : BankId) (m : AlignMeas) (s : State)
    (hw : Sub 0x9e0000000000000810090000000000 W) (h_s : Kept W s0 s) :
    ∃ t', execAlignMeasure b m s = .next t' ∧ Kept W s0 t' := by
  unfold execAlignMeasure
  refine ⟨_, rfl, ?_⟩
  try dsimp only
  repeat' first
    | with_reducible assumption
    | intro _
    | (with_reducible refine st_fresh_kept _ (Sub.trans (by decide) hw) ?_ )
    | (with_reducible refine st_timed_kept _ _ (Sub.trans (by decide) hw) ?_ ?_ )
    | (with_reducible refine blockEnds_kept _ _ (Sub.trans (by decide) hw) ?_ )
    | (with_reducible refine setSwap_kept _ _ _ (Sub.trans (by decide) hw) ?_ )
    | (with_reducible refine trackRt_kept _ _ _ _ (Sub.trans (by decide) hw) ?_ )
    | (with_reducible refine alignLane_kept _ _ _ _ _ _ (Sub.trans (by decide) hw) ?_ )
    | (with_reducible refine skipLane_kept _ _ _ (Sub.trans (by decide) hw) ?_ )
    | split

theorem execSwapRequest_kept (b : BankId) (s : State) (hw : Sub 0x802000000000000000000000400000 W) (h_s : Kept W s0 s) :
    ∃ t', execSwapRequest b s = .next t' ∧ Kept W s0 t' := by
  unfold execSwapRequest
  refine ⟨_, rfl, ?_⟩
  try dsimp only
  repeat' first
    | with_reducible assumption
    | intro _
    | (with_reducible refine st_fresh_kept _ (Sub.trans (by decide) hw) ?_ )
    | (with_reducible refine st_modSite_kept _ _ _ (Sub.trans (by decide) hw) ?_ )
    | (with_reducible refine st_timed_kept _ _ (Sub.trans (by decide) hw) ?_ ?_ )
    | (with_reducible refine putSwapBit_kept _ _ _ (Sub.trans (by decide) hw) ?_ )
    | (with_reducible refine setSwap_kept _ _ _ (Sub.trans (by decide) hw) ?_ )
    | split

theorem reclaimed_kept (w : Want) (s : State) (hw : Sub 0x8a2000000000000000098000400000 W) (h_s : Kept W s0 s) :
    Kept W s0 (reclaimed w s) := by
  unfold reclaimed
  try dsimp only
  repeat' first
    | with_reducible assumption
    | (with_reducible refine takeFromCal_kept _ _ (Sub.trans (by decide) hw) ?_ )
    | (with_reducible refine assignSpar_kept _ _ _ (Sub.trans (by decide) hw) ?_ )
    | with_reducible exact same
    | with_reducible exact mem_same
    | with_reducible exact host_same
    | with_reducible apply flt_upd
    | exact .inr (hw.bit (by decide))
    | simp only [kept_mk]
    | with_reducible apply kept_upd

theorem xbarChange_kept (s : State) (e : XSwitch) (hw : Sub 0x8a2000000000000000098000400000 W) (h_s : Kept W s0 s) :
    Kept W s0 (xbarChange s e) := by
  unfold xbarChange
  try dsimp only
  repeat' first
    | with_reducible assumption
    | (with_reducible refine st_p_kept _ _ _ ?_ ?_)
    | (with_reducible refine changeover_kept _ _ _ (Sub.trans (by decide) hw) ?_ )
    | (with_reducible refine reclaimed_kept _ _ (Sub.trans (by decide) hw) ?_ )
    | (with_reducible refine may_ch (hw.bit (by decide)) _ _ ?_ ?_)
    | exact Fin.isLt _
    | decide
    | split

theorem xbarDue_kept (i : SiteId) (s : State) (hw : Sub 0x8a2000000000000000098000400000 W) (h_s : Kept W s0 s) :
    Kept W s0 (xbarDue i s) := by
  unfold xbarDue
  try dsimp only
  repeat' first
    | with_reducible assumption
    | intro _
    | (with_reducible refine st_modSite_kept _ _ _ (Sub.trans (by decide) hw) ?_ )
    | (with_reducible refine xbarChange_kept _ _ (Sub.trans (by decide) hw) ?_ )
    | with_reducible apply kept_foldl

theorem xbarDues_kept (s : State) (hw : Sub 0x8a2000000000000000098000400000 W) (h_s : Kept W s0 s) :
    Kept W s0 (xbarDues s) := by
  unfold xbarDues
  try dsimp only
  repeat' first
    | with_reducible assumption
    | intro _
    | (with_reducible refine xbarDue_kept _ _ (Sub.trans (by decide) hw) ?_ )
    | with_reducible apply kept_foldl

theorem execSparSwitch_kept (i : SiteId) (s : State) (hw : Sub 0x8a2000000000000000098000400000 W) (h_s : Kept W s0 s) :
    ∃ t', execSparSwitch i s = .next t' ∧ Kept W s0 t' := by
  unfold execSparSwitch
  refine ⟨_, rfl, ?_⟩
  try dsimp only
  repeat' first
    | with_reducible assumption
    | intro _
    | (with_reducible refine st_p_kept _ _ _ ?_ ?_)
    | (with_reducible refine st_fresh_kept _ (Sub.trans (by decide) hw) ?_ )
    | (with_reducible refine st_modSite_kept _ _ _ (Sub.trans (by decide) hw) ?_ )
    | (with_reducible refine st_timed_kept _ _ (Sub.trans (by decide) hw) ?_ ?_ )
    | (with_reducible refine cutSwap_kept _ _ _ (Sub.trans (by decide) hw) ?_ )
    | (with_reducible refine setSwap_kept _ _ _ (Sub.trans (by decide) hw) ?_ )
    | (with_reducible refine xbarDue_kept _ _ (Sub.trans (by decide) hw) ?_ )
    | (with_reducible refine may_sp (hw.bit (by decide)) _ _ ?_ ?_)
    | exact Fin.isLt _
    | decide
    | split

theorem measureData_kept (w : Swap) (d : List Int) (s : State) (hw : Sub 0x10000000000 W) (h_s : Kept W s0 s) :
    Kept W s0 (measureData w d s) := by
  unfold measureData
  try dsimp only
  repeat' first
    | with_reducible assumption
    | intro _
    | (with_reducible refine st_p_kept _ _ _ ?_ ?_)
    | (have hj := elems_lt (by with_reducible assumption); omega)
    | with_reducible apply kept_foldl
    | (with_reducible refine may_cc (hw.bit (by decide)) _ _ ?_ ?_)
    | exact Fin.isLt _
    | decide

theorem measurePublish_kept (b : BankId) (d : List Int) (s : State)
    (hw : Sub 0x9e0000000000000810090000000000 W) (h_s : Kept W s0 s) :
    Kept W s0 (measurePublish b d s) := by
  unfold measurePublish
  try dsimp only
  repeat' first
    | with_reducible assumption
    | (with_reducible refine calCommit_kept _ _ _ _ _ _ (Sub.trans (by decide) hw) ?_ ?_ )
    | (with_reducible refine blockEnds_kept _ _ (Sub.trans (by decide) hw) ?_ )
    | (with_reducible refine setSwap_kept _ _ _ (Sub.trans (by decide) hw) ?_ )
    | (with_reducible refine measureData_kept _ _ _ (Sub.trans (by decide) hw) ?_ )
    | split

theorem execMeasurePublish_kept (b : BankId) (d : List Int) (s : State)
    (hw : Sub 0x9e0000000000000810090000000000 W) (h_s : Kept W s0 s) :
    ∃ t', execMeasurePublish b d s = .next t' ∧ Kept W s0 t' := by
  unfold execMeasurePublish
  refine ⟨_, rfl, ?_⟩
  try dsimp only
  repeat' first
    | with_reducible assumption
    | intro _
    | (with_reducible refine st_fresh_kept _ (Sub.trans (by decide) hw) ?_ )
    | (with_reducible refine st_timed_kept _ _ (Sub.trans (by decide) hw) ?_ ?_ )
    | (with_reducible refine measurePublish_kept _ _ _ (Sub.trans (by decide) hw) ?_ )

theorem returnTrim_kept (p : SparId) (de : Bool) (r : Option Int) (s : State) (hw : Sub 0x80000000000 W) (h_s : Kept W s0 s) :
    Kept W s0 (returnTrim p de r s) := by
  unfold returnTrim
  try dsimp only
  repeat' first
    | with_reducible assumption
    | (with_reducible refine st_p_kept _ _ _ ?_ ?_)
    | (with_reducible refine may_sp (hw.bit (by decide)) _ _ ?_ ?_)
    | exact Fin.isLt _
    | decide
    | split

theorem returnStep_kept (b : BankId) (w : Swap) (p : SparId) (dd de : Option Int) (s : State)
    (hw : Sub 0x820000000000000000080000000000 W) (h_s : Kept W s0 s) :
    Kept W s0 (returnStep b w p dd de s) := by
  unfold returnStep
  try dsimp only
  repeat' first
    | with_reducible assumption
    | (with_reducible refine st_p_kept _ _ _ ?_ ?_)
    | (with_reducible refine calCommit_kept _ _ _ _ _ _ (Sub.trans (by decide) hw) ?_ ?_ )
    | (with_reducible refine setSwap_kept _ _ _ (Sub.trans (by decide) hw) ?_ )
    | (with_reducible refine skipLane_kept _ _ _ (Sub.trans (by decide) hw) ?_ )
    | (with_reducible refine returnTrim_kept _ _ _ _ (Sub.trans (by decide) hw) ?_ )
    | (with_reducible refine may_sp (hw.bit (by decide)) _ _ ?_ ?_)
    | exact Fin.isLt _
    | decide
    | split

theorem execReturnStep_kept (b : BankId) (dd de : Option Int) (s : State)
    (hw : Sub 0x9e0000000000000810090000000000 W) (h_s : Kept W s0 s) :
    ∃ t', execReturnStep b dd de s = .next t' ∧ Kept W s0 t' := by
  unfold execReturnStep
  refine ⟨_, rfl, ?_⟩
  try dsimp only
  repeat' first
    | with_reducible assumption
    | intro _
    | (with_reducible refine st_fresh_kept _ (Sub.trans (by decide) hw) ?_ )
    | (with_reducible refine st_timed_kept _ _ (Sub.trans (by decide) hw) ?_ ?_ )
    | (with_reducible refine blockEnds_kept _ _ (Sub.trans (by decide) hw) ?_ )
    | (with_reducible refine returnStep_kept _ _ _ _ _ _ (Sub.trans (by decide) hw) ?_ )
    | split

theorem swapData_kept (w : Swap) (p : SparId) (temp : Int) (s : State) (hw : Sub 0x90000000000 W) (h_s : Kept W s0 s) :
    Kept W s0 (swapData w p temp s) := by
  unfold swapData
  try dsimp only
  repeat' first
    | with_reducible assumption
    | (with_reducible refine st_p_kept _ _ _ ?_ ?_)
    | (with_reducible refine st_cnt32_kept _ _ (Sub.trans (by decide) hw) ?_ ?_ )
    | (with_reducible refine recordCal_kept _ _ _ _ (Sub.trans (by decide) hw) ?_ )
    | (with_reducible refine may_cc (hw.bit (by decide)) _ _ ?_ ?_)
    | (with_reducible refine may_sp (hw.bit (by decide)) _ _ ?_ ?_)
    | exact Fin.isLt _
    | decide

theorem execSwapBackComplete_kept (b : BankId) (p : SparId) (s : State)
    (hw : Sub 0x820000000000000000090000000000 W) (h_s : Kept W s0 s) :
    ∃ t', execSwapBackComplete b p s = .next t' ∧ Kept W s0 t' := by
  unfold execSwapBackComplete
  refine ⟨_, rfl, ?_⟩
  try dsimp only
  repeat' first
    | with_reducible assumption
    | intro _
    | (with_reducible refine st_fresh_kept _ (Sub.trans (by decide) hw) ?_ )
    | (with_reducible refine st_timed_kept _ _ (Sub.trans (by decide) hw) ?_ ?_ )
    | (with_reducible refine calCommit_kept _ _ _ _ _ _ (Sub.trans (by decide) hw) ?_ ?_ )
    | (with_reducible refine swapData_kept _ _ _ _ (Sub.trans (by decide) hw) ?_ )
    | split

theorem execSwapWaitExpiry_kept (b : BankId) (s : State) (hw : Sub 0x9c2000000000000810090000400000 W) (h_s : Kept W s0 s) :
    ∃ t', execSwapWaitExpiry b s = .next t' ∧ Kept W s0 t' := by
  unfold execSwapWaitExpiry
  refine ⟨_, rfl, ?_⟩
  try dsimp only
  repeat' first
    | with_reducible assumption
    | intro _
    | (with_reducible refine st_fresh_kept _ (Sub.trans (by decide) hw) ?_ )
    | (with_reducible refine st_modSite_kept _ _ _ (Sub.trans (by decide) hw) ?_ )
    | (with_reducible refine st_timed_kept _ _ (Sub.trans (by decide) hw) ?_ ?_ )
    | (with_reducible refine st_report_kept _ _ _ _ (Sub.trans (by decide) hw) ?_ )
    | (with_reducible refine putSwapBit_kept _ _ _ (Sub.trans (by decide) hw) ?_ )
    | (with_reducible refine dropSwap_kept _ _ (Sub.trans (by decide) hw) ?_ )
    | (with_reducible refine calStatus_kept _ _ _ (Sub.trans (by decide) hw) ?_ )
    | (with_reducible refine calDone_kept _ _ (Sub.trans (by decide) hw) ?_ )
    | (with_reducible refine setSwap_kept _ _ _ (Sub.trans (by decide) hw) ?_ )
    | (with_reducible refine swapEnds_kept _ _ (Sub.trans (by decide) hw) ?_ )
    | with_reducible exact same
    | with_reducible exact mem_same
    | with_reducible exact host_same
    | with_reducible exact flt_same
    | exact .inr (hw.bit (by decide))
    | simp only [kept_mk]
    | with_reducible apply kept_upd
    | split

theorem reclaim_kept (w : Want) (s : State) (hw : Sub 0x8a2000000000000000098000400000 W) (h_s : Kept W s0 s) :
    Kept W s0 (reclaim w s) := by
  unfold reclaim
  try dsimp only
  repeat' first
    | with_reducible assumption
    | (with_reducible refine st_p_kept _ _ _ ?_ ?_)
    | (with_reducible refine reclaimed_kept _ _ (Sub.trans (by decide) hw) ?_ )
    | (with_reducible refine may_ch (hw.bit (by decide)) _ _ ?_ ?_)
    | exact Fin.isLt _
    | decide
    | split

theorem reclaimAt_kept (i : SiteId) (w : Want) (s : State) (hw : Sub 0x8a2000000000000000098000400000 W) (h_s : Kept W s0 s) :
    Kept W s0 (reclaimAt i w s) := by
  unfold reclaimAt
  try dsimp only
  repeat' first
    | with_reducible assumption
    | (with_reducible refine switchAt_kept _ _ _ _ _ _ (Sub.trans (by decide) hw) ?_ )
    | (with_reducible refine xbarDue_kept _ _ (Sub.trans (by decide) hw) ?_ )
    | (with_reducible refine reclaim_kept _ _ (Sub.trans (by decide) hw) ?_ )
    | split

theorem execSparReclaim_kept (p : SparId) (s : State) (hw : Sub 0x8e2000000000000000098000400000 W) (h_s : Kept W s0 s) :
    ∃ t', execSparReclaim p s = .next t' ∧ Kept W s0 t' := by
  unfold execSparReclaim
  refine ⟨_, rfl, ?_⟩
  try dsimp only
  repeat' first
    | with_reducible assumption
    | intro _
    | (with_reducible refine st_fresh_kept _ (Sub.trans (by decide) hw) ?_ )
    | (with_reducible refine st_timed_kept _ _ (Sub.trans (by decide) hw) ?_ ?_ )
    | (with_reducible refine st_report_kept _ _ _ _ (Sub.trans (by decide) hw) ?_ )
    | (with_reducible refine reclaim_kept _ _ (Sub.trans (by decide) hw) ?_ )
    | (with_reducible refine reclaimAt_kept _ _ _ (Sub.trans (by decide) hw) ?_ )
    | split

theorem legacyData_kept (b : BankId) (group : KMap Int) (s : State) (hw : Sub 0x10000000000 W) (h_s : Kept W s0 s) :
    Kept W s0 (legacyData b group s) := by
  unfold legacyData
  try dsimp only
  repeat' first
    | with_reducible assumption
    | intro _
    | (with_reducible refine st_p_kept _ _ _ ?_ ?_)
    | (with_reducible refine recordKind_kept _ _ _ _ (Sub.trans (by decide) hw) ?_ )
    | (have hj := elems_lt (by with_reducible assumption); omega)
    | with_reducible apply kept_ite
    | with_reducible apply kept_foldl
    | (with_reducible refine may_cc (hw.bit (by decide)) _ _ ?_ ?_)

theorem legacyStep_kept (b : BankId) (s : State) (hw : Sub 0x820000000000000000010000000000 W) (h_s : Kept W s0 s) :
    Kept W s0 (legacyStep b s) := by
  unfold legacyStep
  try dsimp only
  repeat' first
    | with_reducible assumption
    | (with_reducible refine st_setCalBank_kept _ _ _ (Sub.trans (by decide) hw) ?_ )
    | (with_reducible refine calCommit_kept _ _ _ _ _ _ (Sub.trans (by decide) hw) ?_ ?_ )
    | (with_reducible refine legacyData_kept _ _ _ (Sub.trans (by decide) hw) ?_ )
    | split

theorem execLegacyPassEnd_kept (b : BankId) (s : State) (hw : Sub 0x9e0000000000000810090000000000 W) (h_s : Kept W s0 s) :
    ∃ t', execLegacyPassEnd b s = .next t' ∧ Kept W s0 t' := by
  unfold execLegacyPassEnd
  refine ⟨_, rfl, ?_⟩
  try dsimp only
  repeat' first
    | with_reducible assumption
    | intro _
    | (with_reducible refine st_fresh_kept _ (Sub.trans (by decide) hw) ?_ )
    | (with_reducible refine st_timed_kept _ _ (Sub.trans (by decide) hw) ?_ ?_ )
    | (with_reducible refine holdTmu_kept _ _ (Sub.trans (by decide) hw) ?_ )
    | (with_reducible refine legacyStep_kept _ _ (Sub.trans (by decide) hw) ?_ )

theorem jobApplied_kept (j : CalJob) (s : State) (hw : Sub 0x29e2000000000100830090000000000 W) (h_s : Kept W s0 s) :
    Kept W s0 (jobApplied j s) := by
  unfold jobApplied
  try dsimp only
  repeat' first
    | with_reducible assumption
    | intro _
    | (with_reducible refine st_p_kept _ _ _ ?_ ?_)
    | (with_reducible refine st_setCalBank_kept _ _ _ (Sub.trans (by decide) hw) ?_ )
    | (with_reducible refine freeSpar_kept _ _ (Sub.trans (by decide) hw) ?_ )
    | (with_reducible refine ridgeCalEnds_kept _ _ (Sub.trans (by decide) hw) ?_ )
    | (with_reducible refine calStatus_kept _ _ _ (Sub.trans (by decide) hw) ?_ )
    | (with_reducible refine nativeBankDone_kept _ _ (Sub.trans (by decide) hw) ?_ )
    | (with_reducible refine calDone_kept _ _ (Sub.trans (by decide) hw) ?_ )
    | (with_reducible refine setSwap_kept _ _ _ (Sub.trans (by decide) hw) ?_ )
    | with_reducible apply kept_foldl
    | (with_reducible refine may_sp (hw.bit (by decide)) _ _ ?_ ?_)
    | exact Fin.isLt _
    | decide
    | split

theorem jobRefused_kept (j : CalJob) (status : Nat) (s : State)
    (hw : Sub 0x29c2000000000100830090000000000 W) (h_s : Kept W s0 s) :
    Kept W s0 (jobRefused j status s) := by
  unfold jobRefused
  try dsimp only
  repeat' first
    | with_reducible assumption
    | (with_reducible refine st_p_kept _ _ _ ?_ ?_)
    | (with_reducible refine ridgeCalEnds_kept _ _ (Sub.trans (by decide) hw) ?_ )
    | (with_reducible refine nativeBankDone_kept _ _ (Sub.trans (by decide) hw) ?_ )
    | (with_reducible refine may_cl (hw.bit (by decide)) _ ?_)
    | (with_reducible refine may_cx (hw.bit (by decide)) _ ?_)
    | decide
    | split

theorem heldCommits_kept (s : State) (hw : Sub 0x29e2000000000100830090000000000 W) (h_s : Kept W s0 s) :
    Kept W s0 (heldCommits s) := by
  unfold heldCommits
  try dsimp only
  repeat' first
    | with_reducible assumption
    | intro _
    | (with_reducible refine calPublish_kept _ _ (Sub.trans (by decide) hw) ?_ )
    | (with_reducible refine jobRefused_kept _ _ _ (Sub.trans (by decide) hw) ?_ )
    | with_reducible apply kept_foldl
    | with_reducible exact same
    | with_reducible exact mem_same
    | with_reducible exact host_same
    | with_reducible exact flt_same
    | exact .inr (hw.bit (by decide))
    | simp only [kept_mk]
    | with_reducible apply kept_upd
    | split

theorem calHolds_kept (s : State) (hw : Sub 0x29e2000000000101830090000000000 W) (h_s : Kept W s0 s) :
    Kept W s0 (calHolds s) := by
  unfold calHolds
  try dsimp only
  repeat' first
    | with_reducible assumption
    | intro _
    | (with_reducible refine calNext_kept _ _ (Sub.trans (by decide) hw) ?_ )
    | (with_reducible refine suspendReport_kept _ _ (Sub.trans (by decide) hw) ?_ )
    | (with_reducible refine holdHigh_kept _ _ (Sub.trans (by decide) hw) ?_ )
    | (with_reducible refine heldCommits_kept _ (Sub.trans (by decide) hw) ?_ )
    | with_reducible apply kept_foldl

end Sys2Proof.Laws
end

