-- ==== Sys2Proof/Laws/KeptEvents.lean ====
section
/-! SUPPORT. One lemma per operation of Machine/Events.lean: within which mask of parts it keeps the rest; a command's meaning
answers a next state that is so kept. The numeral of a mask has the bits of Area. -/
namespace Sys2Proof.Laws
open Sys2Proof Sys2Proof.Machine
variable {W : Nat} {s0 : State}

theorem st_setEvt_kept (s : State) (n : EvtId) (x : EvtLine) (hw : Sub 0x400000000000000000000000000000 W) (h_s : Kept W s0 s) :
    Kept W s0 (State.setEvt s n x) := by
  unfold State.setEvt
  try dsimp only
  repeat' first
    | with_reducible assumption
    | with_reducible exact same
    | with_reducible exact mem_same
    | with_reducible exact host_same
    | with_reducible exact flt_same
    | exact .inr (hw.bit (by decide))
    | simp only [kept_mk]
    | with_reducible apply kept_upd

theorem setMasked_kept (n : EvtId) (v : Bool) (s : State) (hw : Sub 0x2000000000000000000 W) (h_s : Kept W s0 s) :
    Kept W s0 (setMasked n v s) := by
  unfold setMasked
  try dsimp only
  repeat' first
    | with_reducible assumption
    | (with_reducible refine st_p_kept _ _ _ ?_ ?_)
    | (with_reducible refine may_em (hw.bit (by decide)) _ ?_)
    | decide

theorem qualifyEvt_kept (n : EvtId) (q : Nat) (s : State) (hw : Sub 0x400000000004000000000000000000 W) (h_s : Kept W s0 s) :
    Kept W s0 (qualifyEvt n q s) := by
  unfold qualifyEvt
  try dsimp only
  repeat' first
    | with_reducible assumption
    | (with_reducible refine st_cnt64_kept _ _ (Sub.trans (by decide) hw) ?_ ?_ )
    | (with_reducible refine st_setEvt_kept _ _ _ (Sub.trans (by decide) hw) ?_ )
    | (with_reducible refine may_el (hw.bit (by decide)) _ _ ?_ ?_)
    | exact Fin.isLt _
    | decide

theorem seeEvt_kept (n : EvtId) (level : Bool) (s : State) (hw : Sub 0x400000000000000000000000000000 W) (h_s : Kept W s0 s) :
    Kept W s0 (seeEvt n level s) := by
  unfold seeEvt
  try dsimp only
  repeat' first
    | with_reducible assumption
    | (with_reducible refine st_setEvt_kept _ _ _ (Sub.trans (by decide) hw) ?_ )
    | with_reducible apply kept_ite

theorem evtRow_kept (n : EvtId) (level : Bool) (f : State → State) (s : State)
    (hw : Sub 0x400000000000000000000000000000 W) (h_f : ∀  s, Kept W s0 s → Kept W s0 (f  s)) (h_s : Kept W s0 s) :
    ∃ t', evtRow n level f s = .next t' ∧ Kept W s0 t' := by
  unfold evtRow
  refine ⟨_, rfl, ?_⟩
  try dsimp only
  repeat' first
    | with_reducible assumption
    | intro _
    | apply h_f
    | (with_reducible refine st_fresh_kept _ (Sub.trans (by decide) hw) ?_ )
    | (with_reducible refine st_timed_kept _ _ (Sub.trans (by decide) hw) ?_ ?_ )
    | (with_reducible refine seeEvt_kept _ _ _ (Sub.trans (by decide) hw) ?_ )
    | with_reducible apply kept_ite

theorem execEvtQualify_kept (n : EvtId) (gap : Nat) (s : State)
    (hw : Sub 0x400000000004000000000000000000 W) (h_s : Kept W s0 s) :
    ∃ t', execEvtQualify n gap s = .next t' ∧ Kept W s0 t' := by
  unfold execEvtQualify
  refine ⟨_, rfl, ?_⟩
  try dsimp only
  repeat' first
    | with_reducible assumption
    | intro _
    | (with_reducible refine qualifyEvt_kept _ _ _ (Sub.trans (by decide) hw) ?_ )
    | (with_reducible refine st_fresh_kept _ (Sub.trans (by decide) hw) ?_ )
    | (with_reducible refine st_timed_kept _ _ (Sub.trans (by decide) hw) ?_ ?_ )
    | (with_reducible refine seeEvt_kept _ _ _ (Sub.trans (by decide) hw) ?_ )
    | with_reducible apply kept_ite

theorem execGlitch_kept (n : EvtId) (gap width : Nat) (s : State)
    (hw : Sub 0x400000000004000000000000000000 W) (h_s : Kept W s0 s) :
    ∃ t', execGlitch n gap width s = .next t' ∧ Kept W s0 t' := by
  unfold execGlitch
  refine ⟨_, rfl, ?_⟩
  try dsimp only
  repeat' first
    | with_reducible assumption
    | intro _
    | (with_reducible refine st_sat32_kept _ _ (Sub.trans (by decide) hw) ?_ ?_ )
    | (with_reducible refine st_setEvt_kept _ _ _ (Sub.trans (by decide) hw) ?_ )
    | (with_reducible refine st_fresh_kept _ (Sub.trans (by decide) hw) ?_ )
    | (with_reducible refine st_timed_kept _ _ (Sub.trans (by decide) hw) ?_ ?_ )
    | (with_reducible refine seeEvt_kept _ _ _ (Sub.trans (by decide) hw) ?_ )
    | with_reducible apply kept_ite
    | (with_reducible refine may_el (hw.bit (by decide)) _ _ ?_ ?_)
    | exact Fin.isLt _
    | decide

theorem execEvtOverrun_kept (n : EvtId) (gap : Nat) (s : State)
    (hw : Sub 0x440000000004000000000000000000 W) (h_s : Kept W s0 s) :
    ∃ t', execEvtOverrun n gap s = .next t' ∧ Kept W s0 t' := by
  unfold execEvtOverrun
  refine ⟨_, rfl, ?_⟩
  try dsimp only
  repeat' first
    | with_reducible assumption
    | intro _
    | (with_reducible refine st_sat32_kept _ _ (Sub.trans (by decide) hw) ?_ ?_ )
    | (with_reducible refine st_raise_kept _ _ (Sub.trans (by decide) hw) ?_ )
    | (with_reducible refine st_fresh_kept _ (Sub.trans (by decide) hw) ?_ )
    | (with_reducible refine st_timed_kept _ _ (Sub.trans (by decide) hw) ?_ ?_ )
    | (with_reducible refine seeEvt_kept _ _ _ (Sub.trans (by decide) hw) ?_ )
    | with_reducible apply kept_ite
    | (with_reducible refine may_el (hw.bit (by decide)) _ _ ?_ ?_)
    | exact Fin.isLt _
    | decide

theorem hostEvents_kept (mask : Nat) (s : State) (hw : Sub 0x400000000000000000000000000000 W) (h_s : Kept W s0 s) :
    Kept W s0 (hostEvents mask s) := by
  unfold hostEvents
  try dsimp only
  repeat' first
    | with_reducible assumption
    | intro _
    | (with_reducible refine st_setEvt_kept _ _ _ (Sub.trans (by decide) hw) ?_ )
    | with_reducible apply kept_ite
    | with_reducible apply kept_foldl

theorem hostQualify_kept (n : EvtId) (s : State) (hw : Sub 0x400000000004000000000000000000 W) (h_s : Kept W s0 s) :
    Kept W s0 (hostQualify n s) := by
  unfold hostQualify
  try dsimp only
  repeat' first
    | with_reducible assumption
    | (with_reducible refine st_setEvt_kept _ _ _ (Sub.trans (by decide) hw) ?_ )
    | (with_reducible refine qualifyEvt_kept _ _ _ (Sub.trans (by decide) hw) ?_ )
    | split

theorem execEvtHost_kept (mask : BitVec 16) (s : State) (hw : Sub 0x400000000004000000000000000000 W) (h_s : Kept W s0 s) :
    ∃ t', execEvtHost mask s = .next t' ∧ Kept W s0 t' := by
  unfold execEvtHost
  refine ⟨_, rfl, ?_⟩
  try dsimp only
  repeat' first
    | with_reducible assumption
    | intro _
    | (with_reducible refine st_fresh_kept _ (Sub.trans (by decide) hw) ?_ )
    | (with_reducible refine st_timed_kept _ _ (Sub.trans (by decide) hw) ?_ ?_ )
    | (with_reducible refine hostQualify_kept _ _ (Sub.trans (by decide) hw) ?_ )
    | with_reducible apply kept_ite
    | with_reducible apply kept_foldl

theorem ridgeEvents_kept (s : State) (hw : Sub 0x400000000004000000000000000000 W) (h_s : Kept W s0 s) :
    Kept W s0 (ridgeEvents s) := by
  unfold ridgeEvents
  try dsimp only
  repeat' first
    | with_reducible assumption
    | intro _
    | (with_reducible refine qualifyEvt_kept _ _ _ (Sub.trans (by decide) hw) ?_ )
    | with_reducible apply kept_ite
    | with_reducible apply kept_foldl

theorem resumeSite_kept (i : SiteId) (s : State) (hw : Sub 0x2000000000000000000000000000 W) (h_s : Kept W s0 s) :
    Kept W s0 (resumeSite i s) := by
  unfold resumeSite
  try dsimp only
  repeat' first
    | with_reducible assumption
    | (with_reducible refine st_modSite_kept _ _ _ (Sub.trans (by decide) hw) ?_ )
    | with_reducible apply kept_ite

theorem latchEvt_kept (n : EvtId) (i : SiteId) (s : State) (hw : Sub 0x2000000000000000000000010000 W) (h_s : Kept W s0 s) :
    Kept W s0 (latchEvt n i s) := by
  unfold latchEvt
  try dsimp only
  repeat' first
    | with_reducible assumption
    | (with_reducible refine st_p_kept _ _ _ ?_ ?_)
    | (with_reducible refine st_modSite_kept _ _ _ (Sub.trans (by decide) hw) ?_ )
    | (with_reducible refine resumeSite_kept _ _ (Sub.trans (by decide) hw) ?_ )
    | with_reducible apply kept_ite
    | (with_reducible refine may_st (hw.bit (by decide)) _ _ ?_ ?_)
    | exact Fin.isLt _
    | decide

theorem evtLatch_kept (n : EvtId) (s : State) (hw : Sub 0x602000000000000000400000010000 W) (h_s : Kept W s0 s) :
    Kept W s0 (evtLatch n s) := by
  unfold evtLatch
  try dsimp only
  repeat' first
    | with_reducible assumption
    | intro _
    | (with_reducible refine wEvent_kept _ _ _ (Sub.trans (by decide) hw) ?_ )
    | (with_reducible refine st_setEvt_kept _ _ _ (Sub.trans (by decide) hw) ?_ )
    | (with_reducible refine latchEvt_kept _ _ _ (Sub.trans (by decide) hw) ?_ )
    | with_reducible apply kept_foldl
    | split

theorem execEvtLatch_kept (n : EvtId) (s : State) (hw : Sub 0x602000000000000000400000010000 W) (h_s : Kept W s0 s) :
    ∃ t', execEvtLatch n s = .next t' ∧ Kept W s0 t' := by
  unfold execEvtLatch
  refine ⟨_, rfl, ?_⟩
  try dsimp only
  repeat' first
    | with_reducible assumption
    | intro _
    | (with_reducible refine st_fresh_kept _ (Sub.trans (by decide) hw) ?_ )
    | (with_reducible refine st_timed_kept _ _ (Sub.trans (by decide) hw) ?_ ?_ )
    | (with_reducible refine evtLatch_kept _ _ (Sub.trans (by decide) hw) ?_ )

theorem execEvtStuck_kept (n : EvtId) (s : State) (hw : Sub 0x4c0000000006000000000000000000 W) (h_s : Kept W s0 s) :
    ∃ t', execEvtStuck n s = .next t' ∧ Kept W s0 t' := by
  unfold execEvtStuck
  refine ⟨_, rfl, ?_⟩
  try dsimp only
  repeat' first
    | with_reducible assumption
    | intro _
    | (with_reducible refine st_sat32_kept _ _ (Sub.trans (by decide) hw) ?_ ?_ )
    | (with_reducible refine st_activate_kept _ _ _ _ (Sub.trans (by decide) hw) ?_ )
    | (with_reducible refine setMasked_kept _ _ _ (Sub.trans (by decide) hw) ?_ )
    | (with_reducible refine st_fresh_kept _ (Sub.trans (by decide) hw) ?_ )
    | (with_reducible refine st_timed_kept _ _ (Sub.trans (by decide) hw) ?_ ?_ )
    | (with_reducible refine seeEvt_kept _ _ _ (Sub.trans (by decide) hw) ?_ )
    | with_reducible apply kept_ite
    | (with_reducible refine may_el (hw.bit (by decide)) _ _ ?_ ?_)
    | exact Fin.isLt _
    | decide

theorem execEvtRelease_kept (n : EvtId) (s : State) (hw : Sub 0x480000000002000000000000000000 W) (h_s : Kept W s0 s) :
    ∃ t', execEvtRelease n s = .next t' ∧ Kept W s0 t' := by
  unfold execEvtRelease
  refine ⟨_, rfl, ?_⟩
  try dsimp only
  repeat' first
    | with_reducible assumption
    | intro _
    | (with_reducible refine st_fresh_kept _ (Sub.trans (by decide) hw) ?_ )
    | (with_reducible refine st_timed_kept _ _ (Sub.trans (by decide) hw) ?_ ?_ )
    | (with_reducible refine st_deactivate_kept _ _ (Sub.trans (by decide) hw) ?_ )
    | (with_reducible refine st_setEvt_kept _ _ _ (Sub.trans (by decide) hw) ?_ )
    | (with_reducible refine setMasked_kept _ _ _ (Sub.trans (by decide) hw) ?_ )
    | (with_reducible refine seeEvt_kept _ _ _ (Sub.trans (by decide) hw) ?_ )
    | with_reducible apply kept_ite

theorem restartEvt_kept (n : EvtId) (s : State) (hw : Sub 0x400000000000000000000000000000 W) (h_s : Kept W s0 s) :
    Kept W s0 (restartEvt n s) := by
  unfold restartEvt
  try dsimp only
  repeat' first
    | with_reducible assumption
    | (with_reducible refine st_setEvt_kept _ _ _ (Sub.trans (by decide) hw) ?_ )

end Sys2Proof.Laws
end

