-- ==== Sys2Proof/Laws/KeptRules.lean ====
section
/-! SUPPORT. One lemma per operation of Machine/Rules.lean: within which mask of parts it keeps the rest; a command's meaning
answers a next state that is so kept. The numeral of a mask has the bits of Area. -/
namespace Sys2Proof.Laws
open Sys2Proof Sys2Proof.Machine
variable {W : Nat} {s0 : State}

theorem putTable_kept (e : EngId) (sub : Nat) (l : List Byte) (s : State)
    (hw : Sub 0x200000000000000000000000000000 W) (h_s : Kept W s0 s) :
    Kept W s0 (putTable e sub l s) := by
  unfold putTable
  try dsimp only
  repeat' first
    | with_reducible assumption
    | (with_reducible refine st_setEng_kept _ _ _ (Sub.trans (by decide) hw) ?_ )
    | split

theorem putValue_kept (s : State) (e : Nat × SVal) (hw : Sub 0x40200100000000000000000000000000 W) (h_s : Kept W s0 s) :
    Kept W s0 (putValue s e) := by
  unfold putValue
  try dsimp only
  repeat' first
    | with_reducible assumption
    | (with_reducible refine st_p_kept _ _ _ ?_ ?_)
    | (with_reducible refine st_putBlob_kept _ _ _ (hw.bit (by decide)) ?_)
    | (with_reducible refine putTable_kept _ _ _ _ (Sub.trans (by decide) hw) ?_ )
    | exact may_any (hw.bit (by decide)) _
    | split

theorem applyData_kept (staged : KMap SVal) (s : State) (hw : Sub 0x40200100000000000000000000000000 W) (h_s : Kept W s0 s) :
    Kept W s0 (applyData staged s) := by
  unfold applyData
  try dsimp only
  repeat' first
    | with_reducible assumption
    | intro _
    | (with_reducible refine putValue_kept _ _ (Sub.trans (by decide) hw) ?_ )
    | with_reducible apply kept_foldl

end Sys2Proof.Laws
end

