-- ==== Sys2Proof/Laws/KeptApply.lean ====
section
/-! SUPPORT. One lemma per operation of Machine/Apply.lean: within which mask of parts it keeps the rest; a command's meaning
answers a next state that is so kept. The numeral of a mask has the bits of Area. -/
namespace Sys2Proof.Laws
open Sys2Proof Sys2Proof.Machine
variable {W : Nat} {s0 : State}

theorem projected_kept (s : State) (hw : Sub 0x40200100000000000000000000000000 W) (h_s : Kept W s0 s) :
    Kept W s0 (projected s) := by
  unfold projected
  try dsimp only
  repeat' first
    | with_reducible assumption
    | intro _
    | (with_reducible refine applyData_kept _ _ (Sub.trans (by decide) hw) ?_ )
    | with_reducible apply kept_foldl

theorem restLanes_kept (c : ChanId) (l : State → Int → List Output) (s : State)
    (hw : Sub 0x2000000000000000000000000000 W) (h_s : Kept W s0 s) :
    Kept W s0 (restLanes c l s) := by
  unfold restLanes
  try dsimp only
  repeat' first
    | with_reducible assumption
    | (with_reducible refine st_advance_kept _ (Sub.trans (by decide) hw) ?_ )
    | (with_reducible refine st_emits_kept _ _ (Sub.trans (by decide) hw) ?_ )
    | (with_reducible refine lanes_kept _ _ _ _ (Sub.trans (by decide) hw) ?_ )
    | split

theorem restLevel_kept (c : ChanId) (s : State) (hw : Sub 0x2000000000000000000000000000 W) (h_s : Kept W s0 s) :
    Kept W s0 (restLevel c s) := by
  unfold restLevel
  try dsimp only
  repeat' first
    | with_reducible assumption
    | (with_reducible refine st_modSite_kept _ _ _ (Sub.trans (by decide) hw) ?_ )
    | (with_reducible refine restLanes_kept _ _ _ (Sub.trans (by decide) hw) ?_ )
    | split

theorem loopChange_kept (c : ChanId) (s : State) (hw : Sub 0x2000000000000000000000000000 W) (h_s : Kept W s0 s) :
    Kept W s0 (loopChange c s) := by
  unfold loopChange
  try dsimp only
  repeat' first
    | with_reducible assumption
    | (with_reducible refine st_advance_kept _ (Sub.trans (by decide) hw) ?_ )
    | (with_reducible refine st_emits_kept _ _ (Sub.trans (by decide) hw) ?_ )
    | (with_reducible refine pend_kept _ _ _ (Sub.trans (by decide) hw) ?_ )
    | (with_reducible refine restLanes_kept _ _ _ (Sub.trans (by decide) hw) ?_ )
    | split

theorem stageLists_kept (old : State) (s : State)
    (hw : Sub 0x200000000000000000000000000000 W) (h_old : Kept W s0 old) (h_s : Kept W s0 s) :
    Kept W s0 (stageLists old s) := by
  unfold stageLists
  try dsimp only
  repeat' first
    | with_reducible assumption
    | intro _
    | (with_reducible refine st_setEng_kept _ _ _ (Sub.trans (by decide) hw) ?_ )
    | with_reducible apply kept_ite
    | with_reducible apply kept_foldl

theorem markObjects_kept (old : State) (m : Nat) (s : State) (hw : Sub 0x0 W) (h_old : Kept W s0 old) (h_s : Kept W s0 s) :
    Kept W s0 (markObjects old m s) := by
  unfold markObjects
  try dsimp only
  repeat' first
    | with_reducible assumption
    | (with_reducible refine st_emit_kept _ _ (Sub.trans (by decide) hw) ?_ )
    | with_reducible apply kept_ite

theorem effectOf_kept (old : State) (key : Nat) (s : State)
    (hw : Sub 0x3fe20000000001c08b0099000010000 W) (h_old : Kept W s0 old) (h_s : Kept W s0 s) :
    Kept W s0 (effectOf old key s) := by
  unfold effectOf
  try dsimp only
  repeat' first
    | with_reducible assumption
    | (with_reducible refine st_p_kept _ _ _ ?_ ?_)
    | (with_reducible refine st_modSite_kept _ _ _ (Sub.trans (by decide) hw) ?_ )
    | (with_reducible refine st_setEng_kept _ _ _ (Sub.trans (by decide) hw) ?_ )
    | (with_reducible refine formPending_kept _ _ _ (Sub.trans (by decide) hw) ?_ )
    | (with_reducible refine dutChange_kept _ _ (Sub.trans (by decide) hw) ?_ )
    | (with_reducible refine gateChange_kept _ _ (Sub.trans (by decide) hw) ?_ )
    | (with_reducible refine t1sSpread_kept _ (Sub.trans (by decide) hw) ?_ )
    | (with_reducible refine domSwitch_kept _ _ (Sub.trans (by decide) hw) ?_ )
    | (with_reducible refine putCalState_kept _ (Sub.trans (by decide) hw) ?_ )
    | (with_reducible refine restartEvt_kept _ _ (Sub.trans (by decide) hw) ?_ )
    | (with_reducible refine restLevel_kept _ _ (Sub.trans (by decide) hw) ?_ )
    | (with_reducible refine loopChange_kept _ _ (Sub.trans (by decide) hw) ?_ )
    | (with_reducible refine markObjects_kept _ _ _ (Sub.trans (by decide) hw) ?_ ?_ )
    | with_reducible apply kept_ite
    | (with_reducible refine may_fr (hw.bit (by decide)) _ _ ?_ ?_)
    | exact Fin.isLt _
    | decide

theorem writeEffect_kept (e : Nat × SVal) (s : State) (hw : Sub 0x4400000000000000000000000000400 W) (h_s : Kept W s0 s) :
    Kept W s0 (writeEffect e s) := by
  unfold writeEffect
  try dsimp only
  repeat' first
    | with_reducible assumption
    | (with_reducible refine st_p_kept _ _ _ ?_ ?_)
    | (with_reducible refine hostEvents_kept _ _ (Sub.trans (by decide) hw) ?_ )
    | (with_reducible refine may_utc (hw.bit (by decide)) _ ?_)
    | with_reducible exact same
    | with_reducible exact mem_same
    | with_reducible exact host_same
    | with_reducible exact flt_same
    | exact .inr (hw.bit (by decide))
    | decide
    | simp only [kept_mk]
    | with_reducible apply kept_upd
    | split

theorem applyValues_kept (staged : KMap SVal) (s : State) (hw : Sub 0x47fe21000000001c08b0099000010500 W) (h_s : Kept W s0 s) :
    Kept W s0 (applyValues staged s) := by
  unfold applyValues
  try dsimp only
  repeat' first
    | with_reducible assumption
    | intro _
    | (with_reducible refine st_cnt64_kept _ _ (Sub.trans (by decide) hw) ?_ ?_ )
    | (with_reducible refine applyData_kept _ _ (Sub.trans (by decide) hw) ?_ )
    | (with_reducible refine stageLists_kept _ _ (Sub.trans (by decide) hw) ?_ ?_ )
    | (with_reducible refine effectOf_kept _ _ _ (Sub.trans (by decide) hw) ?_ ?_ )
    | (with_reducible refine writeEffect_kept _ _ (Sub.trans (by decide) hw) ?_ )
    | with_reducible apply kept_foldl
    | (with_reducible refine may_te (hw.bit (by decide)) _ ?_)
    | decide

theorem tryApply_kept (staged : KMap SVal) (s : State) (hw : Sub 0x47fe21000000001c08b0099000010500 W) (h_s : Kept W s0 s) :
    Kept W s0 (tryApply staged s).2 := by
  unfold tryApply
  try dsimp only
  repeat' first
    | with_reducible assumption
    | (with_reducible refine st_raise_kept _ _ (Sub.trans (by decide) hw) ?_ )
    | (with_reducible refine applyValues_kept _ _ (Sub.trans (by decide) hw) ?_ )
    | split

theorem applyTxn_kept (k : Fin 8) (s : State) (hw : Sub 0x47fea1000000001c08b0099000010504 W) (h_s : Kept W s0 s) :
    Kept W s0 (applyTxn k s) := by
  unfold applyTxn
  try dsimp only
  repeat' first
    | with_reducible assumption
    | (with_reducible refine st_setTxn_kept _ _ _ (Sub.trans (by decide) hw) ?_ )
    | (with_reducible refine endTxn_kept _ _ _ _ _ _ (Sub.trans (by decide) hw) ?_ )
    | (with_reducible refine tryApply_kept _ _ (Sub.trans (by decide) hw) ?_ )
    | (with_reducible refine kept_snd (by with_reducible assumption) ?_)
    | split

theorem setOut_kept (n : Nat) (t : Txn) (s : State) (hw : Sub 0x20000000000000000000000000000 W) (h_s : Kept W s0 s) :
    Kept W s0 (setOut n t s) := by
  unfold setOut
  try dsimp only
  repeat' first
    | with_reducible assumption
    | with_reducible exact same
    | with_reducible exact mem_same
    | with_reducible exact host_same
    | with_reducible exact flt_same
    | exact .inr (hw.bit (by decide))
    | simp only [kept_mk]
    | with_reducible apply kept_upd

theorem endOut_kept (n status first : Nat) (s : State) (hw : Sub 0x69ea000000000100830090000000000 W) (h_s : Kept W s0 s) :
    Kept W s0 (endOut n status first s) := by
  unfold endOut
  try dsimp only
  repeat' first
    | with_reducible assumption
    | (with_reducible refine answer_kept _ _ _ _ _ _ (Sub.trans (by decide) hw) ?_ )
    | (with_reducible refine jobRefused_kept _ _ _ (Sub.trans (by decide) hw) ?_ )
    | with_reducible exact same
    | with_reducible exact mem_same
    | with_reducible exact host_same
    | with_reducible exact flt_same
    | exact .inr (hw.bit (by decide))
    | simp only [kept_mk]
    | with_reducible apply kept_upd
    | split

theorem lifeApplied_kept (to_ : Nat) (s : State) (hw : Sub 0x4000002000000000000000000000000 W) (h_s : Kept W s0 s) :
    Kept W s0 (lifeApplied to_ s) := by
  unfold lifeApplied
  try dsimp only
  repeat' first
    | with_reducible assumption
    | (with_reducible refine st_p_kept _ _ _ ?_ ?_)
    | with_reducible apply kept_ite
    | (with_reducible refine may_kk (hw.bit (by decide)) _ ?_)
    | with_reducible exact same
    | with_reducible exact mem_same
    | with_reducible exact host_same
    | with_reducible exact flt_same
    | exact .inr (hw.bit (by decide))
    | decide
    | simp only [kept_mk]
    | with_reducible apply kept_upd

theorem outApplied_kept (t : Txn) (s : State) (hw : Sub 0x69e2002000000100830090000000000 W) (h_s : Kept W s0 s) :
    Kept W s0 (outApplied t s) := by
  unfold outApplied
  try dsimp only
  repeat' first
    | with_reducible assumption
    | (with_reducible refine jobApplied_kept _ _ (Sub.trans (by decide) hw) ?_ )
    | (with_reducible refine lifeApplied_kept _ _ (Sub.trans (by decide) hw) ?_ )
    | split

theorem applyOut_kept (n : Nat) (s : State) (hw : Sub 0x47fea1020000001c08b0099000010500 W) (h_s : Kept W s0 s) :
    Kept W s0 (applyOut n s) := by
  unfold applyOut
  try dsimp only
  repeat' first
    | with_reducible assumption
    | (with_reducible refine tryApply_kept _ _ (Sub.trans (by decide) hw) ?_ )
    | (with_reducible refine setOut_kept _ _ _ (Sub.trans (by decide) hw) ?_ )
    | (with_reducible refine endOut_kept _ _ _ _ (Sub.trans (by decide) hw) ?_ )
    | (with_reducible refine outApplied_kept _ _ (Sub.trans (by decide) hw) ?_ )
    | (with_reducible refine kept_snd (by with_reducible assumption) ?_)
    | split

theorem applyOrder_kept (o : Nat) (s : State) (hw : Sub 0x47fea1020000001c08b0099000010504 W) (h_s : Kept W s0 s) :
    Kept W s0 (applyOrder o s) := by
  unfold applyOrder
  try dsimp only
  repeat' first
    | with_reducible assumption
    | (with_reducible refine applyTxn_kept _ _ (Sub.trans (by decide) hw) ?_ )
    | (with_reducible refine applyOut_kept _ _ (Sub.trans (by decide) hw) ?_ )
    | split

theorem applyAll_kept (l : List Nat) (s : State) (hw : Sub 0x47fea1020000001c08b0099000010504 W) (h_s : Kept W s0 s) :
    Kept W s0 (applyAll l s) := by
  unfold applyAll
  try dsimp only
  repeat' first
    | with_reducible assumption
    | intro _
    | (with_reducible refine applyOrder_kept _ _ (Sub.trans (by decide) hw) ?_ )
    | with_reducible apply kept_foldl

theorem eaveApply_kept (i : SiteId) (s : State) (hw : Sub 0x47fea1020000001c08b0099000010504 W) (h_s : Kept W s0 s) :
    Kept W s0 (eaveApply i s) := by
  unfold eaveApply
  try dsimp only
  repeat' first
    | with_reducible assumption
    | (with_reducible refine applyAll_kept _ _ (Sub.trans (by decide) hw) ?_ )

theorem ridgeApply_kept (s : State) (hw : Sub 0x47fea1020000001c08b0099000010504 W) (h_s : Kept W s0 s) :
    Kept W s0 (ridgeApply s) := by
  unfold ridgeApply
  try dsimp only
  repeat' first
    | with_reducible assumption
    | (with_reducible refine applyAll_kept _ _ (Sub.trans (by decide) hw) ?_ )
    | with_reducible apply kept_ite

theorem answerPending_kept (k : Fin 8) (s : State) (hw : Sub 0x4028000000000000000000000000000 W) (h_s : Kept W s0 s) :
    Kept W s0 (answerPending k s) := by
  unfold answerPending
  try dsimp only
  repeat' first
    | with_reducible assumption
    | (with_reducible refine st_setTxn_kept _ _ _ (Sub.trans (by decide) hw) ?_ )
    | (with_reducible refine answer_kept _ _ _ _ _ _ (Sub.trans (by decide) hw) ?_ )
    | split

theorem applyDue_kept (o : Nat) (s : State) (hw : Sub 0x47fea1020000001c08b0099000010504 W) (h_s : Kept W s0 s) :
    Kept W s0 (applyDue o s) := by
  unfold applyDue
  try dsimp only
  repeat' first
    | with_reducible assumption
    | (with_reducible refine applyAll_kept _ _ (Sub.trans (by decide) hw) ?_ )

theorem becomePending_kept (k : Fin 8) (s : State) (hw : Sub 0x47fea1020000001c08b0099000010504 W) (h_s : Kept W s0 s) :
    Kept W s0 (becomePending k s) := by
  unfold becomePending
  try dsimp only
  repeat' first
    | with_reducible assumption
    | (with_reducible refine st_setTxn_kept _ _ _ (Sub.trans (by decide) hw) ?_ )
    | (with_reducible refine answerPending_kept _ _ (Sub.trans (by decide) hw) ?_ )
    | (with_reducible refine applyDue_kept _ _ (Sub.trans (by decide) hw) ?_ )
    | with_reducible apply kept_ite

theorem outReady_kept (n : Nat) (s : State) (hw : Sub 0x47fea1020000001c08b0099000010504 W) (h_s : Kept W s0 s) :
    Kept W s0 (outReady n s) := by
  unfold outReady
  try dsimp only
  repeat' first
    | with_reducible assumption
    | (with_reducible refine setOut_kept _ _ _ (Sub.trans (by decide) hw) ?_ )
    | (with_reducible refine applyDue_kept _ _ (Sub.trans (by decide) hw) ?_ )
    | split

theorem recordDurable_kept (w : Work) (ok : Bool) (s : State)
    (hw : Sub 0x47fea1020000001c08b0099000010504 W) (h_s : Kept W s0 s) :
    Kept W s0 (recordDurable w ok s) := by
  unfold recordDurable
  try dsimp only
  repeat' first
    | with_reducible assumption
    | (with_reducible refine st_append_kept _ _ _ (Sub.trans (by decide) hw) ?_ )
    | (with_reducible refine st_setTxn_kept _ _ _ (Sub.trans (by decide) hw) ?_ )
    | (with_reducible refine endTxn_kept _ _ _ _ _ _ (Sub.trans (by decide) hw) ?_ )
    | (with_reducible refine setOut_kept _ _ _ (Sub.trans (by decide) hw) ?_ )
    | (with_reducible refine endOut_kept _ _ _ _ (Sub.trans (by decide) hw) ?_ )
    | (with_reducible refine becomePending_kept _ _ (Sub.trans (by decide) hw) ?_ )
    | (with_reducible refine outReady_kept _ _ (Sub.trans (by decide) hw) ?_ )
    | with_reducible exact same
    | with_reducible exact mem_same
    | with_reducible exact host_same
    | with_reducible exact flt_same
    | exact .inr (hw.bit (by decide))
    | simp only [kept_mk]
    | with_reducible apply kept_upd
    | split

theorem execJournalRecordDurable_kept (w : Work) (ok : Bool) (s : State)
    (hw : Sub 0x67fea1020000001c08b0099000010504 W) (h_s : Kept W s0 s) :
    ∃ t', execJournalRecordDurable w ok s = .next t' ∧ Kept W s0 t' := by
  unfold execJournalRecordDurable
  refine st_served_kept _ _ _ _ (Sub.trans (by decide) hw) (by assumption) fun s h_s => ?_
  refine st_served_kept _ _ _ _ (Sub.trans (by decide) hw) (by assumption) fun s h_s => ?_
  refine ⟨_, rfl, ?_⟩
  try dsimp only
  repeat' first
    | with_reducible assumption
    | (with_reducible refine st_fresh_kept _ (Sub.trans (by decide) hw) ?_ )
    | (with_reducible refine norFore_kept _ (Sub.trans (by decide) hw) ?_ )
    | (with_reducible refine recordDurable_kept _ _ _ (Sub.trans (by decide) hw) ?_ )
    | with_reducible apply kept_ite

theorem applyPoint_kept (w : Work) (s : State) (hw : Sub 0x47fea1020000001c08b0099000010504 W) (h_s : Kept W s0 s) :
    Kept W s0 (applyPoint w s) := by
  unfold applyPoint
  try dsimp only
  repeat' first
    | with_reducible assumption
    | (with_reducible refine applyDue_kept _ _ (Sub.trans (by decide) hw) ?_ )
    | split

theorem execApplyPoint_kept (w : Work) (s : State) (hw : Sub 0x67fea1020000001c08b0099000010504 W) (h_s : Kept W s0 s) :
    ∃ t', execApplyPoint w s = .next t' ∧ Kept W s0 t' := by
  unfold execApplyPoint
  refine st_served_kept _ _ _ _ (Sub.trans (by decide) hw) (by assumption) fun s h_s => ?_
  refine ⟨_, rfl, ?_⟩
  try dsimp only
  repeat' first
    | with_reducible assumption
    | (with_reducible refine st_fresh_kept _ (Sub.trans (by decide) hw) ?_ )
    | (with_reducible refine applyPoint_kept _ _ (Sub.trans (by decide) hw) ?_ )
    | with_reducible apply kept_ite

theorem markDurable_kept (w : Work) (s : State) (hw : Sub 0x69ea000000000100830090000000004 W) (h_s : Kept W s0 s) :
    Kept W s0 (markDurable w s) := by
  unfold markDurable
  try dsimp only
  repeat' first
    | with_reducible assumption
    | (with_reducible refine st_append_kept _ _ _ (Sub.trans (by decide) hw) ?_ )
    | (with_reducible refine endTxn_kept _ _ _ _ _ _ (Sub.trans (by decide) hw) ?_ )
    | (with_reducible refine endOut_kept _ _ _ _ (Sub.trans (by decide) hw) ?_ )
    | split

theorem execCommitMarkDurable_kept (w : Work) (s : State) (hw : Sub 0x269ea000000000100830090000000004 W) (h_s : Kept W s0 s) :
    ∃ t', execCommitMarkDurable w s = .next t' ∧ Kept W s0 t' := by
  unfold execCommitMarkDurable
  refine st_served_kept _ _ _ _ (Sub.trans (by decide) hw) (by assumption) fun s h_s => ?_
  refine st_served_kept _ _ _ _ (Sub.trans (by decide) hw) (by assumption) fun s h_s => ?_
  refine ⟨_, rfl, ?_⟩
  try dsimp only
  repeat' first
    | with_reducible assumption
    | (with_reducible refine st_fresh_kept _ (Sub.trans (by decide) hw) ?_ )
    | (with_reducible refine norFore_kept _ (Sub.trans (by decide) hw) ?_ )
    | (with_reducible refine markDurable_kept _ _ (Sub.trans (by decide) hw) ?_ )
    | with_reducible apply kept_ite

end Sys2Proof.Laws
end

