-- ==== Sys2Proof/Laws/KeptControlStore.lean ====
section
/-! SUPPORT. One lemma per operation of Machine/ControlStore.lean: within which mask of parts it keeps the rest; a command's meaning
answers a next state that is so kept. The numeral of a mask has the bits of Area. -/
namespace Sys2Proof.Laws
open Sys2Proof Sys2Proof.Machine
variable {W : Nat} {s0 : State}

theorem ksorted_csPut (l : List MWord) : ∀ (a : Nat) (m : KMap MWord), ksorted m = true → ksorted (csPut l a m).1 = true := by
  induction l with
  | nil => intro a m h; exact h
  | cons w r ih =>
    intro a m h
    unfold csPut
    dsimp only
    split
    · exact ih _ _ (ksorted_kput h _ _)
    · exact h

theorem csStore_kept (addr : Nat) (words : List MWord) (s : State)
    (hw : Sub 0x200000000000000000000020000 W) (h_s : Kept W s0 s) :
    Kept W s0 (csStore addr words s).1 := by
  unfold csStore
  dsimp only
  have h1 : Kept W s0 (s.setCs (csPut words addr s.mem.cs).1) :=
    kept_cs _ _ (fun c => ksorted_csPut _ _ _ (h_s.can c).2.2.1) (hw.bit (by decide)) h_s
  repeat' first
    | with_reducible assumption
    | with_reducible refine st_p_kept _ _ _ ?_ ?_
    | with_reducible refine may_cs (hw.bit (by decide)) _ ?_
    | decide
    | split

theorem csWrite_kept (t : Tag) (addr : Nat) (words : List MWord) (s : State)
    (hw : Sub 0x18200000000000000000000020000 W) (h_s : Kept W s0 s) :
    Kept W s0 (csWrite t addr words s) := by
  unfold csWrite
  try dsimp only
  repeat' first
    | with_reducible assumption
    | (with_reducible refine st_complete_kept _ _ _ _ (Sub.trans (by decide) hw) ?_ )
    | (with_reducible refine st_fromHost_kept _ _ _ (Sub.trans (by decide) hw) ?_ )
    | (with_reducible refine csStore_kept _ _ _ (Sub.trans (by decide) hw) ?_ )

theorem execCsWrite_kept (t : Tag) (addr : Nat) (words : List MWord) (s : State)
    (hw : Sub 0x20018200000000000000000000020000 W) (h_s : Kept W s0 s) :
    ∃ t', execCsWrite t addr words s = .next t' ∧ Kept W s0 t' := by
  unfold execCsWrite
  refine st_queued_kept _ _ _ _ _ (Sub.trans (by decide) hw) (by assumption) fun s h_s => ?_
  refine ⟨_, rfl, ?_⟩
  try dsimp only
  repeat' first
    | with_reducible assumption
    | intro _
    | (with_reducible refine st_fresh_kept _ (Sub.trans (by decide) hw) ?_ )
    | (with_reducible refine st_inRange_kept _ _ _ _ (Sub.trans (by decide) hw) ?_ ?_ )
    | (with_reducible refine csWrite_kept _ _ _ _ (Sub.trans (by decide) hw) ?_ )

theorem csCorrect_kept (addr count : Nat) (errs : List (Nat × CsErr)) (s : State)
    (hw : Sub 0x40000000000000000000000020000 W) (h_s : Kept W s0 s) :
    Kept W s0 (csCorrect addr count errs s) := by
  unfold csCorrect
  try dsimp only
  repeat' first
    | with_reducible assumption
    | intro _
    | (with_reducible refine st_cnt64_kept _ _ (Sub.trans (by decide) hw) ?_ ?_ )
    | (with_reducible refine st_raise_kept _ _ (Sub.trans (by decide) hw) ?_ )
    | with_reducible apply kept_foldl
    | (with_reducible refine may_cs (hw.bit (by decide)) _ ?_)
    | decide
    | split

theorem csReadOp_kept (t : Tag) (addr count : Nat) (errs : List (Nat × CsErr)) (s : State)
    (hw : Sub 0x50000000000000000000000020000 W) (h_s : Kept W s0 s) :
    Kept W s0 (csReadOp t addr count errs s) := by
  unfold csReadOp
  try dsimp only
  repeat' first
    | with_reducible assumption
    | (with_reducible refine st_p_kept _ _ _ ?_ ?_)
    | (with_reducible refine st_complete_kept _ _ _ _ (Sub.trans (by decide) hw) ?_ )
    | (with_reducible refine st_refuse_kept _ _ _ (Sub.trans (by decide) hw) ?_ )
    | (with_reducible refine st_toHost_kept _ _ _ (Sub.trans (by decide) hw) ?_ )
    | (with_reducible refine csCorrect_kept _ _ _ _ (Sub.trans (by decide) hw) ?_ )
    | (with_reducible refine may_cs (hw.bit (by decide)) _ ?_)
    | decide
    | split

theorem execCsRead_kept (t : Tag) (addr count : Nat) (errs : List (Nat × CsErr)) (s : State)
    (hw : Sub 0x20050000000000000000000000020000 W) (h_s : Kept W s0 s) :
    ∃ t', execCsRead t addr count errs s = .next t' ∧ Kept W s0 t' := by
  unfold execCsRead
  refine st_queued_kept _ _ _ _ _ (Sub.trans (by decide) hw) (by assumption) fun s h_s => ?_
  refine ⟨_, rfl, ?_⟩
  try dsimp only
  repeat' first
    | with_reducible assumption
    | intro _
    | (with_reducible refine st_fresh_kept _ (Sub.trans (by decide) hw) ?_ )
    | (with_reducible refine st_inRange_kept _ _ _ _ (Sub.trans (by decide) hw) ?_ ?_ )
    | (with_reducible refine csReadOp_kept _ _ _ _ _ (Sub.trans (by decide) hw) ?_ )

theorem csVerify_kept (t : Tag) (addr count : Nat) (errs : List (Nat × CsErr)) (s : State)
    (hw : Sub 0x50000000000000000000000020000 W) (h_s : Kept W s0 s) :
    Kept W s0 (csVerify t addr count errs s) := by
  unfold csVerify
  try dsimp only
  repeat' first
    | with_reducible assumption
    | (with_reducible refine st_p_kept _ _ _ ?_ ?_)
    | (with_reducible refine st_complete_kept _ _ _ _ (Sub.trans (by decide) hw) ?_ )
    | (with_reducible refine st_refuse_kept _ _ _ (Sub.trans (by decide) hw) ?_ )
    | (with_reducible refine st_toHost_kept _ _ _ (Sub.trans (by decide) hw) ?_ )
    | (with_reducible refine csCorrect_kept _ _ _ _ (Sub.trans (by decide) hw) ?_ )
    | with_reducible apply kept_ite
    | (with_reducible refine may_cs (hw.bit (by decide)) _ ?_)
    | decide

theorem execCsVerify_kept (t : Tag) (addr count : Nat) (errs : List (Nat × CsErr)) (s : State)
    (hw : Sub 0x20050000000000000000000000020000 W) (h_s : Kept W s0 s) :
    ∃ t', execCsVerify t addr count errs s = .next t' ∧ Kept W s0 t' := by
  unfold execCsVerify
  refine st_queued_kept _ _ _ _ _ (Sub.trans (by decide) hw) (by assumption) fun s h_s => ?_
  refine ⟨_, rfl, ?_⟩
  try dsimp only
  repeat' first
    | with_reducible assumption
    | intro _
    | (with_reducible refine st_fresh_kept _ (Sub.trans (by decide) hw) ?_ )
    | (with_reducible refine st_inRange_kept _ _ _ _ (Sub.trans (by decide) hw) ?_ ?_ )
    | (with_reducible refine csVerify_kept _ _ _ _ _ (Sub.trans (by decide) hw) ?_ )

theorem execCsDomainWrite_kept (p : Path) (l : List Byte) (s : State)
    (hw : Sub 0x24028300000000000000000000020000 W) (h_s : Kept W s0 s) :
    ∃ t', execCsDomainWrite p l s = .next t' ∧ Kept W s0 t' := by
  unfold execCsDomainWrite
  refine st_served_kept _ _ _ _ (Sub.trans (by decide) hw) (by assumption) fun s h_s => ?_
  refine ⟨_, rfl, ?_⟩
  try dsimp only
  repeat' first
    | with_reducible assumption
    | (with_reducible refine st_putBlob_kept _ _ _ (hw.bit (by decide)) ?_)
    | (with_reducible refine st_emit_kept _ _ (Sub.trans (by decide) hw) ?_ )
    | (with_reducible refine st_fresh_kept _ (Sub.trans (by decide) hw) ?_ )
    | (with_reducible refine csStore_kept _ _ _ (Sub.trans (by decide) hw) ?_ )
    | with_reducible apply kept_ite

end Sys2Proof.Laws
end

