-- ==== Sys2Proof/Laws/KeptSeal.lean ====
section
/-! SUPPORT. One lemma per operation of Machine/Seal.lean: within which mask of parts it keeps the rest; a command's meaning
answers a next state that is so kept. The numeral of a mask has the bits of Area. -/
namespace Sys2Proof.Laws
open Sys2Proof Sys2Proof.Machine
variable {W : Nat} {s0 : State}

theorem st_modCalEnd_kept (s : State) (t : Nat) (hw : Sub 0x800000000000000000000000000000 W) (h_s : Kept W s0 s) :
    Kept W s0 (State.modCalEnd s t) := by
  unfold State.modCalEnd
  try dsimp only
  repeat' first
    | with_reducible assumption
    | with_reducible exact same
    | with_reducible exact mem_same
    | with_reducible exact host_same
    | with_reducible exact flt_same
    | exact .inr (hw.bit (by decide))
    | simp only [kept_mk]
    | with_reducible apply kept_upd

theorem newChallenge_kept (k : Nat) (s : State) (hw : Sub 0x100000000000000000000000000 W) (h_s : Kept W s0 s) :
    Kept W s0 (newChallenge k s) := by
  unfold newChallenge
  try dsimp only
  repeat' first
    | with_reducible assumption
    | (with_reducible refine st_putBlob_kept _ _ _ (hw.bit (by decide)) ?_)
    | (with_reducible refine st_advance_kept _ (Sub.trans (by decide) hw) ?_ )

theorem closeSeal_kept (s : State) (hw : Sub 0x800100000000008000000000000000 W) (h_s : Kept W s0 s) :
    Kept W s0 (closeSeal s) := by
  unfold closeSeal
  try dsimp only
  repeat' first
    | with_reducible assumption
    | (with_reducible refine st_p_kept _ _ _ ?_ ?_)
    | (with_reducible refine st_putBlob_kept _ _ _ (hw.bit (by decide)) ?_)
    | (with_reducible refine st_modCalEnd_kept _ _ (Sub.trans (by decide) hw) ?_ )
    | (with_reducible refine newChallenge_kept _ _ (Sub.trans (by decide) hw) ?_ )
    | with_reducible apply kept_ite
    | (with_reducible refine may_sk (hw.bit (by decide)) _ ?_)
    | decide

theorem sealToken_kept (t : List Byte) (s : State) (hw : Sub 0x4850100000000008000000000000000 W) (h_s : Kept W s0 s) :
    Kept W s0 (sealToken t s).2 := by
  unfold sealToken
  try dsimp only
  repeat' first
    | with_reducible assumption
    | (with_reducible refine st_p_kept _ _ _ ?_ ?_)
    | (with_reducible refine st_putBlob_kept _ _ _ (hw.bit (by decide)) ?_)
    | (with_reducible refine st_cnt32_kept _ _ (Sub.trans (by decide) hw) ?_ ?_ )
    | (with_reducible refine st_raise_kept _ _ (Sub.trans (by decide) hw) ?_ )
    | (with_reducible refine st_persist_kept _ _ (Sub.trans (by decide) hw) ?_ )
    | (with_reducible refine st_modCalEnd_kept _ _ (Sub.trans (by decide) hw) ?_ )
    | (with_reducible refine newChallenge_kept _ _ (Sub.trans (by decide) hw) ?_ )
    | (with_reducible refine may_sk (hw.bit (by decide)) _ ?_)
    | decide
    | split

theorem execSealToken_kept (t : TokenWrite) (s : State) (hw : Sub 0x24878100000000008000000000000000 W) (h_s : Kept W s0 s) :
    ∃ t', execSealToken t s = .next t' ∧ Kept W s0 t' := by
  unfold execSealToken
  refine st_served_kept _ _ _ _ (Sub.trans (by decide) hw) (by assumption) fun s h_s => ?_
  refine ⟨_, rfl, ?_⟩
  try dsimp only
  repeat' first
    | with_reducible assumption
    | (with_reducible refine st_emit_kept _ _ (Sub.trans (by decide) hw) ?_ )
    | (with_reducible refine st_fresh_kept _ (Sub.trans (by decide) hw) ?_ )
    | (with_reducible refine sealToken_kept _ _ (Sub.trans (by decide) hw) ?_ )

theorem execSealClose_kept (v : Bool) (s : State) (hw : Sub 0x20800100000000008000000000000000 W) (h_s : Kept W s0 s) :
    ∃ t', execSealClose v s = .next t' ∧ Kept W s0 t' := by
  unfold execSealClose
  refine st_served_kept _ _ _ _ (Sub.trans (by decide) hw) (by assumption) fun s h_s => ?_
  refine ⟨_, rfl, ?_⟩
  try dsimp only
  repeat' first
    | with_reducible assumption
    | (with_reducible refine st_fresh_kept _ (Sub.trans (by decide) hw) ?_ )
    | (with_reducible refine closeSeal_kept _ (Sub.trans (by decide) hw) ?_ )
    | with_reducible apply kept_ite

theorem execSealDurationExpiry_kept (s : State) (hw : Sub 0x20800100000000008000000000000000 W) (h_s : Kept W s0 s) :
    ∃ t', execSealDurationExpiry s = .next t' ∧ Kept W s0 t' := by
  unfold execSealDurationExpiry
  refine st_served_kept _ _ _ _ (Sub.trans (by decide) hw) (by assumption) fun s h_s => ?_
  refine ⟨_, rfl, ?_⟩
  try dsimp only
  repeat' first
    | with_reducible assumption
    | (with_reducible refine st_fresh_kept _ (Sub.trans (by decide) hw) ?_ )
    | (with_reducible refine closeSeal_kept _ (Sub.trans (by decide) hw) ?_ )
    | with_reducible apply kept_ite

end Sys2Proof.Laws
end

