-- ==== Sys2Proof/Laws/KeptManagement.lean ====
section
/-! SUPPORT. One lemma per operation of Machine/Management.lean: within which mask of parts it keeps the rest; a command's meaning
answers a next state that is so kept. The numeral of a mask has the bits of Area. -/
namespace Sys2Proof.Laws
open Sys2Proof Sys2Proof.Machine
variable {W : Nat} {s0 : State}

theorem zeroise_kept (s : State) (hw : Sub 0x4800100000000008000000000000000 W) (h_s : Kept W s0 s) :
    Kept W s0 (zeroise s) := by
  unfold zeroise
  try dsimp only
  repeat' first
    | with_reducible assumption
    | (with_reducible refine st_p_kept _ _ _ ?_ ?_)
    | (with_reducible refine st_putBlob_kept _ _ _ (hw.bit (by decide)) ?_)
    | (with_reducible refine st_modCalEnd_kept _ _ (Sub.trans (by decide) hw) ?_ )
    | (with_reducible refine newChallenge_kept _ _ (Sub.trans (by decide) hw) ?_ )
    | (with_reducible refine may_sk (hw.bit (by decide)) _ ?_)
    | with_reducible exact same
    | with_reducible exact mem_same
    | with_reducible exact host_same
    | with_reducible exact flt_same
    | exact .inr (hw.bit (by decide))
    | decide
    | simp only [kept_mk]
    | with_reducible apply kept_upd

theorem reloadKey_kept (s : State) (hw : Sub 0x4000000000000000000000000000000 W) (h_s : Kept W s0 s) :
    Kept W s0 (reloadKey s) := by
  unfold reloadKey
  try dsimp only
  repeat' first
    | with_reducible assumption
    | with_reducible exact same
    | with_reducible exact mem_same
    | with_reducible exact host_same
    | with_reducible exact flt_same
    | exact .inr (hw.bit (by decide))
    | simp only [kept_mk]
    | with_reducible apply kept_upd

theorem startImage_kept (s : State) (hw : Sub 0x4000000000000000000000000000000 W) (h_s : Kept W s0 s) :
    Kept W s0 (startImage s) := by
  unfold startImage
  try dsimp only
  repeat' first
    | with_reducible assumption
    | with_reducible exact same
    | with_reducible exact mem_same
    | with_reducible exact host_same
    | with_reducible exact flt_same
    | exact .inr (hw.bit (by decide))
    | simp only [kept_mk]
    | with_reducible apply kept_upd

theorem execLockstepMismatch_kept (s : State) (hw : Sub 0x24840100001000008000000000000000 W) (h_s : Kept W s0 s) :
    ∃ t', execLockstepMismatch s = .next t' ∧ Kept W s0 t' := by
  unfold execLockstepMismatch
  refine st_served_kept _ _ _ _ (Sub.trans (by decide) hw) (by assumption) fun s h_s => ?_
  refine ⟨_, rfl, ?_⟩
  try dsimp only
  repeat' first
    | with_reducible assumption
    | (with_reducible refine st_cnt32_kept _ _ (Sub.trans (by decide) hw) ?_ ?_ )
    | (with_reducible refine st_fresh_kept _ (Sub.trans (by decide) hw) ?_ )
    | (with_reducible refine st_raise_kept _ _ (Sub.trans (by decide) hw) ?_ )
    | (with_reducible refine st_persist_kept _ _ (Sub.trans (by decide) hw) ?_ )
    | (with_reducible refine zeroise_kept _ (Sub.trans (by decide) hw) ?_ )
    | (with_reducible refine reloadKey_kept _ (Sub.trans (by decide) hw) ?_ )
    | (with_reducible refine startImage_kept _ (Sub.trans (by decide) hw) ?_ )
    | (with_reducible refine may_mg (hw.bit (by decide)) _ ?_)
    | decide

theorem spadPut_kept (n rot : Nat) (enA enB : BitVec 4) (a b : BitVec 32) (portB : Bool) (s : State)
    (hw : Sub 0x4000000000000000000000000000000 W) (h_s : Kept W s0 s) :
    Kept W s0 (spadPut n rot enA enB a b portB s) := by
  unfold spadPut
  try dsimp only
  repeat' first
    | with_reducible assumption
    | with_reducible exact same
    | with_reducible exact mem_same
    | with_reducible exact host_same
    | with_reducible exact flt_same
    | exact .inr (hw.bit (by decide))
    | simp only [kept_mk]
    | with_reducible apply kept_upd

theorem spadBoth_kept (k : Fin 4) (w : Fin 8192) (rot : Fin 4) (enA enB : BitVec 4) (a b : BitVec 32) (s : State)
    (hw : Sub 0x4040000002000000000000000000000 W) (h_s : Kept W s0 s) :
    Kept W s0 (spadBoth k w rot enA enB a b s) := by
  unfold spadBoth
  try dsimp only
  repeat' first
    | with_reducible assumption
    | (with_reducible refine st_sat32_kept _ _ (Sub.trans (by decide) hw) ?_ ?_ )
    | (with_reducible refine st_emits_kept _ _ (Sub.trans (by decide) hw) ?_ )
    | (with_reducible refine st_raise_kept _ _ (Sub.trans (by decide) hw) ?_ )
    | (with_reducible refine spadPut_kept _ _ _ _ _ _ _ _ (Sub.trans (by decide) hw) ?_ )
    | with_reducible apply kept_ite
    | (with_reducible refine may_spd (hw.bit (by decide)) _ _ ?_ ?_)
    | exact Fin.isLt _
    | decide

theorem procSpad_kept (off rot : Nat) (en : BitVec 4) (v : BitVec 32) (s : State)
    (hw : Sub 0x4000000000000000000000000000000 W) (h_s : Kept W s0 s) :
    Kept W s0 (procSpad off rot en v s) := by
  unfold procSpad
  try dsimp only
  repeat' first
    | with_reducible assumption
    | (with_reducible refine st_emits_kept _ _ (Sub.trans (by decide) hw) ?_ )
    | (with_reducible refine spadPut_kept _ _ _ _ _ _ _ _ (Sub.trans (by decide) hw) ?_ )

theorem procAccess_kept (machine : Bool) (addr : BitVec 32) (en : BitVec 4) (v : BitVec 32) (s : State)
    (hw : Sub 0x4000000000000000000000000000000 W) (h_s : Kept W s0 s) :
    Kept W s0 (procAccess machine addr en v s) := by
  unfold procAccess
  try dsimp only
  repeat' first
    | with_reducible assumption
    | (with_reducible refine st_advance_kept _ (Sub.trans (by decide) hw) ?_ )
    | (with_reducible refine st_emit_kept _ _ (Sub.trans (by decide) hw) ?_ )
    | (with_reducible refine procSpad_kept _ _ _ _ _ (Sub.trans (by decide) hw) ?_ )
    | with_reducible apply kept_ite
    | with_reducible exact same
    | with_reducible exact mem_same
    | with_reducible exact host_same
    | with_reducible exact flt_same
    | exact .inr (hw.bit (by decide))
    | simp only [kept_mk]
    | with_reducible apply kept_upd

theorem fabricAccess_kept (addr : BitVec 32) (en : BitVec 4) (v : BitVec 32) (s : State)
    (hw : Sub 0x4000000000000000000000000000000 W) (h_s : Kept W s0 s) :
    Kept W s0 (fabricAccess addr en v s) := by
  unfold fabricAccess
  try dsimp only
  repeat' first
    | with_reducible assumption
    | (with_reducible refine st_emits_kept _ _ (Sub.trans (by decide) hw) ?_ )
    | (with_reducible refine spadPut_kept _ _ _ _ _ _ _ _ (Sub.trans (by decide) hw) ?_ )
    | with_reducible apply kept_ite

theorem execSpadCollision_kept (pa pb : Option (BitVec 32)) (machine : Bool) (enA enB : BitVec 4) (a b : BitVec 32) (s : State)
    (hw : Sub 0x24040000002000000000000000000000 W) (h_s : Kept W s0 s) :
    ∃ t', execSpadCollision pa pb machine enA enB a b s = .next t' ∧ Kept W s0 t' := by
  unfold execSpadCollision
  refine st_served_kept _ _ _ _ (Sub.trans (by decide) hw) (by assumption) fun s h_s => ?_
  refine ⟨_, rfl, ?_⟩
  try dsimp only
  repeat' first
    | with_reducible assumption
    | (with_reducible refine st_fresh_kept _ (Sub.trans (by decide) hw) ?_ )
    | (with_reducible refine spadBoth_kept _ _ _ _ _ _ _ _ (Sub.trans (by decide) hw) ?_ )
    | (with_reducible refine procAccess_kept _ _ _ _ _ (Sub.trans (by decide) hw) ?_ )
    | (with_reducible refine fabricAccess_kept _ _ _ _ (Sub.trans (by decide) hw) ?_ )
    | split

theorem st_setSpt_kept (s : State) (k : Fin 4) (x : Spt) (hw : Sub 0x4000000000000000000000000000000 W) (h_s : Kept W s0 s) :
    Kept W s0 (State.setSpt s k x) := by
  unfold State.setSpt
  try dsimp only
  repeat' first
    | with_reducible assumption
    | with_reducible exact same
    | with_reducible exact mem_same
    | with_reducible exact host_same
    | with_reducible exact flt_same
    | exact .inr (hw.bit (by decide))
    | simp only [kept_mk]
    | with_reducible apply kept_upd

theorem sptNext_kept (k : Fin 4) (x : Spt) (s : State) (hw : Sub 0x4000000002000000000000000000000 W) (h_s : Kept W s0 s) :
    Kept W s0 (sptNext k x s) := by
  unfold sptNext
  try dsimp only
  repeat' first
    | with_reducible assumption
    | (with_reducible refine st_cnt32_kept _ _ (Sub.trans (by decide) hw) ?_ ?_ )
    | (with_reducible refine st_setSpt_kept _ _ _ (Sub.trans (by decide) hw) ?_ )
    | (with_reducible refine may_spd (hw.bit (by decide)) _ _ ?_ ?_)
    | exact Fin.isLt _
    | decide
    | split

theorem execScratchpadSelftestChunk_kept (k : Fin 4) (accessed fails : Bool) (s : State)
    (hw : Sub 0x24050000002000000000000000000000 W) (h_s : Kept W s0 s) :
    ∃ t', execScratchpadSelftestChunk k accessed fails s = .next t' ∧ Kept W s0 t' := by
  unfold execScratchpadSelftestChunk
  refine st_served_kept _ _ _ _ (Sub.trans (by decide) hw) (by assumption) fun s h_s => ?_
  refine ⟨_, rfl, ?_⟩
  try dsimp only
  repeat' first
    | with_reducible assumption
    | (with_reducible refine st_sat32_kept _ _ (Sub.trans (by decide) hw) ?_ ?_ )
    | (with_reducible refine st_fresh_kept _ (Sub.trans (by decide) hw) ?_ )
    | (with_reducible refine st_raise_kept _ _ (Sub.trans (by decide) hw) ?_ )
    | (with_reducible refine st_setSpt_kept _ _ _ (Sub.trans (by decide) hw) ?_ )
    | (with_reducible refine sptNext_kept _ _ _ (Sub.trans (by decide) hw) ?_ )
    | with_reducible apply kept_ite
    | (with_reducible refine may_spd (hw.bit (by decide)) _ _ ?_ ?_)
    | exact Fin.isLt _
    | decide

theorem limitCheck_kept (key src : Nat) (outside : Bool) (s : State)
    (hw : Sub 0x40c0000000000000000000000000000 W) (h_s : Kept W s0 s) :
    Kept W s0 (limitCheck key src outside s) := by
  unfold limitCheck
  try dsimp only
  repeat' first
    | with_reducible assumption
    | (with_reducible refine st_activate_kept _ _ _ _ (Sub.trans (by decide) hw) ?_ )
    | (with_reducible refine st_deactivate_kept _ _ (Sub.trans (by decide) hw) ?_ )
    | with_reducible apply kept_ite
    | with_reducible exact same
    | with_reducible exact mem_same
    | with_reducible exact host_same
    | with_reducible exact flt_same
    | exact .inr (hw.bit (by decide))
    | simp only [kept_mk]
    | with_reducible apply kept_upd

theorem execFaultCheckConversion_kept (x : Sensor) (v : Int) (s : State)
    (hw : Sub 0x240c0000000000000000000000000000 W) (h_s : Kept W s0 s) :
    ∃ t', execFaultCheckConversion x v s = .next t' ∧ Kept W s0 t' := by
  unfold execFaultCheckConversion
  refine st_served_kept _ _ _ _ (Sub.trans (by decide) hw) (by assumption) fun s h_s => ?_
  refine ⟨_, rfl, ?_⟩
  try dsimp only
  repeat' first
    | with_reducible assumption
    | (with_reducible refine st_fresh_kept _ (Sub.trans (by decide) hw) ?_ )
    | (with_reducible refine limitCheck_kept _ _ _ _ (Sub.trans (by decide) hw) ?_ )
    | split

theorem execTelemetryConversion_kept (x : Sensor) (v : Int) (s : State)
    (hw : Sub 0x24000000038000000000000000000000 W) (h_s : Kept W s0 s) :
    ∃ t', execTelemetryConversion x v s = .next t' ∧ Kept W s0 t' := by
  unfold execTelemetryConversion
  refine st_served_kept _ _ _ _ (Sub.trans (by decide) hw) (by assumption) fun s h_s => ?_
  refine ⟨_, rfl, ?_⟩
  try dsimp only
  repeat' first
    | with_reducible assumption
    | (with_reducible refine st_p_kept _ _ _ ?_ ?_)
    | (with_reducible refine st_fresh_kept _ (Sub.trans (by decide) hw) ?_ )
    | (with_reducible refine may_rl (hw.bit (by decide)) _ _ ?_ ?_)
    | (with_reducible refine may_th (hw.bit (by decide)) _ _ ?_ ?_)
    | (with_reducible refine may_vi (hw.bit (by decide)) _ ?_)
    | with_reducible exact same
    | with_reducible exact mem_same
    | with_reducible exact host_same
    | with_reducible exact flt_same
    | exact .inr (hw.bit (by decide))
    | exact Fin.isLt _
    | decide
    | simp only [kept_mk]
    | with_reducible apply kept_upd
    | split

theorem spaceCheck_kept (s : State) (hw : Sub 0xc0000040000000000000000000000 W) (h_s : Kept W s0 s) :
    Kept W s0 (spaceCheck s) := by
  unfold spaceCheck
  try dsimp only
  repeat' first
    | with_reducible assumption
    | (with_reducible refine st_p_kept _ _ _ ?_ ?_)
    | (with_reducible refine st_activate_kept _ _ _ _ (Sub.trans (by decide) hw) ?_ )
    | (with_reducible refine st_deactivate_kept _ _ (Sub.trans (by decide) hw) ?_ )
    | with_reducible apply kept_ite
    | (with_reducible refine may_nr (hw.bit (by decide)) _ ?_)
    | decide

theorem dieLost_kept (d : Fin 2) (s : State) (hw : Sub 0xc0000040000000000000000000000 W) (h_s : Kept W s0 s) :
    Kept W s0 (dieLost d s) := by
  unfold dieLost
  try dsimp only
  repeat' first
    | with_reducible assumption
    | (with_reducible refine st_p_kept _ _ _ ?_ ?_)
    | (with_reducible refine st_activate_kept _ _ _ _ (Sub.trans (by decide) hw) ?_ )
    | with_reducible apply kept_ite
    | (with_reducible refine may_nr (hw.bit (by decide)) _ ?_)
    | decide

theorem execNorProgramDone_kept (e : NorEnd) (s : State) (hw : Sub 0x240c0000040000000000000000000000 W) (h_s : Kept W s0 s) :
    ∃ t', execNorProgramDone e s = .next t' ∧ Kept W s0 t' := by
  unfold execNorProgramDone
  refine st_served_kept _ _ _ _ (Sub.trans (by decide) hw) (by assumption) fun s h_s => ?_
  refine st_served_kept _ _ _ _ (Sub.trans (by decide) hw) (by assumption) fun s h_s => ?_
  refine ⟨_, rfl, ?_⟩
  try dsimp only
  repeat' first
    | with_reducible assumption
    | (with_reducible refine st_count_kept _ _ _ (Sub.trans (by decide) hw) ?_ ?_ )
    | (with_reducible refine st_fresh_kept _ (Sub.trans (by decide) hw) ?_ )
    | (with_reducible refine spaceCheck_kept _ (Sub.trans (by decide) hw) ?_ )
    | (with_reducible refine dieLost_kept _ _ (Sub.trans (by decide) hw) ?_ )
    | (with_reducible refine may_nr (hw.bit (by decide)) _ ?_)
    | with_reducible exact same
    | with_reducible exact mem_same
    | with_reducible exact host_same
    | with_reducible exact flt_same
    | exact .inr (hw.bit (by decide))
    | decide
    | simp only [kept_mk]
    | with_reducible apply kept_upd
    | split

theorem execEraseSuspend_kept (resume : Bool) (s : State) (hw : Sub 0x24000000000000000000000000000000 W) (h_s : Kept W s0 s) :
    ∃ t', execEraseSuspend resume s = .next t' ∧ Kept W s0 t' := by
  unfold execEraseSuspend
  refine st_served_kept _ _ _ _ (Sub.trans (by decide) hw) (by assumption) fun s h_s => ?_
  refine st_served_kept _ _ _ _ (Sub.trans (by decide) hw) (by assumption) fun s h_s => ?_
  refine ⟨_, rfl, ?_⟩
  try dsimp only
  repeat' first
    | with_reducible assumption
    | (with_reducible refine st_fresh_kept _ (Sub.trans (by decide) hw) ?_ )
    | with_reducible exact same
    | with_reducible exact mem_same
    | with_reducible exact host_same
    | with_reducible exact flt_same
    | exact .inr (hw.bit (by decide))
    | simp only [kept_mk]
    | with_reducible apply kept_upd
    | split

theorem execJournalBudget_kept (s : State) (hw : Sub 0x24040000000000000000000000000000 W) (h_s : Kept W s0 s) :
    ∃ t', execJournalBudget s = .next t' ∧ Kept W s0 t' := by
  unfold execJournalBudget
  refine st_served_kept _ _ _ _ (Sub.trans (by decide) hw) (by assumption) fun s h_s => ?_
  refine ⟨_, rfl, ?_⟩
  try dsimp only
  repeat' first
    | with_reducible assumption
    | (with_reducible refine st_fresh_kept _ (Sub.trans (by decide) hw) ?_ )
    | (with_reducible refine st_raise_kept _ _ (Sub.trans (by decide) hw) ?_ )
    | with_reducible apply kept_ite
    | with_reducible exact same
    | with_reducible exact mem_same
    | with_reducible exact host_same
    | with_reducible exact flt_same
    | exact .inr (hw.bit (by decide))
    | simp only [kept_mk]
    | with_reducible apply kept_upd

theorem freeSectors_kept (from_ : Nat) (s : State) (hw : Sub 0x4000000000000000000000000000000 W) (h_s : Kept W s0 s) :
    Kept W s0 (freeSectors from_ s) := by
  unfold freeSectors
  try dsimp only
  repeat' first
    | with_reducible assumption
    | with_reducible exact same
    | with_reducible exact mem_same
    | with_reducible exact host_same
    | with_reducible exact flt_same
    | exact .inr (hw.bit (by decide))
    | simp only [kept_mk]
    | with_reducible apply kept_upd

theorem checkpoint_kept (s : State) (hw : Sub 0x40c0000040000000000000000000000 W) (h_s : Kept W s0 s) :
    Kept W s0 (checkpoint s) := by
  unfold checkpoint
  try dsimp only
  repeat' first
    | with_reducible assumption
    | (with_reducible refine st_append_kept _ _ _ (Sub.trans (by decide) hw) ?_ )
    | (with_reducible refine spaceCheck_kept _ (Sub.trans (by decide) hw) ?_ )
    | (with_reducible refine freeSectors_kept _ _ (Sub.trans (by decide) hw) ?_ )
    | with_reducible exact same
    | with_reducible exact mem_same
    | with_reducible exact host_same
    | with_reducible exact flt_same
    | exact .inr (hw.bit (by decide))
    | simp only [kept_mk]
    | with_reducible apply kept_upd

theorem norBack_kept (s : State) (hw : Sub 0x4000000000000000000000000000000 W) (h_s : Kept W s0 s) :
    Kept W s0 (norBack s) := by
  unfold norBack
  try dsimp only
  repeat' first
    | with_reducible assumption
    | with_reducible exact same
    | with_reducible exact mem_same
    | with_reducible exact host_same
    | with_reducible exact flt_same
    | exact .inr (hw.bit (by decide))
    | simp only [kept_mk]
    | with_reducible apply kept_upd

theorem execCompaction_kept (why : Compact) (s : State) (hw : Sub 0x240c0000040000000000000000000000 W) (h_s : Kept W s0 s) :
    ∃ t', execCompaction why s = .next t' ∧ Kept W s0 t' := by
  unfold execCompaction
  refine st_served_kept _ _ _ _ (Sub.trans (by decide) hw) (by assumption) fun s h_s => ?_
  refine st_served_kept _ _ _ _ (Sub.trans (by decide) hw) (by assumption) fun s h_s => ?_
  refine ⟨_, rfl, ?_⟩
  try dsimp only
  repeat' first
    | with_reducible assumption
    | (with_reducible refine st_fresh_kept _ (Sub.trans (by decide) hw) ?_ )
    | (with_reducible refine checkpoint_kept _ (Sub.trans (by decide) hw) ?_ )
    | (with_reducible refine norBack_kept _ (Sub.trans (by decide) hw) ?_ )
    | with_reducible apply kept_ite

theorem execNorScrub_kept (f : ScrubFind) (s : State) (hw : Sub 0x240c0000040000000000000000000000 W) (h_s : Kept W s0 s) :
    ∃ t', execNorScrub f s = .next t' ∧ Kept W s0 t' := by
  unfold execNorScrub
  refine st_served_kept _ _ _ _ (Sub.trans (by decide) hw) (by assumption) fun s h_s => ?_
  refine st_served_kept _ _ _ _ (Sub.trans (by decide) hw) (by assumption) fun s h_s => ?_
  refine ⟨_, rfl, ?_⟩
  try dsimp only
  repeat' first
    | with_reducible assumption
    | (with_reducible refine st_fresh_kept _ (Sub.trans (by decide) hw) ?_ )
    | (with_reducible refine checkpoint_kept _ (Sub.trans (by decide) hw) ?_ )
    | (with_reducible refine norBack_kept _ (Sub.trans (by decide) hw) ?_ )
    | split

theorem st_setSlot_kept (s : State) (j : Fin 2) (x : FwSlot) (hw : Sub 0x4000000000000000000000000000000 W) (h_s : Kept W s0 s) :
    Kept W s0 (State.setSlot s j x) := by
  unfold State.setSlot
  try dsimp only
  repeat' first
    | with_reducible assumption
    | with_reducible exact same
    | with_reducible exact mem_same
    | with_reducible exact host_same
    | with_reducible exact flt_same
    | exact .inr (hw.bit (by decide))
    | simp only [kept_mk]
    | with_reducible apply kept_upd

theorem setSlotState_kept (j : Fin 2) (v : Nat) (s : State) (hw : Sub 0x80000000000000000000000 W) (_h_s : Kept W s0 s) :
    Kept W s0 (setSlotState j v s) := by
  unfold setSlotState
  try dsimp only
  repeat' first
    | (with_reducible refine st_p_kept _ _ _ ?_ ?_)
    | (with_reducible refine may_fwm (hw.bit (by decide)) _ ?_)
    | omega

theorem fwLog_kept (cmd version : Nat) (s : State) (hw : Sub 0x4000000000000000000000000000000 W) (h_s : Kept W s0 s) :
    Kept W s0 (fwLog cmd version s) := by
  unfold fwLog
  try dsimp only
  repeat' first
    | with_reducible assumption
    | (with_reducible refine st_logEv_kept _ _ (Sub.trans (by decide) hw) ?_ )

theorem fwBegin_kept (s : State) (hw : Sub 0x4000000080000000000000000000000 W) (_h_s : Kept W s0 s) :
    Kept W s0 (fwBegin s).2 := by
  unfold fwBegin
  try dsimp only
  repeat' first
    | (with_reducible refine st_p_kept _ _ _ ?_ ?_)
    | (with_reducible refine st_setSlot_kept _ _ _ (Sub.trans (by decide) hw) ?_ )
    | (with_reducible refine setSlotState_kept _ _ _ (Sub.trans (by decide) hw) ?_ )
    | (with_reducible refine may_fwm (hw.bit (by decide)) _ ?_)
    | omega
    | split

theorem fwEnd_kept (img : List Byte) (s : State) (hw : Sub 0x4000000080000000000000000000000 W) (_h_s : Kept W s0 s) :
    Kept W s0 (fwEnd img s).2 := by
  unfold fwEnd
  try dsimp only
  repeat' first
    | (with_reducible refine st_p_kept _ _ _ ?_ ?_)
    | (with_reducible refine st_setSlot_kept _ _ _ (Sub.trans (by decide) hw) ?_ )
    | (with_reducible refine setSlotState_kept _ _ _ (Sub.trans (by decide) hw) ?_ )
    | (with_reducible refine may_fwm (hw.bit (by decide)) _ ?_)
    | omega

theorem confirm_kept (s : State) (hw : Sub 0x4000004080000000000000000000000 W) (h_s : Kept W s0 s) :
    Kept W s0 (confirm s) := by
  unfold confirm
  try dsimp only
  repeat' first
    | with_reducible assumption
    | (with_reducible refine st_p_kept _ _ _ ?_ ?_)
    | (with_reducible refine setSlotState_kept _ _ _ (Sub.trans (by decide) hw) ?_ )
    | with_reducible apply kept_ite
    | (with_reducible refine may_fwm (hw.bit (by decide)) _ ?_)
    | (with_reducible refine may_rk (hw.bit (by decide)) _ ?_)
    | with_reducible exact same
    | with_reducible exact mem_same
    | with_reducible exact host_same
    | with_reducible exact flt_same
    | exact .inr (hw.bit (by decide))
    | decide
    | simp only [kept_mk]
    | with_reducible apply kept_upd

theorem fwEffect_kept (cmd : Nat) (s : State) (hw : Sub 0x4000004080000000000000000000000 W) (_h_s : Kept W s0 s) :
    ∀ r, fwEffect cmd s = some r → Kept W s0 r := by
  intro r hr
  unfold fwEffect at hr
  try dsimp only at hr
  repeat' split at hr
  all_goals first
    | (cases hr; done)
    | (simp only [Option.some.injEq] at hr; subst hr; try dsimp only)
  all_goals repeat' first
    | (with_reducible refine st_p_kept _ _ _ ?_ ?_)
    | (with_reducible refine st_setSlot_kept _ _ _ (Sub.trans (by decide) hw) ?_ )
    | (with_reducible refine setSlotState_kept _ _ _ (Sub.trans (by decide) hw) ?_ )
    | (with_reducible refine fwLog_kept _ _ _ (Sub.trans (by decide) hw) ?_ )
    | (with_reducible refine confirm_kept _ (Sub.trans (by decide) hw) ?_ )
    | (with_reducible refine may_fwm (hw.bit (by decide)) _ ?_)
    | omega

theorem fwCmd_kept (cmd : Nat) (s : State) (hw : Sub 0x4000004080000000000000000000000 W) (h_s : Kept W s0 s) :
    Kept W s0 (fwCmd cmd s).2 := by
  unfold fwCmd
  try dsimp only
  repeat' first
    | with_reducible assumption
    | (with_reducible refine st_p_kept _ _ _ ?_ ?_)
    | (with_reducible refine fwEffect_kept _ _ (Sub.trans (by decide) hw) ?_ _ (by assumption))
    | (with_reducible refine may_fwm (hw.bit (by decide)) _ ?_)
    | decide
    | split

theorem execActivate_kept (s : State) (hw : Sub 0x240c0004080000000000000000000000 W) (h_s : Kept W s0 s) :
    ∃ t', execActivate s = .next t' ∧ Kept W s0 t' := by
  unfold execActivate
  refine st_served_kept _ _ _ _ (Sub.trans (by decide) hw) (by assumption) fun s h_s => ?_
  refine ⟨_, rfl, ?_⟩
  try dsimp only
  repeat' first
    | with_reducible assumption
    | (with_reducible refine st_fresh_kept _ (Sub.trans (by decide) hw) ?_ )
    | (with_reducible refine fwCmd_kept _ _ (Sub.trans (by decide) hw) ?_ )

theorem execConfirm_kept (s : State) (hw : Sub 0x24000004080000000000000000000000 W) (h_s : Kept W s0 s) :
    ∃ t', execConfirm s = .next t' ∧ Kept W s0 t' := by
  unfold execConfirm
  refine st_served_kept _ _ _ _ (Sub.trans (by decide) hw) (by assumption) fun s h_s => ?_
  refine ⟨_, rfl, ?_⟩
  try dsimp only
  repeat' first
    | with_reducible assumption
    | (with_reducible refine st_fresh_kept _ (Sub.trans (by decide) hw) ?_ )
    | (with_reducible refine fwCmd_kept _ _ (Sub.trans (by decide) hw) ?_ )

theorem execCancel_kept (s : State) (hw : Sub 0x24000004080000000000000000000000 W) (h_s : Kept W s0 s) :
    ∃ t', execCancel s = .next t' ∧ Kept W s0 t' := by
  unfold execCancel
  refine st_served_kept _ _ _ _ (Sub.trans (by decide) hw) (by assumption) fun s h_s => ?_
  refine ⟨_, rfl, ?_⟩
  try dsimp only
  repeat' first
    | with_reducible assumption
    | (with_reducible refine st_fresh_kept _ (Sub.trans (by decide) hw) ?_ )
    | (with_reducible refine fwCmd_kept _ _ (Sub.trans (by decide) hw) ?_ )

theorem execErase_kept (s : State) (hw : Sub 0x24000004080000000000000000000000 W) (h_s : Kept W s0 s) :
    ∃ t', execErase s = .next t' ∧ Kept W s0 t' := by
  unfold execErase
  refine st_served_kept _ _ _ _ (Sub.trans (by decide) hw) (by assumption) fun s h_s => ?_
  refine ⟨_, rfl, ?_⟩
  try dsimp only
  repeat' first
    | with_reducible assumption
    | (with_reducible refine st_fresh_kept _ (Sub.trans (by decide) hw) ?_ )
    | (with_reducible refine fwCmd_kept _ _ (Sub.trans (by decide) hw) ?_ )

theorem trialFailed_kept (j : Fin 2) (s : State) (hw : Sub 0x40000080000000000000000000000 W) (h_s : Kept W s0 s) :
    Kept W s0 (trialFailed j s) := by
  unfold trialFailed
  try dsimp only
  repeat' first
    | with_reducible assumption
    | (with_reducible refine st_raise_kept _ _ (Sub.trans (by decide) hw) ?_ )
    | (with_reducible refine setSlotState_kept _ _ _ (Sub.trans (by decide) hw) ?_ )

theorem execConfirmWindowExpiry_kept (s : State) (hw : Sub 0x24040000080000000000000000000000 W) (h_s : Kept W s0 s) :
    ∃ t', execConfirmWindowExpiry s = .next t' ∧ Kept W s0 t' := by
  unfold execConfirmWindowExpiry
  refine st_served_kept _ _ _ _ (Sub.trans (by decide) hw) (by assumption) fun s h_s => ?_
  refine ⟨_, rfl, ?_⟩
  try dsimp only
  repeat' first
    | with_reducible assumption
    | (with_reducible refine st_fresh_kept _ (Sub.trans (by decide) hw) ?_ )
    | (with_reducible refine trialFailed_kept _ _ (Sub.trans (by decide) hw) ?_ )
    | with_reducible exact same
    | with_reducible exact mem_same
    | with_reducible exact host_same
    | with_reducible exact flt_same
    | exact .inr (hw.bit (by decide))
    | simp only [kept_mk]
    | with_reducible apply kept_upd
    | split

theorem rollbackSealed_kept (s : State) (hw : Sub 0x4868000000000000000000000000004 W) (h_s : Kept W s0 s) :
    Kept W s0 (rollbackSealed s) := by
  unfold rollbackSealed
  try dsimp only
  repeat' first
    | with_reducible assumption
    | intro _
    | (with_reducible refine answer_kept _ _ _ _ _ _ (Sub.trans (by decide) hw) ?_ )
    | (with_reducible refine rollbackAll_kept _ _ (Sub.trans (by decide) hw) ?_ )
    | with_reducible apply kept_foldl
    | with_reducible exact same
    | with_reducible exact mem_same
    | with_reducible exact host_same
    | with_reducible exact flt_same
    | exact .inr (hw.bit (by decide))
    | simp only [kept_mk]
    | with_reducible apply kept_upd
    | split

theorem wipe_kept (s : State) (hw : Sub 0x4000000000000000000000000000000 W) (h_s : Kept W s0 s) :
    Kept W s0 (wipe s) := by
  unfold wipe
  try dsimp only
  repeat' first
    | with_reducible assumption
    | (with_reducible refine st_append_kept _ _ _ (Sub.trans (by decide) hw) ?_ )
    | with_reducible exact same
    | with_reducible exact mem_same
    | with_reducible exact host_same
    | with_reducible exact flt_same
    | exact .inr (hw.bit (by decide))
    | simp only [kept_mk]
    | with_reducible apply kept_upd

theorem lcTransit_kept (to_ : Nat) (s : State) (hw : Sub 0x4868101000000008000000000000004 W) (h_s : Kept W s0 s) :
    Kept W s0 (lcTransit to_ s) := by
  unfold lcTransit
  try dsimp only
  repeat' first
    | with_reducible assumption
    | (with_reducible refine st_p_kept _ _ _ ?_ ?_)
    | (with_reducible refine st_logEv_kept _ _ (Sub.trans (by decide) hw) ?_ )
    | (with_reducible refine st_publish_kept _ _ _ _ _ _ (Sub.trans (by decide) hw) ?_ ?_ )
    | (with_reducible refine zeroise_kept _ (Sub.trans (by decide) hw) ?_ )
    | (with_reducible refine rollbackSealed_kept _ (Sub.trans (by decide) hw) ?_ )
    | (with_reducible refine wipe_kept _ (Sub.trans (by decide) hw) ?_ )
    | (with_reducible refine may_lcy (hw.bit (by decide)) _ ?_)
    | decide

theorem lcToken_kept (t : List Byte) (s : State) (hw : Sub 0x4868101000000008000000000000004 W) (h_s : Kept W s0 s) :
    Kept W s0 (lcToken t s).2 := by
  unfold lcToken
  try dsimp only
  repeat' first
    | with_reducible assumption
    | (with_reducible refine st_p_kept _ _ _ ?_ ?_)
    | (with_reducible refine st_raise_kept _ _ (Sub.trans (by decide) hw) ?_ )
    | (with_reducible refine newChallenge_kept _ _ (Sub.trans (by decide) hw) ?_ )
    | (with_reducible refine lcTransit_kept _ _ (Sub.trans (by decide) hw) ?_ )
    | (with_reducible refine may_lcy (hw.bit (by decide)) _ ?_)
    | decide
    | split

theorem execLcToken_kept (t : List Byte) (s : State) (hw : Sub 0x24868101000000008000000000000004 W) (h_s : Kept W s0 s) :
    ∃ t', execLcToken t s = .next t' ∧ Kept W s0 t' := by
  unfold execLcToken
  refine st_served_kept _ _ _ _ (Sub.trans (by decide) hw) (by assumption) fun s h_s => ?_
  refine ⟨_, rfl, ?_⟩
  try dsimp only
  repeat' first
    | with_reducible assumption
    | (with_reducible refine st_fresh_kept _ (Sub.trans (by decide) hw) ?_ )
    | (with_reducible refine lcToken_kept _ _ (Sub.trans (by decide) hw) ?_ )

theorem sealKey_kept (k : List Byte) (s : State) (hw : Sub 0x4000002000000000000000000000000 W) (h_s : Kept W s0 s) :
    Kept W s0 (sealKey k s).2 := by
  unfold sealKey
  try dsimp only
  repeat' first
    | with_reducible assumption
    | (with_reducible refine st_p_kept _ _ _ ?_ ?_)
    | (with_reducible refine may_kk (hw.bit (by decide)) _ ?_)
    | with_reducible exact same
    | with_reducible exact mem_same
    | with_reducible exact host_same
    | with_reducible exact flt_same
    | exact .inr (hw.bit (by decide))
    | decide
    | simp only [kept_mk]
    | with_reducible apply kept_upd
    | split

theorem execSealKey_kept (k : List Byte) (s : State) (hw : Sub 0x24000002000000000000000000000000 W) (h_s : Kept W s0 s) :
    ∃ t', execSealKey k s = .next t' ∧ Kept W s0 t' := by
  unfold execSealKey
  refine st_served_kept _ _ _ _ (Sub.trans (by decide) hw) (by assumption) fun s h_s => ?_
  refine ⟨_, rfl, ?_⟩
  try dsimp only
  repeat' first
    | with_reducible assumption
    | (with_reducible refine st_fresh_kept _ (Sub.trans (by decide) hw) ?_ )
    | (with_reducible refine sealKey_kept _ _ (Sub.trans (by decide) hw) ?_ )

theorem execKeyWindowExpiry_kept (s : State) (hw : Sub 0x20000002000000000000000000000000 W) (h_s : Kept W s0 s) :
    ∃ t', execKeyWindowExpiry s = .next t' ∧ Kept W s0 t' := by
  unfold execKeyWindowExpiry
  refine st_served_kept _ _ _ _ (Sub.trans (by decide) hw) (by assumption) fun s h_s => ?_
  refine ⟨_, rfl, ?_⟩
  try dsimp only
  repeat' first
    | with_reducible assumption
    | (with_reducible refine st_p_kept _ _ _ ?_ ?_)
    | (with_reducible refine st_fresh_kept _ (Sub.trans (by decide) hw) ?_ )
    | with_reducible apply kept_ite
    | (with_reducible refine may_kk (hw.bit (by decide)) _ ?_)
    | decide

theorem tamper_kept (s : State) (hw : Sub 0x4868103000000008000000000000004 W) (h_s : Kept W s0 s) :
    Kept W s0 (tamper s) := by
  unfold tamper
  try dsimp only
  repeat' first
    | with_reducible assumption
    | (with_reducible refine st_p_kept _ _ _ ?_ ?_)
    | (with_reducible refine st_cnt32_kept _ _ (Sub.trans (by decide) hw) ?_ ?_ )
    | (with_reducible refine st_raise_kept _ _ (Sub.trans (by decide) hw) ?_ )
    | (with_reducible refine st_logSrc_kept _ _ (Sub.trans (by decide) hw) ?_ )
    | (with_reducible refine st_persist_kept _ _ (Sub.trans (by decide) hw) ?_ )
    | (with_reducible refine zeroise_kept _ (Sub.trans (by decide) hw) ?_ )
    | (with_reducible refine rollbackSealed_kept _ (Sub.trans (by decide) hw) ?_ )
    | (with_reducible refine wipe_kept _ (Sub.trans (by decide) hw) ?_ )
    | (with_reducible refine may_kk (hw.bit (by decide)) _ ?_)
    | (with_reducible refine may_lcy (hw.bit (by decide)) _ ?_)
    | decide

theorem execTamper_kept (s : State) (hw : Sub 0x4868103000000008000000000000004 W) (h_s : Kept W s0 s) :
    ∃ t', execTamper s = .next t' ∧ Kept W s0 t' := by
  unfold execTamper
  refine ⟨_, rfl, ?_⟩
  try dsimp only
  repeat' first
    | with_reducible assumption
    | (with_reducible refine st_fresh_kept _ (Sub.trans (by decide) hw) ?_ )
    | (with_reducible refine tamper_kept _ (Sub.trans (by decide) hw) ?_ )
    | with_reducible apply kept_ite

theorem execTamperRelease_kept (s : State) (hw : Sub 0x1000000000000000000000000 W) (h_s : Kept W s0 s) :
    ∃ t', execTamperRelease s = .next t' ∧ Kept W s0 t' := by
  unfold execTamperRelease
  refine ⟨_, rfl, ?_⟩
  try dsimp only
  repeat' first
    | with_reducible assumption
    | (with_reducible refine st_p_kept _ _ _ ?_ ?_)
    | (with_reducible refine st_fresh_kept _ (Sub.trans (by decide) hw) ?_ )
    | (with_reducible refine may_lcy (hw.bit (by decide)) _ ?_)
    | decide

end Sys2Proof.Laws
end

