-- ==== Sys2Proof/Laws/KeptFrames.lean ====
section
/-! SUPPORT. One lemma per operation of Machine/Frames.lean: within which mask of parts it keeps the rest; a command's meaning
answers a next state that is so kept. The numeral of a mask has the bits of Area. -/
namespace Sys2Proof.Laws
open Sys2Proof Sys2Proof.Machine
variable {W : Nat} {s0 : State}

theorem frameCounted_kept (i : SiteId) (f : Frame) (rest : List Frame) (s : State)
    (hw : Sub 0x2000000000000000001000010000 W) (h_s : Kept W s0 s) :
    Kept W s0 (frameCounted i f rest s) := by
  unfold frameCounted
  try dsimp only
  repeat' first
    | with_reducible assumption
    | (with_reducible refine st_p_kept _ _ _ ?_ ?_)
    | (with_reducible refine st_cnt32_kept _ _ (Sub.trans (by decide) hw) ?_ ?_ )
    | (with_reducible refine st_setSite_kept _ _ _ (Sub.trans (by decide) hw) ?_ )
    | (with_reducible refine waitLog_kept _ _ _ _ (Sub.trans (by decide) hw) ?_ )
    | (with_reducible refine may_fr (hw.bit (by decide)) _ _ ?_ ?_)
    | (with_reducible refine may_st (hw.bit (by decide)) _ _ ?_ ?_)
    | exact Fin.isLt _
    | decide
    | split

theorem markFrame_kept (i : SiteId) (f : Frame) (s : State) (hw : Sub 0x2000000000000000000000000000 W) (h_s : Kept W s0 s) :
    Kept W s0 (markFrame i f s) := by
  unfold markFrame
  try dsimp only
  repeat' first
    | with_reducible assumption
    | (with_reducible refine st_modSite_kept _ _ _ (Sub.trans (by decide) hw) ?_ )
    | (with_reducible refine changeMarks_kept _ _ _ _ _ (Sub.trans (by decide) hw) ?_ )
    | (with_reducible refine flushMk_kept _ _ _ (Sub.trans (by decide) hw) ?_ )

theorem takeFrame_kept (i : SiteId) (s : State) (hw : Sub 0xbe2000000000000030489080410080 W) (h_s : Kept W s0 s) :
    Kept W s0 (takeFrame i s) := by
  unfold takeFrame
  try dsimp only
  repeat' first
    | with_reducible assumption
    | intro _
    | (with_reducible refine st_p_kept _ _ _ ?_ ?_)
    | (with_reducible refine st_modSite_kept _ _ _ (Sub.trans (by decide) hw) ?_ )
    | (with_reducible refine tmuFrameTaken_kept _ _ _ _ (Sub.trans (by decide) hw) ?_ )
    | (with_reducible refine wFrameTaken_kept _ _ _ (Sub.trans (by decide) hw) ?_ )
    | (with_reducible refine driveReady_kept _ _ (Sub.trans (by decide) hw) ?_ )
    | (with_reducible refine eaveTaken_kept _ _ _ (Sub.trans (by decide) hw) ?_ )
    | (with_reducible refine parkRaise_kept _ _ _ _ (Sub.trans (by decide) hw) ?_ )
    | (with_reducible refine frameCounted_kept _ _ _ _ (Sub.trans (by decide) hw) ?_ )
    | (with_reducible refine markFrame_kept _ _ _ (Sub.trans (by decide) hw) ?_ )
    | with_reducible apply kept_foldl
    | (with_reducible refine may_ch (hw.bit (by decide)) _ _ ?_ ?_)
    | exact Fin.isLt _
    | decide
    | split

theorem execFrameTake_kept (i : SiteId) (s : State) (hw : Sub 0xbe2000000000000030489080410080 W) (h_s : Kept W s0 s) :
    ∃ t', execFrameTake i s = .next t' ∧ Kept W s0 t' := by
  unfold execFrameTake
  refine ⟨_, rfl, ?_⟩
  try dsimp only
  repeat' first
    | with_reducible assumption
    | intro _
    | (with_reducible refine st_fresh_kept _ (Sub.trans (by decide) hw) ?_ )
    | (with_reducible refine st_timed_kept _ _ (Sub.trans (by decide) hw) ?_ ?_ )
    | (with_reducible refine takeFrame_kept _ _ (Sub.trans (by decide) hw) ?_ )
    | with_reducible apply kept_ite

end Sys2Proof.Laws
end

