-- ==== Sys2Proof/Laws/KeptSiteCtl.lean ====
section
/-! SUPPORT. One lemma per operation of Machine/SiteCtl.lean: within which mask of parts it keeps the rest; a command's meaning
answers a next state that is so kept. The numeral of a mask has the bits of Area. -/
namespace Sys2Proof.Laws
open Sys2Proof Sys2Proof.Machine
variable {W : Nat} {s0 : State}

theorem may_cleared {i : SiteId} {k : Nat} (h : ∀ j ∈ [Area.st, Area.sr, Area.md, Area.se, Area.fr, Area.ff, Area.lc], W.testBit j = true)
    (hk : k ∈ armCleared i) : May W k := by
  have hi := i.isLt
  simp only [armCleared, List.mem_append, List.mem_cons, List.not_mem_nil, or_false, List.mem_map, List.mem_range] at hk
  rcases hk with (hk | ⟨j, hj, rfl⟩) | ⟨j, hj, rfl⟩
  · rcases hk with rfl | rfl | rfl | rfl | rfl | rfl | rfl | rfl | rfl | rfl | rfl | rfl | rfl | rfl | rfl | rfl | rfl | rfl | rfl |
      rfl | rfl | rfl | rfl | rfl | rfl | rfl | rfl | rfl | rfl | rfl | rfl | rfl
    all_goals first
      | with_reducible exact may_st (h _ (by decide)) _ _ hi (by decide)
      | with_reducible exact may_sr (h _ (by decide)) _ _ hi (by decide)
      | with_reducible exact may_md (h _ (by decide)) _ _ hi (by decide)
      | with_reducible exact may_se (h _ (by decide)) _ _ hi (by decide)
      | with_reducible exact may_fr (h _ (by decide)) _ _ hi (by decide)
      | with_reducible exact may_ff (h _ (by decide)) _ _ hi (by decide)
  · exact may_ff (h _ (by decide)) _ _ hi (by omega)
  · exact may_lc (h _ (by decide)) _ _ hi (by omega)

theorem armCheck_kept (i : SiteId) (s : State) (hw : Sub 0x10000000 W) (h_s : Kept W s0 s) :
    Kept W s0 (armCheck i s).2 := by
  unfold armCheck
  try dsimp only
  repeat' first
    | with_reducible assumption
    | (with_reducible refine st_p_kept _ _ _ ?_ ?_)
    | (with_reducible refine may_rf (hw.bit (by decide)) _ ?_)
    | decide
    | split

theorem takeRef_kept (i : SiteId) (s : State) (r : Bool × Nat) (hw : Sub 0x2c00000000000000000200000000 W) (h_s : Kept W s0 s) :
    Kept W s0 (takeRef i s r) := by
  unfold takeRef
  try dsimp only
  repeat' first
    | with_reducible assumption
    | (with_reducible refine st_p_kept _ _ _ ?_ ?_)
    | (with_reducible refine st_modSite_kept _ _ _ (Sub.trans (by decide) hw) ?_ )
    | (with_reducible refine st_setSeg_kept _ _ _ (hw.bit (by decide)) ?_)
    | (with_reducible refine st_setStrm_kept _ _ _ (Sub.trans (by decide) hw) ?_ )
    | (with_reducible refine may_sm (hw.bit (by decide)) _ _ ?_ ?_)
    | exact Fin.isLt _
    | decide
    | split

theorem armChan_kept (i : SiteId) (s : State) (c : ChanId) (hw : Sub 0xc000000000 W) (_h_s : Kept W s0 s) :
    Kept W s0 (armChan i s c) := by
  unfold armChan
  try dsimp only
  repeat' first
    | (with_reducible refine st_p_kept _ _ _ ?_ ?_)
    | (with_reducible refine may_ch (hw.bit (by decide)) _ _ ?_ ?_)
    | (with_reducible refine may_pf (hw.bit (by decide)) _ _ ?_ ?_)
    | omega

theorem armRefs_kept (i : SiteId) (s : State) (hw : Sub 0x2c00000000000000000200000000 W) (h_s : Kept W s0 s) :
    Kept W s0 (armRefs i s) := by
  unfold armRefs
  try dsimp only
  repeat' first
    | with_reducible assumption
    | intro _
    | (with_reducible refine st_setSite_kept _ _ _ (Sub.trans (by decide) hw) ?_ )
    | (with_reducible refine takeRef_kept _ _ _ (Sub.trans (by decide) hw) ?_ )
    | with_reducible apply kept_foldl

theorem armBody_kept (i : SiteId) (s : State) (hw : Sub 0x242c0000000000000040f280c10080 W) (h_s : Kept W s0 s) :
    Kept W s0 (armBody i s) := by
  unfold armBody
  try dsimp only
  repeat' first
    | with_reducible assumption
    | intro _
    | (with_reducible refine st_p_kept _ _ _ ?_ ?_)
    | (with_reducible refine st_setSt_kept _ _ _ (Sub.trans (by decide) hw) ?_ )
    | (with_reducible refine st_zero_kept _ _ (Sub.trans (by decide) hw) ?_ ?_ )
    | (with_reducible refine wSiteArmed_kept _ _ (Sub.trans (by decide) hw) ?_ )
    | (with_reducible refine armChan_kept _ _ _ (Sub.trans (by decide) hw) ?_ )
    | (with_reducible refine armRefs_kept _ _ (Sub.trans (by decide) hw) ?_ )
    | exact may_cleared (fun j hj => hw.bit (by revert j hj; decide)) (by with_reducible assumption)
    | with_reducible apply kept_foldl
    | (with_reducible refine may_md (hw.bit (by decide)) _ _ ?_ ?_)
    | exact Fin.isLt _
    | decide

theorem armGo_kept (i : SiteId) (s : State) (hw : Sub 0xbe3c0000000000003048f280c10080 W) (h_s : Kept W s0 s) :
    Kept W s0 (armGo i s) := by
  unfold armGo
  try dsimp only
  repeat' first
    | with_reducible assumption
    | (with_reducible refine parkRaise_kept _ _ _ _ (Sub.trans (by decide) hw) ?_ )
    | (with_reducible refine armBody_kept _ _ (Sub.trans (by decide) hw) ?_ )
    | with_reducible exact same
    | with_reducible exact host_same
    | with_reducible exact flt_same
    | with_reducible apply mem_upd
    | exact .inr (hw.bit (by decide))
    | simp only [kept_mk]
    | with_reducible apply kept_upd
    | split

theorem loadSite_kept (i : SiteId) (s : State) (hw : Sub 0x42000000000000000000000010080 W) (h_s : Kept W s0 s) :
    Kept W s0 (loadSite i s).2 := by
  unfold loadSite
  try dsimp only
  repeat' first
    | with_reducible assumption
    | (with_reducible refine st_setSt_kept _ _ _ (Sub.trans (by decide) hw) ?_ )
    | split

theorem leaveSite_kept (from_ : List Nat) (to_ : Nat) (i : SiteId) (s : State)
    (hw : Sub 0x42c00000000000000000200010080 W) (h_s : Kept W s0 s) :
    Kept W s0 (leaveSite from_ to_ i s).2 := by
  unfold leaveSite
  try dsimp only
  repeat' first
    | with_reducible assumption
    | (with_reducible refine st_setSt_kept _ _ _ (Sub.trans (by decide) hw) ?_ )
    | (with_reducible refine st_releaseRefs_kept _ _ (Sub.trans (by decide) hw) ?_ )
    | split

theorem armSiteCmd_kept (i : SiteId) (s : State) (hw : Sub 0xbe3c0000000000003048f290c10080 W) (h_s : Kept W s0 s) :
    Kept W s0 (armSiteCmd i s).2 := by
  unfold armSiteCmd
  try dsimp only
  repeat' first
    | with_reducible assumption
    | (with_reducible refine st_p_kept _ _ _ ?_ ?_)
    | (with_reducible refine armCheck_kept _ _ (Sub.trans (by decide) hw) ?_ )
    | (with_reducible refine armGo_kept _ _ (Sub.trans (by decide) hw) ?_ )
    | (with_reducible refine may_md (hw.bit (by decide)) _ _ ?_ ?_)
    | exact Fin.isLt _
    | decide
    | split

theorem pauseSite_kept (i : SiteId) (s : State) (hw : Sub 0x400000 W) (h_s : Kept W s0 s) :
    Kept W s0 (pauseSite i s).2 := by
  unfold pauseSite
  try dsimp only
  repeat' first
    | with_reducible assumption
    | (with_reducible refine st_p_kept _ _ _ ?_ ?_)
    | (with_reducible refine may_sr (hw.bit (by decide)) _ _ ?_ ?_)
    | exact Fin.isLt _
    | decide
    | split

theorem resumeCmd_kept (i : SiteId) (s : State) (hw : Sub 0x2000000000000000000000000000 W) (h_s : Kept W s0 s) :
    Kept W s0 (resumeCmd i s).2 := by
  unfold resumeCmd
  try dsimp only
  repeat' first
    | with_reducible assumption
    | (with_reducible refine resumeSite_kept _ _ (Sub.trans (by decide) hw) ?_ )
    | split

theorem stopNow_kept (i : SiteId) (cause : Nat) (s : State) (hw : Sub 0xbe2000000000000030488080410080 W) (h_s : Kept W s0 s) :
    Kept W s0 (stopNow i cause s) := by
  unfold stopNow
  try dsimp only
  repeat' first
    | with_reducible assumption
    | (with_reducible refine st_p_kept _ _ _ ?_ ?_)
    | (with_reducible refine siteEnds_kept _ _ _ (Sub.trans (by decide) hw) ?_ )
    | (with_reducible refine may_st (hw.bit (by decide)) _ _ ?_ ?_)
    | exact Fin.isLt _
    | decide

theorem endSite_kept (bit_ cause : Nat) (i : SiteId) (s : State)
    (hw : Sub 0xbe2000000000000030488080410080 W) (h_s : Kept W s0 s) :
    Kept W s0 (endSite bit_ cause i s).2 := by
  unfold endSite
  try dsimp only
  repeat' first
    | with_reducible assumption
    | (with_reducible refine st_p_kept _ _ _ ?_ ?_)
    | (with_reducible refine st_modSite_kept _ _ _ (Sub.trans (by decide) hw) ?_ )
    | (with_reducible refine stopNow_kept _ _ _ (Sub.trans (by decide) hw) ?_ )
    | (with_reducible refine may_sr (hw.bit (by decide)) _ _ ?_ ?_)
    | exact Fin.isLt _
    | decide
    | split

theorem eachCmd_kept (f : SiteId → State → Nat × State) (mask : SiteMask) (s : State)
    (hw : Sub 0x10000 W) (h_f : ∀ a0 s, Kept W s0 s → Kept W s0 (f a0 s).2) (h_s : Kept W s0 s) :
    Kept W s0 (eachCmd f mask s).2 := by
  unfold eachCmd
  try dsimp only
  repeat' first
    | with_reducible assumption
    | intro _
    | apply h_f
    | (with_reducible refine st_p_kept _ _ _ ?_ ?_)
    | with_reducible apply kept_foldlp
    | (with_reducible refine may_st (hw.bit (by decide)) _ _ ?_ ?_)
    | exact Fin.isLt _
    | decide

theorem startSites_kept (mask : SiteMask) (s : State) (hw : Sub 0x1000000000000000000000010000 W) (h_s : Kept W s0 s) :
    Kept W s0 (startSites mask s).2 := by
  unfold startSites
  try dsimp only
  repeat' first
    | with_reducible assumption
    | intro _
    | (with_reducible refine st_p_kept _ _ _ ?_ ?_)
    | with_reducible apply kept_foldl
    | (with_reducible refine may_st (hw.bit (by decide)) _ _ ?_ ?_)
    | with_reducible exact same
    | with_reducible exact host_same
    | with_reducible exact flt_same
    | with_reducible apply mem_upd
    | exact .inr (hw.bit (by decide))
    | exact Fin.isLt _
    | decide
    | simp only [kept_mk]
    | with_reducible apply kept_upd
    | split

theorem siteCmd_kept (code : Nat) (mask : SiteMask) (s : State)
    (hw : Sub 0xbe3c0000000000003048f290c10080 W) (h_s : Kept W s0 s) :
    ∀ r, siteCmd code mask s = some r → Kept W s0 r.2 := by
  intro r hr
  unfold siteCmd at hr
  try dsimp only at hr
  repeat' split at hr
  all_goals first
    | (cases hr; done)
    | (simp only [Option.some.injEq] at hr; subst hr; try dsimp only)
  all_goals repeat' first
    | with_reducible assumption
    | intro _
    | (with_reducible refine loadSite_kept _ _ (Sub.trans (by decide) hw) ?_ )
    | (with_reducible refine leaveSite_kept _ _ _ _ (Sub.trans (by decide) hw) ?_ )
    | (with_reducible refine armSiteCmd_kept _ _ (Sub.trans (by decide) hw) ?_ )
    | (with_reducible refine pauseSite_kept _ _ (Sub.trans (by decide) hw) ?_ )
    | (with_reducible refine resumeCmd_kept _ _ (Sub.trans (by decide) hw) ?_ )
    | (with_reducible refine endSite_kept _ _ _ _ (Sub.trans (by decide) hw) ?_ )
    | (with_reducible refine eachCmd_kept _ _ _ (Sub.trans (by decide) hw) ?_ ?_ )
    | (with_reducible refine startSites_kept _ _ (Sub.trans (by decide) hw) ?_ )

theorem siteRow_kept (t : Option Tag) (code : Nat) (mask : SiteMask) (s : State)
    (hw : Sub 0xbf3c0000000000003048f290c14080 W) (h_s : Kept W s0 s) :
    Kept W s0 (siteRow t code mask s) := by
  unfold siteRow
  try dsimp only
  repeat' first
    | with_reducible assumption
    | (with_reducible refine st_cnt32_kept _ _ (Sub.trans (by decide) hw) ?_ ?_ )
    | (with_reducible refine st_complete_kept _ _ _ _ (Sub.trans (by decide) hw) ?_ )
    | (with_reducible refine siteCmd_kept _ _ _ (Sub.trans (by decide) hw) ?_ _ (by assumption))
    | (with_reducible refine may_sc (hw.bit (by decide)) _ ?_)
    | decide
    | split

theorem execLoad_kept (t : Option Tag) (mask : SiteMask) (s : State)
    (hw : Sub 0x20052000000000000000000000014080 W) (h_s : Kept W s0 s) :
    ∃ t', execLoad t mask s = .next t' ∧ Kept W s0 t' := by
  refine st_either_kept _ _ _ _ _ (Sub.trans (by decide) hw) h_s fun s h_s => ?_
  refine ⟨_, rfl, ?_⟩
  have h1 := st_fresh_kept _ (Sub.trans (by decide) hw) h_s
  cases t with
  | some t => exact st_complete_kept _ _ _ _ (Sub.trans (by decide) hw) (eachCmd_kept _ _ _ (Sub.trans (by decide) hw) (fun _ _ h => loadSite_kept _ _ (Sub.trans (by decide) hw) h) h1)
  | none => exact eachCmd_kept _ _ _ (Sub.trans (by decide) hw) (fun _ _ h => loadSite_kept _ _ (Sub.trans (by decide) hw) h) (st_cnt32_kept _ _ (Sub.trans (by decide) hw) (may_sc (hw.bit (by decide)) _ (by decide)) h1)

theorem execUnload_kept (t : Option Tag) (mask : SiteMask) (s : State)
    (hw : Sub 0x20052c00000000000000000200014080 W) (h_s : Kept W s0 s) :
    ∃ t', execUnload t mask s = .next t' ∧ Kept W s0 t' := by
  refine st_either_kept _ _ _ _ _ (Sub.trans (by decide) hw) h_s fun s h_s => ?_
  refine ⟨_, rfl, ?_⟩
  have h1 := st_fresh_kept _ (Sub.trans (by decide) hw) h_s
  cases t with
  | some t => exact st_complete_kept _ _ _ _ (Sub.trans (by decide) hw) (eachCmd_kept _ _ _ (Sub.trans (by decide) hw) (fun _ _ h => leaveSite_kept _ _ _ _ (Sub.trans (by decide) hw) h) h1)
  | none => exact eachCmd_kept _ _ _ (Sub.trans (by decide) hw) (fun _ _ h => leaveSite_kept _ _ _ _ (Sub.trans (by decide) hw) h) (st_cnt32_kept _ _ (Sub.trans (by decide) hw) (may_sc (hw.bit (by decide)) _ (by decide)) h1)

theorem execArm_kept (t : Option Tag) (mask : SiteMask) (s : State)
    (hw : Sub 0x20bf3c0000000000003048f290c14080 W) (h_s : Kept W s0 s) :
    ∃ t', execArm t mask s = .next t' ∧ Kept W s0 t' := by
  refine st_either_kept _ _ _ _ _ (Sub.trans (by decide) hw) h_s fun s h_s => ?_
  refine ⟨_, rfl, ?_⟩
  have h1 := st_fresh_kept _ (Sub.trans (by decide) hw) h_s
  cases t with
  | some t => exact st_complete_kept _ _ _ _ (Sub.trans (by decide) hw) (eachCmd_kept _ _ _ (Sub.trans (by decide) hw) (fun _ _ h => armSiteCmd_kept _ _ (Sub.trans (by decide) hw) h) h1)
  | none => exact eachCmd_kept _ _ _ (Sub.trans (by decide) hw) (fun _ _ h => armSiteCmd_kept _ _ (Sub.trans (by decide) hw) h) (st_cnt32_kept _ _ (Sub.trans (by decide) hw) (may_sc (hw.bit (by decide)) _ (by decide)) h1)

theorem execStart_kept (t : Option Tag) (mask : SiteMask) (s : State)
    (hw : Sub 0x20011000000000000000000000014000 W) (h_s : Kept W s0 s) :
    ∃ t', execStart t mask s = .next t' ∧ Kept W s0 t' := by
  refine st_either_kept _ _ _ _ _ (Sub.trans (by decide) hw) h_s fun s h_s => ?_
  refine ⟨_, rfl, ?_⟩
  have h1 := st_fresh_kept _ (Sub.trans (by decide) hw) h_s
  cases t with
  | some t => exact st_complete_kept _ _ _ _ (Sub.trans (by decide) hw) (startSites_kept _ _ (Sub.trans (by decide) hw) h1)
  | none => exact startSites_kept _ _ (Sub.trans (by decide) hw) (st_cnt32_kept _ _ (Sub.trans (by decide) hw) (may_sc (hw.bit (by decide)) _ (by decide)) h1)

theorem execPause_kept (t : Option Tag) (mask : SiteMask) (s : State)
    (hw : Sub 0x20010000000000000000000000414000 W) (h_s : Kept W s0 s) :
    ∃ t', execPause t mask s = .next t' ∧ Kept W s0 t' := by
  refine st_either_kept _ _ _ _ _ (Sub.trans (by decide) hw) h_s fun s h_s => ?_
  refine ⟨_, rfl, ?_⟩
  have h1 := st_fresh_kept _ (Sub.trans (by decide) hw) h_s
  cases t with
  | some t => exact st_complete_kept _ _ _ _ (Sub.trans (by decide) hw) (eachCmd_kept _ _ _ (Sub.trans (by decide) hw) (fun _ _ h => pauseSite_kept _ _ (Sub.trans (by decide) hw) h) h1)
  | none => exact eachCmd_kept _ _ _ (Sub.trans (by decide) hw) (fun _ _ h => pauseSite_kept _ _ (Sub.trans (by decide) hw) h) (st_cnt32_kept _ _ (Sub.trans (by decide) hw) (may_sc (hw.bit (by decide)) _ (by decide)) h1)

theorem execResume_kept (t : Option Tag) (mask : SiteMask) (s : State)
    (hw : Sub 0x20012000000000000000000000014000 W) (h_s : Kept W s0 s) :
    ∃ t', execResume t mask s = .next t' ∧ Kept W s0 t' := by
  refine st_either_kept _ _ _ _ _ (Sub.trans (by decide) hw) h_s fun s h_s => ?_
  refine ⟨_, rfl, ?_⟩
  have h1 := st_fresh_kept _ (Sub.trans (by decide) hw) h_s
  cases t with
  | some t => exact st_complete_kept _ _ _ _ (Sub.trans (by decide) hw) (eachCmd_kept _ _ _ (Sub.trans (by decide) hw) (fun _ _ h => resumeCmd_kept _ _ (Sub.trans (by decide) hw) h) h1)
  | none => exact eachCmd_kept _ _ _ (Sub.trans (by decide) hw) (fun _ _ h => resumeCmd_kept _ _ (Sub.trans (by decide) hw) h) (st_cnt32_kept _ _ (Sub.trans (by decide) hw) (may_sc (hw.bit (by decide)) _ (by decide)) h1)

theorem execStop_kept (t : Option Tag) (mask : SiteMask) (s : State)
    (hw : Sub 0x20bf2000000000000030488080414080 W) (h_s : Kept W s0 s) :
    ∃ t', execStop t mask s = .next t' ∧ Kept W s0 t' := by
  refine st_either_kept _ _ _ _ _ (Sub.trans (by decide) hw) h_s fun s h_s => ?_
  refine ⟨_, rfl, ?_⟩
  have h1 := st_fresh_kept _ (Sub.trans (by decide) hw) h_s
  cases t with
  | some t => exact st_complete_kept _ _ _ _ (Sub.trans (by decide) hw) (eachCmd_kept _ _ _ (Sub.trans (by decide) hw) (fun _ _ h => endSite_kept _ _ _ _ (Sub.trans (by decide) hw) h) h1)
  | none => exact eachCmd_kept _ _ _ (Sub.trans (by decide) hw) (fun _ _ h => endSite_kept _ _ _ _ (Sub.trans (by decide) hw) h) (st_cnt32_kept _ _ (Sub.trans (by decide) hw) (may_sc (hw.bit (by decide)) _ (by decide)) h1)

theorem execAbort_kept (t : Option Tag) (mask : SiteMask) (s : State)
    (hw : Sub 0x20bf2000000000000030488080414080 W) (h_s : Kept W s0 s) :
    ∃ t', execAbort t mask s = .next t' ∧ Kept W s0 t' := by
  refine st_either_kept _ _ _ _ _ (Sub.trans (by decide) hw) h_s fun s h_s => ?_
  refine ⟨_, rfl, ?_⟩
  have h1 := st_fresh_kept _ (Sub.trans (by decide) hw) h_s
  cases t with
  | some t => exact st_complete_kept _ _ _ _ (Sub.trans (by decide) hw) (eachCmd_kept _ _ _ (Sub.trans (by decide) hw) (fun _ _ h => endSite_kept _ _ _ _ (Sub.trans (by decide) hw) h) h1)
  | none => exact eachCmd_kept _ _ _ (Sub.trans (by decide) hw) (fun _ _ h => endSite_kept _ _ _ _ (Sub.trans (by decide) hw) h) (st_cnt32_kept _ _ (Sub.trans (by decide) hw) (may_sc (hw.bit (by decide)) _ (by decide)) h1)

theorem execReset_kept (t : Option Tag) (mask : SiteMask) (s : State)
    (hw : Sub 0x20052c00000000000000000200014080 W) (h_s : Kept W s0 s) :
    ∃ t', execReset t mask s = .next t' ∧ Kept W s0 t' := by
  refine st_either_kept _ _ _ _ _ (Sub.trans (by decide) hw) h_s fun s h_s => ?_
  refine ⟨_, rfl, ?_⟩
  have h1 := st_fresh_kept _ (Sub.trans (by decide) hw) h_s
  cases t with
  | some t => exact st_complete_kept _ _ _ _ (Sub.trans (by decide) hw) (eachCmd_kept _ _ _ (Sub.trans (by decide) hw) (fun _ _ h => leaveSite_kept _ _ _ _ (Sub.trans (by decide) hw) h) h1)
  | none => exact eachCmd_kept _ _ _ (Sub.trans (by decide) hw) (fun _ _ h => leaveSite_kept _ _ _ _ (Sub.trans (by decide) hw) h) (st_cnt32_kept _ _ (Sub.trans (by decide) hw) (may_sc (hw.bit (by decide)) _ (by decide)) h1)

theorem ready_kept (i : SiteId) (s : State) (hw : Sub 0x10000 W) (h_s : Kept W s0 s) :
    Kept W s0 (ready i s) := by
  unfold ready
  try dsimp only
  repeat' first
    | with_reducible assumption
    | (with_reducible refine st_p_kept _ _ _ ?_ ?_)
    | with_reducible apply kept_ite
    | (with_reducible refine may_st (hw.bit (by decide)) _ _ ?_ ?_)
    | exact Fin.isLt _
    | decide

theorem execReady_kept (i : SiteId) (s : State) (hw : Sub 0x10000 W) (h_s : Kept W s0 s) :
    ∃ t', execReady i s = .next t' ∧ Kept W s0 t' := by
  unfold execReady
  refine ⟨_, rfl, ?_⟩
  try dsimp only
  repeat' first
    | with_reducible assumption
    | intro _
    | (with_reducible refine st_fresh_kept _ (Sub.trans (by decide) hw) ?_ )
    | (with_reducible refine st_timed_kept _ _ (Sub.trans (by decide) hw) ?_ ?_ )
    | (with_reducible refine ready_kept _ _ (Sub.trans (by decide) hw) ?_ )

theorem runSite_kept (i : SiteId) (s : State) (hw : Sub 0xbe2000000000000030489080410080 W) (h_s : Kept W s0 s) :
    Kept W s0 (runSite i s) := by
  unfold runSite
  try dsimp only
  repeat' first
    | with_reducible assumption
    | (with_reducible refine st_p_kept _ _ _ ?_ ?_)
    | (with_reducible refine st_modSite_kept _ _ _ (Sub.trans (by decide) hw) ?_ )
    | (with_reducible refine st_setSt_kept _ _ _ (Sub.trans (by decide) hw) ?_ )
    | (with_reducible refine takeFrame_kept _ _ (Sub.trans (by decide) hw) ?_ )
    | (with_reducible refine may_st (hw.bit (by decide)) _ _ ?_ ?_)
    | exact Fin.isLt _
    | decide

theorem startWhenReady_kept (mask : SiteMask) (s : State) (hw : Sub 0xbe3000000000000030489080410080 W) (h_s : Kept W s0 s) :
    Kept W s0 (startWhenReady mask s) := by
  unfold startWhenReady
  try dsimp only
  repeat' first
    | with_reducible assumption
    | intro _
    | (with_reducible refine eachSite_kept _ _ _ (Sub.trans (by decide) hw) ?_ ?_ )
    | (with_reducible refine runSite_kept _ _ (Sub.trans (by decide) hw) ?_ )
    | with_reducible apply kept_ite
    | with_reducible exact same
    | with_reducible exact host_same
    | with_reducible exact flt_same
    | with_reducible apply mem_upd
    | exact .inr (hw.bit (by decide))
    | simp only [kept_mk]
    | with_reducible apply kept_upd

theorem execStartWhenReady_kept (mask : SiteMask) (s : State) (hw : Sub 0xbe3000000000000030489080410080 W) (h_s : Kept W s0 s) :
    ∃ t', execStartWhenReady mask s = .next t' ∧ Kept W s0 t' := by
  unfold execStartWhenReady
  refine ⟨_, rfl, ?_⟩
  try dsimp only
  repeat' first
    | with_reducible assumption
    | intro _
    | (with_reducible refine st_fresh_kept _ (Sub.trans (by decide) hw) ?_ )
    | (with_reducible refine st_timed_kept _ _ (Sub.trans (by decide) hw) ?_ ?_ )
    | (with_reducible refine startWhenReady_kept _ _ (Sub.trans (by decide) hw) ?_ )

theorem siteStopped_kept (i : SiteId) (s : State) (hw : Sub 0xbe2000000000000030488080410080 W) (h_s : Kept W s0 s) :
    Kept W s0 (siteStopped i s) := by
  unfold siteStopped
  try dsimp only
  repeat' first
    | with_reducible assumption
    | (with_reducible refine st_p_kept _ _ _ ?_ ?_)
    | (with_reducible refine siteEnds_kept _ _ _ (Sub.trans (by decide) hw) ?_ )
    | with_reducible apply kept_ite
    | (with_reducible refine may_st (hw.bit (by decide)) _ _ ?_ ?_)
    | exact Fin.isLt _
    | decide

theorem execSiteStopped_kept (i : SiteId) (s : State) (hw : Sub 0xbe2000000000000030488080410080 W) (h_s : Kept W s0 s) :
    ∃ t', execSiteStopped i s = .next t' ∧ Kept W s0 t' := by
  unfold execSiteStopped
  refine ⟨_, rfl, ?_⟩
  try dsimp only
  repeat' first
    | with_reducible assumption
    | intro _
    | (with_reducible refine st_fresh_kept _ (Sub.trans (by decide) hw) ?_ )
    | (with_reducible refine st_timed_kept _ _ (Sub.trans (by decide) hw) ?_ ?_ )
    | (with_reducible refine siteStopped_kept _ _ (Sub.trans (by decide) hw) ?_ )

theorem sitePaused_kept (i : SiteId) (s : State) (hw : Sub 0xbe2000000000000030488080410080 W) (h_s : Kept W s0 s) :
    Kept W s0 (sitePaused i s) := by
  unfold sitePaused
  try dsimp only
  repeat' first
    | with_reducible assumption
    | (with_reducible refine st_p_kept _ _ _ ?_ ?_)
    | (with_reducible refine st_modSite_kept _ _ _ (Sub.trans (by decide) hw) ?_ )
    | (with_reducible refine st_setSt_kept _ _ _ (Sub.trans (by decide) hw) ?_ )
    | (with_reducible refine flushMk_kept _ _ _ (Sub.trans (by decide) hw) ?_ )
    | (with_reducible refine slathAfter_kept _ _ _ _ (Sub.trans (by decide) hw) ?_ )
    | (with_reducible refine stopNow_kept _ _ _ (Sub.trans (by decide) hw) ?_ )
    | with_reducible apply kept_ite
    | (with_reducible refine may_sr (hw.bit (by decide)) _ _ ?_ ?_)
    | exact Fin.isLt _
    | decide

theorem execSitePaused_kept (i : SiteId) (s : State) (hw : Sub 0xbe2000000000000030488080410080 W) (h_s : Kept W s0 s) :
    ∃ t', execSitePaused i s = .next t' ∧ Kept W s0 t' := by
  unfold execSitePaused
  refine ⟨_, rfl, ?_⟩
  try dsimp only
  repeat' first
    | with_reducible assumption
    | intro _
    | (with_reducible refine st_fresh_kept _ (Sub.trans (by decide) hw) ?_ )
    | (with_reducible refine st_timed_kept _ _ (Sub.trans (by decide) hw) ?_ ?_ )
    | (with_reducible refine sitePaused_kept _ _ (Sub.trans (by decide) hw) ?_ )

theorem resumeRunning_kept (i : SiteId) (s : State) (hw : Sub 0xbe2000000000000030489080410080 W) (h_s : Kept W s0 s) :
    Kept W s0 (resumeRunning i s) := by
  unfold resumeRunning
  try dsimp only
  repeat' first
    | with_reducible assumption
    | (with_reducible refine st_cnt32_kept _ _ (Sub.trans (by decide) hw) ?_ ?_ )
    | (with_reducible refine st_modSite_kept _ _ _ (Sub.trans (by decide) hw) ?_ )
    | (with_reducible refine st_setSt_kept _ _ _ (Sub.trans (by decide) hw) ?_ )
    | (with_reducible refine takeFrame_kept _ _ (Sub.trans (by decide) hw) ?_ )
    | with_reducible apply kept_ite
    | (with_reducible refine may_st (hw.bit (by decide)) _ _ ?_ ?_)
    | exact Fin.isLt _
    | decide

theorem execResumeRunning_kept (i : SiteId) (s : State) (hw : Sub 0xbe2000000000000030489080410080 W) (h_s : Kept W s0 s) :
    ∃ t', execResumeRunning i s = .next t' ∧ Kept W s0 t' := by
  unfold execResumeRunning
  refine ⟨_, rfl, ?_⟩
  try dsimp only
  repeat' first
    | with_reducible assumption
    | intro _
    | (with_reducible refine st_fresh_kept _ (Sub.trans (by decide) hw) ?_ )
    | (with_reducible refine st_timed_kept _ _ (Sub.trans (by decide) hw) ?_ ?_ )
    | (with_reducible refine resumeRunning_kept _ _ (Sub.trans (by decide) hw) ?_ )

end Sys2Proof.Laws
end

