-- ==== Sys2Proof/Laws/KeptCommands.lean ====
section
/-! SUPPORT. One lemma per operation of Machine/Commands.lean: within which mask of parts it keeps the rest; a command's meaning
answers a next state that is so kept. The numeral of a mask has the bits of Area. -/
namespace Sys2Proof.Laws
open Sys2Proof Sys2Proof.Machine
variable {W : Nat} {s0 : State}

theorem cmdSite_kept (v : Nat) (s : State) (hw : Sub 0xbe3c0000000000003048f290c14080 W) (h_s : Kept W s0 s) :
    Kept W s0 (cmdSite v s).2 := by
  unfold cmdSite
  try dsimp only
  repeat' first
    | with_reducible assumption
    | (with_reducible refine st_cnt32_kept _ _ (Sub.trans (by decide) hw) ?_ ?_ )
    | (with_reducible refine siteCmd_kept _ _ _ (Sub.trans (by decide) hw) ?_ _ (by assumption))
    | (with_reducible refine may_sc (hw.bit (by decide)) _ ?_)
    | decide
    | split

theorem cmdTmu_kept (v : Nat) (s : State) (hw : Sub 0x942000000000000070000000000000 W) (h_s : Kept W s0 s) :
    Kept W s0 (cmdTmu v s).2 := by
  unfold cmdTmu
  try dsimp only
  repeat' first
    | with_reducible assumption
    | (with_reducible refine st_p_kept _ _ _ ?_ ?_)
    | (with_reducible refine tmuHostCmd_kept _ _ _ (Sub.trans (by decide) hw) ?_ )
    | (with_reducible refine may_tk (hw.bit (by decide)) _ ?_)
    | decide
    | split

theorem cmdCal_kept (v : Nat) (s : State) (hw : Sub 0x9e0000000000000810090000000000 W) (h_s : Kept W s0 s) :
    Kept W s0 (cmdCal v s).2 := by
  unfold cmdCal
  try dsimp only
  repeat' first
    | with_reducible assumption
    | (with_reducible refine st_advance_kept _ (Sub.trans (by decide) hw) ?_ )
    | (with_reducible refine nativeCmd_kept _ _ _ _ _ (Sub.trans (by decide) hw) ?_ )
    | (with_reducible refine nativeAbort_kept _ (Sub.trans (by decide) hw) ?_ )
    | (with_reducible refine liveNow_kept _ _ _ _ (Sub.trans (by decide) hw) ?_ )
    | split

theorem cmdClk_kept (v : Nat) (s : State) (hw : Sub 0x2900000000000180030000000000000 W) (h_s : Kept W s0 s) :
    Kept W s0 (cmdClk v s).2 := by
  unfold cmdClk
  try dsimp only
  repeat' first
    | with_reducible assumption
    | (with_reducible refine switchCmd_kept _ _ _ (Sub.trans (by decide) hw) ?_ )
    | (with_reducible refine clkAnswer_kept _ (Sub.trans (by decide) hw) ?_ )
    | (with_reducible refine ridgeCalCmd_kept _ (Sub.trans (by decide) hw) ?_ )
    | split

theorem cmdTest_kept (v : Nat) (s : State) (hw : Sub 0x280000000800000000400000000000 W) (h_s : Kept W s0 s) :
    Kept W s0 (cmdTest v s).2 := by
  unfold cmdTest
  try dsimp only
  repeat' first
    | with_reducible assumption
    | (with_reducible refine stCmd_kept _ _ _ (Sub.trans (by decide) hw) ?_ )
    | split

theorem devReset_kept (code : Nat) (s : State) (hw : Sub 0x8000000100000000000000000000000 W) (h_s : Kept W s0 s) :
    Kept W s0 (devReset code s).2 := by
  unfold devReset
  try dsimp only
  repeat' first
    | with_reducible assumption
    | (with_reducible refine st_p_kept _ _ _ ?_ ?_)
    | with_reducible apply kept_ite
    | (with_reducible refine may_bu (hw.bit (by decide)) _ ?_)
    | with_reducible exact same
    | with_reducible exact mem_same
    | with_reducible exact host_same
    | with_reducible exact flt_same
    | exact .inr (hw.bit (by decide))
    | decide
    | simp only [kept_mk]
    | with_reducible apply kept_upd

theorem commandNum_kept (p : Path) (key v : Nat) (s : State) (hw : Sub 0xfbebd0418091018887049f290c14084 W) (h_s : Kept W s0 s) :
    ∀ r, commandNum p key v s = some r → Kept W s0 r.2 := by
  have hs := h_s
  have go : ∀ (c : Prop) [Decidable c] (x : Nat × State) (b : Option (Nat × State)), Kept W s0 x.2 →
      (∀ r, b = some r → Kept W s0 r.2) → ∀ r, (if c then some x else b) = some r → Kept W s0 r.2 := by
    intro c _ x b ha hb r h
    split at h
    · cases h; exact ha
    · exact hb r h
  have one : ∀ (n : Nat) (t : State), Kept W s0 t → Kept W s0 (n, t).2 := fun _ _ h => h
  unfold commandNum
  dsimp only
  refine go _ (cmdSite v s) _ (cmdSite_kept v s (Sub.trans (by decide) hw) hs) ?_
  refine go _ (cmdTmu v s) _ (cmdTmu_kept v s (Sub.trans (by decide) hw) hs) ?_
  refine go _ (cmdCal v s) _ (cmdCal_kept v s (Sub.trans (by decide) hw) hs) ?_
  refine go _ (0, lvlLoad v s) _ (one _ _ (lvlLoad_kept v s (Sub.trans (by decide) hw) hs)) ?_
  refine go _ (cmdClk v s) _ (cmdClk_kept v s (Sub.trans (by decide) hw) hs) ?_
  refine go _ (0, ridgeFire v s) _ (one _ _ (ridgeFire_kept v s (Sub.trans (by decide) hw) hs)) ?_
  refine go _ (0, if v = 1 then closeSeal s else s) _ (one _ _ (kept_ite (closeSeal_kept s (Sub.trans (by decide) hw) hs) hs)) ?_
  refine go _ ((faultClear p v s).n K.fz_CLEAR_STATUS, faultClear p v s) _ (one _ _ (faultClear_kept p v s (Sub.trans (by decide) hw) hs)) ?_
  refine go _ (cmdTest v s) _ (cmdTest_kept v s (Sub.trans (by decide) hw) hs) ?_
  refine go _ (fwCmd v s) _ (fwCmd_kept v s (Sub.trans (by decide) hw) hs) ?_
  refine go _ (devReset v s) _ (devReset_kept v s (Sub.trans (by decide) hw) hs) ?_
  intro r h
  cases h

theorem commandBytes_kept (key : Nat) (l : List Byte) (s : State)
    (hw : Sub 0x4878303080000008000000000020004 W) (h_s : Kept W s0 s) :
    ∀ r, commandBytes key l s = some r → Kept W s0 r.2 := by
  intro r hr
  unfold commandBytes at hr
  have hs := h_s
  have go : ∀ (c : Prop) [Decidable c] (a b : Option (Nat × State)), (∀ r, a = some r → Kept W s0 r.2) →
      (∀ r, b = some r → Kept W s0 r.2) → ∀ r, (if c then a else b) = some r → Kept W s0 r.2 := by
    intro c _ a b ha hb r h
    split at h
    · exact ha r h
    · exact hb r h
  have one : ∀ (x : Nat × State), Kept W s0 x.2 → ∀ r, some x = some r → Kept W s0 r.2 := by
    intro x hx r h; cases h; exact hx
  revert r
  refine go _ _ _ (one _ (sealToken_kept _ _ (Sub.trans (by decide) hw) hs)) ?_
  refine go _ _ _ (one _ (fwEnd_kept _ _ (Sub.trans (by decide) hw) hs)) ?_
  refine go _ _ _ (one _ (lcToken_kept _ _ (Sub.trans (by decide) hw) hs)) ?_
  refine go _ _ _ (one _ (sealKey_kept _ _ (Sub.trans (by decide) hw) hs)) ?_
  refine go _ _ _ (go _ _ _ (one (_, _) hs) (one (_, _) (csStore_kept _ _ _ (Sub.trans (by decide) hw) (st_putBlob_kept _ _ _ (hw.bit (by decide)) hs)))) ?_
  intro r h
  cases h

end Sys2Proof.Laws
end

