-- ==== Sys2Proof/Laws/KeptDictionary.lean ====
section
/-! SUPPORT. One lemma per operation of Machine/Dictionary.lean: within which mask of parts it keeps the rest; a command's meaning
answers a next state that is so kept. The numeral of a mask has the bits of Area. -/
namespace Sys2Proof.Laws
open Sys2Proof Sys2Proof.Machine
variable {W : Nat} {s0 : State}

theorem may_clears (h : W.testBit Area.sm = true) (h' : W.testBit Area.md = true) (k : Nat) (hk : clearsOnRead k = true) :
    May W k := by
  unfold clearsOnRead at hk
  simp only [Bool.or_eq_true, Bool.and_eq_true, decide_eq_true_eq, beq_iff_eq] at hk
  have e : k = Objects.ob (k / 256) (k % 256) := by unfold Objects.ob; omega
  rw [e]
  rcases hk with hk | hk
  · rw [show k / 256 = 0x2480 + (k / 256 - 0x2480) by omega]
    exact may_sm h _ _ (by omega) (by omega)
  · rw [show k / 256 = 0x2440 + (k / 256 - 0x2440) by omega]
    exact may_md h' _ _ (by omega) (by omega)

theorem nameTxn_kept (k : Fin 8) (s : State) (hw : Sub 0x20000000000000000000000000000 W) (h_s : Kept W s0 s) :
    Kept W s0 (nameTxn k s) := by
  unfold nameTxn
  try dsimp only
  repeat' first
    | with_reducible assumption
    | (with_reducible refine st_setTxn_kept _ _ _ (Sub.trans (by decide) hw) ?_ )

theorem afterRead_kept (key : Nat) (s : State) (hw : Sub 0x280000000 W) (h_s : Kept W s0 s) :
    Kept W s0 (afterRead key s) := by
  unfold afterRead
  dsimp only
  have h1 : Kept W s0 (if clearsOnRead key = true then s.p key 0 else s) := by
    split
    · exact st_p_kept _ _ _ (may_clears (hw.bit (by decide)) (hw.bit (by decide)) _ (by assumption)) h_s
    · exact h_s
  exact kept_ite (st_advance_kept _ (Sub.trans (by decide) hw) h1) h1

theorem readForce_kept (a : Ask) (r : Objects.Row) (key limit : Nat) (s : State)
    (hw : Sub 0x4038000000000000000000280000000 W) (h_s : Kept W s0 s) :
    Kept W s0 (readForce a r key limit s) := by
  unfold readForce
  try dsimp only
  repeat' first
    | with_reducible assumption
    | (with_reducible refine answer_kept _ _ _ _ _ _ (Sub.trans (by decide) hw) ?_ )
    | (with_reducible refine afterRead_kept _ _ (Sub.trans (by decide) hw) ?_ )
    | with_reducible exact same
    | with_reducible exact mem_same
    | with_reducible exact host_same
    | with_reducible exact flt_same
    | exact .inr (hw.bit (by decide))
    | simp only [kept_mk]
    | with_reducible apply kept_upd
    | split

theorem serveRead_kept (a : Ask) (s : State) (hw : Sub 0x4038000000000000000000280000000 W) (h_s : Kept W s0 s) :
    Kept W s0 (serveRead a s) := by
  unfold serveRead
  try dsimp only
  repeat' first
    | with_reducible assumption
    | (with_reducible refine answer_kept _ _ _ _ _ _ (Sub.trans (by decide) hw) ?_ )
    | (with_reducible refine nameTxn_kept _ _ (Sub.trans (by decide) hw) ?_ )
    | (with_reducible refine readForce_kept _ _ _ _ _ (Sub.trans (by decide) hw) ?_ )
    | split

theorem takeTick_kept (s : State) (hw : Sub 0x20000000000000000000000000000 W) (h_s : Kept W s0 s) :
    Kept W s0 (takeTick s).2 := by
  unfold takeTick
  try dsimp only
  repeat' first
    | with_reducible assumption
    | with_reducible exact same
    | with_reducible exact mem_same
    | with_reducible exact host_same
    | with_reducible exact flt_same
    | exact .inr (hw.bit (by decide))
    | simp only [kept_mk]
    | with_reducible apply kept_upd

theorem outsideCommit_kept (a : Ask) (key : Nat) (v : SVal) (s : State)
    (hw : Sub 0x47fea1020000001c08b0099000010504 W) (h_s : Kept W s0 s) :
    Kept W s0 (outsideCommit a key v s) := by
  unfold outsideCommit
  try dsimp only
  repeat' first
    | with_reducible assumption
    | (with_reducible refine answer_kept _ _ _ _ _ _ (Sub.trans (by decide) hw) ?_ )
    | (with_reducible refine outReady_kept _ _ (Sub.trans (by decide) hw) ?_ )
    | (with_reducible refine takeTick_kept _ (Sub.trans (by decide) hw) ?_ )
    | with_reducible exact same
    | with_reducible exact mem_same
    | with_reducible exact host_same
    | with_reducible exact flt_same
    | exact .inr (hw.bit (by decide))
    | simp only [kept_mk]
    | with_reducible apply kept_upd
    | split

theorem outsideValue_kept (a : Ask) (r : Objects.Row) (key : Nat) (v : SVal) (s : State)
    (hw : Sub 0x4fffbf071809101c88f049f290c34584 W) (h_s : Kept W s0 s) :
    Kept W s0 (outsideValue a r key v s) := by
  unfold outsideValue
  dsimp only
  split
  · rename_i q hq
    have h1 : Kept W s0 q.2 := by
      split at hq
      · split at hq
        · split at hq
          · exact commandNum_kept _ _ _ _ (Sub.trans (by decide) hw) h_s _ hq
          · cases hq; exact h_s
        · cases hq
      · exact commandBytes_kept _ _ _ (Sub.trans (by decide) hw) h_s _ hq
    exact kept_ite (answer_kept _ _ _ _ _ _ (Sub.trans (by decide) hw) (st_cnt64_kept _ _ (Sub.trans (by decide) hw) (may_te (hw.bit (by decide)) _ (by decide)) h1)) (answer_kept _ _ _ _ _ _ (Sub.trans (by decide) hw) h1)
  · exact outsideCommit_kept _ _ _ _ (Sub.trans (by decide) hw) h_s

theorem dropDomain_kept (p : Path) (key : Nat) (s : State) (hw : Sub 0x20000080000000000000000000000 W) (h_s : Kept W s0 s) :
    Kept W s0 (dropDomain p key s) := by
  unfold dropDomain
  try dsimp only
  repeat' first
    | with_reducible assumption
    | (with_reducible refine loadInterrupted_kept _ (Sub.trans (by decide) hw) ?_ )
    | with_reducible apply kept_ite
    | with_reducible exact same
    | with_reducible exact mem_same
    | with_reducible exact host_same
    | with_reducible exact flt_same
    | exact .inr (hw.bit (by decide))
    | simp only [kept_mk]
    | with_reducible apply kept_upd

theorem domainOutside_kept (a : Ask) (r : Objects.Row) (key max : Nat) (s : State)
    (hw : Sub 0x4fffbf071809101c88f049f290c34584 W) (h_s : Kept W s0 s) :
    Kept W s0 (domainOutside a r key max s) := by
  unfold domainOutside
  try dsimp only
  repeat' first
    | with_reducible assumption
    | (with_reducible refine answer_kept _ _ _ _ _ _ (Sub.trans (by decide) hw) ?_ )
    | (with_reducible refine fwBegin_kept _ (Sub.trans (by decide) hw) ?_ )
    | (with_reducible refine outsideValue_kept _ _ _ _ _ (Sub.trans (by decide) hw) ?_ )
    | (with_reducible refine dropDomain_kept _ _ _ (Sub.trans (by decide) hw) ?_ )
    | with_reducible exact same
    | with_reducible exact mem_same
    | with_reducible exact host_same
    | with_reducible exact flt_same
    | exact .inr (hw.bit (by decide))
    | simp only [kept_mk]
    | with_reducible apply kept_upd
    | split

theorem stage_kept (a : Ask) (k : Fin 8) (t : Txn) (s : State)
    (hw : Sub 0x4028000000000000000000000000000 W) (h_s : Kept W s0 s) :
    Kept W s0 (stage a k t s) := by
  unfold stage
  try dsimp only
  repeat' first
    | with_reducible assumption
    | (with_reducible refine st_setTxn_kept _ _ _ (Sub.trans (by decide) hw) ?_ )
    | (with_reducible refine answer_kept _ _ _ _ _ _ (Sub.trans (by decide) hw) ?_ )
    | with_reducible apply kept_ite

theorem domainInside_kept (a : Ask) (k : Fin 8) (key max : Nat) (s : State)
    (hw : Sub 0x4028000000000000000000000000000 W) (h_s : Kept W s0 s) :
    Kept W s0 (domainInside a k key max s) := by
  unfold domainInside
  try dsimp only
  repeat' first
    | with_reducible assumption
    | (with_reducible refine st_setTxn_kept _ _ _ (Sub.trans (by decide) hw) ?_ )
    | (with_reducible refine answer_kept _ _ _ _ _ _ (Sub.trans (by decide) hw) ?_ )
    | (with_reducible refine stage_kept _ _ _ _ (Sub.trans (by decide) hw) ?_ )
    | split

theorem writeValue_kept (a : Ask) (r : Objects.Row) (key : Nat) (k : Option (Fin 8)) (s : State)
    (hw : Sub 0x4fffbf071809101c88f049f290c34584 W) (h_s : Kept W s0 s) :
    Kept W s0 (writeValue a r key k s) := by
  unfold writeValue
  try dsimp only
  repeat' first
    | with_reducible assumption
    | (with_reducible refine answer_kept _ _ _ _ _ _ (Sub.trans (by decide) hw) ?_ )
    | (with_reducible refine outsideValue_kept _ _ _ _ _ (Sub.trans (by decide) hw) ?_ )
    | (with_reducible refine domainOutside_kept _ _ _ _ _ (Sub.trans (by decide) hw) ?_ )
    | (with_reducible refine stage_kept _ _ _ _ (Sub.trans (by decide) hw) ?_ )
    | (with_reducible refine domainInside_kept _ _ _ _ _ (Sub.trans (by decide) hw) ?_ )
    | split

theorem serveWrite_kept (a : Ask) (s : State) (hw : Sub 0x4fffbf071809101c88f049f290c34584 W) (h_s : Kept W s0 s) :
    Kept W s0 (serveWrite a s) := by
  unfold serveWrite
  try dsimp only
  repeat' first
    | with_reducible assumption
    | (with_reducible refine answer_kept _ _ _ _ _ _ (Sub.trans (by decide) hw) ?_ )
    | (with_reducible refine nameTxn_kept _ _ (Sub.trans (by decide) hw) ?_ )
    | (with_reducible refine writeValue_kept _ _ _ _ _ (Sub.trans (by decide) hw) ?_ )
    | split

theorem serveBegin_kept (a : Ask) (s : State) (hw : Sub 0x4028000000000000000000000000000 W) (h_s : Kept W s0 s) :
    Kept W s0 (serveBegin a s) := by
  unfold serveBegin
  try dsimp only
  repeat' first
    | with_reducible assumption
    | (with_reducible refine st_setTxn_kept _ _ _ (Sub.trans (by decide) hw) ?_ )
    | (with_reducible refine answer_kept _ _ _ _ _ _ (Sub.trans (by decide) hw) ?_ )
    | with_reducible exact same
    | with_reducible exact mem_same
    | with_reducible exact host_same
    | with_reducible exact flt_same
    | exact .inr (hw.bit (by decide))
    | simp only [kept_mk]
    | with_reducible apply kept_upd
    | split

theorem failCommit_kept (a : Ask) (k : Fin 8) (v : Viol) (s : State)
    (hw : Sub 0x4068000000000000000000000000004 W) (h_s : Kept W s0 s) :
    Kept W s0 (failCommit a k v s) := by
  unfold failCommit
  try dsimp only
  repeat' first
    | with_reducible assumption
    | (with_reducible refine st_setTxn_kept _ _ _ (Sub.trans (by decide) hw) ?_ )
    | (with_reducible refine endTxn_kept _ _ _ _ _ _ (Sub.trans (by decide) hw) ?_ )

theorem acceptCommit_kept (a : Ask) (k : Fin 8) (s : State) (hw : Sub 0x47fea1020000001c08b0099000010504 W) (h_s : Kept W s0 s) :
    Kept W s0 (acceptCommit a k s) := by
  unfold acceptCommit
  try dsimp only
  repeat' first
    | with_reducible assumption
    | (with_reducible refine st_setTxn_kept _ _ _ (Sub.trans (by decide) hw) ?_ )
    | (with_reducible refine becomePending_kept _ _ (Sub.trans (by decide) hw) ?_ )
    | (with_reducible refine takeTick_kept _ (Sub.trans (by decide) hw) ?_ )
    | with_reducible apply kept_ite

theorem commitTxn_kept (a : Ask) (k : Fin 8) (s : State) (hw : Sub 0x47fea1020000001c08b0099000010504 W) (h_s : Kept W s0 s) :
    Kept W s0 (commitTxn a k s) := by
  unfold commitTxn
  try dsimp only
  repeat' first
    | with_reducible assumption
    | (with_reducible refine st_cnt64_kept _ _ (Sub.trans (by decide) hw) ?_ ?_ )
    | (with_reducible refine st_setTxn_kept _ _ _ (Sub.trans (by decide) hw) ?_ )
    | (with_reducible refine answer_kept _ _ _ _ _ _ (Sub.trans (by decide) hw) ?_ )
    | (with_reducible refine endTxn_kept _ _ _ _ _ _ (Sub.trans (by decide) hw) ?_ )
    | (with_reducible refine failCommit_kept _ _ _ _ (Sub.trans (by decide) hw) ?_ )
    | (with_reducible refine acceptCommit_kept _ _ _ (Sub.trans (by decide) hw) ?_ )
    | (with_reducible refine may_te (hw.bit (by decide)) _ ?_)
    | decide
    | split

theorem serveCommit_kept (a : Ask) (s : State) (hw : Sub 0x47fea1020000001c08b0099000010504 W) (h_s : Kept W s0 s) :
    Kept W s0 (serveCommit a s) := by
  unfold serveCommit
  try dsimp only
  repeat' first
    | with_reducible assumption
    | (with_reducible refine answer_kept _ _ _ _ _ _ (Sub.trans (by decide) hw) ?_ )
    | (with_reducible refine nameTxn_kept _ _ (Sub.trans (by decide) hw) ?_ )
    | (with_reducible refine commitTxn_kept _ _ _ (Sub.trans (by decide) hw) ?_ )
    | split

theorem serveRollback_kept (a : Ask) (s : State) (hw : Sub 0x4068000000000000000000000000004 W) (h_s : Kept W s0 s) :
    Kept W s0 (serveRollback a s) := by
  unfold serveRollback
  try dsimp only
  repeat' first
    | with_reducible assumption
    | (with_reducible refine answer_kept _ _ _ _ _ _ (Sub.trans (by decide) hw) ?_ )
    | (with_reducible refine rollbackTxn_kept _ _ (Sub.trans (by decide) hw) ?_ )
    | split

theorem serve_kept (a : Ask) (s : State) (hw : Sub 0x4fffbf071809101c88f049f290c34584 W) (h_s : Kept W s0 s) :
    Kept W s0 (serve a s) := by
  unfold serve
  try dsimp only
  repeat' first
    | with_reducible assumption
    | (with_reducible refine st_advance_kept _ (Sub.trans (by decide) hw) ?_ )
    | (with_reducible refine answer_kept _ _ _ _ _ _ (Sub.trans (by decide) hw) ?_ )
    | (with_reducible refine serveRead_kept _ _ (Sub.trans (by decide) hw) ?_ )
    | (with_reducible refine serveWrite_kept _ _ (Sub.trans (by decide) hw) ?_ )
    | (with_reducible refine serveBegin_kept _ _ (Sub.trans (by decide) hw) ?_ )
    | (with_reducible refine serveCommit_kept _ _ (Sub.trans (by decide) hw) ?_ )
    | (with_reducible refine serveRollback_kept _ _ (Sub.trans (by decide) hw) ?_ )
    | split

theorem slotBusy_kept (p : Path) (s : State) (hw : Sub 0x8000000000000000000000000000 W) (h_s : Kept W s0 s) :
    Kept W s0 (slotBusy p s) := by
  unfold slotBusy
  try dsimp only
  repeat' first
    | with_reducible assumption
    | (with_reducible refine st_setFn_kept _ _ _ (Sub.trans (by decide) hw) ?_ )
    | split

theorem serveOrHold_kept (a : Ask) (s : State) (hw : Sub 0x4fffbf071809101c88f049f290c34584 W) (h_s : Kept W s0 s) :
    Kept W s0 (serveOrHold a s) := by
  unfold serveOrHold
  try dsimp only
  repeat' first
    | with_reducible assumption
    | (with_reducible refine serve_kept _ _ (Sub.trans (by decide) hw) ?_ )
    | with_reducible apply kept_ite
    | with_reducible exact same
    | with_reducible exact mem_same
    | with_reducible exact host_same
    | with_reducible exact flt_same
    | exact .inr (hw.bit (by decide))
    | simp only [kept_mk]
    | with_reducible apply kept_upd

theorem recallAsks_kept (s : State) (hw : Sub 0x4fffbf071809101c88f049f290c34584 W) (h_s : Kept W s0 s) :
    Kept W s0 (recallAsks s) := by
  unfold recallAsks
  try dsimp only
  repeat' first
    | with_reducible assumption
    | intro _
    | (with_reducible refine serveOrHold_kept _ _ (Sub.trans (by decide) hw) ?_ )
    | with_reducible apply kept_foldl
    | with_reducible exact same
    | with_reducible exact mem_same
    | with_reducible exact host_same
    | with_reducible exact flt_same
    | exact .inr (hw.bit (by decide))
    | simp only [kept_mk]
    | with_reducible apply kept_upd

theorem arrive_kept (a : Ask) (s : State) (hw : Sub 0x4fffbf071809101c88f049f290c34584 W) (h_s : Kept W s0 s) :
    Kept W s0 (arrive a s) := by
  unfold arrive
  try dsimp only
  repeat' first
    | with_reducible assumption
    | (with_reducible refine slotBusy_kept _ _ (Sub.trans (by decide) hw) ?_ )
    | (with_reducible refine serveOrHold_kept _ _ (Sub.trans (by decide) hw) ?_ )
    | with_reducible apply kept_ite
    | with_reducible exact same
    | with_reducible exact mem_same
    | with_reducible exact host_same
    | with_reducible exact flt_same
    | exact .inr (hw.bit (by decide))
    | simp only [kept_mk]
    | with_reducible apply kept_upd

theorem dictCmd_kept (service : Nat) (r : Req) (s : State) (hw : Sub 0x4fffbf071809101c88f049f290c34584 W) (h_s : Kept W s0 s) :
    Kept W s0 (dictCmd service r s) := by
  unfold dictCmd
  try dsimp only
  repeat' first
    | with_reducible assumption
    | (with_reducible refine arrive_kept _ _ (Sub.trans (by decide) hw) ?_ )
    | split

theorem execRead_kept (r : Req) (s : State) (hw : Sub 0x2c038000000000000000000280000000 W) (h_s : Kept W s0 s) :
    ∃ t', execRead r s = .next t' ∧ Kept W s0 t' := by
  refine st_served_kept _ _ _ _ (Sub.trans (by decide) hw) h_s fun s h_s => ?_
  refine ⟨_, rfl, ?_⟩
  have h1 := st_fresh_kept _ (Sub.trans (by decide) hw) h_s
  unfold dictCmd
  split
  · rename_i a ha
    have hs : a.service = 1 := by
      unfold askOf at ha
      split at ha
      · cases ha; rfl
      · dsimp only at ha
        split at ha
        · cases ha
        · cases ha; rfl
    unfold arrive
    have h2 := slotBusy_kept a.path s.fresh (Sub.trans (by decide) hw) h1
    split
    · simp only [kept_mk]
      repeat' first
        | with_reducible assumption
        | with_reducible apply kept_upd
        | with_reducible exact mem_same
        | with_reducible exact host_same
        | with_reducible exact flt_same
        | with_reducible apply mem_upd
        | with_reducible apply host_upd
        | with_reducible apply flt_upd
        | with_reducible exact same
        | exact .inr (hw.bit (by decide))
    · split
      · unfold serveOrHold
        split
        · simp only [kept_mk]
          apply kept_upd h2
          repeat' first
            | with_reducible exact mem_same
            | with_reducible exact host_same
            | with_reducible exact flt_same
            | with_reducible exact same
            | exact .inr (hw.bit (by decide))
        · unfold serve
          simp only [hs]
          exact serveRead_kept _ _ (Sub.trans (by decide) hw) h2
      · exact h1
  · exact h1

theorem execWrite_kept (r : Req) (s : State) (hw : Sub 0x6fffbf071809101c88f049f290c34584 W) (h_s : Kept W s0 s) :
    ∃ t', execWrite r s = .next t' ∧ Kept W s0 t' := by
  unfold execWrite
  refine st_served_kept _ _ _ _ (Sub.trans (by decide) hw) (by assumption) fun s h_s => ?_
  refine ⟨_, rfl, ?_⟩
  try dsimp only
  repeat' first
    | with_reducible assumption
    | (with_reducible refine st_fresh_kept _ (Sub.trans (by decide) hw) ?_ )
    | (with_reducible refine dictCmd_kept _ _ _ (Sub.trans (by decide) hw) ?_ )

theorem execBegin_kept (r : Req) (s : State) (hw : Sub 0x2c028000000000000000000000000000 W) (h_s : Kept W s0 s) :
    ∃ t', execBegin r s = .next t' ∧ Kept W s0 t' := by
  refine st_served_kept _ _ _ _ (Sub.trans (by decide) hw) h_s fun s h_s => ?_
  refine ⟨_, rfl, ?_⟩
  have h1 := st_fresh_kept _ (Sub.trans (by decide) hw) h_s
  unfold dictCmd
  split
  · rename_i a ha
    have hs : a.service = 3 := by
      unfold askOf at ha
      split at ha
      · cases ha; rfl
      · dsimp only at ha
        split at ha
        · cases ha
        · cases ha; rfl
    unfold arrive
    have h2 := slotBusy_kept a.path s.fresh (Sub.trans (by decide) hw) h1
    split
    · simp only [kept_mk]
      repeat' first
        | with_reducible assumption
        | with_reducible apply kept_upd
        | with_reducible exact mem_same
        | with_reducible exact host_same
        | with_reducible exact flt_same
        | with_reducible apply mem_upd
        | with_reducible apply host_upd
        | with_reducible apply flt_upd
        | with_reducible exact same
        | exact .inr (hw.bit (by decide))
    · split
      · unfold serveOrHold
        split
        · simp only [kept_mk]
          apply kept_upd h2
          repeat' first
            | with_reducible exact mem_same
            | with_reducible exact host_same
            | with_reducible exact flt_same
            | with_reducible exact same
            | exact .inr (hw.bit (by decide))
        · unfold serve
          simp only [hs]
          exact serveBegin_kept _ _ (Sub.trans (by decide) hw) h2
      · exact h1
  · exact h1

theorem execCommit_kept (r : Req) (s : State) (hw : Sub 0x6ffea1020000001c08b0099000010504 W) (h_s : Kept W s0 s) :
    ∃ t', execCommit r s = .next t' ∧ Kept W s0 t' := by
  refine st_served_kept _ _ _ _ (Sub.trans (by decide) hw) h_s fun s h_s => ?_
  refine ⟨_, rfl, ?_⟩
  have h1 := st_fresh_kept _ (Sub.trans (by decide) hw) h_s
  unfold dictCmd
  split
  · rename_i a ha
    have hs : a.service = 4 := by
      unfold askOf at ha
      split at ha
      · cases ha; rfl
      · dsimp only at ha
        split at ha
        · cases ha
        · cases ha; rfl
    unfold arrive
    have h2 := slotBusy_kept a.path s.fresh (Sub.trans (by decide) hw) h1
    split
    · simp only [kept_mk]
      repeat' first
        | with_reducible assumption
        | with_reducible apply kept_upd
        | with_reducible exact mem_same
        | with_reducible exact host_same
        | with_reducible exact flt_same
        | with_reducible apply mem_upd
        | with_reducible apply host_upd
        | with_reducible apply flt_upd
        | with_reducible exact same
        | exact .inr (hw.bit (by decide))
    · split
      · unfold serveOrHold
        split
        · simp only [kept_mk]
          apply kept_upd h2
          repeat' first
            | with_reducible exact mem_same
            | with_reducible exact host_same
            | with_reducible exact flt_same
            | with_reducible exact same
            | exact .inr (hw.bit (by decide))
        · unfold serve
          simp only [hs]
          exact serveCommit_kept _ _ (Sub.trans (by decide) hw) h2
      · exact h1
  · exact h1

theorem execRollback_kept (r : Req) (s : State) (hw : Sub 0x2c068000000000000000000000000004 W) (h_s : Kept W s0 s) :
    ∃ t', execRollback r s = .next t' ∧ Kept W s0 t' := by
  refine st_served_kept _ _ _ _ (Sub.trans (by decide) hw) h_s fun s h_s => ?_
  refine ⟨_, rfl, ?_⟩
  have h1 := st_fresh_kept _ (Sub.trans (by decide) hw) h_s
  unfold dictCmd
  split
  · rename_i a ha
    have hs : a.service = 5 := by
      unfold askOf at ha
      split at ha
      · cases ha; rfl
      · dsimp only at ha
        split at ha
        · cases ha
        · cases ha; rfl
    unfold arrive
    have h2 := slotBusy_kept a.path s.fresh (Sub.trans (by decide) hw) h1
    split
    · simp only [kept_mk]
      repeat' first
        | with_reducible assumption
        | with_reducible apply kept_upd
        | with_reducible exact mem_same
        | with_reducible exact host_same
        | with_reducible exact flt_same
        | with_reducible apply mem_upd
        | with_reducible apply host_upd
        | with_reducible apply flt_upd
        | with_reducible exact same
        | exact .inr (hw.bit (by decide))
    · split
      · unfold serveOrHold
        split
        · simp only [kept_mk]
          apply kept_upd h2
          repeat' first
            | with_reducible exact mem_same
            | with_reducible exact host_same
            | with_reducible exact flt_same
            | with_reducible exact same
            | exact .inr (hw.bit (by decide))
        · unfold serve
          simp only [hs]
          exact serveRollback_kept _ _ (Sub.trans (by decide) hw) h2
      · exact h1
  · exact h1

theorem execFwImage_kept (p : Path) (offset : Nat) (data : List Byte) (s : State)
    (hw : Sub 0x6fffbf071809101c88f049f290c34584 W) (h_s : Kept W s0 s) :
    ∃ t', execFwImage p offset data s = .next t' ∧ Kept W s0 t' := by
  unfold execFwImage
  refine st_served_kept _ _ _ _ (Sub.trans (by decide) hw) (by assumption) fun s h_s => ?_
  refine ⟨_, rfl, ?_⟩
  try dsimp only
  repeat' first
    | with_reducible assumption
    | (with_reducible refine st_fresh_kept _ (Sub.trans (by decide) hw) ?_ )
    | (with_reducible refine arrive_kept _ _ (Sub.trans (by decide) hw) ?_ )

end Sys2Proof.Laws
end

