-- ==== Sys2Proof/Laws/KeptDma.lean ====
section
/-! SUPPORT. One lemma per operation of Machine/Dma.lean: within which mask of parts it keeps the rest; a command's meaning
answers a next state that is so kept. The numeral of a mask has the bits of Area. -/
namespace Sys2Proof.Laws
open Sys2Proof Sys2Proof.Machine
variable {W : Nat} {s0 : State}

theorem issueReads_kept (n : Nat)
    (hw : Sub 0x10000000000000000000000000000 W) : ∀ s, Kept W s0 s → Kept W s0 (issueReads n s) := by
  induction n with
  | zero => intro s h; exact h
  | succ n ih =>
    intro s h
    unfold issueReads
    dsimp only
    split
    · exact h
    · refine ih _ (st_emit_kept _ _ (Sub.trans (by decide) hw) ?_)
      simp only [kept_mk]
      apply kept_upd h
      repeat' first
        | with_reducible exact same
        | with_reducible exact mem_same
        | with_reducible exact flt_same
        | with_reducible apply host_upd
        | exact .inr (hw.bit (by decide))

theorem issueLists_kept (n : Nat)
    (hw : Sub 0x4000000000000000000000000000 W) : ∀ s, Kept W s0 s → Kept W s0 (issueLists n s) := by
  induction n with
  | zero => intro s h; exact h
  | succ n ih =>
    intro s h
    unfold issueLists
    dsimp only
    split
    · exact h
    · exact kept_ite h (ih _ (st_emit_kept _ _ (Sub.trans (by decide) hw) (st_setQueue_kept _ _ _ (hw.bit (by decide)) h)))

theorem pumpReads_kept (s : State) (hw : Sub 0x14000000000000000000000000000 W) (h_s : Kept W s0 s) :
    Kept W s0 (pumpReads s) := by
  exact issueReads_kept _ (Sub.trans (by decide) hw) _ (issueLists_kept _ (Sub.trans (by decide) hw) _ h_s)

theorem answerReads_kept (s : State) (hw : Sub 0x14000000000000000000000000000 W) (h_s : Kept W s0 s) :
    Kept W s0 (answerReads s) := by
  have h1 := kept_queuesTo s (s.host.queues.zipIdx.map (fun x =>
    (x.1.1, if x.1.2.entry.isSome then { x.1.2 with fetch := x.1.2.fetch -
      (Config.freeInt (s.free + (s.host.flights.length + x.2))).toNat % (x.1.2.fetch + 1) } else x.1.2)))
    (fun c => (ksorted_zipIdx _ _ _).trans (h_s.can c).2.2.2.2.1) (hw.bit (by decide)) h_s
  unfold answerReads
  simp only [kept_mk]
  apply kept_upd h1
  repeat' first
    | with_reducible exact same
    | with_reducible exact mem_same
    | with_reducible apply host_upd
    | with_reducible exact flt_same
    | exact .inr (hw.bit (by decide))

theorem issueWrites_kept (n : Nat)
    (hw : Sub 0x18000000000000000000000000000 W) : ∀ s, Kept W s0 s → Kept W s0 (issueWrites n s) := by
  induction n with
  | zero => intro s h; exact h
  | succ n ih =>
    intro s h
    unfold issueWrites
    dsimp only
    split
    · exact h
    · refine ih _ (st_emit_kept _ _ (Sub.trans (by decide) hw) ?_)
      simp only [kept_mk]
      apply kept_upd (st_setFn_kept s _ _ (Sub.trans (by decide) hw) h)
      repeat' first
        | with_reducible exact same
        | with_reducible exact mem_same
        | with_reducible exact flt_same
        | with_reducible apply host_upd
        | exact .inr (hw.bit (by decide))

theorem pumpWrites_kept (s : State) (hw : Sub 0x18000000000000000000000000000 W) (h_s : Kept W s0 s) :
    Kept W s0 (pumpWrites s) := by
  exact issueWrites_kept _ (Sub.trans (by decide) hw) _ (st_advance_kept _ (Sub.trans (by decide) hw) h_s)

end Sys2Proof.Laws
end

