-- ==== Sys2Proof/Laws/KeptStreams.lean ====
section
/-! SUPPORT. One lemma per operation of Machine/Streams.lean: within which mask of parts it keeps the rest; a command's meaning
answers a next state that is so kept. The numeral of a mask has the bits of Area. -/
namespace Sys2Proof.Laws
open Sys2Proof Sys2Proof.Machine
variable {W : Nat} {s0 : State}

theorem feedDone_kept (n : StreamId) (t : Tag) (status result : Nat) (s : State)
    (hw : Sub 0x10000000000000000000200000000 W) (h_s : Kept W s0 s) :
    Kept W s0 (feedDone n t status result s) := by
  unfold feedDone
  try dsimp only
  repeat' first
    | with_reducible assumption
    | (with_reducible refine st_p_kept _ _ _ ?_ ?_)
    | (with_reducible refine st_complete_kept _ _ _ _ (Sub.trans (by decide) hw) ?_ )
    | (with_reducible refine may_sm (hw.bit (by decide)) _ _ ?_ ?_)
    | exact Fin.isLt _
    | decide

theorem dropFeeds_kept (n : StreamId) (s : State) (hw : Sub 0x10800000000000000000200000000 W) (h_s : Kept W s0 s) :
    Kept W s0 (dropFeeds n s) := by
  unfold dropFeeds
  try dsimp only
  repeat' first
    | with_reducible assumption
    | intro _
    | (with_reducible refine st_setStrm_kept _ _ _ (Sub.trans (by decide) hw) ?_ )
    | (with_reducible refine feedDone_kept _ _ _ _ _ (Sub.trans (by decide) hw) ?_ )
    | with_reducible apply kept_foldl

theorem emptyRing_kept (n : StreamId) (s : State) (hw : Sub 0x800000000000000000200000000 W) (h_s : Kept W s0 s) :
    Kept W s0 (emptyRing n s) := by
  unfold emptyRing
  try dsimp only
  repeat' first
    | with_reducible assumption
    | (with_reducible refine st_p_kept _ _ _ ?_ ?_)
    | (with_reducible refine st_setStrm_kept _ _ _ (Sub.trans (by decide) hw) ?_ )
    | (with_reducible refine may_sm (hw.bit (by decide)) _ _ ?_ ?_)
    | exact Fin.isLt _
    | decide

theorem streamOpen_kept (t : Tag) (n : StreamId) (q : QueueId) (octets : BitVec 32) (beats : Fin 4) (s : State)
    (hw : Sub 0x14800000000000000000200000000 W) (h_s : Kept W s0 s) :
    Kept W s0 (streamOpen t n q octets beats s) := by
  unfold streamOpen
  try dsimp only
  repeat' first
    | with_reducible assumption
    | (with_reducible refine st_p_kept _ _ _ ?_ ?_)
    | (with_reducible refine st_setStrm_kept _ _ _ (Sub.trans (by decide) hw) ?_ )
    | (with_reducible refine st_setQueue_kept _ _ _ (hw.bit (by decide)) ?_)
    | (with_reducible refine st_complete_kept _ _ _ _ (Sub.trans (by decide) hw) ?_ )
    | (with_reducible refine st_refuse_kept _ _ _ (Sub.trans (by decide) hw) ?_ )
    | (with_reducible refine emptyRing_kept _ _ (Sub.trans (by decide) hw) ?_ )
    | (with_reducible refine may_sm (hw.bit (by decide)) _ _ ?_ ?_)
    | exact Fin.isLt _
    | decide
    | split

theorem execStreamOpen_kept (t : Tag) (n : StreamId) (q : QueueId) (octets : BitVec 32) (beats : Fin 4) (s : State)
    (hw : Sub 0x20014800000000000000000200000000 W) (h_s : Kept W s0 s) :
    ∃ t', execStreamOpen t n q octets beats s = .next t' ∧ Kept W s0 t' := by
  unfold execStreamOpen
  refine st_queued_kept _ _ _ _ _ (Sub.trans (by decide) hw) (by assumption) fun s h_s => ?_
  refine ⟨_, rfl, ?_⟩
  try dsimp only
  repeat' first
    | with_reducible assumption
    | intro _
    | (with_reducible refine st_fresh_kept _ (Sub.trans (by decide) hw) ?_ )
    | (with_reducible refine st_inRange_kept _ _ _ _ (Sub.trans (by decide) hw) ?_ ?_ )
    | (with_reducible refine streamOpen_kept _ _ _ _ _ _ (Sub.trans (by decide) hw) ?_ )

theorem streamReset_kept (t : Tag) (n : StreamId) (s : State) (hw : Sub 0x10800000000000000000200000000 W) (h_s : Kept W s0 s) :
    Kept W s0 (streamReset t n s) := by
  unfold streamReset
  try dsimp only
  repeat' first
    | with_reducible assumption
    | (with_reducible refine st_p_kept _ _ _ ?_ ?_)
    | (with_reducible refine st_complete_kept _ _ _ _ (Sub.trans (by decide) hw) ?_ )
    | (with_reducible refine st_refuse_kept _ _ _ (Sub.trans (by decide) hw) ?_ )
    | (with_reducible refine dropFeeds_kept _ _ (Sub.trans (by decide) hw) ?_ )
    | (with_reducible refine emptyRing_kept _ _ (Sub.trans (by decide) hw) ?_ )
    | with_reducible apply kept_ite
    | (with_reducible refine may_sm (hw.bit (by decide)) _ _ ?_ ?_)
    | exact Fin.isLt _
    | decide

theorem execStreamReset_kept (t : Tag) (n : StreamId) (s : State)
    (hw : Sub 0x20010800000000000000000200000000 W) (h_s : Kept W s0 s) :
    ∃ t', execStreamReset t n s = .next t' ∧ Kept W s0 t' := by
  unfold execStreamReset
  refine st_queued_kept _ _ _ _ _ (Sub.trans (by decide) hw) (by assumption) fun s h_s => ?_
  refine ⟨_, rfl, ?_⟩
  try dsimp only
  repeat' first
    | with_reducible assumption
    | (with_reducible refine st_fresh_kept _ (Sub.trans (by decide) hw) ?_ )
    | (with_reducible refine streamReset_kept _ _ _ (Sub.trans (by decide) hw) ?_ )

theorem streamClose_kept (t : Tag) (n : StreamId) (s : State) (hw : Sub 0x14800000000000000000200000000 W) (h_s : Kept W s0 s) :
    Kept W s0 (streamClose t n s) := by
  unfold streamClose
  try dsimp only
  repeat' first
    | with_reducible assumption
    | (with_reducible refine st_p_kept _ _ _ ?_ ?_)
    | (with_reducible refine st_setQueue_kept _ _ _ (hw.bit (by decide)) ?_)
    | (with_reducible refine st_complete_kept _ _ _ _ (Sub.trans (by decide) hw) ?_ )
    | (with_reducible refine st_refuse_kept _ _ _ (Sub.trans (by decide) hw) ?_ )
    | (with_reducible refine dropFeeds_kept _ _ (Sub.trans (by decide) hw) ?_ )
    | (with_reducible refine emptyRing_kept _ _ (Sub.trans (by decide) hw) ?_ )
    | (with_reducible refine may_sm (hw.bit (by decide)) _ _ ?_ ?_)
    | exact Fin.isLt _
    | decide
    | split

theorem execStreamClose_kept (t : Tag) (n : StreamId) (s : State)
    (hw : Sub 0x20014800000000000000000200000000 W) (h_s : Kept W s0 s) :
    ∃ t', execStreamClose t n s = .next t' ∧ Kept W s0 t' := by
  unfold execStreamClose
  refine st_queued_kept _ _ _ _ _ (Sub.trans (by decide) hw) (by assumption) fun s h_s => ?_
  refine ⟨_, rfl, ?_⟩
  try dsimp only
  repeat' first
    | with_reducible assumption
    | (with_reducible refine st_fresh_kept _ (Sub.trans (by decide) hw) ?_ )
    | (with_reducible refine streamClose_kept _ _ _ (Sub.trans (by decide) hw) ?_ )

theorem ringStore_kept (n : StreamId) (y : List Byte) (s : State) (hw : Sub 0x800000000000000000200000000 W) (h_s : Kept W s0 s) :
    Kept W s0 (ringStore n y s) := by
  unfold ringStore
  try dsimp only
  repeat' first
    | with_reducible assumption
    | (with_reducible refine st_p_kept _ _ _ ?_ ?_)
    | (with_reducible refine st_setStrm_kept _ _ _ (Sub.trans (by decide) hw) ?_ )
    | with_reducible apply kept_ite
    | (with_reducible refine may_sm (hw.bit (by decide)) _ _ ?_ ?_)
    | exact Fin.isLt _
    | decide

theorem feedGo_kept (n : StreamId) (t : Tag) (l : List (List Byte)) (hw : Sub 0x10800000000000000000200000000 W) :
    ∀ (k : Nat) (s : State), Kept W s0 s → Kept W s0 (feedGo n t l k s) := by
  induction l with
  | nil => intro k s h; exact feedDone_kept _ _ _ _ _ (Sub.trans (by decide) hw) h
  | cons y r ih =>
    intro k s h
    unfold feedGo
    dsimp only
    repeat' first
      | with_reducible assumption
      | with_reducible apply kept_ite
      | with_reducible refine feedDone_kept _ _ _ _ _ (Sub.trans (by decide) hw) ?_
      | with_reducible apply ih
      | with_reducible refine ringStore_kept _ _ _ (Sub.trans (by decide) hw) ?_

theorem streamFeed_kept (t : Tag) (data : List Byte) (s : State)
    (hw : Sub 0x18800000000000000000200000000 W) (h_s : Kept W s0 s) :
    Kept W s0 (streamFeed t data s) := by
  unfold streamFeed
  try dsimp only
  repeat' first
    | with_reducible assumption
    | with_reducible refine st_refuse_kept _ _ _ (Sub.trans (by decide) hw) ?_
    | with_reducible refine st_complete_kept _ _ _ _ (Sub.trans (by decide) hw) ?_
    | with_reducible refine st_fromHost_kept _ _ _ (Sub.trans (by decide) hw) ?_
    | exact feedGo_kept _ _ _ (Sub.trans (by decide) hw) _ _ (st_fromHost_kept _ _ _ (Sub.trans (by decide) hw) h_s)
    | with_reducible apply kept_ite
    | refine st_setStrm_kept _ _ _ (Sub.trans (by decide) hw) ?_
    | split

theorem execStreamFeed_kept (t : Tag) (data : List Byte) (s : State)
    (hw : Sub 0x20018800000000000000000200000000 W) (h_s : Kept W s0 s) :
    ∃ t', execStreamFeed t data s = .next t' ∧ Kept W s0 t' := by
  unfold execStreamFeed
  refine st_queued_kept _ _ _ _ _ (Sub.trans (by decide) hw) (by assumption) fun s h_s => ?_
  refine ⟨_, rfl, ?_⟩
  try dsimp only
  repeat' first
    | with_reducible assumption
    | intro _
    | (with_reducible refine st_fresh_kept _ (Sub.trans (by decide) hw) ?_ )
    | (with_reducible refine st_inRange_kept _ _ _ _ (Sub.trans (by decide) hw) ?_ ?_ )
    | (with_reducible refine streamFeed_kept _ _ _ (Sub.trans (by decide) hw) ?_ )

theorem streamFeedResume_kept (n : StreamId) (s : State) (hw : Sub 0x10800000000000000000200000000 W) (h_s : Kept W s0 s) :
    Kept W s0 (streamFeedResume n s) := by
  unfold streamFeedResume
  try dsimp only
  repeat' first
    | with_reducible assumption
    | refine feedGo_kept _ _ _ (Sub.trans (by decide) hw) _ _ ?_
    | with_reducible apply kept_ite
    | refine st_setStrm_kept _ _ _ (Sub.trans (by decide) hw) ?_
    | split

theorem execStreamFeedResume_kept (n : StreamId) (s : State) (hw : Sub 0x10800000000000000000200000000 W) (h_s : Kept W s0 s) :
    ∃ t', execStreamFeedResume n s = .next t' ∧ Kept W s0 t' := by
  unfold execStreamFeedResume
  refine ⟨_, rfl, ?_⟩
  try dsimp only
  repeat' first
    | with_reducible assumption
    | intro _
    | (with_reducible refine st_fresh_kept _ (Sub.trans (by decide) hw) ?_ )
    | (with_reducible refine st_timed_kept _ _ (Sub.trans (by decide) hw) ?_ ?_ )
    | (with_reducible refine streamFeedResume_kept _ _ (Sub.trans (by decide) hw) ?_ )

end Sys2Proof.Laws
end

