-- ==== Sys2Proof/Laws/KeptHost.lean ====
section
/-! SUPPORT. One lemma per operation of Machine/Host.lean: within which mask of parts it keeps the rest; a command's meaning
answers a next state that is so kept. The numeral of a mask has the bits of Area. -/
namespace Sys2Proof.Laws
open Sys2Proof Sys2Proof.Machine
variable {W : Nat} {s0 : State}

theorem endFlight_kept (t : Tag) (s : State) (hw : Sub 0x10000000000000000000000000000 W) (h_s : Kept W s0 s) :
    Kept W s0 (endFlight t s) := by
  unfold endFlight
  try dsimp only
  repeat' first
    | with_reducible assumption
    | with_reducible exact same
    | with_reducible exact mem_same
    | with_reducible exact flt_same
    | with_reducible apply host_upd
    | exact .inr (hw.bit (by decide))
    | simp only [kept_mk]
    | with_reducible apply kept_upd

theorem dropQueue_kept (q : Nat) (s : State) (hw : Sub 0x14000000000000000000000000000 W) (h_s : Kept W s0 s) :
    Kept W s0 (dropQueue q s) := by
  unfold dropQueue
  try dsimp only
  repeat' first
    | with_reducible assumption
    | (with_reducible refine st_setQueue_kept _ _ _ (hw.bit (by decide)) ?_)
    | with_reducible exact same
    | with_reducible exact mem_same
    | with_reducible exact flt_same
    | with_reducible apply host_upd
    | exact .inr (hw.bit (by decide))
    | simp only [kept_mk]
    | with_reducible apply kept_upd
    | split

theorem dropQueues_kept (p : Nat → Queue → Bool) (s : State) (hw : Sub 0x14000000000000000000000000000 W) (h_s : Kept W s0 s) :
    Kept W s0 (dropQueues p s) := by
  unfold dropQueues
  try dsimp only
  repeat' first
    | with_reducible assumption
    | intro _
    | (with_reducible refine dropQueue_kept _ _ (Sub.trans (by decide) hw) ?_ )
    | with_reducible apply kept_foldl

theorem queueError_kept (q : Nat) (s : State) (hw : Sub 0x4000000000000000000000000000 W) (h_s : Kept W s0 s) :
    Kept W s0 (queueError q s) := by
  unfold queueError
  try dsimp only
  repeat' first
    | with_reducible assumption
    | (with_reducible refine st_setQueue_kept _ _ _ (hw.bit (by decide)) ?_)
    | split

theorem qDone_kept (f : FnId) (status : Nat) (s : State) (hw : Sub 0x8000000000000000000000000000 W) (h_s : Kept W s0 s) :
    Kept W s0 (qDone f status s) := by
  unfold qDone
  try dsimp only
  repeat' first
    | with_reducible assumption
    | (with_reducible refine st_setFn_kept _ _ _ (Sub.trans (by decide) hw) ?_ )

theorem queueCreate_kept (f : FnId) (s : State) (hw : Sub 0xc000000000000000000000000000 W) (h_s : Kept W s0 s) :
    Kept W s0 (queueCreate f s) := by
  unfold queueCreate
  try dsimp only
  repeat' first
    | with_reducible assumption
    | (with_reducible refine st_setQueue_kept _ _ _ (hw.bit (by decide)) ?_)
    | (with_reducible refine qDone_kept _ _ _ (Sub.trans (by decide) hw) ?_ )
    | with_reducible apply kept_ite

theorem execCreate_kept (f : FnId) (s : State) (hw : Sub 0x2000c000000000000000000000000000 W) (h_s : Kept W s0 s) :
    ∃ t', execCreate f s = .next t' ∧ Kept W s0 t' := by
  unfold execCreate
  refine st_served_kept _ _ _ _ (Sub.trans (by decide) hw) (by assumption) fun s h_s => ?_
  refine ⟨_, rfl, ?_⟩
  try dsimp only
  repeat' first
    | with_reducible assumption
    | (with_reducible refine st_fresh_kept _ (Sub.trans (by decide) hw) ?_ )
    | (with_reducible refine queueCreate_kept _ _ (Sub.trans (by decide) hw) ?_ )
    | with_reducible apply kept_ite

theorem queueDelete_kept (f : FnId) (s : State) (hw : Sub 0x1c000000000000000000000000000 W) (h_s : Kept W s0 s) :
    Kept W s0 (queueDelete f s) := by
  unfold queueDelete
  try dsimp only
  repeat' first
    | with_reducible assumption
    | (with_reducible refine st_advance_kept _ (Sub.trans (by decide) hw) ?_ )
    | (with_reducible refine dropQueue_kept _ _ (Sub.trans (by decide) hw) ?_ )
    | (with_reducible refine qDone_kept _ _ _ (Sub.trans (by decide) hw) ?_ )
    | split

theorem execDelete_kept (f : FnId) (s : State) (hw : Sub 0x2001c000000000000000000000000000 W) (h_s : Kept W s0 s) :
    ∃ t', execDelete f s = .next t' ∧ Kept W s0 t' := by
  unfold execDelete
  refine st_served_kept _ _ _ _ (Sub.trans (by decide) hw) (by assumption) fun s h_s => ?_
  refine ⟨_, rfl, ?_⟩
  try dsimp only
  repeat' first
    | with_reducible assumption
    | (with_reducible refine st_fresh_kept _ (Sub.trans (by decide) hw) ?_ )
    | (with_reducible refine queueDelete_kept _ _ (Sub.trans (by decide) hw) ?_ )
    | with_reducible apply kept_ite

theorem execQueueAbsent_kept (q : QueueId) (s : State) (hw : Sub 0x20004000000000000000000000000000 W) (h_s : Kept W s0 s) :
    ∃ t', execQueueAbsent q s = .next t' ∧ Kept W s0 t' := by
  refine st_served_kept _ _ _ _ (Sub.trans (by decide) hw) h_s fun s h_s => ?_
  refine ⟨_, rfl, ?_⟩
  have h1 := st_fresh_kept _ (Sub.trans (by decide) hw) h_s
  dsimp only
  split
  · split
    · exact kept_delQueue _ _ (hw.bit (by decide)) h1
    · exact h1
  · exact h1

theorem queueRead_kept (f : FnId) (s : State) (hw : Sub 0x8000000000000000000000000000 W) (h_s : Kept W s0 s) :
    Kept W s0 (queueRead f s) := by
  unfold queueRead
  try dsimp only
  repeat' first
    | with_reducible assumption
    | (with_reducible refine st_setFn_kept _ _ _ (Sub.trans (by decide) hw) ?_ )
    | (with_reducible refine qDone_kept _ _ _ (Sub.trans (by decide) hw) ?_ )
    | with_reducible apply kept_ite
    | with_reducible exact same
    | with_reducible exact mem_same
    | with_reducible exact host_same
    | with_reducible exact flt_same
    | simp only [kept_mk]
    | with_reducible apply kept_upd

theorem execQRead_kept (f : FnId) (s : State) (hw : Sub 0x20008000000000000000000000000000 W) (h_s : Kept W s0 s) :
    ∃ t', execQRead f s = .next t' ∧ Kept W s0 t' := by
  unfold execQRead
  refine st_served_kept _ _ _ _ (Sub.trans (by decide) hw) (by assumption) fun s h_s => ?_
  refine ⟨_, rfl, ?_⟩
  try dsimp only
  repeat' first
    | with_reducible assumption
    | (with_reducible refine st_fresh_kept _ (Sub.trans (by decide) hw) ?_ )
    | (with_reducible refine queueRead_kept _ _ (Sub.trans (by decide) hw) ?_ )
    | with_reducible apply kept_ite

theorem badDoorbell_kept (f : FnId) (q : Nat) (s : State) (hw : Sub 0x44000000000000000000000000000 W) (h_s : Kept W s0 s) :
    Kept W s0 (badDoorbell f q s) := by
  unfold badDoorbell
  try dsimp only
  repeat' first
    | with_reducible assumption
    | (with_reducible refine st_report_kept _ _ _ _ (Sub.trans (by decide) hw) ?_ )
    | (with_reducible refine queueError_kept _ _ (Sub.trans (by decide) hw) ?_ )

theorem ignoredDoorbell_kept (f : FnId) (s : State) (hw : Sub 0x8000000000000000000000000000 W) (h_s : Kept W s0 s) :
    Kept W s0 (ignoredDoorbell f s) := by
  unfold ignoredDoorbell
  try dsimp only
  repeat' first
    | with_reducible assumption
    | (with_reducible refine st_setFn_kept _ _ _ (Sub.trans (by decide) hw) ?_ )

theorem doorbell_kept (act : Queue → State → State) (f : FnId) (q : Nat) (s : State)
    (hw : Sub 0x8000000000000000000000000000 W) (h_act : ∀ a0 s, Kept W s0 s → Kept W s0 (act a0 s)) (h_s : Kept W s0 s) :
    Kept W s0 (doorbell act f q s) := by
  unfold doorbell
  try dsimp only
  repeat' first
    | with_reducible assumption
    | apply h_act
    | (with_reducible refine ignoredDoorbell_kept _ _ (Sub.trans (by decide) hw) ?_ )
    | split

theorem sqTail_kept (f : FnId) (q v : Nat) (x : Queue) (s : State)
    (hw : Sub 0x44000000000000000000000000000 W) (h_s : Kept W s0 s) :
    Kept W s0 (sqTail f q v x s) := by
  unfold sqTail
  try dsimp only
  repeat' first
    | with_reducible assumption
    | (with_reducible refine st_setQueue_kept _ _ _ (hw.bit (by decide)) ?_)
    | (with_reducible refine badDoorbell_kept _ _ _ (Sub.trans (by decide) hw) ?_ )
    | with_reducible apply kept_ite

theorem execSqTailDoorbell_kept (f : FnId) (q : QueueId) (v : BitVec 16) (s : State)
    (hw : Sub 0x2004c000000000000000000000000000 W) (h_s : Kept W s0 s) :
    ∃ t', execSqTailDoorbell f q v s = .next t' ∧ Kept W s0 t' := by
  unfold execSqTailDoorbell
  refine st_served_kept _ _ _ _ (Sub.trans (by decide) hw) (by assumption) fun s h_s => ?_
  refine ⟨_, rfl, ?_⟩
  try dsimp only
  repeat' first
    | with_reducible assumption
    | intro _
    | (with_reducible refine st_fresh_kept _ (Sub.trans (by decide) hw) ?_ )
    | (with_reducible refine doorbell_kept _ _ _ _ (Sub.trans (by decide) hw) ?_ ?_ )
    | (with_reducible refine sqTail_kept _ _ _ _ _ (Sub.trans (by decide) hw) ?_ )

theorem cqHead_kept (f : FnId) (q v : Nat) (x : Queue) (s : State)
    (hw : Sub 0x44000000000000000000000000000 W) (h_s : Kept W s0 s) :
    Kept W s0 (cqHead f q v x s) := by
  unfold cqHead
  try dsimp only
  repeat' first
    | with_reducible assumption
    | (with_reducible refine st_setQueue_kept _ _ _ (hw.bit (by decide)) ?_)
    | (with_reducible refine badDoorbell_kept _ _ _ (Sub.trans (by decide) hw) ?_ )
    | with_reducible apply kept_ite

theorem execCqHeadDoorbell_kept (f : FnId) (q : QueueId) (v : BitVec 16) (s : State)
    (hw : Sub 0x2004c000000000000000000000000000 W) (h_s : Kept W s0 s) :
    ∃ t', execCqHeadDoorbell f q v s = .next t' ∧ Kept W s0 t' := by
  unfold execCqHeadDoorbell
  refine st_served_kept _ _ _ _ (Sub.trans (by decide) hw) (by assumption) fun s h_s => ?_
  refine ⟨_, rfl, ?_⟩
  try dsimp only
  repeat' first
    | with_reducible assumption
    | intro _
    | (with_reducible refine st_fresh_kept _ (Sub.trans (by decide) hw) ?_ )
    | (with_reducible refine doorbell_kept _ _ _ _ (Sub.trans (by decide) hw) ?_ ?_ )
    | (with_reducible refine cqHead_kept _ _ _ _ _ (Sub.trans (by decide) hw) ?_ )

theorem beginReads_kept (t : Tag) (n : Nat) (s : State) (hw : Sub 0x10000000000000000000000000000 W) (h_s : Kept W s0 s) :
    Kept W s0 (beginReads t n s) := by
  unfold beginReads
  try dsimp only
  repeat' first
    | with_reducible assumption
    | with_reducible exact same
    | with_reducible exact mem_same
    | with_reducible exact flt_same
    | with_reducible apply host_upd
    | exact .inr (hw.bit (by decide))
    | simp only [kept_mk]
    | with_reducible apply kept_upd

theorem issueFetches_kept (n : Nat)
    (hw : Sub 0x14000000000000000000000000000 W) : ∀ s, Kept W s0 s → Kept W s0 (issueFetches n s) := by
  induction n with
  | zero => intro s h; exact h
  | succ n ih =>
    intro s h
    unfold issueFetches
    dsimp only
    split
    · exact h
    · refine kept_ite h (ih _ (st_emit_kept _ _ (Sub.trans (by decide) hw) (st_setQueue_kept _ _ _ (hw.bit (by decide)) ?_)))
      simp only [kept_mk]
      apply kept_upd h
      repeat' first
        | with_reducible exact same
        | with_reducible exact mem_same
        | with_reducible exact flt_same
        | with_reducible apply host_upd
        | exact .inr (hw.bit (by decide))

theorem dispatch_kept (q : QueueId) (x : Queue) (e : BitVec 512) (l : List (BitVec 128)) (s : State)
    (hw : Sub 0x1c000000000000000000000000000 W) (h_s : Kept W s0 s) :
    Kept W s0 (dispatch q x e l s) := by
  unfold dispatch
  try dsimp only
  repeat' first
    | with_reducible assumption
    | (with_reducible refine st_emit_kept _ _ (Sub.trans (by decide) hw) ?_ )
    | (with_reducible refine st_setQueue_kept _ _ _ (hw.bit (by decide)) ?_)
    | (with_reducible refine st_refuse_kept _ _ _ (Sub.trans (by decide) hw) ?_ )
    | (with_reducible refine st_fromHost_kept _ _ _ (Sub.trans (by decide) hw) ?_ )
    | (with_reducible refine pumpReads_kept _ (Sub.trans (by decide) hw) ?_ )
    | (with_reducible refine beginReads_kept _ _ _ (Sub.trans (by decide) hw) ?_ )
    | with_reducible apply kept_ite
    | with_reducible exact same
    | with_reducible exact mem_same
    | with_reducible exact flt_same
    | with_reducible apply host_upd
    | exact .inr (hw.bit (by decide))
    | simp only [kept_mk]
    | with_reducible apply kept_upd

theorem sqFetch_kept (q : QueueId) (e : BitVec 512) (l : List (BitVec 128)) (s : State)
    (hw : Sub 0x1c000000000000000000000000000 W) (h_s : Kept W s0 s) :
    Kept W s0 (sqFetch q e l s) := by
  unfold sqFetch
  try dsimp only
  repeat' first
    | with_reducible assumption
    | (with_reducible refine st_setQueue_kept _ _ _ (hw.bit (by decide)) ?_)
    | (with_reducible refine pumpReads_kept _ (Sub.trans (by decide) hw) ?_ )
    | (with_reducible refine dispatch_kept _ _ _ _ _ (Sub.trans (by decide) hw) ?_ )
    | split

theorem execSqFetch_kept (q : QueueId) (e : BitVec 512) (l : List (BitVec 128)) (s : State)
    (hw : Sub 0x2001c000000000000000000000000000 W) (h_s : Kept W s0 s) :
    ∃ t', execSqFetch q e l s = .next t' ∧ Kept W s0 t' := by
  unfold execSqFetch
  refine st_served_kept _ _ _ _ (Sub.trans (by decide) hw) (by assumption) fun s h_s => ?_
  refine ⟨_, rfl, ?_⟩
  try dsimp only
  repeat' first
    | with_reducible assumption
    | (with_reducible refine st_fresh_kept _ (Sub.trans (by decide) hw) ?_ )
    | (with_reducible refine sqFetch_kept _ _ _ _ (Sub.trans (by decide) hw) ?_ )

theorem cqPost_kept (q : QueueId) (e : BitVec 128) (s : State) (hw : Sub 0xc000000000000000000000000000 W) (h_s : Kept W s0 s) :
    Kept W s0 (cqPost q e s) := by
  unfold cqPost
  try dsimp only
  repeat' first
    | with_reducible assumption
    | (with_reducible refine st_emit_kept _ _ (Sub.trans (by decide) hw) ?_ )
    | (with_reducible refine st_setQueue_kept _ _ _ (hw.bit (by decide)) ?_)
    | (with_reducible refine st_setFn_kept _ _ _ (Sub.trans (by decide) hw) ?_ )
    | (with_reducible refine signal_kept _ _ _ (Sub.trans (by decide) hw) ?_ )
    | split

theorem completionPost_kept (t : Tag) (s : State) (hw : Sub 0x1c000000000000000000000000000 W) (h_s : Kept W s0 s) :
    Kept W s0 (completionPost t s) := by
  unfold completionPost
  try dsimp only
  repeat' first
    | with_reducible assumption
    | (with_reducible refine st_setFn_kept _ _ _ (Sub.trans (by decide) hw) ?_ )
    | (with_reducible refine endFlight_kept _ _ (Sub.trans (by decide) hw) ?_ )
    | (with_reducible refine cqPost_kept _ _ _ (Sub.trans (by decide) hw) ?_ )
    | with_reducible exact same
    | with_reducible exact mem_same
    | with_reducible exact flt_same
    | with_reducible apply host_upd
    | exact .inr (hw.bit (by decide))
    | simp only [kept_mk]
    | with_reducible apply kept_upd
    | split

theorem execCompletionPost_kept (t : Tag) (s : State) (hw : Sub 0x2001c000000000000000000000000000 W) (h_s : Kept W s0 s) :
    ∃ t', execCompletionPost t s = .next t' ∧ Kept W s0 t' := by
  unfold execCompletionPost
  refine st_served_kept _ _ _ _ (Sub.trans (by decide) hw) (by assumption) fun s h_s => ?_
  refine ⟨_, rfl, ?_⟩
  try dsimp only
  repeat' first
    | with_reducible assumption
    | (with_reducible refine st_fresh_kept _ (Sub.trans (by decide) hw) ?_ )
    | (with_reducible refine completionPost_kept _ _ (Sub.trans (by decide) hw) ?_ )

theorem coalesceTimer_kept (q : QueueId) (s : State) (hw : Sub 0xc000000000000000000000000000 W) (h_s : Kept W s0 s) :
    Kept W s0 (coalesceTimer q s) := by
  unfold coalesceTimer
  try dsimp only
  repeat' first
    | with_reducible assumption
    | (with_reducible refine st_setQueue_kept _ _ _ (hw.bit (by decide)) ?_)
    | (with_reducible refine signal_kept _ _ _ (Sub.trans (by decide) hw) ?_ )
    | split

theorem execInterruptCoalesceTimer_kept (q : QueueId) (s : State)
    (hw : Sub 0x2000c000000000000000000000000000 W) (h_s : Kept W s0 s) :
    ∃ t', execInterruptCoalesceTimer q s = .next t' ∧ Kept W s0 t' := by
  unfold execInterruptCoalesceTimer
  refine st_served_kept _ _ _ _ (Sub.trans (by decide) hw) (by assumption) fun s h_s => ?_
  refine ⟨_, rfl, ?_⟩
  try dsimp only
  repeat' first
    | with_reducible assumption
    | (with_reducible refine st_fresh_kept _ (Sub.trans (by decide) hw) ?_ )
    | (with_reducible refine coalesceTimer_kept _ _ (Sub.trans (by decide) hw) ?_ )

theorem eventPost_kept (i : SiteId) (s : State) (hw : Sub 0x4e000000000000000000000000080 W) (h_s : Kept W s0 s) :
    Kept W s0 (eventPost i s) := by
  unfold eventPost
  try dsimp only
  repeat' first
    | with_reducible assumption
    | (with_reducible refine st_modSite_kept _ _ _ (Sub.trans (by decide) hw) ?_ )
    | (with_reducible refine cqPost_kept _ _ _ (Sub.trans (by decide) hw) ?_ )
    | split

theorem execEventPost_kept (i : SiteId) (s : State) (hw : Sub 0x2004e000000000000000000000000080 W) (h_s : Kept W s0 s) :
    ∃ t', execEventPost i s = .next t' ∧ Kept W s0 t' := by
  unfold execEventPost
  refine st_served_kept _ _ _ _ (Sub.trans (by decide) hw) (by assumption) fun s h_s => ?_
  refine ⟨_, rfl, ?_⟩
  try dsimp only
  repeat' first
    | with_reducible assumption
    | (with_reducible refine st_fresh_kept _ (Sub.trans (by decide) hw) ?_ )
    | (with_reducible refine eventPost_kept _ _ (Sub.trans (by decide) hw) ?_ )

theorem feedCut_kept (n : StreamId) (l : List (List Byte)) (hw : Sub 0x800000000000000000200000000 W) :
    ∀ (k : Nat) (s : State), Kept W s0 s → Kept W s0 (feedCut n l k s).2 := by
  induction l with
  | nil => intro k s h; exact h
  | cons y r ih =>
    intro k s h
    unfold feedCut
    split
    · exact h
    · exact ih _ _ (ringStore_kept _ _ _ (Sub.trans (by decide) hw) h)

theorem dmaKept_kept (t : Tag) (cut : DmaCut) (s : State) (hw : Sub 0x18e00000000000000000200020000 W) (h_s : Kept W s0 s) :
    Kept W s0 (dmaKept t cut s).2 := by
  unfold dmaKept
  split
  · split
    · dsimp only
      split
      · exact h_s
      · exact st_setSeg_kept _ _ _ (hw.bit (by decide)) (st_fromHost_kept _ _ _ (Sub.trans (by decide) hw) h_s)
    · exact h_s
  · split
    · rename_i n _
      have h1 := st_p_kept _ (K.sm_LAST_STATUS n) Status.Q_DMA_ERROR (may_sm (hw.bit (by decide)) _ _ (Fin.isLt _) (by decide)) h_s
      dsimp only
      split
      · exact st_setStrm_kept _ _ _ (Sub.trans (by decide) hw) h1
      · exact feedCut_kept _ _ (Sub.trans (by decide) hw) _ _ (st_fromHost_kept _ _ _ (Sub.trans (by decide) hw) h1)
    · exact h_s
  · exact csStore_kept _ _ _ (Sub.trans (by decide) hw) (st_fromHost_kept _ _ _ (Sub.trans (by decide) hw) h_s)
  · exact h_s

theorem dmaError_kept (t : Tag) (cut : DmaCut) (s : State) (hw : Sub 0x1ce00000000000000000200020000 W) (h_s : Kept W s0 s) :
    Kept W s0 (dmaError t cut s) := by
  unfold dmaError
  try dsimp only
  repeat' first
    | with_reducible assumption
    | (with_reducible refine st_complete_kept _ _ _ _ (Sub.trans (by decide) hw) ?_ )
    | (with_reducible refine endFlight_kept _ _ (Sub.trans (by decide) hw) ?_ )
    | (with_reducible refine queueError_kept _ _ (Sub.trans (by decide) hw) ?_ )
    | (with_reducible refine dmaKept_kept _ _ _ (Sub.trans (by decide) hw) ?_ )
    | with_reducible apply kept_ite
    | with_reducible exact same
    | with_reducible exact mem_same
    | with_reducible exact flt_same
    | with_reducible apply host_upd
    | exact .inr (hw.bit (by decide))
    | simp only [kept_mk]
    | with_reducible apply kept_upd

theorem execQDmaError_kept (t : Tag) (cut : DmaCut) (s : State)
    (hw : Sub 0x2001ce00000000000000000200020000 W) (h_s : Kept W s0 s) :
    ∃ t', execQDmaError t cut s = .next t' ∧ Kept W s0 t' := by
  unfold execQDmaError
  refine st_served_kept _ _ _ _ (Sub.trans (by decide) hw) (by assumption) fun s h_s => ?_
  refine ⟨_, rfl, ?_⟩
  try dsimp only
  repeat' first
    | with_reducible assumption
    | (with_reducible refine st_fresh_kept _ (Sub.trans (by decide) hw) ?_ )
    | (with_reducible refine dmaError_kept _ _ _ (Sub.trans (by decide) hw) ?_ )

theorem read4_kept (f : FnId) (off : Nat) (s : State) (hw : Sub 0x8000000000000000000000000000 W) (h_s : Kept W s0 s) :
    Kept W s0 (read4 f off s).2 := by
  unfold read4
  try dsimp only
  repeat' first
    | with_reducible assumption
    | (with_reducible refine st_setFn_kept _ _ _ (Sub.trans (by decide) hw) ?_ )
    | split

theorem barBytes_kept (f : FnId) (off len : Nat) (s : State) (hw : Sub 0x18000000000000000000000000000 W) (h_s : Kept W s0 s) :
    Kept W s0 (barBytes f off len s).2 := by
  unfold barBytes
  try dsimp only
  repeat' first
    | with_reducible assumption
    | (with_reducible refine read4_kept _ _ _ (Sub.trans (by decide) hw) ?_ )
    | split

theorem cfgRequest_kept (f : FnId) (act : State → State) (s : State)
    (hw : Sub 0x0 W) (h_act : ∀  s, Kept W s0 s → Kept W s0 (act  s)) (h_s : Kept W s0 s) :
    Kept W s0 (cfgRequest f act s) := by
  unfold cfgRequest
  try dsimp only
  repeat' first
    | with_reducible assumption
    | apply h_act
    | (with_reducible refine st_emit_kept _ _ (Sub.trans (by decide) hw) ?_ )
    | with_reducible apply kept_ite

theorem regRead_kept (f : FnId) (r : RegR) (len : Nat) (s : State)
    (hw : Sub 0x18000000000000000000000000000 W) (h_s : Kept W s0 s) :
    Kept W s0 (regRead f r len s) := by
  unfold regRead
  try dsimp only
  repeat' first
    | with_reducible assumption
    | intro _
    | (with_reducible refine st_emit_kept _ _ (Sub.trans (by decide) hw) ?_ )
    | (with_reducible refine barBytes_kept _ _ _ _ (Sub.trans (by decide) hw) ?_ )
    | (with_reducible refine cfgRequest_kept _ _ _ (Sub.trans (by decide) hw) ?_ ?_ )
    | split

theorem execBar64HalfRead_kept (f : FnId) (r : RegR) (len : Nat) (s : State)
    (hw : Sub 0x20018000000000000000000000000000 W) (h_s : Kept W s0 s) :
    ∃ t', execBar64HalfRead f r len s = .next t' ∧ Kept W s0 t' := by
  unfold execBar64HalfRead
  refine st_served_kept _ _ _ _ (Sub.trans (by decide) hw) (by assumption) fun s h_s => ?_
  refine ⟨_, rfl, ?_⟩
  try dsimp only
  repeat' first
    | with_reducible assumption
    | (with_reducible refine st_fresh_kept _ (Sub.trans (by decide) hw) ?_ )
    | (with_reducible refine regRead_kept _ _ _ _ (Sub.trans (by decide) hw) ?_ )

theorem half64Write_kept (f : FnId) (r : Reg64) (high : Bool) (v : BitVec 32) (s : State)
    (hw : Sub 0x8000000000000000000000000000 W) (h_s : Kept W s0 s) :
    Kept W s0 (half64Write f r high v s) := by
  unfold half64Write
  try dsimp only
  repeat' first
    | with_reducible assumption
    | (with_reducible refine st_setFn_kept _ _ _ (Sub.trans (by decide) hw) ?_ )
    | with_reducible apply kept_ite

theorem execBar64HalfWrite_kept (f : FnId) (r : Reg64) (high : Bool) (v : BitVec 32) (s : State)
    (hw : Sub 0x20008000000000000000000000000000 W) (h_s : Kept W s0 s) :
    ∃ t', execBar64HalfWrite f r high v s = .next t' ∧ Kept W s0 t' := by
  unfold execBar64HalfWrite
  refine st_served_kept _ _ _ _ (Sub.trans (by decide) hw) (by assumption) fun s h_s => ?_
  refine ⟨_, rfl, ?_⟩
  try dsimp only
  repeat' first
    | with_reducible assumption
    | (with_reducible refine st_fresh_kept _ (Sub.trans (by decide) hw) ?_ )
    | (with_reducible refine half64Write_kept _ _ _ _ _ (Sub.trans (by decide) hw) ?_ )

theorem modSlot_kept (f : FnId) (n : Fin 4) (g : Slot → Slot) (s : State)
    (hw : Sub 0x8000000000000000000000000000 W) (h_s : Kept W s0 s) :
    Kept W s0 (modSlot f n g s) := by
  unfold modSlot
  try dsimp only
  repeat' first
    | with_reducible assumption
    | (with_reducible refine st_setFn_kept _ _ _ (Sub.trans (by decide) hw) ?_ )
    | with_reducible apply kept_ite

theorem regDword_kept (f : FnId) (off v : Nat) (s : State) (hw : Sub 0x8000000000000000000000000000 W) (h_s : Kept W s0 s) :
    Kept W s0 (regDword f off v s) := by
  unfold regDword
  try dsimp only
  repeat' first
    | with_reducible assumption
    | (with_reducible refine st_setFn_kept _ _ _ (Sub.trans (by decide) hw) ?_ )
    | (with_reducible refine signalPending_kept _ _ (Sub.trans (by decide) hw) ?_ )
    | (with_reducible refine modSlot_kept _ _ _ _ (Sub.trans (by decide) hw) ?_ )
    | split

theorem barWrite_kept (f : FnId) (off : Nat) (d : List Byte) (s : State)
    (hw : Sub 0x18000000000000000000000000000 W) (h_s : Kept W s0 s) :
    Kept W s0 (barWrite f off d s) := by
  unfold barWrite
  try dsimp only
  repeat' first
    | with_reducible assumption
    | (with_reducible refine st_setFn_kept _ _ _ (Sub.trans (by decide) hw) ?_ )
    | (with_reducible refine modSlot_kept _ _ _ _ (Sub.trans (by decide) hw) ?_ )
    | (with_reducible refine regDword_kept _ _ _ _ (Sub.trans (by decide) hw) ?_ )
    | split

theorem cfgWrite_kept (f : FnId) (w : RegW) (s : State) (hw : Sub 0x8000000000000000000000000008 W) (h_s : Kept W s0 s) :
    Kept W s0 (cfgWrite f w s) := by
  unfold cfgWrite
  try dsimp only
  repeat' first
    | with_reducible assumption
    | (with_reducible refine st_p_kept _ _ _ ?_ ?_)
    | (with_reducible refine st_setFn_kept _ _ _ (Sub.trans (by decide) hw) ?_ )
    | (with_reducible refine signalPending_kept _ _ (Sub.trans (by decide) hw) ?_ )
    | (with_reducible refine may_pcie (hw.bit (by decide)) _ ?_)
    | decide
    | split

theorem registerWrite_kept (f : FnId) (w : RegW) (d : List Byte) (s : State)
    (hw : Sub 0x18000000000000000000000000008 W) (h_s : Kept W s0 s) :
    Kept W s0 (registerWrite f w d s) := by
  unfold registerWrite
  try dsimp only
  repeat' first
    | with_reducible assumption
    | intro _
    | (with_reducible refine cfgRequest_kept _ _ _ (Sub.trans (by decide) hw) ?_ ?_ )
    | (with_reducible refine barWrite_kept _ _ _ _ (Sub.trans (by decide) hw) ?_ )
    | (with_reducible refine cfgWrite_kept _ _ _ (Sub.trans (by decide) hw) ?_ )
    | split

theorem execRegisterWrite_kept (f : FnId) (w : RegW) (d : List Byte) (s : State)
    (hw : Sub 0x20018000000000000000000000000008 W) (h_s : Kept W s0 s) :
    ∃ t', execRegisterWrite f w d s = .next t' ∧ Kept W s0 t' := by
  unfold execRegisterWrite
  refine st_served_kept _ _ _ _ (Sub.trans (by decide) hw) (by assumption) fun s h_s => ?_
  refine ⟨_, rfl, ?_⟩
  try dsimp only
  repeat' first
    | with_reducible assumption
    | (with_reducible refine st_fresh_kept _ (Sub.trans (by decide) hw) ?_ )
    | (with_reducible refine registerWrite_kept _ _ _ _ (Sub.trans (by decide) hw) ?_ )

theorem linkLost_kept (s : State) (hw : Sub 0xc07c000000000000000000000000004 W) (h_s : Kept W s0 s) :
    Kept W s0 (linkLost s) := by
  unfold linkLost
  try dsimp only
  repeat' first
    | with_reducible assumption
    | (with_reducible refine rollbackAll_kept _ _ (Sub.trans (by decide) hw) ?_ )
    | (with_reducible refine dropQueues_kept _ _ (Sub.trans (by decide) hw) ?_ )
    | with_reducible exact same
    | with_reducible exact mem_same
    | with_reducible exact flt_same
    | with_reducible apply host_upd
    | exact .inr (hw.bit (by decide))
    | simp only [kept_mk]
    | with_reducible apply kept_upd

theorem linkDown_kept (s : State) (hw : Sub 0xc0fc00000000000000000000000000c W) (h_s : Kept W s0 s) :
    Kept W s0 (linkDown s) := by
  unfold linkDown
  try dsimp only
  repeat' first
    | with_reducible assumption
    | (with_reducible refine st_p_kept _ _ _ ?_ ?_)
    | (with_reducible refine st_sat32_kept _ _ (Sub.trans (by decide) hw) ?_ ?_ )
    | (with_reducible refine st_activate_kept _ _ _ _ (Sub.trans (by decide) hw) ?_ )
    | (with_reducible refine linkLost_kept _ (Sub.trans (by decide) hw) ?_ )
    | with_reducible apply kept_ite
    | (with_reducible refine may_pcie (hw.bit (by decide)) _ ?_)
    | with_reducible exact same
    | with_reducible exact mem_same
    | with_reducible exact host_same
    | with_reducible exact flt_same
    | exact .inr (hw.bit (by decide))
    | decide
    | simp only [kept_mk]
    | with_reducible apply kept_upd

theorem execPcieLinkDown_kept (s : State) (hw : Sub 0xc0fc00000000000000000000000000c W) (h_s : Kept W s0 s) :
    ∃ t', execPcieLinkDown s = .next t' ∧ Kept W s0 t' := by
  unfold execPcieLinkDown
  refine ⟨_, rfl, ?_⟩
  try dsimp only
  repeat' first
    | with_reducible assumption
    | (with_reducible refine st_fresh_kept _ (Sub.trans (by decide) hw) ?_ )
    | (with_reducible refine linkDown_kept _ (Sub.trans (by decide) hw) ?_ )

theorem linkTrained_kept (speed : Fin 5) (width : Fin 4) (s : State)
    (hw : Sub 0xc0000000000000000000000000008 W) (h_s : Kept W s0 s) :
    Kept W s0 (linkTrained speed width s) := by
  unfold linkTrained
  try dsimp only
  repeat' first
    | with_reducible assumption
    | (with_reducible refine st_p_kept _ _ _ ?_ ?_)
    | (with_reducible refine st_activate_kept _ _ _ _ (Sub.trans (by decide) hw) ?_ )
    | (with_reducible refine st_deactivate_kept _ _ (Sub.trans (by decide) hw) ?_ )
    | with_reducible apply kept_ite
    | (with_reducible refine may_pcie (hw.bit (by decide)) _ ?_)
    | decide

theorem execPcieLinkDegraded_kept (speed : Fin 5) (width : Fin 4) (s : State)
    (hw : Sub 0xc0000000000000000000000000008 W) (h_s : Kept W s0 s) :
    ∃ t', execPcieLinkDegraded speed width s = .next t' ∧ Kept W s0 t' := by
  unfold execPcieLinkDegraded
  refine ⟨_, rfl, ?_⟩
  try dsimp only
  repeat' first
    | with_reducible assumption
    | (with_reducible refine st_fresh_kept _ (Sub.trans (by decide) hw) ?_ )
    | (with_reducible refine linkTrained_kept _ _ _ (Sub.trans (by decide) hw) ?_ )
    | with_reducible apply kept_ite

theorem execPcieLinkUp_kept (speed : Fin 5) (width : Fin 4) (s : State)
    (hw : Sub 0x80c0000000000000000000000000008 W) (h_s : Kept W s0 s) :
    ∃ t', execPcieLinkUp speed width s = .next t' ∧ Kept W s0 t' := by
  unfold execPcieLinkUp
  refine ⟨_, rfl, ?_⟩
  try dsimp only
  repeat' first
    | with_reducible assumption
    | (with_reducible refine st_fresh_kept _ (Sub.trans (by decide) hw) ?_ )
    | (with_reducible refine st_deactivate_kept _ _ (Sub.trans (by decide) hw) ?_ )
    | (with_reducible refine linkTrained_kept _ _ _ (Sub.trans (by decide) hw) ?_ )
    | with_reducible apply kept_ite
    | with_reducible exact same
    | with_reducible exact mem_same
    | with_reducible exact host_same
    | with_reducible exact flt_same
    | exact .inr (hw.bit (by decide))
    | simp only [kept_mk]
    | with_reducible apply kept_upd

theorem frs_kept (on : Bool) (f : FnId) (s : State) (hw : Sub 0x0 W) (h_s : Kept W s0 s) :
    Kept W s0 (frs on f s) := by
  unfold frs
  try dsimp only
  repeat' first
    | with_reducible assumption
    | (with_reducible refine st_emit_kept _ _ (Sub.trans (by decide) hw) ?_ )
    | with_reducible apply kept_ite

theorem setVfs_kept (enable : Bool) (n : Nat) (s : State) (hw : Sub 0x1c000000000000000000000000008 W) (h_s : Kept W s0 s) :
    Kept W s0 (setVfs enable n s) := by
  unfold setVfs
  try dsimp only
  repeat' first
    | with_reducible assumption
    | (with_reducible refine st_p_kept _ _ _ ?_ ?_)
    | (with_reducible refine dropQueues_kept _ _ (Sub.trans (by decide) hw) ?_ )
    | (with_reducible refine may_pcie (hw.bit (by decide)) _ ?_)
    | with_reducible exact same
    | with_reducible exact mem_same
    | with_reducible exact flt_same
    | with_reducible apply host_upd
    | exact .inr (hw.bit (by decide))
    | decide
    | simp only [kept_mk]
    | with_reducible apply kept_upd

theorem execVfEnableChange_kept (enable : Bool) (n : FnId) (frsOn : Bool) (s : State)
    (hw : Sub 0x2001c000000000000000000000000008 W) (h_s : Kept W s0 s) :
    ∃ t', execVfEnableChange enable n frsOn s = .next t' ∧ Kept W s0 t' := by
  unfold execVfEnableChange
  refine st_served_kept _ _ _ _ (Sub.trans (by decide) hw) (by assumption) fun s h_s => ?_
  refine ⟨_, rfl, ?_⟩
  try dsimp only
  repeat' first
    | with_reducible assumption
    | intro _
    | (with_reducible refine st_fresh_kept _ (Sub.trans (by decide) hw) ?_ )
    | (with_reducible refine cfgRequest_kept _ _ _ (Sub.trans (by decide) hw) ?_ ?_ )
    | (with_reducible refine frs_kept _ _ _ (Sub.trans (by decide) hw) ?_ )
    | (with_reducible refine setVfs_kept _ _ _ (Sub.trans (by decide) hw) ?_ )

theorem flr_kept (f : FnId) (s : State) (hw : Sub 0x407c00000000000000000000000000c W) (h_s : Kept W s0 s) :
    Kept W s0 (flr f s) := by
  unfold flr
  try dsimp only
  repeat' first
    | with_reducible assumption
    | (with_reducible refine rollbackFn_kept _ _ (Sub.trans (by decide) hw) ?_ )
    | (with_reducible refine dropQueues_kept _ _ (Sub.trans (by decide) hw) ?_ )
    | (with_reducible refine setVfs_kept _ _ _ (Sub.trans (by decide) hw) ?_ )
    | with_reducible apply kept_ite

theorem execFlr_kept (f : FnId) (frsOn : Bool) (s : State) (hw : Sub 0x2407c00000000000000000000000000c W) (h_s : Kept W s0 s) :
    ∃ t', execFlr f frsOn s = .next t' ∧ Kept W s0 t' := by
  unfold execFlr
  refine st_served_kept _ _ _ _ (Sub.trans (by decide) hw) (by assumption) fun s h_s => ?_
  refine ⟨_, rfl, ?_⟩
  try dsimp only
  repeat' first
    | with_reducible assumption
    | intro _
    | (with_reducible refine st_fresh_kept _ (Sub.trans (by decide) hw) ?_ )
    | (with_reducible refine cfgRequest_kept _ _ _ (Sub.trans (by decide) hw) ?_ ?_ )
    | (with_reducible refine frs_kept _ _ _ (Sub.trans (by decide) hw) ?_ )
    | (with_reducible refine flr_kept _ _ (Sub.trans (by decide) hw) ?_ )
    | with_reducible apply kept_ite

theorem execD3hotToD0_kept (f : FnId) (frsOn : Bool) (s : State)
    (hw : Sub 0x20008000000000000000000000000000 W) (h_s : Kept W s0 s) :
    ∃ t', execD3hotToD0 f frsOn s = .next t' ∧ Kept W s0 t' := by
  unfold execD3hotToD0
  refine st_served_kept _ _ _ _ (Sub.trans (by decide) hw) (by assumption) fun s h_s => ?_
  refine ⟨_, rfl, ?_⟩
  try dsimp only
  repeat' first
    | with_reducible assumption
    | intro _
    | (with_reducible refine st_fresh_kept _ (Sub.trans (by decide) hw) ?_ )
    | (with_reducible refine st_setFn_kept _ _ _ (Sub.trans (by decide) hw) ?_ )
    | (with_reducible refine signalPending_kept _ _ (Sub.trans (by decide) hw) ?_ )
    | (with_reducible refine cfgRequest_kept _ _ _ (Sub.trans (by decide) hw) ?_ ?_ )
    | (with_reducible refine frs_kept _ _ _ (Sub.trans (by decide) hw) ?_ )

end Sys2Proof.Laws
end

