-- ==== Sys2Proof/Laws/KeptResets.lean ====
section
/-! SUPPORT. One lemma per operation of Machine/Resets.lean: within which mask of parts it keeps the rest; a command's meaning
answers a next state that is so kept. The numeral of a mask has the bits of Area. -/
namespace Sys2Proof.Laws
open Sys2Proof Sys2Proof.Machine
variable {W : Nat} {s0 : State}

theorem unpowered_kept (s : State) (hw : Sub 0x7fffffffffffffffffffffffffffffff W) (h_s : Kept W s0 s) :
    Kept W s0 (unpowered s) := by
  have b : ∀ j, j < 127 → W.testBit j = true := fun j hj => hw.bit (by
    have := Nat.testBit_two_pow_sub_one 127 j
    simp only [hj, decide_true] at this
    exact this)
  exact ⟨fun c => ⟨Store_wf_filter (h_s.can c).1 _, rfl, rfl, rfl, rfl, (ksorted_map _ _).trans (h_s.can c).2.2.2.2.2⟩,
    h_s.pending, h_s.now, ⟨fun _ _ a => (by rw [b _ (by decide)] at a; cases a), fun a => (by rw [b _ (by decide)] at a; cases a), fun a => (by rw [b _ (by decide)] at a; cases a), fun a => (by rw [b _ (by decide)] at a; cases a), fun a => (by rw [b _ (by decide)] at a; cases a), fun a => (by rw [b _ (by decide)] at a; cases a), fun a => (by rw [b _ (by decide)] at a; cases a), fun a => (by rw [b _ (by decide)] at a; cases a), fun a => (by rw [b _ (by decide)] at a; cases a), fun a => (by rw [b _ (by decide)] at a; cases a), fun a => (by rw [b _ (by decide)] at a; cases a), fun a => (by rw [b _ (by decide)] at a; cases a), fun a => (by rw [b _ (by decide)] at a; cases a), fun a => (by rw [b _ (by decide)] at a; cases a), fun a => (by rw [b _ (by decide)] at a; cases a), fun a => (by rw [b _ (by decide)] at a; cases a), fun a => (by rw [b _ (by decide)] at a; cases a), fun a => (by rw [b _ (by decide)] at a; cases a), fun a => (by rw [b _ (by decide)] at a; cases a), fun a => (by rw [b _ (by decide)] at a; cases a), fun a => (by rw [b _ (by decide)] at a; cases a), fun a => (by rw [b _ (by decide)] at a; cases a), fun a => (by rw [b _ (by decide)] at a; cases a), h_s.frame.marks⟩⟩

theorem beginPhase_kept (p : Nat) (s : State) (hw : Sub 0x8000000100000000000000000000000 W) (h_s : Kept W s0 s) :
    Kept W s0 (beginPhase p s) := by
  unfold beginPhase
  try dsimp only
  repeat' first
    | with_reducible assumption
    | (with_reducible refine st_p_kept _ _ _ ?_ ?_)
    | (with_reducible refine may_bu (hw.bit (by decide)) _ ?_)
    | with_reducible exact same
    | with_reducible exact mem_same
    | with_reducible exact host_same
    | with_reducible exact flt_same
    | exact .inr (hw.bit (by decide))
    | decide
    | simp only [kept_mk]
    | with_reducible apply kept_upd

theorem resetFrom_kept (code inPhase first : Nat) (s : State) (hw : Sub 0xc800100100000008000000000000000 W) (h_s : Kept W s0 s) :
    Kept W s0 (resetFrom code inPhase first s) := by
  unfold resetFrom
  try dsimp only
  repeat' first
    | with_reducible assumption
    | (with_reducible refine st_p_kept _ _ _ ?_ ?_)
    | (with_reducible refine zeroise_kept _ (Sub.trans (by decide) hw) ?_ )
    | (with_reducible refine beginPhase_kept _ _ (Sub.trans (by decide) hw) ?_ )
    | (with_reducible refine may_bu (hw.bit (by decide)) _ ?_)
    | with_reducible exact same
    | with_reducible exact mem_same
    | with_reducible exact host_same
    | with_reducible exact flt_same
    | exact .inr (hw.bit (by decide))
    | decide
    | simp only [kept_mk]
    | with_reducible apply kept_upd

theorem finishMarks_kept (s : State) (hw : Sub 0x4000000000000000000000000000000 W) (h_s : Kept W s0 s) :
    Kept W s0 (finishMarks s) := by
  unfold finishMarks
  try dsimp only
  repeat' first
    | with_reducible assumption
    | intro _
    | (with_reducible refine st_append_kept _ _ _ (Sub.trans (by decide) hw) ?_ )
    | with_reducible apply kept_foldl

theorem finishRetiring_kept (s : State) (hw : Sub 0x4080000000400000000000000000000 W) (h_s : Kept W s0 s) :
    Kept W s0 (finishRetiring s) := by
  unfold finishRetiring
  try dsimp only
  repeat' first
    | with_reducible assumption
    | intro _
    | (with_reducible refine st_p_kept _ _ _ ?_ ?_)
    | (with_reducible refine st_persist_kept _ _ (Sub.trans (by decide) hw) ?_ )
    | with_reducible apply kept_foldl
    | (with_reducible refine may_rt (hw.bit (by decide)) _ ?_)
    | with_reducible exact same
    | with_reducible exact mem_same
    | with_reducible exact host_same
    | with_reducible apply flt_upd
    | exact .inr (hw.bit (by decide))
    | (have hj := lt_of_find (by with_reducible assumption); omega)
    | simp only [kept_mk]
    | with_reducible apply kept_upd
    | split

theorem beforeClear_kept (s : State) (hw : Sub 0x4092000000400000000000000000800 W) (h_s : Kept W s0 s) :
    Kept W s0 (beforeClear s) := by
  unfold beforeClear
  try dsimp only
  repeat' first
    | with_reducible assumption
    | intro _
    | (with_reducible refine evlogProgram_kept _ _ (Sub.trans (by decide) hw) ?_ )
    | (with_reducible refine slathCut_kept _ _ _ _ (Sub.trans (by decide) hw) ?_ )
    | (with_reducible refine finishMarks_kept _ (Sub.trans (by decide) hw) ?_ )
    | (with_reducible refine finishRetiring_kept _ (Sub.trans (by decide) hw) ?_ )
    | with_reducible apply kept_ite
    | with_reducible apply kept_foldl

theorem clearReset_kept (code first : Nat) (s : State) (hw : Sub 0x7fffffffffffffffffffffffffffffff W) (h_s : Kept W s0 s) :
    Kept W s0 (clearReset code first s) := by
  have b : ∀ j, j < 127 → W.testBit j = true := fun j hj => hw.bit (by
    have := Nat.testBit_two_pow_sub_one 127 j
    simp only [hj, decide_true] at this
    exact this)
  have h1 : Kept W s0 (if code = 2 ∨ levelsHiz (loadInterrupted (beforeClear s)) then loadInterrupted (beforeClear s)
      else levelsToPark true (loadInterrupted (beforeClear s))) :=
    kept_ite (loadInterrupted_kept _ (Sub.trans (by decide) hw) (beforeClear_kept _ (Sub.trans (by decide) hw) h_s))
      (levelsToPark_kept _ _ (Sub.trans (by decide) hw) (loadInterrupted_kept _ (Sub.trans (by decide) hw) (beforeClear_kept _ (Sub.trans (by decide) hw) h_s)))
  unfold clearReset
  dsimp only
  generalize (if code = 2 ∨ levelsHiz (loadInterrupted (beforeClear s)) then loadInterrupted (beforeClear s)
      else levelsToPark true (loadInterrupted (beforeClear s))) = u at h1 ⊢
  apply resetFrom_kept _ _ _ _ (Sub.trans (by decide) hw)
  apply dutReset_kept _ _ (Sub.trans (by decide) hw) h1
  apply kept_ite
  · apply kept_foldl
    · intro s x _ h; exact st_p_kept _ _ _ (may_sm (b _ (by decide)) _ _ x.isLt (by decide)) h
    · refine ⟨fun c => ⟨Store_wf_filter (h1.can c).1 _, rfl, ?_, ?_, rfl, (ksorted_map _ _).trans (h1.can c).2.2.2.2.2⟩,
        h1.pending, h1.now, ⟨fun _ _ a => (by rw [b _ (by decide)] at a; cases a), fun a => (by rw [b _ (by decide)] at a; cases a), fun a => (by rw [b _ (by decide)] at a; cases a), fun a => (by rw [b _ (by decide)] at a; cases a), fun a => (by rw [b _ (by decide)] at a; cases a), fun a => (by rw [b _ (by decide)] at a; cases a), fun a => (by rw [b _ (by decide)] at a; cases a), fun a => (by rw [b _ (by decide)] at a; cases a), fun a => (by rw [b _ (by decide)] at a; cases a), fun a => (by rw [b _ (by decide)] at a; cases a), fun a => (by rw [b _ (by decide)] at a; cases a), fun a => (by rw [b _ (by decide)] at a; cases a), fun a => (by rw [b _ (by decide)] at a; cases a), fun a => (by rw [b _ (by decide)] at a; cases a), fun a => (by rw [b _ (by decide)] at a; cases a), fun a => (by rw [b _ (by decide)] at a; cases a), fun a => (by rw [b _ (by decide)] at a; cases a), fun a => (by rw [b _ (by decide)] at a; cases a), fun a => (by rw [b _ (by decide)] at a; cases a), fun a => (by rw [b _ (by decide)] at a; cases a), fun a => (by rw [b _ (by decide)] at a; cases a), fun a => (by rw [b _ (by decide)] at a; cases a), fun a => (by rw [b _ (by decide)] at a; cases a), h1.frame.marks⟩⟩
      · split <;> rfl
      · split
        · exact (ksorted_map _ _).trans (h1.can c).2.2.2.1
        · rfl
  · refine ⟨fun c => ⟨Store_wf_filter (h1.can c).1 _, rfl, ?_, ?_, rfl, (ksorted_map _ _).trans (h1.can c).2.2.2.2.2⟩,
      h1.pending, h1.now, ⟨fun _ _ a => (by rw [b _ (by decide)] at a; cases a), fun a => (by rw [b _ (by decide)] at a; cases a), fun a => (by rw [b _ (by decide)] at a; cases a), fun a => (by rw [b _ (by decide)] at a; cases a), fun a => (by rw [b _ (by decide)] at a; cases a), fun a => (by rw [b _ (by decide)] at a; cases a), fun a => (by rw [b _ (by decide)] at a; cases a), fun a => (by rw [b _ (by decide)] at a; cases a), fun a => (by rw [b _ (by decide)] at a; cases a), fun a => (by rw [b _ (by decide)] at a; cases a), fun a => (by rw [b _ (by decide)] at a; cases a), fun a => (by rw [b _ (by decide)] at a; cases a), fun a => (by rw [b _ (by decide)] at a; cases a), fun a => (by rw [b _ (by decide)] at a; cases a), fun a => (by rw [b _ (by decide)] at a; cases a), fun a => (by rw [b _ (by decide)] at a; cases a), fun a => (by rw [b _ (by decide)] at a; cases a), fun a => (by rw [b _ (by decide)] at a; cases a), fun a => (by rw [b _ (by decide)] at a; cases a), fun a => (by rw [b _ (by decide)] at a; cases a), fun a => (by rw [b _ (by decide)] at a; cases a), fun a => (by rw [b _ (by decide)] at a; cases a), fun a => (by rw [b _ (by decide)] at a; cases a), h1.frame.marks⟩⟩
    · split <;> rfl
    · split
      · exact (ksorted_map _ _).trans (h1.can c).2.2.2.1
      · rfl

theorem firmwareReset_kept (s : State) (hw : Sub 0xc800100100000008000000000000000 W) (h_s : Kept W s0 s) :
    Kept W s0 (firmwareReset s) := by
  unfold firmwareReset
  try dsimp only
  repeat' first
    | with_reducible assumption
    | (with_reducible refine resetFrom_kept _ _ _ _ (Sub.trans (by decide) hw) ?_ )
    | with_reducible exact same
    | with_reducible exact mem_same
    | with_reducible exact host_same
    | with_reducible exact flt_same
    | exact .inr (hw.bit (by decide))
    | simp only [kept_mk]
    | with_reducible apply kept_upd

theorem refFailed_kept (f : State → State) (s : State)
    (hw : Sub 0xc0fc00000000000000000000000000c W) (h_f : ∀  s, Kept W s0 s → Kept W s0 (f  s)) (h_s : Kept W s0 s) :
    Kept W s0 (refFailed f s) := by
  unfold refFailed
  try dsimp only
  repeat' first
    | with_reducible assumption
    | apply h_f
    | (with_reducible refine linkDown_kept _ (Sub.trans (by decide) hw) ?_ )
    | with_reducible apply kept_ite

theorem execRefEdgeAbsent_kept (r : Fin 2) (s : State) (hw : Sub 0xe9fe0000000001c003000800001000c W) (h_s : Kept W s0 s) :
    ∃ t', execRefEdgeAbsent r s = .next t' ∧ Kept W s0 t' := by
  unfold execRefEdgeAbsent
  refine ⟨_, rfl, ?_⟩
  try dsimp only
  repeat' first
    | with_reducible assumption
    | intro _
    | (with_reducible refine st_fresh_kept _ (Sub.trans (by decide) hw) ?_ )
    | (with_reducible refine declareFailed_kept _ _ _ (Sub.trans (by decide) hw) ?_ )
    | (with_reducible refine refFailed_kept _ _ (Sub.trans (by decide) hw) ?_ ?_ )

theorem execPllLockLoss_kept (r : Fin 2) (s : State) (hw : Sub 0xe9fe0000000001c003000800001000c W) (h_s : Kept W s0 s) :
    ∃ t', execPllLockLoss r s = .next t' ∧ Kept W s0 t' := by
  unfold execPllLockLoss
  refine ⟨_, rfl, ?_⟩
  try dsimp only
  repeat' first
    | with_reducible assumption
    | intro _
    | (with_reducible refine st_fresh_kept _ (Sub.trans (by decide) hw) ?_ )
    | (with_reducible refine declareFailed_kept _ _ _ (Sub.trans (by decide) hw) ?_ )
    | (with_reducible refine refFailed_kept _ _ (Sub.trans (by decide) hw) ?_ ?_ )

theorem execMonitorWindow_kept (dev : Int) (modulation : Nat) (s : State)
    (hw : Sub 0xe9fe0000000001c003000800001000c W) (h_s : Kept W s0 s) :
    ∃ t', execMonitorWindow dev modulation s = .next t' ∧ Kept W s0 t' := by
  unfold execMonitorWindow
  refine ⟨_, rfl, ?_⟩
  try dsimp only
  repeat' first
    | with_reducible assumption
    | intro _
    | (with_reducible refine st_fresh_kept _ (Sub.trans (by decide) hw) ?_ )
    | (with_reducible refine monitorWindow_kept _ _ _ (Sub.trans (by decide) hw) ?_ )
    | (with_reducible refine refFailed_kept _ _ (Sub.trans (by decide) hw) ?_ ?_ )

theorem powerOn_kept (node : Fin 64) (s : State) (hw : Sub 0x7fffffffffffffffffffffffffffffff W) (h_s : Kept W s0 s) :
    Kept W s0 (powerOn node s) := by
  unfold powerOn
  try dsimp only
  repeat' first
    | with_reducible assumption
    | (with_reducible refine st_p_kept _ _ _ ?_ ?_)
    | (with_reducible refine st_raise_kept _ _ (Sub.trans (by decide) hw) ?_ )
    | (with_reducible refine loadInterrupted_kept _ (Sub.trans (by decide) hw) ?_ )
    | (with_reducible refine unpowered_kept _ (Sub.trans (by decide) hw) ?_ )
    | (with_reducible refine resetFrom_kept _ _ _ _ (Sub.trans (by decide) hw) ?_ )
    | with_reducible apply kept_ite
    | with_reducible exact mem_same
    | with_reducible exact host_same
    | with_reducible exact flt_same
    | exact .inr (hw.bit (by decide))
    | decide
    | simp only [kept_mk]
    | with_reducible apply kept_upd

theorem execPowerOn_kept (node : Fin 64) (s : State) (hw : Sub 0x7fffffffffffffffffffffffffffffff W) (h_s : Kept W s0 s) :
    ∃ t', execPowerOn node s = .next t' ∧ Kept W s0 t' := by
  unfold execPowerOn
  refine ⟨_, rfl, ?_⟩
  try dsimp only
  repeat' first
    | with_reducible assumption
    | (with_reducible refine st_fresh_kept _ (Sub.trans (by decide) hw) ?_ )
    | (with_reducible refine powerOn_kept _ _ (Sub.trans (by decide) hw) ?_ )

theorem startPrimaries_kept (s : State) (hw : Sub 0x2000000000000980000000000000000 W) (h_s : Kept W s0 s) :
    Kept W s0 (startPrimaries s) := by
  unfold startPrimaries
  try dsimp only
  repeat' first
    | with_reducible assumption
    | intro _
    | (with_reducible refine startGroup_kept _ _ _ (Sub.trans (by decide) hw) ?_ )
    | with_reducible apply kept_ite
    | with_reducible apply kept_foldl

theorem execClockRestart_kept (s : State) (hw : Sub 0x7fffffffffffffffffffffffffffffff W) (h_s : Kept W s0 s) :
    ∃ t', execClockRestart s = .next t' ∧ Kept W s0 t' := by
  unfold execClockRestart
  refine ⟨_, rfl, ?_⟩
  try dsimp only
  repeat' first
    | with_reducible assumption
    | (with_reducible refine st_p_kept _ _ _ ?_ ?_)
    | (with_reducible refine st_fresh_kept _ (Sub.trans (by decide) hw) ?_ )
    | (with_reducible refine linkDown_kept _ (Sub.trans (by decide) hw) ?_ )
    | (with_reducible refine clearReset_kept _ _ _ (Sub.trans (by decide) hw) ?_ )
    | (with_reducible refine startPrimaries_kept _ (Sub.trans (by decide) hw) ?_ )
    | with_reducible apply kept_ite
    | (with_reducible refine may_ck (hw.bit (by decide)) _ ?_)
    | decide

theorem execPerst_kept (s : State) (hw : Sub 0x7fffffffffffffffffffffffffffffff W) (h_s : Kept W s0 s) :
    ∃ t', execPerst s = .next t' ∧ Kept W s0 t' := by
  unfold execPerst
  refine ⟨_, rfl, ?_⟩
  try dsimp only
  repeat' first
    | with_reducible assumption
    | (with_reducible refine st_fresh_kept _ (Sub.trans (by decide) hw) ?_ )
    | (with_reducible refine linkDown_kept _ (Sub.trans (by decide) hw) ?_ )
    | (with_reducible refine clearReset_kept _ _ _ (Sub.trans (by decide) hw) ?_ )
    | with_reducible apply kept_ite
    | with_reducible exact mem_same
    | with_reducible exact host_same
    | with_reducible exact flt_same
    | exact .inr (hw.bit (by decide))
    | simp only [kept_mk]
    | with_reducible apply kept_upd

theorem holdGate_kept (s : State) (hw : Sub 0x8000000000000000010008000000000 W) (h_s : Kept W s0 s) :
    Kept W s0 (holdGate s) := by
  unfold holdGate
  try dsimp only
  repeat' first
    | with_reducible assumption
    | intro _
    | (with_reducible refine st_p_kept _ _ _ ?_ ?_)
    | (with_reducible refine st_emit_kept _ _ (Sub.trans (by decide) hw) ?_ )
    | (with_reducible refine setWithy_kept _ _ _ (Sub.trans (by decide) hw) ?_ )
    | with_reducible apply kept_foldl
    | (with_reducible refine may_tt (hw.bit (by decide)) _ _ ?_ ?_)
    | with_reducible exact same
    | with_reducible exact mem_same
    | with_reducible exact host_same
    | with_reducible exact flt_same
    | exact .inr (hw.bit (by decide))
    | exact Fin.isLt _
    | decide
    | simp only [kept_mk]
    | with_reducible apply kept_upd

theorem lockAll_kept (s : State) (hw : Sub 0x10008000000000 W) (h_s : Kept W s0 s) :
    Kept W s0 (lockAll s) := by
  unfold lockAll
  try dsimp only
  repeat' first
    | with_reducible assumption
    | intro _
    | (with_reducible refine st_p_kept _ _ _ ?_ ?_)
    | (with_reducible refine setWithy_kept _ _ _ (Sub.trans (by decide) hw) ?_ )
    | with_reducible apply kept_ite
    | with_reducible apply kept_foldl
    | (with_reducible refine may_tt (hw.bit (by decide)) _ _ ?_ ?_)
    | exact Fin.isLt _
    | decide

theorem execPerstDeassert_kept (s : State) (hw : Sub 0x8000000100000800010008000000000 W) (h_s : Kept W s0 s) :
    ∃ t', execPerstDeassert s = .next t' ∧ Kept W s0 t' := by
  unfold execPerstDeassert
  refine ⟨_, rfl, ?_⟩
  try dsimp only
  repeat' first
    | with_reducible assumption
    | (with_reducible refine st_fresh_kept _ (Sub.trans (by decide) hw) ?_ )
    | (with_reducible refine dutOn_kept _ (Sub.trans (by decide) hw) ?_ )
    | (with_reducible refine beginPhase_kept _ _ (Sub.trans (by decide) hw) ?_ )
    | (with_reducible refine lockAll_kept _ (Sub.trans (by decide) hw) ?_ )
    | with_reducible apply kept_ite
    | with_reducible exact same
    | with_reducible exact mem_same
    | with_reducible exact host_same
    | with_reducible exact flt_same
    | exact .inr (hw.bit (by decide))
    | simp only [kept_mk]
    | with_reducible apply kept_upd

theorem execDevice_kept (s : State) (hw : Sub 0x28000000100000000000000000000000 W) (h_s : Kept W s0 s) :
    ∃ t', execDevice s = .next t' ∧ Kept W s0 t' := by
  unfold execDevice
  refine st_served_kept _ _ _ _ (Sub.trans (by decide) hw) (by assumption) fun s h_s => ?_
  refine ⟨_, rfl, ?_⟩
  try dsimp only
  repeat' first
    | with_reducible assumption
    | (with_reducible refine st_fresh_kept _ (Sub.trans (by decide) hw) ?_ )
    | (with_reducible refine devReset_kept _ _ (Sub.trans (by decide) hw) ?_ )

theorem execFirmware_kept (s : State) (hw : Sub 0x28000000100000000000000000000000 W) (h_s : Kept W s0 s) :
    ∃ t', execFirmware s = .next t' ∧ Kept W s0 t' := by
  unfold execFirmware
  refine st_served_kept _ _ _ _ (Sub.trans (by decide) hw) (by assumption) fun s h_s => ?_
  refine ⟨_, rfl, ?_⟩
  try dsimp only
  repeat' first
    | with_reducible assumption
    | (with_reducible refine st_fresh_kept _ (Sub.trans (by decide) hw) ?_ )
    | (with_reducible refine devReset_kept _ _ (Sub.trans (by decide) hw) ?_ )

theorem execResetTakesEffect_kept (s : State) (hw : Sub 0x7fffffffffffffffffffffffffffffff W) (h_s : Kept W s0 s) :
    ∃ t', execResetTakesEffect s = .next t' ∧ Kept W s0 t' := by
  unfold execResetTakesEffect
  refine ⟨_, rfl, ?_⟩
  try dsimp only
  repeat' first
    | with_reducible assumption
    | (with_reducible refine st_fresh_kept _ (Sub.trans (by decide) hw) ?_ )
    | (with_reducible refine clearReset_kept _ _ _ (Sub.trans (by decide) hw) ?_ )
    | (with_reducible refine firmwareReset_kept _ (Sub.trans (by decide) hw) ?_ )
    | split

theorem execVinPfw_kept (s : State) (hw : Sub 0x40c0000400000000000000000000000 W) (h_s : Kept W s0 s) :
    ∃ t', execVinPfw s = .next t' ∧ Kept W s0 t' := by
  unfold execVinPfw
  refine ⟨_, rfl, ?_⟩
  try dsimp only
  repeat' first
    | with_reducible assumption
    | (with_reducible refine st_p_kept _ _ _ ?_ ?_)
    | (with_reducible refine st_sat32_kept _ _ (Sub.trans (by decide) hw) ?_ ?_ )
    | (with_reducible refine st_fresh_kept _ (Sub.trans (by decide) hw) ?_ )
    | (with_reducible refine st_activate_kept _ _ _ _ (Sub.trans (by decide) hw) ?_ )
    | with_reducible apply kept_ite
    | (with_reducible refine may_pw (hw.bit (by decide)) _ ?_)
    | with_reducible exact same
    | with_reducible exact mem_same
    | with_reducible exact host_same
    | with_reducible exact flt_same
    | exact .inr (hw.bit (by decide))
    | decide
    | simp only [kept_mk]
    | with_reducible apply kept_upd

theorem execPfwClear_kept (s : State) (hw : Sub 0x80000400000000000000000000000 W) (h_s : Kept W s0 s) :
    ∃ t', execPfwClear s = .next t' ∧ Kept W s0 t' := by
  unfold execPfwClear
  refine ⟨_, rfl, ?_⟩
  try dsimp only
  repeat' first
    | with_reducible assumption
    | (with_reducible refine st_p_kept _ _ _ ?_ ?_)
    | (with_reducible refine st_fresh_kept _ (Sub.trans (by decide) hw) ?_ )
    | (with_reducible refine st_deactivate_kept _ _ (Sub.trans (by decide) hw) ?_ )
    | (with_reducible refine may_pw (hw.bit (by decide)) _ ?_)
    | decide

theorem execUvlo_kept (s : State) (hw : Sub 0x7fffffffffffffffffffffffffffffff W) (h_s : Kept W s0 s) :
    ∃ t', execUvlo s = .next t' ∧ Kept W s0 t' := by
  unfold execUvlo
  refine ⟨_, rfl, ?_⟩
  try dsimp only
  repeat' first
    | with_reducible assumption
    | (with_reducible refine st_emit_kept _ _ (Sub.trans (by decide) hw) ?_ )
    | (with_reducible refine st_fresh_kept _ (Sub.trans (by decide) hw) ?_ )
    | (with_reducible refine unpowered_kept _ (Sub.trans (by decide) hw) ?_ )

theorem execVinLow_kept (back : Bool) (s : State) (hw : Sub 0xc0000000000000000000000000000 W) (h_s : Kept W s0 s) :
    ∃ t', execVinLow back s = .next t' ∧ Kept W s0 t' := by
  unfold execVinLow
  refine ⟨_, rfl, ?_⟩
  try dsimp only
  repeat' first
    | with_reducible assumption
    | (with_reducible refine st_fresh_kept _ (Sub.trans (by decide) hw) ?_ )
    | (with_reducible refine st_activate_kept _ _ _ _ (Sub.trans (by decide) hw) ?_ )
    | (with_reducible refine st_deactivate_kept _ _ (Sub.trans (by decide) hw) ?_ )
    | with_reducible apply kept_ite

theorem execVinHigh_kept (back : Bool) (s : State) (hw : Sub 0xc0000000000000000000000000000 W) (h_s : Kept W s0 s) :
    ∃ t', execVinHigh back s = .next t' ∧ Kept W s0 t' := by
  unfold execVinHigh
  refine ⟨_, rfl, ?_⟩
  try dsimp only
  repeat' first
    | with_reducible assumption
    | (with_reducible refine st_fresh_kept _ (Sub.trans (by decide) hw) ?_ )
    | (with_reducible refine st_activate_kept _ _ _ _ (Sub.trans (by decide) hw) ?_ )
    | (with_reducible refine st_deactivate_kept _ _ (Sub.trans (by decide) hw) ?_ )
    | with_reducible apply kept_ite

theorem execDimmTempRead_kept (first : Int) (rest : List Int) (s : State) (hw : Sub 0x40000000 W) (h_s : Kept W s0 s) :
    ∃ t', execDimmTempRead first rest s = .next t' ∧ Kept W s0 t' := by
  unfold execDimmTempRead
  refine ⟨_, rfl, ?_⟩
  try dsimp only
  repeat' first
    | with_reducible assumption
    | (with_reducible refine st_p_kept _ _ _ ?_ ?_)
    | (with_reducible refine st_fresh_kept _ (Sub.trans (by decide) hw) ?_ )
    | with_reducible apply kept_ite
    | (with_reducible refine may_ds (hw.bit (by decide)) _ ?_)
    | decide

end Sys2Proof.Laws
end

