-- ==== Sys2Proof/Laws/KeptBringUp.lean ====
section
/-! SUPPORT. One lemma per operation of Machine/BringUp.lean: within which mask of parts it keeps the rest; a command's meaning
answers a next state that is so kept. The numeral of a mask has the bits of Area. -/
namespace Sys2Proof.Laws
open Sys2Proof Sys2Proof.Machine
variable {W : Nat} {s0 : State}

theorem mirrorFuses_kept (s : State) (hw : Sub 0x4000004000000000000000000000000 W) (h_s : Kept W s0 s) :
    Kept W s0 (mirrorFuses s) := by
  unfold mirrorFuses
  try dsimp only
  repeat' first
    | with_reducible assumption
    | (with_reducible refine st_p_kept _ _ _ ?_ ?_)
    | with_reducible apply kept_ite
    | (with_reducible refine may_rk (hw.bit (by decide)) _ ?_)
    | with_reducible exact same
    | with_reducible exact mem_same
    | with_reducible exact host_same
    | with_reducible exact flt_same
    | exact .inr (hw.bit (by decide))
    | decide
    | simp only [kept_mk]
    | with_reducible apply kept_upd

theorem staleTrials_kept (s : State) (hw : Sub 0x40000080000000000000000000000 W) (h_s : Kept W s0 s) :
    Kept W s0 (staleTrials s) := by
  unfold staleTrials
  try dsimp only
  repeat' first
    | with_reducible assumption
    | intro _
    | (with_reducible refine trialFailed_kept _ _ (Sub.trans (by decide) hw) ?_ )
    | with_reducible apply kept_ite
    | with_reducible apply kept_foldl

theorem slotFails_kept (j : Fin 2) (s : State) (hw : Sub 0x40000080000000000000000000000 W) (h_s : Kept W s0 s) :
    Kept W s0 (slotFails j s) := by
  unfold slotFails
  try dsimp only
  repeat' first
    | with_reducible assumption
    | (with_reducible refine setSlotState_kept _ _ _ (Sub.trans (by decide) hw) ?_ )
    | (with_reducible refine trialFailed_kept _ _ (Sub.trans (by decide) hw) ?_ )
    | with_reducible apply kept_ite

theorem bootSlot_kept (j : Fin 2) (words : List (Nat × MWord)) (dir : List VEntry) (version : BitVec 32) (s : State)
    (hw : Sub 0xc000300000000000000000000040000 W) (h_s : Kept W s0 s) :
    Kept W s0 (bootSlot j words dir version s) := by
  unfold bootSlot
  dsimp only
  have hf : ∀ (l : List (Nat × MWord)) (m : KMap MWord), ksorted m = true → ksorted (l.foldl (fun m e => kput m e.1 e.2) m) = true := by
    intro l
    induction l with
    | nil => intro m h; exact h
    | cons e r ih => intro m h; exact ih _ (ksorted_kput h _ _)
  have h1 := st_setSlot_kept s j { s.slot j with booted := true } (Sub.trans (by decide) hw) h_s
  apply startImage_kept _ (Sub.trans (by decide) hw)
  apply st_putBlob_kept _ _ _ (hw.bit (by decide))
  repeat' first
    | with_reducible refine st_p_kept _ _ _ ?_ ?_
    | with_reducible refine may_vd (hw.bit (by decide)) _ ?_
    | decide
  refine kept_cs _ _ (fun c => hf _ _ (ksorted_filter (h1.can c).2.2.1 _)) (hw.bit (by decide)) ?_
  simp only [kept_mk]
  apply kept_upd h1
  repeat' first
    | with_reducible exact mem_same
    | with_reducible exact host_same
    | with_reducible exact flt_same
    | with_reducible apply mem_upd
    | with_reducible apply host_upd
    | with_reducible apply flt_upd
    | exact .inl rfl
    | exact .inr (hw.bit (by decide))

theorem trySlot_kept (j : Fin 2) (words : List (Nat × MWord)) (dir : List VEntry) (version : BitVec 32) (s : State)
    (hw : Sub 0xc040300080000000000000000040000 W) (h_s : Kept W s0 s) :
    Kept W s0 (trySlot j words dir version s).2 := by
  unfold trySlot
  try dsimp only
  repeat' first
    | with_reducible assumption
    | (with_reducible refine slotFails_kept _ _ (Sub.trans (by decide) hw) ?_ )
    | (with_reducible refine bootSlot_kept _ _ _ _ _ (Sub.trans (by decide) hw) ?_ )
    | split

theorem bootRom_kept (words : List (Nat × MWord)) (dir : List VEntry) (version : BitVec 32) (s : State)
    (hw : Sub 0xc040304080000000000000000040000 W) (h_s : Kept W s0 s) :
    Kept W s0 (bootRom words dir version s) := by
  unfold bootRom
  try dsimp only
  repeat' first
    | with_reducible assumption
    | (with_reducible refine st_p_kept _ _ _ ?_ ?_)
    | (with_reducible refine setSlotState_kept _ _ _ (Sub.trans (by decide) hw) ?_ )
    | (with_reducible refine mirrorFuses_kept _ (Sub.trans (by decide) hw) ?_ )
    | (with_reducible refine staleTrials_kept _ (Sub.trans (by decide) hw) ?_ )
    | (with_reducible refine trySlot_kept _ _ _ _ _ (Sub.trans (by decide) hw) ?_ )
    | (with_reducible refine may_fwm (hw.bit (by decide)) _ ?_)
    | with_reducible exact same
    | with_reducible exact mem_same
    | with_reducible exact host_same
    | with_reducible exact flt_same
    | exact .inr (hw.bit (by decide))
    | decide
    | simp only [kept_mk]
    | with_reducible apply kept_upd
    | split

theorem execBootRom_kept (words : List (Nat × MWord)) (dir : List VEntry) (version : BitVec 32) (s : State)
    (hw : Sub 0x2c040304080000000000000000040000 W) (h_s : Kept W s0 s) :
    ∃ t', execBootRom words dir version s = .next t' ∧ Kept W s0 t' := by
  unfold execBootRom
  refine st_served_kept _ _ _ _ (Sub.trans (by decide) hw) (by assumption) fun s h_s => ?_
  refine ⟨_, rfl, ?_⟩
  try dsimp only
  repeat' first
    | with_reducible assumption
    | (with_reducible refine st_fresh_kept _ (Sub.trans (by decide) hw) ?_ )
    | (with_reducible refine bootRom_kept _ _ _ _ (Sub.trans (by decide) hw) ?_ )
    | with_reducible apply kept_ite

theorem execKzFwload_kept (img : List Byte) (s : State) (hw : Sub 0x4000000080000000000000000000000 W) (h_s : Kept W s0 s) :
    ∃ t', execKzFwload img s = .next t' ∧ Kept W s0 t' := by
  unfold execKzFwload
  refine ⟨_, rfl, ?_⟩
  try dsimp only
  repeat' first
    | with_reducible assumption
    | (with_reducible refine st_p_kept _ _ _ ?_ ?_)
    | (with_reducible refine st_fresh_kept _ (Sub.trans (by decide) hw) ?_ )
    | (with_reducible refine st_setSlot_kept _ _ _ (Sub.trans (by decide) hw) ?_ )
    | (with_reducible refine setSlotState_kept _ _ _ (Sub.trans (by decide) hw) ?_ )
    | with_reducible apply kept_ite
    | (with_reducible refine may_fwm (hw.bit (by decide)) _ ?_)
    | decide

theorem reapply_kept (s : State) (hw : Sub 0xbe2000000000000030498000400000 W) (h_s : Kept W s0 s) :
    Kept W s0 (reapply s) := by
  unfold reapply
  try dsimp only
  repeat' first
    | with_reducible assumption
    | intro _
    | (with_reducible refine substitute_kept _ _ (Sub.trans (by decide) hw) ?_ )
    | (with_reducible refine retireEffect_kept _ _ (Sub.trans (by decide) hw) ?_ )
    | with_reducible apply kept_foldl
    | split

theorem bootsKnown_kept (s : State) (hw : Sub 0xc002000000000000000000000000000 W) (h_s : Kept W s0 s) :
    Kept W s0 (bootsKnown s) := by
  unfold bootsKnown
  try dsimp only
  repeat' first
    | with_reducible assumption
    | with_reducible exact same
    | with_reducible exact mem_same
    | with_reducible exact host_same
    | with_reducible exact flt_same
    | exact .inr (hw.bit (by decide))
    | simp only [kept_mk]
    | with_reducible apply kept_upd

theorem journalReplay_kept (found : List JRead) (s : State) (hw : Sub 0x4ffe21030400001c0bb0499000410000 W) (h_s : Kept W s0 s) :
    Kept W s0 (journalReplay found s) := by
  unfold journalReplay
  try dsimp only
  repeat' first
    | with_reducible assumption
    | intro _
    | (with_reducible refine st_p_kept _ _ _ ?_ ?_)
    | (with_reducible refine st_raise_kept _ _ (Sub.trans (by decide) hw) ?_ )
    | (with_reducible refine st_logSrc_kept _ _ (Sub.trans (by decide) hw) ?_ )
    | (with_reducible refine reloadKey_kept _ (Sub.trans (by decide) hw) ?_ )
    | (with_reducible refine wipe_kept _ (Sub.trans (by decide) hw) ?_ )
    | (with_reducible refine levelsPark_kept _ _ (Sub.trans (by decide) hw) ?_ )
    | (with_reducible refine applyData_kept _ _ (Sub.trans (by decide) hw) ?_ )
    | (with_reducible refine effectOf_kept _ _ _ (Sub.trans (by decide) hw) ?_ ?_ )
    | (with_reducible refine reapply_kept _ (Sub.trans (by decide) hw) ?_ )
    | (with_reducible refine bootsKnown_kept _ (Sub.trans (by decide) hw) ?_ )
    | with_reducible apply kept_ite
    | with_reducible apply kept_foldl
    | with_reducible exact same
    | with_reducible exact mem_same
    | with_reducible exact host_same
    | with_reducible exact flt_same
    | exact .inr (hw.bit (by decide))
    | decide
    | simp only [kept_mk]
    | with_reducible apply kept_upd

theorem execJournalReplay_kept (d0 d1 : List (Nat × List Byte)) (s : State)
    (hw : Sub 0x6ffe21030400001c0bb0499000410000 W) (h_s : Kept W s0 s) :
    ∃ t', execJournalReplay d0 d1 s = .next t' ∧ Kept W s0 t' := by
  unfold execJournalReplay
  refine st_served_kept _ _ _ _ (Sub.trans (by decide) hw) (by assumption) fun s h_s => ?_
  refine ⟨_, rfl, ?_⟩
  try dsimp only
  repeat' first
    | with_reducible assumption
    | (with_reducible refine st_fresh_kept _ (Sub.trans (by decide) hw) ?_ )
    | (with_reducible refine journalReplay_kept _ _ (Sub.trans (by decide) hw) ?_ )
    | with_reducible apply kept_ite

theorem hbmTraining_kept (failed : Option (Fin 4)) (s : State)
    (hw : Sub 0x80c1000000000000000000000000000 W) (h_s : Kept W s0 s) :
    Kept W s0 (hbmTraining failed s) := by
  unfold hbmTraining
  try dsimp only
  repeat' first
    | with_reducible assumption
    | intro _
    | (with_reducible refine st_activate_kept _ _ _ _ (Sub.trans (by decide) hw) ?_ )
    | (with_reducible refine st_deactivate_kept _ _ (Sub.trans (by decide) hw) ?_ )
    | with_reducible apply kept_foldl
    | with_reducible exact same
    | with_reducible exact host_same
    | with_reducible exact flt_same
    | with_reducible apply mem_upd
    | exact .inr (hw.bit (by decide))
    | simp only [kept_mk]
    | with_reducible apply kept_upd
    | split

theorem execHbmTraining_kept (failed : Option (Fin 4)) (s : State)
    (hw : Sub 0x280c1000000000000000000000000000 W) (h_s : Kept W s0 s) :
    ∃ t', execHbmTraining failed s = .next t' ∧ Kept W s0 t' := by
  unfold execHbmTraining
  refine st_served_kept _ _ _ _ (Sub.trans (by decide) hw) (by assumption) fun s h_s => ?_
  refine ⟨_, rfl, ?_⟩
  try dsimp only
  repeat' first
    | with_reducible assumption
    | (with_reducible refine st_fresh_kept _ (Sub.trans (by decide) hw) ?_ )
    | (with_reducible refine hbmTraining_kept _ _ (Sub.trans (by decide) hw) ?_ )
    | with_reducible apply kept_ite

theorem ddr5Training_kept (caps : Vector Nat 8) (recordServes : Bool) (failed : List (Fin 4)) (record : List Byte) (s : State)
    (hw : Sub 0x80c0000900000000000000002000000 W) (h_s : Kept W s0 s) :
    Kept W s0 (ddr5Training caps recordServes failed record s) := by
  unfold ddr5Training
  try dsimp only
  repeat' first
    | with_reducible assumption
    | intro _
    | (with_reducible refine st_p_kept _ _ _ ?_ ?_)
    | (with_reducible refine st_activate_kept _ _ _ _ (Sub.trans (by decide) hw) ?_ )
    | (with_reducible refine st_deactivate_kept _ _ (Sub.trans (by decide) hw) ?_ )
    | with_reducible apply kept_ite
    | with_reducible apply kept_foldl
    | (with_reducible refine may_bu (hw.bit (by decide)) _ ?_)
    | (with_reducible refine may_hm (hw.bit (by decide)) _ ?_)
    | (with_reducible refine may_tn (hw.bit (by decide)) _ ?_)
    | with_reducible exact same
    | with_reducible exact mem_same
    | with_reducible exact host_same
    | with_reducible exact flt_same
    | exact .inr (hw.bit (by decide))
    | decide
    | simp only [kept_mk]
    | with_reducible apply kept_upd

theorem execDdr5Training_kept (caps : Vector Nat 8) (recordServes : Bool) (failed : List (Fin 4)) (record : List Byte) (s : State)
    (hw : Sub 0x280c0000900000000000000002000000 W) (h_s : Kept W s0 s) :
    ∃ t', execDdr5Training caps recordServes failed record s = .next t' ∧ Kept W s0 t' := by
  unfold execDdr5Training
  refine st_served_kept _ _ _ _ (Sub.trans (by decide) hw) (by assumption) fun s h_s => ?_
  refine ⟨_, rfl, ?_⟩
  try dsimp only
  repeat' first
    | with_reducible assumption
    | (with_reducible refine st_fresh_kept _ (Sub.trans (by decide) hw) ?_ )
    | (with_reducible refine ddr5Training_kept _ _ _ _ _ (Sub.trans (by decide) hw) ?_ )
    | with_reducible apply kept_ite

theorem endP4_kept (s : State) (hw : Sub 0x8020100100000000000000800000000 W) (h_s : Kept W s0 s) :
    Kept W s0 (endP4 s) := by
  unfold endP4
  try dsimp only
  repeat' first
    | with_reducible assumption
    | intro _
    | (with_reducible refine st_p_kept _ _ _ ?_ ?_)
    | (with_reducible refine st_putBlob_kept _ _ _ (hw.bit (by decide)) ?_)
    | (with_reducible refine st_publish_kept _ _ _ _ _ _ (Sub.trans (by decide) hw) ?_ ?_ )
    | with_reducible apply kept_foldl
    | (with_reducible refine may_bu (hw.bit (by decide)) _ ?_)
    | (with_reducible refine may_fc (hw.bit (by decide)) _ _ ?_ ?_)
    | with_reducible exact same
    | with_reducible exact mem_same
    | with_reducible exact host_same
    | with_reducible exact flt_same
    | exact .inr (hw.bit (by decide))
    | exact Fin.isLt _
    | decide
    | simp only [kept_mk]
    | with_reducible apply kept_upd
    | split

theorem execQuickSelfTest_kept (failing : List (BitVec 16)) (s : State)
    (hw : Sub 0x28040000000000000000000000000000 W) (h_s : Kept W s0 s) :
    ∃ t', execQuickSelfTest failing s = .next t' ∧ Kept W s0 t' := by
  unfold execQuickSelfTest
  refine st_served_kept _ _ _ _ (Sub.trans (by decide) hw) (by assumption) fun s h_s => ?_
  refine ⟨_, rfl, ?_⟩
  try dsimp only
  repeat' first
    | with_reducible assumption
    | intro _
    | (with_reducible refine st_fresh_kept _ (Sub.trans (by decide) hw) ?_ )
    | (with_reducible refine st_report_kept _ _ _ _ (Sub.trans (by decide) hw) ?_ )
    | with_reducible apply kept_ite
    | with_reducible apply kept_foldl
    | with_reducible exact same
    | with_reducible exact mem_same
    | with_reducible exact host_same
    | with_reducible exact flt_same
    | exact .inr (hw.bit (by decide))
    | simp only [kept_mk]
    | with_reducible apply kept_upd

theorem recordPhase_kept (p : Nat) (s : State) (hw : Sub 0x200000000000000000000000 W) (_hk : p < 8) (_h_s : Kept W s0 s) :
    Kept W s0 (recordPhase p s) := by
  unfold recordPhase
  try dsimp only
  repeat' first
    | (with_reducible refine st_p_kept _ _ _ ?_ ?_)
    | (with_reducible refine may_bp (hw.bit (by decide)) _ ?_)
    | omega

theorem reachP6_kept (drsOn full : Bool) (s : State) (hw : Sub 0xc020000101000000000000000000000 W) (h_s : Kept W s0 s) :
    Kept W s0 (reachP6 drsOn full s) := by
  unfold reachP6
  try dsimp only
  repeat' first
    | with_reducible assumption
    | (with_reducible refine st_p_kept _ _ _ ?_ ?_)
    | (with_reducible refine st_cnt32_kept _ _ (Sub.trans (by decide) hw) ?_ ?_ )
    | (with_reducible refine st_emit_kept _ _ (Sub.trans (by decide) hw) ?_ )
    | (with_reducible refine st_logEv_kept _ _ (Sub.trans (by decide) hw) ?_ )
    | (with_reducible refine st_persist_kept _ _ (Sub.trans (by decide) hw) ?_ )
    | (with_reducible refine nextNotif_kept _ (Sub.trans (by decide) hw) ?_ )
    | (with_reducible refine beginPhase_kept _ _ (Sub.trans (by decide) hw) ?_ )
    | with_reducible apply kept_ite
    | (with_reducible refine may_bu (hw.bit (by decide)) _ ?_)
    | (with_reducible refine may_mg (hw.bit (by decide)) _ ?_)
    | with_reducible exact same
    | with_reducible exact mem_same
    | with_reducible exact host_same
    | with_reducible exact flt_same
    | exact .inr (hw.bit (by decide))
    | decide
    | simp only [kept_mk]
    | with_reducible apply kept_upd

theorem endP2_kept (s : State) (hw : Sub 0x4fffbf071819101c88f049f290c34584 W) (h_s : Kept W s0 s) :
    Kept W s0 (endP2 s) := by
  unfold endP2
  try dsimp only
  repeat' first
    | with_reducible assumption
    | intro _
    | (with_reducible refine reloadKey_kept _ (Sub.trans (by decide) hw) ?_ )
    | (with_reducible refine serve_kept _ _ (Sub.trans (by decide) hw) ?_ )
    | (with_reducible refine beginPhase_kept _ _ (Sub.trans (by decide) hw) ?_ )
    | (with_reducible refine reachP6_kept _ _ _ (Sub.trans (by decide) hw) ?_ )
    | with_reducible apply kept_ite
    | with_reducible apply kept_foldl
    | with_reducible exact same
    | with_reducible exact mem_same
    | with_reducible exact host_same
    | with_reducible exact flt_same
    | exact .inr (hw.bit (by decide))
    | simp only [kept_mk]
    | with_reducible apply kept_upd

theorem phaseEnd_kept (tamperLow drsOn : Bool) (s : State) (hw : Sub 0x4fffbf073819109c88f049fa90c34584 W) (h_s : Kept W s0 s) :
    Kept W s0 (phaseEnd tamperLow drsOn s) := by
  unfold phaseEnd
  try dsimp only
  repeat' first
    | with_reducible assumption
    | intro _
    | (with_reducible refine st_deactivate_kept _ _ (Sub.trans (by decide) hw) ?_ )
    | (with_reducible refine tamper_kept _ (Sub.trans (by decide) hw) ?_ )
    | (with_reducible refine beginPhase_kept _ _ (Sub.trans (by decide) hw) ?_ )
    | (with_reducible refine startPrimaries_kept _ (Sub.trans (by decide) hw) ?_ )
    | (with_reducible refine holdGate_kept _ (Sub.trans (by decide) hw) ?_ )
    | (with_reducible refine lockAll_kept _ (Sub.trans (by decide) hw) ?_ )
    | (with_reducible refine endP4_kept _ (Sub.trans (by decide) hw) ?_ )
    | (with_reducible refine recordPhase_kept _ _ (Sub.trans (by decide) hw) ?_ ?_ )
    | (with_reducible refine reachP6_kept _ _ _ (Sub.trans (by decide) hw) ?_ )
    | (with_reducible refine endP2_kept _ (Sub.trans (by decide) hw) ?_ )
    | with_reducible apply kept_foldl
    | with_reducible exact same
    | with_reducible exact mem_same
    | with_reducible exact host_same
    | with_reducible apply flt_upd
    | exact .inr (hw.bit (by decide))
    | decide
    | simp only [kept_mk]
    | with_reducible apply kept_upd
    | split

theorem execPhaseEnd_kept (tamperLow drsOn : Bool) (s : State)
    (hw : Sub 0x4fffbf073819109c88f049fa90c34584 W) (h_s : Kept W s0 s) :
    ∃ t', execPhaseEnd tamperLow drsOn s = .next t' ∧ Kept W s0 t' := by
  unfold execPhaseEnd
  refine ⟨_, rfl, ?_⟩
  try dsimp only
  repeat' first
    | with_reducible assumption
    | (with_reducible refine st_fresh_kept _ (Sub.trans (by decide) hw) ?_ )
    | (with_reducible refine phaseEnd_kept _ _ _ (Sub.trans (by decide) hw) ?_ )

end Sys2Proof.Laws
end

