-- ==== Sys2Proof/Laws/KeptCompare.lean ====
section
/-! SUPPORT. One lemma per operation of Machine/Compare.lean: within which mask of parts it keeps the rest; a command's meaning
answers a next state that is so kept. The numeral of a mask has the bits of Area. -/
namespace Sys2Proof.Laws
open Sys2Proof Sys2Proof.Machine
variable {W : Nat} {s0 : State}

theorem cmpBoth_kept (c : ChanId) (s : State) (hw : Sub 0x41000000000000000008000000000 W) (h_s : Kept W s0 s) :
    Kept W s0 (cmpBoth c s) := by
  unfold cmpBoth
  try dsimp only
  repeat' first
    | with_reducible assumption
    | (with_reducible refine st_sat32_kept _ _ (Sub.trans (by decide) hw) ?_ ?_ )
    | (with_reducible refine st_raise_kept _ _ (Sub.trans (by decide) hw) ?_ )
    | with_reducible apply kept_ite
    | (with_reducible refine may_ch (hw.bit (by decide)) _ _ ?_ ?_)
    | with_reducible exact same
    | with_reducible exact host_same
    | with_reducible exact flt_same
    | with_reducible apply mem_upd
    | exact .inr (hw.bit (by decide))
    | exact Fin.isLt _
    | decide
    | simp only [kept_mk]
    | with_reducible apply kept_upd

theorem firstFail_kept (i : SiteId) (f : Frame) (v : Vec) (cycle : Nat) (bad : List Judged) (s : State)
    (hw : Sub 0x42000000000000000002000000080 W) (h_s : Kept W s0 s) :
    Kept W s0 (firstFail i f v cycle bad s) := by
  unfold firstFail
  try dsimp only
  repeat' first
    | with_reducible assumption
    | intro _
    | (with_reducible refine st_p_kept _ _ _ ?_ ?_)
    | (with_reducible refine st_modSite_kept _ _ _ (Sub.trans (by decide) hw) ?_ )
    | (with_reducible refine st_event_kept _ _ _ _ _ (Sub.trans (by decide) hw) ?_ )
    | with_reducible apply kept_ite
    | with_reducible apply kept_foldl
    | (with_reducible refine may_ff (hw.bit (by decide)) _ _ ?_ ?_)
    | exact Fin.isLt _
    | decide
    | (have hj := lt_of_mem (by with_reducible assumption); omega)

theorem failVector_kept (i : SiteId) (f : Frame) (k : Nat) (v : Vec) (judged : List Judged) (s : State)
    (hw : Sub 0x42000000000000000007000000080 W) (_h_s : Kept W s0 s) :
    Kept W s0 (failVector i f k v judged s) := by
  unfold failVector
  try dsimp only
  repeat' first
    | intro _
    | (with_reducible refine st_p_kept _ _ _ ?_ ?_)
    | (with_reducible refine st_sat32_kept _ _ (Sub.trans (by decide) hw) ?_ ?_ )
    | (with_reducible refine st_modSite_kept _ _ _ (Sub.trans (by decide) hw) ?_ )
    | (with_reducible refine flushLog_kept _ _ _ (Sub.trans (by decide) hw) ?_ )
    | (with_reducible refine firstFail_kept _ _ _ _ _ _ (Sub.trans (by decide) hw) ?_ )
    | with_reducible apply kept_ite
    | with_reducible apply kept_foldl
    | (with_reducible refine may_fr (hw.bit (by decide)) _ _ ?_ ?_)
    | (with_reducible refine may_pf (hw.bit (by decide)) _ _ ?_ ?_)
    | omega

theorem firstFailStop_kept (i : SiteId) (g : Nat) (s : State) (hw : Sub 0x2000000000000000000000000000 W) (h_s : Kept W s0 s) :
    Kept W s0 (firstFailStop i g s) := by
  unfold firstFailStop
  try dsimp only
  repeat' first
    | with_reducible assumption
    | (with_reducible refine st_setSite_kept _ _ _ (Sub.trans (by decide) hw) ?_ )
    | split

theorem captureLost_kept (i : SiteId) (s : State) (hw : Sub 0x42000000000000000001000000000 W) (h_s : Kept W s0 s) :
    Kept W s0 (captureLost i s) := by
  unfold captureLost
  try dsimp only
  repeat' first
    | with_reducible assumption
    | (with_reducible refine st_p_kept _ _ _ ?_ ?_)
    | (with_reducible refine st_modSite_kept _ _ _ (Sub.trans (by decide) hw) ?_ )
    | (with_reducible refine st_raiseSite_kept _ _ _ (Sub.trans (by decide) hw) ?_ )
    | with_reducible apply kept_ite
    | (with_reducible refine may_fr (hw.bit (by decide)) _ _ ?_ ?_)
    | exact Fin.isLt _
    | decide

theorem captureVector_kept (i : SiteId) (f : Frame) (k : Nat) (v : Vec) (judged : List Judged) (s : State)
    (hw : Sub 0x42000000000000000001000000000 W) (h_s : Kept W s0 s) :
    Kept W s0 (captureVector i f k v judged s) := by
  unfold captureVector
  try dsimp only
  repeat' first
    | with_reducible assumption
    | (with_reducible refine st_setSite_kept _ _ _ (Sub.trans (by decide) hw) ?_ )
    | (with_reducible refine st_modSite_kept _ _ _ (Sub.trans (by decide) hw) ?_ )
    | (with_reducible refine captureLost_kept _ _ (Sub.trans (by decide) hw) ?_ )
    | with_reducible apply kept_ite

theorem calResults_kept (judged : List Judged) (s : State) (hw : Sub 0x800000000000000000000000000000 W) (h_s : Kept W s0 s) :
    Kept W s0 (calResults judged s) := by
  unfold calResults
  try dsimp only
  repeat' first
    | with_reducible assumption
    | intro _
    | (with_reducible refine st_setCalBank_kept _ _ _ (Sub.trans (by decide) hw) ?_ )
    | with_reducible apply kept_foldl
    | split

theorem latchFrame_kept (i : SiteId) (f : Frame) (samples : List Sample) (s : State)
    (hw : Sub 0x94300000000000000000f000000080 W) (h_s : Kept W s0 s) :
    Kept W s0 (latchFrame i f samples s) := by
  unfold latchFrame
  try dsimp only
  repeat' first
    | with_reducible assumption
    | intro _
    | (with_reducible refine st_modSite_kept _ _ _ (Sub.trans (by decide) hw) ?_ )
    | (with_reducible refine tmuFrameResults_kept _ _ _ _ (Sub.trans (by decide) hw) ?_ )
    | (with_reducible refine cmpBoth_kept _ _ (Sub.trans (by decide) hw) ?_ )
    | (with_reducible refine failVector_kept _ _ _ _ _ _ (Sub.trans (by decide) hw) ?_ )
    | (with_reducible refine firstFailStop_kept _ _ _ (Sub.trans (by decide) hw) ?_ )
    | (with_reducible refine captureVector_kept _ _ _ _ _ _ (Sub.trans (by decide) hw) ?_ )
    | (with_reducible refine calResults_kept _ _ (Sub.trans (by decide) hw) ?_ )
    | with_reducible apply kept_ite
    | with_reducible apply kept_foldl
    | with_reducible exact same
    | with_reducible exact mem_same
    | with_reducible exact host_same
    | with_reducible exact flt_same
    | simp only [kept_mk]
    | with_reducible apply kept_upd

theorem snapResults_kept (i : SiteId) (s : State) (hw : Sub 0x2000000000000000000000000000 W) (h_s : Kept W s0 s) :
    Kept W s0 (snapResults i s) := by
  unfold snapResults
  try dsimp only
  repeat' first
    | with_reducible assumption
    | (with_reducible refine st_modSite_kept _ _ _ (Sub.trans (by decide) hw) ?_ )
    | with_reducible apply kept_ite

theorem compareLatch_kept (i : SiteId) (samples : List Sample) (s : State)
    (hw : Sub 0x96300000000000000008f000000080 W) (h_s : Kept W s0 s) :
    Kept W s0 (compareLatch i samples s) := by
  unfold compareLatch
  try dsimp only
  repeat' first
    | with_reducible assumption
    | (with_reducible refine st_setSite_kept _ _ _ (Sub.trans (by decide) hw) ?_ )
    | (with_reducible refine st_modSite_kept _ _ _ (Sub.trans (by decide) hw) ?_ )
    | (with_reducible refine flushLog_kept _ _ _ (Sub.trans (by decide) hw) ?_ )
    | (with_reducible refine closeFails_kept _ _ (Sub.trans (by decide) hw) ?_ )
    | (with_reducible refine calSiteEnded_kept _ _ (Sub.trans (by decide) hw) ?_ )
    | (with_reducible refine latchFrame_kept _ _ _ _ (Sub.trans (by decide) hw) ?_ )
    | (with_reducible refine snapResults_kept _ _ (Sub.trans (by decide) hw) ?_ )
    | split

theorem execCompareResultLatch_kept (i : SiteId) (samples : List Sample) (s : State)
    (hw : Sub 0x96300000000000000008f000000080 W) (h_s : Kept W s0 s) :
    ∃ t', execCompareResultLatch i samples s = .next t' ∧ Kept W s0 t' := by
  unfold execCompareResultLatch
  refine ⟨_, rfl, ?_⟩
  try dsimp only
  repeat' first
    | with_reducible assumption
    | intro _
    | (with_reducible refine st_fresh_kept _ (Sub.trans (by decide) hw) ?_ )
    | (with_reducible refine st_timed_kept _ _ (Sub.trans (by decide) hw) ?_ ?_ )
    | (with_reducible refine compareLatch_kept _ _ _ (Sub.trans (by decide) hw) ?_ )

theorem losChange_kept (c : ChanId) (on : Bool) (s : State) (hw : Sub 0x1000000000000000008000000000 W) (h_s : Kept W s0 s) :
    Kept W s0 (losChange c on s) := by
  unfold losChange
  try dsimp only
  repeat' first
    | with_reducible assumption
    | (with_reducible refine st_p_kept _ _ _ ?_ ?_)
    | (with_reducible refine may_ch (hw.bit (by decide)) _ _ ?_ ?_)
    | with_reducible exact same
    | with_reducible exact host_same
    | with_reducible exact flt_same
    | with_reducible apply mem_upd
    | exact .inr (hw.bit (by decide))
    | exact Fin.isLt _
    | decide
    | simp only [kept_mk]
    | with_reducible apply kept_upd

theorem execPeLos_kept (c : ChanId) (s : State) (hw : Sub 0xc1000000000000000008000000000 W) (h_s : Kept W s0 s) :
    ∃ t', execPeLos c s = .next t' ∧ Kept W s0 t' := by
  unfold execPeLos
  refine ⟨_, rfl, ?_⟩
  try dsimp only
  repeat' first
    | with_reducible assumption
    | intro _
    | (with_reducible refine st_fresh_kept _ (Sub.trans (by decide) hw) ?_ )
    | (with_reducible refine st_timed_kept _ _ (Sub.trans (by decide) hw) ?_ ?_ )
    | (with_reducible refine st_activate_kept _ _ _ _ (Sub.trans (by decide) hw) ?_ )
    | (with_reducible refine losChange_kept _ _ _ (Sub.trans (by decide) hw) ?_ )
    | with_reducible apply kept_ite

theorem execLosClear_kept (c : ChanId) (s : State) (hw : Sub 0x81000000000000000008000000000 W) (h_s : Kept W s0 s) :
    ∃ t', execLosClear c s = .next t' ∧ Kept W s0 t' := by
  unfold execLosClear
  refine ⟨_, rfl, ?_⟩
  try dsimp only
  repeat' first
    | with_reducible assumption
    | intro _
    | (with_reducible refine st_fresh_kept _ (Sub.trans (by decide) hw) ?_ )
    | (with_reducible refine st_timed_kept _ _ (Sub.trans (by decide) hw) ?_ ?_ )
    | (with_reducible refine st_deactivate_kept _ _ (Sub.trans (by decide) hw) ?_ )
    | (with_reducible refine losChange_kept _ _ _ (Sub.trans (by decide) hw) ?_ )
    | with_reducible apply kept_ite

end Sys2Proof.Laws
end

