-- ==== Sys2Proof/Laws/KeptKdp.lean ====
section
/-! SUPPORT. One lemma per operation of Machine/Kdp.lean: within which mask of parts it keeps the rest; a command's meaning
answers a next state that is so kept. The numeral of a mask has the bits of Area. -/
namespace Sys2Proof.Laws
open Sys2Proof Sys2Proof.Machine
variable {W : Nat} {s0 : State}

theorem newSession_kept (node : Nat) (session : BitVec 16) (s : State)
    (hw : Sub 0x4068000000000000000000000000004 W) (h_s : Kept W s0 s) :
    Kept W s0 (newSession node session s) := by
  unfold newSession
  try dsimp only
  repeat' first
    | with_reducible assumption
    | (with_reducible refine rollbackAll_kept _ _ (Sub.trans (by decide) hw) ?_ )

theorem kdpRequest_kept (k : KdpIn) (src : BitVec 48) (node : Fin 64) (s : State)
    (hw : Sub 0x4fffbf071809101c88f049f290c34584 W) (h_s : Kept W s0 s) :
    Kept W s0 (kdpRequest k src node s) := by
  unfold kdpRequest
  try dsimp only
  repeat' first
    | with_reducible assumption
    | (with_reducible refine st_sat32_kept _ _ (Sub.trans (by decide) hw) ?_ ?_ )
    | (with_reducible refine st_emit_kept _ _ (Sub.trans (by decide) hw) ?_ )
    | (with_reducible refine answer_kept _ _ _ _ _ _ (Sub.trans (by decide) hw) ?_ )
    | (with_reducible refine arrive_kept _ _ (Sub.trans (by decide) hw) ?_ )
    | (with_reducible refine newSession_kept _ _ _ (Sub.trans (by decide) hw) ?_ )
    | with_reducible exact same
    | with_reducible exact mem_same
    | with_reducible exact host_same
    | with_reducible exact flt_same
    | exact .inr (hw.bit (by decide))
    | decide
    | simp only [kept_mk]
    | with_reducible apply kept_upd
    | split

theorem kdpReceive_kept (mac src : BitVec 48) (bytes : List Byte) (s : State)
    (hw : Sub 0x4fffbf071809101c88f049f290c34584 W) (h_s : Kept W s0 s) :
    Kept W s0 (kdpReceive mac src bytes s) := by
  unfold kdpReceive
  try dsimp only
  repeat' first
    | with_reducible assumption
    | (with_reducible refine st_sat32_kept _ _ (Sub.trans (by decide) hw) ?_ ?_ )
    | (with_reducible refine acked_kept _ _ (Sub.trans (by decide) hw) ?_ )
    | (with_reducible refine kdpRequest_kept _ _ _ _ (Sub.trans (by decide) hw) ?_ )
    | with_reducible apply kept_ite
    | (with_reducible refine may_net (hw.bit (by decide)) _ ?_)
    | decide

theorem execKdpFrame_kept (macs : FrameMacs) (bytes : List Byte) (s : State)
    (hw : Sub 0x6fffbf071809101c88f049f290c34584 W) (h_s : Kept W s0 s) :
    ∃ t', execKdpFrame macs bytes s = .next t' ∧ Kept W s0 t' := by
  unfold execKdpFrame
  refine st_served_kept _ _ _ _ (Sub.trans (by decide) hw) (by assumption) fun s h_s => ?_
  refine ⟨_, rfl, ?_⟩
  try dsimp only
  repeat' first
    | with_reducible assumption
    | (with_reducible refine st_fresh_kept _ (Sub.trans (by decide) hw) ?_ )
    | (with_reducible refine kdpReceive_kept _ _ _ _ (Sub.trans (by decide) hw) ?_ )

theorem execPlcaBeaconLost_kept (s : State) (hw : Sub 0x200c0000000000000000000000000004 W) (h_s : Kept W s0 s) :
    ∃ t', execPlcaBeaconLost s = .next t' ∧ Kept W s0 t' := by
  unfold execPlcaBeaconLost
  refine st_served_kept _ _ _ _ (Sub.trans (by decide) hw) (by assumption) fun s h_s => ?_
  refine ⟨_, rfl, ?_⟩
  try dsimp only
  repeat' first
    | with_reducible assumption
    | (with_reducible refine st_p_kept _ _ _ ?_ ?_)
    | (with_reducible refine st_fresh_kept _ (Sub.trans (by decide) hw) ?_ )
    | (with_reducible refine st_activate_kept _ _ _ _ (Sub.trans (by decide) hw) ?_ )
    | (with_reducible refine may_net (hw.bit (by decide)) _ ?_)
    | decide

theorem execPlcaBeacon_kept (s : State) (hw : Sub 0x20080000000000000000000000000004 W) (h_s : Kept W s0 s) :
    ∃ t', execPlcaBeacon s = .next t' ∧ Kept W s0 t' := by
  unfold execPlcaBeacon
  refine st_served_kept _ _ _ _ (Sub.trans (by decide) hw) (by assumption) fun s h_s => ?_
  refine ⟨_, rfl, ?_⟩
  try dsimp only
  repeat' first
    | with_reducible assumption
    | (with_reducible refine st_p_kept _ _ _ ?_ ?_)
    | (with_reducible refine st_fresh_kept _ (Sub.trans (by decide) hw) ?_ )
    | (with_reducible refine st_deactivate_kept _ _ (Sub.trans (by decide) hw) ?_ )
    | (with_reducible refine may_net (hw.bit (by decide)) _ ?_)
    | decide

theorem execMailboxRequest_kept (bytes : List Byte) (s : State)
    (hw : Sub 0x6fffbf071809101c88f049f290c34584 W) (h_s : Kept W s0 s) :
    ∃ t', execMailboxRequest bytes s = .next t' ∧ Kept W s0 t' := by
  unfold execMailboxRequest
  refine st_served_kept _ _ _ _ (Sub.trans (by decide) hw) (by assumption) fun s h_s => ?_
  refine ⟨_, rfl, ?_⟩
  try dsimp only
  repeat' first
    | with_reducible assumption
    | (with_reducible refine st_fresh_kept _ (Sub.trans (by decide) hw) ?_ )
    | (with_reducible refine arrive_kept _ _ (Sub.trans (by decide) hw) ?_ )
    | with_reducible exact same
    | with_reducible exact mem_same
    | with_reducible exact host_same
    | with_reducible exact flt_same
    | exact .inr (hw.bit (by decide))
    | simp only [kept_mk]
    | with_reducible apply kept_upd

end Sys2Proof.Laws
end

