-- ==== Sys2Proof/Laws/KeptMover.lean ====
section
/-! SUPPORT. One lemma per operation of Machine/Mover.lean: within which mask of parts it keeps the rest; a command's meaning
answers a next state that is so kept. The numeral of a mask has the bits of Area. -/
namespace Sys2Proof.Laws
open Sys2Proof Sys2Proof.Machine
variable {W : Nat} {s0 : State}

theorem leaveMover_kept (j : MoverJob) (s : State) (hw : Sub 0x400000000000000000000000000 W) (h_s : Kept W s0 s) :
    Kept W s0 (leaveMover j s) := by
  unfold leaveMover
  try dsimp only
  repeat' first
    | with_reducible assumption
    | with_reducible exact same
    | with_reducible exact host_same
    | with_reducible exact flt_same
    | with_reducible apply mem_upd
    | exact .inr (hw.bit (by decide))
    | simp only [kept_mk]
    | with_reducible apply kept_upd

theorem whenServed_kept (deep : Bool) (t : Tag) (s : State) (act : State → State)
    (hw : Sub 0x400000000000000000000000000 W) (h_s : Kept W s0 s) (h_act : ∀  s, Kept W s0 s → Kept W s0 (act  s)) :
    Kept W s0 (whenServed deep t s act) := by
  unfold whenServed
  try dsimp only
  repeat' first
    | with_reducible assumption
    | apply h_act
    | (with_reducible refine leaveMover_kept _ _ (Sub.trans (by decide) hw) ?_ )
    | with_reducible apply kept_ite
    | with_reducible exact same
    | with_reducible exact host_same
    | with_reducible exact flt_same
    | with_reducible apply mem_upd
    | exact .inr (hw.bit (by decide))
    | simp only [kept_mk]
    | with_reducible apply kept_upd

theorem segWrite_kept (t : Tag) (n : SegId) (first count : Nat) (data : List Byte) (s : State)
    (hw : Sub 0x18400000000000000000000000000 W) (h_s : Kept W s0 s) :
    Kept W s0 (segWrite t n first count data s) := by
  unfold segWrite
  try dsimp only
  repeat' first
    | with_reducible assumption
    | intro _
    | (with_reducible refine st_setSeg_kept _ _ _ (hw.bit (by decide)) ?_)
    | (with_reducible refine st_complete_kept _ _ _ _ (Sub.trans (by decide) hw) ?_ )
    | (with_reducible refine st_refuse_kept _ _ _ (Sub.trans (by decide) hw) ?_ )
    | (with_reducible refine st_fromHost_kept _ _ _ (Sub.trans (by decide) hw) ?_ )
    | (with_reducible refine leaveMover_kept _ _ (Sub.trans (by decide) hw) ?_ )
    | (with_reducible refine whenServed_kept _ _ _ _ (Sub.trans (by decide) hw) ?_ ?_ )
    | split

theorem execSegWrite_kept (t : Tag) (n : SegId) (first count : Nat) (data : List Byte) (s : State)
    (hw : Sub 0x20018400000000000000000000000000 W) (h_s : Kept W s0 s) :
    ∃ t', execSegWrite t n first count data s = .next t' ∧ Kept W s0 t' := by
  unfold execSegWrite
  refine st_queued_kept _ _ _ _ _ (Sub.trans (by decide) hw) (by assumption) fun s h_s => ?_
  refine ⟨_, rfl, ?_⟩
  try dsimp only
  repeat' first
    | with_reducible assumption
    | intro _
    | (with_reducible refine st_fresh_kept _ (Sub.trans (by decide) hw) ?_ )
    | (with_reducible refine st_inRange_kept _ _ _ _ (Sub.trans (by decide) hw) ?_ ?_ )
    | (with_reducible refine segWrite_kept _ _ _ _ _ _ (Sub.trans (by decide) hw) ?_ )

theorem readMet_kept (x : Seg) (n : Nat) (c : MoverCheck) (s : State)
    (hw : Sub 0x51400000000000000000040000000 W) (h_s : Kept W s0 s) :
    Kept W s0 (readMet x n c s) := by
  unfold readMet
  try dsimp only
  repeat' first
    | with_reducible assumption
    | (with_reducible refine moverCe_kept _ _ _ _ (Sub.trans (by decide) hw) ?_ )
    | (with_reducible refine moverUe_kept _ _ _ _ _ (Sub.trans (by decide) hw) ?_ )
    | split

theorem segRead_kept (t : Tag) (n : SegId) (first count : Nat) (c : MoverCheck) (s : State)
    (hw : Sub 0x51400000000000000000040000000 W) (h_s : Kept W s0 s) :
    Kept W s0 (segRead t n first count c s) := by
  unfold segRead
  try dsimp only
  repeat' first
    | with_reducible assumption
    | intro _
    | (with_reducible refine st_complete_kept _ _ _ _ (Sub.trans (by decide) hw) ?_ )
    | (with_reducible refine st_refuse_kept _ _ _ (Sub.trans (by decide) hw) ?_ )
    | (with_reducible refine st_toHost_kept _ _ _ (Sub.trans (by decide) hw) ?_ )
    | (with_reducible refine leaveMover_kept _ _ (Sub.trans (by decide) hw) ?_ )
    | (with_reducible refine whenServed_kept _ _ _ _ (Sub.trans (by decide) hw) ?_ ?_ )
    | (with_reducible refine readMet_kept _ _ _ _ (Sub.trans (by decide) hw) ?_ )
    | with_reducible exact same
    | with_reducible exact mem_same
    | with_reducible exact host_same
    | with_reducible exact flt_same
    | simp only [kept_mk]
    | with_reducible apply kept_upd
    | split

theorem execSegRead_kept (t : Tag) (n : SegId) (first : Nat) (count : SegItems) (s : State)
    (hw : Sub 0x20051400000000000000000040000000 W) (h_s : Kept W s0 s) :
    ∃ t', execSegRead t n first count s = .next t' ∧ Kept W s0 t' := by
  unfold execSegRead
  refine st_queued_kept _ _ _ _ _ (Sub.trans (by decide) hw) (by assumption) fun s h_s => ?_
  refine ⟨_, rfl, ?_⟩
  try dsimp only
  repeat' first
    | with_reducible assumption
    | intro _
    | (with_reducible refine st_fresh_kept _ (Sub.trans (by decide) hw) ?_ )
    | (with_reducible refine st_inRange_kept _ _ _ _ (Sub.trans (by decide) hw) ?_ ?_ )
    | (with_reducible refine segRead_kept _ _ _ _ _ _ (Sub.trans (by decide) hw) ?_ )

theorem segMigrate_kept (t : Tag) (n : SegId) (home : Tier) (s : State)
    (hw : Sub 0x10400000000000000000000000000 W) (h_s : Kept W s0 s) :
    Kept W s0 (segMigrate t n home s) := by
  unfold segMigrate
  try dsimp only
  repeat' first
    | with_reducible assumption
    | (with_reducible refine st_setSeg_kept _ _ _ (hw.bit (by decide)) ?_)
    | (with_reducible refine st_complete_kept _ _ _ _ (Sub.trans (by decide) hw) ?_ )
    | (with_reducible refine st_refuse_kept _ _ _ (Sub.trans (by decide) hw) ?_ )
    | with_reducible exact same
    | with_reducible exact host_same
    | with_reducible exact flt_same
    | with_reducible apply mem_upd
    | exact .inr (hw.bit (by decide))
    | simp only [kept_mk]
    | with_reducible apply kept_upd
    | split

theorem execSegMigrate_kept (t : Tag) (n : SegId) (home : Tier) (s : State)
    (hw : Sub 0x20010400000000000000000000000000 W) (h_s : Kept W s0 s) :
    ∃ t', execSegMigrate t n home s = .next t' ∧ Kept W s0 t' := by
  unfold execSegMigrate
  refine st_queued_kept _ _ _ _ _ (Sub.trans (by decide) hw) (by assumption) fun s h_s => ?_
  refine ⟨_, rfl, ?_⟩
  try dsimp only
  repeat' first
    | with_reducible assumption
    | (with_reducible refine st_fresh_kept _ (Sub.trans (by decide) hw) ?_ )
    | (with_reducible refine segMigrate_kept _ _ _ _ (Sub.trans (by decide) hw) ?_ )

theorem segMigrateDone_kept (n : SegId) (c : MoverCheck) (s : State)
    (hw : Sub 0x51400000000000000000040000000 W) (h_s : Kept W s0 s) :
    Kept W s0 (segMigrateDone n c s) := by
  unfold segMigrateDone
  try dsimp only
  repeat' first
    | with_reducible assumption
    | (with_reducible refine st_setSeg_kept _ _ _ (hw.bit (by decide)) ?_)
    | (with_reducible refine st_complete_kept _ _ _ _ (Sub.trans (by decide) hw) ?_ )
    | (with_reducible refine moverCe_kept _ _ _ _ (Sub.trans (by decide) hw) ?_ )
    | (with_reducible refine moverUe_kept _ _ _ _ _ (Sub.trans (by decide) hw) ?_ )
    | (with_reducible refine leaveMover_kept _ _ (Sub.trans (by decide) hw) ?_ )
    | split

theorem execSegMigrateDone_kept (n : MoveEnd) (s : State) (hw : Sub 0x51400000000000000000040000000 W) (h_s : Kept W s0 s) :
    ∃ t', execSegMigrateDone n s = .next t' ∧ Kept W s0 t' := by
  unfold execSegMigrateDone
  refine ⟨_, rfl, ?_⟩
  try dsimp only
  repeat' first
    | with_reducible assumption
    | intro _
    | (with_reducible refine st_fresh_kept _ (Sub.trans (by decide) hw) ?_ )
    | (with_reducible refine st_timed_kept _ _ (Sub.trans (by decide) hw) ?_ ?_ )
    | (with_reducible refine segMigrateDone_kept _ _ _ (Sub.trans (by decide) hw) ?_ )

end Sys2Proof.Laws
end

