-- ==== Sys2Proof/Laws/KeptResults.lean ====
section
/-! SUPPORT. One lemma per operation of Machine/Results.lean: within which mask of parts it keeps the rest; a command's meaning
answers a next state that is so kept. The numeral of a mask has the bits of Area. -/
namespace Sys2Proof.Laws
open Sys2Proof Sys2Proof.Machine
variable {W : Nat} {s0 : State}

theorem enterCountOnly_kept (i : SiteId) (cause : Nat) (e : FailE) (s : State)
    (hw : Sub 0x42000000000000000001000000000 W) (h_s : Kept W s0 s) :
    Kept W s0 (enterCountOnly i cause e s) := by
  unfold enterCountOnly
  try dsimp only
  repeat' first
    | with_reducible assumption
    | (with_reducible refine st_p_kept _ _ _ ?_ ?_)
    | (with_reducible refine st_modSite_kept _ _ _ (Sub.trans (by decide) hw) ?_ )
    | (with_reducible refine st_raiseSite_kept _ _ _ (Sub.trans (by decide) hw) ?_ )
    | (with_reducible refine may_fr (hw.bit (by decide)) _ _ ?_ ?_)
    | exact Fin.isLt _
    | decide

theorem logLost_kept (i : SiteId) (es : List FailE) (s : State) (hw : Sub 0x1000000000 W) (h_s : Kept W s0 s) :
    Kept W s0 (logLost i es s) := by
  unfold logLost
  try dsimp only
  repeat' first
    | with_reducible assumption
    | (with_reducible refine st_p_kept _ _ _ ?_ ?_)
    | with_reducible apply kept_ite
    | (with_reducible refine may_fr (hw.bit (by decide)) _ _ ?_ ?_)
    | exact Fin.isLt _
    | decide

theorem offer_kept (i : SiteId) (es : List FailE) (s : State) (hw : Sub 0x42000000000000000001000000000 W) (h_s : Kept W s0 s) :
    Kept W s0 (offer i es s) := by
  unfold offer
  try dsimp only
  repeat' first
    | with_reducible assumption
    | (with_reducible refine st_cnt32_kept _ _ (Sub.trans (by decide) hw) ?_ ?_ )
    | (with_reducible refine st_modSite_kept _ _ _ (Sub.trans (by decide) hw) ?_ )
    | (with_reducible refine enterCountOnly_kept _ _ _ _ (Sub.trans (by decide) hw) ?_ )
    | (with_reducible refine logLost_kept _ _ _ (Sub.trans (by decide) hw) ?_ )
    | (with_reducible refine may_fr (hw.bit (by decide)) _ _ ?_ ?_)
    | exact Fin.isLt _
    | decide
    | split

theorem failLogEnqueue_kept (i : SiteId) (s : State) (hw : Sub 0x42000000000000000001000000000 W) (h_s : Kept W s0 s) :
    Kept W s0 (failLogEnqueue i s) := by
  unfold failLogEnqueue
  try dsimp only
  repeat' first
    | with_reducible assumption
    | intro _
    | (with_reducible refine st_modSite_kept _ _ _ (Sub.trans (by decide) hw) ?_ )
    | (with_reducible refine snapResults_kept _ _ (Sub.trans (by decide) hw) ?_ )
    | (with_reducible refine offer_kept _ _ _ (Sub.trans (by decide) hw) ?_ )
    | with_reducible apply kept_foldl
    | split

theorem execFailLogEnqueue_kept (i : SiteId) (s : State) (hw : Sub 0x42000000000000000001000000000 W) (h_s : Kept W s0 s) :
    ∃ t', execFailLogEnqueue i s = .next t' ∧ Kept W s0 t' := by
  unfold execFailLogEnqueue
  refine ⟨_, rfl, ?_⟩
  try dsimp only
  repeat' first
    | with_reducible assumption
    | intro _
    | (with_reducible refine st_fresh_kept _ (Sub.trans (by decide) hw) ?_ )
    | (with_reducible refine st_timed_kept _ _ (Sub.trans (by decide) hw) ?_ ?_ )
    | (with_reducible refine failLogEnqueue_kept _ _ (Sub.trans (by decide) hw) ?_ )

theorem writeEntry_kept (i : SiteId) (s : State) (hw : Sub 0x43000000000000000001000000000 W) (h_s : Kept W s0 s) :
    Kept W s0 (writeEntry i s) := by
  unfold writeEntry
  try dsimp only
  repeat' first
    | with_reducible assumption
    | (with_reducible refine st_p_kept _ _ _ ?_ ?_)
    | (with_reducible refine st_setSite_kept _ _ _ (Sub.trans (by decide) hw) ?_ )
    | (with_reducible refine st_modSite_kept _ _ _ (Sub.trans (by decide) hw) ?_ )
    | (with_reducible refine st_raiseSite_kept _ _ _ (Sub.trans (by decide) hw) ?_ )
    | (with_reducible refine may_fr (hw.bit (by decide)) _ _ ?_ ?_)
    | with_reducible exact same
    | with_reducible exact host_same
    | with_reducible exact flt_same
    | with_reducible apply mem_upd
    | exact .inr (hw.bit (by decide))
    | exact Fin.isLt _
    | decide
    | simp only [kept_mk]
    | with_reducible apply kept_upd
    | split

theorem failLogWrite_kept (s : State) (hw : Sub 0x43000000000000000001000000000 W) (h_s : Kept W s0 s) :
    Kept W s0 (failLogWrite s) := by
  unfold failLogWrite
  try dsimp only
  repeat' first
    | with_reducible assumption
    | (with_reducible refine writeEntry_kept _ _ (Sub.trans (by decide) hw) ?_ )
    | with_reducible exact same
    | with_reducible exact host_same
    | with_reducible exact flt_same
    | with_reducible apply mem_upd
    | exact .inr (hw.bit (by decide))
    | simp only [kept_mk]
    | with_reducible apply kept_upd
    | split

theorem execFailLogWrite_kept (s : State) (hw : Sub 0x43000000000000000001000000000 W) (h_s : Kept W s0 s) :
    ∃ t', execFailLogWrite s = .next t' ∧ Kept W s0 t' := by
  unfold execFailLogWrite
  refine ⟨_, rfl, ?_⟩
  try dsimp only
  repeat' first
    | with_reducible assumption
    | intro _
    | (with_reducible refine st_fresh_kept _ (Sub.trans (by decide) hw) ?_ )
    | (with_reducible refine st_timed_kept _ _ (Sub.trans (by decide) hw) ?_ ?_ )
    | (with_reducible refine failLogWrite_kept _ (Sub.trans (by decide) hw) ?_ )

theorem spillExtent_kept (i : SiteId) (s : State) (hw : Sub 0x2000000000000000001000000000 W) (h_s : Kept W s0 s) :
    Kept W s0 (spillExtent i s) := by
  unfold spillExtent
  try dsimp only
  repeat' first
    | with_reducible assumption
    | (with_reducible refine st_p_kept _ _ _ ?_ ?_)
    | (with_reducible refine st_setSite_kept _ _ _ (Sub.trans (by decide) hw) ?_ )
    | with_reducible apply kept_ite
    | (with_reducible refine may_fr (hw.bit (by decide)) _ _ ?_ ?_)
    | exact Fin.isLt _
    | decide

theorem execSpillExtent_kept (i : SiteId) (s : State) (hw : Sub 0x2000000000000000001000000000 W) (h_s : Kept W s0 s) :
    ∃ t', execSpillExtent i s = .next t' ∧ Kept W s0 t' := by
  unfold execSpillExtent
  refine ⟨_, rfl, ?_⟩
  try dsimp only
  repeat' first
    | with_reducible assumption
    | intro _
    | (with_reducible refine st_fresh_kept _ (Sub.trans (by decide) hw) ?_ )
    | (with_reducible refine st_timed_kept _ _ (Sub.trans (by decide) hw) ?_ ?_ )
    | (with_reducible refine spillExtent_kept _ _ (Sub.trans (by decide) hw) ?_ )

theorem captureRegion_kept (i : SiteId) (r : CapRec) (s : State)
    (hw : Sub 0x42000000000000000001000000000 W) (h_s : Kept W s0 s) :
    Kept W s0 (captureRegion i r s) := by
  unfold captureRegion
  try dsimp only
  repeat' first
    | with_reducible assumption
    | (with_reducible refine st_p_kept _ _ _ ?_ ?_)
    | (with_reducible refine st_modSite_kept _ _ _ (Sub.trans (by decide) hw) ?_ )
    | (with_reducible refine captureLost_kept _ _ (Sub.trans (by decide) hw) ?_ )
    | with_reducible apply kept_ite
    | (with_reducible refine may_fr (hw.bit (by decide)) _ _ ?_ ?_)
    | exact Fin.isLt _
    | decide

theorem completeBuf_kept (q : Nat) (s : State) (hw : Sub 0x14000000000000000000000000000 W) (h_s : Kept W s0 s) :
    Kept W s0 (completeBuf q s) := by
  unfold completeBuf
  try dsimp only
  repeat' first
    | with_reducible assumption
    | (with_reducible refine st_setQueue_kept _ _ _ (hw.bit (by decide)) ?_)
    | (with_reducible refine st_complete_kept _ _ _ _ (Sub.trans (by decide) hw) ?_ )
    | (with_reducible refine st_toHost_kept _ _ _ (Sub.trans (by decide) hw) ?_ )
    | split

theorem packInto_kept (q : Nat) (i : SiteId) (c : CapRec) (s : State)
    (hw : Sub 0x4000000000000000000000000000 W) (h_s : Kept W s0 s) :
    ∀ r, packInto q i c s = some r → Kept W s0 r := by
  intro r hr
  unfold packInto at hr
  try dsimp only at hr
  repeat' split at hr
  all_goals first
    | (cases hr; done)
    | (simp only [Option.some.injEq] at hr; subst hr; try dsimp only)
  all_goals repeat' first
    | with_reducible assumption
    | (with_reducible refine st_setQueue_kept _ _ _ (hw.bit (by decide)) ?_)

theorem packRecord_kept (i : SiteId) (c : CapRec) (s : State) (hw : Sub 0x14000000000000000000000000000 W) (h_s : Kept W s0 s) :
    ∀ r, packRecord i c s = some r → Kept W s0 r := by
  intro r hr
  unfold packRecord at hr
  split at hr
  · cases hr
  · split at hr
    · split at hr
      · split at hr
        · exact packInto_kept _ _ _ _ (Sub.trans (by decide) hw) h_s _ hr
        · exact packInto_kept _ _ _ _ (Sub.trans (by decide) hw) (completeBuf_kept _ _ (Sub.trans (by decide) hw) h_s) _ hr
      · cases hr
    · cases hr

theorem captureRecord_kept (i : SiteId) (queue : Bool) (s : State)
    (hw : Sub 0x56000000000000000001000000000 W) (h_s : Kept W s0 s) :
    Kept W s0 (captureRecord i queue s) := by
  unfold captureRecord
  try dsimp only
  repeat' first
    | with_reducible assumption
    | (with_reducible refine st_modSite_kept _ _ _ (Sub.trans (by decide) hw) ?_ )
    | (with_reducible refine captureRegion_kept _ _ _ (Sub.trans (by decide) hw) ?_ )
    | (with_reducible refine completeBuf_kept _ _ (Sub.trans (by decide) hw) ?_ )
    | (with_reducible refine packRecord_kept _ _ _ (Sub.trans (by decide) hw) ?_ _ (by assumption))
    | split

theorem execCaptureRecord_kept (i : SiteId) (queue : Bool) (s : State)
    (hw : Sub 0x56000000000000000001000000000 W) (h_s : Kept W s0 s) :
    ∃ t', execCaptureRecord i queue s = .next t' ∧ Kept W s0 t' := by
  unfold execCaptureRecord
  refine ⟨_, rfl, ?_⟩
  try dsimp only
  repeat' first
    | with_reducible assumption
    | intro _
    | (with_reducible refine st_fresh_kept _ (Sub.trans (by decide) hw) ?_ )
    | (with_reducible refine st_timed_kept _ _ (Sub.trans (by decide) hw) ?_ ?_ )
    | (with_reducible refine captureRecord_kept _ _ _ (Sub.trans (by decide) hw) ?_ )

theorem execResultBuf_kept (t : Tag) (len : Nat) (s : State) (hw : Sub 0x20014000000000000000000000000000 W) (h_s : Kept W s0 s) :
    ∃ t', execResultBuf t len s = .next t' ∧ Kept W s0 t' := by
  unfold execResultBuf
  refine st_queued_kept _ _ _ _ _ (Sub.trans (by decide) hw) (by assumption) fun s h_s => ?_
  refine ⟨_, rfl, ?_⟩
  try dsimp only
  repeat' first
    | with_reducible assumption
    | (with_reducible refine st_fresh_kept _ (Sub.trans (by decide) hw) ?_ )
    | (with_reducible refine st_setQueue_kept _ _ _ (hw.bit (by decide)) ?_)
    | (with_reducible refine st_refuse_kept _ _ _ (Sub.trans (by decide) hw) ?_ )
    | split

theorem execResultBufTimeout_kept (q : QueueId) (s : State) (hw : Sub 0x20014000000000000000000000000000 W) (h_s : Kept W s0 s) :
    ∃ t', execResultBufTimeout q s = .next t' ∧ Kept W s0 t' := by
  unfold execResultBufTimeout
  refine st_served_kept _ _ _ _ (Sub.trans (by decide) hw) (by assumption) fun s h_s => ?_
  refine ⟨_, rfl, ?_⟩
  try dsimp only
  repeat' first
    | with_reducible assumption
    | (with_reducible refine st_fresh_kept _ (Sub.trans (by decide) hw) ?_ )
    | (with_reducible refine completeBuf_kept _ _ (Sub.trans (by decide) hw) ?_ )
    | split

theorem uploadError_kept (deep : Bool) (unit : Fin 4) (s : State)
    (hw : Sub 0x40000000000000000000060000000 W) (h_s : Kept W s0 s) :
    Kept W s0 (uploadError deep unit s) := by
  unfold uploadError
  try dsimp only
  repeat' first
    | with_reducible assumption
    | (with_reducible refine st_cnt64_kept _ _ (Sub.trans (by decide) hw) ?_ ?_ )
    | (with_reducible refine st_raise_kept _ _ (Sub.trans (by decide) hw) ?_ )
    | with_reducible apply kept_ite
    | (with_reducible refine may_ds (hw.bit (by decide)) _ ?_)
    | (with_reducible refine may_hs (hw.bit (by decide)) _ ?_)
    | decide

theorem upload_kept (t : Tag) (run : Upload) (size : Nat) (data : List (List Byte)) (unit : Nat) (s : State)
    (hw : Sub 0x50000000000000000000060000000 W) (h_s : Kept W s0 s) :
    Kept W s0 (upload t run size data unit s) := by
  unfold upload
  try dsimp only
  repeat' first
    | with_reducible assumption
    | (with_reducible refine st_complete_kept _ _ _ _ (Sub.trans (by decide) hw) ?_ )
    | (with_reducible refine st_toHost_kept _ _ _ (Sub.trans (by decide) hw) ?_ )
    | (with_reducible refine uploadError_kept _ _ _ (Sub.trans (by decide) hw) ?_ )
    | split

theorem failRead_kept (t : Tag) (i : SiteId) (first count : Nat) (run : Upload) (s : State)
    (hw : Sub 0x50400000000000000000060000000 W) (h_s : Kept W s0 s) :
    Kept W s0 (failRead t i first count run s) := by
  unfold failRead
  try dsimp only
  repeat' first
    | with_reducible assumption
    | intro _
    | (with_reducible refine st_refuse_kept _ _ _ (Sub.trans (by decide) hw) ?_ )
    | (with_reducible refine leaveMover_kept _ _ (Sub.trans (by decide) hw) ?_ )
    | (with_reducible refine whenServed_kept _ _ _ _ (Sub.trans (by decide) hw) ?_ ?_ )
    | (with_reducible refine upload_kept _ _ _ _ _ _ (Sub.trans (by decide) hw) ?_ )
    | with_reducible apply kept_ite

theorem execFailRead_kept (t : Tag) (i : SiteId) (first count : Nat) (run : Upload) (s : State)
    (hw : Sub 0x20050400000000000000000060000000 W) (h_s : Kept W s0 s) :
    ∃ t', execFailRead t i first count run s = .next t' ∧ Kept W s0 t' := by
  unfold execFailRead
  refine st_queued_kept _ _ _ _ _ (Sub.trans (by decide) hw) (by assumption) fun s h_s => ?_
  refine ⟨_, rfl, ?_⟩
  try dsimp only
  repeat' first
    | with_reducible assumption
    | (with_reducible refine st_fresh_kept _ (Sub.trans (by decide) hw) ?_ )
    | (with_reducible refine failRead_kept _ _ _ _ _ _ (Sub.trans (by decide) hw) ?_ )

theorem captureRead_kept (t : Tag) (i : SiteId) (offset len : Nat) (run : Upload) (s : State)
    (hw : Sub 0x50000000000000000000060000000 W) (h_s : Kept W s0 s) :
    Kept W s0 (captureRead t i offset len run s) := by
  unfold captureRead
  try dsimp only
  repeat' first
    | with_reducible assumption
    | (with_reducible refine st_refuse_kept _ _ _ (Sub.trans (by decide) hw) ?_ )
    | (with_reducible refine upload_kept _ _ _ _ _ _ (Sub.trans (by decide) hw) ?_ )
    | with_reducible apply kept_ite

theorem execCaptureRead_kept (t : Tag) (i : SiteId) (offset len : Nat) (run : Upload) (s : State)
    (hw : Sub 0x20050000000000000000000060000000 W) (h_s : Kept W s0 s) :
    ∃ t', execCaptureRead t i offset len run s = .next t' ∧ Kept W s0 t' := by
  unfold execCaptureRead
  refine st_queued_kept _ _ _ _ _ (Sub.trans (by decide) hw) (by assumption) fun s h_s => ?_
  refine ⟨_, rfl, ?_⟩
  try dsimp only
  repeat' first
    | with_reducible assumption
    | (with_reducible refine st_fresh_kept _ (Sub.trans (by decide) hw) ?_ )
    | (with_reducible refine captureRead_kept _ _ _ _ _ _ (Sub.trans (by decide) hw) ?_ )

end Sys2Proof.Laws
end

