-- ==== Sys2Proof/Laws/KeptRidge.lean ====
section
/-! SUPPORT. One lemma per operation of Machine/Ridge.lean: within which mask of parts it keeps the rest; a command's meaning
answers a next state that is so kept. The numeral of a mask has the bits of Area. -/
namespace Sys2Proof.Laws
open Sys2Proof Sys2Proof.Machine
variable {W : Nat} {s0 : State}

theorem ridgeFollow_kept (s : State) (hw : Sub 0x0 W) (h_s : Kept W s0 s) :
    Kept W s0 (ridgeFollow s) := by
  unfold ridgeFollow
  try dsimp only
  repeat' first
    | with_reducible assumption
    | (with_reducible refine st_emit_kept _ _ (Sub.trans (by decide) hw) ?_ )
    | with_reducible apply kept_ite

theorem ridgeEdge_kept (ph : Nat) (s : State) (hw : Sub 0x40000000000000000000000000000 W) (h_s : Kept W s0 s) :
    Kept W s0 (ridgeEdge ph s) := by
  unfold ridgeEdge
  try dsimp only
  repeat' first
    | with_reducible assumption
    | (with_reducible refine st_raise_kept _ _ (Sub.trans (by decide) hw) ?_ )
    | (with_reducible refine ridgeFollow_kept _ (Sub.trans (by decide) hw) ?_ )
    | with_reducible apply kept_ite

theorem ridgeStart_kept (i : SiteId) (s : State) (hw : Sub 0x2000000000000000000000000000 W) (h_s : Kept W s0 s) :
    Kept W s0 (ridgeStart i s) := by
  unfold ridgeStart
  try dsimp only
  repeat' first
    | with_reducible assumption
    | (with_reducible refine st_modSite_kept _ _ _ (Sub.trans (by decide) hw) ?_ )

theorem ridgeRun_kept (i : SiteId) (s : State) (hw : Sub 0xbe2000000000000030489080410080 W) (h_s : Kept W s0 s) :
    Kept W s0 (ridgeRun i s) := by
  unfold ridgeRun
  try dsimp only
  repeat' first
    | with_reducible assumption
    | (with_reducible refine runSite_kept _ _ (Sub.trans (by decide) hw) ?_ )
    | split

theorem ridgeRuns_kept (s : State) (hw : Sub 0xbe2000000000000030489080410080 W) (h_s : Kept W s0 s) :
    Kept W s0 (ridgeRuns s) := by
  unfold ridgeRuns
  try dsimp only
  repeat' first
    | with_reducible assumption
    | intro _
    | (with_reducible refine ridgeRun_kept _ _ (Sub.trans (by decide) hw) ?_ )
    | with_reducible apply kept_foldl

theorem ridgeEval_kept (s : State) (hw : Sub 0x2000000000000000000000002000 W) (h_s : Kept W s0 s) :
    Kept W s0 (ridgeEval s) := by
  unfold ridgeEval
  try dsimp only
  repeat' first
    | with_reducible assumption
    | intro _
    | (with_reducible refine st_p_kept _ _ _ ?_ ?_)
    | (with_reducible refine st_cnt32_kept _ _ (Sub.trans (by decide) hw) ?_ ?_ )
    | (with_reducible refine ridgeStart_kept _ _ (Sub.trans (by decide) hw) ?_ )
    | with_reducible apply kept_ite
    | with_reducible apply kept_foldl
    | (with_reducible refine may_sg (hw.bit (by decide)) _ ?_)
    | decide

theorem ridgeRegister_kept (s : State) (hw : Sub 0x47fea1020000051c08b0099000012504 W) (h_s : Kept W s0 s) :
    Kept W s0 (ridgeRegister s) := by
  unfold ridgeRegister
  try dsimp only
  repeat' first
    | with_reducible assumption
    | (with_reducible refine st_cnt64_kept _ _ (Sub.trans (by decide) hw) ?_ ?_ )
    | (with_reducible refine ridgeEvents_kept _ (Sub.trans (by decide) hw) ?_ )
    | (with_reducible refine ridgeApply_kept _ (Sub.trans (by decide) hw) ?_ )
    | (with_reducible refine ridgeEval_kept _ (Sub.trans (by decide) hw) ?_ )
    | with_reducible exact same
    | with_reducible exact mem_same
    | with_reducible exact host_same
    | with_reducible exact flt_same
    | exact .inr (hw.bit (by decide))
    | decide
    | simp only [kept_mk]
    | with_reducible apply kept_upd

theorem ridgeDue_kept (s : State) (hw : Sub 0x47fea1020000051c08b0099000012504 W) (h_s : Kept W s0 s) :
    Kept W s0 (ridgeDue s) := by
  unfold ridgeDue
  try dsimp only
  repeat' first
    | with_reducible assumption
    | (with_reducible refine ridgeRegister_kept _ (Sub.trans (by decide) hw) ?_ )
    | with_reducible exact same
    | with_reducible exact mem_same
    | with_reducible exact host_same
    | with_reducible exact flt_same
    | exact .inr (hw.bit (by decide))
    | simp only [kept_mk]
    | with_reducible apply kept_upd
    | split

theorem ridgeArrives_kept (ph : Nat) (s : State) (hw : Sub 0x47fea1020000051c08b0099000012504 W) (h_s : Kept W s0 s) :
    Kept W s0 (ridgeArrives ph s) := by
  unfold ridgeArrives
  try dsimp only
  repeat' first
    | with_reducible assumption
    | (with_reducible refine st_advance_kept _ (Sub.trans (by decide) hw) ?_ )
    | (with_reducible refine ridgeEdge_kept _ _ (Sub.trans (by decide) hw) ?_ )
    | (with_reducible refine ridgeDue_kept _ (Sub.trans (by decide) hw) ?_ )
    | with_reducible exact same
    | with_reducible exact mem_same
    | with_reducible exact host_same
    | with_reducible exact flt_same
    | exact .inr (hw.bit (by decide))
    | simp only [kept_mk]
    | with_reducible apply kept_upd

theorem execRidgePulse_kept (ph : Fin 1250000) (s : State) (hw : Sub 0x47fea1020000051c08b0099000012504 W) (h_s : Kept W s0 s) :
    ∃ t', execRidgePulse ph s = .next t' ∧ Kept W s0 t' := by
  unfold execRidgePulse
  refine ⟨_, rfl, ?_⟩
  try dsimp only
  repeat' first
    | with_reducible assumption
    | (with_reducible refine st_fresh_kept _ (Sub.trans (by decide) hw) ?_ )
    | (with_reducible refine ridgeFollow_kept _ (Sub.trans (by decide) hw) ?_ )
    | (with_reducible refine ridgeArrives_kept _ _ (Sub.trans (by decide) hw) ?_ )
    | with_reducible apply kept_ite

theorem execRidgeIgnored_kept (ph : Fin 1250000) (s : State) (hw : Sub 0x40000000001000000000000000000 W) (h_s : Kept W s0 s) :
    ∃ t', execRidgeIgnored ph s = .next t' ∧ Kept W s0 t' := by
  unfold execRidgeIgnored
  refine ⟨_, rfl, ?_⟩
  try dsimp only
  repeat' first
    | with_reducible assumption
    | (with_reducible refine st_sat32_kept _ _ (Sub.trans (by decide) hw) ?_ ?_ )
    | (with_reducible refine st_fresh_kept _ (Sub.trans (by decide) hw) ?_ )
    | (with_reducible refine ridgeEdge_kept _ _ (Sub.trans (by decide) hw) ?_ )
    | with_reducible apply kept_ite
    | (with_reducible refine may_rd (hw.bit (by decide)) _ ?_)
    | decide

end Sys2Proof.Laws
end

