-- ==== Sys2Proof/Laws/KeptVectors.lean ====
section
/-! SUPPORT. One lemma per operation of Machine/Vectors.lean: within which mask of parts it keeps the rest; a command's meaning
answers a next state that is so kept. The numeral of a mask has the bits of Area. -/
namespace Sys2Proof.Laws
open Sys2Proof Sys2Proof.Machine
variable {W : Nat} {s0 : State}

theorem deliver_kept (i : SiteId) (e idx : Nat) (s : State) (hw : Sub 0x2000000000000000000000000000 W) (h_s : Kept W s0 s) :
    Kept W s0 (deliver i e idx s) := by
  unfold deliver
  try dsimp only
  repeat' first
    | with_reducible assumption
    | (with_reducible refine st_setSite_kept _ _ _ (Sub.trans (by decide) hw) ?_ )

theorem markHead_kept (i : SiteId) (e idx : Nat) (s : State) (hw : Sub 0x2000000000000000000000000000 W) (h_s : Kept W s0 s) :
    Kept W s0 (markHead i e idx s) := by
  unfold markHead
  try dsimp only
  repeat' first
    | with_reducible assumption
    | (with_reducible refine st_setSite_kept _ _ _ (Sub.trans (by decide) hw) ?_ )
    | with_reducible apply kept_ite

theorem strmError_kept (n : Nat) (s : State) (hw : Sub 0x200000000 W) (_h_s : Kept W s0 s) :
    Kept W s0 (strmError n s) := by
  unfold strmError
  try dsimp only
  repeat' first
    | (with_reducible refine st_p_kept _ _ _ ?_ ?_)
    | (with_reducible refine may_sm (hw.bit (by decide)) _ _ ?_ ?_)
    | omega

theorem yealmFetch_kept (i : SiteId) (e : Fin 64) (idx : Nat) (beyond : Bool) (c : FetchCheck) (s : State)
    (hw : Sub 0xbf24000000000000304882a0410080 W) (h_s : Kept W s0 s) :
    Kept W s0 (yealmFetch i e idx beyond c s) := by
  unfold yealmFetch
  try dsimp only
  repeat' first
    | with_reducible assumption
    | (with_reducible refine st_p_kept _ _ _ ?_ ?_)
    | (with_reducible refine st_cnt32_kept _ _ (Sub.trans (by decide) hw) ?_ ?_ )
    | (with_reducible refine st_cnt64_kept _ _ (Sub.trans (by decide) hw) ?_ ?_ )
    | (with_reducible refine failSeg_kept _ _ (Sub.trans (by decide) hw) ?_ )
    | (with_reducible refine parkRaise_kept _ _ _ _ (Sub.trans (by decide) hw) ?_ )
    | (with_reducible refine deliver_kept _ _ _ _ (Sub.trans (by decide) hw) ?_ )
    | (with_reducible refine strmError_kept _ _ (Sub.trans (by decide) hw) ?_ )
    | (with_reducible refine may_hs (hw.bit (by decide)) _ ?_)
    | (with_reducible refine may_md (hw.bit (by decide)) _ _ ?_ ?_)
    | (with_reducible refine may_sm (hw.bit (by decide)) _ _ ?_ ?_)
    | exact Fin.isLt _
    | decide
    | split

theorem execYealmFetch_kept (i : SiteId) (e : Fin 64) (idx : Nat) (beyond : Bool) (c : FetchCheck) (s : State)
    (hw : Sub 0xbf24000000000000304882a0410080 W) (h_s : Kept W s0 s) :
    ∃ t', execYealmFetch i e idx beyond c s = .next t' ∧ Kept W s0 t' := by
  unfold execYealmFetch
  refine ⟨_, rfl, ?_⟩
  try dsimp only
  repeat' first
    | with_reducible assumption
    | intro _
    | (with_reducible refine st_fresh_kept _ (Sub.trans (by decide) hw) ?_ )
    | (with_reducible refine st_timed_kept _ _ (Sub.trans (by decide) hw) ?_ ?_ )
    | (with_reducible refine yealmFetch_kept _ _ _ _ _ _ (Sub.trans (by decide) hw) ?_ )

theorem landStaged_kept (i : SiteId) (e n : Nat) (s : State) (hw : Sub 0x2000000000000000000000000000 W) (h_s : Kept W s0 s) :
    Kept W s0 (landStaged i e n s) := by
  unfold landStaged
  try dsimp only
  repeat' first
    | with_reducible assumption
    | (with_reducible refine st_modSite_kept _ _ _ (Sub.trans (by decide) hw) ?_ )
    | with_reducible apply kept_ite

theorem moverRefill_kept (i : SiteId) (e : Fin 64) (n : Nat) (c : MoverCheck) (s : State)
    (hw : Sub 0xbf34000000000000304880c0410080 W) (h_s : Kept W s0 s) :
    Kept W s0 (moverRefill i e n c s) := by
  unfold moverRefill
  try dsimp only
  repeat' first
    | with_reducible assumption
    | (with_reducible refine moverCe_kept _ _ _ _ (Sub.trans (by decide) hw) ?_ )
    | (with_reducible refine moverUe_kept _ _ _ _ _ (Sub.trans (by decide) hw) ?_ )
    | (with_reducible refine parkSite_kept _ _ _ (Sub.trans (by decide) hw) ?_ )
    | (with_reducible refine landStaged_kept _ _ _ _ (Sub.trans (by decide) hw) ?_ )
    | split

theorem execMoverRefill_kept (i : SiteId) (e : Fin 64) (n : Nat) (c : MoverCheck) (s : State)
    (hw : Sub 0xbf34000000000000304880c0410080 W) (h_s : Kept W s0 s) :
    ∃ t', execMoverRefill i e n c s = .next t' ∧ Kept W s0 t' := by
  unfold execMoverRefill
  refine ⟨_, rfl, ?_⟩
  try dsimp only
  repeat' first
    | with_reducible assumption
    | intro _
    | (with_reducible refine st_fresh_kept _ (Sub.trans (by decide) hw) ?_ )
    | (with_reducible refine st_timed_kept _ _ (Sub.trans (by decide) hw) ?_ ?_ )
    | (with_reducible refine moverRefill_kept _ _ _ _ _ (Sub.trans (by decide) hw) ?_ )

theorem patrolRead_kept (stack : Fin 4) (f : PatrolFind) (sweepEnd : Bool) (s : State)
    (hw : Sub 0x51400000000000000000020000000 W) (h_s : Kept W s0 s) :
    Kept W s0 (patrolRead stack f sweepEnd s) := by
  unfold patrolRead
  try dsimp only
  repeat' first
    | with_reducible assumption
    | (with_reducible refine st_cnt64_kept _ _ (Sub.trans (by decide) hw) ?_ ?_ )
    | (with_reducible refine st_raise_kept _ _ (Sub.trans (by decide) hw) ?_ )
    | (with_reducible refine failSeg_kept _ _ (Sub.trans (by decide) hw) ?_ )
    | (with_reducible refine correctable_kept _ _ (Sub.trans (by decide) hw) ?_ )
    | (with_reducible refine may_hs (hw.bit (by decide)) _ ?_)
    | decide
    | split

theorem execPatrolRead_kept (stack : Fin 4) (f : PatrolFind) (sweepEnd : Bool) (s : State)
    (hw : Sub 0x51400000000000000000020000000 W) (h_s : Kept W s0 s) :
    ∃ t', execPatrolRead stack f sweepEnd s = .next t' ∧ Kept W s0 t' := by
  unfold execPatrolRead
  refine ⟨_, rfl, ?_⟩
  try dsimp only
  repeat' first
    | with_reducible assumption
    | intro _
    | (with_reducible refine st_fresh_kept _ (Sub.trans (by decide) hw) ?_ )
    | (with_reducible refine st_timed_kept _ _ (Sub.trans (by decide) hw) ?_ ?_ )
    | (with_reducible refine patrolRead_kept _ _ _ _ (Sub.trans (by decide) hw) ?_ )

theorem assemble_kept (i : SiteId) (st : Stall) (s : State) (hw : Sub 0x42000000000000000000000000080 W) (h_s : Kept W s0 s) :
    Kept W s0 (assemble i st s) := by
  unfold assemble
  try dsimp only
  repeat' first
    | with_reducible assumption
    | (with_reducible refine st_setSite_kept _ _ _ (Sub.trans (by decide) hw) ?_ )
    | (with_reducible refine st_event_kept _ _ _ _ _ (Sub.trans (by decide) hw) ?_ )
    | (with_reducible refine closePad_kept _ _ _ (Sub.trans (by decide) hw) ?_ )
    | split

theorem padFrame_kept (i : SiteId) (s : State) (hw : Sub 0x2000000000000000000280000000 W) (_h_s : Kept W s0 s) :
    Kept W s0 (padFrame i s) := by
  unfold padFrame
  try dsimp only
  repeat' first
    | (with_reducible refine st_cnt64_kept _ _ (Sub.trans (by decide) hw) ?_ ?_ )
    | (with_reducible refine st_setSite_kept _ _ _ (Sub.trans (by decide) hw) ?_ )
    | (with_reducible refine may_md (hw.bit (by decide)) _ _ ?_ ?_)
    | (with_reducible refine may_sm (hw.bit (by decide)) _ _ ?_ ?_)
    | omega
    | split

theorem underRun_kept (i : SiteId) (s : State) (hw : Sub 0xbe2000000000000030488280410080 W) (h_s : Kept W s0 s) :
    Kept W s0 (underRun i s) := by
  unfold underRun
  try dsimp only
  repeat' first
    | with_reducible assumption
    | (with_reducible refine st_p_kept _ _ _ ?_ ?_)
    | (with_reducible refine st_cnt32_kept _ _ (Sub.trans (by decide) hw) ?_ ?_ )
    | (with_reducible refine parkRaise_kept _ _ _ _ (Sub.trans (by decide) hw) ?_ )
    | (with_reducible refine strmError_kept _ _ (Sub.trans (by decide) hw) ?_ )
    | (with_reducible refine padFrame_kept _ _ (Sub.trans (by decide) hw) ?_ )
    | (with_reducible refine may_md (hw.bit (by decide)) _ _ ?_ ?_)
    | (with_reducible refine may_sm (hw.bit (by decide)) _ _ ?_ ?_)
    | exact Fin.isLt _
    | decide
    | split

theorem execUnderRun_kept (i : SiteId) (s : State) (hw : Sub 0xbe2000000000000030488280410080 W) (h_s : Kept W s0 s) :
    ∃ t', execUnderRun i s = .next t' ∧ Kept W s0 t' := by
  unfold execUnderRun
  refine ⟨_, rfl, ?_⟩
  try dsimp only
  repeat' first
    | with_reducible assumption
    | intro _
    | (with_reducible refine st_fresh_kept _ (Sub.trans (by decide) hw) ?_ )
    | (with_reducible refine st_timed_kept _ _ (Sub.trans (by decide) hw) ?_ ?_ )
    | (with_reducible refine underRun_kept _ _ (Sub.trans (by decide) hw) ?_ )

theorem execPadFrame_kept (i : SiteId) (s : State) (hw : Sub 0x2000000000000000000280000000 W) (h_s : Kept W s0 s) :
    ∃ t', execPadFrame i s = .next t' ∧ Kept W s0 t' := by
  unfold execPadFrame
  refine ⟨_, rfl, ?_⟩
  try dsimp only
  repeat' first
    | with_reducible assumption
    | intro _
    | (with_reducible refine st_fresh_kept _ (Sub.trans (by decide) hw) ?_ )
    | (with_reducible refine st_timed_kept _ _ (Sub.trans (by decide) hw) ?_ ?_ )
    | (with_reducible refine padFrame_kept _ _ (Sub.trans (by decide) hw) ?_ )
    | with_reducible apply kept_ite

end Sys2Proof.Laws
end

