-- ==== Sys2Proof/Laws/KeptSequencer.lean ====
section
/-! SUPPORT. One lemma per operation of Machine/Sequencer.lean: within which mask of parts it keeps the rest; a command's meaning
answers a next state that is so kept. The numeral of a mask has the bits of Area. -/
namespace Sys2Proof.Laws
open Sys2Proof Sys2Proof.Machine
variable {W : Nat} {s0 : State}

theorem may_excLc (h : W.testBit Area.lc = true) (e : Exec) (i : SiteId) : May W (e.lc i) := by
  refine may_lc h _ _ i.isLt ?_
  have : MW.lcsel e.w < 16 := by unfold MW.lcsel MW.f; exact Nat.mod_lt _ (by decide)
  omega

theorem mark_lt (e : Exec) : 0x11 + MW.lcsel e.w < 256 := by
  have : MW.lcsel e.w < 16 := by unfold MW.lcsel MW.f; exact Nat.mod_lt _ (by decide)
  omega

theorem opCounter_kept (s : State) (i : SiteId) (e : Exec) (hw : Sub 0x800000 W) (h_s : Kept W s0 s) :
    Kept W s0 (opCounter s i e) := by
  unfold opCounter
  try dsimp only
  repeat' first
    | with_reducible assumption
    | (with_reducible refine st_p_kept _ _ _ ?_ ?_)
    | with_reducible exact may_excLc (hw.bit (by decide)) _ _
    | with_reducible apply kept_ite

theorem lcopAct_kept (s : State) (i : SiteId) (e : Exec) (hw : Sub 0x800000 W) (h_s : Kept W s0 s) :
    Kept W s0 (lcopAct s i e) := by
  unfold lcopAct
  try dsimp only
  repeat' first
    | with_reducible assumption
    | (with_reducible refine st_p_kept _ _ _ ?_ ?_)
    | with_reducible exact may_excLc (hw.bit (by decide)) _ _
    | split

theorem markAct_kept (s : State) (i : SiteId) (e : Exec) (hw : Sub 0x2000000000000000000000800000 W) (h_s : Kept W s0 s) :
    Kept W s0 (markAct s i e) := by
  unfold markAct
  try dsimp only
  repeat' first
    | with_reducible assumption
    | (with_reducible refine st_p_kept _ _ _ ?_ ?_)
    | (with_reducible refine markHead_kept _ _ _ _ (Sub.trans (by decide) hw) ?_ )
    | (with_reducible refine may_lc (hw.bit (by decide)) _ _ ?_ ?_)
    | exact mark_lt _
    | with_reducible apply kept_ite
    | (with_reducible refine may_lc (hw.bit (by decide)) _ _ ?_ ?_)
    | exact Fin.isLt _

theorem evtclrAct_kept (s : State) (i : SiteId) (e : Exec) (hw : Sub 0x10000 W) (h_s : Kept W s0 s) :
    Kept W s0 (evtclrAct s i e) := by
  unfold evtclrAct
  try dsimp only
  repeat' first
    | with_reducible assumption
    | (with_reducible refine st_p_kept _ _ _ ?_ ?_)
    | with_reducible apply kept_ite
    | (with_reducible refine may_st (hw.bit (by decide)) _ _ ?_ ?_)
    | exact Fin.isLt _
    | decide

theorem seqResource_kept (i : SiteId) (s : State) (hw : Sub 0x40000000000000000000000400000 W) (h_s : Kept W s0 s) :
    Kept W s0 (seqResource i s) := by
  unfold seqResource
  try dsimp only
  repeat' first
    | with_reducible assumption
    | (with_reducible refine st_p_kept _ _ _ ?_ ?_)
    | (with_reducible refine st_raiseSite_kept _ _ _ (Sub.trans (by decide) hw) ?_ )
    | (with_reducible refine may_sr (hw.bit (by decide)) _ _ ?_ ?_)
    | exact Fin.isLt _
    | decide

theorem unitAct_kept (i : SiteId) (tmu mine : Bool) (code unit imm g : Nat) (s : State)
    (hw : Sub 0x10040000000000000000000000400000 W) (h_s : Kept W s0 s) :
    Kept W s0 (unitAct i tmu mine code unit imm g s) := by
  unfold unitAct
  try dsimp only
  repeat' first
    | with_reducible assumption
    | (with_reducible refine seqResource_kept _ _ (Sub.trans (by decide) hw) ?_ )
    | with_reducible apply kept_ite
    | with_reducible exact same
    | with_reducible exact mem_same
    | with_reducible exact host_same
    | with_reducible exact flt_same
    | exact .inr (hw.bit (by decide))
    | simp only [kept_mk]
    | with_reducible apply kept_upd

theorem sideAct_kept (s : State) (i : SiteId) (e : Exec) (hw : Sub 0x10040000000000000000000000400000 W) (h_s : Kept W s0 s) :
    Kept W s0 (sideAct s i e) := by
  unfold sideAct
  try dsimp only
  repeat' first
    | with_reducible assumption
    | (with_reducible refine seqResource_kept _ _ (Sub.trans (by decide) hw) ?_ )
    | (with_reducible refine unitAct_kept _ _ _ _ _ _ _ _ (Sub.trans (by decide) hw) ?_ )
    | with_reducible apply kept_ite

theorem countExec_kept (s : State) (i : SiteId) (e : Exec) (hw : Sub 0x400000 W) (h_s : Kept W s0 s) :
    Kept W s0 (countExec s i e) := by
  unfold countExec
  try dsimp only
  repeat' first
    | with_reducible assumption
    | (with_reducible refine st_p_kept _ _ _ ?_ ?_)
    | (with_reducible refine st_cnt64_kept _ _ (Sub.trans (by decide) hw) ?_ ?_ )
    | with_reducible apply kept_ite
    | (with_reducible refine may_sr (hw.bit (by decide)) _ _ ?_ ?_)
    | exact Fin.isLt _
    | decide

theorem seqState_kept (s : State) (i : SiteId) (e : Exec) (hw : Sub 0x2000000000000000000000c10000 W) (h_s : Kept W s0 s) :
    Kept W s0 (seqState s i e) := by
  unfold seqState
  try dsimp only
  repeat' first
    | with_reducible assumption
    | (with_reducible refine st_p_kept _ _ _ ?_ ?_)
    | (with_reducible refine st_cnt64_kept _ _ (Sub.trans (by decide) hw) ?_ ?_ )
    | (with_reducible refine st_modSite_kept _ _ _ (Sub.trans (by decide) hw) ?_ )
    | (with_reducible refine opCounter_kept _ _ _ (Sub.trans (by decide) hw) ?_ )
    | (with_reducible refine lcopAct_kept _ _ _ (Sub.trans (by decide) hw) ?_ )
    | (with_reducible refine markAct_kept _ _ _ (Sub.trans (by decide) hw) ?_ )
    | (with_reducible refine evtclrAct_kept _ _ _ (Sub.trans (by decide) hw) ?_ )
    | (with_reducible refine may_sr (hw.bit (by decide)) _ _ ?_ ?_)
    | with_reducible exact same
    | with_reducible exact mem_same
    | with_reducible exact host_same
    | with_reducible exact flt_same
    | exact Fin.isLt _
    | decide
    | simp only [kept_mk]
    | with_reducible apply kept_upd

theorem endAt_kept (i : SiteId) (g cause : Nat) (s : State) (hw : Sub 0x2000000000000000000000000000 W) (h_s : Kept W s0 s) :
    Kept W s0 (endAt i g cause s) := by
  unfold endAt
  try dsimp only
  repeat' first
    | with_reducible assumption
    | (with_reducible refine st_modSite_kept _ _ _ (Sub.trans (by decide) hw) ?_ )

theorem wordEnds_kept (i : SiteId) (e : Exec) (s : State) (hw : Sub 0x42000000000000000000000000000 W) (h_s : Kept W s0 s) :
    Kept W s0 (wordEnds i e s) := by
  unfold wordEnds
  try dsimp only
  repeat' first
    | with_reducible assumption
    | (with_reducible refine st_modSite_kept _ _ _ (Sub.trans (by decide) hw) ?_ )
    | (with_reducible refine st_raiseSite_kept _ _ _ (Sub.trans (by decide) hw) ?_ )
    | (with_reducible refine endAt_kept _ _ _ _ (Sub.trans (by decide) hw) ?_ )
    | split

theorem postCut_kept (i : SiteId) (s : State) (hw : Sub 0x42000000000000000000000000080 W) (h_s : Kept W s0 s) :
    Kept W s0 (postCut i s) := by
  unfold postCut
  try dsimp only
  repeat' first
    | with_reducible assumption
    | (with_reducible refine st_advance_kept _ (Sub.trans (by decide) hw) ?_ )
    | (with_reducible refine st_event_kept _ _ _ _ _ (Sub.trans (by decide) hw) ?_ )
    | split

theorem abortNow_kept (i : SiteId) (s : State) (hw : Sub 0x42000000000000000000000000080 W) (h_s : Kept W s0 s) :
    Kept W s0 (abortNow i s) := by
  unfold abortNow
  try dsimp only
  repeat' first
    | with_reducible assumption
    | (with_reducible refine st_modSite_kept _ _ _ (Sub.trans (by decide) hw) ?_ )
    | (with_reducible refine postCut_kept _ _ (Sub.trans (by decide) hw) ?_ )

theorem abortCut_kept (i : SiteId) (s : State) (hw : Sub 0x2000000000000000000000000000 W) (h_s : Kept W s0 s) :
    Kept W s0 (abortCut i s) := by
  unfold abortCut
  try dsimp only
  repeat' first
    | with_reducible assumption
    | (with_reducible refine st_setSite_kept _ _ _ (Sub.trans (by decide) hw) ?_ )
    | (with_reducible refine slathCut_kept _ _ _ _ (Sub.trans (by decide) hw) ?_ )
    | (with_reducible refine endAt_kept _ _ _ _ (Sub.trans (by decide) hw) ?_ )
    | split

theorem abortCuts_kept (s : State) (hw : Sub 0x2000000000000000000000000000 W) (h_s : Kept W s0 s) :
    Kept W s0 (abortCuts s) := by
  unfold abortCuts
  try dsimp only
  repeat' first
    | with_reducible assumption
    | intro _
    | (with_reducible refine abortCut_kept _ _ (Sub.trans (by decide) hw) ?_ )
    | with_reducible apply kept_foldl

theorem interrupts_kept (i : SiteId) (e : Exec) (s : State) (hw : Sub 0x42000000000000000000000400080 W) (h_s : Kept W s0 s) :
    Kept W s0 (interrupts i e s) := by
  unfold interrupts
  try dsimp only
  repeat' first
    | with_reducible assumption
    | (with_reducible refine st_p_kept _ _ _ ?_ ?_)
    | (with_reducible refine st_modSite_kept _ _ _ (Sub.trans (by decide) hw) ?_ )
    | (with_reducible refine endAt_kept _ _ _ _ (Sub.trans (by decide) hw) ?_ )
    | (with_reducible refine abortNow_kept _ _ (Sub.trans (by decide) hw) ?_ )
    | with_reducible apply kept_ite
    | (with_reducible refine may_sr (hw.bit (by decide)) _ _ ?_ ?_)
    | exact Fin.isLt _
    | decide

theorem eavePoint_kept (i : SiteId) (g : Nat) (s : State) (hw : Sub 0x47fea1020000001c08b0099000010504 W) (h_s : Kept W s0 s) :
    Kept W s0 (eavePoint i g s) := by
  unfold eavePoint
  try dsimp only
  repeat' first
    | with_reducible assumption
    | (with_reducible refine st_modSite_kept _ _ _ (Sub.trans (by decide) hw) ?_ )
    | (with_reducible refine eaveApply_kept _ _ (Sub.trans (by decide) hw) ?_ )

theorem issue_kept (i : SiteId) (st : Stall) (s : State) (hw : Sub 0x42000000000000000000000000080 W) (h_s : Kept W s0 s) :
    Kept W s0 (issue i st s) := by
  unfold issue
  try dsimp only
  repeat' first
    | with_reducible assumption
    | (with_reducible refine st_modSite_kept _ _ _ (Sub.trans (by decide) hw) ?_ )
    | (with_reducible refine assemble_kept _ _ _ (Sub.trans (by decide) hw) ?_ )
    | with_reducible apply kept_ite

theorem eaveOf_kept (i : SiteId) (st : Stall) (s : State) (hw : Sub 0x47fea1020000001c08b0099000010504 W) (h_s : Kept W s0 s) :
    Kept W s0 (eaveOf i st s) := by
  unfold eaveOf
  try dsimp only
  repeat' first
    | with_reducible assumption
    | (with_reducible refine eavePoint_kept _ _ _ (Sub.trans (by decide) hw) ?_ )
    | with_reducible apply kept_ite

theorem wordActs_kept (i : SiteId) (e : Exec) (s : State) (hw : Sub 0x57fea1020000001c08b0499280c10584 W) (h_s : Kept W s0 s) :
    Kept W s0 (wordActs i e s) := by
  unfold wordActs
  try dsimp only
  repeat' first
    | with_reducible assumption
    | (with_reducible refine parkRaise_kept _ _ _ _ (Sub.trans (by decide) hw) ?_ )
    | (with_reducible refine strmError_kept _ _ (Sub.trans (by decide) hw) ?_ )
    | (with_reducible refine sideAct_kept _ _ _ (Sub.trans (by decide) hw) ?_ )
    | (with_reducible refine countExec_kept _ _ _ (Sub.trans (by decide) hw) ?_ )
    | (with_reducible refine seqState_kept _ _ _ (Sub.trans (by decide) hw) ?_ )
    | (with_reducible refine wordEnds_kept _ _ _ (Sub.trans (by decide) hw) ?_ )
    | (with_reducible refine interrupts_kept _ _ _ (Sub.trans (by decide) hw) ?_ )
    | (with_reducible refine issue_kept _ _ _ (Sub.trans (by decide) hw) ?_ )
    | (with_reducible refine eaveOf_kept _ _ _ (Sub.trans (by decide) hw) ?_ )
    | split

theorem fetchEcc_kept (i : SiteId) (c : Ecc) (s : State) (hw : Sub 0xbe2000000000000030488080430080 W) (h_s : Kept W s0 s) :
    Kept W s0 (fetchEcc i c s) := by
  unfold fetchEcc
  try dsimp only
  repeat' first
    | with_reducible assumption
    | (with_reducible refine st_cnt64_kept _ _ (Sub.trans (by decide) hw) ?_ ?_ )
    | (with_reducible refine st_raise_kept _ _ (Sub.trans (by decide) hw) ?_ )
    | (with_reducible refine parkRaise_kept _ _ _ _ (Sub.trans (by decide) hw) ?_ )
    | (with_reducible refine may_cs (hw.bit (by decide)) _ ?_)
    | decide
    | split

theorem seqRow_kept (i : SiteId) (opc : Nat) (c : Ecc) (s : State)
    (hw : Sub 0x57fea1020000001c08b0499280c30584 W) (h_s : Kept W s0 s) :
    Kept W s0 (seqRow i opc c s) := by
  unfold seqRow
  try dsimp only
  repeat' first
    | with_reducible assumption
    | (with_reducible refine parkRaise_kept _ _ _ _ (Sub.trans (by decide) hw) ?_ )
    | (with_reducible refine wordActs_kept _ _ _ (Sub.trans (by decide) hw) ?_ )
    | (with_reducible refine fetchEcc_kept _ _ _ (Sub.trans (by decide) hw) ?_ )
    | split

theorem execCont_kept (i : SiteId) (c : Ecc) (s : State) (hw : Sub 0x57fea1020000001c08b0499280c30584 W) (h_s : Kept W s0 s) :
    ∃ t', execCont i c s = .next t' ∧ Kept W s0 t' := by
  unfold execCont
  refine ⟨_, rfl, ?_⟩
  try dsimp only
  repeat' first
    | with_reducible assumption
    | (with_reducible refine st_fresh_kept _ (Sub.trans (by decide) hw) ?_ )
    | (with_reducible refine seqRow_kept _ _ _ _ (Sub.trans (by decide) hw) ?_ )

theorem execJmp_kept (i : SiteId) (c : Ecc) (s : State) (hw : Sub 0x57fea1020000001c08b0499280c30584 W) (h_s : Kept W s0 s) :
    ∃ t', execJmp i c s = .next t' ∧ Kept W s0 t' := by
  unfold execJmp
  refine ⟨_, rfl, ?_⟩
  try dsimp only
  repeat' first
    | with_reducible assumption
    | (with_reducible refine st_fresh_kept _ (Sub.trans (by decide) hw) ?_ )
    | (with_reducible refine seqRow_kept _ _ _ _ (Sub.trans (by decide) hw) ?_ )

theorem execCall_kept (i : SiteId) (c : Ecc) (s : State) (hw : Sub 0x57fea1020000001c08b0499280c30584 W) (h_s : Kept W s0 s) :
    ∃ t', execCall i c s = .next t' ∧ Kept W s0 t' := by
  unfold execCall
  refine ⟨_, rfl, ?_⟩
  try dsimp only
  repeat' first
    | with_reducible assumption
    | (with_reducible refine st_fresh_kept _ (Sub.trans (by decide) hw) ?_ )
    | (with_reducible refine seqRow_kept _ _ _ _ (Sub.trans (by decide) hw) ?_ )

theorem execRet_kept (i : SiteId) (c : Ecc) (s : State) (hw : Sub 0x57fea1020000001c08b0499280c30584 W) (h_s : Kept W s0 s) :
    ∃ t', execRet i c s = .next t' ∧ Kept W s0 t' := by
  unfold execRet
  refine ⟨_, rfl, ?_⟩
  try dsimp only
  repeat' first
    | with_reducible assumption
    | (with_reducible refine st_fresh_kept _ (Sub.trans (by decide) hw) ?_ )
    | (with_reducible refine seqRow_kept _ _ _ _ (Sub.trans (by decide) hw) ?_ )

theorem execLoop_kept (i : SiteId) (c : Ecc) (s : State) (hw : Sub 0x57fea1020000001c08b0499280c30584 W) (h_s : Kept W s0 s) :
    ∃ t', execLoop i c s = .next t' ∧ Kept W s0 t' := by
  unfold execLoop
  refine ⟨_, rfl, ?_⟩
  try dsimp only
  repeat' first
    | with_reducible assumption
    | (with_reducible refine st_fresh_kept _ (Sub.trans (by decide) hw) ?_ )
    | (with_reducible refine seqRow_kept _ _ _ _ (Sub.trans (by decide) hw) ?_ )

theorem execWait_kept (i : SiteId) (c : Ecc) (s : State) (hw : Sub 0x57fea1020000001c08b0499280c30584 W) (h_s : Kept W s0 s) :
    ∃ t', execWait i c s = .next t' ∧ Kept W s0 t' := by
  unfold execWait
  refine ⟨_, rfl, ?_⟩
  try dsimp only
  repeat' first
    | with_reducible assumption
    | (with_reducible refine st_fresh_kept _ (Sub.trans (by decide) hw) ?_ )
    | (with_reducible refine seqRow_kept _ _ _ _ (Sub.trans (by decide) hw) ?_ )

theorem execWaitt_kept (i : SiteId) (c : Ecc) (s : State) (hw : Sub 0x57fea1020000001c08b0499280c30584 W) (h_s : Kept W s0 s) :
    ∃ t', execWaitt i c s = .next t' ∧ Kept W s0 t' := by
  unfold execWaitt
  refine ⟨_, rfl, ?_⟩
  try dsimp only
  repeat' first
    | with_reducible assumption
    | (with_reducible refine st_fresh_kept _ (Sub.trans (by decide) hw) ?_ )
    | (with_reducible refine seqRow_kept _ _ _ _ (Sub.trans (by decide) hw) ?_ )

theorem execHalt_kept (i : SiteId) (c : Ecc) (s : State) (hw : Sub 0x57fea1020000001c08b0499280c30584 W) (h_s : Kept W s0 s) :
    ∃ t', execHalt i c s = .next t' ∧ Kept W s0 t' := by
  unfold execHalt
  refine ⟨_, rfl, ?_⟩
  try dsimp only
  repeat' first
    | with_reducible assumption
    | (with_reducible refine st_fresh_kept _ (Sub.trans (by decide) hw) ?_ )
    | (with_reducible refine seqRow_kept _ _ _ _ (Sub.trans (by decide) hw) ?_ )

theorem execOpPause_kept (i : SiteId) (c : Ecc) (s : State) (hw : Sub 0x57fea1020000001c08b0499280c30584 W) (h_s : Kept W s0 s) :
    ∃ t', execOpPause i c s = .next t' ∧ Kept W s0 t' := by
  unfold execOpPause
  refine ⟨_, rfl, ?_⟩
  try dsimp only
  repeat' first
    | with_reducible assumption
    | (with_reducible refine st_fresh_kept _ (Sub.trans (by decide) hw) ?_ )
    | (with_reducible refine seqRow_kept _ _ _ _ (Sub.trans (by decide) hw) ?_ )

theorem execHostevt_kept (i : SiteId) (c : Ecc) (s : State) (hw : Sub 0x57fea1020000001c08b0499280c30584 W) (h_s : Kept W s0 s) :
    ∃ t', execHostevt i c s = .next t' ∧ Kept W s0 t' := by
  unfold execHostevt
  refine ⟨_, rfl, ?_⟩
  try dsimp only
  repeat' first
    | with_reducible assumption
    | (with_reducible refine st_fresh_kept _ (Sub.trans (by decide) hw) ?_ )
    | (with_reducible refine seqRow_kept _ _ _ _ (Sub.trans (by decide) hw) ?_ )

theorem execAbortForced_kept (i : SiteId) (s : State) (hw : Sub 0xbe2000000000000030488080410080 W) (h_s : Kept W s0 s) :
    ∃ t', execAbortForced i s = .next t' ∧ Kept W s0 t' := by
  unfold execAbortForced
  refine ⟨_, rfl, ?_⟩
  try dsimp only
  repeat' first
    | with_reducible assumption
    | intro _
    | (with_reducible refine st_fresh_kept _ (Sub.trans (by decide) hw) ?_ )
    | (with_reducible refine st_timed_kept _ _ (Sub.trans (by decide) hw) ?_ ?_ )
    | (with_reducible refine parkRaise_kept _ _ _ _ (Sub.trans (by decide) hw) ?_ )
    | with_reducible apply kept_ite

theorem execSafePointStarvation_kept (i : SiteId) (s : State) (hw : Sub 0xbe2000000000000030488080410080 W) (h_s : Kept W s0 s) :
    ∃ t', execSafePointStarvation i s = .next t' ∧ Kept W s0 t' := by
  unfold execSafePointStarvation
  refine ⟨_, rfl, ?_⟩
  try dsimp only
  repeat' first
    | with_reducible assumption
    | intro _
    | (with_reducible refine st_fresh_kept _ (Sub.trans (by decide) hw) ?_ )
    | (with_reducible refine st_timed_kept _ _ (Sub.trans (by decide) hw) ?_ ?_ )
    | (with_reducible refine parkRaise_kept _ _ _ _ (Sub.trans (by decide) hw) ?_ )
    | with_reducible apply kept_ite

theorem stallEnd_kept (i : SiteId) (s : State) (hw : Sub 0x47fea1020000001c08b0099000010584 W) (h_s : Kept W s0 s) :
    Kept W s0 (stallEnd i s) := by
  unfold stallEnd
  try dsimp only
  repeat' first
    | with_reducible assumption
    | (with_reducible refine issue_kept _ _ _ (Sub.trans (by decide) hw) ?_ )
    | (with_reducible refine eaveOf_kept _ _ _ (Sub.trans (by decide) hw) ?_ )
    | split

theorem execStallEnd_kept (i : SiteId) (s : State) (hw : Sub 0x47fea1020000001c08b0099000010584 W) (h_s : Kept W s0 s) :
    ∃ t', execStallEnd i s = .next t' ∧ Kept W s0 t' := by
  unfold execStallEnd
  refine ⟨_, rfl, ?_⟩
  try dsimp only
  repeat' first
    | with_reducible assumption
    | intro _
    | (with_reducible refine st_fresh_kept _ (Sub.trans (by decide) hw) ?_ )
    | (with_reducible refine st_timed_kept _ _ (Sub.trans (by decide) hw) ?_ ?_ )
    | (with_reducible refine stallEnd_kept _ _ (Sub.trans (by decide) hw) ?_ )

end Sys2Proof.Laws
end

