-- ==== Sys2Proof/Laws/KeptTick.lean ====
section
/-! SUPPORT. One lemma per operation of Machine/Tick.lean: within which mask of parts it keeps the rest; a command's meaning
answers a next state that is so kept. The numeral of a mask has the bits of Area. -/
namespace Sys2Proof.Laws
open Sys2Proof Sys2Proof.Machine
variable {W : Nat} {s0 : State}

theorem ballsLeft_kept (s : State) (hw : Sub 0x822000000000000000088000000000 W) (h_s : Kept W s0 s) :
    Kept W s0 (ballsLeft s) := by
  unfold ballsLeft
  try dsimp only
  repeat' first
    | with_reducible assumption
    | intro _
    | (with_reducible refine calSiteEnded_kept _ _ (Sub.trans (by decide) hw) ?_ )
    | with_reducible apply kept_ite
    | with_reducible apply kept_foldl

theorem beginSclk_kept (s : State) (hw : Sub 0x47fea1020000051c08b0499080412584 W) (h_s : Kept W s0 s) :
    Kept W s0 (beginSclk s) := by
  unfold beginSclk
  try dsimp only
  repeat' first
    | with_reducible assumption
    | (with_reducible refine dueMarks_kept _ (Sub.trans (by decide) hw) ?_ )
    | (with_reducible refine driveAll_kept _ (Sub.trans (by decide) hw) ?_ )
    | (with_reducible refine xbarDues_kept _ (Sub.trans (by decide) hw) ?_ )
    | (with_reducible refine ridgeRuns_kept _ (Sub.trans (by decide) hw) ?_ )
    | (with_reducible refine ridgeDue_kept _ (Sub.trans (by decide) hw) ?_ )

theorem endSclk_can (s : State) (h : Canonical s) : Canonical (endSclk s) := by
  have h1 : Canonical (ballsLeft (fireAll (abortCuts (handOvers s)))) :=
    (ballsLeft_kept (W := 2 ^ 127 - 1) _ (by decide) (fireAll_kept _ (by decide) (abortCuts_kept _ (by decide)
      (handOvers_kept _ (by decide) (Kept.refl _ s))))).can h
  unfold endSclk
  generalize ballsLeft (fireAll (abortCuts (handOvers s))) = u at h1 ⊢
  dsimp only
  have h2 : Canonical { u with mkLast := markerBits u } := h1
  exact (restSnaps_kept (W := 2 ^ 127 - 1) _ (by decide) (testTimes_kept _ (by decide) (Kept.refl _ _))).can h2

/-- The start of an SCLK keeps the canonical form. -/
theorem beginSclk_can (s : State) (h : Canonical s) : Canonical (beginSclk s) :=
  (beginSclk_kept (W := 2 ^ 127 - 1) _ (by decide) (Kept.refl _ s)).can h

/-- What a stopped group leaves undone keeps the canonical form. -/
theorem timed_can (s : State) (f : State → State) (hf : ∀ s, Canonical s → Canonical (f s)) (h : Canonical s) :
    Canonical (s.timed f) := by
  unfold State.timed
  split
  · exact hf s h
  · exact h

/-- The commands and requests that come again keep the canonical form. -/
theorem recallRows_can (s : State) (h : Canonical s) : Canonical (recallRows s) := by
  have h1 : Canonical { s with pending := s.pending ++ s.delayed, delayed := [] } := h
  exact (recallAsks_kept (W := 2 ^ 127 - 1) _ (by decide) (Kept.refl _ _)).can h1

/-- The host interface's SCLK keeps the canonical form. -/
theorem linkSclk_can (s : State) (h : Canonical s) : Canonical (linkSclk s) := by
  unfold linkSclk
  split
  · exact (pumpWrites_kept (W := 2 ^ 127 - 1) _ (by decide) (pumpReads_kept _ (by decide) (issueFetches_kept _ (by decide) _
      (answerReads_kept _ (by decide) (Kept.refl _ s))))).can h
  · exact h

/-- An SCLK keeps the canonical form. -/
theorem tick_can (s : State) (h : Canonical s) : Canonical s.tick := by
  have h1 : Canonical (linkSclk s.fresh) := linkSclk_can _ ((st_fresh_kept (W := 2 ^ 127 - 1) _ (by decide) (Kept.refl _ s)).can h)
  unfold State.tick
  generalize linkSclk s.fresh = u at h1 ⊢
  dsimp only
  have hc : ∀ s, Canonical s → Canonical (endSclk (calHolds s)) := fun s h =>
    endSclk_can _ ((calHolds_kept (W := 2 ^ 127 - 1) _ (by decide) (Kept.refl _ s)).can h)
  have h2 := timed_can u _ hc h1
  generalize u.timed (fun s => endSclk (calHolds s)) = v at h2 ⊢
  have h3 : Canonical { v with now := v.now + 1 } := h2
  exact recallRows_can _ ((switchStops_kept (W := 2 ^ 127 - 1) _ (by decide) (Kept.refl _ _)).can (timed_can _ _ beginSclk_can h3))

end Sys2Proof.Laws
end

