-- ==== Sys2Proof/Tests/Slice0.lean ====
section
/-! SUPPORT. Tests: the well-formedness checks refuse an ill-formed command each, the hypotheses of every statement are met by
a concrete state, and small steps on values that the manual gives. -/
namespace Sys2Proof
open Sys2Proof.Machine

set_option Elab.async false

/-- A command identity for tests. -/
def tag0 : Tag := ⟨0, 5, 7⟩
/-- The timing group runs. -/
def run0 : Nat × Int := (K.cg_GROUP_STATE 0, 0)
/-- The reset state in which every clock group runs, with some objects changed. -/
def objs (l : List (Nat × Int)) : State :=
  l.foldl (fun s e => s.p e.1 e.2) (((State.reset.p (K.cg_GROUP_STATE 0) 0).p (K.cg_GROUP_STATE 1) 0).p (K.cg_GROUP_STATE 2) 0)
/-- The reset state in which every clock group runs. -/
def up0 : State := objs []
/-- A submission entry: OPCODE, LENGTH and the operand words. -/
def sqe (op len : Nat) (ds : List Nat) : BitVec 512 :=
  BitVec.ofNat 512 (ds.zipIdx.foldl (fun a e => a + e.1 * 2 ^ (192 + 32 * e.2)) (op + len * 2 ^ 128))
/-- The same state with a command of that entry alone in flight. -/
def fly (op len : Nat) (ds : List Nat) (s : State) : State :=
  { s with host := { s.host with flights := [{ tag := tag0, opcode := op, entry := sqe op len ds }] } }
/-- A site record put into the reset state with some objects changed. -/
def siteW (i : SiteId) (x : Site) (l : List (Nat × Int)) : State := (objs l).setSite i x
/-- A microword that the load checks accept: OP CONT with every other field 0. -/
def word0 : MWord := 0
/-- A frame of no vectors. -/
def frame0 : Frame := {}
/-- A microword with an OP code and further bits. -/
def wordW (op : Nat) (rest : Nat) : MWord := BitVec.ofNat 160 (op * 2 ^ 153 + rest)
/-- An ARMED site 31 in a running clock group whose next word lies at 2000h. -/
def seqW (w : MWord) (x : Site) (l : List (Nat × Int)) : State :=
  (siteW 31 { x with halted := false } ([(K.st_STATE 31, 2), (K.cg_GROUP_STATE 0, 0)] ++ l)).setCs [(0x2000, w)]
/-- Its execution, the last of the word. -/
def exeW (w : MWord) (holds : Bool) : Exec := ⟨0x2000, w, 0, true, 0, none, false, holds⟩
/-- A RUNNING site 31 whose executed word waits for its vectors. -/
def stallW (l : List (Nat × Int)) (p : Option PadRun) : State :=
  siteW 31 { pad := p, stall := some { word := wordW 0 0, num := 0, first := true, entry := 0, ord := 0 } } ([(K.st_STATE 31, 3)] ++ l)
/-- A sample segment of four granules, or a vector segment of four yealms, by state and contents. -/
def segT (k : SegKind) (st : SegSt) (d : KMap (List Byte)) : Seg := { st := st, kind := k, home := .hbm, len := 4, owner := 0, data := d }
/-- The reset state with that segment under number 7. -/
def segW (k : SegKind) (st : SegSt) (d : KMap (List Byte)) : State := up0.setSeg 7 (segT k st d)
/-- A whole sample segment's granules. -/
def full4 : KMap (List Byte) := [0, 1, 2, 3].map (fun k => (k, List.replicate 128 0))
/-- A segment in the deep store, moving or not. -/
def segD (st : SegSt) (m : Option (Tier × Tag)) : Seg := { st := st, kind := .sample, home := .deep, len := 4, owner := 0, moving := m }
/-- The reset state with that segment under number 7. -/
def segDeep (st : SegSt) (m : Option (Tier × Tag)) : State := up0.setSeg 7 (segD st m)
/-- The same with the segment first among those under migration. -/
def segMover (st : SegSt) (m : Option (Tier × Tag)) : State :=
  (fun (s : State) => ({ s with mem := { s.mem with movers := [.move 7] } })) (segDeep st m)
/-- A FEED queue bound to a stream or to none. -/
def queueX (b : Option StreamId) : Queue := { bound := b }
/-- The reset state with that queue under number 5. -/
def queueW (b : Option StreamId) : State := up0.setQueue 5 (queueX b)
/-- The first yealm of stream 63: one octet, one record, payload zeros; the header of Table 2.2 with its CRC. -/
def yealm0 : List Byte := toBytes 64 0x1cea8ece000000000000000000000000000000000000000000000000000000008000003f0001000100000001000000010000000000000000010000014d4c4559 ++ List.replicate 4032 0
/-- The reset state with stream 63 in a state, bound to queue 5, for one octet. -/
def strmW (st : Int) (held : List Feed) : State :=
  ((State.p (queueW (some 63)) (K.sm_STATE 63) st)).setStrm 63 { octets := 1, beats := 0, held := held }
/-- The reset state with HBM in service. -/
def hbm0 : State := { up0 with mem := { up0.mem with hbmUp := true } }
/-- The same with the deep segment under number 7. -/
def hbmDeep (st : SegSt) (m : Option (Tier × Tag)) : State := hbm0.setSeg 7 (segD st m)
/-- A yealm has 4,096 bytes. -/
theorem yealm0_len : yealm0.length = 4096 := by
  unfold yealm0
  rw [List.length_append, List.length_replicate]
  decide +kernel
/-- TMU 9's record put into the reset state with some objects changed. -/
def tmuW (x : Tmu) (l : List (Nat × Int)) : State := (objs l).setTmu 9 x
/-- The same with TMU 9 in slot 3 of site 31, which owns it, and a TMUC command of a TOP code waiting. -/
def tmucW (code : Nat) (x : Tmu) (l : List (Nat × Int)) : State :=
  { tmuW x ([(K.tmo_OWNER 9, 31), (K.tl_SLOT 31 3, 9)] ++ l) with unitCmds := [⟨31, true, code, 3, 0, 40⟩] }
/-- Engine 7's record put into the reset state, assigned to site 31, with some objects changed. -/
def engW (x : Eng) (l : List (Nat × Int)) : State := (objs ([(K.wc_WF_SITE 7, 31)] ++ l)).setEng 7 x
/-- The same with a WFE command of a CMD code waiting. -/
def wfeW (code : Nat) (x : Eng) (l : List (Nat × Int)) : State := { engW x l with unitCmds := [⟨31, false, code, 7, 9, 40⟩] }
/-- A step of a KIND, HEAD set. -/
def stepW (kind : Nat) (rest : Nat) : BitVec 128 := BitVec.ofNat 128 (kind * 2 ^ 126 + 2 ^ 124 + rest)
/-- Bank 7 calibrates as its record says, in the reset state with some objects changed. -/
def bankW (k : CalBank) (l : List (Nat × Int)) : State := (objs l).setCalBank 7 k
/-- Channel 255 belongs to site 31, which is in a state. -/
def chanIn (st : Int) : List (Nat × Int) := [(K.cf_CHAN_MASK 31 3, 2 ^ 63), (K.st_STATE 31, st)]
/-- A swap of channel 255 with spar 15 in a phase. -/
def swapX (phase : Nat) : Swap := { chan := 255, spar := some 15, phase := phase }
/-- The clock records put into the reset state with some objects changed. -/
def clkW (c : Clk) (now : Nat) (l : List (Nat × Int)) : State := { objs l with clk := c, now := now }
/-- A running host interface with some queues and a function record, and objects changed. -/
def hostW (qs : List (Nat × Queue)) (f : FnId) (y : Fn) (l : List (Nat × Int)) : State :=
  qs.foldl (fun s e => s.setQueue e.1 e.2) ((objs ([(K.bu_PHASE, 6)] ++ l)).setFn f y)
/-- The same with the link up. -/
def linkW (qs : List (Nat × Queue)) (f : FnId) (y : Fn) (l : List (Nat × Int)) : State :=
  (fun (s : State) => { s with pwr := { s.pwr with link := true } }) (hostW qs f y l)
/-- The same with commands in flight and ended commands. -/
def flightW (qs : List (Nat × Queue)) (fl : List Flight) (c : List Compl) : State :=
  (fun (s : State) => { s with host := { s.host with flights := fl, compl := c } }) (linkW qs 0 {} [])
/-- A collector with some source records, tests and records of objects. -/
def fltW (f : Flt) (now : Nat) (l : List (Nat × Int)) : State := { objs l with flt := f, now := now }
/-- A power state with some objects changed. -/
def pwrW (p : Pwr) (now : Nat) (l : List (Nat × Int)) : State := { objs l with pwr := p, now := now }
/-- A management state with some objects changed. -/
def mgmtW (m : Mgmt) (now : Nat) (l : List (Nat × Int)) : State := { objs l with mgmt := m, now := now }

/-! ### Well-formedness: each check refuses an ill-formed command -/

/-- A segment length beyond 32 bits is ill-formed. -/
theorem test_wf_segAlloc : Instr.wf (.segAlloc tag0 .vector .hbm (2 ^ 32)) = false := by decide +kernel

/-- A SEG_WRITE of no item is ill-formed. -/
theorem test_wf_segWrite_count : Instr.wf (.segWrite tag0 0 0 0 []) = false := by decide +kernel

/-- A SEG_WRITE buffer of a length that fits no count is ill-formed. -/
theorem test_wf_segWrite_data : Instr.wf (.segWrite tag0 0 0 1 [0]) = false := by decide +kernel

/-- A SEG_WRITE first index beyond 32 bits is ill-formed. -/
theorem test_wf_segWrite_first : Instr.wf (.segWrite tag0 0 (2 ^ 32) 1 (List.replicate 128 0)) = false := by decide +kernel

/-- A SEG_READ of no item is ill-formed. -/
theorem test_wf_segRead : Instr.wf (.segRead tag0 0 0 ⟨0, .ok⟩) = false := by decide +kernel

/-- A feed data that is no whole number of yealms is ill-formed. -/
theorem test_wf_streamFeed : Instr.wf (.streamFeed tag0 [0]) = false := by decide +kernel

/-- A result buffer length beyond 32 bits is ill-formed. -/
theorem test_wf_resultBuf : Instr.wf (.resultBuf tag0 (2 ^ 32)) = false := by decide +kernel

/-- A CS_WRITE at an address beyond the control store is ill-formed. -/
theorem test_wf_csWrite_addr : Instr.wf (.csWrite tag0 0x20000 [0]) = false := by decide +kernel

/-- A CS_WRITE of no word is ill-formed. -/
theorem test_wf_csWrite_words : Instr.wf (.csWrite tag0 0 []) = false := by decide +kernel

/-- A CS_READ of no word is ill-formed. -/
theorem test_wf_csRead_count : Instr.wf (.csRead tag0 0 0 []) = false := by decide +kernel

/-- A CS_READ with an error outside its range is ill-formed. -/
theorem test_wf_csRead_err : Instr.wf (.csRead tag0 8 1 [(9, .single)]) = false := by decide +kernel

/-- A CS_VERIFY with an error outside its range is ill-formed. -/
theorem test_wf_csVerify : Instr.wf (.csVerify tag0 8 1 [(7, .single)]) = false := by decide +kernel

/-- A FAIL_READ first entry beyond 64 bits is ill-formed. -/
theorem test_wf_failRead : Instr.wf (.failRead tag0 0 (2 ^ 64) 1 .whole) = false := by decide +kernel

/-- A CAPTURE_READ length beyond 32 bits is ill-formed. -/
theorem test_wf_captureRead : Instr.wf (.captureRead tag0 0 0 (2 ^ 32) .whole) = false := by decide +kernel

/-- A apply point code that Table 14.3 does not list is ill-formed. -/
theorem test_wf_write : Instr.wf (.write (.direct .mbox { apply := 4 })) = false := by decide +kernel

/-- A dictionary offset beyond 32 bits is ill-formed. -/
theorem test_wf_read : Instr.wf (.read (.direct .mbox { offset := 2 ^ 32 })) = false := by decide +kernel

/-- A dictionary read longer than a buffer is ill-formed. -/
theorem test_wf_read_len : Instr.wf (.read (.direct .mbox { len := 4097 })) = false := by decide +kernel

/-- A BAR0 offset beyond the window is ill-formed. -/
theorem test_wf_registerWrite_off : Instr.wf (.registerWrite 0 (.bar (2 ^ 20)) [0]) = false := by decide +kernel

/-- A register write of no byte is ill-formed. -/
theorem test_wf_registerWrite_len : Instr.wf (.registerWrite 0 (.bar 0) []) = false := by decide +kernel

/-- A BAR0 read beyond the window is ill-formed. -/
theorem test_wf_registerRead_off : Instr.wf (.bar64HalfRead 0 (.bar (2 ^ 20)) 4) = false := by decide +kernel

/-- A sample of a vector that a frame does not have is ill-formed. -/
theorem test_wf_sample_vec : Instr.wf (.compareResultLatch 0 [⟨4, 0, 0, [(true, false, 20000)]⟩]) = false := by decide +kernel

/-- A sample of a strobe that a channel does not have is ill-formed. -/
theorem test_wf_sample_strobe : Instr.wf (.compareResultLatch 0 [⟨0, 0, 4, [(true, false, 20000)]⟩]) = false := by decide +kernel

/-- A sample of no state is ill-formed. -/
theorem test_wf_sample_seen : Instr.wf (.compareResultLatch 0 [⟨0, 0, 0, []⟩]) = false := by decide +kernel

/-- A frequency deviation beyond INT32 is ill-formed. -/
theorem test_wf_monitor : Instr.wf (.monitorWindow (2 ^ 31) 0) = false := by decide +kernel

/-- A level beyond INT32 is ill-formed. -/
theorem test_wf_calTick : Instr.wf (.calTick ⟨0, 0⟩ [(0, 2 ^ 31)]) = false := by decide +kernel

/-- A conversion beyond INT32 is ill-formed. -/
theorem test_wf_fault : Instr.wf (.faultCheckConversion .vin (2 ^ 31)) = false := by decide +kernel

/-- A conversion beyond INT32 is ill-formed. -/
theorem test_wf_telemetry : Instr.wf (.telemetryConversion .vin (-2 ^ 31)) = false := by decide +kernel

/-- A firmware offset beyond 32 bits is ill-formed. -/
theorem test_wf_fwOffset : Instr.wf (.fwImage .mbox (2 ^ 32) []) = false := by decide +kernel

/-- A boot ROM word outside the manufacturer region is ill-formed. -/
theorem test_wf_bootRom : Instr.wf (.bootRom [(0x2000, 0)] [] 0) = false := by decide +kernel

/-- A directory name longer than its field is ill-formed. -/
theorem test_wf_bootDir : Instr.wf (.bootRom [] [{ entry := 0, name := List.replicate 25 0 }] 0) = false := by simp [Instr.wf, -List.reduceReplicate]

/-- A DIMM temperature beyond INT32 is ill-formed. -/
theorem test_wf_dimm : Instr.wf (.dimmTempRead (2 ^ 31) []) = false := by decide +kernel

/-- A DIMM temperature beyond INT32 after the first is ill-formed. -/
theorem test_wf_dimmRest : Instr.wf (.dimmTempRead 0 [2 ^ 31]) = false := by decide +kernel

/-- A CS_DOMAIN_WRITE beyond one buffer is ill-formed. -/
theorem test_wf_csDomain : Instr.wf (.csDomainWrite .mbox (List.replicate 81921 0)) = false := by simp [Instr.wf, -List.reduceReplicate]

/-- A KDP frame longer than a frame is ill-formed. -/
theorem test_wf_kdp : Instr.wf (.kdpFrame ⟨0, 0⟩ (List.replicate 1501 0)) = false := by simp [Instr.wf, -List.reduceReplicate]

/-- A mailbox message longer than its buffer is ill-formed. -/
theorem test_wf_mailbox : Instr.wf (.mailboxRequest (List.replicate 8193 0)) = false := by simp [Instr.wf, -List.reduceReplicate]

/-- A seal token longer than its window is ill-formed. -/
theorem test_wf_sealToken : Instr.wf (.sealToken ⟨.mbox, List.replicate 193 0⟩) = false := by simp [Instr.wf, -List.reduceReplicate]

/-- A life-cycle token longer than its window is ill-formed. -/
theorem test_wf_lcToken : Instr.wf (.lcToken (List.replicate 249 0)) = false := by simp [Instr.wf, -List.reduceReplicate]

/-- A seal key longer than its window is ill-formed. -/
theorem test_wf_sealKey : Instr.wf (.sealKey (List.replicate 97 0)) = false := by simp [Instr.wf, -List.reduceReplicate]

/-- A firmware segment longer than a buffer is ill-formed. -/
theorem test_wf_fwData : Instr.wf (.fwImage .mbox 0 (List.replicate 4097 0)) = false := by simp [Instr.wf, -List.reduceReplicate]

/-- A feed data beyond 4 GiB is ill-formed. -/
theorem test_wf_feedBytes : Instr.wf (.streamFeed tag0 (List.replicate (2 ^ 33) 0)) = false := by simp [Instr.wf, -List.reduceReplicate]

/-- A firmware image beyond its region is ill-formed. -/
theorem test_wf_kzFwload : Instr.wf (.kzFwload (List.replicate 16777217 0)) = false := by simp [Instr.wf, -List.reduceReplicate]

/-- A training record longer than its buffer is ill-formed. -/
theorem test_wf_training : Instr.wf (.ddr5Training (Vector.replicate 8 0) true [] (List.replicate 65537 0)) = false := by simp [Instr.wf, -List.reduceReplicate]



/-- The hypotheses of StepRunsFront are met (1). -/
theorem test_meets_StepRunsFront_t1 :
    State.pending { State.reset with pending := [.siteStopped 0] } = .siteStopped 0 :: []  := by decide +kernel

/-- The hypotheses of IdleStep are met (1). -/
theorem test_meets_IdleStep_t1 :
    State.reset.pending = [] ∧ State.reset.dict.held = [] ∧ State.reset.clk.ridgeDue = none := by decide +kernel

/-- The hypotheses of IdleStep are met (2). -/
theorem test_meets_IdleStep_t2 :
    (fun (s : State) => s.pending = [] ∧ timingOn s = false ∧ domRuns s .pcie = false ∧ (∀ g : Fin 3, (s.grp g).target = none) ∧ s.delayed = [] ∧ s.dict.held = []) (objs [(K.cg_GROUP_STATE 0, 1), (K.cg_GROUP_STATE 1, 1)])  := by decide +kernel



/-- The hypotheses of StepKeepsCanonical are met (1). -/
theorem test_meets_StepKeepsCanonical_t1 :
    Canonical State.reset ∧ ∃ t, step State.reset = .next t := ⟨⟨by decide +kernel, by decide +kernel, by decide +kernel, by decide +kernel, by decide +kernel, by decide +kernel⟩, _, rfl⟩ 



/-- The hypotheses of EveryFrame are met (1). -/
theorem test_meets_EveryFrame_t1 :
    ∃ t, exec (.siteStopped 0) State.reset = .next t := ⟨_, rfl⟩ 

/-- The hypotheses of StoppedGroupStandsStill are met (1). -/
theorem test_meets_StoppedGroupStandsStill_t1 :
    clocked (.frameTake 31) = true ∧ timingOn (objs [(K.cg_GROUP_STATE 0, 1)]) = false := by decide +kernel

/-- The hypotheses of StoppedGroupStandsStill are met (2). -/
theorem test_meets_StoppedGroupStandsStill_t2 :
    domOf (.segSeal tag0 7) = some .timing ∧ domRuns (objs [(K.cg_GROUP_STATE 0, 1)]) .timing = false ∧ domSwitches (objs [(K.cg_GROUP_STATE 0, 1)]) .timing = false := by decide +kernel

/-- The hypotheses of StoppedGroupStandsStill are met (3). -/
theorem test_meets_StoppedGroupStandsStill_t3 :
    domOf (.segSeal tag0 7) = some .timing ∧ domRuns (objs [(K.cg_GROUP_STATE 0, 2)]) .timing = false ∧ domSwitches (objs [(K.cg_GROUP_STATE 0, 2)]) .timing = true := by decide +kernel

/-- The hypotheses of StoppedGroupStandsStill are met (4). -/
theorem test_meets_StoppedGroupStandsStill_t4 :
    (fun (s : State) => norRow (.evlogProgram 1) = true ∧ domRuns s .mgmt = true ∧ domRuns s .nor = false) (clkW { domStop := [(Dom.nor.no, 16)] } 0 []) := by decide +kernel

/-- The hypotheses of SegAllocTakesLowestFree, clause 1, are met. -/
theorem test_meets_SegAllocTakesLowestFree_1 :
    (comes (fly 0x40 0 [1, 4] hbm0 : State) (some (tag0 : Tag)) .timing (.segAlloc (tag0 : Tag) (.sample : SegKind) (.hbm : Tier) (4 : Nat)) = true) ∧
    ((SegKind.lengths (.sample : SegKind)).1 ≤ (4 : Nat)) ∧
    ((4 : Nat) ≤ (SegKind.lengths (.sample : SegKind)).2) ∧
    (((.hbm : Tier) = .deep → (fly 0x40 0 [1, 4] hbm0 : State).deepOn = true)) ∧
    (Seg.extents { kind := (.sample : SegKind), home := (.hbm : Tier), len := (4 : Nat), owner := (tag0 : Tag).fn } ≤ (fly 0x40 0 [1, 4] hbm0 : State).tierFree (.hbm : Tier)) ∧
    (ksorted (fly 0x40 0 [1, 4] hbm0 : State).mem.segs = true) ∧
    ((0 : Nat) < 65536) ∧
    ((fly 0x40 0 [1, 4] hbm0 : State).seg? (0 : Nat) = none) ∧
    ((∀ m, m < (0 : Nat) → ((fly 0x40 0 [1, 4] hbm0 : State).seg? m).isSome = true)) := by decide +kernel

/-- The hypotheses of SegWriteStores, clause 1, are met. -/
theorem test_meets_SegWriteStores_1 :
    (comes (fly 0x41 128 [7, 3, 1] (segW .sample .opened []) : State) (some (tag0 : Tag)) .timing (.segWrite (tag0 : Tag) (7 : SegId) (3 : Nat) (1 : Nat) (List.replicate 128 5 : List Byte)) = true) ∧
    ((fly 0x41 128 [7, 3, 1] (segW .sample .opened []) : State).seg? (7 : SegId) = some (segT .sample .opened [] : Seg)) ∧
    ((segT .sample .opened [] : Seg).st = .opened) ∧
    (((segT .sample .opened [] : Seg).home = .deep → moverServes (.copy (tag0 : Tag)) (fly 0x41 128 [7, 3, 1] (segW .sample .opened []) : State) = true)) ∧
    (1 ≤ (1 : Nat)) ∧
    ((1 : Nat) ≤ 65536) ∧
    ((3 : Nat) + (1 : Nat) ≤ (segT .sample .opened [] : Seg).len) ∧
    ((List.replicate 128 5 : List Byte).length = (1 : Nat) * SegKind.itemSize (segT .sample .opened [] : Seg).kind) ∧
    (((segT .sample .opened [] : Seg).kind = .vector → ∀ j, j < (1 : Nat) → yealmCheck (((List.replicate 128 5 : List Byte).drop (4096 * j)).take 4096) false (7 : SegId) none ((3 : Nat) + j) = Status.OK)) := by decide +kernel

/-- The hypotheses of SegWriteStores, clause 2, are met. -/
theorem test_meets_SegWriteStores_2 :
    (comes (fly 0x41 4096 [7, 3, 1] (segW .vector .opened []) : State) (some (tag0 : Tag)) .timing (.segWrite (tag0 : Tag) (7 : SegId) (3 : Nat) (1 : Nat) (List.replicate 4096 0 : List Byte)) = true) ∧
    ((fly 0x41 4096 [7, 3, 1] (segW .vector .opened []) : State).seg? (7 : SegId) = some (segT .vector .opened [] : Seg)) ∧
    ((segT .vector .opened [] : Seg).st = .opened) ∧
    ((segT .vector .opened [] : Seg).kind = .vector) ∧
    (((segT .vector .opened [] : Seg).home = .deep → moverServes (.copy (tag0 : Tag)) (fly 0x41 4096 [7, 3, 1] (segW .vector .opened []) : State) = true)) ∧
    ((1 : Nat) ≤ 65536) ∧
    ((3 : Nat) + (1 : Nat) ≤ (segT .vector .opened [] : Seg).len) ∧
    ((List.replicate 4096 0 : List Byte).length = (1 : Nat) * 4096) ∧
    ((0 : Nat) < (1 : Nat)) ∧
    ((∀ j, j < (0 : Nat) → yealmCheck (((List.replicate 4096 0 : List Byte).drop (4096 * j)).take 4096) false (7 : SegId) none ((3 : Nat) + j) = Status.OK)) ∧
    (yealmCheck (((List.replicate 4096 0 : List Byte).drop (4096 * (0 : Nat))).take 4096) false (7 : SegId) none ((3 : Nat) + (0 : Nat)) ≠ Status.OK) := by decide +kernel

/-- The hypotheses of SegWriteStores, clause 3, are met. -/
theorem test_meets_SegWriteStores_3 :
    (comes (fly 0x41 128 [7, 3, 1] (segMover .opened none) : State) (some (tag0 : Tag)) .timing (.segWrite (tag0 : Tag) (7 : SegId) (3 : Nat) (1 : Nat) (List.replicate 128 5 : List Byte)) = true) ∧
    ((fly 0x41 128 [7, 3, 1] (segMover .opened none) : State).seg? (7 : SegId) = some (segD .opened none : Seg)) ∧
    ((segD .opened none : Seg).st = .opened) ∧
    ((segD .opened none : Seg).home = .deep) ∧
    (moverServes (.copy (tag0 : Tag)) (fly 0x41 128 [7, 3, 1] (segMover .opened none) : State) = false) ∧
    (1 ≤ (1 : Nat)) ∧
    ((1 : Nat) ≤ 65536) ∧
    ((3 : Nat) + (1 : Nat) ≤ (segD .opened none : Seg).len) := by decide +kernel

/-- The hypotheses of SegSealAndUnseal, clause 1, are met. -/
theorem test_meets_SegSealAndUnseal_1 :
    (comes (fly 0x42 0 [7] (segW .sample .opened full4) : State) (some (tag0 : Tag)) .timing (.segSeal (tag0 : Tag) (7 : SegId)) = true) ∧
    ((fly 0x42 0 [7] (segW .sample .opened full4) : State).seg? (7 : SegId) = some (segT .sample .opened full4 : Seg)) ∧
    ((segT .sample .opened full4 : Seg).st = .opened) ∧
    ((sealCheck (segT .sample .opened full4 : Seg)).1 = Status.OK) := by decide +kernel

/-- The hypotheses of SegSealAndUnseal, clause 2, are met. -/
theorem test_meets_SegSealAndUnseal_2 :
    (comes (fly 0x42 0 [7] (segW .sample .opened []) : State) (some (tag0 : Tag)) .timing (.segSeal (tag0 : Tag) (7 : SegId)) = true) ∧
    ((fly 0x42 0 [7] (segW .sample .opened []) : State).seg? (7 : SegId) = some (segT .sample .opened [] : Seg)) ∧
    ((segT .sample .opened [] : Seg).st = .opened) ∧
    ((sealCheck (segT .sample .opened [] : Seg)).1 ≠ Status.OK) := by decide +kernel

/-- The hypotheses of SegSealAndUnseal, clause 3, are met. -/
theorem test_meets_SegSealAndUnseal_3 :
    (comes (fly 0x42 0 [7] (segW .sample .inactive full4) : State) (some (tag0 : Tag)) .timing (.segSeal (tag0 : Tag) (7 : SegId)) = true) ∧
    (((fly 0x42 0 [7] (segW .sample .inactive full4) : State).seg? (7 : SegId)).all (fun x => x.st != .opened) = true) := by decide +kernel

/-- The hypotheses of SegSealAndUnseal, clause 7, are met. -/
theorem test_meets_SegSealAndUnseal_7 :
    (comes (fly 0x43 0 [7] (segW .sample .inactive full4) : State) (some (tag0 : Tag)) .timing (.segUnseal (tag0 : Tag) (7 : SegId)) = true) ∧
    ((fly 0x43 0 [7] (segW .sample .inactive full4) : State).seg? (7 : SegId) = some (segT .sample .inactive full4 : Seg)) ∧
    ((segT .sample .inactive full4 : Seg).st = .inactive) ∧
    ((segT .sample .inactive full4 : Seg).moving = none) := by decide +kernel

/-- The hypotheses of SegSealAndUnseal, clause 8, are met. -/
theorem test_meets_SegSealAndUnseal_8 :
    (comes (fly 0x43 0 [7] (segW .sample .active full4) : State) (some (tag0 : Tag)) .timing (.segUnseal (tag0 : Tag) (7 : SegId)) = true) ∧
    (((fly 0x43 0 [7] (segW .sample .active full4) : State).seg? (7 : SegId)).all (fun x => x.st != .inactive || x.moving.isSome) = true) := by decide +kernel

/-- The hypotheses of SegSealAndUnseal are met (1). -/
theorem test_meets_SegSealAndUnseal_t1 :
    (segT .sample .opened full4).kind = .sample ∧ (segT .sample .opened full4).len ≤ (segT .sample .opened full4).data.length ∧ (segT .sample .opened []).data.length < (segT .sample .opened []).len ∧ (segT .vector .opened full4).len ≤ (segT .vector .opened full4).data.length ∧ kget? (segT .vector .opened full4).data 0 = some (List.replicate 128 0)  := by decide +kernel

/-- The hypotheses of SegMoveAndFree, clause 1, are met. -/
theorem test_meets_SegMoveAndFree_1 :
    (comes (fly 0x45 0 [7, 0] (hbmDeep .inactive none) : State) (some (tag0 : Tag)) .timing (.segMigrate (tag0 : Tag) (7 : SegId) (.hbm : Tier)) = true) ∧
    ((fly 0x45 0 [7, 0] (hbmDeep .inactive none) : State).seg? (7 : SegId) = some (segD .inactive none : Seg)) ∧
    ((segD .inactive none : Seg).st = .inactive) ∧
    ((segD .inactive none : Seg).moving = none) ∧
    ((.hbm : Tier) ≠ (segD .inactive none : Seg).home) ∧
    (((.hbm : Tier) = .deep → (fly 0x45 0 [7, 0] (hbmDeep .inactive none) : State).deepOn = true)) ∧
    ((segD .inactive none : Seg).extents ≤ (fly 0x45 0 [7, 0] (hbmDeep .inactive none) : State).tierFree (.hbm : Tier)) := by decide +kernel

/-- The hypotheses of SegMoveAndFree, clause 2, are met. -/
theorem test_meets_SegMoveAndFree_2 :
    (comes (fly 0x45 0 [7, 1] (hbmDeep .inactive none) : State) (some (tag0 : Tag)) .timing (.segMigrate (tag0 : Tag) (7 : SegId) (segD .inactive none : Seg).home) = true) ∧
    ((fly 0x45 0 [7, 1] (hbmDeep .inactive none) : State).seg? (7 : SegId) = some (segD .inactive none : Seg)) ∧
    ((segD .inactive none : Seg).st = .inactive) ∧
    ((segD .inactive none : Seg).moving = none) := by decide +kernel

/-- The hypotheses of SegMoveAndFree, clause 3, are met. -/
theorem test_meets_SegMoveAndFree_3 :
    (timingOn (segMover .inactive (some (.hbm, tag0)) : State) = true) ∧
    ((segMover .inactive (some (.hbm, tag0)) : State).seg? (7 : SegId) = some (segD .inactive (some (.hbm, tag0)) : Seg)) ∧
    ((segD .inactive (some (.hbm, tag0)) : Seg).moving = some ((.hbm : Tier), (tag0 : Tag))) ∧
    (moverServes (.move (7 : SegId).val) (segMover .inactive (some (.hbm, tag0)) : State) = true) ∧
    (((segD .inactive (some (.hbm, tag0)) : Seg).home = .deep → (.ok : MoverCheck) = .ok)) := by decide +kernel

/-- The hypotheses of SegMoveAndFree, clause 4, are met. -/
theorem test_meets_SegMoveAndFree_4 :
    (timingOn (segMover .inactive (some (.hbm, tag0)) : State) = true) ∧
    ((segMover .inactive (some (.hbm, tag0)) : State).seg? (7 : SegId) = some (segD .inactive (some (.hbm, tag0)) : Seg)) ∧
    ((segD .inactive (some (.hbm, tag0)) : Seg).moving = some ((.hbm : Tier), (tag0 : Tag))) ∧
    ((segD .inactive (some (.hbm, tag0)) : Seg).home = .deep) ∧
    (moverServes (.move (7 : SegId).val) (segMover .inactive (some (.hbm, tag0)) : State) = true) := by decide +kernel

/-- The hypotheses of SegMoveAndFree, clause 6, are met. -/
theorem test_meets_SegMoveAndFree_6 :
    (comes (fly 0x46 0 [7] (segW .sample .failed []) : State) (some (tag0 : Tag)) .timing (.segFree (tag0 : Tag) (7 : SegId)) = true) ∧
    ((fly 0x46 0 [7] (segW .sample .failed []) : State).seg? (7 : SegId) = some (segT .sample .failed [] : Seg)) ∧
    ((segT .sample .failed [] : Seg).st ≠ .active) ∧
    (((segT .sample .failed [] : Seg).st = .failed → (segT .sample .failed [] : Seg).refs = 0)) ∧
    ((segT .sample .failed [] : Seg).moving = none) := by decide +kernel

/-- The hypotheses of SegMoveAndFree are met (1). -/
theorem test_meets_SegMoveAndFree_t1 :
    moverServes (.move 8) (segMover .inactive (some (.hbm, tag0))) = false  := by decide +kernel

/-- The hypotheses of SegReadAndQuery, clause 1, are met. -/
theorem test_meets_SegReadAndQuery_1 :
    (comes (fly 0x44 0 [7, 2, 2] (segW .sample .inactive full4) : State) (some (tag0 : Tag)) .timing (.segRead (tag0 : Tag) (7 : SegId) (2 : Nat) ⟨(2 : Nat), (.ok : MoverCheck)⟩) = true) ∧
    ((fly 0x44 0 [7, 2, 2] (segW .sample .inactive full4) : State).seg? (7 : SegId) = some (segT .sample .inactive full4 : Seg)) ∧
    (1 ≤ (2 : Nat)) ∧
    ((2 : Nat) ≤ 65536) ∧
    ((2 : Nat) + (2 : Nat) ≤ (segT .sample .inactive full4 : Seg).len) ∧
    (((segT .sample .inactive full4 : Seg).home = .deep → moverServes (.copy (tag0 : Tag)) (fly 0x44 0 [7, 2, 2] (segW .sample .inactive full4) : State) = true ∧ (.ok : MoverCheck) = .ok)) := by decide +kernel

/-- The hypotheses of SegReadAndQuery, clause 3, are met. -/
theorem test_meets_SegReadAndQuery_3 :
    (comes (fly 0x44 0 [7, 3, 1] (segDeep .inactive none) : State) (some (tag0 : Tag)) .timing (.segRead (tag0 : Tag) (7 : SegId) (3 : Nat) ⟨(1 : Nat), .ue (3 : Nat)⟩) = true) ∧
    ((fly 0x44 0 [7, 3, 1] (segDeep .inactive none) : State).seg? (7 : SegId) = some (segD .inactive none : Seg)) ∧
    (1 ≤ (1 : Nat)) ∧
    ((1 : Nat) ≤ 65536) ∧
    ((3 : Nat) + (1 : Nat) ≤ (segD .inactive none : Seg).len) ∧
    ((segD .inactive none : Seg).home = .deep) ∧
    ((segD .inactive none : Seg).moving = none) ∧
    (moverServes (.copy (tag0 : Tag)) (fly 0x44 0 [7, 3, 1] (segDeep .inactive none) : State) = true) := by decide +kernel

/-- The hypotheses of SegReadAndQuery, clause 4, are met. -/
theorem test_meets_SegReadAndQuery_4 :
    (comes (fly 0x44 0 [7, 3, 1] (segMover .inactive none) : State) (some (tag0 : Tag)) .timing (.segRead (tag0 : Tag) (7 : SegId) (3 : Nat) ⟨(1 : Nat), (.ok : MoverCheck)⟩) = true) ∧
    ((fly 0x44 0 [7, 3, 1] (segMover .inactive none) : State).seg? (7 : SegId) = some (segD .inactive none : Seg)) ∧
    (1 ≤ (1 : Nat)) ∧
    ((1 : Nat) ≤ 65536) ∧
    ((3 : Nat) + (1 : Nat) ≤ (segD .inactive none : Seg).len) ∧
    ((segD .inactive none : Seg).home = .deep) ∧
    (moverServes (.copy (tag0 : Tag)) (fly 0x44 0 [7, 3, 1] (segMover .inactive none) : State) = false) := by decide +kernel

/-- The hypotheses of SegReadAndQuery, clause 5, are met. -/
theorem test_meets_SegReadAndQuery_5 :
    (comes (fly 0x47 0 [7] (segW .sample .inactive full4) : State) (some (tag0 : Tag)) .timing (.segQuery (tag0 : Tag) (7 : SegId)) = true) := by decide +kernel

/-- The hypotheses of SegReadAndQuery are met (1). -/
theorem test_meets_SegReadAndQuery_t1 :
    kget? (segT .sample .inactive full4).data 3 = some (List.replicate 128 0)  := by decide +kernel

/-- The hypotheses of SegBeyondLengthRefused, clause 1, are met. -/
theorem test_meets_SegBeyondLengthRefused_1 :
    (comes (fly 0x41 0 [7, 3, 2] (segW .sample .opened []) : State) (some (tag0 : Tag)) .timing (.segWrite (tag0 : Tag) (7 : SegId) (3 : Nat) (2 : Nat) ([] : List Byte)) = true) ∧
    ((fly 0x41 0 [7, 3, 2] (segW .sample .opened []) : State).seg? (7 : SegId) = some (segT .sample .opened [] : Seg)) ∧
    ((segT .sample .opened [] : Seg).st = .opened) ∧
    (1 ≤ (2 : Nat)) ∧
    ((2 : Nat) ≤ 65536) ∧
    ((segT .sample .opened [] : Seg).len < (3 : Nat) + (2 : Nat)) := by decide +kernel

/-- The hypotheses of SegBeyondLengthRefused, clause 2, are met. -/
theorem test_meets_SegBeyondLengthRefused_2 :
    (comes (fly 0x44 0 [7, 4, 1] (segW .sample .failed []) : State) (some (tag0 : Tag)) .timing (.segRead (tag0 : Tag) (7 : SegId) (4 : Nat) ⟨(1 : Nat), (.ue 3 : MoverCheck)⟩) = true) ∧
    ((fly 0x44 0 [7, 4, 1] (segW .sample .failed []) : State).seg? (7 : SegId) = some (segT .sample .failed [] : Seg)) ∧
    (1 ≤ (1 : Nat)) ∧
    ((1 : Nat) ≤ 65536) ∧
    ((segT .sample .failed [] : Seg).len < (4 : Nat) + (1 : Nat)) := by decide +kernel

/-- The hypotheses of SegBeyondLengthRefused, clause 3, are met. -/
theorem test_meets_SegBeyondLengthRefused_3 :
    (comes (fly 0x41 0 [7, 3, 2] up0 : State) (some (tag0 : Tag)) .timing (.segWrite (tag0 : Tag) (7 : SegId) (3 : Nat) (2 : Nat) ([] : List Byte)) = true) ∧
    (((fly 0x41 0 [7, 3, 2] up0 : State).seg? (7 : SegId)).all (fun x => x.st != .opened) = true) ∧
    (1 ≤ (2 : Nat)) ∧
    ((2 : Nat) ≤ 65536) := by decide +kernel

/-- The hypotheses of SegBeyondLengthRefused, clause 4, are met. -/
theorem test_meets_SegBeyondLengthRefused_4 :
    (comes (fly 0x44 0 [7, 3, 2] up0 : State) (some (tag0 : Tag)) .timing (.segRead (tag0 : Tag) (7 : SegId) (3 : Nat) ⟨(2 : Nat), (.ok : MoverCheck)⟩) = true) ∧
    ((fly 0x44 0 [7, 3, 2] up0 : State).seg? (7 : SegId) = none) ∧
    (1 ≤ (2 : Nat)) ∧
    ((2 : Nat) ≤ 65536) := by decide +kernel

/-- The hypotheses of StreamOpenBinds, clause 1, are met. -/
theorem test_meets_StreamOpenBinds_1 :
    (comes (fly 0x48 0 [63, 5, 1, 0] { queueW (some 3) with mem := { up0.mem with hbmUp := true } } : State) (some (tag0 : Tag)) .timing (.streamOpen (tag0 : Tag) (63 : StreamId) (5 : QueueId) (1 : BitVec 32) (0 : Fin 4)) = true) ∧
    ((fly 0x48 0 [63, 5, 1, 0] { queueW (some 3) with mem := { up0.mem with hbmUp := true } } : State).n (K.sm_STATE (63 : StreamId)) = StrmSt.closed) ∧
    (128 ≤ (fly 0x48 0 [63, 5, 1, 0] { queueW (some 3) with mem := { up0.mem with hbmUp := true } } : State).hbmFree) ∧
    ((0 : Fin 4) ≠ 3) := by decide +kernel

/-- The hypotheses of StreamOpenBinds, clause 2, are met. -/
theorem test_meets_StreamOpenBinds_2 :
    (comes (fly 0x48 0 [63, 5, 1, 3] hbm0 : State) (some (tag0 : Tag)) .timing (.streamOpen (tag0 : Tag) (63 : StreamId) (5 : QueueId) (1 : BitVec 32) 3) = true) := by decide +kernel

/-- The hypotheses of StreamResetAndClose, clause 1, are met. -/
theorem test_meets_StreamResetAndClose_1 :
    (comes (fly 0x49 0 [63] (objs [(K.sm_STATE 63, 1)]) : State) (some (tag0 : Tag)) .timing (.streamReset (tag0 : Tag) (63 : StreamId)) = true) ∧
    ((fly 0x49 0 [63] (objs [(K.sm_STATE 63, 1)]) : State).n (K.sm_STATE (63 : StreamId)) ≠ StrmSt.closed) ∧
    (((fly 0x49 0 [63] (objs [(K.sm_STATE 63, 1)]) : State).strm (63 : StreamId)).refBy = none) := by decide +kernel

/-- The hypotheses of StreamResetAndClose, clause 2, are met. -/
theorem test_meets_StreamResetAndClose_2 :
    (comes (fly 0x4A 0 [63] (objs [(K.sm_STATE 63, 1)]) : State) (some (tag0 : Tag)) .timing (.streamClose (tag0 : Tag) (63 : StreamId)) = true) ∧
    ((fly 0x4A 0 [63] (objs [(K.sm_STATE 63, 1)]) : State).n (K.sm_STATE (63 : StreamId)) ≠ StrmSt.closed) ∧
    (((fly 0x4A 0 [63] (objs [(K.sm_STATE 63, 1)]) : State).strm (63 : StreamId)).refBy = none) := by decide +kernel

/-- The hypotheses of StreamResetAndClose, clause 3, are met. -/
theorem test_meets_StreamResetAndClose_3 :
    (comes (fly 0x49 0 [63] up0 : State) (some (tag0 : Tag)) .timing (.streamReset (tag0 : Tag) (63 : StreamId)) = true) ∧
    (((fly 0x49 0 [63] up0 : State).n (K.sm_STATE (63 : StreamId)) = StrmSt.closed ∨ ((fly 0x49 0 [63] up0 : State).strm (63 : StreamId)).refBy.isSome = true)) := by decide +kernel

/-- The hypotheses of StreamResetAndClose, clause 4, are met. -/
theorem test_meets_StreamResetAndClose_4 :
    (comes (fly 0x4A 0 [63] up0 : State) (some (tag0 : Tag)) .timing (.streamClose (tag0 : Tag) (63 : StreamId)) = true) ∧
    (((fly 0x4A 0 [63] up0 : State).n (K.sm_STATE (63 : StreamId)) = StrmSt.closed ∨ ((fly 0x4A 0 [63] up0 : State).strm (63 : StreamId)).refBy.isSome = true)) := by decide +kernel

/-- The hypotheses of StreamFeedStores, clause 1, are met. -/
theorem test_meets_StreamFeedStores_1 :
    ((∀ y ∈ ([yealm0, List.replicate 4096 0] : List (List Byte)), y.length = 4096)) ∧
    (1 ≤ ([yealm0, List.replicate 4096 0] : List (List Byte)).length) ∧
    (([yealm0, List.replicate 4096 0] : List (List Byte)).length ≤ 256) ∧
    (comes (fly 0x4B 8192 [] (strmW 1 []) : State) (some (tag0 : Tag)) .timing (.streamFeed (tag0 : Tag) ([yealm0, List.replicate 4096 0] : List (List Byte)).flatten) = true) ∧
    (((fly 0x4B 8192 [] (strmW 1 []) : State).queue? (tag0 : Tag).queue).bind Queue.bound = some (63 : StreamId)) ∧
    (((fly 0x4B 8192 [] (strmW 1 []) : State).n (K.sm_STATE (63 : StreamId)) = StrmSt.opened ∨ (fly 0x4B 8192 [] (strmW 1 []) : State).n (K.sm_STATE (63 : StreamId)) = StrmSt.active)) ∧
    (((fly 0x4B 8192 [] (strmW 1 []) : State).strm (63 : StreamId)).held = []) ∧
    ((fly 0x4B 8192 [] (strmW 1 []) : State).n (K.sm_WR_PTR (63 : StreamId)) + ([yealm0, List.replicate 4096 0] : List (List Byte)).length ≤ (fly 0x4B 8192 [] (strmW 1 []) : State).retain (63 : StreamId) + 65536) := ⟨fun y h => (by simp only [List.mem_cons, List.not_mem_nil, or_false] at h; rcases h with h | h <;> rw [h] <;> first | exact yealm0_len | decide +kernel), by decide, by decide, by decide +kernel, by decide +kernel, by decide +kernel, by decide +kernel, by decide +kernel⟩

/-- The hypotheses of StreamFeedStores, clause 2, are met. -/
theorem test_meets_StreamFeedStores_2 :
    ((∀ y ∈ ([yealm0] : List (List Byte)), y.length = 4096)) ∧
    (1 ≤ ([yealm0] : List (List Byte)).length) ∧
    (([yealm0] : List (List Byte)).length ≤ 256) ∧
    (comes (fly 0x4B 4096 [] ((strmW 1 []).p (K.sm_WR_PTR 63) 70000) : State) (some (tag0 : Tag)) .timing (.streamFeed (tag0 : Tag) ([yealm0] : List (List Byte)).flatten) = true) ∧
    (((fly 0x4B 4096 [] ((strmW 1 []).p (K.sm_WR_PTR 63) 70000) : State).queue? (tag0 : Tag).queue).bind Queue.bound = some (63 : StreamId)) ∧
    ((((fly 0x4B 4096 [] ((strmW 1 []).p (K.sm_WR_PTR 63) 70000) : State).strm (63 : StreamId)).held ≠ [] ∨ (((fly 0x4B 4096 [] ((strmW 1 []).p (K.sm_WR_PTR 63) 70000) : State).n (K.sm_STATE (63 : StreamId)) = StrmSt.opened ∨ (fly 0x4B 4096 [] ((strmW 1 []).p (K.sm_WR_PTR 63) 70000) : State).n (K.sm_STATE (63 : StreamId)) = StrmSt.active) ∧ (fly 0x4B 4096 [] ((strmW 1 []).p (K.sm_WR_PTR 63) 70000) : State).retain (63 : StreamId) + 65536 < (fly 0x4B 4096 [] ((strmW 1 []).p (K.sm_WR_PTR 63) 70000) : State).n (K.sm_WR_PTR (63 : StreamId)) + ([yealm0] : List (List Byte)).length))) := ⟨fun y h => (by rw [List.mem_singleton.mp h]; exact yealm0_len), by decide, by decide, by decide +kernel, by decide +kernel, by decide +kernel⟩

/-- The hypotheses of StreamFeedStores, clause 3, are met. -/
theorem test_meets_StreamFeedStores_3 :
    ((∀ y ∈ ([yealm0] : List (List Byte)), y.length = 4096)) ∧
    (1 ≤ ([yealm0] : List (List Byte)).length) ∧
    (([yealm0] : List (List Byte)).length ≤ 256) ∧
    (comes (fly 0x4B 4096 [] (strmW 3 []) : State) (some (tag0 : Tag)) .timing (.streamFeed (tag0 : Tag) ([yealm0] : List (List Byte)).flatten) = true) ∧
    (((fly 0x4B 4096 [] (strmW 3 []) : State).queue? (tag0 : Tag).queue).bind Queue.bound = some (63 : StreamId)) ∧
    (((fly 0x4B 4096 [] (strmW 3 []) : State).n (K.sm_STATE (63 : StreamId)) = StrmSt.ended ∨ (fly 0x4B 4096 [] (strmW 3 []) : State).n (K.sm_STATE (63 : StreamId)) = StrmSt.error)) ∧
    (((fly 0x4B 4096 [] (strmW 3 []) : State).strm (63 : StreamId)).held = []) := ⟨fun y h => (by rw [List.mem_singleton.mp h]; exact yealm0_len), by decide, by decide, by decide +kernel, by decide +kernel, by decide +kernel, by decide +kernel⟩

/-- The hypotheses of StreamFeedStores, clause 4, are met. -/
theorem test_meets_StreamFeedStores_4 :
    (timingOn (strmW 1 [{ tag := tag0, rest := [yealm0], stored := 0 }] : State) = true) ∧
    (((strmW 1 [{ tag := tag0, rest := [yealm0], stored := 0 }] : State).strm (63 : StreamId)).held = ({ tag := tag0, rest := [yealm0], stored := 0 } : Feed) :: ([] : List Feed)) ∧
    (((strmW 1 [{ tag := tag0, rest := [yealm0], stored := 0 }] : State).n (K.sm_STATE (63 : StreamId)) = StrmSt.opened ∨ (strmW 1 [{ tag := tag0, rest := [yealm0], stored := 0 }] : State).n (K.sm_STATE (63 : StreamId)) = StrmSt.active)) ∧
    (({ tag := tag0, rest := [yealm0], stored := 0 } : Feed).rest.length ≤ 256) ∧
    ((strmW 1 [{ tag := tag0, rest := [yealm0], stored := 0 }] : State).n (K.sm_WR_PTR (63 : StreamId)) + ({ tag := tag0, rest := [yealm0], stored := 0 } : Feed).rest.length ≤ (strmW 1 [{ tag := tag0, rest := [yealm0], stored := 0 }] : State).retain (63 : StreamId) + 65536) := ⟨by decide +kernel, rfl, by decide +kernel, by decide, by decide +kernel⟩

/-- The hypotheses of ControlStoreWriteReadVerify, clause 1, are met. -/
theorem test_meets_ControlStoreWriteReadVerify_1 :
    (comes (fly 0x50 40 [0x1FFFE, 2] up0 : State) (some (tag0 : Tag)) .timing (.csWrite (tag0 : Tag) (0x1FFFE : Nat) ([word0, word0] : List MWord)) = true) ∧
    (1 ≤ ([word0, word0] : List MWord).length) ∧
    (([word0, word0] : List MWord).length ≤ 4096) ∧
    (0x2000 ≤ (0x1FFFE : Nat)) ∧
    ((0x1FFFE : Nat) + ([word0, word0] : List MWord).length ≤ 0x20000) ∧
    (csBusy (fly 0x50 40 [0x1FFFE, 2] up0 : State) (0x1FFFE : Nat) ([word0, word0] : List MWord).length = false) ∧
    (([word0, word0] : List MWord).all (fun w => MW.loadCheck w == Status.OK) = true) := by decide +kernel

/-- The hypotheses of ControlStoreWriteReadVerify, clause 2, are met. -/
theorem test_meets_ControlStoreWriteReadVerify_2 :
    (comes (fly 0x50 40 [0x2000, 2] up0 : State) (some (tag0 : Tag)) .timing (.csWrite (tag0 : Tag) (0x2000 : Nat) ([word0, BitVec.allOnes 160] : List MWord)) = true) ∧
    ((1 : Nat) < ([word0, BitVec.allOnes 160] : List MWord).length) ∧
    (([word0, BitVec.allOnes 160] : List MWord).length ≤ 4096) ∧
    (0x2000 ≤ (0x2000 : Nat)) ∧
    ((0x2000 : Nat) + ([word0, BitVec.allOnes 160] : List MWord).length ≤ 0x20000) ∧
    (csBusy (fly 0x50 40 [0x2000, 2] up0 : State) (0x2000 : Nat) ([word0, BitVec.allOnes 160] : List MWord).length = false) ∧
    ((∀ j, j < (1 : Nat) → MW.loadCheck (([word0, BitVec.allOnes 160] : List MWord).getD j 0) = Status.OK)) ∧
    (MW.loadCheck (([word0, BitVec.allOnes 160] : List MWord).getD (1 : Nat) 0) ≠ Status.OK) := by decide +kernel

/-- The hypotheses of ControlStoreWriteReadVerify, clause 3, are met. -/
theorem test_meets_ControlStoreWriteReadVerify_3 :
    (comes (fly 0x50 20 [0x2000, 1] (objs [(K.st_STATE 0, 1)]) : State) (some (tag0 : Tag)) .timing (.csWrite (tag0 : Tag) (0x2000 : Nat) ([word0] : List MWord)) = true) ∧
    (1 ≤ ([word0] : List MWord).length) ∧
    (([word0] : List MWord).length ≤ 4096) ∧
    (((0x2000 : Nat) < 0x2000 ∨ 0x20000 < (0x2000 : Nat) + ([word0] : List MWord).length ∨ csBusy (fly 0x50 20 [0x2000, 1] (objs [(K.st_STATE 0, 1)]) : State) (0x2000 : Nat) ([word0] : List MWord).length = true)) := by decide +kernel

/-- The hypotheses of ControlStoreWriteReadVerify, clause 4, are met. -/
theorem test_meets_ControlStoreWriteReadVerify_4 :
    (comes (fly 0x51 40 [0x1FFFE, 2] up0 : State) (some (tag0 : Tag)) .timing (.csRead (tag0 : Tag) (0x1FFFE : Nat) (2 : Nat) ([(0x1FFFF, .double word0)] : List (Nat × CsErr))) = true) ∧
    (1 ≤ (2 : Nat)) ∧
    ((2 : Nat) ≤ 4096) ∧
    ((0x1FFFE : Nat) + (2 : Nat) ≤ 0x20000) := by decide +kernel

/-- The hypotheses of ControlStoreWriteReadVerify, clause 5, are met. -/
theorem test_meets_ControlStoreWriteReadVerify_5 :
    (comes (fly 0x52 12 [0x1FFFF, 1] up0 : State) (some (tag0 : Tag)) .timing (.csVerify (tag0 : Tag) (0x1FFFF : Nat) (1 : Nat) ([(0x1FFFF, .single)] : List (Nat × CsErr))) = true) ∧
    (1 ≤ (1 : Nat)) ∧
    ((1 : Nat) ≤ 131072) ∧
    ((0x1FFFF : Nat) + (1 : Nat) ≤ 0x20000) := by decide +kernel

/-- The hypotheses of ControlStoreWriteReadVerify, clause 8, are met. -/
theorem test_meets_ControlStoreWriteReadVerify_8 :
    (domRuns (up0 : State) .timing = true) ∧
    ((List.replicate 40 0 : List Byte).length % 20 = 0) ∧
    ((List.replicate 40 0 : List Byte).length ≤ 81920) ∧
    (0x2000 ≤ (up0 : State).n K.csa_CS_DOMAIN_ADDR) ∧
    ((up0 : State).n K.csa_CS_DOMAIN_ADDR + (List.replicate 40 0 : List Byte).length / 20 ≤ 0x20000) ∧
    (csBusy (up0 : State) ((up0 : State).n K.csa_CS_DOMAIN_ADDR) ((List.replicate 40 0 : List Byte).length / 20) = false) ∧
    ((wordsOf (List.replicate 40 0 : List Byte)).all (fun w => MW.loadCheck w == Status.OK) = true) := by decide +kernel

/-- The hypotheses of ControlStoreWriteReadVerify, clause 9, are met. -/
theorem test_meets_ControlStoreWriteReadVerify_9 :
    (domRuns (up0 : State) .timing = true) ∧
    ((List.replicate 20 0 ++ List.replicate 20 255 : List Byte).length % 20 = 0) ∧
    ((List.replicate 20 0 ++ List.replicate 20 255 : List Byte).length ≤ 81920) ∧
    ((1 : Nat) < (wordsOf (List.replicate 20 0 ++ List.replicate 20 255 : List Byte)).length) ∧
    (0x2000 ≤ (up0 : State).n K.csa_CS_DOMAIN_ADDR) ∧
    ((up0 : State).n K.csa_CS_DOMAIN_ADDR + (List.replicate 20 0 ++ List.replicate 20 255 : List Byte).length / 20 ≤ 0x20000) ∧
    (csBusy (up0 : State) ((up0 : State).n K.csa_CS_DOMAIN_ADDR) ((List.replicate 20 0 ++ List.replicate 20 255 : List Byte).length / 20) = false) ∧
    ((∀ j, j < (1 : Nat) → MW.loadCheck ((wordsOf (List.replicate 20 0 ++ List.replicate 20 255 : List Byte)).getD j 0) = Status.OK)) ∧
    (MW.loadCheck ((wordsOf (List.replicate 20 0 ++ List.replicate 20 255 : List Byte)).getD (1 : Nat) 0) ≠ Status.OK) := by decide +kernel

/-- The hypotheses of ControlStoreWriteReadVerify, clause 10, are met. -/
theorem test_meets_ControlStoreWriteReadVerify_10 :
    (domRuns (up0 : State) .timing = true) ∧
    ((([1] : List Byte).length % 20 ≠ 0 ∨ (up0 : State).n K.csa_CS_DOMAIN_ADDR < 0x2000 ∨ csBusy (up0 : State) ((up0 : State).n K.csa_CS_DOMAIN_ADDR) (wordsOf ([1] : List Byte)).length = true)) := by decide +kernel

/-- The hypotheses of ControlStoreWriteReadVerify are met (1). -/
theorem test_meets_ControlStoreWriteReadVerify_t1 :
    (fun s : State => (1 ≤ 2 ∧ 0x20000 < 0x1FFFF + 2) ∧ comes s (some tag0) .timing (.csVerify tag0 0x1FFFF 2 []) = true ∧ comes (fly 0x51 40 [0x1FFFF, 2] up0) (some tag0) .timing (.csRead tag0 0x1FFFF 2 []) = true) (fly 0x52 12 [0x1FFFF, 2] up0)  := by decide +kernel

/-- The hypotheses of SiteLoadArmUnload, clause 2, are met. -/
theorem test_meets_SiteLoadArmUnload_2 :
    (comes (fly 0x61 0 [2 ^ 31] (objs [(K.cf_CHAN_MASK 31 3, 1)]) : State) (some tag0 : Option Tag) .timing (.load (some tag0 : Option Tag) (oneSite (31 : SiteId))) = true) ∧
    ((fly 0x61 0 [2 ^ 31] (objs [(K.cf_CHAN_MASK 31 3, 1)]) : State).st (31 : SiteId) = SS.idle) ∧
    ((fly 0x61 0 [2 ^ 31] (objs [(K.cf_CHAN_MASK 31 3, 1)]) : State).chans (31 : SiteId) ≠ []) := by decide +kernel

/-- The hypotheses of SiteLoadArmUnload, clause 3, are met. -/
theorem test_meets_SiteLoadArmUnload_3 :
    (comes (up0 : State) (none : Option Tag) .timing (.load (none : Option Tag) (oneSite (31 : SiteId))) = true) ∧
    (((up0 : State).st (31 : SiteId) ≠ SS.idle ∨ (up0 : State).chans (31 : SiteId) = [])) := by decide +kernel

/-- The hypotheses of SiteLoadArmUnload, clause 4, are met. -/
theorem test_meets_SiteLoadArmUnload_4 :
    (comes (fly 0x63 0 [1] (objs [(K.st_STATE 0, 1), (K.cf_CHAN_MASK 0 0, 1), (K.ch_WITHY_LOCKED 0, 1), (K.cf_BOARD_RT 0, 64)]) : State) (some tag0 : Option Tag) .timing (.arm (some tag0 : Option Tag) (oneSite (0 : SiteId))) = true) ∧
    ((fly 0x63 0 [1] (objs [(K.st_STATE 0, 1), (K.cf_CHAN_MASK 0 0, 1), (K.ch_WITHY_LOCKED 0, 1), (K.cf_BOARD_RT 0, 64)]) : State).st (0 : SiteId) = SS.loaded) ∧
    ((armCheck (0 : SiteId) (siteBegun (some tag0 : Option Tag) (fly 0x63 0 [1] (objs [(K.st_STATE 0, 1), (K.cf_CHAN_MASK 0 0, 1), (K.ch_WITHY_LOCKED 0, 1), (K.cf_BOARD_RT 0, 64)]) : State))).1 = Status.OK) ∧
    (((fly 0x63 0 [1] (objs [(K.st_STATE 0, 1), (K.cf_CHAN_MASK 0 0, 1), (K.ch_WITHY_LOCKED 0, 1), (K.cf_BOARD_RT 0, 64)]) : State).chans (0 : SiteId)).all (fun (c : ChanId) => (fly 0x63 0 [1] (objs [(K.st_STATE 0, 1), (K.cf_CHAN_MASK 0 0, 1), (K.ch_WITHY_LOCKED 0, 1), (K.cf_BOARD_RT 0, 64)]) : State).b (K.ch_WITHY_LOCKED c)) = true) := by decide +kernel

/-- The hypotheses of SiteLoadArmUnload, clause 5, are met. -/
theorem test_meets_SiteLoadArmUnload_5 :
    (comes (objs [(K.st_STATE 0, 1), (K.cf_CHAN_MASK 0 0, 1), (K.sq_START_ADDR 0, 0x1000)] : State) (none : Option Tag) .timing (.arm (none : Option Tag) (oneSite (0 : SiteId))) = true) ∧
    ((objs [(K.st_STATE 0, 1), (K.cf_CHAN_MASK 0 0, 1), (K.sq_START_ADDR 0, 0x1000)] : State).st (0 : SiteId) = SS.loaded) ∧
    ((armCheck (0 : SiteId) (siteBegun (none : Option Tag) (objs [(K.st_STATE 0, 1), (K.cf_CHAN_MASK 0 0, 1), (K.sq_START_ADDR 0, 0x1000)] : State))).1 ≠ Status.OK) := by decide +kernel

/-- The hypotheses of SiteLoadArmUnload, clause 6, are met. -/
theorem test_meets_SiteLoadArmUnload_6 :
    (comes (fly 0x62 0 [2 ^ 31] (objs [(K.st_STATE 31, 1)]) : State) (some tag0 : Option Tag) .timing (.unload (some tag0 : Option Tag) (oneSite (31 : SiteId))) = true) ∧
    (((fly 0x62 0 [2 ^ 31] (objs [(K.st_STATE 31, 1)]) : State).st (31 : SiteId) = SS.loaded ∨ (fly 0x62 0 [2 ^ 31] (objs [(K.st_STATE 31, 1)]) : State).st (31 : SiteId) = SS.stopped ∨ ((fly 0x62 0 [2 ^ 31] (objs [(K.st_STATE 31, 1)]) : State).st (31 : SiteId) = SS.faulted ∧ siteFaultOpen (siteBegun (some tag0 : Option Tag) (fly 0x62 0 [2 ^ 31] (objs [(K.st_STATE 31, 1)]) : State)) (31 : SiteId) = false))) ∧
    (((fly 0x62 0 [2 ^ 31] (objs [(K.st_STATE 31, 1)]) : State).site (31 : SiteId)).refs = []) := by decide +kernel

/-- The hypotheses of SiteLoadArmUnload, clause 7, are met. -/
theorem test_meets_SiteLoadArmUnload_7 :
    (comes ((siteW 31 { refs := [(false, 65535)] } [(K.st_STATE 31, 5)]).setSeg 65535 { st := .active, refs := 1 } : State) (none : Option Tag) .timing (.reset (none : Option Tag) (oneSite (31 : SiteId))) = true) ∧
    ((((siteW 31 { refs := [(false, 65535)] } [(K.st_STATE 31, 5)]).setSeg 65535 { st := .active, refs := 1 } : State).st (31 : SiteId) = SS.stopped ∨ (((siteW 31 { refs := [(false, 65535)] } [(K.st_STATE 31, 5)]).setSeg 65535 { st := .active, refs := 1 } : State).st (31 : SiteId) = SS.faulted ∧ siteFaultOpen (siteBegun (none : Option Tag) ((siteW 31 { refs := [(false, 65535)] } [(K.st_STATE 31, 5)]).setSeg 65535 { st := .active, refs := 1 } : State)) (31 : SiteId) = false))) ∧
    ((((siteW 31 { refs := [(false, 65535)] } [(K.st_STATE 31, 5)]).setSeg 65535 { st := .active, refs := 1 } : State).site (31 : SiteId)).refs = [(false, (65535 : Nat))]) ∧
    (((siteW 31 { refs := [(false, 65535)] } [(K.st_STATE 31, 5)]).setSeg 65535 { st := .active, refs := 1 } : State).seg? (65535 : Nat) = some ({ st := .active, refs := 1 } : Seg)) ∧
    (({ st := .active, refs := 1 } : Seg).st = .active) ∧
    (({ st := .active, refs := 1 } : Seg).refs = 1) := by decide +kernel

/-- The hypotheses of SiteLoadArmUnload are met (1). -/
theorem test_meets_SiteLoadArmUnload_t1 :
    comes up0 none .timing (.load none 3) = true ∧ [SS.loaded].contains (up0.st 31) = false ∧ comes up0 none .timing (.arm none (oneSite 31)) = true  := by decide +kernel

/-- The hypotheses of SiteRunCommands, clause 1, are met. -/
theorem test_meets_SiteRunCommands_1 :
    (comes (fly 0x64 0 [0x80000001] (objs [(K.st_STATE 31, 2), (K.st_STATE 0, 2)]) : State) (some tag0 : Option Tag) .timing (.start (some tag0 : Option Tag) (0x80000001#32 : SiteMask)) = true) ∧
    ((0x80000001#32 : SiteMask) ≠ 0) ∧
    ((∀ i ∈ sitesOf (0x80000001#32 : SiteMask), (fly 0x64 0 [0x80000001] (objs [(K.st_STATE 31, 2), (K.st_STATE 0, 2)]) : State).st i = SS.armed ∧ (fly 0x64 0 [0x80000001] (objs [(K.st_STATE 31, 2), (K.st_STATE 0, 2)]) : State).g (K.cf_START_MODE i) ≠ 1)) := by decide +kernel

/-- The hypotheses of SiteRunCommands, clause 2, are met. -/
theorem test_meets_SiteRunCommands_2 :
    (comes (objs [(K.st_STATE 31, 2), (K.st_STATE 0, 3)] : State) (none : Option Tag) .timing (.start (none : Option Tag) (0x80000001#32 : SiteMask)) = true) ∧
    ((0 : SiteId) ∈ sitesOf (0x80000001#32 : SiteMask)) ∧
    (((objs [(K.st_STATE 31, 2), (K.st_STATE 0, 3)] : State).st (0 : SiteId) ≠ SS.armed ∨ (objs [(K.st_STATE 31, 2), (K.st_STATE 0, 3)] : State).g (K.cf_START_MODE (0 : SiteId)) = 1)) := by decide +kernel

/-- The hypotheses of SiteRunCommands, clause 3, are met. -/
theorem test_meets_SiteRunCommands_3 :
    (comes (fly 0x65 0 [2 ^ 31] (objs [(K.st_STATE 31, 3), (K.cf_PAUSABLE 31, 1)]) : State) (some tag0 : Option Tag) .timing (.pause (some tag0 : Option Tag) (oneSite (31 : SiteId))) = true) ∧
    ((fly 0x65 0 [2 ^ 31] (objs [(K.st_STATE 31, 3), (K.cf_PAUSABLE 31, 1)]) : State).st (31 : SiteId) = SS.running) ∧
    ((fly 0x65 0 [2 ^ 31] (objs [(K.st_STATE 31, 3), (K.cf_PAUSABLE 31, 1)]) : State).b (K.cf_PAUSABLE (31 : SiteId)) = true) := by decide +kernel

/-- The hypotheses of SiteRunCommands, clause 4, are met. -/
theorem test_meets_SiteRunCommands_4 :
    (comes (objs [(K.st_STATE 31, 3)] : State) (none : Option Tag) .timing (.pause (none : Option Tag) (oneSite (31 : SiteId))) = true) ∧
    (((objs [(K.st_STATE 31, 3)] : State).st (31 : SiteId) ≠ SS.running ∨ (objs [(K.st_STATE 31, 3)] : State).b (K.cf_PAUSABLE (31 : SiteId)) = false)) := by decide +kernel

/-- The hypotheses of SiteRunCommands, clause 5, are met. -/
theorem test_meets_SiteRunCommands_5 :
    (comes (fly 0x66 0 [2 ^ 31] (objs [(K.st_STATE 31, 4)]) : State) (some tag0 : Option Tag) .timing (.resume (some tag0 : Option Tag) (oneSite (31 : SiteId))) = true) ∧
    ((fly 0x66 0 [2 ^ 31] (objs [(K.st_STATE 31, 4)]) : State).st (31 : SiteId) = SS.paused) := by decide +kernel

/-- The hypotheses of SiteRunCommands, clause 6, are met. -/
theorem test_meets_SiteRunCommands_6 :
    (comes (fly 0x67 0 [2 ^ 31] (objs [(K.st_STATE 31, 3)]) : State) (some tag0 : Option Tag) .timing (.stop (some tag0 : Option Tag) (oneSite (31 : SiteId))) = true) ∧
    ((fly 0x67 0 [2 ^ 31] (objs [(K.st_STATE 31, 3)]) : State).st (31 : SiteId) = SS.running) := by decide +kernel

/-- The hypotheses of SiteRunCommands, clause 7, are met. -/
theorem test_meets_SiteRunCommands_7 :
    (comes (fly 0x68 0 [2 ^ 31] (objs [(K.st_STATE 31, 3)]) : State) (some tag0 : Option Tag) .timing (.abort (some tag0 : Option Tag) (oneSite (31 : SiteId))) = true) ∧
    ((fly 0x68 0 [2 ^ 31] (objs [(K.st_STATE 31, 3)]) : State).st (31 : SiteId) = SS.running) ∧
    (((fly 0x68 0 [2 ^ 31] (objs [(K.st_STATE 31, 3)]) : State).n (K.sr_PENDING_INT (31 : SiteId))).testBit 0 = false) := by decide +kernel

/-- The hypotheses of SiteRunCommands, clause 8, are met. -/
theorem test_meets_SiteRunCommands_8 :
    (comes (objs [(K.st_STATE 31, 2)] : State) (none : Option Tag) .timing (.stop (none : Option Tag) (oneSite (31 : SiteId))) = true) ∧
    (((objs [(K.st_STATE 31, 2)] : State).st (31 : SiteId) = SS.armed ∨ (objs [(K.st_STATE 31, 2)] : State).st (31 : SiteId) = SS.paused)) := by decide +kernel

/-- The hypotheses of SiteRunCommands, clause 9, are met. -/
theorem test_meets_SiteRunCommands_9 :
    (comes (objs [(K.st_STATE 31, 4)] : State) (none : Option Tag) .timing (.abort (none : Option Tag) (oneSite (31 : SiteId))) = true) ∧
    (((objs [(K.st_STATE 31, 4)] : State).st (31 : SiteId) = SS.armed ∨ (objs [(K.st_STATE 31, 4)] : State).st (31 : SiteId) = SS.paused)) := by decide +kernel

/-- The hypotheses of SiteRunCommands are met (1). -/
theorem test_meets_SiteRunCommands_t1 :
    (fun s : State => comes s none .timing (.abort none (oneSite 31)) = true ∧ s.active 31 = false) up0  := by decide +kernel

/-- The hypotheses of SiteTransitions, clause 1, are met. -/
theorem test_meets_SiteTransitions_1 :
    (timingOn (siteW 31 { fifo := List.replicate 21 frame0 } [(K.st_STATE 31, 2)] : State) = true) ∧
    ((siteW 31 { fifo := List.replicate 21 frame0 } [(K.st_STATE 31, 2)] : State).st (31 : SiteId) = SS.armed) ∧
    (((siteW 31 { fifo := List.replicate 21 frame0 } [(K.st_STATE 31, 2)] : State).site (31 : SiteId)).stall = none) ∧
    ((((siteW 31 { fifo := List.replicate 21 frame0 } [(K.st_STATE 31, 2)] : State).site (31 : SiteId)).fifo.length = 21 ∨ ((siteW 31 { fifo := List.replicate 21 frame0 } [(K.st_STATE 31, 2)] : State).site (31 : SiteId)).halted = true ∨ ((siteW 31 { fifo := List.replicate 21 frame0 } [(K.st_STATE 31, 2)] : State).site (31 : SiteId)).pausing = true)) ∧
    (stagingFull (siteW 31 { fifo := List.replicate 21 frame0 } [(K.st_STATE 31, 2)] : State) (31 : SiteId) = true) ∧
    (calFree (siteW 31 { fifo := List.replicate 21 frame0 } [(K.st_STATE 31, 2)] : State) (31 : SiteId) = true) ∧
    (headsLoaded (siteW 31 { fifo := List.replicate 21 frame0 } [(K.st_STATE 31, 2)] : State) (31 : SiteId) = true) ∧
    (waitsEvent (siteW 31 { fifo := List.replicate 21 frame0 } [(K.st_STATE 31, 2)] : State) (31 : SiteId) = false) := by decide +kernel

/-- The hypotheses of SiteTransitions, clause 2, are met. -/
theorem test_meets_SiteTransitions_2 :
    (timingOn ((fun s : State => { s with mem := { s.mem with starts := [0x80000001#32] } }) (objs [(K.st_STATE 31, 2), (K.st_READY 31, 1), (K.st_STATE 0, 2), (K.st_READY 0, 1)]) : State) = true) ∧
    (((fun s : State => { s with mem := { s.mem with starts := [0x80000001#32] } }) (objs [(K.st_STATE 31, 2), (K.st_READY 31, 1), (K.st_STATE 0, 2), (K.st_READY 0, 1)]) : State).mem.starts.contains (0x80000001#32 : SiteMask) = true) ∧
    ((∀ i ∈ sitesOf (0x80000001#32 : SiteMask), ((fun s : State => { s with mem := { s.mem with starts := [0x80000001#32] } }) (objs [(K.st_STATE 31, 2), (K.st_READY 31, 1), (K.st_STATE 0, 2), (K.st_READY 0, 1)]) : State).st i = SS.armed ∧ ((fun s : State => { s with mem := { s.mem with starts := [0x80000001#32] } }) (objs [(K.st_STATE 31, 2), (K.st_READY 31, 1), (K.st_STATE 0, 2), (K.st_READY 0, 1)]) : State).b (K.st_READY i) = true)) := by decide +kernel

/-- The hypotheses of SiteTransitions, clause 3, are met. -/
theorem test_meets_SiteTransitions_3 :
    (timingOn ((fun s : State => { s with mem := { s.mem with starts := [oneSite 31] } }) (siteW 31 { fifo := [frame0] } [(K.st_STATE 31, 2), (K.st_READY 31, 1)]) : State) = true) ∧
    (((fun s : State => { s with mem := { s.mem with starts := [oneSite 31] } }) (siteW 31 { fifo := [frame0] } [(K.st_STATE 31, 2), (K.st_READY 31, 1)]) : State).mem.starts = [oneSite (31 : SiteId)]) ∧
    (((fun s : State => { s with mem := { s.mem with starts := [oneSite 31] } }) (siteW 31 { fifo := [frame0] } [(K.st_STATE 31, 2), (K.st_READY 31, 1)]) : State).st (31 : SiteId) = SS.armed) ∧
    (((fun s : State => { s with mem := { s.mem with starts := [oneSite 31] } }) (siteW 31 { fifo := [frame0] } [(K.st_STATE 31, 2), (K.st_READY 31, 1)]) : State).b (K.st_READY (31 : SiteId)) = true) ∧
    ((((fun s : State => { s with mem := { s.mem with starts := [oneSite 31] } }) (siteW 31 { fifo := [frame0] } [(K.st_STATE 31, 2), (K.st_READY 31, 1)]) : State).site (31 : SiteId)).fifo = (frame0 : Frame) :: ([] : List Frame)) ∧
    (Takes (31 : SiteId) (frame0 : Frame) (startState (31 : SiteId) ((fun s : State => { s with mem := { s.mem with starts := [oneSite 31] } }) (siteW 31 { fifo := [frame0] } [(K.st_STATE 31, 2), (K.st_READY 31, 1)]) : State))) := by decide +kernel

/-- The hypotheses of SiteTransitions, clause 4, are met. -/
theorem test_meets_SiteTransitions_4 :
    (timingOn (siteW 31 { stopAt := some (5, 1) } [(K.st_STATE 31, 3)] : State) = true) ∧
    ((siteW 31 { stopAt := some (5, 1) } [(K.st_STATE 31, 3)] : State).st (31 : SiteId) = SS.running) ∧
    (((siteW 31 { stopAt := some (5, 1) } [(K.st_STATE 31, 3)] : State).site (31 : SiteId)).halted = true) ∧
    (drained ((siteW 31 { stopAt := some (5, 1) } [(K.st_STATE 31, 3)] : State).site (31 : SiteId)) = true) := by decide +kernel

/-- The hypotheses of SiteTransitions, clause 5, are met. -/
theorem test_meets_SiteTransitions_5 :
    (timingOn (siteW 31 { pausing := true } [(K.st_STATE 31, 3), (K.sr_PENDING_INT 31, 4)] : State) = true) ∧
    ((siteW 31 { pausing := true } [(K.st_STATE 31, 3), (K.sr_PENDING_INT 31, 4)] : State).st (31 : SiteId) = SS.running) ∧
    (((siteW 31 { pausing := true } [(K.st_STATE 31, 3), (K.sr_PENDING_INT 31, 4)] : State).site (31 : SiteId)).pausing = true) ∧
    (drained ((siteW 31 { pausing := true } [(K.st_STATE 31, 3), (K.sr_PENDING_INT 31, 4)] : State).site (31 : SiteId)) = true) ∧
    (((siteW 31 { pausing := true } [(K.st_STATE 31, 3), (K.sr_PENDING_INT 31, 4)] : State).n (K.sr_PENDING_INT (31 : SiteId))).testBit 0 = false) ∧
    (((siteW 31 { pausing := true } [(K.st_STATE 31, 3), (K.sr_PENDING_INT 31, 4)] : State).n (K.sr_PENDING_INT (31 : SiteId))).testBit 1 = false) := by decide +kernel

/-- The hypotheses of SiteTransitions, clause 6, are met. -/
theorem test_meets_SiteTransitions_6 :
    (timingOn (siteW 31 { resuming := true, fifo := List.replicate 16 { pad := true } } [(K.st_STATE 31, 4)] : State) = true) ∧
    ((siteW 31 { resuming := true, fifo := List.replicate 16 { pad := true } } [(K.st_STATE 31, 4)] : State).st (31 : SiteId) = SS.paused) ∧
    (((siteW 31 { resuming := true, fifo := List.replicate 16 { pad := true } } [(K.st_STATE 31, 4)] : State).site (31 : SiteId)).resuming = true) ∧
    (mayTake ((siteW 31 { resuming := true, fifo := List.replicate 16 { pad := true } } [(K.st_STATE 31, 4)] : State).site (31 : SiteId)) = true) ∧
    (((siteW 31 { resuming := true, fifo := List.replicate 16 { pad := true } } [(K.st_STATE 31, 4)] : State).site (31 : SiteId)).fifo = ({ pad := true } : Frame) :: (List.replicate 15 { pad := true } : List Frame)) ∧
    (({ pad := true } : Frame).pad = true) ∧
    (tsetsValid ({ pad := true } : Frame) (31 : SiteId) = true) ∧
    ((siteW 31 { resuming := true, fifo := List.replicate 16 { pad := true } } [(K.st_STATE 31, 4)] : State).g (K.st_PAUSES (31 : SiteId)) < 4294967295) := by decide +kernel

/-- The hypotheses of CsWriteOverWindowIsBusy, clause 1, are met. -/
theorem test_meets_CsWriteOverWindowIsBusy_1 :
    (comes (fly 0x50 20 [0x1FFFF, 1] (objs [(K.st_STATE 31, 1)]) : State) (some (tag0 : Tag)) .timing (.csWrite (tag0 : Tag) (0x1FFFF : Nat) ([word0] : List MWord)) = true) ∧
    ((fly 0x50 20 [0x1FFFF, 1] (objs [(K.st_STATE 31, 1)]) : State).st (31 : SiteId) ≠ SS.idle) ∧
    ((fly 0x50 20 [0x1FFFF, 1] (objs [(K.st_STATE 31, 1)]) : State).n (K.sq_WIN_BASE (31 : SiteId)) < (0x1FFFF : Nat) + ([word0] : List MWord).length) ∧
    ((0x1FFFF : Nat) ≤ (fly 0x50 20 [0x1FFFF, 1] (objs [(K.st_STATE 31, 1)]) : State).n (K.sq_WIN_LIMIT (31 : SiteId))) ∧
    (1 ≤ ([word0] : List MWord).length) ∧
    (([word0] : List MWord).length ≤ 4096) ∧
    (0x2000 ≤ (0x1FFFF : Nat)) ∧
    ((0x1FFFF : Nat) + ([word0] : List MWord).length ≤ 0x20000) := by decide +kernel

/-- The hypotheses of WordsContJmpCallRetLoop, clause 2, are met. -/
theorem test_meets_WordsContJmpCallRetLoop_2 :
    ((.single : Ecc) ≠ .double) ∧
    (Executes (31 : SiteId) (wordW 0 0 : MWord) (exeW (wordW 0 0) true : Exec) (seqW (wordW 0 0) {} [] : State)) ∧
    (MW.op (wordW 0 0 : MWord) = 0) ∧
    ((exeW (wordW 0 0) true : Exec).left = 0) := by decide +kernel

/-- The hypotheses of WordsContJmpCallRetLoop, clause 3, are met. -/
theorem test_meets_WordsContJmpCallRetLoop_3 :
    ((.ok : Ecc) ≠ .double) ∧
    (Executes (31 : SiteId) (wordW 1 (0x1FFFF * 2 ^ 129) : MWord) (exeW (wordW 1 (0x1FFFF * 2 ^ 129)) true : Exec) (seqW (wordW 1 (0x1FFFF * 2 ^ 129)) {} [] : State)) ∧
    (MW.op (wordW 1 (0x1FFFF * 2 ^ 129) : MWord) = 1) ∧
    ((exeW (wordW 1 (0x1FFFF * 2 ^ 129)) true : Exec).left = 0) := by decide +kernel

/-- The hypotheses of WordsContJmpCallRetLoop, clause 4, are met. -/
theorem test_meets_WordsContJmpCallRetLoop_4 :
    ((.ok : Ecc) ≠ .double) ∧
    (Executes (31 : SiteId) (wordW 2 (0x2100 * 2 ^ 129) : MWord) (exeW (wordW 2 (0x2100 * 2 ^ 129)) true : Exec) (seqW (wordW 2 (0x2100 * 2 ^ 129)) {} [] : State)) ∧
    (MW.op (wordW 2 (0x2100 * 2 ^ 129) : MWord) = 2) ∧
    ((exeW (wordW 2 (0x2100 * 2 ^ 129)) true : Exec).left = 0) := by decide +kernel

/-- The hypotheses of WordsContJmpCallRetLoop, clause 5, are met. -/
theorem test_meets_WordsContJmpCallRetLoop_5 :
    ((.ok : Ecc) ≠ .double) ∧
    (Executes (31 : SiteId) (wordW 3 0 : MWord) (exeW (wordW 3 0) true : Exec) (seqW (wordW 3 0) { stack := [(0x2222, none)] } [] : State)) ∧
    (MW.op (wordW 3 0 : MWord) = 3) ∧
    ((exeW (wordW 3 0) true : Exec).left = 0) ∧
    (((seqW (wordW 3 0) { stack := [(0x2222, none)] } [] : State).site (31 : SiteId)).stack = ((0x2222 : Nat), (none : Option (Nat × Nat))) :: ([] : List (Nat × Option (Nat × Nat)))) := by decide +kernel

/-- The hypotheses of WordsContJmpCallRetLoop, clause 6, are met. -/
theorem test_meets_WordsContJmpCallRetLoop_6 :
    ((.ok : Ecc) ≠ .double) ∧
    (Executes (31 : SiteId) (wordW 4 (0x2100 * 2 ^ 129 + 15 * 2 ^ 125) : MWord) (exeW (wordW 4 (0x2100 * 2 ^ 129 + 15 * 2 ^ 125)) true : Exec) (seqW (wordW 4 (0x2100 * 2 ^ 129 + 15 * 2 ^ 125)) {} [(K.lc_LC 31 15, 2)] : State)) ∧
    (MW.op (wordW 4 (0x2100 * 2 ^ 129 + 15 * 2 ^ 125) : MWord) = 4) ∧
    (MW.lcop (wordW 4 (0x2100 * 2 ^ 129 + 15 * 2 ^ 125) : MWord) = 0) ∧
    ((exeW (wordW 4 (0x2100 * 2 ^ 129 + 15 * 2 ^ 125)) true : Exec).left = 0) ∧
    (0 ≤ (seqW (wordW 4 (0x2100 * 2 ^ 129 + 15 * 2 ^ 125)) {} [(K.lc_LC 31 15, 2)] : State).g (K.lc_LC (31 : SiteId) (MW.lcsel (wordW 4 (0x2100 * 2 ^ 129 + 15 * 2 ^ 125) : MWord)))) := by decide +kernel

/-- The hypotheses of WordsContJmpCallRetLoop are met (1). -/
theorem test_meets_WordsContJmpCallRetLoop_t1 :
    (.ok : Ecc) ≠ .double ∧ Executes 31 (wordW 0 (2 ^ 102)) ⟨0x2000, wordW 0 (2 ^ 102), 0, true, 1, none, false, false⟩ (seqW (wordW 0 (2 ^ 102)) {} []) ∧ MW.op (wordW 0 (2 ^ 102)) = 0 := by decide +kernel

/-- The hypotheses of WordsContJmpCallRetLoop are met (2). -/
theorem test_meets_WordsContJmpCallRetLoop_t2 :
    seqRuns (seqW (wordW 0 0) {} []) 31 = true ∧ kget? (seqW (wordW 0 0) {} []).mem.cs ((seqW (wordW 0 0) {} []).site 31).next = some (wordW 0 0) ∧ mayExecute (seqW (wordW 0 0) {} []) 31 0x2000 = true ∧ seqRuns (seqW (wordW 0 0) { next := 0x3000 } []) 31 = true ∧ kget? (seqW (wordW 0 0) { next := 0x3000 } []).mem.cs 0x3000 = none  := by decide +kernel

/-- The hypotheses of WordsWaitHaltPauseHostevt, clause 1, are met. -/
theorem test_meets_WordsWaitHaltPauseHostevt_1 :
    ((.ok : Ecc) ≠ .double) ∧
    (Executes (31 : SiteId) (wordW 5 (1 * 2 ^ 147) : MWord) (exeW (wordW 5 (1 * 2 ^ 147)) true : Exec) (seqW (wordW 5 (1 * 2 ^ 147)) {} [] : State)) ∧
    (MW.op (wordW 5 (1 * 2 ^ 147) : MWord) = 5) ∧
    ((exeW (wordW 5 (1 * 2 ^ 147)) true : Exec).left = 0) := by decide +kernel

/-- The hypotheses of WordsWaitHaltPauseHostevt, clause 2, are met. -/
theorem test_meets_WordsWaitHaltPauseHostevt_2 :
    ((.single : Ecc) ≠ .double) ∧
    (Executes (31 : SiteId) (wordW 6 (0x2100 * 2 ^ 129 + 0x10 * 2 ^ 147) : MWord) (exeW (wordW 6 (0x2100 * 2 ^ 129 + 0x10 * 2 ^ 147)) false : Exec) (seqW (wordW 6 (0x2100 * 2 ^ 129 + 0x10 * 2 ^ 147)) {} [(K.lc_LC 31 0, 1)] : State)) ∧
    (MW.op (wordW 6 (0x2100 * 2 ^ 129 + 0x10 * 2 ^ 147) : MWord) = 6) ∧
    (MW.lcop (wordW 6 (0x2100 * 2 ^ 129 + 0x10 * 2 ^ 147) : MWord) = 0) ∧
    ((exeW (wordW 6 (0x2100 * 2 ^ 129 + 0x10 * 2 ^ 147)) false : Exec).left = 0) ∧
    (0 ≤ (seqW (wordW 6 (0x2100 * 2 ^ 129 + 0x10 * 2 ^ 147)) {} [(K.lc_LC 31 0, 1)] : State).g (K.lc_LC (31 : SiteId) (MW.lcsel (wordW 6 (0x2100 * 2 ^ 129 + 0x10 * 2 ^ 147) : MWord)))) := by decide +kernel

/-- The hypotheses of WordsWaitHaltPauseHostevt, clause 3, are met. -/
theorem test_meets_WordsWaitHaltPauseHostevt_3 :
    ((.ok : Ecc) ≠ .double) ∧
    (Executes (31 : SiteId) (wordW 7 0 : MWord) (exeW (wordW 7 0) true : Exec) (seqW (wordW 7 0) {} [] : State)) ∧
    (GoesOn (31 : SiteId) (wordW 7 0 : MWord) (seqW (wordW 7 0) {} [] : State)) ∧
    (MW.op (wordW 7 0 : MWord) = 7) ∧
    ((exeW (wordW 7 0) true : Exec).left = 0) := by decide +kernel

/-- The hypotheses of WordsWaitHaltPauseHostevt, clause 4, are met. -/
theorem test_meets_WordsWaitHaltPauseHostevt_4 :
    ((.ok : Ecc) ≠ .double) ∧
    (Executes (31 : SiteId) (wordW 8 0 : MWord) (exeW (wordW 8 0) true : Exec) (seqW (wordW 8 0) {} [(K.cf_PAUSABLE 31, 1)] : State)) ∧
    (GoesOn (31 : SiteId) (wordW 8 0 : MWord) (seqW (wordW 8 0) {} [(K.cf_PAUSABLE 31, 1)] : State)) ∧
    (MW.op (wordW 8 0 : MWord) = 8) ∧
    ((exeW (wordW 8 0) true : Exec).left = 0) := by decide +kernel

/-- The hypotheses of WordsWaitHaltPauseHostevt, clause 5, are met. -/
theorem test_meets_WordsWaitHaltPauseHostevt_5 :
    ((.ok : Ecc) ≠ .double) ∧
    (Executes (31 : SiteId) (wordW 9 (2 ^ 118 + 8 * 0xFFFF) : MWord) (exeW (wordW 9 (2 ^ 118 + 8 * 0xFFFF)) true : Exec) (seqW (wordW 9 (2 ^ 118 + 8 * 0xFFFF)) {} [] : State)) ∧
    (MW.op (wordW 9 (2 ^ 118 + 8 * 0xFFFF) : MWord) = 9) ∧
    (MW.vop (wordW 9 (2 ^ 118 + 8 * 0xFFFF) : MWord) = 1) ∧
    ((exeW (wordW 9 (2 ^ 118 + 8 * 0xFFFF)) true : Exec).left = 0) ∧
    (((seqW (wordW 9 (2 ^ 118 + 8 * 0xFFFF)) {} [] : State).site (31 : SiteId)).pad = none) ∧
    (((seqW (wordW 9 (2 ^ 118 + 8 * 0xFFFF)) {} [] : State).site (31 : SiteId)).evFifo.length < 64) := by decide +kernel

/-- The hypotheses of SequencerParksAndStallEnds, clause 1, are met. -/
theorem test_meets_SequencerParksAndStallEnds_1 :
    (timingOn ({ (siteW 31 { } [(K.st_STATE 31, 3), (K.sr_PENDING_INT 31, 1)]) with now := 10000000 } : State) = true) ∧
    (({ (siteW 31 { } [(K.st_STATE 31, 3), (K.sr_PENDING_INT 31, 1)]) with now := 10000000 } : State).st (31 : SiteId) = SS.running) ∧
    ((({ (siteW 31 { } [(K.st_STATE 31, 3), (K.sr_PENDING_INT 31, 1)]) with now := 10000000 } : State).n (K.sr_PENDING_INT (31 : SiteId))).testBit 0 = true) ∧
    (({ (siteW 31 { } [(K.st_STATE 31, 3), (K.sr_PENDING_INT 31, 1)]) with now := 10000000 } : State).n (K.sq_ABORT_WAIT (31 : SiteId)) < (({ (siteW 31 { } [(K.st_STATE 31, 3), (K.sr_PENDING_INT 31, 1)]) with now := 10000000 } : State).now - (({ (siteW 31 { } [(K.st_STATE 31, 3), (K.sr_PENDING_INT 31, 1)]) with now := 10000000 } : State).site (31 : SiteId)).abortAt) * 1250000) := by decide +kernel

/-- The hypotheses of SequencerParksAndStallEnds, clause 2, are met. -/
theorem test_meets_SequencerParksAndStallEnds_2 :
    (timingOn (siteW 31 { } [(K.st_STATE 31, 3), (K.sr_SINCE_SAFE 31, 4096)] : State) = true) ∧
    ((siteW 31 { } [(K.st_STATE 31, 3), (K.sr_SINCE_SAFE 31, 4096)] : State).active (31 : SiteId) = true) ∧
    (4096 ≤ (siteW 31 { } [(K.st_STATE 31, 3), (K.sr_SINCE_SAFE 31, 4096)] : State).n (K.sr_SINCE_SAFE (31 : SiteId))) := by decide +kernel

/-- The hypotheses of SequencerParksAndStallEnds, clause 3, are met. -/
theorem test_meets_SequencerParksAndStallEnds_3 :
    (timingOn (objs [(K.st_STATE 31, 4)] : State) = true) ∧
    ((objs [(K.st_STATE 31, 4)] : State).active (31 : SiteId) = true) := by decide +kernel

/-- The hypotheses of SequencerParksAndStallEnds, clause 4, are met. -/
theorem test_meets_SequencerParksAndStallEnds_4 :
    (timingOn (siteW 31 { stall := some { word := wordW 0 (2 ^ 118), num := 0, first := true, entry := 0, ord := 0 } } [(K.st_STATE 31, 3)] : State) = true) ∧
    (((siteW 31 { stall := some { word := wordW 0 (2 ^ 118), num := 0, first := true, entry := 0, ord := 0 } } [(K.st_STATE 31, 3)] : State).site (31 : SiteId)).stall = some ({ word := wordW 0 (2 ^ 118), num := 0, first := true, entry := 0, ord := 0 } : Stall)) ∧
    ((siteW 31 { stall := some { word := wordW 0 (2 ^ 118), num := 0, first := true, entry := 0, ord := 0 } } [(K.st_STATE 31, 3)] : State).active (31 : SiteId) = true) ∧
    (dataReady (siteW 31 { stall := some { word := wordW 0 (2 ^ 118), num := 0, first := true, entry := 0, ord := 0 } } [(K.st_STATE 31, 3)] : State) (31 : SiteId) ({ word := wordW 0 (2 ^ 118), num := 0, first := true, entry := 0, ord := 0 } : Stall) = true) ∧
    (MW.apply ({ word := wordW 0 (2 ^ 118), num := 0, first := true, entry := 0, ord := 0 } : Stall).word = false) := by decide +kernel

/-- The hypotheses of SupplyFetchRefillPatrol, clause 1, are met. -/
theorem test_meets_SupplyFetchRefillPatrol_1 :
    (timingOn ((siteW 31 { entry := 63 } [(K.st_STATE 31, 2), (K.sl_SOURCE_ENTRY 31 63, 2 ^ 31 + 2 ^ 30 + 63), (K.sm_WR_PTR 63, 1)]).setStrm 63 { base := [(0, 0)], nextOrd := 1 } : State) = true) ∧
    (((siteW 31 { entry := 63 } [(K.st_STATE 31, 2), (K.sl_SOURCE_ENTRY 31 63, 2 ^ 31 + 2 ^ 30 + 63), (K.sm_WR_PTR 63, 1)]).setStrm 63 { base := [(0, 0)], nextOrd := 1 } : State).active (31 : SiteId) = true) ∧
    (Store.source ((siteW 31 { entry := 63 } [(K.st_STATE 31, 2), (K.sl_SOURCE_ENTRY 31 63, 2 ^ 31 + 2 ^ 30 + 63), (K.sm_WR_PTR 63, 1)]).setStrm 63 { base := [(0, 0)], nextOrd := 1 } : State).od (31 : SiteId) (63 : Fin 64) = some (true, (63 : Nat))) ∧
    ((63 : Nat) < 64) ∧
    (wanted ((siteW 31 { entry := 63 } [(K.st_STATE 31, 2), (K.sl_SOURCE_ENTRY 31 63, 2 ^ 31 + 2 ^ 30 + 63), (K.sm_WR_PTR 63, 1)]).setStrm 63 { base := [(0, 0)], nextOrd := 1 } : State) (31 : SiteId) (63 : Fin 64) (0 : Nat) = true) ∧
    ((0 : Nat) < ((siteW 31 { entry := 63 } [(K.st_STATE 31, 2), (K.sl_SOURCE_ENTRY 31 63, 2 ^ 31 + 2 ^ 30 + 63), (K.sm_WR_PTR 63, 1)]).setStrm 63 { base := [(0, 0)], nextOrd := 1 } : State).n (K.sm_WR_PTR (63 : Nat))) ∧
    (((siteW 31 { entry := 63 } [(K.st_STATE 31, 2), (K.sl_SOURCE_ENTRY 31 63, 2 ^ 31 + 2 ^ 30 + 63), (K.sm_WR_PTR 63, 1)]).setStrm 63 { base := [(0, 0)], nextOrd := 1 } : State).n (K.sm_WR_PTR (63 : Nat)) ≤ (0 : Nat) + 65536) ∧
    (((siteW 31 { entry := 63 } [(K.st_STATE 31, 2), (K.sl_SOURCE_ENTRY 31 63, 2 ^ 31 + 2 ^ 30 + 63), (K.sm_WR_PTR 63, 1)]).setStrm 63 { base := [(0, 0)], nextOrd := 1 } : State).g (K.md_OVER_RES_COUNT (31 : SiteId)) < 4294967295) ∧
    (inLookahead ((siteW 31 { entry := 63 } [(K.st_STATE 31, 2), (K.sl_SOURCE_ENTRY 31 63, 2 ^ 31 + 2 ^ 30 + 63), (K.sm_WR_PTR 63, 1)]).setStrm 63 { base := [(0, 0)], nextOrd := 1 } : State) (31 : SiteId) (63 : Fin 64) (0 : Nat) = true) ∧
    ((((siteW 31 { entry := 63 } [(K.st_STATE 31, 2), (K.sl_SOURCE_ENTRY 31 63, 2 ^ 31 + 2 ^ 30 + 63), (K.sm_WR_PTR 63, 1)]).setStrm 63 { base := [(0, 0)], nextOrd := 1 } : State).site (31 : SiteId)).seqSlots.contains ((63 : Fin 64).val, (0 : Nat)) = false) ∧
    ((((siteW 31 { entry := 63 } [(K.st_STATE 31, 2), (K.sl_SOURCE_ENTRY 31 63, 2 ^ 31 + 2 ^ 30 + 63), (K.sm_WR_PTR 63, 1)]).setStrm 63 { base := [(0, 0)], nextOrd := 1 } : State).retain (Fin.ofNat 64 (63 : Nat)) ≤ (0 : Nat) ∨ ((siteW 31 { entry := 63 } [(K.st_STATE 31, 2), (K.sl_SOURCE_ENTRY 31 63, 2 ^ 31 + 2 ^ 30 + 63), (K.sm_WR_PTR 63, 1)]).setStrm 63 { base := [(0, 0)], nextOrd := 1 } : State).n (K.sm_RD_PTR (63 : Nat)) ≤ (0 : Nat))) := by decide +kernel

/-- The hypotheses of SupplyFetchRefillPatrol, clause 2, are met. -/
theorem test_meets_SupplyFetchRefillPatrol_2 :
    (timingOn (siteW 31 { heads := [{ entry := 63, idx := 0, flagged := true }] } [(K.st_STATE 31, 2), (K.sl_SOURCE_ENTRY 31 63, 2 ^ 31 + 2 ^ 30 + 63), (K.sm_WR_PTR 63, 1)] : State) = true) ∧
    ((siteW 31 { heads := [{ entry := 63, idx := 0, flagged := true }] } [(K.st_STATE 31, 2), (K.sl_SOURCE_ENTRY 31 63, 2 ^ 31 + 2 ^ 30 + 63), (K.sm_WR_PTR 63, 1)] : State).active (31 : SiteId) = true) ∧
    (Store.source (siteW 31 { heads := [{ entry := 63, idx := 0, flagged := true }] } [(K.st_STATE 31, 2), (K.sl_SOURCE_ENTRY 31 63, 2 ^ 31 + 2 ^ 30 + 63), (K.sm_WR_PTR 63, 1)] : State).od (31 : SiteId) (63 : Fin 64) = some (true, (63 : Nat))) ∧
    ((63 : Nat) < 64) ∧
    (wanted (siteW 31 { heads := [{ entry := 63, idx := 0, flagged := true }] } [(K.st_STATE 31, 2), (K.sl_SOURCE_ENTRY 31 63, 2 ^ 31 + 2 ^ 30 + 63), (K.sm_WR_PTR 63, 1)] : State) (31 : SiteId) (63 : Fin 64) (0 : Nat) = true) ∧
    ((0 : Nat) < (siteW 31 { heads := [{ entry := 63, idx := 0, flagged := true }] } [(K.st_STATE 31, 2), (K.sl_SOURCE_ENTRY 31 63, 2 ^ 31 + 2 ^ 30 + 63), (K.sm_WR_PTR 63, 1)] : State).n (K.sm_WR_PTR (63 : Nat))) ∧
    ((siteW 31 { heads := [{ entry := 63, idx := 0, flagged := true }] } [(K.st_STATE 31, 2), (K.sl_SOURCE_ENTRY 31 63, 2 ^ 31 + 2 ^ 30 + 63), (K.sm_WR_PTR 63, 1)] : State).n (K.sm_WR_PTR (63 : Nat)) ≤ (0 : Nat) + 65536) ∧
    ((siteW 31 { heads := [{ entry := 63, idx := 0, flagged := true }] } [(K.st_STATE 31, 2), (K.sl_SOURCE_ENTRY 31 63, 2 ^ 31 + 2 ^ 30 + 63), (K.sm_WR_PTR 63, 1)] : State).g (K.md_OVER_RES_COUNT (31 : SiteId)) < 4294967295) ∧
    ((inLookahead (siteW 31 { heads := [{ entry := 63, idx := 0, flagged := true }] } [(K.st_STATE 31, 2), (K.sl_SOURCE_ENTRY 31 63, 2 ^ 31 + 2 ^ 30 + 63), (K.sm_WR_PTR 63, 1)] : State) (31 : SiteId) (63 : Fin 64) (0 : Nat) = false ∨ ((siteW 31 { heads := [{ entry := 63, idx := 0, flagged := true }] } [(K.st_STATE 31, 2), (K.sl_SOURCE_ENTRY 31 63, 2 ^ 31 + 2 ^ 30 + 63), (K.sm_WR_PTR 63, 1)] : State).site (31 : SiteId)).seqSlots.contains ((63 : Fin 64).val, (0 : Nat)) = true)) := by decide +kernel

/-- The hypotheses of SupplyFetchRefillPatrol, clause 3, are met. -/
theorem test_meets_SupplyFetchRefillPatrol_3 :
    (timingOn ((siteW 31 { heads := [{ entry := 0, idx := 0, flagged := true }] } [(K.st_STATE 31, 2), (K.sl_SOURCE_ENTRY 31 0, 2 ^ 31 + 7)]).setSeg 7 { len := 9 } : State) = true) ∧
    (((siteW 31 { heads := [{ entry := 0, idx := 0, flagged := true }] } [(K.st_STATE 31, 2), (K.sl_SOURCE_ENTRY 31 0, 2 ^ 31 + 7)]).setSeg 7 { len := 9 } : State).active (31 : SiteId) = true) ∧
    (Store.source ((siteW 31 { heads := [{ entry := 0, idx := 0, flagged := true }] } [(K.st_STATE 31, 2), (K.sl_SOURCE_ENTRY 31 0, 2 ^ 31 + 7)]).setSeg 7 { len := 9 } : State).od (31 : SiteId) (0 : Fin 64) = some (false, (7 : Nat))) ∧
    (((siteW 31 { heads := [{ entry := 0, idx := 0, flagged := true }] } [(K.st_STATE 31, 2), (K.sl_SOURCE_ENTRY 31 0, 2 ^ 31 + 7)]).setSeg 7 { len := 9 } : State).seg? (7 : Nat) = some ({ len := 9 } : Seg)) ∧
    ((0 : Nat) < ({ len := 9 } : Seg).len) ∧
    (wanted ((siteW 31 { heads := [{ entry := 0, idx := 0, flagged := true }] } [(K.st_STATE 31, 2), (K.sl_SOURCE_ENTRY 31 0, 2 ^ 31 + 7)]).setSeg 7 { len := 9 } : State) (31 : SiteId) (0 : Fin 64) (0 : Nat) = true) ∧
    (staged ((siteW 31 { heads := [{ entry := 0, idx := 0, flagged := true }] } [(K.st_STATE 31, 2), (K.sl_SOURCE_ENTRY 31 0, 2 ^ 31 + 7)]).setSeg 7 { len := 9 } : State) (31 : SiteId) (0 : Fin 64) (0 : Nat) = true) ∧
    (((siteW 31 { heads := [{ entry := 0, idx := 0, flagged := true }] } [(K.st_STATE 31, 2), (K.sl_SOURCE_ENTRY 31 0, 2 ^ 31 + 7)]).setSeg 7 { len := 9 } : State).g (K.md_OVER_RES_COUNT (31 : SiteId)) < 4294967295) := by decide +kernel

/-- The hypotheses of SupplyFetchRefillPatrol, clause 4, are met. -/
theorem test_meets_SupplyFetchRefillPatrol_4 :
    (timingOn ((siteW 31 { entry := 1, staging := { entry := some 0 } } [(K.st_STATE 31, 2), (K.sl_SOURCE_ENTRY 31 0, 2 ^ 31), (K.md_STAGE_WINDOW 31, 256)]).setSeg 0 { home := .deep, len := 9 } : State) = true) ∧
    (((siteW 31 { entry := 1, staging := { entry := some 0 } } [(K.st_STATE 31, 2), (K.sl_SOURCE_ENTRY 31 0, 2 ^ 31), (K.md_STAGE_WINDOW 31, 256)]).setSeg 0 { home := .deep, len := 9 } : State).active (31 : SiteId) = true) ∧
    (((siteW 31 { entry := 1, staging := { entry := some 0 } } [(K.st_STATE 31, 2), (K.sl_SOURCE_ENTRY 31 0, 2 ^ 31), (K.md_STAGE_WINDOW 31, 256)]).setSeg 0 { home := .deep, len := 9 } : State).deepEntry (31 : SiteId) (0 : Fin 64) = true) ∧
    (moverBusy ((siteW 31 { entry := 1, staging := { entry := some 0 } } [(K.st_STATE 31, 2), (K.sl_SOURCE_ENTRY 31 0, 2 ^ 31), (K.md_STAGE_WINDOW 31, 256)]).setSeg 0 { home := .deep, len := 9 } : State) (31 : SiteId) = false) ∧
    (((siteW 31 { entry := 1, staging := { entry := some 0 } } [(K.st_STATE 31, 2), (K.sl_SOURCE_ENTRY 31 0, 2 ^ 31), (K.md_STAGE_WINDOW 31, 256)]).setSeg 0 { home := .deep, len := 9 } : State).deepEntry (31 : SiteId) (readPos (((siteW 31 { entry := 1, staging := { entry := some 0 } } [(K.st_STATE 31, 2), (K.sl_SOURCE_ENTRY 31 0, 2 ^ 31), (K.md_STAGE_WINDOW 31, 256)]).setSeg 0 { home := .deep, len := 9 } : State).site (31 : SiteId))).1 = false) ∧
    ((((siteW 31 { entry := 1, staging := { entry := some 0 } } [(K.st_STATE 31, 2), (K.sl_SOURCE_ENTRY 31 0, 2 ^ 31), (K.md_STAGE_WINDOW 31, 256)]).setSeg 0 { home := .deep, len := 9 } : State).site (31 : SiteId)).staging.entry = some (0 : Fin 64).val) ∧
    (0 < (1 : Nat)) ∧
    ((((siteW 31 { entry := 1, staging := { entry := some 0 } } [(K.st_STATE 31, 2), (K.sl_SOURCE_ENTRY 31 0, 2 ^ 31), (K.md_STAGE_WINDOW 31, 256)]).setSeg 0 { home := .deep, len := 9 } : State).site (31 : SiteId)).staging.count + (1 : Nat) ≤ min (((siteW 31 { entry := 1, staging := { entry := some 0 } } [(K.st_STATE 31, 2), (K.sl_SOURCE_ENTRY 31 0, 2 ^ 31), (K.md_STAGE_WINDOW 31, 256)]).setSeg 0 { home := .deep, len := 9 } : State).n (K.md_STAGE_WINDOW (31 : SiteId))) (((siteW 31 { entry := 1, staging := { entry := some 0 } } [(K.st_STATE 31, 2), (K.sl_SOURCE_ENTRY 31 0, 2 ^ 31), (K.md_STAGE_WINDOW 31, 256)]).setSeg 0 { home := .deep, len := 9 } : State).entryLen (31 : SiteId) (0 : Fin 64) - (((siteW 31 { entry := 1, staging := { entry := some 0 } } [(K.st_STATE 31, 2), (K.sl_SOURCE_ENTRY 31 0, 2 ^ 31), (K.md_STAGE_WINDOW 31, 256)]).setSeg 0 { home := .deep, len := 9 } : State).site (31 : SiteId)).staging.first)) := by decide +kernel

/-- The hypotheses of SupplyFetchRefillPatrol, clause 5, are met. -/
theorem test_meets_SupplyFetchRefillPatrol_5 :
    (timingOn ((siteW 31 { entry := 1, staging := { entry := some 0 } } [(K.st_STATE 31, 2), (K.sl_SOURCE_ENTRY 31 0, 2 ^ 31), (K.md_STAGE_WINDOW 31, 256)]).setSeg 0 { home := .deep, len := 9 } : State) = true) ∧
    (((siteW 31 { entry := 1, staging := { entry := some 0 } } [(K.st_STATE 31, 2), (K.sl_SOURCE_ENTRY 31 0, 2 ^ 31), (K.md_STAGE_WINDOW 31, 256)]).setSeg 0 { home := .deep, len := 9 } : State).active (31 : SiteId) = true) ∧
    (((siteW 31 { entry := 1, staging := { entry := some 0 } } [(K.st_STATE 31, 2), (K.sl_SOURCE_ENTRY 31 0, 2 ^ 31), (K.md_STAGE_WINDOW 31, 256)]).setSeg 0 { home := .deep, len := 9 } : State).deepEntry (31 : SiteId) (0 : Fin 64) = true) ∧
    (moverBusy ((siteW 31 { entry := 1, staging := { entry := some 0 } } [(K.st_STATE 31, 2), (K.sl_SOURCE_ENTRY 31 0, 2 ^ 31), (K.md_STAGE_WINDOW 31, 256)]).setSeg 0 { home := .deep, len := 9 } : State) (31 : SiteId) = false) ∧
    (Store.source ((siteW 31 { entry := 1, staging := { entry := some 0 } } [(K.st_STATE 31, 2), (K.sl_SOURCE_ENTRY 31 0, 2 ^ 31), (K.md_STAGE_WINDOW 31, 256)]).setSeg 0 { home := .deep, len := 9 } : State).od (31 : SiteId) (0 : Fin 64) = some (false, (0 : Nat))) ∧
    (((siteW 31 { entry := 1, staging := { entry := some 0 } } [(K.st_STATE 31, 2), (K.sl_SOURCE_ENTRY 31 0, 2 ^ 31), (K.md_STAGE_WINDOW 31, 256)]).setSeg 0 { home := .deep, len := 9 } : State).g K.ds_DDR5_UE < 18446744073709551615) := by decide +kernel

/-- The hypotheses of SupplyFetchRefillPatrol, clause 6, are met. -/
theorem test_meets_SupplyFetchRefillPatrol_6 :
    (timingOn (objs [] : State) = true) ∧
    ((objs [] : State).g K.hs_PATROL_SWEEPS < 18446744073709551615) := by decide +kernel

/-- The hypotheses of SupplyFetchRefillPatrol, clause 7, are met. -/
theorem test_meets_SupplyFetchRefillPatrol_7 :
    (timingOn (stallW [(K.sl_SOURCE_ENTRY 31 0, 2 ^ 31 + 2 ^ 30 + 63), (K.sm_UNDERRUN_ACTION 63, 1)] none : State) = true) ∧
    (slotLacks (stallW [(K.sl_SOURCE_ENTRY 31 0, 2 ^ 31 + 2 ^ 30 + 63), (K.sm_UNDERRUN_ACTION 63, 1)] none : State) (31 : SiteId) = true) ∧
    (((stallW [(K.sl_SOURCE_ENTRY 31 0, 2 ^ 31 + 2 ^ 30 + 63), (K.sm_UNDERRUN_ACTION 63, 1)] none : State).site (31 : SiteId)).pad = none) ∧
    (Store.source (stallW [(K.sl_SOURCE_ENTRY 31 0, 2 ^ 31 + 2 ^ 30 + 63), (K.sm_UNDERRUN_ACTION 63, 1)] none : State).od (31 : SiteId) (readPos ((stallW [(K.sl_SOURCE_ENTRY 31 0, 2 ^ 31 + 2 ^ 30 + 63), (K.sm_UNDERRUN_ACTION 63, 1)] none : State).site (31 : SiteId))).1 = some (true, (63 : Nat))) ∧
    ((63 : Nat) < 64) ∧
    ((stallW [(K.sl_SOURCE_ENTRY 31 0, 2 ^ 31 + 2 ^ 30 + 63), (K.sm_UNDERRUN_ACTION 63, 1)] none : State).g (K.sm_UNDERRUN_ACTION (63 : Nat)) = 1) ∧
    ((stallW [(K.sl_SOURCE_ENTRY 31 0, 2 ^ 31 + 2 ^ 30 + 63), (K.sm_UNDERRUN_ACTION 63, 1)] none : State).g (K.md_PAD_FRAMES (31 : SiteId)) < 18446744073709551615) ∧
    ((stallW [(K.sl_SOURCE_ENTRY 31 0, 2 ^ 31 + 2 ^ 30 + 63), (K.sm_UNDERRUN_ACTION 63, 1)] none : State).g (K.sm_PAD_FRAMES (63 : Nat)) < 18446744073709551615) ∧
    ((stallW [(K.sl_SOURCE_ENTRY 31 0, 2 ^ 31 + 2 ^ 30 + 63), (K.sm_UNDERRUN_ACTION 63, 1)] none : State).g (K.sm_UNDERRUN_COUNT (63 : Nat)) < 4294967295) := by decide +kernel

/-- The hypotheses of SupplyFetchRefillPatrol, clause 8, are met. -/
theorem test_meets_SupplyFetchRefillPatrol_8 :
    (timingOn (stallW [(K.sl_SOURCE_ENTRY 31 0, 2 ^ 31 + 2 ^ 30 + 63), (K.sm_UNDERRUN_ACTION 63, 0)] none : State) = true) ∧
    (slotLacks (stallW [(K.sl_SOURCE_ENTRY 31 0, 2 ^ 31 + 2 ^ 30 + 63), (K.sm_UNDERRUN_ACTION 63, 0)] none : State) (31 : SiteId) = true) ∧
    (((stallW [(K.sl_SOURCE_ENTRY 31 0, 2 ^ 31 + 2 ^ 30 + 63), (K.sm_UNDERRUN_ACTION 63, 0)] none : State).site (31 : SiteId)).pad = none) ∧
    (Store.source (stallW [(K.sl_SOURCE_ENTRY 31 0, 2 ^ 31 + 2 ^ 30 + 63), (K.sm_UNDERRUN_ACTION 63, 0)] none : State).od (31 : SiteId) (readPos ((stallW [(K.sl_SOURCE_ENTRY 31 0, 2 ^ 31 + 2 ^ 30 + 63), (K.sm_UNDERRUN_ACTION 63, 0)] none : State).site (31 : SiteId))).1 = some (true, (63 : Nat))) ∧
    ((63 : Nat) < 64) ∧
    ((stallW [(K.sl_SOURCE_ENTRY 31 0, 2 ^ 31 + 2 ^ 30 + 63), (K.sm_UNDERRUN_ACTION 63, 0)] none : State).g (K.sm_UNDERRUN_ACTION (63 : Nat)) ≠ 1) := by decide +kernel

/-- The hypotheses of SupplyFetchRefillPatrol, clause 9, are met. -/
theorem test_meets_SupplyFetchRefillPatrol_9 :
    (timingOn ((stallW [(K.sq_VEC_PER_FRAME 31, 1), (K.sl_SOURCE_ENTRY 31 0, 2 ^ 31 + 7), (K.md_SEG_UNDERRUN_ACTION 31, 1)] none).setSeg 7 { len := 9, data := [(0, yealm0)] } : State) = true) ∧
    (slotLacks ((stallW [(K.sq_VEC_PER_FRAME 31, 1), (K.sl_SOURCE_ENTRY 31 0, 2 ^ 31 + 7), (K.md_SEG_UNDERRUN_ACTION 31, 1)] none).setSeg 7 { len := 9, data := [(0, yealm0)] } : State) (31 : SiteId) = true) ∧
    ((((stallW [(K.sq_VEC_PER_FRAME 31, 1), (K.sl_SOURCE_ENTRY 31 0, 2 ^ 31 + 7), (K.md_SEG_UNDERRUN_ACTION 31, 1)] none).setSeg 7 { len := 9, data := [(0, yealm0)] } : State).site (31 : SiteId)).pad = none) ∧
    ((Store.source ((stallW [(K.sq_VEC_PER_FRAME 31, 1), (K.sl_SOURCE_ENTRY 31 0, 2 ^ 31 + 7), (K.md_SEG_UNDERRUN_ACTION 31, 1)] none).setSeg 7 { len := 9, data := [(0, yealm0)] } : State).od (31 : SiteId) (readPos (((stallW [(K.sq_VEC_PER_FRAME 31, 1), (K.sl_SOURCE_ENTRY 31 0, 2 ^ 31 + 7), (K.md_SEG_UNDERRUN_ACTION 31, 1)] none).setSeg 7 { len := 9, data := [(0, yealm0)] } : State).site (31 : SiteId))).1).all (fun x => !x.1) = true) ∧
    (((stallW [(K.sq_VEC_PER_FRAME 31, 1), (K.sl_SOURCE_ENTRY 31 0, 2 ^ 31 + 7), (K.md_SEG_UNDERRUN_ACTION 31, 1)] none).setSeg 7 { len := 9, data := [(0, yealm0)] } : State).g (K.md_SEG_UNDERRUN_ACTION (31 : SiteId)) = 1) ∧
    (((stallW [(K.sq_VEC_PER_FRAME 31, 1), (K.sl_SOURCE_ENTRY 31 0, 2 ^ 31 + 7), (K.md_SEG_UNDERRUN_ACTION 31, 1)] none).setSeg 7 { len := 9, data := [(0, yealm0)] } : State).g (K.md_PAD_FRAMES (31 : SiteId)) < 18446744073709551615) := by decide +kernel

/-- The hypotheses of SupplyFetchRefillPatrol, clause 10, are met. -/
theorem test_meets_SupplyFetchRefillPatrol_10 :
    (timingOn ((stallW [(K.sq_VEC_PER_FRAME 31, 1), (K.sl_SOURCE_ENTRY 31 0, 2 ^ 31 + 7), (K.md_SEG_UNDERRUN_ACTION 31, 0)] none).setSeg 7 { len := 9, data := [(0, yealm0)] } : State) = true) ∧
    (slotLacks ((stallW [(K.sq_VEC_PER_FRAME 31, 1), (K.sl_SOURCE_ENTRY 31 0, 2 ^ 31 + 7), (K.md_SEG_UNDERRUN_ACTION 31, 0)] none).setSeg 7 { len := 9, data := [(0, yealm0)] } : State) (31 : SiteId) = true) ∧
    ((((stallW [(K.sq_VEC_PER_FRAME 31, 1), (K.sl_SOURCE_ENTRY 31 0, 2 ^ 31 + 7), (K.md_SEG_UNDERRUN_ACTION 31, 0)] none).setSeg 7 { len := 9, data := [(0, yealm0)] } : State).site (31 : SiteId)).pad = none) ∧
    ((Store.source ((stallW [(K.sq_VEC_PER_FRAME 31, 1), (K.sl_SOURCE_ENTRY 31 0, 2 ^ 31 + 7), (K.md_SEG_UNDERRUN_ACTION 31, 0)] none).setSeg 7 { len := 9, data := [(0, yealm0)] } : State).od (31 : SiteId) (readPos (((stallW [(K.sq_VEC_PER_FRAME 31, 1), (K.sl_SOURCE_ENTRY 31 0, 2 ^ 31 + 7), (K.md_SEG_UNDERRUN_ACTION 31, 0)] none).setSeg 7 { len := 9, data := [(0, yealm0)] } : State).site (31 : SiteId))).1).all (fun x => !x.1) = true) ∧
    (((stallW [(K.sq_VEC_PER_FRAME 31, 1), (K.sl_SOURCE_ENTRY 31 0, 2 ^ 31 + 7), (K.md_SEG_UNDERRUN_ACTION 31, 0)] none).setSeg 7 { len := 9, data := [(0, yealm0)] } : State).g (K.md_SEG_UNDERRUN_ACTION (31 : SiteId)) ≠ 1) := by decide +kernel

/-- The hypotheses of SupplyFetchRefillPatrol, clause 11, are met. -/
theorem test_meets_SupplyFetchRefillPatrol_11 :
    (timingOn (stallW [(K.sl_SOURCE_ENTRY 31 0, 2 ^ 31 + 2 ^ 30 + 63)] (some { cycle := 0, count := 4, tset := 0, at_ := (0, 0) }) : State) = true) ∧
    (slotLacks (stallW [(K.sl_SOURCE_ENTRY 31 0, 2 ^ 31 + 2 ^ 30 + 63)] (some { cycle := 0, count := 4, tset := 0, at_ := (0, 0) }) : State) (31 : SiteId) = true) ∧
    (((stallW [(K.sl_SOURCE_ENTRY 31 0, 2 ^ 31 + 2 ^ 30 + 63)] (some { cycle := 0, count := 4, tset := 0, at_ := (0, 0) }) : State).site (31 : SiteId)).pad = some ({ cycle := 0, count := 4, tset := 0, at_ := (0, 0) } : PadRun)) ∧
    ((stallW [(K.sl_SOURCE_ENTRY 31 0, 2 ^ 31 + 2 ^ 30 + 63)] (some { cycle := 0, count := 4, tset := 0, at_ := (0, 0) }) : State).g (K.md_PAD_FRAMES (31 : SiteId)) < 18446744073709551615) := by decide +kernel

/-- The hypotheses of FramesAndResults, clause 1, are met. -/
theorem test_meets_FramesAndResults_1 :
    (timingOn (siteW 31 { fifo := frame0 :: List.replicate 15 { pad := true } } [(K.st_STATE 31, 3)] : State) = true) ∧
    ((siteW 31 { fifo := frame0 :: List.replicate 15 { pad := true } } [(K.st_STATE 31, 3)] : State).st (31 : SiteId) = SS.running) ∧
    (mayTake ((siteW 31 { fifo := frame0 :: List.replicate 15 { pad := true } } [(K.st_STATE 31, 3)] : State).site (31 : SiteId)) = true) ∧
    (((siteW 31 { fifo := frame0 :: List.replicate 15 { pad := true } } [(K.st_STATE 31, 3)] : State).site (31 : SiteId)).fifo = (frame0 : Frame) :: (List.replicate 15 { pad := true } : List Frame)) ∧
    (Takes (31 : SiteId) (frame0 : Frame) (siteW 31 { fifo := frame0 :: List.replicate 15 { pad := true } } [(K.st_STATE 31, 3)] : State)) := by decide +kernel

/-- The hypotheses of FramesAndResults, clause 2, are met. -/
theorem test_meets_FramesAndResults_2 :
    (timingOn (siteW 31 { taken := [{ pad := true }] } [(K.st_STATE 31, 3)] : State) = true) ∧
    (((siteW 31 { taken := [{ pad := true }] } [(K.st_STATE 31, 3)] : State).site (31 : SiteId)).taken = ({ pad := true } : Frame) :: ([] : List Frame)) ∧
    (({ pad := true } : Frame).pad = true) ∧
    (((siteW 31 { taken := [{ pad := true }] } [(K.st_STATE 31, 3)] : State).site (31 : SiteId)).logWait = []) ∧
    ((siteW 31 { taken := [{ pad := true }] } [(K.st_STATE 31, 3)] : State).active (31 : SiteId) = true) := by decide +kernel

/-- The hypotheses of FramesAndResults, clause 3, are met. -/
theorem test_meets_FramesAndResults_3 :
    (timingOn (siteW 31 { taken := [frame0] } [(K.st_STATE 31, 3)] : State) = true) ∧
    (((siteW 31 { taken := [frame0] } [(K.st_STATE 31, 3)] : State).site (31 : SiteId)).taken = (frame0 : Frame) :: ([] : List Frame)) ∧
    ((frame0 : Frame).pad = false) ∧
    ((siteW 31 { taken := [frame0] } [(K.st_STATE 31, 3)] : State).active (31 : SiteId) = true) := by decide +kernel

/-- The hypotheses of FramesAndResults, clause 4, are met. -/
theorem test_meets_FramesAndResults_4 :
    (timingOn (up0 : State) = true) ∧
    ((up0 : State).b (K.ch_LOOPBACK (255 : ChanId)) = false) ∧
    ((up0 : State).b (K.ch_LOS (255 : ChanId)) = false) := by decide +kernel

/-- The hypotheses of FramesAndResults, clause 5, are met. -/
theorem test_meets_FramesAndResults_5 :
    (timingOn (objs [(K.ch_LOS 255, 1)] : State) = true) ∧
    ((objs [(K.ch_LOS 255, 1)] : State).b (K.ch_LOOPBACK (255 : ChanId)) = false) ∧
    ((objs [(K.ch_LOS 255, 1)] : State).b (K.ch_LOS (255 : ChanId)) = true) := by decide +kernel

/-- The hypotheses of FramesAndResults are met (1). -/
theorem test_meets_FramesAndResults_t1 :
    (objs [(K.ch_LOOPBACK 255, 1)]).b (K.ch_LOOPBACK 255) = true  := by decide +kernel

/-- The hypotheses of FailLogAndCapture, clause 1, are met. -/
theorem test_meets_FailLogAndCapture_1 :
    (timingOn (siteW 31 { failPend := [[[{ kind := 0 }], [{ kind := 0 }, { kind := 0 }]]] } [(K.fc_LOG_EXTENTS 31, 1)] : State) = true) ∧
    (((siteW 31 { failPend := [[[{ kind := 0 }], [{ kind := 0 }, { kind := 0 }]]] } [(K.fc_LOG_EXTENTS 31, 1)] : State).site (31 : SiteId)).failPend = ([[{ kind := 0 }], [{ kind := 0 }, { kind := 0 }]] : List (List FailE)) :: ([] : List (List (List FailE)))) ∧
    ((siteW 31 { failPend := [[[{ kind := 0 }], [{ kind := 0 }, { kind := 0 }]]] } [(K.fc_LOG_EXTENTS 31, 1)] : State).g (K.fc_LOG_EXTENTS (31 : SiteId)) ≠ 0) ∧
    ((siteW 31 { failPend := [[[{ kind := 0 }], [{ kind := 0 }, { kind := 0 }]]] } [(K.fc_LOG_EXTENTS 31, 1)] : State).b (K.fr_COUNT_ONLY (31 : SiteId)) = false) ∧
    (([[{ kind := 0 }], [{ kind := 0 }, { kind := 0 }]] : List (List FailE)).flatten.any (fun e => e.kind == 1) = false) ∧
    (logCause (siteW 31 { failPend := [[[{ kind := 0 }], [{ kind := 0 }, { kind := 0 }]]] } [(K.fc_LOG_EXTENTS 31, 1)] : State) (31 : SiteId) ([[{ kind := 0 }], [{ kind := 0 }, { kind := 0 }]] : List (List FailE)).flatten.length = 0) := by decide +kernel

/-- The hypotheses of FailLogAndCapture, clause 2, are met. -/
theorem test_meets_FailLogAndCapture_2 :
    (timingOn (siteW 31 { failPend := [[[{ kind := 0 }], [{ kind := 0 }, { kind := 0 }]]] } [(K.fc_LOG_EXTENTS 31, 1), (K.fr_COUNT_ONLY 31, 1)] : State) = true) ∧
    (((siteW 31 { failPend := [[[{ kind := 0 }], [{ kind := 0 }, { kind := 0 }]]] } [(K.fc_LOG_EXTENTS 31, 1), (K.fr_COUNT_ONLY 31, 1)] : State).site (31 : SiteId)).failPend = ([[{ kind := 0 }], [{ kind := 0 }, { kind := 0 }]] : List (List FailE)) :: ([] : List (List (List FailE)))) ∧
    ((siteW 31 { failPend := [[[{ kind := 0 }], [{ kind := 0 }, { kind := 0 }]]] } [(K.fc_LOG_EXTENTS 31, 1), (K.fr_COUNT_ONLY 31, 1)] : State).g (K.fc_LOG_EXTENTS (31 : SiteId)) ≠ 0) ∧
    ((siteW 31 { failPend := [[[{ kind := 0 }], [{ kind := 0 }, { kind := 0 }]]] } [(K.fc_LOG_EXTENTS 31, 1), (K.fr_COUNT_ONLY 31, 1)] : State).b (K.fr_COUNT_ONLY (31 : SiteId)) = true) ∧
    (([[{ kind := 0 }], [{ kind := 0 }, { kind := 0 }]] : List (List FailE)).flatten.any (fun e => e.kind == 1) = false) := by decide +kernel

/-- The hypotheses of FailLogAndCapture, clause 3, are met. -/
theorem test_meets_FailLogAndCapture_3 :
    (timingOn (siteW 30 { failFifo := [(0, { kind := 0 })] } [(K.fc_LOG_EXTENTS 30, 1)] : State) = true) ∧
    (((List.range 32).map (fun j => Fin.ofNat 32 ((siteW 30 { failFifo := [(0, { kind := 0 })] } [(K.fc_LOG_EXTENTS 30, 1)] : State).mem.logTurn + 1 + j))).find? (logWritable (siteW 30 { failFifo := [(0, { kind := 0 })] } [(K.fc_LOG_EXTENTS 30, 1)] : State)) = some (30 : SiteId)) ∧
    (((siteW 30 { failFifo := [(0, { kind := 0 })] } [(K.fc_LOG_EXTENTS 30, 1)] : State).site (30 : SiteId)).failFifo = ((0 : Nat), ({ kind := 0 } : FailE)) :: ([] : List (Nat × FailE))) ∧
    ((siteW 30 { failFifo := [(0, { kind := 0 })] } [(K.fc_LOG_EXTENTS 30, 1)] : State).logCap (30 : SiteId) ≠ 0) := by decide +kernel

/-- The hypotheses of FailLogAndCapture, clause 4, are met. -/
theorem test_meets_FailLogAndCapture_4 :
    (timingOn (objs [(K.fc_LOG_FULL_ACTION 31, 2), (K.fc_LOG_EXTENTS 31, 2), (K.fr_LOG_WRITTEN 31, 65536), (K.fc_SPILL_SIZE 31, 1)] : State) = true) ∧
    ((objs [(K.fc_LOG_FULL_ACTION 31, 2), (K.fc_LOG_EXTENTS 31, 2), (K.fr_LOG_WRITTEN 31, 65536), (K.fc_SPILL_SIZE 31, 1)] : State).n (K.fc_LOG_FULL_ACTION (31 : SiteId)) = 2) ∧
    ((objs [(K.fc_LOG_FULL_ACTION 31, 2), (K.fc_LOG_EXTENTS 31, 2), (K.fr_LOG_WRITTEN 31, 65536), (K.fc_SPILL_SIZE 31, 1)] : State).logCap (31 : SiteId) ≤ 2 * (objs [(K.fc_LOG_FULL_ACTION 31, 2), (K.fc_LOG_EXTENTS 31, 2), (K.fr_LOG_WRITTEN 31, 65536), (K.fc_SPILL_SIZE 31, 1)] : State).logHeld (31 : SiteId)) ∧
    (65536 ≤ (objs [(K.fc_LOG_FULL_ACTION 31, 2), (K.fc_LOG_EXTENTS 31, 2), (K.fr_LOG_WRITTEN 31, 65536), (K.fc_SPILL_SIZE 31, 1)] : State).logHeld (31 : SiteId)) ∧
    (((objs [(K.fc_LOG_FULL_ACTION 31, 2), (K.fc_LOG_EXTENTS 31, 2), (K.fr_LOG_WRITTEN 31, 65536), (K.fc_SPILL_SIZE 31, 1)] : State).site (31 : SiteId)).spillIdx / 65536 < (objs [(K.fc_LOG_FULL_ACTION 31, 2), (K.fc_LOG_EXTENTS 31, 2), (K.fr_LOG_WRITTEN 31, 65536), (K.fc_SPILL_SIZE 31, 1)] : State).n (K.fc_SPILL_SIZE (31 : SiteId))) ∧
    ((∀ j : SiteId, refillDue (objs [(K.fc_LOG_FULL_ACTION 31, 2), (K.fc_LOG_EXTENTS 31, 2), (K.fr_LOG_WRITTEN 31, 65536), (K.fc_SPILL_SIZE 31, 1)] : State) j = false)) := by decide +kernel

/-- The hypotheses of FailLogAndCapture, clause 5, are met. -/
theorem test_meets_FailLogAndCapture_5 :
    (timingOn (siteW 31 { capPend := [{ dcr := 0, addr := none, cycle := 0, seq := 0, bits := [true] }] } [(K.fc_CAP_EXTENTS 31, 1)] : State) = true) ∧
    (((siteW 31 { capPend := [{ dcr := 0, addr := none, cycle := 0, seq := 0, bits := [true] }] } [(K.fc_CAP_EXTENTS 31, 1)] : State).site (31 : SiteId)).capPend.find? (fun y => y.toQueue == false) = some ({ dcr := 0, addr := none, cycle := 0, seq := 0, bits := [true] } : CapRec)) ∧
    ((siteW 31 { capPend := [{ dcr := 0, addr := none, cycle := 0, seq := 0, bits := [true] }] } [(K.fc_CAP_EXTENTS 31, 1)] : State).n (K.fr_CAP_WRITTEN (31 : SiteId)) + ({ dcr := 0, addr := none, cycle := 0, seq := 0, bits := [true] } : CapRec).size ≤ (siteW 31 { capPend := [{ dcr := 0, addr := none, cycle := 0, seq := 0, bits := [true] }] } [(K.fc_CAP_EXTENTS 31, 1)] : State).capSize (31 : SiteId)) := by decide +kernel

/-- The hypotheses of FailLogAndCapture, clause 6, are met. -/
theorem test_meets_FailLogAndCapture_6 :
    (timingOn ((siteW 0 { capPend := [{ dcr := 8192, addr := none, cycle := 0, seq := 0, bits := [true] }] } [(K.qp_QP_QUOTA 0, 16)]).setQueue 5 { typ := .result, bufs := [{ tag := tag0, size := 64 }] } : State) = true) ∧
    ((((siteW 0 { capPend := [{ dcr := 8192, addr := none, cycle := 0, seq := 0, bits := [true] }] } [(K.qp_QP_QUOTA 0, 16)]).setQueue 5 { typ := .result, bufs := [{ tag := tag0, size := 64 }] } : State).site (0 : SiteId)).capPend.find? (fun y => y.toQueue == true) = some ({ dcr := 8192, addr := none, cycle := 0, seq := 0, bits := [true] } : CapRec)) ∧
    (((siteW 0 { capPend := [{ dcr := 8192, addr := none, cycle := 0, seq := 0, bits := [true] }] } [(K.qp_QP_QUOTA 0, 16)]).setQueue 5 { typ := .result, bufs := [{ tag := tag0, size := 64 }] } : State).siteQueue (0 : SiteId) .result = some (5 : Nat)) ∧
    (((siteW 0 { capPend := [{ dcr := 8192, addr := none, cycle := 0, seq := 0, bits := [true] }] } [(K.qp_QP_QUOTA 0, 16)]).setQueue 5 { typ := .result, bufs := [{ tag := tag0, size := 64 }] } : State).queue? (5 : Nat) = some ({ typ := .result, bufs := [{ tag := tag0, size := 64 }] } : Queue)) ∧
    (({ typ := .result, bufs := [{ tag := tag0, size := 64 }] } : Queue).bufs = (ResBuf.mk tag0 64 [] 0 0 : ResBuf) :: ([] : List ResBuf)) ∧
    ((ResBuf.mk tag0 64 [] 0 0 : ResBuf).packed.length + ({ dcr := 8192, addr := none, cycle := 0, seq := 0, bits := [true] } : CapRec).size ≤ (ResBuf.mk tag0 64 [] 0 0 : ResBuf).size) := by decide +kernel

/-- The hypotheses of FailLogAndCapture, clause 7, are met. -/
theorem test_meets_FailLogAndCapture_7 :
    (comes (fly 0x4C 64 [] (up0.setQueue 5 { typ := .result }) : State) (some (tag0 : Tag)) .pcie (.resultBuf (tag0 : Tag) (64 : Nat)) = true) ∧
    ((fly 0x4C 64 [] (up0.setQueue 5 { typ := .result }) : State).queue? (tag0 : Tag).queue = some ({ typ := .result } : Queue)) ∧
    (({ typ := .result } : Queue).typ = .result) := by decide +kernel

/-- The hypotheses of FailLogAndCapture, clause 8, are met. -/
theorem test_meets_FailLogAndCapture_8 :
    (domRuns ({ (up0.setQueue 8191 { typ := .result, bufs := [{ tag := tag0, size := 64, packed := [1], records := 1 }] }) with now := 80000 } : State) .pcie = true) ∧
    (({ (up0.setQueue 8191 { typ := .result, bufs := [{ tag := tag0, size := 64, packed := [1], records := 1 }] }) with now := 80000 } : State).queue? (8191 : QueueId) = some ({ typ := .result, bufs := [{ tag := tag0, size := 64, packed := [1], records := 1 }] } : Queue)) ∧
    (({ typ := .result, bufs := [{ tag := tag0, size := 64, packed := [1], records := 1 }] } : Queue).bufs = ({ tag := tag0, size := 64, packed := [1], records := 1 } : ResBuf) :: ([] : List ResBuf)) ∧
    (({ tag := tag0, size := 64, packed := [1], records := 1 } : ResBuf).records = 1) ∧
    (({ tag := tag0, size := 64, packed := [1], records := 1 } : ResBuf).since + 80000 ≤ ({ (up0.setQueue 8191 { typ := .result, bufs := [{ tag := tag0, size := 64, packed := [1], records := 1 }] }) with now := 80000 } : State).now) ∧
    ((({ (up0.setQueue 8191 { typ := .result, bufs := [{ tag := tag0, size := 64, packed := [1], records := 1 }] }) with now := 80000 } : State).queueSite (8191 : QueueId)).all (fun (i : SiteId) => (({ (up0.setQueue 8191 { typ := .result, bufs := [{ tag := tag0, size := 64, packed := [1], records := 1 }] }) with now := 80000 } : State).site i).capPend.all (fun c => !c.toQueue)) = true) := by decide +kernel

/-- The hypotheses of FailLogAndCapture, clause 9, are met. -/
theorem test_meets_FailLogAndCapture_9 :
    (comes (fly 0x70 32 [31, 0, 0, 1] (siteW 31 { failLog := [(0, [7])] } [(K.fr_LOG_WRITTEN 31, 1)]) : State) (some (tag0 : Tag)) .timing (.failRead (tag0 : Tag) (31 : SiteId) (0 : Nat) (1 : Nat) .whole) = true) ∧
    ((0 : Nat) + (1 : Nat) ≤ (fly 0x70 32 [31, 0, 0, 1] (siteW 31 { failLog := [(0, [7])] } [(K.fr_LOG_WRITTEN 31, 1)]) : State).n (K.fr_LOG_WRITTEN (31 : SiteId))) ∧
    ((fly 0x70 32 [31, 0, 0, 1] (siteW 31 { failLog := [(0, [7])] } [(K.fr_LOG_WRITTEN 31, 1)]) : State).n (K.fr_LOG_OLDEST (31 : SiteId)) ≤ (0 : Nat)) ∧
    (((fly 0x70 32 [31, 0, 0, 1] (siteW 31 { failLog := [(0, [7])] } [(K.fr_LOG_WRITTEN 31, 1)]) : State).site (31 : SiteId)).logDead ≤ (0 : Nat)) ∧
    (((0 : Nat) < ((fly 0x70 32 [31, 0, 0, 1] (siteW 31 { failLog := [(0, [7])] } [(K.fr_LOG_WRITTEN 31, 1)]) : State).site (31 : SiteId)).spillIdx → moverServes (.copy (tag0 : Tag)) (fly 0x70 32 [31, 0, 0, 1] (siteW 31 { failLog := [(0, [7])] } [(K.fr_LOG_WRITTEN 31, 1)]) : State) = true)) := by decide +kernel

/-- The hypotheses of FailLogAndCapture, clause 10, are met. -/
theorem test_meets_FailLogAndCapture_10 :
    (comes (fly 0x70 32 [31, 0, 0, 1] (siteW 31 { failLog := [(0, [7])] } [(K.fr_LOG_WRITTEN 31, 1)]) : State) (some (tag0 : Tag)) .timing (.failRead (tag0 : Tag) (31 : SiteId) (0 : Nat) (1 : Nat) (.dataError (0 : Nat) false (3 : Fin 4))) = true) ∧
    ((0 : Nat) + (1 : Nat) ≤ (fly 0x70 32 [31, 0, 0, 1] (siteW 31 { failLog := [(0, [7])] } [(K.fr_LOG_WRITTEN 31, 1)]) : State).n (K.fr_LOG_WRITTEN (31 : SiteId))) ∧
    ((fly 0x70 32 [31, 0, 0, 1] (siteW 31 { failLog := [(0, [7])] } [(K.fr_LOG_WRITTEN 31, 1)]) : State).n (K.fr_LOG_OLDEST (31 : SiteId)) ≤ (0 : Nat)) ∧
    (((fly 0x70 32 [31, 0, 0, 1] (siteW 31 { failLog := [(0, [7])] } [(K.fr_LOG_WRITTEN 31, 1)]) : State).site (31 : SiteId)).logDead ≤ (0 : Nat)) ∧
    (((fly 0x70 32 [31, 0, 0, 1] (siteW 31 { failLog := [(0, [7])] } [(K.fr_LOG_WRITTEN 31, 1)]) : State).site (31 : SiteId)).spillIdx ≤ (0 : Nat)) := by decide +kernel

/-- The hypotheses of FailLogAndCapture, clause 11, are met. -/
theorem test_meets_FailLogAndCapture_11 :
    (comes (fly 0x70 64 [31, 0, 0, 2] (siteW 31 { failLog := [(0, [7])] } [(K.fr_LOG_WRITTEN 31, 1)]) : State) (some (tag0 : Tag)) .timing (.failRead (tag0 : Tag) (31 : SiteId) (0 : Nat) (2 : Nat) (.whole : Upload)) = true) ∧
    (((fly 0x70 64 [31, 0, 0, 2] (siteW 31 { failLog := [(0, [7])] } [(K.fr_LOG_WRITTEN 31, 1)]) : State).n (K.fr_LOG_WRITTEN (31 : SiteId)) < (0 : Nat) + (2 : Nat) ∨ (0 : Nat) < (fly 0x70 64 [31, 0, 0, 2] (siteW 31 { failLog := [(0, [7])] } [(K.fr_LOG_WRITTEN 31, 1)]) : State).n (K.fr_LOG_OLDEST (31 : SiteId)))) := by decide +kernel

/-- The hypotheses of FailLogAndCapture, clause 12, are met. -/
theorem test_meets_FailLogAndCapture_12 :
    (comes (fly 0x71 32 [31, 0, 0, 32] (siteW 31 { capMem := [(0, [7])] } [(K.fr_CAP_WRITTEN 31, 32)]) : State) (some (tag0 : Tag)) .timing (.captureRead (tag0 : Tag) (31 : SiteId) (0 : Nat) (32 : Nat) .whole) = true) ∧
    ((32 : Nat) % 32 = 0) ∧
    ((0 : Nat) + (32 : Nat) ≤ (fly 0x71 32 [31, 0, 0, 32] (siteW 31 { capMem := [(0, [7])] } [(K.fr_CAP_WRITTEN 31, 32)]) : State).n (K.fr_CAP_WRITTEN (31 : SiteId))) ∧
    (((fly 0x71 32 [31, 0, 0, 32] (siteW 31 { capMem := [(0, [7])] } [(K.fr_CAP_WRITTEN 31, 32)]) : State).site (31 : SiteId)).capOldest ≤ (0 : Nat)) ∧
    (((fly 0x71 32 [31, 0, 0, 32] (siteW 31 { capMem := [(0, [7])] } [(K.fr_CAP_WRITTEN 31, 32)]) : State).site (31 : SiteId)).capGone ≤ (0 : Nat)) ∧
    (((fly 0x71 32 [31, 0, 0, 32] (siteW 31 { capMem := [(0, [7])] } [(K.fr_CAP_WRITTEN 31, 32)]) : State).site (31 : SiteId)).capDead ≤ (0 : Nat)) := by decide +kernel

/-- The hypotheses of FailLogAndCapture, clause 13, are met. -/
theorem test_meets_FailLogAndCapture_13 :
    (comes (fly 0x71 64 [31, 0, 0, 64] (siteW 31 { capMem := [(0, [7])] } [(K.fr_CAP_WRITTEN 31, 32)]) : State) (some (tag0 : Tag)) .timing (.captureRead (tag0 : Tag) (31 : SiteId) (0 : Nat) (64 : Nat) (.whole : Upload)) = true) ∧
    ((fly 0x71 64 [31, 0, 0, 64] (siteW 31 { capMem := [(0, [7])] } [(K.fr_CAP_WRITTEN 31, 32)]) : State).n (K.fr_CAP_WRITTEN (31 : SiteId)) < (0 : Nat) + (64 : Nat)) := by decide +kernel

/-- The hypotheses of EventLines, clause 1, are met. -/
theorem test_meets_EventLines_1 :
    (timingOn (up0 : State) = true) ∧
    (hasQualifier (up0 : State) (15 : EvtId) = true) ∧
    (evtMasked (up0 : State) (15 : EvtId) = false) ∧
    (((up0 : State).n (K.el_EVT_SRC (15 : EvtId)) = 0 ∨ markerLevel (up0 : State) (15 : EvtId) = true)) ∧
    ((up0 : State).n (K.el_QUAL_WIDTH (15 : EvtId)) ≤ (1000 : Nat)) ∧
    ((up0 : State).g (K.el_QUAL_COUNT (15 : EvtId)) < 18446744073709551615) := by decide +kernel

/-- The hypotheses of EventLines, clause 2, are met. -/
theorem test_meets_EventLines_2 :
    (timingOn (up0 : State) = true) ∧
    (hasQualifier (up0 : State) (15 : EvtId) = true) ∧
    (evtMasked (up0 : State) (15 : EvtId) = false) ∧
    ((up0 : State).n (K.el_QUAL_WIDTH (15 : EvtId)) ≤ (1000 : Nat)) ∧
    ((0 : Nat) < (up0 : State).n (K.el_QUAL_WIDTH (15 : EvtId))) ∧
    ((up0 : State).g (K.el_GLITCH (15 : EvtId)) < 4294967295) := by decide +kernel

/-- The hypotheses of EventLines, clause 3, are met. -/
theorem test_meets_EventLines_3 :
    (timingOn (up0.setEvt 15 { restarted := false } : State) = true) ∧
    (hasQualifier (up0.setEvt 15 { restarted := false } : State) (15 : EvtId) = true) ∧
    (((up0.setEvt 15 { restarted := false } : State).evt (15 : EvtId)).armed = false) ∧
    (((up0.setEvt 15 { restarted := false } : State).evt (15 : EvtId)).restarted = false) ∧
    ((0 : Nat) < (up0.setEvt 15 { restarted := false } : State).n (K.el_QUAL_WIDTH (15 : EvtId))) ∧
    ((up0.setEvt 15 { restarted := false } : State).g (K.el_OVERRUN (15 : EvtId)) < 4294967295) ∧
    ((kgetD (up0.setEvt 15 { restarted := false } : State).flt.srcs (Src.EVT_OVERRUN (15 : EvtId)) {}).active = false) := by decide +kernel

/-- The hypotheses of EventLines, clause 4, are met. -/
theorem test_meets_EventLines_4 :
    (timingOn ((objs [(K.el_EVT_SRC 15, 2)]).setEvt 15 { host := [0] } : State) = true) ∧
    ((0xFFFF : BitVec 16).getLsbD (15 : EvtId).val = true) ∧
    (((objs [(K.el_EVT_SRC 15, 2)]).setEvt 15 { host := [0] } : State).n (K.el_EVT_SRC (15 : EvtId)) = 2) ∧
    ((((objs [(K.el_EVT_SRC 15, 2)]).setEvt 15 { host := [0] } : State).evt (15 : EvtId)).host = (0 : Nat) :: ([] : List Nat)) ∧
    ((0 : Nat) ≤ ((objs [(K.el_EVT_SRC 15, 2)]).setEvt 15 { host := [0] } : State).now) ∧
    (((objs [(K.el_EVT_SRC 15, 2)]).setEvt 15 { host := [0] } : State).g (K.el_QUAL_COUNT (15 : EvtId)) < 18446744073709551615) := by decide +kernel

/-- The hypotheses of EventLines, clause 5, are met. -/
theorem test_meets_EventLines_5 :
    (timingOn ({ ((objs [(K.el_EVT_SITES 15, 2 ^ 31), (K.st_STATE 31, 3)]).setEvt 15 { latches := [0] }) with now := 6 } : State) = true) ∧
    ((({ ((objs [(K.el_EVT_SITES 15, 2 ^ 31), (K.st_STATE 31, 3)]).setEvt 15 { latches := [0] }) with now := 6 } : State).evt (15 : EvtId)).latches = (0 : Nat) :: ([] : List Nat)) ∧
    ((0 : Nat) + 6 ≤ ({ ((objs [(K.el_EVT_SITES 15, 2 ^ 31), (K.st_STATE 31, 3)]).setEvt 15 { latches := [0] }) with now := 6 } : State).now) := by decide +kernel

/-- The hypotheses of EventLines, clause 6, are met. -/
theorem test_meets_EventLines_6 :
    (timingOn ({ ((objs [(K.el_STUCK_TIMEOUT 15, 10)]).setEvt 15 { restarted := false }) with now := 9 } : State) = true) ∧
    (hasQualifier ({ ((objs [(K.el_STUCK_TIMEOUT 15, 10)]).setEvt 15 { restarted := false }) with now := 9 } : State) (15 : EvtId) = true) ∧
    (evtMasked ({ ((objs [(K.el_STUCK_TIMEOUT 15, 10)]).setEvt 15 { restarted := false }) with now := 9 } : State) (15 : EvtId) = false) ∧
    (0 < ({ ((objs [(K.el_STUCK_TIMEOUT 15, 10)]).setEvt 15 { restarted := false }) with now := 9 } : State).n (K.el_STUCK_TIMEOUT (15 : EvtId))) ∧
    ((({ ((objs [(K.el_STUCK_TIMEOUT 15, 10)]).setEvt 15 { restarted := false }) with now := 9 } : State).evt (15 : EvtId)).armed = false) ∧
    ((({ ((objs [(K.el_STUCK_TIMEOUT 15, 10)]).setEvt 15 { restarted := false }) with now := 9 } : State).evt (15 : EvtId)).restarted = false) ∧
    ((({ ((objs [(K.el_STUCK_TIMEOUT 15, 10)]).setEvt 15 { restarted := false }) with now := 9 } : State).evt (15 : EvtId)).qualAt + ({ ((objs [(K.el_STUCK_TIMEOUT 15, 10)]).setEvt 15 { restarted := false }) with now := 9 } : State).n (K.el_STUCK_TIMEOUT (15 : EvtId)) ≤ ({ ((objs [(K.el_STUCK_TIMEOUT 15, 10)]).setEvt 15 { restarted := false }) with now := 9 } : State).now + 1) ∧
    (({ ((objs [(K.el_STUCK_TIMEOUT 15, 10)]).setEvt 15 { restarted := false }) with now := 9 } : State).g (K.el_STUCK_COUNT (15 : EvtId)) < 4294967295) := by decide +kernel

/-- The hypotheses of EventLines, clause 7, are met. -/
theorem test_meets_EventLines_7 :
    (timingOn (objs [(K.em_EVT_MASKED, 32768)] : State) = true) ∧
    (evtMasked (objs [(K.em_EVT_MASKED, 32768)] : State) (15 : EvtId) = true) := by decide +kernel

/-- The hypotheses of EventLogKeepsEntries, clause 1, are met. -/
theorem test_meets_EventLogKeepsEntries_1 :
    (domRuns ({ up0 with mgmt := { logPend := [{ kind := 6 }] }, pwr := { replayed := true } } : State) .mgmt = true) ∧
    (({ up0 with mgmt := { logPend := [{ kind := 6 }] }, pwr := { replayed := true } } : State).pwr.replayed = true) ∧
    (({ up0 with mgmt := { logPend := [{ kind := 6 }] }, pwr := { replayed := true } } : State).mgmt.logPend = ({ kind := 6 } : LogE) :: ([] : List LogE)) ∧
    (({ up0 with mgmt := { logPend := [{ kind := 6 }] }, pwr := { replayed := true } } : State).mgmt.logRam.length < 1024) := by decide +kernel

/-- The hypotheses of EventLogKeepsEntries, clause 2, are met. -/
theorem test_meets_EventLogKeepsEntries_2 :
    (domRuns ({ up0 with mgmt := { logPend := [{ kind := 6 }], logRam := List.replicate 1024 (0, []) }, pwr := { replayed := true } } : State) .mgmt = true) ∧
    (({ up0 with mgmt := { logPend := [{ kind := 6 }], logRam := List.replicate 1024 (0, []) }, pwr := { replayed := true } } : State).pwr.replayed = true) ∧
    (({ up0 with mgmt := { logPend := [{ kind := 6 }], logRam := List.replicate 1024 (0, []) }, pwr := { replayed := true } } : State).mgmt.logPend = ({ kind := 6 } : LogE) :: ([] : List LogE)) ∧
    (1024 ≤ ({ up0 with mgmt := { logPend := [{ kind := 6 }], logRam := List.replicate 1024 (0, []) }, pwr := { replayed := true } } : State).mgmt.logRam.length) ∧
    (({ up0 with mgmt := { logPend := [{ kind := 6 }], logRam := List.replicate 1024 (0, []) }, pwr := { replayed := true } } : State).g K.ev_EVLOG_LOST < 4294967295) := by decide +kernel

/-- The hypotheses of EventLogKeepsEntries are met (1). -/
theorem test_meets_EventLogKeepsEntries_t1 :
    (fun s : State => domRuns s .mgmt = true ∧ domRuns s .nor = true ∧ norUp s = true ∧ journalDue s = false ∧ (s.mgmt.logRing ++ s.mgmt.logRam.take 1) = [(0, [1]), (1, [2])] ∧ s.n K.ev_EVLOG_OLDEST = 0) { up0 with mgmt := { logRing := [(0, [1])], logRam := [(1, [2]), (2, [3])] } } := by decide +kernel

/-- The hypotheses of EventLogKeepsEntries are met (2). -/
theorem test_meets_EventLogKeepsEntries_t2 :
    domRuns up0 .mgmt = true ∧ domRuns up0 .nor = true ∧ journalDue (up0.setTxn 7 { st := 1, wait := .record }) = true  := by decide +kernel

/-- The hypotheses of FieldNetworkPort, clause 1, are met. -/
theorem test_meets_FieldNetworkPort_1 :
    (domRuns (objs [(K.net_NODE_ID, 5), (K.bu_PHASE, 6)] : State) .t1s = true) ∧
    ((objs [(K.net_NODE_ID, 5), (K.bu_PHASE, 6)] : State).portOn = true) ∧
    ((objs [(K.net_NODE_ID, 5), (K.bu_PHASE, 6)] : State).pwr.fwOnly = false) ∧
    (kdpBad (BitVec.allOnes 48 : BitVec 48) ((objs [(K.net_NODE_ID, 5), (K.bu_PHASE, 6)] : State).n K.net_NODE_ID) (toBytes 12 (1 + 2 ^ 8 + 5 * 2 ^ 16 + 63 * 2 ^ 24 + 7 * 2 ^ 32 + 9 * 2 ^ 48 + 24 * 2 ^ 64) ++ toBytes 24 (1 + 0x1008 * 2 ^ 16 + 4 * 2 ^ 32) : List Byte).length (KdpIn.of (toBytes 12 (1 + 2 ^ 8 + 5 * 2 ^ 16 + 63 * 2 ^ 24 + 7 * 2 ^ 32 + 9 * 2 ^ 48 + 24 * 2 ^ 64) ++ toBytes 24 (1 + 0x1008 * 2 ^ 16 + 4 * 2 ^ 32) : List Byte)) = false) ∧
    ((KdpIn.of (toBytes 12 (1 + 2 ^ 8 + 5 * 2 ^ 16 + 63 * 2 ^ 24 + 7 * 2 ^ 32 + 9 * 2 ^ 48 + 24 * 2 ^ 64) ++ toBytes 24 (1 + 0x1008 * 2 ^ 16 + 4 * 2 ^ 32) : List Byte)).typ = 1) ∧
    ((KdpIn.of (toBytes 12 (1 + 2 ^ 8 + 5 * 2 ^ 16 + 63 * 2 ^ 24 + 7 * 2 ^ 32 + 9 * 2 ^ 48 + 24 * 2 ^ 64) ++ toBytes 24 (1 + 0x1008 * 2 ^ 16 + 4 * 2 ^ 32) : List Byte)).dst ≠ 0x7F) ∧
    ((kget? (objs [(K.net_NODE_ID, 5), (K.bu_PHASE, 6)] : State).dict.clients ((KdpIn.of (toBytes 12 (1 + 2 ^ 8 + 5 * 2 ^ 16 + 63 * 2 ^ 24 + 7 * 2 ^ 32 + 9 * 2 ^ 48 + 24 * 2 ^ 64) ++ toBytes 24 (1 + 0x1008 * 2 ^ 16 + 4 * 2 ^ 32) : List Byte)).src % 64)).all (fun c => c.session != (KdpIn.of (toBytes 12 (1 + 2 ^ 8 + 5 * 2 ^ 16 + 63 * 2 ^ 24 + 7 * 2 ^ 32 + 9 * 2 ^ 48 + 24 * 2 ^ 64) ++ toBytes 24 (1 + 0x1008 * 2 ^ 16 + 4 * 2 ^ 32) : List Byte)).session || c.seq != (KdpIn.of (toBytes 12 (1 + 2 ^ 8 + 5 * 2 ^ 16 + 63 * 2 ^ 24 + 7 * 2 ^ 32 + 9 * 2 ^ 48 + 24 * 2 ^ 64) ++ toBytes 24 (1 + 0x1008 * 2 ^ 16 + 4 * 2 ^ 32) : List Byte)).seq) = true) ∧
    ((allTxns.all (fun k => ((objs [(K.net_NODE_ID, 5), (K.bu_PHASE, 6)] : State).txn k).st != 1)) = true) ∧
    (field (KdpIn.of (toBytes 12 (1 + 2 ^ 8 + 5 * 2 ^ 16 + 63 * 2 ^ 24 + 7 * 2 ^ 32 + 9 * 2 ^ 48 + 24 * 2 ^ 64) ++ toBytes 24 (1 + 0x1008 * 2 ^ 16 + 4 * 2 ^ 32) : List Byte)).body 0 1 = 1) ∧
    (field (KdpIn.of (toBytes 12 (1 + 2 ^ 8 + 5 * 2 ^ 16 + 63 * 2 ^ 24 + 7 * 2 ^ 32 + 9 * 2 ^ 48 + 24 * 2 ^ 64) ++ toBytes 24 (1 + 0x1008 * 2 ^ 16 + 4 * 2 ^ 32) : List Byte)).body 6 2 = 0) ∧
    ((findObject (askKey (KdpIn.of (toBytes 12 (1 + 2 ^ 8 + 5 * 2 ^ 16 + 63 * 2 ^ 24 + 7 * 2 ^ 32 + 9 * 2 ^ 48 + 24 * 2 ^ 64) ++ toBytes 24 (1 + 0x1008 * 2 ^ 16 + 4 * 2 ^ 32) : List Byte)).body)).toOption = some (((findObject 0x100804).toOption.getD ⟨.one 0, "", .bool, .ro, .V, 0, .any⟩) : Objects.Row)) ∧
    ((((findObject 0x100804).toOption.getD ⟨.one 0, "", .bool, .ro, .V, 0, .any⟩) : Objects.Row).acc ≠ .wo) ∧
    (isDomain (((findObject 0x100804).toOption.getD ⟨.one 0, "", .bool, .ro, .V, 0, .any⟩) : Objects.Row).ty = false) ∧
    (domRuns (objs [(K.net_NODE_ID, 5), (K.bu_PHASE, 6)] : State) (objDom (askKey (KdpIn.of (toBytes 12 (1 + 2 ^ 8 + 5 * 2 ^ 16 + 63 * 2 ^ 24 + 7 * 2 ^ 32 + 9 * 2 ^ 48 + 24 * 2 ^ 64) ++ toBytes 24 (1 + 0x1008 * 2 ^ 16 + 4 * 2 ^ 32) : List Byte)).body)) = true) := by decide +kernel

/-- The hypotheses of FieldNetworkPort, clause 2, are met. -/
theorem test_meets_FieldNetworkPort_2 :
    (domRuns ((fun s : State => { s with dict := { s.dict with clients := [(63, ⟨7, 9, 5, some []⟩)] } }) (objs [(K.net_NODE_ID, 5), (K.bu_PHASE, 6)]) : State) .t1s = true) ∧
    (((fun s : State => { s with dict := { s.dict with clients := [(63, ⟨7, 9, 5, some []⟩)] } }) (objs [(K.net_NODE_ID, 5), (K.bu_PHASE, 6)]) : State).portOn = true) ∧
    (kdpBad (BitVec.allOnes 48 : BitVec 48) (((fun s : State => { s with dict := { s.dict with clients := [(63, ⟨7, 9, 5, some []⟩)] } }) (objs [(K.net_NODE_ID, 5), (K.bu_PHASE, 6)]) : State).n K.net_NODE_ID) (toBytes 12 (1 + 2 ^ 8 + 5 * 2 ^ 16 + 63 * 2 ^ 24 + 7 * 2 ^ 32 + 9 * 2 ^ 48 + 24 * 2 ^ 64) ++ toBytes 24 1 : List Byte).length (KdpIn.of (toBytes 12 (1 + 2 ^ 8 + 5 * 2 ^ 16 + 63 * 2 ^ 24 + 7 * 2 ^ 32 + 9 * 2 ^ 48 + 24 * 2 ^ 64) ++ toBytes 24 1 : List Byte)) = false) ∧
    ((KdpIn.of (toBytes 12 (1 + 2 ^ 8 + 5 * 2 ^ 16 + 63 * 2 ^ 24 + 7 * 2 ^ 32 + 9 * 2 ^ 48 + 24 * 2 ^ 64) ++ toBytes 24 1 : List Byte)).typ = 1) ∧
    (kget? ((fun s : State => { s with dict := { s.dict with clients := [(63, ⟨7, 9, 5, some []⟩)] } }) (objs [(K.net_NODE_ID, 5), (K.bu_PHASE, 6)]) : State).dict.clients ((KdpIn.of (toBytes 12 (1 + 2 ^ 8 + 5 * 2 ^ 16 + 63 * 2 ^ 24 + 7 * 2 ^ 32 + 9 * 2 ^ 48 + 24 * 2 ^ 64) ++ toBytes 24 1 : List Byte)).src % 64) = some ({ session := 7, seq := 9, mac := 5, resp := some [] } : Client)) ∧
    (({ session := 7, seq := 9, mac := 5, resp := some [] } : Client).session = (KdpIn.of (toBytes 12 (1 + 2 ^ 8 + 5 * 2 ^ 16 + 63 * 2 ^ 24 + 7 * 2 ^ 32 + 9 * 2 ^ 48 + 24 * 2 ^ 64) ++ toBytes 24 1 : List Byte)).session) ∧
    (({ session := 7, seq := 9, mac := 5, resp := some [] } : Client).seq = (KdpIn.of (toBytes 12 (1 + 2 ^ 8 + 5 * 2 ^ 16 + 63 * 2 ^ 24 + 7 * 2 ^ 32 + 9 * 2 ^ 48 + 24 * 2 ^ 64) ++ toBytes 24 1 : List Byte)).seq) ∧
    (({ session := 7, seq := 9, mac := 5, resp := some [] } : Client).resp = some ([] : List Byte)) := by decide +kernel

/-- The hypotheses of FieldNetworkPort, clause 3, are met. -/
theorem test_meets_FieldNetworkPort_3 :
    (domRuns (objs [(K.net_NODE_ID, 5), (K.bu_PHASE, 6)] : State) .t1s = true) ∧
    ((objs [(K.net_NODE_ID, 5), (K.bu_PHASE, 6)] : State).portOn = true) ∧
    (kdpBad (BitVec.allOnes 48 : BitVec 48) ((objs [(K.net_NODE_ID, 5), (K.bu_PHASE, 6)] : State).n K.net_NODE_ID) ([] : List Byte).length (KdpIn.of ([] : List Byte)) = true) := by decide +kernel

/-- The hypotheses of FieldNetworkPort, clause 4, are met. -/
theorem test_meets_FieldNetworkPort_4 :
    ((up0 : State).g K.net_NODE_ID = 0) := by decide +kernel

/-- The hypotheses of FieldNetworkPort, clause 5, are met. -/
theorem test_meets_FieldNetworkPort_5 :
    (domRuns ((fun s : State => { s with dict := { s.dict with notif := some { node := 3, seq := 0xFFFF, body := [] } } }) up0 : State) .t1s = true) ∧
    (((fun s : State => { s with dict := { s.dict with notif := some { node := 3, seq := 0xFFFF, body := [] } } }) up0 : State).dict.notif = some ({ node := 3, seq := 0xFFFF, body := [] } : Notif)) ∧
    (((fun s : State => { s with dict := { s.dict with notif := some { node := 3, seq := 0xFFFF, body := [] } } }) up0 : State).dict.notifQ = []) := by decide +kernel

/-- The hypotheses of FieldNetworkPort, clause 6, are met. -/
theorem test_meets_FieldNetworkPort_6 :
    (((fun s : State => { s with dict := { s.dict with notif := some { node := 3, seq := 0xFFFF, body := [] } } }) up0 : State).dict.notif = some ({ node := 3, seq := 0xFFFF, body := [] } : Notif)) ∧
    (({ node := 3, seq := 0xFFFF, body := [] } : Notif).seq ≠ (5 : BitVec 16)) ∧
    (domRuns ((fun s : State => { s with dict := { s.dict with notif := some { node := 3, seq := 0xFFFF, body := [] } } }) up0 : State) .t1s = true) := by decide +kernel

/-- The hypotheses of FieldNetworkPort, clause 7, are met. -/
theorem test_meets_FieldNetworkPort_7 :
    (domRuns ((fun s : State => { s with dict := { s.dict with notif := some { node := 3, seq := 0, body := [], tries := 7 } } }) up0 : State) .t1s = true) ∧
    (((fun s : State => { s with dict := { s.dict with notif := some { node := 3, seq := 0, body := [], tries := 7 } } }) up0 : State).dict.notif = some ({ node := 3, seq := 0, body := [], tries := 7 } : Notif)) ∧
    (({ node := 3, seq := 0, body := [], tries := 7 } : Notif).tries < 8) := by decide +kernel

/-- The hypotheses of FieldNetworkPort, clause 8, are met. -/
theorem test_meets_FieldNetworkPort_8 :
    (domRuns ((fun s : State => { s with dict := { s.dict with notif := some { node := 3, seq := 0, body := [], tries := 8 } } }) up0 : State) .t1s = true) ∧
    (((fun s : State => { s with dict := { s.dict with notif := some { node := 3, seq := 0, body := [], tries := 8 } } }) up0 : State).dict.notif = some ({ node := 3, seq := 0, body := [], tries := 8 } : Notif)) ∧
    (8 ≤ ({ node := 3, seq := 0, body := [], tries := 8 } : Notif).tries) ∧
    (((fun s : State => { s with dict := { s.dict with notif := some { node := 3, seq := 0, body := [], tries := 8 } } }) up0 : State).dict.notifQ = []) := by decide +kernel

/-- The hypotheses of FieldNetworkPort, clause 9, are met. -/
theorem test_meets_FieldNetworkPort_9 :
    (domRuns (objs [(K.net_PLCA_STATUS, 1)] : State) .t1s = true) := by decide +kernel

/-- The hypotheses of FieldNetworkPort, clause 10, are met. -/
theorem test_meets_FieldNetworkPort_10 :
    (domRuns (up0 : State) .t1s = true) := by decide +kernel

/-- The hypotheses of DictionaryReadsAndMailbox, clause 1, are met. -/
theorem test_meets_DictionaryReadsAndMailbox_1 :
    (MboxOn (objs [(K.bu_PHASE, 6)] : State)) ∧
    (domRuns (objs [(K.bu_PHASE, 6)] : State) (objDom (argKey ({ index := 0x1008, sub := 4 } : DictArgs))) = true) ∧
    (({ index := 0x1008, sub := 4 } : DictArgs).txn = 0) ∧
    ((findObject (argKey ({ index := 0x1008, sub := 4 } : DictArgs))).toOption = some (((findObject 0x100804).toOption.getD ⟨.one 0, "", .bool, .ro, .V, 0, .any⟩) : Objects.Row)) ∧
    ((((findObject 0x100804).toOption.getD ⟨.one 0, "", .bool, .ro, .V, 0, .any⟩) : Objects.Row).acc ≠ .wo) ∧
    (isDomain (((findObject 0x100804).toOption.getD ⟨.one 0, "", .bool, .ro, .V, 0, .any⟩) : Objects.Row).ty = false) := by decide +kernel

/-- The hypotheses of DictionaryReadsAndMailbox, clause 3, are met. -/
theorem test_meets_DictionaryReadsAndMailbox_3 :
    (MboxOn (objs [(K.bu_PHASE, 6), (K.cg_GROUP_STATE 0, 1)] : State)) ∧
    (({ index := 0x2020, sub := 1 } : DictArgs).txn = 0) ∧
    ((findObject (argKey ({ index := 0x2020, sub := 1 } : DictArgs))).toOption = some (((findObject 0x202001).toOption.getD ⟨.one 0, "", .bool, .ro, .V, 0, .any⟩) : Objects.Row)) ∧
    ((((findObject 0x202001).toOption.getD ⟨.one 0, "", .bool, .ro, .V, 0, .any⟩) : Objects.Row).acc ≠ .wo) ∧
    (domRuns (objs [(K.bu_PHASE, 6), (K.cg_GROUP_STATE 0, 1)] : State) (objDom (argKey ({ index := 0x2020, sub := 1 } : DictArgs))) = false) ∧
    (domSwitches (objs [(K.bu_PHASE, 6), (K.cg_GROUP_STATE 0, 1)] : State) (objDom (argKey ({ index := 0x2020, sub := 1 } : DictArgs))) = false) := by decide +kernel

/-- The hypotheses of DictionaryReadsAndMailbox, clause 4, are met. -/
theorem test_meets_DictionaryReadsAndMailbox_4 :
    (MboxOn (objs [(K.bu_PHASE, 4)] : State)) ∧
    (domRuns (objs [(K.bu_PHASE, 4)] : State) (objDom (askKey (toBytes 24 (1 + 0x1008 * 2 ^ 16 + 4 * 2 ^ 32) : List Byte))) = true) ∧
    (field (toBytes 24 (1 + 0x1008 * 2 ^ 16 + 4 * 2 ^ 32) : List Byte) 0 1 = 1) ∧
    (field (toBytes 24 (1 + 0x1008 * 2 ^ 16 + 4 * 2 ^ 32) : List Byte) 6 2 = 0) ∧
    ((findObject (askKey (toBytes 24 (1 + 0x1008 * 2 ^ 16 + 4 * 2 ^ 32) : List Byte))).toOption = some (((findObject 0x100804).toOption.getD ⟨.one 0, "", .bool, .ro, .V, 0, .any⟩) : Objects.Row)) ∧
    ((((findObject 0x100804).toOption.getD ⟨.one 0, "", .bool, .ro, .V, 0, .any⟩) : Objects.Row).acc ≠ .wo) ∧
    (isDomain (((findObject 0x100804).toOption.getD ⟨.one 0, "", .bool, .ro, .V, 0, .any⟩) : Objects.Row).ty = false) := by decide +kernel

/-- The hypotheses of DictionaryReadsAndMailbox are met (1). -/
theorem test_meets_DictionaryReadsAndMailbox_t1 :
    MboxOn (objs [(K.bu_PHASE, 6)]) ∧ domRuns (objs [(K.bu_PHASE, 6)]) (objDom 0) = true ∧ (findObject 0).toOption = none  := by decide +kernel

/-- The hypotheses of TransactionsStageAndCommit, clause 1, are met. -/
theorem test_meets_TransactionsStageAndCommit_1 :
    (MboxOn (objs [(K.bu_PHASE, 6)] : State)) ∧
    (((objs [(K.bu_PHASE, 6)] : State).txn 0).st = 0) ∧
    (nextNum (objs [(K.bu_PHASE, 6)] : State).fresh 0 = (1 : Nat)) := by decide +kernel

/-- The hypotheses of TransactionsStageAndCommit, clause 2, are met. -/
theorem test_meets_TransactionsStageAndCommit_2 :
    (MboxOn ((fun s : State => { s with dict := { s.dict with txns := Vector.replicate 8 { num := 1, st := 1 } } }) (objs [(K.bu_PHASE, 6)]) : State)) ∧
    ((allTxns.all (fun k => (((fun s : State => { s with dict := { s.dict with txns := Vector.replicate 8 { num := 1, st := 1 } } }) (objs [(K.bu_PHASE, 6)]) : State).txn k).live)) = true) := by decide +kernel

/-- The hypotheses of TransactionsStageAndCommit, clause 3, are met. -/
theorem test_meets_TransactionsStageAndCommit_3 :
    (MboxOn ((objs [(K.bu_PHASE, 6)]).setTxn 7 { num := 9, st := 1 } : State)) ∧
    (({ index := 0x2270, sub := 1, txn := 9, data := [1, 0, 0, 0] } : DictArgs).txn ≠ 0) ∧
    (findTxn ((objs [(K.bu_PHASE, 6)]).setTxn 7 { num := 9, st := 1 } : State) ({ index := 0x2270, sub := 1, txn := 9, data := [1, 0, 0, 0] } : DictArgs).txn.toNat = some (7 : Fin 8)) ∧
    ((((objs [(K.bu_PHASE, 6)]).setTxn 7 { num := 9, st := 1 } : State).txn (7 : Fin 8)).owner = .mbox) ∧
    ((((objs [(K.bu_PHASE, 6)]).setTxn 7 { num := 9, st := 1 } : State).txn (7 : Fin 8)).st = 1) ∧
    ((((objs [(K.bu_PHASE, 6)]).setTxn 7 { num := 9, st := 1 } : State).txn (7 : Fin 8)).wait = .nothing) ∧
    ((findObject (Objects.ob ({ index := 0x2270, sub := 1, txn := 9, data := [1, 0, 0, 0] } : DictArgs).index.toNat ({ index := 0x2270, sub := 1, txn := 9, data := [1, 0, 0, 0] } : DictArgs).sub.toNat)).toOption = some (((findObject 0x227001).toOption.getD ⟨.one 0, "", .bool, .ro, .V, 0, .any⟩) : Objects.Row)) ∧
    (((((findObject 0x227001).toOption.getD ⟨.one 0, "", .bool, .ro, .V, 0, .any⟩) : Objects.Row).acc = .rw ∨ (((findObject 0x227001).toOption.getD ⟨.one 0, "", .bool, .ro, .V, 0, .any⟩) : Objects.Row).acc = .rwt)) ∧
    (tySize (((findObject 0x227001).toOption.getD ⟨.one 0, "", .bool, .ro, .V, 0, .any⟩) : Objects.Row).ty = some ({ index := 0x2270, sub := 1, txn := 9, data := [1, 0, 0, 0] } : DictArgs).data.length) ∧
    (lockedElse ((objs [(K.bu_PHASE, 6)]).setTxn 7 { num := 9, st := 1 } : State) (Objects.ob ({ index := 0x2270, sub := 1, txn := 9, data := [1, 0, 0, 0] } : DictArgs).index.toNat ({ index := 0x2270, sub := 1, txn := 9, data := [1, 0, 0, 0] } : DictArgs).sub.toNat) (some (7 : Fin 8)) = false) ∧
    (((objs [(K.bu_PHASE, 6)]).setTxn 7 { num := 9, st := 1 } : State).dict.domW = []) ∧
    (Txn.bytes { ((objs [(K.bu_PHASE, 6)]).setTxn 7 { num := 9, st := 1 } : State).txn (7 : Fin 8) with named := ((objs [(K.bu_PHASE, 6)]).setTxn 7 { num := 9, st := 1 } : State).now, staged := kput (((objs [(K.bu_PHASE, 6)]).setTxn 7 { num := 9, st := 1 } : State).txn (7 : Fin 8)).staged (Objects.ob ({ index := 0x2270, sub := 1, txn := 9, data := [1, 0, 0, 0] } : DictArgs).index.toNat ({ index := 0x2270, sub := 1, txn := 9, data := [1, 0, 0, 0] } : DictArgs).sub.toNat) (valueOf (((findObject 0x227001).toOption.getD ⟨.one 0, "", .bool, .ro, .V, 0, .any⟩) : Objects.Row).ty ({ index := 0x2270, sub := 1, txn := 9, data := [1, 0, 0, 0] } : DictArgs).data) } ≤ 65536) := by decide +kernel

/-- The hypotheses of TransactionsStageAndCommit, clause 4, are met. -/
theorem test_meets_TransactionsStageAndCommit_4 :
    (MboxOn (objs [(K.bu_PHASE, 6)] : State)) ∧
    (timingOn (objs [(K.bu_PHASE, 6)] : State) = true) ∧
    (NoneDue (objs [(K.bu_PHASE, 6)] : State)) ∧
    (lockedElse (objs [(K.bu_PHASE, 6)] : State) (K.pa_PARAM (31 : SiteId) (63 : Fin 64)) none = false) ∧
    ((objs [(K.bu_PHASE, 6)] : State).dict.domW = []) ∧
    ((objs [(K.bu_PHASE, 6)] : State).g K.te_APPLIES < 18446744073709551615) := by decide +kernel

/-- The hypotheses of TransactionsStageAndCommit, clause 5, are met. -/
theorem test_meets_TransactionsStageAndCommit_5 :
    (MboxOn ((objs [(K.bu_PHASE, 6)]).setTxn 7 { num := 9, st := 1, staged := [(K.pa_PARAM 31 63, .num 5)] } : State)) ∧
    (findTxn ((objs [(K.bu_PHASE, 6)]).setTxn 7 { num := 9, st := 1, staged := [(K.pa_PARAM 31 63, .num 5)] } : State) ({ txn := 9, apply := 3 } : DictArgs).txn.toNat = some (7 : Fin 8)) ∧
    ((((objs [(K.bu_PHASE, 6)]).setTxn 7 { num := 9, st := 1, staged := [(K.pa_PARAM 31 63, .num 5)] } : State).txn (7 : Fin 8)).owner = .mbox) ∧
    ((((objs [(K.bu_PHASE, 6)]).setTxn 7 { num := 9, st := 1, staged := [(K.pa_PARAM 31 63, .num 5)] } : State).txn (7 : Fin 8)).st = 1) ∧
    ((((objs [(K.bu_PHASE, 6)]).setTxn 7 { num := 9, st := 1, staged := [(K.pa_PARAM 31 63, .num 5)] } : State).txn (7 : Fin 8)).wait = .nothing) ∧
    (({ txn := 9, apply := 3 } : DictArgs).apply = 3) ∧
    ((((objs [(K.bu_PHASE, 6)]).setTxn 7 { num := 9, st := 1, staged := [(K.pa_PARAM 31 63, .num 5)] } : State).txn (7 : Fin 8)).dom = []) ∧
    ((((objs [(K.bu_PHASE, 6)]).setTxn 7 { num := 9, st := 1, staged := [(K.pa_PARAM 31 63, .num 5)] } : State).txn (7 : Fin 8)).staged ≠ []) ∧
    (pfw ((objs [(K.bu_PHASE, 6)]).setTxn 7 { num := 9, st := 1, staged := [(K.pa_PARAM 31 63, .num 5)] } : State) = false) := by decide +kernel

/-- The hypotheses of TransactionsStageAndCommit, clause 6, are met. -/
theorem test_meets_TransactionsStageAndCommit_6 :
    (MboxOn ((objs [(K.bu_PHASE, 6)]).setTxn 7 { num := 9, st := 1, staged := [(K.pa_PARAM 31 63, .num 5)] } : State)) ∧
    (findTxn ((objs [(K.bu_PHASE, 6)]).setTxn 7 { num := 9, st := 1, staged := [(K.pa_PARAM 31 63, .num 5)] } : State) ({ txn := 9 } : DictArgs).txn.toNat = some (7 : Fin 8)) ∧
    ((((objs [(K.bu_PHASE, 6)]).setTxn 7 { num := 9, st := 1, staged := [(K.pa_PARAM 31 63, .num 5)] } : State).txn (7 : Fin 8)).owner = .mbox) ∧
    ((((objs [(K.bu_PHASE, 6)]).setTxn 7 { num := 9, st := 1, staged := [(K.pa_PARAM 31 63, .num 5)] } : State).txn (7 : Fin 8)).st = 1) ∧
    ((((objs [(K.bu_PHASE, 6)]).setTxn 7 { num := 9, st := 1, staged := [(K.pa_PARAM 31 63, .num 5)] } : State).txn (7 : Fin 8)).wait = .nothing) ∧
    ((((objs [(K.bu_PHASE, 6)]).setTxn 7 { num := 9, st := 1, staged := [(K.pa_PARAM 31 63, .num 5)] } : State).txn (7 : Fin 8)).report = false) ∧
    ((((objs [(K.bu_PHASE, 6)]).setTxn 7 { num := 9, st := 1, staged := [(K.pa_PARAM 31 63, .num 5)] } : State).txn (7 : Fin 8)).ask = none) := by decide +kernel

/-- The hypotheses of TransactionsStageAndCommit, clause 7, are met. -/
theorem test_meets_TransactionsStageAndCommit_7 :
    (MboxOn (objs [(K.bu_PHASE, 6)] : State)) ∧
    (findTxn (objs [(K.bu_PHASE, 6)] : State) ({} : DictArgs).txn.toNat = none) := by decide +kernel

/-- The hypotheses of TransactionsStageAndCommit, clause 8, are met. -/
theorem test_meets_TransactionsStageAndCommit_8 :
    (MboxOn ((fun s : State => { s with dict := { s.dict with domW := [{ path := .mbox, key := K.fwm_FW_IMAGE, got := [0], at_ := 0 }] } }) (objs [(K.bu_PHASE, 6)]) : State)) ∧
    (((fun s : State => { s with dict := { s.dict with domW := [{ path := .mbox, key := K.fwm_FW_IMAGE, got := [0], at_ := 0 }] } }) (objs [(K.bu_PHASE, 6)]) : State).dict.domW = [({ path := .mbox, key := K.fwm_FW_IMAGE, got := [0], at_ := 0 } : DomW)]) ∧
    (({ path := .mbox, key := K.fwm_FW_IMAGE, got := [0], at_ := 0 } : DomW).path = .mbox) ∧
    (({ path := .mbox, key := K.fwm_FW_IMAGE, got := [0], at_ := 0 } : DomW).key = K.fwm_FW_IMAGE) ∧
    (({ path := .mbox, key := K.fwm_FW_IMAGE, got := [0], at_ := 0 } : DomW).got.length = (1 : Nat)) ∧
    (0 < (1 : Nat)) ∧
    ((List.replicate 4096 0 : List Byte).length = 4096) ∧
    ((1 : Nat) + 4096 ≤ 1048576) ∧
    (lockedElse ((fun s : State => { s with dict := { s.dict with domW := [{ path := .mbox, key := K.fwm_FW_IMAGE, got := [0], at_ := 0 }] } }) (objs [(K.bu_PHASE, 6)]) : State) K.fwm_FW_IMAGE none = false) := ⟨by decide +kernel, rfl, rfl, rfl, rfl, by decide, List.length_replicate, by decide, by decide +kernel⟩

/-- The hypotheses of TransactionsStageAndCommit, clause 9, are met. -/
theorem test_meets_TransactionsStageAndCommit_9 :
    (MboxOn (objs [(K.bu_PHASE, 6)] : State)) ∧
    (0 < (4096 : Nat)) ∧
    (([] : List Byte).length ≤ 4096) ∧
    (lockedElse (objs [(K.bu_PHASE, 6)] : State) K.fwm_FW_IMAGE none = false) ∧
    (((objs [(K.bu_PHASE, 6)] : State).dict.domW.all (fun d => d.key != K.fwm_FW_IMAGE)) = true) := by decide +kernel

/-- The hypotheses of TransactionsApplyAndEnd, clause 1, are met. -/
theorem test_meets_TransactionsApplyAndEnd_1 :
    (domRuns (up0.setTxn 7 { num := 9, st := 1, wait := .record, kind := 3, ask := some ⟨.mbox, 4, {}, 0, 0, 0⟩ } : State) .mgmt = true) ∧
    (domRuns (up0.setTxn 7 { num := 9, st := 1, wait := .record, kind := 3, ask := some ⟨.mbox, 4, {}, 0, 0, 0⟩ } : State) .nor = true) ∧
    (norUp (up0.setTxn 7 { num := 9, st := 1, wait := .record, kind := 3, ask := some ⟨.mbox, 4, {}, 0, 0, 0⟩ } : State) = true) ∧
    (((up0.setTxn 7 { num := 9, st := 1, wait := .record, kind := 3, ask := some ⟨.mbox, 4, {}, 0, 0, 0⟩ } : State).txn (7 : Fin 8)).st = 1) ∧
    (((up0.setTxn 7 { num := 9, st := 1, wait := .record, kind := 3, ask := some ⟨.mbox, 4, {}, 0, 0, 0⟩ } : State).txn (7 : Fin 8)).wait = .record) ∧
    (((up0.setTxn 7 { num := 9, st := 1, wait := .record, kind := 3, ask := some ⟨.mbox, 4, {}, 0, 0, 0⟩ } : State).txn (7 : Fin 8)).kind = 3) := by decide +kernel

/-- The hypotheses of TransactionsApplyAndEnd, clause 2, are met. -/
theorem test_meets_TransactionsApplyAndEnd_2 :
    (domRuns (up0.setTxn 7 { num := 9, st := 1, wait := .record, kind := 3 } : State) .mgmt = true) ∧
    (domRuns (up0.setTxn 7 { num := 9, st := 1, wait := .record, kind := 3 } : State) .nor = true) ∧
    (((false : Bool) = false ∨ norUp (up0.setTxn 7 { num := 9, st := 1, wait := .record, kind := 3 } : State) = false)) ∧
    (((up0.setTxn 7 { num := 9, st := 1, wait := .record, kind := 3 } : State).txn (7 : Fin 8)).st = 1) ∧
    (((up0.setTxn 7 { num := 9, st := 1, wait := .record, kind := 3 } : State).txn (7 : Fin 8)).wait = .record) ∧
    (((up0.setTxn 7 { num := 9, st := 1, wait := .record, kind := 3 } : State).txn (7 : Fin 8)).report = false) := by decide +kernel

/-- The hypotheses of TransactionsApplyAndEnd, clause 3, are met. -/
theorem test_meets_TransactionsApplyAndEnd_3 :
    (domRuns (up0.setTxn 7 { num := 9, st := 2, staged := [(K.pa_PARAM 31 63, .num 5)] } : State) .mgmt = true) ∧
    (((up0.setTxn 7 { num := 9, st := 2, staged := [(K.pa_PARAM 31 63, .num 5)] } : State).txn (7 : Fin 8)).st = 2) ∧
    (((up0.setTxn 7 { num := 9, st := 2, staged := [(K.pa_PARAM 31 63, .num 5)] } : State).txn (7 : Fin 8)).wait = .nothing) ∧
    (pointReached (up0.setTxn 7 { num := 9, st := 2, staged := [(K.pa_PARAM 31 63, .num 5)] } : State) ((up0.setTxn 7 { num := 9, st := 2, staged := [(K.pa_PARAM 31 63, .num 5)] } : State).txn (7 : Fin 8)) = true) ∧
    (((up0.setTxn 7 { num := 9, st := 2, staged := [(K.pa_PARAM 31 63, .num 5)] } : State).txn (7 : Fin 8)).staged = [(K.pa_PARAM (31 : SiteId) (63 : Fin 64), .num (5 : Nat))]) ∧
    (((up0.setTxn 7 { num := 9, st := 2, staged := [(K.pa_PARAM 31 63, .num 5)] } : State).txn (7 : Fin 8)).extra = []) ∧
    (((up0.setTxn 7 { num := 9, st := 2, staged := [(K.pa_PARAM 31 63, .num 5)] } : State).txn (7 : Fin 8)).job = none) ∧
    (OnlyDue (7 : Fin 8) (up0.setTxn 7 { num := 9, st := 2, staged := [(K.pa_PARAM 31 63, .num 5)] } : State)) ∧
    (((up0.setTxn 7 { num := 9, st := 2, staged := [(K.pa_PARAM 31 63, .num 5)] } : State).txn (7 : Fin 8)).report = false) ∧
    (recheck (ctxOf (up0.setTxn 7 { num := 9, st := 2, staged := [(K.pa_PARAM 31 63, .num 5)] } : State).fresh (up0.setTxn 7 { num := 9, st := 2, staged := [(K.pa_PARAM 31 63, .num 5)] } : State).fresh [(K.pa_PARAM (31 : SiteId) (63 : Fin 64), .num (5 : Nat))] 0 0) = none) ∧
    ((up0.setTxn 7 { num := 9, st := 2, staged := [(K.pa_PARAM 31 63, .num 5)] } : State).g K.te_APPLIES < 18446744073709551615) := by decide +kernel

/-- The hypotheses of TransactionsApplyAndEnd, clause 4, are met. -/
theorem test_meets_TransactionsApplyAndEnd_4 :
    (domRuns (up0.setTxn 7 { num := 9, st := 2, wait := .mark } : State) .mgmt = true) ∧
    (domRuns (up0.setTxn 7 { num := 9, st := 2, wait := .mark } : State) .nor = true) ∧
    (norUp (up0.setTxn 7 { num := 9, st := 2, wait := .mark } : State) = true) ∧
    (((up0.setTxn 7 { num := 9, st := 2, wait := .mark } : State).txn (7 : Fin 8)).st = 2) ∧
    (((up0.setTxn 7 { num := 9, st := 2, wait := .mark } : State).txn (7 : Fin 8)).wait = .mark) ∧
    (((up0.setTxn 7 { num := 9, st := 2, wait := .mark } : State).txn (7 : Fin 8)).report = false) := by decide +kernel

/-- The hypotheses of TransactionsApplyAndEnd, clause 5, are met. -/
theorem test_meets_TransactionsApplyAndEnd_5 :
    (domRuns ({ (up0.setTxn 7 { num := 9, st := 1 }) with now := 1000000000000000 } : State) .mgmt = true) ∧
    ((({ (up0.setTxn 7 { num := 9, st := 1 }) with now := 1000000000000000 } : State).txn (7 : Fin 8)).st = 1) ∧
    ((({ (up0.setTxn 7 { num := 9, st := 1 }) with now := 1000000000000000 } : State).txn (7 : Fin 8)).wait = .nothing) ∧
    (timedOut ({ (up0.setTxn 7 { num := 9, st := 1 }) with now := 1000000000000000 } : State) (({ (up0.setTxn 7 { num := 9, st := 1 }) with now := 1000000000000000 } : State).txn (7 : Fin 8)).named = true) ∧
    ((({ (up0.setTxn 7 { num := 9, st := 1 }) with now := 1000000000000000 } : State).txn (7 : Fin 8)).report = false) ∧
    (({ (up0.setTxn 7 { num := 9, st := 1 }) with now := 1000000000000000 } : State).g K.te_TIMEOUTS < 4294967295) := by decide +kernel

/-- The hypotheses of TransactionsApplyAndEnd, clause 6, are met. -/
theorem test_meets_TransactionsApplyAndEnd_6 :
    (domRuns ((fun s : State => { s with now := 1000000000000000, dict := { s.dict with domW := [{ path := .mbox, key := 0x220601, got := [], at_ := 0 }] } }) up0 : State) .mgmt = true) ∧
    (((0x220601 : BitVec 24).toNat ≠ K.fwm_FW_IMAGE ∨ (((fun s : State => { s with now := 1000000000000000, dict := { s.dict with domW := [{ path := .mbox, key := 0x220601, got := [], at_ := 0 }] } }) up0 : State).dict.domW.all (fun d => d.key != (0x220601 : BitVec 24).toNat || !timedOut ((fun s : State => { s with now := 1000000000000000, dict := { s.dict with domW := [{ path := .mbox, key := 0x220601, got := [], at_ := 0 }] } }) up0 : State) d.at_)) = true)) := by decide +kernel

/-- The hypotheses of TransactionsApplyAndEnd, clause 7, are met. -/
theorem test_meets_TransactionsApplyAndEnd_7 :
    (domRuns ((fun s : State => { s with now := 1000000000000000, dict := { s.dict with domW := [{ path := .mbox, key := K.fwm_FW_IMAGE, got := [], at_ := 0 }] } }) (objs [(K.fwm_SLOT_STATE_A 1, 1)]) : State) .mgmt = true) ∧
    ((((fun s : State => { s with now := 1000000000000000, dict := { s.dict with domW := [{ path := .mbox, key := K.fwm_FW_IMAGE, got := [], at_ := 0 }] } }) (objs [(K.fwm_SLOT_STATE_A 1, 1)]) : State).dict.domW.any (fun d => d.key == K.fwm_FW_IMAGE && timedOut ((fun s : State => { s with now := 1000000000000000, dict := { s.dict with domW := [{ path := .mbox, key := K.fwm_FW_IMAGE, got := [], at_ := 0 }] } }) (objs [(K.fwm_SLOT_STATE_A 1, 1)]) : State) d.at_)) = true) := by decide +kernel

/-- The hypotheses of TransactionsApplyAndEnd, clause 8, are met. -/
theorem test_meets_TransactionsApplyAndEnd_8 :
    (domRuns ((fun s : State => { s with now := 1000000000000000, dict := { s.dict with snaps := [{ path := .mbox, key := 0x220601, val := [], at_ := 0 }] } }) up0 : State) .mgmt = true) := by decide +kernel

/-- The hypotheses of SealSessionsAndRidge, clause 1, are met. -/
theorem test_meets_SealSessionsAndRidge_1 :
    (domRuns (up0 : State) (pathDom (.mbox : Path)) = true) ∧
    (sealOpen (up0 : State) = false) := by decide +kernel

/-- The hypotheses of SealSessionsAndRidge, clause 2, are met. -/
theorem test_meets_SealSessionsAndRidge_2 :
    (domRuns (objs [(K.sk_SEAL_STATE, 1)] : State) (pathDom (.pcie 0 15 : Path)) = true) ∧
    (sealOpen (objs [(K.sk_SEAL_STATE, 1)] : State) = true) := by decide +kernel

/-- The hypotheses of SealSessionsAndRidge, clause 3, are met. -/
theorem test_meets_SealSessionsAndRidge_3 :
    (domRuns (objs [(K.sk_SEAL_STATE, 1), (K.sk_SEAL_SCOPE, 3)] : State) .mgmt = true) ∧
    (sealOpen (objs [(K.sk_SEAL_STATE, 1), (K.sk_SEAL_SCOPE, 3)] : State) = true) := by decide +kernel

/-- The hypotheses of SealSessionsAndRidge, clause 4, are met. -/
theorem test_meets_SealSessionsAndRidge_4 :
    (domRuns (objs [(K.sk_SEAL_STATE, 1)] : State) .mgmt = true) ∧
    (sealOpen (objs [(K.sk_SEAL_STATE, 1)] : State) = true) ∧
    ((objs [(K.sk_SEAL_STATE, 1)] : State).cal.sealEnd ≤ (objs [(K.sk_SEAL_STATE, 1)] : State).now) := by decide +kernel

/-- The hypotheses of SealSessionsAndRidge, clause 5, are met. -/
theorem test_meets_SealSessionsAndRidge_5 :
    (timingOn ({ (objs [(K.rd_RIDGE_PATH, 10000000)]) with now := 9 } : State) = true) ∧
    (ridgeClose ({ (objs [(K.rd_RIDGE_PATH, 10000000)]) with now := 9 } : State) = false) ∧
    (ridgeSclk ({ (objs [(K.rd_RIDGE_PATH, 10000000)]) with now := 9 } : State) (0 : Fin 1250000).val ({ (objs [(K.rd_RIDGE_PATH, 10000000)]) with now := 9 } : State).drawn + 3 ≤ ({ (objs [(K.rd_RIDGE_PATH, 10000000)]) with now := 9 } : State).now) ∧
    ((({ (objs [(K.rd_RIDGE_PATH, 10000000)]) with now := 9 } : State).b K.sg_RIDGE_ARM = false ∨ ridgeSet ({ (objs [(K.rd_RIDGE_PATH, 10000000)]) with now := 9 } : State) = [])) ∧
    ((allEvts.all (fun n => ({ (objs [(K.rd_RIDGE_PATH, 10000000)]) with now := 9 } : State).n (K.el_EVT_SRC n) != 3)) = true) ∧
    (({ (objs [(K.rd_RIDGE_PATH, 10000000)]) with now := 9 } : State).g K.rd_RIDGE_COUNT < 18446744073709551615) ∧
    ((allTxns.map ({ (objs [(K.rd_RIDGE_PATH, 10000000)]) with now := 9 } : State).txn ++ ({ (objs [(K.rd_RIDGE_PATH, 10000000)]) with now := 9 } : State).dict.outs).all (fun x => !x.due ({ (objs [(K.rd_RIDGE_PATH, 10000000)]) with now := 9 } : State) || x.kind != 3) = true) := by decide +kernel

/-- The hypotheses of SealSessionsAndRidge, clause 6, are met. -/
theorem test_meets_SealSessionsAndRidge_6 :
    (timingOn (up0 : State) = true) ∧
    (ridgeClose (up0 : State) = false) ∧
    (((up0 : State).now : Int) < ridgeSclk (up0 : State) (0 : Fin 1250000).val (up0 : State).drawn + 3) := by decide +kernel

/-- The hypotheses of SealSessionsAndRidge, clause 7, are met. -/
theorem test_meets_SealSessionsAndRidge_7 :
    (timingOn ({ (objs [(K.rd_RIDGE_PATH, 10000000), (K.sg_RIDGE_ARM, 1), (K.st_STATE 31, 2), (K.cf_START_MODE 31, 1), (K.st_READY 31, 1)]) with now := 9 } : State) = true) ∧
    (ridgeClose ({ (objs [(K.rd_RIDGE_PATH, 10000000), (K.sg_RIDGE_ARM, 1), (K.st_STATE 31, 2), (K.cf_START_MODE 31, 1), (K.st_READY 31, 1)]) with now := 9 } : State) = false) ∧
    (ridgeSclk ({ (objs [(K.rd_RIDGE_PATH, 10000000), (K.sg_RIDGE_ARM, 1), (K.st_STATE 31, 2), (K.cf_START_MODE 31, 1), (K.st_READY 31, 1)]) with now := 9 } : State) (0 : Fin 1250000).val ({ (objs [(K.rd_RIDGE_PATH, 10000000), (K.sg_RIDGE_ARM, 1), (K.st_STATE 31, 2), (K.cf_START_MODE 31, 1), (K.st_READY 31, 1)]) with now := 9 } : State).drawn + 3 ≤ ({ (objs [(K.rd_RIDGE_PATH, 10000000), (K.sg_RIDGE_ARM, 1), (K.st_STATE 31, 2), (K.cf_START_MODE 31, 1), (K.st_READY 31, 1)]) with now := 9 } : State).now) ∧
    (({ (objs [(K.rd_RIDGE_PATH, 10000000), (K.sg_RIDGE_ARM, 1), (K.st_STATE 31, 2), (K.cf_START_MODE 31, 1), (K.st_READY 31, 1)]) with now := 9 } : State).b K.sg_RIDGE_ARM = true) ∧
    ((31 : SiteId) ∈ ridgeSet ({ (objs [(K.rd_RIDGE_PATH, 10000000), (K.sg_RIDGE_ARM, 1), (K.st_STATE 31, 2), (K.cf_START_MODE 31, 1), (K.st_READY 31, 1)]) with now := 9 } : State)) ∧
    ((ridgeSet ({ (objs [(K.rd_RIDGE_PATH, 10000000), (K.sg_RIDGE_ARM, 1), (K.st_STATE 31, 2), (K.cf_START_MODE 31, 1), (K.st_READY 31, 1)]) with now := 9 } : State)).all (fun kd => ({ (objs [(K.rd_RIDGE_PATH, 10000000), (K.sg_RIDGE_ARM, 1), (K.st_STATE 31, 2), (K.cf_START_MODE 31, 1), (K.st_READY 31, 1)]) with now := 9 } : State).b (K.st_READY kd)) = true) ∧
    ((allEvts.all (fun n => ({ (objs [(K.rd_RIDGE_PATH, 10000000), (K.sg_RIDGE_ARM, 1), (K.st_STATE 31, 2), (K.cf_START_MODE 31, 1), (K.st_READY 31, 1)]) with now := 9 } : State).n (K.el_EVT_SRC n) != 3)) = true) ∧
    (({ (objs [(K.rd_RIDGE_PATH, 10000000), (K.sg_RIDGE_ARM, 1), (K.st_STATE 31, 2), (K.cf_START_MODE 31, 1), (K.st_READY 31, 1)]) with now := 9 } : State).g K.sg_RIDGE_STARTS < 4294967295) ∧
    (({ (objs [(K.rd_RIDGE_PATH, 10000000), (K.sg_RIDGE_ARM, 1), (K.st_STATE 31, 2), (K.cf_START_MODE 31, 1), (K.st_READY 31, 1)]) with now := 9 } : State).g K.rd_RIDGE_COUNT < 18446744073709551615) ∧
    ((allTxns.map ({ (objs [(K.rd_RIDGE_PATH, 10000000), (K.sg_RIDGE_ARM, 1), (K.st_STATE 31, 2), (K.cf_START_MODE 31, 1), (K.st_READY 31, 1)]) with now := 9 } : State).txn ++ ({ (objs [(K.rd_RIDGE_PATH, 10000000), (K.sg_RIDGE_ARM, 1), (K.st_STATE 31, 2), (K.cf_START_MODE 31, 1), (K.st_READY 31, 1)]) with now := 9 } : State).dict.outs).all (fun x => !x.due ({ (objs [(K.rd_RIDGE_PATH, 10000000), (K.sg_RIDGE_ARM, 1), (K.st_STATE 31, 2), (K.cf_START_MODE 31, 1), (K.st_READY 31, 1)]) with now := 9 } : State) || x.kind != 3) = true) := by decide +kernel

/-- The hypotheses of SealSessionsAndRidge, clause 8, are met. -/
theorem test_meets_SealSessionsAndRidge_8 :
    (timingOn (objs [(K.cg_GROUP_STATE 0, 1), (K.rd_RIDGE_MODE, 2)] : State) = false) := by decide +kernel

/-- The hypotheses of SealSessionsAndRidge, clause 9, are met. -/
theorem test_meets_SealSessionsAndRidge_9 :
    (timingOn ((fun s : State => { s with now := 79, clk := { s.clk with ridgeAt := some 0 } }) up0 : State) = true) ∧
    (ridgeClose ((fun s : State => { s with now := 79, clk := { s.clk with ridgeAt := some 0 } }) up0 : State) = true) := by decide +kernel

/-- The hypotheses of SealSessionsAndRidge, clause 10, are met. -/
theorem test_meets_SealSessionsAndRidge_10 :
    (timingOn ((fun s : State => { s with now := 79, clk := { s.clk with ridgeAt := some 0 } }) up0 : State) = true) ∧
    (ridgeClose ((fun s : State => { s with now := 79, clk := { s.clk with ridgeAt := some 0 } }) up0 : State) = true) := by decide +kernel

/-- The hypotheses of TmuHostCommands, clause 1, are met. -/
theorem test_meets_TmuHostCommands_1 :
    (comes (objs [(K.tmo_OWNER 9, 0x80), (K.tt_STATE 9, 4), (K.tt_SAMPLES_DONE 9, 7), (K.tv_COUNT 79, 3)] : State) (none : Option Tag) .timing (.tmuArm (none : Option Tag) (9 : TmuId)) = true) ∧
    ((objs [(K.tmo_OWNER 9, 0x80), (K.tt_STATE 9, 4), (K.tt_SAMPLES_DONE 9, 7), (K.tv_COUNT 79, 3)] : State).n (K.tmo_OWNER (9 : TmuId)) = 0x80) ∧
    ((objs [(K.tmo_OWNER 9, 0x80), (K.tt_STATE 9, 4), (K.tt_SAMPLES_DONE 9, 7), (K.tv_COUNT 79, 3)] : State).tmuBusy (9 : TmuId) = false) := by decide +kernel

/-- The hypotheses of TmuHostCommands, clause 2, are met. -/
theorem test_meets_TmuHostCommands_2 :
    (comes (fly 0x74 0 [9 + 2 ^ 8] (objs [(K.tmo_OWNER 9, 31)]) : State) (some tag0 : Option Tag) .timing (.tmuArm (some tag0 : Option Tag) (9 : TmuId)) = true) ∧
    ((fly 0x74 0 [9 + 2 ^ 8] (objs [(K.tmo_OWNER 9, 31)]) : State).n (K.tmo_OWNER (9 : TmuId)) ≠ 0x80) := by decide +kernel

/-- The hypotheses of TmuHostCommands, clause 3, are met. -/
theorem test_meets_TmuHostCommands_3 :
    (comes (fly 0x74 0 [9 + 2 ^ 8] (objs [(K.tmo_OWNER 9, 0x80), (K.tt_STATE 9, 1)]) : State) (some tag0 : Option Tag) .timing (.tmuArm (some tag0 : Option Tag) (9 : TmuId)) = true) ∧
    ((fly 0x74 0 [9 + 2 ^ 8] (objs [(K.tmo_OWNER 9, 0x80), (K.tt_STATE 9, 1)]) : State).n (K.tmo_OWNER (9 : TmuId)) = 0x80) ∧
    ((fly 0x74 0 [9 + 2 ^ 8] (objs [(K.tmo_OWNER 9, 0x80), (K.tt_STATE 9, 1)]) : State).tmuBusy (9 : TmuId) = true) := by decide +kernel

/-- The hypotheses of TmuHostCommands, clause 4, are met. -/
theorem test_meets_TmuHostCommands_4 :
    (comes (fly 0x74 0 [9 + 2 ^ 9] (objs [(K.tmo_OWNER 9, 0x80), (K.tt_STATE 9, 3)]) : State) (some tag0 : Option Tag) .timing (.tmuDisarm (some tag0 : Option Tag) (9 : TmuId)) = true) ∧
    ((fly 0x74 0 [9 + 2 ^ 9] (objs [(K.tmo_OWNER 9, 0x80), (K.tt_STATE 9, 3)]) : State).n (K.tmo_OWNER (9 : TmuId)) = 0x80) := by decide +kernel

/-- The hypotheses of TmuHostCommands, clause 5, are met. -/
theorem test_meets_TmuHostCommands_5 :
    (comes (objs [(K.tmo_OWNER 9, 31), (K.tt_STATE 9, 3)] : State) (none : Option Tag) .timing (.tmuDisarm (none : Option Tag) (9 : TmuId)) = true) ∧
    ((objs [(K.tmo_OWNER 9, 31), (K.tt_STATE 9, 3)] : State).n (K.tmo_OWNER (9 : TmuId)) ≠ 0x80) := by decide +kernel

/-- The hypotheses of TmuSequencerCommands, clause 1, are met. -/
theorem test_meets_TmuSequencerCommands_1 :
    (timingOn (tmucW 1 {} [] : State) = true) ∧
    (tmucNext (tmucW 1 {} [] : State) (31 : SiteId) 1 = some (⟨31, true, 1, 3, 0, 40⟩ : UnitCmd)) ∧
    (slotTmu (tmucW 1 {} [] : State) (31 : SiteId) (⟨31, true, 1, 3, 0, 40⟩ : UnitCmd).unit = some (9 : TmuId)) ∧
    ((tmucW 1 {} [] : State).tmuBusy (9 : TmuId) = false) := by decide +kernel

/-- The hypotheses of TmuSequencerCommands, clause 2, are met. -/
theorem test_meets_TmuSequencerCommands_2 :
    (timingOn (tmucW 2 {} [(K.tt_STATE 9, 2), (K.tc_GATE_MODE 9, 1)] : State) = true) ∧
    (tmucNext (tmucW 2 {} [(K.tt_STATE 9, 2), (K.tc_GATE_MODE 9, 1)] : State) (31 : SiteId) 2 = some (⟨31, true, 2, 3, 0, 40⟩ : UnitCmd)) ∧
    (slotTmu (tmucW 2 {} [(K.tt_STATE 9, 2), (K.tc_GATE_MODE 9, 1)] : State) (31 : SiteId) (⟨31, true, 2, 3, 0, 40⟩ : UnitCmd).unit = some (9 : TmuId)) ∧
    ((tmucW 2 {} [(K.tt_STATE 9, 2), (K.tc_GATE_MODE 9, 1)] : State).tmuBusy (9 : TmuId) = true) ∧
    ((tmucW 2 {} [(K.tt_STATE 9, 2), (K.tc_GATE_MODE 9, 1)] : State).n (K.tc_GATE_MODE (9 : TmuId)) = 1) := by decide +kernel

/-- The hypotheses of TmuSequencerCommands, clause 3, are met. -/
theorem test_meets_TmuSequencerCommands_3 :
    (timingOn (tmucW 3 {} [(K.tt_STATE 9, 3), (K.tc_GATE_MODE 9, 1), (K.tc_STOP_SRC 9 7, 0x1000)] : State) = true) ∧
    (tmucNext (tmucW 3 {} [(K.tt_STATE 9, 3), (K.tc_GATE_MODE 9, 1), (K.tc_STOP_SRC 9 7, 0x1000)] : State) (31 : SiteId) 3 = some (⟨31, true, 3, 3, 0, 40⟩ : UnitCmd)) ∧
    (slotTmu (tmucW 3 {} [(K.tt_STATE 9, 3), (K.tc_GATE_MODE 9, 1), (K.tc_STOP_SRC 9 7, 0x1000)] : State) (31 : SiteId) (⟨31, true, 3, 3, 0, 40⟩ : UnitCmd).unit = some (9 : TmuId)) ∧
    ((tmucW 3 {} [(K.tt_STATE 9, 3), (K.tc_GATE_MODE 9, 1), (K.tc_STOP_SRC 9 7, 0x1000)] : State).tmuBusy (9 : TmuId) = true) ∧
    ((tmucW 3 {} [(K.tt_STATE 9, 3), (K.tc_GATE_MODE 9, 1), (K.tc_STOP_SRC 9 7, 0x1000)] : State).n (K.tc_GATE_MODE (9 : TmuId)) = 1) ∧
    ((if ((tmucW 3 {} [(K.tt_STATE 9, 3), (K.tc_GATE_MODE 9, 1), (K.tc_STOP_SRC 9 7, 0x1000)] : State).tmu (9 : TmuId)).nextGate.isSome then ((tmucW 3 {} [(K.tt_STATE 9, 3), (K.tc_GATE_MODE 9, 1), (K.tc_STOP_SRC 9 7, 0x1000)] : State).tmu (9 : TmuId)).nextStops else ((tmucW 3 {} [(K.tt_STATE 9, 3), (K.tc_GATE_MODE 9, 1), (K.tc_STOP_SRC 9 7, 0x1000)] : State).tmu (9 : TmuId)).stopGates).length < (usedStops (tmucW 3 {} [(K.tt_STATE 9, 3), (K.tc_GATE_MODE 9, 1), (K.tc_STOP_SRC 9 7, 0x1000)] : State) (9 : TmuId)).length) := by decide +kernel

/-- The hypotheses of TmuSequencerCommands, clause 4, are met. -/
theorem test_meets_TmuSequencerCommands_4 :
    (timingOn (tmucW 4 {} [(K.tt_STATE 9, 3)] : State) = true) ∧
    (tmucNext (tmucW 4 {} [(K.tt_STATE 9, 3)] : State) (31 : SiteId) 4 = some (⟨31, true, 4, 3, 0, 40⟩ : UnitCmd)) ∧
    (slotTmu (tmucW 4 {} [(K.tt_STATE 9, 3)] : State) (31 : SiteId) (⟨31, true, 4, 3, 0, 40⟩ : UnitCmd).unit = some (9 : TmuId)) ∧
    ((tmucW 4 {} [(K.tt_STATE 9, 3)] : State).tmuBusy (9 : TmuId) = true) := by decide +kernel

/-- The hypotheses of TmuSequencerCommands, clause 6, are met. -/
theorem test_meets_TmuSequencerCommands_6 :
    (timingOn ({ tmuW { waitAt := 3 } [(K.tt_STATE 9, 1), (K.tt_CAL_HOLD 9, 1)] with now := 10 } : State) = true) ∧
    (({ tmuW { waitAt := 3 } [(K.tt_STATE 9, 1), (K.tt_CAL_HOLD 9, 1)] with now := 10 } : State).tst (9 : TmuId) = TS.waitCal) ∧
    ((∀ b : BankId, bankTmu b = (9 : TmuId) → (({ tmuW { waitAt := 3 } [(K.tt_STATE 9, 1), (K.tt_CAL_HOLD 9, 1)] with now := 10 } : State).calBank b).firm = true → (({ tmuW { waitAt := 3 } [(K.tt_STATE 9, 1), (K.tt_CAL_HOLD 9, 1)] with now := 10 } : State).tmu (9 : TmuId)).waitAt + 160000 ≤ ({ tmuW { waitAt := 3 } [(K.tt_STATE 9, 1), (K.tt_CAL_HOLD 9, 1)] with now := 10 } : State).now)) := by decide +kernel

/-- The hypotheses of TmuSequencerCommands are met (1). -/
theorem test_meets_TmuSequencerCommands_t1 :
    (fun s : State => timingOn s = true ∧ tmucNext s 31 2 = some ⟨31, true, 2, 3, 0, 40⟩ ∧ slotTmu s 31 3 = some 9 ∧ s.tmuBusy 9 = false) (tmucW 2 {} [(K.tc_GATE_MODE 9, 1)])  := by decide +kernel

/-- The hypotheses of TmuSamples, clause 1, are met. -/
theorem test_meets_TmuSamples_1 :
    (timingOn (tmuW {} [(K.tt_STATE 9, 2), (K.tt_LOCKED 9, 1), (K.tc_START_SRC 9, 0x1100)] : State) = true) ∧
    ((tmuW {} [(K.tt_STATE 9, 2), (K.tt_LOCKED 9, 1), (K.tc_START_SRC 9, 0x1100)] : State).tst (9 : TmuId) = TS.armed) ∧
    ((tmuW {} [(K.tt_STATE 9, 2), (K.tt_LOCKED 9, 1), (K.tc_START_SRC 9, 0x1100)] : State).b (K.tt_LOCKED (9 : TmuId)) = true) ∧
    ((tmuW {} [(K.tt_STATE 9, 2), (K.tt_LOCKED 9, 1), (K.tc_START_SRC 9, 0x1100)] : State).n (K.tc_MODE (9 : TmuId)) = 0) ∧
    ((tmuW {} [(K.tt_STATE 9, 2), (K.tt_LOCKED 9, 1), (K.tc_START_SRC 9, 0x1100)] : State).n (K.tc_GATE_MODE (9 : TmuId)) = 0) ∧
    (((tmuW {} [(K.tt_STATE 9, 2), (K.tt_LOCKED 9, 1), (K.tc_START_SRC 9, 0x1100)] : State).tmu (9 : TmuId)).full = false) ∧
    (((tmuW {} [(K.tt_STATE 9, 2), (K.tt_LOCKED 9, 1), (K.tc_START_SRC 9, 0x1100)] : State).tmu (9 : TmuId)).start = none) ∧
    (((tmuW {} [(K.tt_STATE 9, 2), (K.tt_LOCKED 9, 1), (K.tc_START_SRC 9, 0x1100)] : State).tmu (9 : TmuId)).rearmAt ≤ (tmuW {} [(K.tt_STATE 9, 2), (K.tt_LOCKED 9, 1), (K.tc_START_SRC 9, 0x1100)] : State).now) ∧
    (ridgeUses (tmuW {} [(K.tt_STATE 9, 2), (K.tt_LOCKED 9, 1), (K.tc_START_SRC 9, 0x1100)] : State) (9 : TmuId) = false) ∧
    (edgeActive (tmuW {} [(K.tt_STATE 9, 2), (K.tt_LOCKED 9, 1), (K.tc_START_SRC 9, 0x1100)] : State) (9 : TmuId) ((tmuW {} [(K.tt_STATE 9, 2), (K.tt_LOCKED 9, 1), (K.tc_START_SRC 9, 0x1100)] : State).n (K.tc_START_SRC (9 : TmuId))) (false : Bool) (0 : Int) = true) := by decide +kernel

/-- The hypotheses of TmuSamples, clause 2, are met. -/
theorem test_meets_TmuSamples_2 :
    (timingOn (tmuW { start := some (2048 * (2 ^ 40 - 2)) } [(K.tt_STATE 9, 3), (K.tt_LOCKED 9, 1), (K.tc_STOP_SRC 9 7, 0x1100)] : State) = true) ∧
    ((tmuW { start := some (2048 * (2 ^ 40 - 2)) } [(K.tt_STATE 9, 3), (K.tt_LOCKED 9, 1), (K.tc_STOP_SRC 9 7, 0x1100)] : State).tst (9 : TmuId) = TS.active) ∧
    ((tmuW { start := some (2048 * (2 ^ 40 - 2)) } [(K.tt_STATE 9, 3), (K.tt_LOCKED 9, 1), (K.tc_STOP_SRC 9 7, 0x1100)] : State).b (K.tt_LOCKED (9 : TmuId)) = true) ∧
    ((tmuW { start := some (2048 * (2 ^ 40 - 2)) } [(K.tt_STATE 9, 3), (K.tt_LOCKED 9, 1), (K.tc_STOP_SRC 9 7, 0x1100)] : State).n (K.tc_MODE (9 : TmuId)) = 0) ∧
    (((tmuW { start := some (2048 * (2 ^ 40 - 2)) } [(K.tt_STATE 9, 3), (K.tt_LOCKED 9, 1), (K.tc_STOP_SRC 9 7, 0x1100)] : State).tmu (9 : TmuId)).full = false) ∧
    (((tmuW { start := some (2048 * (2 ^ 40 - 2)) } [(K.tt_STATE 9, 3), (K.tt_LOCKED 9, 1), (K.tc_STOP_SRC 9 7, 0x1100)] : State).tmu (9 : TmuId)).start = some (2048 * (2 ^ 40 - 2) : Int)) ∧
    (((tmuW { start := some (2048 * (2 ^ 40 - 2)) } [(K.tt_STATE 9, 3), (K.tt_LOCKED 9, 1), (K.tc_STOP_SRC 9 7, 0x1100)] : State).tmu (9 : TmuId)).rearmAt ≤ (tmuW { start := some (2048 * (2 ^ 40 - 2)) } [(K.tt_STATE 9, 3), (K.tt_LOCKED 9, 1), (K.tc_STOP_SRC 9 7, 0x1100)] : State).now) ∧
    (ridgeUses (tmuW { start := some (2048 * (2 ^ 40 - 2)) } [(K.tt_STATE 9, 3), (K.tt_LOCKED 9, 1), (K.tc_STOP_SRC 9 7, 0x1100)] : State) (9 : TmuId) = false) ∧
    ((8 : Fin 9).val = (7 : Fin 8).val + 1) ∧
    (edgeActive (tmuW { start := some (2048 * (2 ^ 40 - 2)) } [(K.tt_STATE 9, 3), (K.tt_LOCKED 9, 1), (K.tc_STOP_SRC 9 7, 0x1100)] : State) (9 : TmuId) ((tmuW { start := some (2048 * (2 ^ 40 - 2)) } [(K.tt_STATE 9, 3), (K.tt_LOCKED 9, 1), (K.tc_STOP_SRC 9 7, 0x1100)] : State).n (K.tc_STOP_SRC (9 : TmuId) (7 : Fin 8))) (false : Bool) (0 : Int) = true) ∧
    (notEarlier (2048 * (2 ^ 40 - 2) : Int) (timestamp (tmuW { start := some (2048 * (2 ^ 40 - 2)) } [(K.tt_STATE 9, 3), (K.tt_LOCKED 9, 1), (K.tc_STOP_SRC 9 7, 0x1100)] : State) (9 : TmuId) (8 : Fin 9) (0xFFFFFFFFFF : BitVec 40) (2047 : Fin 2048)) = true) ∧
    (stopReady (tmuW { start := some (2048 * (2 ^ 40 - 2)) } [(K.tt_STATE 9, 3), (K.tt_LOCKED 9, 1), (K.tc_STOP_SRC 9 7, 0x1100)] : State) (9 : TmuId) ((tmuW { start := some (2048 * (2 ^ 40 - 2)) } [(K.tt_STATE 9, 3), (K.tt_LOCKED 9, 1), (K.tc_STOP_SRC 9 7, 0x1100)] : State).tmu (9 : TmuId)) (7 : Fin 8) (0 : Int) = true) := by decide +kernel

/-- The hypotheses of TmuSamples, clause 3, are met. -/
theorem test_meets_TmuSamples_3 :
    (edgeActive (tmuW {} [(K.tt_STATE 9, 2), (K.tt_LOCKED 9, 1), (K.tc_STOP_SRC 9 7, 0x1100)] : State) (9 : TmuId) (elemSrc (tmuW {} [(K.tt_STATE 9, 2), (K.tt_LOCKED 9, 1), (K.tc_STOP_SRC 9 7, 0x1100)] : State) (9 : TmuId) (8 : Fin 9)) (true : Bool) (0 : Int) = false ∨ (tmuW {} [(K.tt_STATE 9, 2), (K.tt_LOCKED 9, 1), (K.tc_STOP_SRC 9 7, 0x1100)] : State).b (K.tt_LOCKED (9 : TmuId)) = false ∨ (tmuW {} [(K.tt_STATE 9, 2), (K.tt_LOCKED 9, 1), (K.tc_STOP_SRC 9 7, 0x1100)] : State).now < ((tmuW {} [(K.tt_STATE 9, 2), (K.tt_LOCKED 9, 1), (K.tc_STOP_SRC 9 7, 0x1100)] : State).tmu (9 : TmuId)).rearmAt) := by decide +kernel

/-- The hypotheses of TmuSamples, clause 4, are met. -/
theorem test_meets_TmuSamples_4 :
    (timingOn ({ tmuW { start := some 5 } [(K.tt_STATE 9, 3), (K.tc_STOP_SRC 9 7, 0x1000), (K.tc_TIMEOUT 9, 1250000)] with now := 1 } : State) = true) ∧
    (({ tmuW { start := some 5 } [(K.tt_STATE 9, 3), (K.tc_STOP_SRC 9 7, 0x1000), (K.tc_TIMEOUT 9, 1250000)] with now := 1 } : State).tst (9 : TmuId) = TS.active) ∧
    ((({ tmuW { start := some 5 } [(K.tt_STATE 9, 3), (K.tc_STOP_SRC 9 7, 0x1000), (K.tc_TIMEOUT 9, 1250000)] with now := 1 } : State).tmu (9 : TmuId)).start.isSome = true) ∧
    ((({ tmuW { start := some 5 } [(K.tt_STATE 9, 3), (K.tc_STOP_SRC 9 7, 0x1000), (K.tc_TIMEOUT 9, 1250000)] with now := 1 } : State).tmu (9 : TmuId)).full = false) ∧
    (({ tmuW { start := some 5 } [(K.tt_STATE 9, 3), (K.tc_STOP_SRC 9 7, 0x1000), (K.tc_TIMEOUT 9, 1250000)] with now := 1 } : State).n (K.tc_MODE (9 : TmuId)) = 0) ∧
    ((usedStops ({ tmuW { start := some 5 } [(K.tt_STATE 9, 3), (K.tc_STOP_SRC 9 7, 0x1000), (K.tc_TIMEOUT 9, 1250000)] with now := 1 } : State) (9 : TmuId)).contains (7 : Fin 8).val = true) ∧
    ((kget? (({ tmuW { start := some 5 } [(K.tt_STATE 9, 3), (K.tc_STOP_SRC 9 7, 0x1000), (K.tc_TIMEOUT 9, 1250000)] with now := 1 } : State).tmu (9 : TmuId)).stops (7 : Fin 8)).isNone = true) ∧
    ((({ tmuW { start := some 5 } [(K.tt_STATE 9, 3), (K.tc_STOP_SRC 9 7, 0x1000), (K.tc_TIMEOUT 9, 1250000)] with now := 1 } : State).tmu (9 : TmuId)).missed.contains (7 : Fin 8).val = false) ∧
    ((({ tmuW { start := some 5 } [(K.tt_STATE 9, 3), (K.tc_STOP_SRC 9 7, 0x1000), (K.tc_TIMEOUT 9, 1250000)] with now := 1 } : State).tmu (9 : TmuId)).startAt + ({ tmuW { start := some 5 } [(K.tt_STATE 9, 3), (K.tc_STOP_SRC 9 7, 0x1000), (K.tc_TIMEOUT 9, 1250000)] with now := 1 } : State).n (K.tc_TIMEOUT (9 : TmuId)) / 1250000 ≤ ({ tmuW { start := some 5 } [(K.tt_STATE 9, 3), (K.tc_STOP_SRC 9 7, 0x1000), (K.tc_TIMEOUT 9, 1250000)] with now := 1 } : State).now) := by decide +kernel

/-- The hypotheses of TmuSamples, clause 5, are met. -/
theorem test_meets_TmuSamples_5 :
    (timingOn ({ tmuW { edges := 2 } [(K.tt_STATE 9, 3), (K.tc_MODE 9, 2), (K.tc_GATE_TIME 9, 1250000)] with now := 1 } : State) = true) ∧
    ((({ tmuW { edges := 2 } [(K.tt_STATE 9, 3), (K.tc_MODE 9, 2), (K.tc_GATE_TIME 9, 1250000)] with now := 1 } : State).tst (9 : TmuId) = TS.armed ∨ ({ tmuW { edges := 2 } [(K.tt_STATE 9, 3), (K.tc_MODE 9, 2), (K.tc_GATE_TIME 9, 1250000)] with now := 1 } : State).tst (9 : TmuId) = TS.active)) ∧
    (({ tmuW { edges := 2 } [(K.tt_STATE 9, 3), (K.tc_MODE 9, 2), (K.tc_GATE_TIME 9, 1250000)] with now := 1 } : State).n (K.tc_MODE (9 : TmuId)) = 2) ∧
    (ridgeUses ({ tmuW { edges := 2 } [(K.tt_STATE 9, 3), (K.tc_MODE 9, 2), (K.tc_GATE_TIME 9, 1250000)] with now := 1 } : State) (9 : TmuId) = false) ∧
    ((({ tmuW { edges := 2 } [(K.tt_STATE 9, 3), (K.tc_MODE 9, 2), (K.tc_GATE_TIME 9, 1250000)] with now := 1 } : State).tmu (9 : TmuId)).full = false) ∧
    (freqBegun ({ tmuW { edges := 2 } [(K.tt_STATE 9, 3), (K.tc_MODE 9, 2), (K.tc_GATE_TIME 9, 1250000)] with now := 1 } : State) (9 : TmuId) (({ tmuW { edges := 2 } [(K.tt_STATE 9, 3), (K.tc_MODE 9, 2), (K.tc_GATE_TIME 9, 1250000)] with now := 1 } : State).tmu (9 : TmuId)) = true) ∧
    ((({ tmuW { edges := 2 } [(K.tt_STATE 9, 3), (K.tc_MODE 9, 2), (K.tc_GATE_TIME 9, 1250000)] with now := 1 } : State).tmu (9 : TmuId)).startAt + ({ tmuW { edges := 2 } [(K.tt_STATE 9, 3), (K.tc_MODE 9, 2), (K.tc_GATE_TIME 9, 1250000)] with now := 1 } : State).n (K.tc_GATE_TIME (9 : TmuId)) / 1250000 ≤ ({ tmuW { edges := 2 } [(K.tt_STATE 9, 3), (K.tc_MODE 9, 2), (K.tc_GATE_TIME 9, 1250000)] with now := 1 } : State).now) := by decide +kernel

/-- The hypotheses of TmuSamples, clause 6, are met. -/
theorem test_meets_TmuSamples_6 :
    (timingOn ({ tmuW { start := some 2048, stops := [(0, 10)], full := true } [(K.tt_STATE 9, 3), (K.tt_SAMPLES_DONE 9, 8), (K.tc_SAMPLES 9, 9), (K.tc_STOP_SRC 9 0, 0x1000)] with now := 12 } : State) = true) ∧
    (({ tmuW { start := some 2048, stops := [(0, 10)], full := true } [(K.tt_STATE 9, 3), (K.tt_SAMPLES_DONE 9, 8), (K.tc_SAMPLES 9, 9), (K.tc_STOP_SRC 9 0, 0x1000)] with now := 12 } : State).tst (9 : TmuId) = TS.active) ∧
    ((({ tmuW { start := some 2048, stops := [(0, 10)], full := true } [(K.tt_STATE 9, 3), (K.tt_SAMPLES_DONE 9, 8), (K.tc_SAMPLES 9, 9), (K.tc_STOP_SRC 9 0, 0x1000)] with now := 12 } : State).tmu (9 : TmuId)).full = true) ∧
    (({ tmuW { start := some 2048, stops := [(0, 10)], full := true } [(K.tt_STATE 9, 3), (K.tt_SAMPLES_DONE 9, 8), (K.tc_SAMPLES 9, 9), (K.tc_STOP_SRC 9 0, 0x1000)] with now := 12 } : State).n (K.tc_QUAL (9 : TmuId)) = 0) ∧
    (({ tmuW { start := some 2048, stops := [(0, 10)], full := true } [(K.tt_STATE 9, 3), (K.tt_SAMPLES_DONE 9, 8), (K.tc_SAMPLES 9, 9), (K.tc_STOP_SRC 9 0, 0x1000)] with now := 12 } : State).n (K.tc_MODE (9 : TmuId)) = 0) ∧
    ((({ tmuW { start := some 2048, stops := [(0, 10)], full := true } [(K.tt_STATE 9, 3), (K.tt_SAMPLES_DONE 9, 8), (K.tc_SAMPLES 9, 9), (K.tc_STOP_SRC 9 0, 0x1000)] with now := 12 } : State).tmu (9 : TmuId)).start = some (2048 : Int)) ∧
    ((({ tmuW { start := some 2048, stops := [(0, 10)], full := true } [(K.tt_STATE 9, 3), (K.tt_SAMPLES_DONE 9, 8), (K.tc_SAMPLES 9, 9), (K.tc_STOP_SRC 9 0, 0x1000)] with now := 12 } : State).tmu (9 : TmuId)).stops = [(0, (10 : Int))]) ∧
    ((({ tmuW { start := some 2048, stops := [(0, 10)], full := true } [(K.tt_STATE 9, 3), (K.tt_SAMPLES_DONE 9, 8), (K.tc_SAMPLES 9, 9), (K.tc_STOP_SRC 9 0, 0x1000)] with now := 12 } : State).tmu (9 : TmuId)).missed = []) ∧
    ((({ tmuW { start := some 2048, stops := [(0, 10)], full := true } [(K.tt_STATE 9, 3), (K.tt_SAMPLES_DONE 9, 8), (K.tc_SAMPLES 9, 9), (K.tc_STOP_SRC 9 0, 0x1000)] with now := 12 } : State).tmu (9 : TmuId)).skips = 0) ∧
    ((({ tmuW { start := some 2048, stops := [(0, 10)], full := true } [(K.tt_STATE 9, 3), (K.tt_SAMPLES_DONE 9, 8), (K.tc_SAMPLES 9, 9), (K.tc_STOP_SRC 9 0, 0x1000)] with now := 12 } : State).tmu (9 : TmuId)).edgeAt + 12 ≤ ({ tmuW { start := some 2048, stops := [(0, 10)], full := true } [(K.tt_STATE 9, 3), (K.tt_SAMPLES_DONE 9, 8), (K.tc_SAMPLES 9, 9), (K.tc_STOP_SRC 9 0, 0x1000)] with now := 12 } : State).now) ∧
    (({ tmuW { start := some 2048, stops := [(0, 10)], full := true } [(K.tt_STATE 9, 3), (K.tt_SAMPLES_DONE 9, 8), (K.tc_SAMPLES 9, 9), (K.tc_STOP_SRC 9 0, 0x1000)] with now := 12 } : State).n (K.tv_COUNT (8 * (9 : TmuId).val)) = 0) ∧
    (({ tmuW { start := some 2048, stops := [(0, 10)], full := true } [(K.tt_STATE 9, 3), (K.tt_SAMPLES_DONE 9, 8), (K.tc_SAMPLES 9, 9), (K.tc_STOP_SRC 9 0, 0x1000)] with now := 12 } : State).n (K.tv_EXCLUDED (8 * (9 : TmuId).val)) = 0) ∧
    (({ tmuW { start := some 2048, stops := [(0, 10)], full := true } [(K.tt_STATE 9, 3), (K.tt_SAMPLES_DONE 9, 8), (K.tc_SAMPLES 9, 9), (K.tc_STOP_SRC 9 0, 0x1000)] with now := 12 } : State).g (K.tv_S1_LO (8 * (9 : TmuId).val)) = 0) ∧
    (({ tmuW { start := some 2048, stops := [(0, 10)], full := true } [(K.tt_STATE 9, 3), (K.tt_SAMPLES_DONE 9, 8), (K.tc_SAMPLES 9, 9), (K.tc_STOP_SRC 9 0, 0x1000)] with now := 12 } : State).g (K.tv_S1_HI (8 * (9 : TmuId).val)) = 0) ∧
    (({ tmuW { start := some 2048, stops := [(0, 10)], full := true } [(K.tt_STATE 9, 3), (K.tt_SAMPLES_DONE 9, 8), (K.tc_SAMPLES 9, 9), (K.tc_STOP_SRC 9 0, 0x1000)] with now := 12 } : State).g (K.tv_S2_LO (8 * (9 : TmuId).val)) = 0) ∧
    (({ tmuW { start := some 2048, stops := [(0, 10)], full := true } [(K.tt_STATE 9, 3), (K.tt_SAMPLES_DONE 9, 8), (K.tc_SAMPLES 9, 9), (K.tc_STOP_SRC 9 0, 0x1000)] with now := 12 } : State).g (K.tv_S2_HI (8 * (9 : TmuId).val)) = 0) ∧
    (({ tmuW { start := some 2048, stops := [(0, 10)], full := true } [(K.tt_STATE 9, 3), (K.tt_SAMPLES_DONE 9, 8), (K.tc_SAMPLES 9, 9), (K.tc_STOP_SRC 9 0, 0x1000)] with now := 12 } : State).g (K.tt_SAMPLES_DONE (9 : TmuId)) + 1 = ({ tmuW { start := some 2048, stops := [(0, 10)], full := true } [(K.tt_STATE 9, 3), (K.tt_SAMPLES_DONE 9, 8), (K.tc_SAMPLES 9, 9), (K.tc_STOP_SRC 9 0, 0x1000)] with now := 12 } : State).g (K.tc_SAMPLES (9 : TmuId))) := by decide +kernel

/-- The hypotheses of TmuSamples, clause 7, are met. -/
theorem test_meets_TmuSamples_7 :
    (timingOn (tmuW { start := some 5 } [(K.tt_STATE 9, 3), (K.tt_LOCKED 9, 1)] : State) = true) ∧
    ((tmuW { start := some 5 } [(K.tt_STATE 9, 3), (K.tt_LOCKED 9, 1)] : State).tmuBusy (9 : TmuId) = true) ∧
    (((tmuW { start := some 5 } [(K.tt_STATE 9, 3), (K.tt_LOCKED 9, 1)] : State).tmu (9 : TmuId)).undo.all (fun q => decide (q.1 + 16 < (tmuW { start := some 5 } [(K.tt_STATE 9, 3), (K.tt_LOCKED 9, 1)] : State).now)) = true) := by decide +kernel

/-- The hypotheses of TmuSamples, clause 8, are met. -/
theorem test_meets_TmuSamples_8 :
    (timingOn ({ tmuW { undo := some (0, [(K.tv_COUNT 79, 3)]) } [(K.tt_STATE 9, 4), (K.tt_LOCKED 9, 1)] with now := 16 } : State) = true) ∧
    (({ tmuW { undo := some (0, [(K.tv_COUNT 79, 3)]) } [(K.tt_STATE 9, 4), (K.tt_LOCKED 9, 1)] with now := 16 } : State).tmuBusy (9 : TmuId) = false) ∧
    ((({ tmuW { undo := some (0, [(K.tv_COUNT 79, 3)]) } [(K.tt_STATE 9, 4), (K.tt_LOCKED 9, 1)] with now := 16 } : State).tmu (9 : TmuId)).undo = some ((0 : Nat), ([(K.tv_COUNT 79, 3)] : List (Nat × Int)))) ∧
    (({ tmuW { undo := some (0, [(K.tv_COUNT 79, 3)]) } [(K.tt_STATE 9, 4), (K.tt_LOCKED 9, 1)] with now := 16 } : State).now ≤ (0 : Nat) + 16) := by decide +kernel

/-- The hypotheses of WaveCommands, clause 1, are met. -/
theorem test_meets_WaveCommands_1 :
    (timingOn (wfeW 1 {} [(K.ws_WF_STATE 7, 4), (K.ws_GRANULES 7, 8)] : State) = true) ∧
    (WfeWaits (31 : SiteId) 1 (⟨31, false, 1, 7, 9, 40⟩ : UnitCmd) (7 : EngId) (wfeW 1 {} [(K.ws_WF_STATE 7, 4), (K.ws_GRANULES 7, 8)] : State)) ∧
    (((wfeW 1 {} [(K.ws_WF_STATE 7, 4), (K.ws_GRANULES 7, 8)] : State).wst (7 : EngId) = WS.idle ∨ (wfeW 1 {} [(K.ws_WF_STATE 7, 4), (K.ws_GRANULES 7, 8)] : State).wst (7 : EngId) = WS.ended)) := by decide +kernel

/-- The hypotheses of WaveCommands, clause 2, are met. -/
theorem test_meets_WaveCommands_2 :
    (timingOn (wfeW 2 {} [(K.ws_WF_STATE 7, 3), (K.ws_TRIG_PENDING 7, 1)] : State) = true) ∧
    (WfeWaits (31 : SiteId) 2 (⟨31, false, 2, 7, 9, 40⟩ : UnitCmd) (7 : EngId) (wfeW 2 {} [(K.ws_WF_STATE 7, 3), (K.ws_TRIG_PENDING 7, 1)] : State)) ∧
    (wAlive (wfeW 2 {} [(K.ws_WF_STATE 7, 3), (K.ws_TRIG_PENDING 7, 1)] : State) (7 : EngId) = true) := by decide +kernel

/-- The hypotheses of WaveCommands, clause 3, are met. -/
theorem test_meets_WaveCommands_3 :
    (timingOn (wfeW 3 { jump := some { target := 1, at_ := 0, seq := false } } [(K.ws_WF_STATE 7, 1)] : State) = true) ∧
    (WfeWaits (31 : SiteId) 3 (⟨31, false, 3, 7, 9, 40⟩ : UnitCmd) (7 : EngId) (wfeW 3 { jump := some { target := 1, at_ := 0, seq := false } } [(K.ws_WF_STATE 7, 1)] : State)) ∧
    (wAlive (wfeW 3 { jump := some { target := 1, at_ := 0, seq := false } } [(K.ws_WF_STATE 7, 1)] : State) (7 : EngId) = true) ∧
    ((wfeW 3 { jump := some { target := 1, at_ := 0, seq := false } } [(K.ws_WF_STATE 7, 1)] : State).g (K.ws_JUMPS_REPLACED (7 : EngId)) < 4294967295) := by decide +kernel

/-- The hypotheses of WaveCommands, clause 4, are met. -/
theorem test_meets_WaveCommands_4 :
    (timingOn (wfeW 4 {} [] : State) = true) ∧
    (WfeWaits (31 : SiteId) 4 (⟨31, false, 4, 7, 9, 40⟩ : UnitCmd) (7 : EngId) (wfeW 4 {} [] : State)) ∧
    ((wfeW 4 {} [] : State).wst (7 : EngId) ≠ WS.faulted) ∧
    (((wfeW 4 {} [] : State).wst (7 : EngId) ≠ WS.waiting ∨ Step.waitsrc (((wfeW 4 {} [] : State).eng (7 : EngId)).step ((wfeW 4 {} [] : State).n (K.ws_STEP (7 : EngId)))) ≠ 1)) := by decide +kernel

/-- The hypotheses of WaveCommands, clause 5, are met. -/
theorem test_meets_WaveCommands_5 :
    (timingOn (wfeW 4 { steps := [(3, BitVec.ofNat 128 (2 ^ 122))] } [(K.ws_WF_STATE 7, 3), (K.ws_STEP 7, 3)] : State) = true) ∧
    (WfeWaits (31 : SiteId) 4 (⟨31, false, 4, 7, 9, 40⟩ : UnitCmd) (7 : EngId) (wfeW 4 { steps := [(3, BitVec.ofNat 128 (2 ^ 122))] } [(K.ws_WF_STATE 7, 3), (K.ws_STEP 7, 3)] : State)) ∧
    ((wfeW 4 { steps := [(3, BitVec.ofNat 128 (2 ^ 122))] } [(K.ws_WF_STATE 7, 3), (K.ws_STEP 7, 3)] : State).wst (7 : EngId) = WS.waiting) ∧
    (Step.waitsrc (((wfeW 4 { steps := [(3, BitVec.ofNat 128 (2 ^ 122))] } [(K.ws_WF_STATE 7, 3), (K.ws_STEP 7, 3)] : State).eng (7 : EngId)).step ((wfeW 4 { steps := [(3, BitVec.ofNat 128 (2 ^ 122))] } [(K.ws_WF_STATE 7, 3), (K.ws_STEP 7, 3)] : State).n (K.ws_STEP (7 : EngId)))) = 1) := by decide +kernel

/-- The hypotheses of WaveCommands, clause 6, are met. -/
theorem test_meets_WaveCommands_6 :
    (timingOn (wfeW 5 { flist := some (1, 0) } [(K.ws_WF_STATE 7, 2)] : State) = true) ∧
    (WfeWaits (31 : SiteId) 5 (⟨31, false, 5, 7, 9, 40⟩ : UnitCmd) (7 : EngId) (wfeW 5 { flist := some (1, 0) } [(K.ws_WF_STATE 7, 2)] : State)) ∧
    (wAlive (wfeW 5 { flist := some (1, 0) } [(K.ws_WF_STATE 7, 2)] : State) (7 : EngId) = true) := by decide +kernel

/-- The hypotheses of WaveCommands are met (1). -/
theorem test_meets_WaveCommands_t1 :
    (fun s : State => timingOn s = true ∧ WfeWaits 31 1 ⟨31, false, 1, 7, 9, 40⟩ 7 s ∧ s.wst 7 ≠ WS.idle ∧ s.wst 7 ≠ WS.ended) (wfeW 1 {} [(K.ws_WF_STATE 7, 2)])  := by decide +kernel

/-- The hypotheses of WaveGranules, clause 1, are met. -/
theorem test_meets_WaveGranules_1 :
    (timingOn (engW { ts := some 0, dead := 4 } [(K.ws_WF_STATE 7, 1), (K.wc_PARK_WORD 7, 0xABCD)] : State) = true) ∧
    (((engW { ts := some 0, dead := 4 } [(K.ws_WF_STATE 7, 1), (K.wc_PARK_WORD 7, 0xABCD)] : State).eng (7 : EngId)).ts = some (0 : Int)) ∧
    ((engW { ts := some 0, dead := 4 } [(K.ws_WF_STATE 7, 1), (K.wc_PARK_WORD 7, 0xABCD)] : State).wst (7 : EngId) = WS.dead) ∧
    (0 < ((engW { ts := some 0, dead := 4 } [(K.ws_WF_STATE 7, 1), (K.wc_PARK_WORD 7, 0xABCD)] : State).eng (7 : EngId)).dead) ∧
    (((engW { ts := some 0, dead := 4 } [(K.ws_WF_STATE 7, 1), (K.wc_PARK_WORD 7, 0xABCD)] : State).eng (7 : EngId)).flist = none) ∧
    (handSclk (engW { ts := some 0, dead := 4 } [(K.ws_WF_STATE 7, 1), (K.wc_PARK_WORD 7, 0xABCD)] : State) (7 : EngId) ((0 : Int) + (slotLen (engW { ts := some 0, dead := 4 } [(K.ws_WF_STATE 7, 1), (K.wc_PARK_WORD 7, 0xABCD)] : State) (7 : EngId) * 64 * ((engW { ts := some 0, dead := 4 } [(K.ws_WF_STATE 7, 1), (K.wc_PARK_WORD 7, 0xABCD)] : State).eng (7 : EngId)).gran : Nat)) ≤ (engW { ts := some 0, dead := 4 } [(K.ws_WF_STATE 7, 1), (K.wc_PARK_WORD 7, 0xABCD)] : State).now) := by decide +kernel

/-- The hypotheses of WaveGranules, clause 2, are met. -/
theorem test_meets_WaveGranules_2 :
    (timingOn (engW { ts := some 0, target := 9, steps := [(9, stepW 1 (2 ^ 58 + 3 * 2 ^ 67 + 5 * 2 ^ 46 + 2))], lists := { f := [(5, 77)] }, phase := 9 } [(K.ws_WF_STATE 7, 1)] : State) = true) ∧
    (((engW { ts := some 0, target := 9, steps := [(9, stepW 1 (2 ^ 58 + 3 * 2 ^ 67 + 5 * 2 ^ 46 + 2))], lists := { f := [(5, 77)] }, phase := 9 } [(K.ws_WF_STATE 7, 1)] : State).eng (7 : EngId)).ts = some (0 : Int)) ∧
    ((engW { ts := some 0, target := 9, steps := [(9, stepW 1 (2 ^ 58 + 3 * 2 ^ 67 + 5 * 2 ^ 46 + 2))], lists := { f := [(5, 77)] }, phase := 9 } [(K.ws_WF_STATE 7, 1)] : State).wst (7 : EngId) = WS.dead) ∧
    (((engW { ts := some 0, target := 9, steps := [(9, stepW 1 (2 ^ 58 + 3 * 2 ^ 67 + 5 * 2 ^ 46 + 2))], lists := { f := [(5, 77)] }, phase := 9 } [(K.ws_WF_STATE 7, 1)] : State).eng (7 : EngId)).dead = 0) ∧
    (handSclk (engW { ts := some 0, target := 9, steps := [(9, stepW 1 (2 ^ 58 + 3 * 2 ^ 67 + 5 * 2 ^ 46 + 2))], lists := { f := [(5, 77)] }, phase := 9 } [(K.ws_WF_STATE 7, 1)] : State) (7 : EngId) ((0 : Int) + (slotLen (engW { ts := some 0, target := 9, steps := [(9, stepW 1 (2 ^ 58 + 3 * 2 ^ 67 + 5 * 2 ^ 46 + 2))], lists := { f := [(5, 77)] }, phase := 9 } [(K.ws_WF_STATE 7, 1)] : State) (7 : EngId) * 64 * ((engW { ts := some 0, target := 9, steps := [(9, stepW 1 (2 ^ 58 + 3 * 2 ^ 67 + 5 * 2 ^ 46 + 2))], lists := { f := [(5, 77)] }, phase := 9 } [(K.ws_WF_STATE 7, 1)] : State).eng (7 : EngId)).gran : Nat)) ≤ (engW { ts := some 0, target := 9, steps := [(9, stepW 1 (2 ^ 58 + 3 * 2 ^ 67 + 5 * 2 ^ 46 + 2))], lists := { f := [(5, 77)] }, phase := 9 } [(K.ws_WF_STATE 7, 1)] : State).now) ∧
    (((engW { ts := some 0, target := 9, steps := [(9, stepW 1 (2 ^ 58 + 3 * 2 ^ 67 + 5 * 2 ^ 46 + 2))], lists := { f := [(5, 77)] }, phase := 9 } [(K.ws_WF_STATE 7, 1)] : State).eng (7 : EngId)).flist = none) ∧
    (((engW { ts := some 0, target := 9, steps := [(9, stepW 1 (2 ^ 58 + 3 * 2 ^ 67 + 5 * 2 ^ 46 + 2))], lists := { f := [(5, 77)] }, phase := 9 } [(K.ws_WF_STATE 7, 1)] : State).eng (7 : EngId)).jump = none) ∧
    (((engW { ts := some 0, target := 9, steps := [(9, stepW 1 (2 ^ 58 + 3 * 2 ^ 67 + 5 * 2 ^ 46 + 2))], lists := { f := [(5, 77)] }, phase := 9 } [(K.ws_WF_STATE 7, 1)] : State).eng (7 : EngId)).stopAt = none) ∧
    (((engW { ts := some 0, target := 9, steps := [(9, stepW 1 (2 ^ 58 + 3 * 2 ^ 67 + 5 * 2 ^ 46 + 2))], lists := { f := [(5, 77)] }, phase := 9 } [(K.ws_WF_STATE 7, 1)] : State).eng (7 : EngId)).recovery = none) ∧
    (((engW { ts := some 0, target := 9, steps := [(9, stepW 1 (2 ^ 58 + 3 * 2 ^ 67 + 5 * 2 ^ 46 + 2))], lists := { f := [(5, 77)] }, phase := 9 } [(K.ws_WF_STATE 7, 1)] : State).eng (7 : EngId)).step ((engW { ts := some 0, target := 9, steps := [(9, stepW 1 (2 ^ 58 + 3 * 2 ^ 67 + 5 * 2 ^ 46 + 2))], lists := { f := [(5, 77)] }, phase := 9 } [(K.ws_WF_STATE 7, 1)] : State).eng (7 : EngId)).target = (stepW 1 (2 ^ 58 + 3 * 2 ^ 67 + 5 * 2 ^ 46 + 2) : BitVec 128)) ∧
    (Step.kind (stepW 1 (2 ^ 58 + 3 * 2 ^ 67 + 5 * 2 ^ 46 + 2) : BitVec 128) = 1) ∧
    (Step.waitsrc (stepW 1 (2 ^ 58 + 3 * 2 ^ 67 + 5 * 2 ^ 46 + 2) : BitVec 128) = 0) := by decide +kernel

/-- The hypotheses of WaveGranules, clause 3, are met. -/
theorem test_meets_WaveGranules_3 :
    (timingOn (engW { ts := some 0, gran := 6, done := 320, pos := 1, succ := true, playAt := 5, steps := [(9, BitVec.ofNat 128 (2 ^ 127 + 4))] } [(K.ws_WF_STATE 7, 2), (K.ws_STEP 7, 9)] : State) = true) ∧
    (sampleDue (engW { ts := some 0, gran := 6, done := 320, pos := 1, succ := true, playAt := 5, steps := [(9, BitVec.ofNat 128 (2 ^ 127 + 4))] } [(K.ws_WF_STATE 7, 2), (K.ws_STEP 7, 9)] : State) (7 : EngId) = true) ∧
    (mayBeLate (engW { ts := some 0, gran := 6, done := 320, pos := 1, succ := true, playAt := 5, steps := [(9, BitVec.ofNat 128 (2 ^ 127 + 4))] } [(K.ws_WF_STATE 7, 2), (K.ws_STEP 7, 9)] : State) (7 : EngId) = true) ∧
    ((engW { ts := some 0, gran := 6, done := 320, pos := 1, succ := true, playAt := 5, steps := [(9, BitVec.ofNat 128 (2 ^ 127 + 4))] } [(K.ws_WF_STATE 7, 2), (K.ws_STEP 7, 9)] : State).g (K.ws_LATE_GRANULES (7 : EngId)) < 18446744073709551615) := by decide +kernel

/-- The hypotheses of WaveGranules, clause 4, are met. -/
theorem test_meets_WaveGranules_4 :
    (timingOn (engW { recovery := some 0 } [(K.ws_WF_STATE 7, 2)] : State) = true) ∧
    (((engW { recovery := some 0 } [(K.ws_WF_STATE 7, 2)] : State).eng (7 : EngId)).recovery = some 0) := by decide +kernel

/-- The hypotheses of WaveGranules, clause 5, are met. -/
theorem test_meets_WaveGranules_5 :
    (timingOn ((engW { ts := some 0, gran := 6, done := 320, pos := 1, steps := [(9, stepW 2 (7 * 2 ^ 43 + 4))] } [(K.ws_WF_STATE 7, 2), (K.ws_STEP 7, 9)]).setSeg 7 (segT .sample .active []) : State) = true) ∧
    (sampleDue ((engW { ts := some 0, gran := 6, done := 320, pos := 1, steps := [(9, stepW 2 (7 * 2 ^ 43 + 4))] } [(K.ws_WF_STATE 7, 2), (K.ws_STEP 7, 9)]).setSeg 7 (segT .sample .active []) : State) (7 : EngId) = true) ∧
    (((engW { ts := some 0, gran := 6, done := 320, pos := 1, steps := [(9, stepW 2 (7 * 2 ^ 43 + 4))] } [(K.ws_WF_STATE 7, 2), (K.ws_STEP 7, 9)]).setSeg 7 (segT .sample .active []) : State).seg? (Step.seg ((((engW { ts := some 0, gran := 6, done := 320, pos := 1, steps := [(9, stepW 2 (7 * 2 ^ 43 + 4))] } [(K.ws_WF_STATE 7, 2), (K.ws_STEP 7, 9)]).setSeg 7 (segT .sample .active []) : State).eng (7 : EngId)).step (((engW { ts := some 0, gran := 6, done := 320, pos := 1, steps := [(9, stepW 2 (7 * 2 ^ 43 + 4))] } [(K.ws_WF_STATE 7, 2), (K.ws_STEP 7, 9)]).setSeg 7 (segT .sample .active []) : State).n (K.ws_STEP (7 : EngId))))) = some (segT .sample .active [] : Seg)) ∧
    (((engW { ts := some 0, gran := 6, done := 320, pos := 1, steps := [(9, stepW 2 (7 * 2 ^ 43 + 4))] } [(K.ws_WF_STATE 7, 2), (K.ws_STEP 7, 9)]).setSeg 7 (segT .sample .active []) : State).g K.hs_HBM_UE < 18446744073709551615) := by decide +kernel

/-- The hypotheses of LevelLoads, clause 1, are met. -/
theorem test_meets_LevelLoads_1 :
    (domRuns (objs [(K.lb_LOAD_MODE 7, 1), (K.lb_LOAD_MODE 0, 2)] : State) .timing = true) := by decide +kernel

/-- The hypotheses of LevelLoads, clause 2, are met. -/
theorem test_meets_LevelLoads_2 :
    (timingOn ((fun (s : State) => { s with now := 5, lvl := { s.lvl with strobes := [(7, 4)] } }) (objs [(K.da_PENDING 191, 9000), (K.da_STATUS 191, 2), (K.da_PENDING 190, 5), (K.da_STATUS 190, 2)]) : State) = true) ∧
    (kget? ((fun (s : State) => { s with now := 5, lvl := { s.lvl with strobes := [(7, 4)] } }) (objs [(K.da_PENDING 191, 9000), (K.da_STATUS 191, 2), (K.da_PENDING 190, 5), (K.da_STATUS 190, 2)]) : State).lvl.strobes (7 : BankId).val = some (4 : Nat)) ∧
    ((4 : Nat) + 1 ≤ ((fun (s : State) => { s with now := 5, lvl := { s.lvl with strobes := [(7, 4)] } }) (objs [(K.da_PENDING 191, 9000), (K.da_STATUS 191, 2), (K.da_PENDING 190, 5), (K.da_STATUS 190, 2)]) : State).now) ∧
    (((fun (s : State) => { s with now := 5, lvl := { s.lvl with strobes := [(7, 4)] } }) (objs [(K.da_PENDING 191, 9000), (K.da_STATUS 191, 2), (K.da_PENDING 190, 5), (K.da_STATUS 190, 2)]) : State).g (K.lb_BANK_STROBES (7 : BankId)) < 4294967295) := by decide +kernel

/-- The hypotheses of LevelLoads, clause 3, are met. -/
theorem test_meets_LevelLoads_3 :
    (timingOn (((objs [(K.da_CODE 191, 9000), (K.da_STATUS 191, 1)]).setDac 191 { release := some 0 }) : State) = true) := by decide +kernel

/-- The hypotheses of LevelLoads, clause 4, are met. -/
theorem test_meets_LevelLoads_4 :
    (((up0.setDac 191 { rerange := true } : State).dac (191 : DacId)).rerange = true) := by decide +kernel

/-- The hypotheses of LevelLoads are met (1). -/
theorem test_meets_LevelLoads_t1 :
    statusBit (objs [(K.da_STATUS 191, 1)]) 191 0 = true ∧ dacBank 191 = 7  := by decide +kernel

/-- The hypotheses of LevelProtection, clause 1, are met. -/
theorem test_meets_LevelProtection_1 :
    (isCurrent (191 : DacId) = true) ∧
    (10000 ≤ (objs [(K.da_TARGET_I 191, 10000)] : State).g (K.da_TARGET_I (191 : DacId))) := by decide +kernel

/-- The hypotheses of LevelProtection, clause 2, are met. -/
theorem test_meets_LevelProtection_2 :
    (isCurrent (16 : DacId) = true) ∧
    (10000 ≤ (objs [(K.da_TARGET_I 16, 10001)] : State).g (K.da_TARGET_I (16 : DacId))) := by decide +kernel

/-- The hypotheses of LevelProtection, clause 3, are met. -/
theorem test_meets_LevelProtection_3 :
    ((isCurrent (15 : DacId) = false ∨ (up0 : State).g (K.da_TARGET_I (15 : DacId)) < 10000)) := by decide +kernel

/-- The hypotheses of LevelProtection, clause 4, are met. -/
theorem test_meets_LevelProtection_4 :
    (isCurrent (15 : DacId) = false) := by decide +kernel

/-- The hypotheses of LevelProtection, clause 5, are met. -/
theorem test_meets_LevelProtection_5 :
    (Whole (objs [(K.da_STATUS 15, 32)] : State) (detectSrc (2 : Fin 3) (15 : DacId))) := by decide +kernel

/-- The hypotheses of LevelProtection, clause 6, are met. -/
theorem test_meets_LevelProtection_6 :
    (((true : Bool) = true ∨ Whole (objs [(K.lb_REF_OK 7, 1)] : State) (Src.LVL_REF_FAULT (7 : BankId)))) := by decide +kernel

/-- The hypotheses of CalibrationNativeRun, clause 1, are met. -/
theorem test_meets_CalibrationNativeRun_1 :
    (domRuns ((objs [(K.tf_TREF_FREQ, 10000000)]).putBlob K.tf_TREF_ID [1] : State) .timing = true) ∧
    (nativeCheck ((objs [(K.tf_TREF_FREQ, 10000000)]).putBlob K.tf_TREF_ID [1] : State).fresh (1 : BitVec 6).toNat (0x80 : BitVec 8).toNat (10000000 : Nat) (0 : Nat) = 0) := by decide +kernel

/-- The hypotheses of CalibrationNativeRun, clause 2, are met. -/
theorem test_meets_CalibrationNativeRun_2 :
    (domRuns (up0 : State) .timing = true) ∧
    (nativeCheck (up0 : State).fresh (1 : BitVec 6).toNat (0x80 : BitVec 8).toNat (10000000 : Nat) (0 : Nat) ≠ 0) := by decide +kernel

/-- The hypotheses of CalibrationNativeRun, clause 3, are met. -/
theorem test_meets_CalibrationNativeRun_3 :
    (domRuns ({ up0 with cal := { native := some ⟨1, 1, 1, false⟩ } } : State) .timing = true) ∧
    (({ up0 with cal := { native := some ⟨1, 1, 1, false⟩ } } : State).cal.native = some (⟨1, 1, 1, false⟩ : NativeRun)) := by decide +kernel

/-- The hypotheses of CalibrationNativeRun, clause 4, are met. -/
theorem test_meets_CalibrationNativeRun_4 :
    (timingOn ({ up0 with cal := { native := some ⟨1, 1, 1, true⟩ } } : State) = true) ∧
    (({ up0 with cal := { native := some ⟨1, 1, 1, true⟩ } } : State).cal.native = some (⟨1, 1, 1, true⟩ : NativeRun)) ∧
    ((⟨1, 1, 1, true⟩ : NativeRun).aborted = true) := by decide +kernel

/-- The hypotheses of CalibrationNativeRun, clause 5, are met. -/
theorem test_meets_CalibrationNativeRun_5 :
    (timingOn ((fun (s : State) => { s with cal := { native := some ⟨4, 0xC0, 0xC0, false⟩ } }) (objs [(K.cl_COMMIT_BUDGET, 5)]) : State) = true) ∧
    (((fun (s : State) => { s with cal := { native := some ⟨4, 0xC0, 0xC0, false⟩ } }) (objs [(K.cl_COMMIT_BUDGET, 5)]) : State).cal.native = some (⟨4, 0xC0, 0xC0, false⟩ : NativeRun)) ∧
    (nativeReady ((fun (s : State) => { s with cal := { native := some ⟨4, 0xC0, 0xC0, false⟩ } }) (objs [(K.cl_COMMIT_BUDGET, 5)]) : State) (⟨4, 0xC0, 0xC0, false⟩ : NativeRun) (7 : BankId) = true) ∧
    ((nativeResults ((fun (s : State) => { s with cal := { native := some ⟨4, 0xC0, 0xC0, false⟩ } }) (objs [(K.cl_COMMIT_BUDGET, 5)]) : State).fresh (7 : BankId) (⟨4, 0xC0, 0xC0, false⟩ : NativeRun).parts ({ chans := (bankChans 7).map (fun c => { chan := c, rt := some 0, rtDe := some 0 }), spars := [], tmus := [], dacs := [], calref := 0 } : BankMeas)).all (fun e => e.2.2.isSome) = true) ∧
    (timingParts (⟨4, 0xC0, 0xC0, false⟩ : NativeRun).parts = true) ∧
    (sealCovers ((fun (s : State) => { s with cal := { native := some ⟨4, 0xC0, 0xC0, false⟩ } }) (objs [(K.cl_COMMIT_BUDGET, 5)]) : State) (nativeKeys (7 : BankId) (⟨4, 0xC0, 0xC0, false⟩ : NativeRun).parts ({ chans := (bankChans 7).map (fun c => { chan := c, rt := some 0, rtDe := some 0 }), spars := [], tmus := [], dacs := [], calref := 0 } : BankMeas)) = true) ∧
    ((∀ x : ChanId, bankOf x = (7 : BankId) → chanActive ((fun (s : State) => { s with cal := { native := some ⟨4, 0xC0, 0xC0, false⟩ } }) (objs [(K.cl_COMMIT_BUDGET, 5)]) : State) x = false)) ∧
    (bankOf (255 : ChanId) = (7 : BankId)) ∧
    (nativeChan ((fun (s : State) => { s with cal := { native := some ⟨4, 0xC0, 0xC0, false⟩ } }) (objs [(K.cl_COMMIT_BUDGET, 5)]) : State).fresh (⟨4, 0xC0, 0xC0, false⟩ : NativeRun).parts (255 : ChanId) (measOf ({ chans := (bankChans 7).map (fun c => { chan := c, rt := some 0, rtDe := some 0 }), spars := [], tmus := [], dacs := [], calref := 0 } : BankMeas) (255 : ChanId)) = some (((0, 0, 0), List.replicate 10 0) : (Int × Int × Int) × List Int)) ∧
    (((fun (s : State) => { s with cal := { native := some ⟨4, 0xC0, 0xC0, false⟩ } }) (objs [(K.cl_COMMIT_BUDGET, 5)]) : State).g (K.cc_CAL_COUNT (255 : ChanId)) < 4294967295) := by decide +kernel

/-- The hypotheses of CalibrationNativeRun, clause 6, are met. -/
theorem test_meets_CalibrationNativeRun_6 :
    (timingOn ((fun (s : State) => { s with cal := { native := some ⟨36, 0xC0, 0xC0, false⟩ } }) (objs [(K.cl_COMMIT_BUDGET, 5)]) : State) = true) ∧
    (((fun (s : State) => { s with cal := { native := some ⟨36, 0xC0, 0xC0, false⟩ } }) (objs [(K.cl_COMMIT_BUDGET, 5)]) : State).cal.native = some (⟨36, 0xC0, 0xC0, false⟩ : NativeRun)) ∧
    (nativeReady ((fun (s : State) => { s with cal := { native := some ⟨36, 0xC0, 0xC0, false⟩ } }) (objs [(K.cl_COMMIT_BUDGET, 5)]) : State) (⟨36, 0xC0, 0xC0, false⟩ : NativeRun) (7 : BankId) = true) ∧
    ((nativeResults ((fun (s : State) => { s with cal := { native := some ⟨36, 0xC0, 0xC0, false⟩ } }) (objs [(K.cl_COMMIT_BUDGET, 5)]) : State).fresh (7 : BankId) (⟨36, 0xC0, 0xC0, false⟩ : NativeRun).parts ({ chans := (bankChans 7).map (fun c => { chan := c, rt := some 0, rtDe := some 0 }), spars := [], tmus := [], dacs := [], calref := 0 } : BankMeas)).all (fun e => e.2.2.isSome) = true) ∧
    (sealCovers ((fun (s : State) => { s with cal := { native := some ⟨36, 0xC0, 0xC0, false⟩ } }) (objs [(K.cl_COMMIT_BUDGET, 5)]) : State) (nativeKeys (7 : BankId) (⟨36, 0xC0, 0xC0, false⟩ : NativeRun).parts ({ chans := (bankChans 7).map (fun c => { chan := c, rt := some 0, rtDe := some 0 }), spars := [], tmus := [], dacs := [], calref := 0 } : BankMeas)) = false) := by decide +kernel

/-- The hypotheses of CalibrationNativeRun, clause 7, are met. -/
theorem test_meets_CalibrationNativeRun_7 :
    (timingOn ((fun (s : State) => { s with cal := { native := some ⟨2, 0xC0, 0xC0, false⟩ } }) (objs []) : State) = true) ∧
    (((fun (s : State) => { s with cal := { native := some ⟨2, 0xC0, 0xC0, false⟩ } }) (objs []) : State).cal.native = some (⟨2, 0xC0, 0xC0, false⟩ : NativeRun)) ∧
    (nativeReady ((fun (s : State) => { s with cal := { native := some ⟨2, 0xC0, 0xC0, false⟩ } }) (objs []) : State) (⟨2, 0xC0, 0xC0, false⟩ : NativeRun) (7 : BankId) = true) ∧
    ((⟨2, 0xC0, 0xC0, false⟩ : NativeRun).left ≠ 2 ^ (7 : BankId).val) ∧
    (bankOf (224 : ChanId) = (7 : BankId)) ∧
    (nativeChan ((fun (s : State) => { s with cal := { native := some ⟨2, 0xC0, 0xC0, false⟩ } }) (objs []) : State).fresh (⟨2, 0xC0, 0xC0, false⟩ : NativeRun).parts (224 : ChanId) (measOf ({ chans := [], spars := [], tmus := [], dacs := [], calref := 0 } : BankMeas) (224 : ChanId)) = none) ∧
    ((∀ x : ChanId, x < (224 : ChanId) → bankOf x = (7 : BankId) → (nativeChan ((fun (s : State) => { s with cal := { native := some ⟨2, 0xC0, 0xC0, false⟩ } }) (objs []) : State).fresh (⟨2, 0xC0, 0xC0, false⟩ : NativeRun).parts x (measOf ({ chans := [], spars := [], tmus := [], dacs := [], calref := 0 } : BankMeas) x)).isSome = true)) := by decide +kernel

/-- The hypotheses of CalibrationNativeRun, clause 8, are met. -/
theorem test_meets_CalibrationNativeRun_8 :
    (domRuns (bankW { unit := some (true, 0) } [(K.cl_LIVE_MODE, 1), (K.cc_CAL_ENABLE 255, 1), (K.cc_CAL_KIND 255, 1)] : State) .timing = true) ∧
    (eligibleChan (bankW { unit := some (true, 0) } [(K.cl_LIVE_MODE, 1), (K.cc_CAL_ENABLE 255, 1), (K.cc_CAL_KIND 255, 1)] : State) (255 : ChanId) = true) ∧
    (gateOn (bankW { unit := some (true, 0) } [(K.cl_LIVE_MODE, 1), (K.cc_CAL_ENABLE 255, 1), (K.cc_CAL_KIND 255, 1)] : State) (bankOf (255 : ChanId)).val = true) ∧
    (((bankW { unit := some (true, 0) } [(K.cl_LIVE_MODE, 1), (K.cc_CAL_ENABLE 255, 1), (K.cc_CAL_KIND 255, 1)] : State).calBank (bankOf (255 : ChanId))).liveNow.contains (255 : ChanId).val = false) ∧
    (((bankW { unit := some (true, 0) } [(K.cl_LIVE_MODE, 1), (K.cc_CAL_ENABLE 255, 1), (K.cc_CAL_KIND 255, 1)] : State).calBank (bankOf (255 : ChanId))).cur = none) ∧
    (((bankW { unit := some (true, 0) } [(K.cl_LIVE_MODE, 1), (K.cc_CAL_ENABLE 255, 1), (K.cc_CAL_KIND 255, 1)] : State).calBank (bankOf (255 : ChanId))).busy = true) ∧
    (refsOk (bankW { unit := some (true, 0) } [(K.cl_LIVE_MODE, 1), (K.cc_CAL_ENABLE 255, 1), (K.cc_CAL_KIND 255, 1)] : State) (0 : Nat) (0 : Nat) = true) := by decide +kernel

/-- The hypotheses of CalibrationNativeRun, clause 9, are met. -/
theorem test_meets_CalibrationNativeRun_9 :
    (domRuns (bankW {} [(K.cl_LIVE_MODE, 2), (K.cc_CAL_ENABLE 255, 1), (K.cc_CAL_KIND 255, 1)] : State) .timing = true) ∧
    ((bankW {} [(K.cl_LIVE_MODE, 2), (K.cc_CAL_ENABLE 255, 1), (K.cc_CAL_KIND 255, 1)] : State).g K.cl_LIVE_MODE = 2) ∧
    (takesPart (bankW {} [(K.cl_LIVE_MODE, 2), (K.cc_CAL_ENABLE 255, 1), (K.cc_CAL_KIND 255, 1)] : State) (255 : ChanId) = true) ∧
    (gateOn (bankW {} [(K.cl_LIVE_MODE, 2), (K.cc_CAL_ENABLE 255, 1), (K.cc_CAL_KIND 255, 1)] : State) (bankOf (255 : ChanId)).val = true) ∧
    (((bankW {} [(K.cl_LIVE_MODE, 2), (K.cc_CAL_ENABLE 255, 1), (K.cc_CAL_KIND 255, 1)] : State).calBank (bankOf (255 : ChanId))).legacy = none) ∧
    (((bankW {} [(K.cl_LIVE_MODE, 2), (K.cc_CAL_ENABLE 255, 1), (K.cc_CAL_KIND 255, 1)] : State).calBank (bankOf (255 : ChanId))).go = []) ∧
    ((bankW {} [(K.cl_LIVE_MODE, 2), (K.cc_CAL_ENABLE 255, 1), (K.cc_CAL_KIND 255, 1)] : State).tmuBusy (bankTmu (bankOf (255 : ChanId))) = false) := by decide +kernel

/-- The hypotheses of CalibrationNativeRun, clause 10, are met. -/
theorem test_meets_CalibrationNativeRun_10 :
    (domRuns (objs [(K.cl_LIVE_MODE, 0)] : State) .timing = true) ∧
    (((objs [(K.cl_LIVE_MODE, 0)] : State).g K.cl_LIVE_MODE = 0 ∨ takesPart (objs [(K.cl_LIVE_MODE, 0)] : State) (255 : ChanId) = false ∨ gateOn (objs [(K.cl_LIVE_MODE, 0)] : State) (bankOf (255 : ChanId)).val = false)) := by decide +kernel

/-- The hypotheses of CalibrationNativeRun, clause 11, are met. -/
theorem test_meets_CalibrationNativeRun_11 :
    (timingOn (objs [(K.cl_LIVE_MODE, 0), (K.th_TEMP 23, 4501)] : State) = true) ∧
    ((objs [(K.cl_LIVE_MODE, 0), (K.th_TEMP 23, 4501)] : State).g K.cl_LIVE_MODE = 0) ∧
    (refsOk (objs [(K.cl_LIVE_MODE, 0), (K.th_TEMP 23, 4501)] : State) ({ freq := 0, volt := 0 } : RefMeas).freq ({ freq := 0, volt := 0 } : RefMeas).volt = true) := by decide +kernel

/-- The hypotheses of CalibrationNativeRun, clause 12, are met. -/
theorem test_meets_CalibrationNativeRun_12 :
    (timingOn (bankW { unit := some (true, 0) } [(K.cl_LIVE_MODE, 1), (K.cc_CAL_ENABLE 255, 1), (K.cc_CAL_KIND 255, 1), (K.th_TEMP 23, 13500)] : State) = true) ∧
    (eligibleChan (bankW { unit := some (true, 0) } [(K.cl_LIVE_MODE, 1), (K.cc_CAL_ENABLE 255, 1), (K.cc_CAL_KIND 255, 1), (K.th_TEMP 23, 13500)] : State) (255 : ChanId) = true) ∧
    (gateOn (bankW { unit := some (true, 0) } [(K.cl_LIVE_MODE, 1), (K.cc_CAL_ENABLE 255, 1), (K.cc_CAL_KIND 255, 1), (K.th_TEMP 23, 13500)] : State) (bankOf (255 : ChanId)).val = true) ∧
    (((bankW { unit := some (true, 0) } [(K.cl_LIVE_MODE, 1), (K.cc_CAL_ENABLE 255, 1), (K.cc_CAL_KIND 255, 1), (K.th_TEMP 23, 13500)] : State).calBank (bankOf (255 : ChanId))).busy = true) ∧
    (((bankW { unit := some (true, 0) } [(K.cl_LIVE_MODE, 1), (K.cc_CAL_ENABLE 255, 1), (K.cc_CAL_KIND 255, 1), (K.th_TEMP 23, 13500)] : State).calBank (bankOf (255 : ChanId))).cur = none) ∧
    (((bankW { unit := some (true, 0) } [(K.cl_LIVE_MODE, 1), (K.cc_CAL_ENABLE 255, 1), (K.cc_CAL_KIND 255, 1), (K.th_TEMP 23, 13500)] : State).calBank (bankOf (255 : ChanId))).queue.contains (255 : ChanId).val = false) ∧
    (((bankW { unit := some (true, 0) } [(K.cl_LIVE_MODE, 1), (K.cc_CAL_ENABLE 255, 1), (K.cc_CAL_KIND 255, 1), (K.th_TEMP 23, 13500)] : State).calBank (bankOf (255 : ChanId))).liveNow.contains (255 : ChanId).val = false) ∧
    ((∀ d : BankId, d ≠ bankOf (255 : ChanId) → (((bankW { unit := some (true, 0) } [(K.cl_LIVE_MODE, 1), (K.cc_CAL_ENABLE 255, 1), (K.cc_CAL_KIND 255, 1), (K.th_TEMP 23, 13500)] : State).calBank d).queue ++ ((bankW { unit := some (true, 0) } [(K.cl_LIVE_MODE, 1), (K.cc_CAL_ENABLE 255, 1), (K.cc_CAL_KIND 255, 1), (K.th_TEMP 23, 13500)] : State).calBank d).liveNow).contains (255 : ChanId).val = false ∧ ((bankW { unit := some (true, 0) } [(K.cl_LIVE_MODE, 1), (K.cc_CAL_ENABLE 255, 1), (K.cc_CAL_KIND 255, 1), (K.th_TEMP 23, 13500)] : State).calBank d).cur.all (fun w => w.chan != (255 : ChanId)) = true)) ∧
    ((bankW { unit := some (true, 0) } [(K.cl_LIVE_MODE, 1), (K.cc_CAL_ENABLE 255, 1), (K.cc_CAL_KIND 255, 1), (K.th_TEMP 23, 13500)] : State).cal.barred.contains (255 : ChanId).val = false) ∧
    ((bankW { unit := some (true, 0) } [(K.cl_LIVE_MODE, 1), (K.cc_CAL_ENABLE 255, 1), (K.cc_CAL_KIND 255, 1), (K.th_TEMP 23, 13500)] : State).g K.cl_TEMP_TRIGGER ≤ iabs (bankTemp (bankW { unit := some (true, 0) } [(K.cl_LIVE_MODE, 1), (K.cc_CAL_ENABLE 255, 1), (K.cc_CAL_KIND 255, 1), (K.th_TEMP 23, 13500)] : State) (bankOf (255 : ChanId)) - (bankW { unit := some (true, 0) } [(K.cl_LIVE_MODE, 1), (K.cc_CAL_ENABLE 255, 1), (K.cc_CAL_KIND 255, 1), (K.th_TEMP 23, 13500)] : State).g (K.cc_CAL_TEMP (255 : ChanId)))) := by decide +kernel

/-- The hypotheses of CalibrationDirectAndLegacy, clause 1, are met. -/
theorem test_meets_CalibrationDirectAndLegacy_1 :
    (timingOn (bankW { unit := some (true, 0) } [(K.tt_LOCKED 7, 1), (K.tf_TREF_FREQ, 10), (K.vf_VREF_VALUE, 10)] : State) = true) ∧
    (liveBlock (bankW { unit := some (true, 0) } [(K.tt_LOCKED 7, 1), (K.tf_TREF_FREQ, 10), (K.vf_VREF_VALUE, 10)] : State) (7 : BankId) = true) ∧
    (refsOk (bankW { unit := some (true, 0) } [(K.tt_LOCKED 7, 1), (K.tf_TREF_FREQ, 10), (K.vf_VREF_VALUE, 10)] : State) (10 : Nat) (10 : Nat) = true) := by decide +kernel

/-- The hypotheses of CalibrationDirectAndLegacy, clause 2, are met. -/
theorem test_meets_CalibrationDirectAndLegacy_2 :
    (timingOn (bankW { unit := some (true, 0) } [(K.tf_TREF_FREQ, 10), (K.vf_VREF_VALUE, 10), (K.cl_LIVE_MODE, 1), (K.tt_LOCKED 7, 1)] : State) = true) ∧
    ((bankW { unit := some (true, 0) } [(K.tf_TREF_FREQ, 10), (K.vf_VREF_VALUE, 10), (K.cl_LIVE_MODE, 1), (K.tt_LOCKED 7, 1)] : State).g K.cl_LIVE_MODE ≠ 0) ∧
    (refsOk (bankW { unit := some (true, 0) } [(K.tf_TREF_FREQ, 10), (K.vf_VREF_VALUE, 10), (K.cl_LIVE_MODE, 1), (K.tt_LOCKED 7, 1)] : State) (11 : Nat) (10 : Nat) = false) ∧
    ((bankW { unit := some (true, 0) } [(K.tf_TREF_FREQ, 10), (K.vf_VREF_VALUE, 10), (K.cl_LIVE_MODE, 1), (K.tt_LOCKED 7, 1)] : State).cal.native = none) ∧
    ((bankW { unit := some (true, 0) } [(K.tf_TREF_FREQ, 10), (K.vf_VREF_VALUE, 10), (K.cl_LIVE_MODE, 1), (K.tt_LOCKED 7, 1)] : State).cal.refLost = false) ∧
    (blockStands (bankW { unit := some (true, 0) } [(K.tf_TREF_FREQ, 10), (K.vf_VREF_VALUE, 10), (K.cl_LIVE_MODE, 1), (K.tt_LOCKED 7, 1)] : State) (7 : BankId) = true) ∧
    (((measuresNow (bankW { unit := some (true, 0) } [(K.tf_TREF_FREQ, 10), (K.vf_VREF_VALUE, 10), (K.cl_LIVE_MODE, 1), (K.tt_LOCKED 7, 1)] : State) (7 : BankId) = true ∧ ((bankW { unit := some (true, 0) } [(K.tf_TREF_FREQ, 10), (K.vf_VREF_VALUE, 10), (K.cl_LIVE_MODE, 1), (K.tt_LOCKED 7, 1)] : State).calBank (7 : BankId)).legacy = none) ∨ startsWork (bankW { unit := some (true, 0) } [(K.tf_TREF_FREQ, 10), (K.vf_VREF_VALUE, 10), (K.cl_LIVE_MODE, 1), (K.tt_LOCKED 7, 1)] : State) (7 : BankId) = true)) := by decide +kernel

/-- The hypotheses of CalibrationDirectAndLegacy, clause 3, are met. -/
theorem test_meets_CalibrationDirectAndLegacy_3 :
    (timingOn (bankW { cur := some { chan := 255, spar := none, phase := 0 } } [(K.tt_LOCKED 7, 1), (K.tf_TREF_FREQ, 10), (K.vf_VREF_VALUE, 10), (K.cl_COMMIT_BUDGET, 5)] : State) = true) ∧
    (refsOk (bankW { cur := some { chan := 255, spar := none, phase := 0 } } [(K.tt_LOCKED 7, 1), (K.tf_TREF_FREQ, 10), (K.vf_VREF_VALUE, 10), (K.cl_COMMIT_BUDGET, 5)] : State) (10 : Nat) (10 : Nat) = true) ∧
    (liveBlock (bankW { cur := some { chan := 255, spar := none, phase := 0 } } [(K.tt_LOCKED 7, 1), (K.tf_TREF_FREQ, 10), (K.vf_VREF_VALUE, 10), (K.cl_COMMIT_BUDGET, 5)] : State) (7 : BankId) = true) ∧
    (Calibrates (7 : BankId) ({ chan := 255, spar := none, phase := 0 } : Swap) (bankW { cur := some { chan := 255, spar := none, phase := 0 } } [(K.tt_LOCKED 7, 1), (K.tf_TREF_FREQ, 10), (K.vf_VREF_VALUE, 10), (K.cl_COMMIT_BUDGET, 5)] : State)) ∧
    (({ chan := 255, spar := none, phase := 0 } : Swap).phase = 0) ∧
    (chanActive (bankW { cur := some { chan := 255, spar := none, phase := 0 } } [(K.tt_LOCKED 7, 1), (K.tf_TREF_FREQ, 10), (K.vf_VREF_VALUE, 10), (K.cl_COMMIT_BUDGET, 5)] : State) ({ chan := 255, spar := none, phase := 0 } : Swap).chan = false) ∧
    ((bankW { cur := some { chan := 255, spar := none, phase := 0 } } [(K.tt_LOCKED 7, 1), (K.tf_TREF_FREQ, 10), (K.vf_VREF_VALUE, 10), (K.cl_COMMIT_BUDGET, 5)] : State).g (K.cc_CAL_COUNT ({ chan := 255, spar := none, phase := 0 } : Swap).chan) < 4294967295) := by decide +kernel

/-- The hypotheses of CalibrationDirectAndLegacy, clause 4, are met. -/
theorem test_meets_CalibrationDirectAndLegacy_4 :
    (timingOn (bankW { unit := some (true, 0) } [(K.tt_LOCKED 7, 1), (K.tf_TREF_FREQ, 10), (K.vf_VREF_VALUE, 10)] : State) = true) ∧
    (refsOk (bankW { unit := some (true, 0) } [(K.tt_LOCKED 7, 1), (K.tf_TREF_FREQ, 10), (K.vf_VREF_VALUE, 10)] : State) (10 : Nat) (10 : Nat) = true) ∧
    (liveBlock (bankW { unit := some (true, 0) } [(K.tt_LOCKED 7, 1), (K.tf_TREF_FREQ, 10), (K.vf_VREF_VALUE, 10)] : State) (7 : BankId) = true) ∧
    (((bankW { unit := some (true, 0) } [(K.tt_LOCKED 7, 1), (K.tf_TREF_FREQ, 10), (K.vf_VREF_VALUE, 10)] : State).calBank (7 : BankId)).unit = some (true, 0)) := by decide +kernel

/-- The hypotheses of CalibrationDirectAndLegacy, clause 5, are met. -/
theorem test_meets_CalibrationDirectAndLegacy_5 :
    (domRuns ((fun (s : State) => { s with dict := { s.dict with outs := [{ st := 2, staged := [(K.cc_OFS 255 9, .num 5)], job := some (.direct 7) }] } }) (bankW { cur := some { chan := 255, spar := none, phase := 0 } } []) : State) .mgmt = true) ∧
    (timingOn ((fun (s : State) => { s with dict := { s.dict with outs := [{ st := 2, staged := [(K.cc_OFS 255 9, .num 5)], job := some (.direct 7) }] } }) (bankW { cur := some { chan := 255, spar := none, phase := 0 } } []) : State) = true) ∧
    (outAt ((fun (s : State) => { s with dict := { s.dict with outs := [{ st := 2, staged := [(K.cc_OFS 255 9, .num 5)], job := some (.direct 7) }] } }) (bankW { cur := some { chan := 255, spar := none, phase := 0 } } []) : State) (0 : Nat) = some ({ st := 2, staged := [(K.cc_OFS 255 9, .num 5)], job := some (.direct 7) } : Txn)) ∧
    (OnlyOut (0 : Nat) ({ st := 2, staged := [(K.cc_OFS 255 9, .num 5)], job := some (.direct 7) } : Txn) ((fun (s : State) => { s with dict := { s.dict with outs := [{ st := 2, staged := [(K.cc_OFS 255 9, .num 5)], job := some (.direct 7) }] } }) (bankW { cur := some { chan := 255, spar := none, phase := 0 } } []) : State)) ∧
    (({ st := 2, staged := [(K.cc_OFS 255 9, .num 5)], job := some (.direct 7) } : Txn).job = some (.direct (7 : BankId))) ∧
    (({ st := 2, staged := [(K.cc_OFS 255 9, .num 5)], job := some (.direct 7) } : Txn).kind = 0) ∧
    (({ st := 2, staged := [(K.cc_OFS 255 9, .num 5)], job := some (.direct 7) } : Txn).due ((fun (s : State) => { s with dict := { s.dict with outs := [{ st := 2, staged := [(K.cc_OFS 255 9, .num 5)], job := some (.direct 7) }] } }) (bankW { cur := some { chan := 255, spar := none, phase := 0 } } []) : State) = true) ∧
    (recheck (ctxOf ((fun (s : State) => { s with dict := { s.dict with outs := [{ st := 2, staged := [(K.cc_OFS 255 9, .num 5)], job := some (.direct 7) }] } }) (bankW { cur := some { chan := 255, spar := none, phase := 0 } } []) : State).fresh ((fun (s : State) => { s with dict := { s.dict with outs := [{ st := 2, staged := [(K.cc_OFS 255 9, .num 5)], job := some (.direct 7) }] } }) (bankW { cur := some { chan := 255, spar := none, phase := 0 } } []) : State).fresh ({ st := 2, staged := [(K.cc_OFS 255 9, .num 5)], job := some (.direct 7) } : Txn).values 0 0) = none) ∧
    ((∀ e ∈ ({ st := 2, staged := [(K.cc_OFS 255 9, .num 5)], job := some (.direct 7) } : Txn).values, e.1 ∈ chanKeys ({ chan := 255, spar := none, phase := 0 } : Swap).chan)) ∧
    (Calibrates (7 : BankId) ({ chan := 255, spar := none, phase := 0 } : Swap) ((fun (s : State) => { s with dict := { s.dict with outs := [{ st := 2, staged := [(K.cc_OFS 255 9, .num 5)], job := some (.direct 7) }] } }) (bankW { cur := some { chan := 255, spar := none, phase := 0 } } []) : State)) ∧
    (({ chan := 255, spar := none, phase := 0 } : Swap).phase = 0) := by decide +kernel

/-- The hypotheses of CalibrationDirectAndLegacy, clause 6, are met. -/
theorem test_meets_CalibrationDirectAndLegacy_6 :
    (timingOn ({ (objs [(K.cl_LIVE_MODE, 2)]) with cal := { refLost := true } } : State) = true) ∧
    (({ (objs [(K.cl_LIVE_MODE, 2)]) with cal := { refLost := true } } : State).cal.native = none) ∧
    (Whole ({ (objs [(K.cl_LIVE_MODE, 2)]) with cal := { refLost := true } } : State) Src.CALREF_LOST) := by decide +kernel

/-- The hypotheses of CalibrationDirectAndLegacy, clause 7, are met. -/
theorem test_meets_CalibrationDirectAndLegacy_7 :
    (timingOn (bankW { cur := some { chan := 255, spar := none, phase := 0 } } (chanIn 2) : State) = true) ∧
    (Calibrates (7 : BankId) ({ chan := 255, spar := none, phase := 0 } : Swap) (bankW { cur := some { chan := 255, spar := none, phase := 0 } } (chanIn 2) : State)) ∧
    (({ chan := 255, spar := none, phase := 0 } : Swap).phase = 0) ∧
    (chanActive (bankW { cur := some { chan := 255, spar := none, phase := 0 } } (chanIn 2) : State) ({ chan := 255, spar := none, phase := 0 } : Swap).chan = true) := by decide +kernel

/-- The hypotheses of CalibrationDirectAndLegacy, clause 8, are met. -/
theorem test_meets_CalibrationDirectAndLegacy_8 :
    (timingOn (bankW { legacy := some [(224, 10), (255, 30)] } [(K.cl_COMMIT_BUDGET, 0)] : State) = true) ∧
    (((bankW { legacy := some [(224, 10), (255, 30)] } [(K.cl_COMMIT_BUDGET, 0)] : State).calBank (7 : BankId)).legacy = some ([(224, 10), (255, 30)] : KMap Int)) ∧
    (((bankW { legacy := some [(224, 10), (255, 30)] } [(K.cl_COMMIT_BUDGET, 0)] : State).calBank (7 : BankId)).cur = none) ∧
    (((bankW { legacy := some [(224, 10), (255, 30)] } [(K.cl_COMMIT_BUDGET, 0)] : State).calBank (7 : BankId)).unit = none) := by decide +kernel

/-- The hypotheses of CalibrationDirectAndLegacy, clause 9, are met. -/
theorem test_meets_CalibrationDirectAndLegacy_9 :
    (timingOn (bankW { go := [(255, -2500)] } [] : State) = true) ∧
    (((bankW { go := [(255, -2500)] } [] : State).calBank (7 : BankId)).legacy = none) ∧
    (((bankW { go := [(255, -2500)] } [] : State).calBank (7 : BankId)).cur = none) ∧
    (((bankW { go := [(255, -2500)] } [] : State).calBank (7 : BankId)).unit = none) ∧
    (((bankW { go := [(255, -2500)] } [] : State).calBank (7 : BankId)).go = [((255 : ChanId).val, (-2500 : Int))]) ∧
    (-2500 ≤ (-2500 : Int)) ∧
    ((-2500 : Int) ≤ 2500) ∧
    (calPending (bankW { go := [(255, -2500)] } [] : State) (7 : BankId) = false) := by decide +kernel

/-- The hypotheses of CalibrationSwap, clause 1, are met. -/
theorem test_meets_CalibrationSwap_1 :
    (timingOn (bankW { cur := some (swapX 1) } [] : State) = true) ∧
    (Calibrates (7 : BankId) (swapX 1 : Swap) (bankW { cur := some (swapX 1) } [] : State)) ∧
    ((swapX 1 : Swap).phase = 1) := by decide +kernel

/-- The hypotheses of CalibrationSwap, clause 2, are met. -/
theorem test_meets_CalibrationSwap_2 :
    (timingOn (bankW { cur := some { swapX 2 with ok := (false, true) } } [(K.cl_ALIGN_TOL, 3), (K.tt_LOCKED 7, 1)] : State) = true) ∧
    (Calibrates (7 : BankId) ({ swapX 2 with ok := (false, true) } : Swap) (bankW { cur := some { swapX 2 with ok := (false, true) } } [(K.cl_ALIGN_TOL, 3), (K.tt_LOCKED 7, 1)] : State)) ∧
    (({ swapX 2 with ok := (false, true) } : Swap).phase = 2) ∧
    (liveBlock (bankW { cur := some { swapX 2 with ok := (false, true) } } [(K.cl_ALIGN_TOL, 3), (K.tt_LOCKED 7, 1)] : State) (7 : BankId) = true) ∧
    (({ swapX 2 with ok := (false, true) } : Swap).spar = some (15 : SparId)) ∧
    (({ swapX 2 with ok := (false, true) } : Swap).ok = (false, true)) ∧
    (refsStand (bankW { cur := some { swapX 2 with ok := (false, true) } } [(K.cl_ALIGN_TOL, 3), (K.tt_LOCKED 7, 1)] : State) = true) ∧
    (iabs (-3 : Int) ≤ (bankW { cur := some { swapX 2 with ok := (false, true) } } [(K.cl_ALIGN_TOL, 3), (K.tt_LOCKED 7, 1)] : State).g K.cl_ALIGN_TOL) := by decide +kernel

/-- The hypotheses of CalibrationSwap, clause 3, are met. -/
theorem test_meets_CalibrationSwap_3 :
    (timingOn (bankW { cur := some { swapX 2 with tries := (1, 0) } } [(K.cl_ALIGN_TOL, 3), (K.tt_LOCKED 7, 1)] : State) = true) ∧
    (Calibrates (7 : BankId) ({ swapX 2 with tries := (1, 0) } : Swap) (bankW { cur := some { swapX 2 with tries := (1, 0) } } [(K.cl_ALIGN_TOL, 3), (K.tt_LOCKED 7, 1)] : State)) ∧
    (({ swapX 2 with tries := (1, 0) } : Swap).phase = 2) ∧
    (liveBlock (bankW { cur := some { swapX 2 with tries := (1, 0) } } [(K.cl_ALIGN_TOL, 3), (K.tt_LOCKED 7, 1)] : State) (7 : BankId) = true) ∧
    (({ swapX 2 with tries := (1, 0) } : Swap).spar = some (15 : SparId)) ∧
    (({ swapX 2 with tries := (1, 0) } : Swap).tries.1 < 2) ∧
    ((bankW { cur := some { swapX 2 with tries := (1, 0) } } [(K.cl_ALIGN_TOL, 3), (K.tt_LOCKED 7, 1)] : State).g K.cl_ALIGN_TOL < iabs (-4 : Int)) := by decide +kernel

/-- The hypotheses of CalibrationSwap, clause 4, are met. -/
theorem test_meets_CalibrationSwap_4 :
    (timingOn (bankW { cur := some { swapX 2 with tries := (2, 0) } } [(K.cl_ALIGN_TOL, 3), (K.tt_LOCKED 7, 1)] : State) = true) ∧
    (Calibrates (7 : BankId) ({ swapX 2 with tries := (2, 0) } : Swap) (bankW { cur := some { swapX 2 with tries := (2, 0) } } [(K.cl_ALIGN_TOL, 3), (K.tt_LOCKED 7, 1)] : State)) ∧
    (({ swapX 2 with tries := (2, 0) } : Swap).phase = 2) ∧
    (liveBlock (bankW { cur := some { swapX 2 with tries := (2, 0) } } [(K.cl_ALIGN_TOL, 3), (K.tt_LOCKED 7, 1)] : State) (7 : BankId) = true) ∧
    (({ swapX 2 with tries := (2, 0) } : Swap).spar = some (15 : SparId)) ∧
    (({ swapX 2 with tries := (2, 0) } : Swap).tries.1 = 2) ∧
    ((bankW { cur := some { swapX 2 with tries := (2, 0) } } [(K.cl_ALIGN_TOL, 3), (K.tt_LOCKED 7, 1)] : State).g K.cl_ALIGN_TOL < iabs (-4 : Int)) := by decide +kernel

/-- The hypotheses of CalibrationSwap, clause 5, are met. -/
theorem test_meets_CalibrationSwap_5 :
    (timingOn (bankW { cur := some (swapX 3) } (chanIn 3) : State) = true) ∧
    (Calibrates (7 : BankId) (swapX 3 : Swap) (bankW { cur := some (swapX 3) } (chanIn 3) : State)) ∧
    ((swapX 3 : Swap).phase = 3) ∧
    ((swapX 3 : Swap).spar = some (15 : SparId)) ∧
    ((bankW { cur := some (swapX 3) } (chanIn 3) : State).siteOf (swapX 3 : Swap).chan = some (31 : SiteId)) ∧
    ((bankW { cur := some (swapX 3) } (chanIn 3) : State).active (31 : SiteId) = true) ∧
    (((bankW { cur := some (swapX 3) } (chanIn 3) : State).site (31 : SiteId)).swap = none) := by decide +kernel

/-- The hypotheses of CalibrationSwap, clause 6, are met. -/
theorem test_meets_CalibrationSwap_6 :
    (timingOn ((bankW { cur := some (swapX 3) } (chanIn 3)).setSite 31 { swap := some (15, true), swapTaken := true, eaveAt := some 9, xsw := [⟨255, 0, 0, 0, 2, 0, false⟩] } : State) = true) ∧
    ((((bankW { cur := some (swapX 3) } (chanIn 3)).setSite 31 { swap := some (15, true), swapTaken := true, eaveAt := some 9, xsw := [⟨255, 0, 0, 0, 2, 0, false⟩] } : State).site (31 : SiteId)).swap = some ((15 : SparId), true)) ∧
    ((((bankW { cur := some (swapX 3) } (chanIn 3)).setSite 31 { swap := some (15, true), swapTaken := true, eaveAt := some 9, xsw := [⟨255, 0, 0, 0, 2, 0, false⟩] } : State).site (31 : SiteId)).xsw = [(⟨255, 0, 0, 0, 2, 0, false⟩ : XSwitch)]) ∧
    ((⟨255, 0, 0, 0, 2, 0, false⟩ : XSwitch).done = false) ∧
    ((⟨255, 0, 0, 0, 2, 0, false⟩ : XSwitch).due ≤ ((bankW { cur := some (swapX 3) } (chanIn 3)).setSite 31 { swap := some (15, true), swapTaken := true, eaveAt := some 9, xsw := [⟨255, 0, 0, 0, 2, 0, false⟩] } : State).now) ∧
    ((⟨255, 0, 0, 0, 2, 0, false⟩ : XSwitch).kind = 0) ∧
    ((⟨255, 0, 0, 0, 2, 0, false⟩ : XSwitch).chan = (swapX 3 : Swap).chan) ∧
    ((⟨255, 0, 0, 0, 2, 0, false⟩ : XSwitch).new = 1 + (15 : SparId).val % 2) ∧
    (Calibrates (sparBank (15 : SparId)) (swapX 3 : Swap) ((bankW { cur := some (swapX 3) } (chanIn 3)).setSite 31 { swap := some (15, true), swapTaken := true, eaveAt := some 9, xsw := [⟨255, 0, 0, 0, 2, 0, false⟩] } : State)) ∧
    (((bankW { cur := some (swapX 3) } (chanIn 3)).setSite 31 { swap := some (15, true), swapTaken := true, eaveAt := some 9, xsw := [⟨255, 0, 0, 0, 2, 0, false⟩] } : State).cal.refLost = false) := by decide +kernel

/-- The hypotheses of CalibrationSwap, clause 7, are met. -/
theorem test_meets_CalibrationSwap_7 :
    (timingOn ((bankW { cur := some (swapX 6) } (chanIn 3)).setSite 31 { swap := some (15, false) } : State) = true) ∧
    ((((bankW { cur := some (swapX 6) } (chanIn 3)).setSite 31 { swap := some (15, false) } : State).site (31 : SiteId)).swap = some ((15 : SparId), false)) ∧
    ((((bankW { cur := some (swapX 6) } (chanIn 3)).setSite 31 { swap := some (15, false) } : State).site (31 : SiteId)).xsw.all (fun e => e.done || decide (((bankW { cur := some (swapX 6) } (chanIn 3)).setSite 31 { swap := some (15, false) } : State).now < e.due)) = true) ∧
    (((bankW { cur := some (swapX 6) } (chanIn 3)).setSite 31 { swap := some (15, false) } : State).g (K.ch_XBAR_STATE (swapX 6 : Swap).chan) = 0) ∧
    (Calibrates (sparBank (15 : SparId)) (swapX 6 : Swap) ((bankW { cur := some (swapX 6) } (chanIn 3)).setSite 31 { swap := some (15, false) } : State)) := by decide +kernel

/-- The hypotheses of CalibrationSwap, clause 8, are met. -/
theorem test_meets_CalibrationSwap_8 :
    (timingOn (bankW { cur := some (swapX 4) } [(K.tt_LOCKED 7, 1)] : State) = true) ∧
    (Calibrates (7 : BankId) (swapX 4 : Swap) (bankW { cur := some (swapX 4) } [(K.tt_LOCKED 7, 1)] : State)) ∧
    ((swapX 4 : Swap).phase = 4) ∧
    (liveBlock (bankW { cur := some (swapX 4) } [(K.tt_LOCKED 7, 1)] : State) (7 : BankId) = true) ∧
    ((swapX 4 : Swap).spar = some (15 : SparId)) ∧
    ((swapX 4 : Swap).newRt = none) ∧
    (mayPublish (bankW { cur := some (swapX 4) } [(K.tt_LOCKED 7, 1)] : State) (chanKeys (swapX 4 : Swap).chan) = true) := by decide +kernel

/-- The hypotheses of CalibrationSwap, clause 9, are met. -/
theorem test_meets_CalibrationSwap_9 :
    (domRuns ((fun (s : State) => { s with dict := { s.dict with outs := [{ st := 2, staged := [(K.cc_OFS 255 9, .num 5)], job := some (.publish 7 true) }] } }) (bankW { cur := some (swapX 4) } []) : State) .mgmt = true) ∧
    (timingOn ((fun (s : State) => { s with dict := { s.dict with outs := [{ st := 2, staged := [(K.cc_OFS 255 9, .num 5)], job := some (.publish 7 true) }] } }) (bankW { cur := some (swapX 4) } []) : State) = true) ∧
    (outAt ((fun (s : State) => { s with dict := { s.dict with outs := [{ st := 2, staged := [(K.cc_OFS 255 9, .num 5)], job := some (.publish 7 true) }] } }) (bankW { cur := some (swapX 4) } []) : State) (0 : Nat) = some ({ st := 2, staged := [(K.cc_OFS 255 9, .num 5)], job := some (.publish 7 true) } : Txn)) ∧
    (OnlyOut (0 : Nat) ({ st := 2, staged := [(K.cc_OFS 255 9, .num 5)], job := some (.publish 7 true) } : Txn) ((fun (s : State) => { s with dict := { s.dict with outs := [{ st := 2, staged := [(K.cc_OFS 255 9, .num 5)], job := some (.publish 7 true) }] } }) (bankW { cur := some (swapX 4) } []) : State)) ∧
    (({ st := 2, staged := [(K.cc_OFS 255 9, .num 5)], job := some (.publish 7 true) } : Txn).job = some (.publish (7 : BankId) true)) ∧
    (({ st := 2, staged := [(K.cc_OFS 255 9, .num 5)], job := some (.publish 7 true) } : Txn).kind = 0) ∧
    (({ st := 2, staged := [(K.cc_OFS 255 9, .num 5)], job := some (.publish 7 true) } : Txn).due ((fun (s : State) => { s with dict := { s.dict with outs := [{ st := 2, staged := [(K.cc_OFS 255 9, .num 5)], job := some (.publish 7 true) }] } }) (bankW { cur := some (swapX 4) } []) : State) = true) ∧
    (recheck (ctxOf ((fun (s : State) => { s with dict := { s.dict with outs := [{ st := 2, staged := [(K.cc_OFS 255 9, .num 5)], job := some (.publish 7 true) }] } }) (bankW { cur := some (swapX 4) } []) : State).fresh ((fun (s : State) => { s with dict := { s.dict with outs := [{ st := 2, staged := [(K.cc_OFS 255 9, .num 5)], job := some (.publish 7 true) }] } }) (bankW { cur := some (swapX 4) } []) : State).fresh ({ st := 2, staged := [(K.cc_OFS 255 9, .num 5)], job := some (.publish 7 true) } : Txn).values 0 0) = none) ∧
    ((∀ e ∈ ({ st := 2, staged := [(K.cc_OFS 255 9, .num 5)], job := some (.publish 7 true) } : Txn).values, e.1 ∈ chanKeys (swapX 4 : Swap).chan)) ∧
    (Calibrates (7 : BankId) (swapX 4 : Swap) ((fun (s : State) => { s with dict := { s.dict with outs := [{ st := 2, staged := [(K.cc_OFS 255 9, .num 5)], job := some (.publish 7 true) }] } }) (bankW { cur := some (swapX 4) } []) : State)) ∧
    ((swapX 4 : Swap).phase = 4) ∧
    ((swapX 4 : Swap).spar = some (15 : SparId)) := by decide +kernel

/-- The hypotheses of CalibrationSwap, clause 12, are met. -/
theorem test_meets_CalibrationSwap_12 :
    (timingOn (bankW { cur := some { swapX 6 with tempSum := 9001, temps := 2 } } [(K.sp_SPAR_STATE 15, 4)] : State) = true) ∧
    (Calibrates (7 : BankId) ({ swapX 6 with tempSum := 9001, temps := 2 } : Swap) (bankW { cur := some { swapX 6 with tempSum := 9001, temps := 2 } } [(K.sp_SPAR_STATE 15, 4)] : State)) ∧
    (({ swapX 6 with tempSum := 9001, temps := 2 } : Swap).spar = some (15 : SparId)) ∧
    (swapBack (bankW { cur := some { swapX 6 with tempSum := 9001, temps := 2 } } [(K.sp_SPAR_STATE 15, 4)] : State) ({ swapX 6 with tempSum := 9001, temps := 2 } : Swap) (15 : SparId) = true) ∧
    (calPending (bankW { cur := some { swapX 6 with tempSum := 9001, temps := 2 } } [(K.sp_SPAR_STATE 15, 4)] : State) (7 : BankId) = false) ∧
    ((bankW { cur := some { swapX 6 with tempSum := 9001, temps := 2 } } [(K.sp_SPAR_STATE 15, 4)] : State).g (K.cc_CAL_COUNT ({ swapX 6 with tempSum := 9001, temps := 2 } : Swap).chan) < 4294967295) ∧
    ((bankW { cur := some { swapX 6 with tempSum := 9001, temps := 2 } } [(K.sp_SPAR_STATE 15, 4)] : State).g (K.sp_SWAPS (15 : SparId)) < 4294967295) := by decide +kernel

/-- The hypotheses of CalibrationSwap, clause 13, are met. -/
theorem test_meets_CalibrationSwap_13 :
    (domRuns ((fun (s : State) => { s with dict := { s.dict with outs := [{ st := 2, staged := [(K.sp_SWAPS 15, .num 5)], job := some (.back 7) }] } }) (bankW { cur := some (swapX 6) } []) : State) .mgmt = true) ∧
    (timingOn ((fun (s : State) => { s with dict := { s.dict with outs := [{ st := 2, staged := [(K.sp_SWAPS 15, .num 5)], job := some (.back 7) }] } }) (bankW { cur := some (swapX 6) } []) : State) = true) ∧
    (outAt ((fun (s : State) => { s with dict := { s.dict with outs := [{ st := 2, staged := [(K.sp_SWAPS 15, .num 5)], job := some (.back 7) }] } }) (bankW { cur := some (swapX 6) } []) : State) (0 : Nat) = some ({ st := 2, staged := [(K.sp_SWAPS 15, .num 5)], job := some (.back 7) } : Txn)) ∧
    (OnlyOut (0 : Nat) ({ st := 2, staged := [(K.sp_SWAPS 15, .num 5)], job := some (.back 7) } : Txn) ((fun (s : State) => { s with dict := { s.dict with outs := [{ st := 2, staged := [(K.sp_SWAPS 15, .num 5)], job := some (.back 7) }] } }) (bankW { cur := some (swapX 6) } []) : State)) ∧
    (({ st := 2, staged := [(K.sp_SWAPS 15, .num 5)], job := some (.back 7) } : Txn).job = some (.back (7 : BankId))) ∧
    (({ st := 2, staged := [(K.sp_SWAPS 15, .num 5)], job := some (.back 7) } : Txn).kind = 0) ∧
    (({ st := 2, staged := [(K.sp_SWAPS 15, .num 5)], job := some (.back 7) } : Txn).due ((fun (s : State) => { s with dict := { s.dict with outs := [{ st := 2, staged := [(K.sp_SWAPS 15, .num 5)], job := some (.back 7) }] } }) (bankW { cur := some (swapX 6) } []) : State) = true) ∧
    (recheck (ctxOf ((fun (s : State) => { s with dict := { s.dict with outs := [{ st := 2, staged := [(K.sp_SWAPS 15, .num 5)], job := some (.back 7) }] } }) (bankW { cur := some (swapX 6) } []) : State).fresh ((fun (s : State) => { s with dict := { s.dict with outs := [{ st := 2, staged := [(K.sp_SWAPS 15, .num 5)], job := some (.back 7) }] } }) (bankW { cur := some (swapX 6) } []) : State).fresh ({ st := 2, staged := [(K.sp_SWAPS 15, .num 5)], job := some (.back 7) } : Txn).values 0 0) = none) ∧
    ((∀ e ∈ ({ st := 2, staged := [(K.sp_SWAPS 15, .num 5)], job := some (.back 7) } : Txn).values, e.1 ∈ chanKeys (swapX 6 : Swap).chan ++ [K.sp_SWAPS (15 : SparId)])) ∧
    (Calibrates (7 : BankId) (swapX 6 : Swap) ((fun (s : State) => { s with dict := { s.dict with outs := [{ st := 2, staged := [(K.sp_SWAPS 15, .num 5)], job := some (.back 7) }] } }) (bankW { cur := some (swapX 6) } []) : State)) ∧
    ((swapX 6 : Swap).spar = some (15 : SparId)) := by decide +kernel

/-- The hypotheses of CalibrationSwap, clause 14, are met. -/
theorem test_meets_CalibrationSwap_14 :
    (timingOn ({ ((bankW { cur := some (swapX 3) } (chanIn 3 ++ [(K.sr_PENDING_INT 31, 8)])).setSite 31 { swap := some (15, true) }) with now := 80000000000 } : State) = true) ∧
    (Calibrates (7 : BankId) (swapX 3 : Swap) ({ ((bankW { cur := some (swapX 3) } (chanIn 3 ++ [(K.sr_PENDING_INT 31, 8)])).setSite 31 { swap := some (15, true) }) with now := 80000000000 } : State)) ∧
    ((swapX 3 : Swap).phase = 3) ∧
    ((swapX 3 : Swap).spar = some (15 : SparId)) ∧
    (({ ((bankW { cur := some (swapX 3) } (chanIn 3 ++ [(K.sr_PENDING_INT 31, 8)])).setSite 31 { swap := some (15, true) }) with now := 80000000000 } : State).siteOf (swapX 3 : Swap).chan = some (31 : SiteId)) ∧
    ((({ ((bankW { cur := some (swapX 3) } (chanIn 3 ++ [(K.sr_PENDING_INT 31, 8)])).setSite 31 { swap := some (15, true) }) with now := 80000000000 } : State).site (31 : SiteId)).swap.map Prod.fst = some (15 : SparId)) ∧
    ((({ ((bankW { cur := some (swapX 3) } (chanIn 3 ++ [(K.sr_PENDING_INT 31, 8)])).setSite 31 { swap := some (15, true) }) with now := 80000000000 } : State).site (31 : SiteId)).xsw.all (fun e => e.chan != (swapX 3 : Swap).chan) = true) ∧
    (({ ((bankW { cur := some (swapX 3) } (chanIn 3 ++ [(K.sr_PENDING_INT 31, 8)])).setSite 31 { swap := some (15, true) }) with now := 80000000000 } : State).n (K.ch_XBAR_STATE (swapX 3 : Swap).chan) ≠ 1 + (15 : SparId).val % 2) ∧
    ((swapX 3 : Swap).reqAt + ({ ((bankW { cur := some (swapX 3) } (chanIn 3 ++ [(K.sr_PENDING_INT 31, 8)])).setSite 31 { swap := some (15, true) }) with now := 80000000000 } : State).n K.cl_SWAP_WAIT / 1250000 ≤ ({ ((bankW { cur := some (swapX 3) } (chanIn 3 ++ [(K.sr_PENDING_INT 31, 8)])).setSite 31 { swap := some (15, true) }) with now := 80000000000 } : State).now) := by decide +kernel

/-- The hypotheses of CalibrationSwap, clause 15, are met. -/
theorem test_meets_CalibrationSwap_15 :
    (timingOn ({ ((bankW { cur := some (swapX 6) } (chanIn 3 ++ [(K.ch_XBAR_STATE 255, 2)])).setSite 31 { swap := some (15, false) }) with now := 80000000000 } : State) = true) ∧
    (Calibrates (7 : BankId) (swapX 6 : Swap) ({ ((bankW { cur := some (swapX 6) } (chanIn 3 ++ [(K.ch_XBAR_STATE 255, 2)])).setSite 31 { swap := some (15, false) }) with now := 80000000000 } : State)) ∧
    ((swapX 6 : Swap).phase = 6) ∧
    ((swapX 6 : Swap).spar = some (15 : SparId)) ∧
    (({ ((bankW { cur := some (swapX 6) } (chanIn 3 ++ [(K.ch_XBAR_STATE 255, 2)])).setSite 31 { swap := some (15, false) }) with now := 80000000000 } : State).siteOf (swapX 6 : Swap).chan = some (31 : SiteId)) ∧
    ((({ ((bankW { cur := some (swapX 6) } (chanIn 3 ++ [(K.ch_XBAR_STATE 255, 2)])).setSite 31 { swap := some (15, false) }) with now := 80000000000 } : State).site (31 : SiteId)).swap.map Prod.fst = some (15 : SparId)) ∧
    ((({ ((bankW { cur := some (swapX 6) } (chanIn 3 ++ [(K.ch_XBAR_STATE 255, 2)])).setSite 31 { swap := some (15, false) }) with now := 80000000000 } : State).site (31 : SiteId)).xsw.all (fun e => e.chan != (swapX 6 : Swap).chan) = true) ∧
    (({ ((bankW { cur := some (swapX 6) } (chanIn 3 ++ [(K.ch_XBAR_STATE 255, 2)])).setSite 31 { swap := some (15, false) }) with now := 80000000000 } : State).n (K.ch_XBAR_STATE (swapX 6 : Swap).chan) ≠ 0) ∧
    ((swapX 6 : Swap).reqAt + ({ ((bankW { cur := some (swapX 6) } (chanIn 3 ++ [(K.ch_XBAR_STATE 255, 2)])).setSite 31 { swap := some (15, false) }) with now := 80000000000 } : State).n K.cl_SWAP_WAIT / 1250000 ≤ ({ ((bankW { cur := some (swapX 6) } (chanIn 3 ++ [(K.ch_XBAR_STATE 255, 2)])).setSite 31 { swap := some (15, false) }) with now := 80000000000 } : State).now) := by decide +kernel

/-- The hypotheses of CalibrationSwap, clause 16, are met. -/
theorem test_meets_CalibrationSwap_16 :
    (timingOn ((fun (s : State) => { s with flt := { s.flt with wants := [⟨255, 15, 0⟩] } }) (bankW {} (chanIn 3)) : State) = true) ∧
    (((fun (s : State) => { s with flt := { s.flt with wants := [⟨255, 15, 0⟩] } }) (bankW {} (chanIn 3)) : State).flt.wants.find? (fun q => q.spar == (15 : SparId)) = some (⟨255, 15, 0⟩ : Want)) ∧
    (((fun (s : State) => { s with flt := { s.flt with wants := [⟨255, 15, 0⟩] } }) (bankW {} (chanIn 3)) : State).calBank (sparBank (15 : SparId)) = {}) := by decide +kernel

/-- The hypotheses of CalibrationSwap are met (1). -/
theorem test_meets_CalibrationSwap_t1 :
    Calibrates 7 (swapX 5) (bankW { cur := some (swapX 5) } [(K.cl_ALIGN_TOL, 3), (K.tt_LOCKED 7, 1)]) ∧ blockStands (bankW { cur := some (swapX 5) } [(K.cl_ALIGN_TOL, 3), (K.tt_LOCKED 7, 1)]) 7 = true ∧ measuresNow (bankW { cur := some (swapX 5) } [(K.cl_ALIGN_TOL, 3), (K.tt_LOCKED 7, 1)]) 7 = true ∧ iabs (-3) ≤ 3 ∧ 3 < iabs (-4) := by decide +kernel

/-- The hypotheses of ClockReferences, clause 1, are met. -/
theorem test_meets_ClockReferences_1 :
    ((objs [(K.ck_REFCLK_STATE, 2), (K.cg_SOURCE 1, 1), (K.cg_GROUP_STATE 1, 0)] : State).n (refKey (1 : Fin 2)) ≠ 0) ∧
    ((objs [(K.ck_REFCLK_STATE, 2), (K.cg_SOURCE 1, 1), (K.cg_GROUP_STATE 1, 0)] : State).n (refKey (1 : Fin 2)) ≠ 3) := by decide +kernel

/-- The hypotheses of ClockReferences, clause 2, are met. -/
theorem test_meets_ClockReferences_2 :
    ((objs [(K.ck_MTR_STATE, 1), (K.cg_SOURCE 0, 0), (K.cg_GROUP_STATE 0, 2)] : State).n (refKey (0 : Fin 2)) ≠ 0) ∧
    ((objs [(K.ck_MTR_STATE, 1), (K.cg_SOURCE 0, 0), (K.cg_GROUP_STATE 0, 2)] : State).n (refKey (0 : Fin 2)) ≠ 3) := by decide +kernel

/-- The hypotheses of ClockReferences, clause 3, are met. -/
theorem test_meets_ClockReferences_3 :
    ((600 : Nat) ≤ 600) ∧
    ((objs [(K.ck_MISMATCH_BLAME, 0), (K.ck_REFCLK_SSC, 0), (K.ck_REFCLK_STATE, 2)] : State).n K.ck_REFCLK_STATE = 2) ∧
    ((objs [(K.ck_MISMATCH_BLAME, 0), (K.ck_REFCLK_SSC, 0), (K.ck_REFCLK_STATE, 2)] : State).n K.ck_MTR_STATE ≠ 3) ∧
    (inWindow (objs [(K.ck_MISMATCH_BLAME, 0), (K.ck_REFCLK_SSC, 0), (K.ck_REFCLK_STATE, 2)] : State) (-1000000 : Int) = true) := by decide +kernel

/-- The hypotheses of ClockReferences, clause 4, are met. -/
theorem test_meets_ClockReferences_4 :
    ((0 : Nat) ≤ 600) ∧
    ((objs [(K.ck_MISMATCH_BLAME, 1), (K.ck_REFCLK_SSC, 0), (K.ck_REFCLK_STATE, 2)] : State).n K.ck_REFCLK_STATE = 2) ∧
    ((objs [(K.ck_MISMATCH_BLAME, 1), (K.ck_REFCLK_SSC, 0), (K.ck_REFCLK_STATE, 2)] : State).n K.ck_MTR_STATE ≠ 3) ∧
    (inWindow (objs [(K.ck_MISMATCH_BLAME, 1), (K.ck_REFCLK_SSC, 0), (K.ck_REFCLK_STATE, 2)] : State) (-1000001 : Int) = false) ∧
    ((objs [(K.ck_MISMATCH_BLAME, 1), (K.ck_REFCLK_SSC, 0), (K.ck_REFCLK_STATE, 2)] : State).clk.outside = 0) := by decide +kernel

/-- The hypotheses of ClockReferences, clause 5, are met. -/
theorem test_meets_ClockReferences_5 :
    ((0 : Nat) ≤ 600) ∧
    ((1 : Fin 2) = (if (clkW { outside := 1 } 0 [(K.ck_MISMATCH_BLAME, 0), (K.ck_MTR_STATE, 2), (K.ck_REFCLK_STATE, 2)] : State).g K.ck_MISMATCH_BLAME = 0 then 1 else 0)) ∧
    (refGood (clkW { outside := 1 } 0 [(K.ck_MISMATCH_BLAME, 0), (K.ck_MTR_STATE, 2), (K.ck_REFCLK_STATE, 2)] : State) 0 = true) ∧
    (refGood (clkW { outside := 1 } 0 [(K.ck_MISMATCH_BLAME, 0), (K.ck_MTR_STATE, 2), (K.ck_REFCLK_STATE, 2)] : State) 1 = true) ∧
    (1 ≤ (clkW { outside := 1 } 0 [(K.ck_MISMATCH_BLAME, 0), (K.ck_MTR_STATE, 2), (K.ck_REFCLK_STATE, 2)] : State).clk.outside) ∧
    (inWindow (clkW { outside := 1 } 0 [(K.ck_MISMATCH_BLAME, 0), (K.ck_MTR_STATE, 2), (K.ck_REFCLK_STATE, 2)] : State) (1000001 : Int) = false) := by decide +kernel

/-- The hypotheses of ClockReferences, clause 6, are met. -/
theorem test_meets_ClockReferences_6 :
    ((600 : Nat) ≤ 600) ∧
    ((clkW { refs := Vector.replicate 2 { within := 1 } } 5 [(K.ck_MISMATCH_BLAME, 0), (K.ck_MTR_STATE, 3)] : State).n (refKey (0 : Fin 2)) = 3) ∧
    (((clkW { refs := Vector.replicate 2 { within := 1 } } 5 [(K.ck_MISMATCH_BLAME, 0), (K.ck_MTR_STATE, 3)] : State).ref (0 : Fin 2)).within = 1) ∧
    (inWindow (clkW { refs := Vector.replicate 2 { within := 1 } } 5 [(K.ck_MISMATCH_BLAME, 0), (K.ck_MTR_STATE, 3)] : State) (1000000 : Int) = true) := by decide +kernel

/-- The hypotheses of ClockReferences, clause 7, are met. -/
theorem test_meets_ClockReferences_7 :
    (600 < (601 : Nat)) ∧
    ((objs [(K.ck_REFCLK_SSC, 0), (K.cg_SOURCE 2, 1)] : State).g K.ck_REFCLK_SSC = 0) := by decide +kernel

/-- The hypotheses of ClockReferences, clause 8, are met. -/
theorem test_meets_ClockReferences_8 :
    ((clkW {} 800000000 [(K.ck_SSC_DETECTED, 1)] : State).b K.ck_SSC_DETECTED = true) ∧
    ((clkW {} 800000000 [(K.ck_SSC_DETECTED, 1)] : State).clk.sscAt + 800000000 ≤ (clkW {} 800000000 [(K.ck_SSC_DETECTED, 1)] : State).now) := by decide +kernel

/-- The hypotheses of ClockReferences, clause 9, are met. -/
theorem test_meets_ClockReferences_9 :
    ((objs [(K.ck_REFCLK_STATE, 0)] : State).n (refKey (1 : Fin 2)) = 0) := by decide +kernel

/-- The hypotheses of ClockReferences, clause 10, are met. -/
theorem test_meets_ClockReferences_10 :
    ((clkW {} 80000 [(K.ck_REFCLK_STATE, 1), (K.bu_PHASE, 6)] : State).n (refKey (1 : Fin 2)) = 1) ∧
    (((clkW {} 80000 [(K.ck_REFCLK_STATE, 1), (K.bu_PHASE, 6)] : State).ref (1 : Fin 2)).qualAt + 80000 ≤ (clkW {} 80000 [(K.ck_REFCLK_STATE, 1), (K.bu_PHASE, 6)] : State).now) ∧
    ((clkW {} 80000 [(K.ck_REFCLK_STATE, 1), (K.bu_PHASE, 6)] : State).phase ≠ 1) ∧
    (Whole (clkW {} 80000 [(K.ck_REFCLK_STATE, 1), (K.bu_PHASE, 6)] : State) (refSrc (1 : Fin 2))) := by decide +kernel

/-- The hypotheses of ClockReferences, clause 11, are met. -/
theorem test_meets_ClockReferences_11 :
    ((clkW {} 80000 [(K.ck_MTR_STATE, 1), (K.bu_PHASE, 1), (K.cg_GROUP_STATE 2, 1)] : State).n (refKey (0 : Fin 2)) = 1) ∧
    (((clkW {} 80000 [(K.ck_MTR_STATE, 1), (K.bu_PHASE, 1), (K.cg_GROUP_STATE 2, 1)] : State).ref (0 : Fin 2)).qualAt + 80000 ≤ (clkW {} 80000 [(K.ck_MTR_STATE, 1), (K.bu_PHASE, 1), (K.cg_GROUP_STATE 2, 1)] : State).now) ∧
    ((clkW {} 80000 [(K.ck_MTR_STATE, 1), (K.bu_PHASE, 1), (K.cg_GROUP_STATE 2, 1)] : State).phase = 1) ∧
    (primary (2 : Fin 3) = (0 : Fin 2)) ∧
    (running (clkW {} 80000 [(K.ck_MTR_STATE, 1), (K.bu_PHASE, 1), (K.cg_GROUP_STATE 2, 1)] : State) (2 : Fin 3) = false) := by decide +kernel

/-- The hypotheses of ClockGroups, clause 1, are met. -/
theorem test_meets_ClockGroups_1 :
    ((clkW { grps := Vector.replicate 3 { stopAt := 4, bad := Src.MTR_LOST } } 516 [(K.cg_GROUP_STATE 2, 1), (K.bu_PHASE, 2), (K.ck_REFCLK_STATE, 2)] : State).n (K.cg_GROUP_STATE (2 : Fin 3)) = 1) ∧
    ((clkW { grps := Vector.replicate 3 { stopAt := 4, bad := Src.MTR_LOST } } 516 [(K.cg_GROUP_STATE 2, 1), (K.bu_PHASE, 2), (K.ck_REFCLK_STATE, 2)] : State).clk.dead = false) ∧
    (2 ≤ (clkW { grps := Vector.replicate 3 { stopAt := 4, bad := Src.MTR_LOST } } 516 [(K.cg_GROUP_STATE 2, 1), (K.bu_PHASE, 2), (K.ck_REFCLK_STATE, 2)] : State).phase) ∧
    (((clkW { grps := Vector.replicate 3 { stopAt := 4, bad := Src.MTR_LOST } } 516 [(K.cg_GROUP_STATE 2, 1), (K.bu_PHASE, 2), (K.ck_REFCLK_STATE, 2)] : State).grp (2 : Fin 3)).lost = false) ∧
    (((clkW { grps := Vector.replicate 3 { stopAt := 4, bad := Src.MTR_LOST } } 516 [(K.cg_GROUP_STATE 2, 1), (K.bu_PHASE, 2), (K.ck_REFCLK_STATE, 2)] : State).grp (2 : Fin 3)).bad = refSrc (0 : Fin 2)) ∧
    (canRestart (clkW { grps := Vector.replicate 3 { stopAt := 4, bad := Src.MTR_LOST } } 516 [(K.cg_GROUP_STATE 2, 1), (K.bu_PHASE, 2), (K.ck_REFCLK_STATE, 2)] : State) (2 : Fin 3) (other (0 : Fin 2)) = true) ∧
    ((clkW { grps := Vector.replicate 3 { stopAt := 4, bad := Src.MTR_LOST } } 516 [(K.cg_GROUP_STATE 2, 1), (K.bu_PHASE, 2), (K.ck_REFCLK_STATE, 2)] : State).g (K.cg_SWITCHES (2 : Fin 3)) < 4294967295) := by decide +kernel

/-- The hypotheses of ClockGroups, clause 2, are met. -/
theorem test_meets_ClockGroups_2 :
    ((clkW { grps := Vector.replicate 3 { stopAt := 4, bad := Src.REFCLK_LOST, lost := true, pll := some (1, 20) } } 33 [(K.cg_GROUP_STATE 1, 1), (K.bu_PHASE, 6), (K.ck_REFCLK_STATE, 2), (K.cg_SOURCE 1, 255)] : State).n (K.cg_GROUP_STATE (1 : Fin 3)) = 1) ∧
    ((clkW { grps := Vector.replicate 3 { stopAt := 4, bad := Src.REFCLK_LOST, lost := true, pll := some (1, 20) } } 33 [(K.cg_GROUP_STATE 1, 1), (K.bu_PHASE, 6), (K.ck_REFCLK_STATE, 2), (K.cg_SOURCE 1, 255)] : State).clk.dead = false) ∧
    (2 ≤ (clkW { grps := Vector.replicate 3 { stopAt := 4, bad := Src.REFCLK_LOST, lost := true, pll := some (1, 20) } } 33 [(K.cg_GROUP_STATE 1, 1), (K.bu_PHASE, 6), (K.ck_REFCLK_STATE, 2), (K.cg_SOURCE 1, 255)] : State).phase) ∧
    (((clkW { grps := Vector.replicate 3 { stopAt := 4, bad := Src.REFCLK_LOST, lost := true, pll := some (1, 20) } } 33 [(K.cg_GROUP_STATE 1, 1), (K.bu_PHASE, 6), (K.ck_REFCLK_STATE, 2), (K.cg_SOURCE 1, 255)] : State).grp (1 : Fin 3)).lost = true) ∧
    (canRestart (clkW { grps := Vector.replicate 3 { stopAt := 4, bad := Src.REFCLK_LOST, lost := true, pll := some (1, 20) } } 33 [(K.cg_GROUP_STATE 1, 1), (K.bu_PHASE, 6), (K.ck_REFCLK_STATE, 2), (K.cg_SOURCE 1, 255)] : State) (1 : Fin 3) (primary (1 : Fin 3)) = true) := by decide +kernel

/-- The hypotheses of ClockGroups, clause 3, are met. -/
theorem test_meets_ClockGroups_3 :
    ((clkW { grps := Vector.replicate 3 { stopAt := 4, bad := Src.MTR_LOST } } 20 [(K.cg_GROUP_STATE 0, 1), (K.bu_PHASE, 6), (K.ck_REFCLK_STATE, 2), (K.st_STATE 31, 3)] : State).n (K.cg_GROUP_STATE 0) = 1) ∧
    ((clkW { grps := Vector.replicate 3 { stopAt := 4, bad := Src.MTR_LOST } } 20 [(K.cg_GROUP_STATE 0, 1), (K.bu_PHASE, 6), (K.ck_REFCLK_STATE, 2), (K.st_STATE 31, 3)] : State).clk.dead = false) ∧
    (2 ≤ (clkW { grps := Vector.replicate 3 { stopAt := 4, bad := Src.MTR_LOST } } 20 [(K.cg_GROUP_STATE 0, 1), (K.bu_PHASE, 6), (K.ck_REFCLK_STATE, 2), (K.st_STATE 31, 3)] : State).phase) ∧
    (((clkW { grps := Vector.replicate 3 { stopAt := 4, bad := Src.MTR_LOST } } 20 [(K.cg_GROUP_STATE 0, 1), (K.bu_PHASE, 6), (K.ck_REFCLK_STATE, 2), (K.st_STATE 31, 3)] : State).grp 0).lost = false) ∧
    (((clkW { grps := Vector.replicate 3 { stopAt := 4, bad := Src.MTR_LOST } } 20 [(K.cg_GROUP_STATE 0, 1), (K.bu_PHASE, 6), (K.ck_REFCLK_STATE, 2), (K.st_STATE 31, 3)] : State).grp 0).bad = refSrc (0 : Fin 2)) ∧
    (canRestart (clkW { grps := Vector.replicate 3 { stopAt := 4, bad := Src.MTR_LOST } } 20 [(K.cg_GROUP_STATE 0, 1), (K.bu_PHASE, 6), (K.ck_REFCLK_STATE, 2), (K.st_STATE 31, 3)] : State) 0 (other (0 : Fin 2)) = true) ∧
    ((clkW { grps := Vector.replicate 3 { stopAt := 4, bad := Src.MTR_LOST } } 20 [(K.cg_GROUP_STATE 0, 1), (K.bu_PHASE, 6), (K.ck_REFCLK_STATE, 2), (K.st_STATE 31, 3)] : State).active (31 : SiteId) = true) := by decide +kernel

/-- The hypotheses of ClockGroups, clause 4, are met. -/
theorem test_meets_ClockGroups_4 :
    ((clkW { dead := true } 0 [(K.ck_MTR_STATE, 2), (K.bu_PHASE, 6)] : State).clk.dead = true) ∧
    ((refGood (clkW { dead := true } 0 [(K.ck_MTR_STATE, 2), (K.bu_PHASE, 6)] : State) 0 = true ∨ refGood (clkW { dead := true } 0 [(K.ck_MTR_STATE, 2), (K.bu_PHASE, 6)] : State) 1 = true)) ∧
    (1 ≤ (clkW { dead := true } 0 [(K.ck_MTR_STATE, 2), (K.bu_PHASE, 6)] : State).phase) := by decide +kernel

/-- The hypotheses of ClockGroups, clause 5, are met. -/
theorem test_meets_ClockGroups_5 :
    (domRuns (objs [(K.ck_MTR_STATE, 2), (K.cg_GROUP_STATE 2, 0)] : State) .mgmt = true) := by decide +kernel

/-- The hypotheses of ClockGroups, clause 6, are met. -/
theorem test_meets_ClockGroups_6 :
    (((clkW { grps := (Vector.replicate 3 {}).set 2 { target := some 1, stopAt := 1 } } 513 [(K.cg_GROUP_STATE 2, 2), (K.cx_CLK_CMD_BUSY, 1), (K.ck_REFCLK_STATE, 2)] : State).grp (2 : Fin 3)).target = some (1 : Fin 2).val) ∧
    ((clkW { grps := (Vector.replicate 3 {}).set 2 { target := some 1, stopAt := 1 } } 513 [(K.cg_GROUP_STATE 2, 2), (K.cx_CLK_CMD_BUSY, 1), (K.ck_REFCLK_STATE, 2)] : State).n (K.cg_GROUP_STATE (2 : Fin 3)) = 2) ∧
    (refGood (clkW { grps := (Vector.replicate 3 {}).set 2 { target := some 1, stopAt := 1 } } 513 [(K.cg_GROUP_STATE 2, 2), (K.cx_CLK_CMD_BUSY, 1), (K.ck_REFCLK_STATE, 2)] : State) (1 : Fin 2) = true) ∧
    (((clkW { grps := (Vector.replicate 3 {}).set 2 { target := some 1, stopAt := 1 } } 513 [(K.cg_GROUP_STATE 2, 2), (K.cx_CLK_CMD_BUSY, 1), (K.ck_REFCLK_STATE, 2)] : State).grp (2 : Fin 3)).stopAt + switchWait (2 : Fin 3) ≤ (clkW { grps := (Vector.replicate 3 {}).set 2 { target := some 1, stopAt := 1 } } 513 [(K.cg_GROUP_STATE 2, 2), (K.cx_CLK_CMD_BUSY, 1), (K.ck_REFCLK_STATE, 2)] : State).now) ∧
    ((clkW { grps := (Vector.replicate 3 {}).set 2 { target := some 1, stopAt := 1 } } 513 [(K.cg_GROUP_STATE 2, 2), (K.cx_CLK_CMD_BUSY, 1), (K.ck_REFCLK_STATE, 2)] : State).g (K.cg_SWITCHES (2 : Fin 3)) < 4294967295) := by decide +kernel

/-- The hypotheses of ClockGroups, clause 7, are met. -/
theorem test_meets_ClockGroups_7 :
    ((clkW {} 80000000 [(K.ck_AUTO_REVERT, 1), (K.cg_GROUP_STATE 1, 0), (K.cg_SOURCE 1, 0), (K.ck_REFCLK_STATE, 2)] : State).b K.ck_AUTO_REVERT = true) ∧
    (running (clkW {} 80000000 [(K.ck_AUTO_REVERT, 1), (K.cg_GROUP_STATE 1, 0), (K.cg_SOURCE 1, 0), (K.ck_REFCLK_STATE, 2)] : State) (1 : Fin 3) = true) ∧
    ((clkW {} 80000000 [(K.ck_AUTO_REVERT, 1), (K.cg_GROUP_STATE 1, 0), (K.cg_SOURCE 1, 0), (K.ck_REFCLK_STATE, 2)] : State).n (K.cg_SOURCE (1 : Fin 3)) ≠ (primary (1 : Fin 3)).val) ∧
    (refGood (clkW {} 80000000 [(K.ck_AUTO_REVERT, 1), (K.cg_GROUP_STATE 1, 0), (K.cg_SOURCE 1, 0), (K.ck_REFCLK_STATE, 2)] : State) (primary (1 : Fin 3)) = true) ∧
    (((clkW {} 80000000 [(K.ck_AUTO_REVERT, 1), (K.cg_GROUP_STATE 1, 0), (K.cg_SOURCE 1, 0), (K.ck_REFCLK_STATE, 2)] : State).ref (primary (1 : Fin 3))).goodAt + 80000000 ≤ (clkW {} 80000000 [(K.ck_AUTO_REVERT, 1), (K.cg_GROUP_STATE 1, 0), (K.cg_SOURCE 1, 0), (K.ck_REFCLK_STATE, 2)] : State).now) ∧
    (((clkW {} 80000000 [(K.ck_AUTO_REVERT, 1), (K.cg_GROUP_STATE 1, 0), (K.cg_SOURCE 1, 0), (K.ck_REFCLK_STATE, 2)] : State).grp (1 : Fin 3)).target = none) ∧
    (((1 : Fin 3) = 0 → timingBusy (clkW {} 80000000 [(K.ck_AUTO_REVERT, 1), (K.cg_GROUP_STATE 1, 0), (K.cg_SOURCE 1, 0), (K.ck_REFCLK_STATE, 2)] : State) = false)) := by decide +kernel

/-- The hypotheses of ClockGroups, clause 8, are met. -/
theorem test_meets_ClockGroups_8 :
    (running (clkW {} 0 [(K.ck_AUTO_REVERT, 0), (K.cg_GROUP_STATE 2, 0), (K.cg_SOURCE 2, 1), (K.ck_MTR_STATE, 2), (K.ck_STANDBY_MODE, 1)] : State) 2 = true) ∧
    ((clkW {} 0 [(K.ck_AUTO_REVERT, 0), (K.cg_GROUP_STATE 2, 0), (K.cg_SOURCE 2, 1), (K.ck_MTR_STATE, 2), (K.ck_STANDBY_MODE, 1)] : State).n (K.cg_SOURCE 2) ≠ 0) ∧
    (refGood (clkW {} 0 [(K.ck_AUTO_REVERT, 0), (K.cg_GROUP_STATE 2, 0), (K.cg_SOURCE 2, 1), (K.ck_MTR_STATE, 2), (K.ck_STANDBY_MODE, 1)] : State) 0 = true) ∧
    (((clkW {} 0 [(K.ck_AUTO_REVERT, 0), (K.cg_GROUP_STATE 2, 0), (K.cg_SOURCE 2, 1), (K.ck_MTR_STATE, 2), (K.ck_STANDBY_MODE, 1)] : State).grp 2).target = none) := by decide +kernel

/-- The hypotheses of ClockGroups, clause 9, are met. -/
theorem test_meets_ClockGroups_9 :
    ((clkW {} 800000 [(K.bu_PHASE, 1), (K.cg_GROUP_STATE 0, 1), (K.ck_REFCLK_STATE, 2), (K.ck_MTR_STATE, 0)] : State).phase = 1) ∧
    (running (clkW {} 800000 [(K.bu_PHASE, 1), (K.cg_GROUP_STATE 0, 1), (K.ck_REFCLK_STATE, 2), (K.ck_MTR_STATE, 0)] : State) (0 : Fin 3) = false) ∧
    (refGood (clkW {} 800000 [(K.bu_PHASE, 1), (K.cg_GROUP_STATE 0, 1), (K.ck_REFCLK_STATE, 2), (K.ck_MTR_STATE, 0)] : State) (other (primary (0 : Fin 3))) = true) ∧
    (refGood (clkW {} 800000 [(K.bu_PHASE, 1), (K.cg_GROUP_STATE 0, 1), (K.ck_REFCLK_STATE, 2), (K.ck_MTR_STATE, 0)] : State) (primary (0 : Fin 3)) = false) ∧
    (permitted (clkW {} 800000 [(K.bu_PHASE, 1), (K.cg_GROUP_STATE 0, 1), (K.ck_REFCLK_STATE, 2), (K.ck_MTR_STATE, 0)] : State) (0 : Fin 3) (other (primary (0 : Fin 3))) = true) ∧
    (((clkW {} 800000 [(K.bu_PHASE, 1), (K.cg_GROUP_STATE 0, 1), (K.ck_REFCLK_STATE, 2), (K.ck_MTR_STATE, 0)] : State).ref (other (primary (0 : Fin 3)))).goodAt + 800000 ≤ (clkW {} 800000 [(K.bu_PHASE, 1), (K.cg_GROUP_STATE 0, 1), (K.ck_REFCLK_STATE, 2), (K.ck_MTR_STATE, 0)] : State).now) := by decide +kernel

/-- The hypotheses of ClockGroups, clause 10, are met. -/
theorem test_meets_ClockGroups_10 :
    (timingOn (objs [(K.gt_GATE_EN, 2 ^ 7), (K.ch_WITHY_LOCKED 255, 1)] : State) = true) ∧
    (gateOn (objs [(K.gt_GATE_EN, 2 ^ 7), (K.ch_WITHY_LOCKED 255, 1)] : State) ((31 : OctId).val / 4) = true) ∧
    ((∀ i, (objs [(K.gt_GATE_EN, 2 ^ 7), (K.ch_WITHY_LOCKED 255, 1)] : State).active i = false)) := by decide +kernel

/-- The hypotheses of ClockGroups, clause 11, are met. -/
theorem test_meets_ClockGroups_11 :
    (timingOn (objs ([(K.gt_GATE_EN, 2 ^ 7)] ++ chanIn 3) : State) = true) ∧
    (gateOn (objs ([(K.gt_GATE_EN, 2 ^ 7)] ++ chanIn 3) : State) ((31 : OctId).val / 4) = true) ∧
    (((objs ([(K.gt_GATE_EN, 2 ^ 7)] ++ chanIn 3) : State).chans (31 : SiteId)).contains (255 : ChanId) = true) ∧
    ((255 : ChanId).val / 8 = (31 : OctId).val) ∧
    ((objs ([(K.gt_GATE_EN, 2 ^ 7)] ++ chanIn 3) : State).active (31 : SiteId) = true) := by decide +kernel

/-- The hypotheses of ClockGroups, clause 12, are met. -/
theorem test_meets_ClockGroups_12 :
    (timingOn (objs [(K.gt_GATE_EN, 2 ^ 7), (K.cg_GROUP_STATE 0, 0)] : State) = true) ∧
    ((objs [(K.gt_GATE_EN, 2 ^ 7), (K.cg_GROUP_STATE 0, 0)] : State).pwr.hold = false) ∧
    (gateOn (objs [(K.gt_GATE_EN, 2 ^ 7), (K.cg_GROUP_STATE 0, 0)] : State) ((31 : OctId).val / 4) = true) ∧
    (Whole (objs [(K.gt_GATE_EN, 2 ^ 7), (K.cg_GROUP_STATE 0, 0)] : State) (Src.WITHY_UNLOCK (31 : OctId))) := by decide +kernel

/-- The hypotheses of ClockGroups, clause 13, are met. -/
theorem test_meets_ClockGroups_13 :
    (timingOn (objs [(K.gt_GATE_EN, 2 ^ 33), (K.cg_GROUP_STATE 0, 0)] : State) = true) ∧
    ((objs [(K.gt_GATE_EN, 2 ^ 33), (K.cg_GROUP_STATE 0, 0)] : State).pwr.hold = false) ∧
    (gateOn (objs [(K.gt_GATE_EN, 2 ^ 33), (K.cg_GROUP_STATE 0, 0)] : State) (if (9 : TmuId).val < 8 then 8 + (9 : TmuId).val else 24 + (9 : TmuId).val) = true) ∧
    (Whole (objs [(K.gt_GATE_EN, 2 ^ 33), (K.cg_GROUP_STATE 0, 0)] : State) (Src.TMU_UNLOCK (9 : TmuId))) := by decide +kernel

/-- The hypotheses of DutClocksAndRidge, clause 1, are met. -/
theorem test_meets_DutClocksAndRidge_1 :
    ((up0 : State).clk.dutWait.contains (7 : Fin 8).val = false) := by decide +kernel

/-- The hypotheses of DutClocksAndRidge, clause 2, are met. -/
theorem test_meets_DutClocksAndRidge_2 :
    ((clkW { dutWait := [7] } 0 [(K.gt_GATE_EN, 2 ^ 31), (K.cg_GROUP_STATE 0, 0), (K.dk_DUTCLK_FREQ 7, 100000000)] : State).clk.dutWait.contains (7 : Fin 8).val = true) := by decide +kernel

/-- The hypotheses of DutClocksAndRidge, clause 3, are met. -/
theorem test_meets_DutClocksAndRidge_3 :
    (domRuns (clkW {} 13 [] : State) .mgmt = true) := by decide +kernel

/-- The hypotheses of DutClocksAndRidge, clause 4, are met. -/
theorem test_meets_DutClocksAndRidge_4 :
    (domRuns (clkW { gen := some 8 } 3 [] : State) .mgmt = true) := by decide +kernel

/-- The hypotheses of DutClocksAndRidge, clause 5, are met. -/
theorem test_meets_DutClocksAndRidge_5 :
    (timingOn (clkW { gen := some 8 } 8 [(K.rd_RIDGE_PERIOD, 80), (K.rd_RIDGE_MODE, 1)] : State) = true) ∧
    ((clkW { gen := some 8 } 8 [(K.rd_RIDGE_PERIOD, 80), (K.rd_RIDGE_MODE, 1)] : State).clk.gen = some (8 : Nat)) ∧
    ((8 : Nat) ≤ (clkW { gen := some 8 } 8 [(K.rd_RIDGE_PERIOD, 80), (K.rd_RIDGE_MODE, 1)] : State).now) := by decide +kernel

/-- The hypotheses of DutClocksAndRidge, clause 6, are met. -/
theorem test_meets_DutClocksAndRidge_6 :
    (domRuns (objs [(K.tmo_OWNER 8, 255)] : State) .mgmt = true) ∧
    (anyActive (objs [(K.tmo_OWNER 8, 255)] : State) = false) ∧
    ((objs [(K.tmo_OWNER 8, 255)] : State).n (K.tmo_OWNER 8) = 0xFF) := by decide +kernel

/-- The hypotheses of DutClocksAndRidge, clause 7, are met. -/
theorem test_meets_DutClocksAndRidge_7 :
    (domRuns (objs [(K.tmo_OWNER 8, 31)] : State) .mgmt = true) ∧
    ((anyActive (objs [(K.tmo_OWNER 8, 31)] : State) = true ∨ (objs [(K.tmo_OWNER 8, 31)] : State).n (K.tmo_OWNER 8) ≠ 0xFF)) := by decide +kernel

/-- The hypotheses of DutClocksAndRidge, clause 8, are met. -/
theorem test_meets_DutClocksAndRidge_8 :
    (timingOn (clkW { ridgeCal := true } 0 [(K.rd_RIDGE_CAL_N, 1000), (K.cx_CLK_CMD_BUSY, 1), (K.tt_STATE 8, 2)] : State) = true) ∧
    ((clkW { ridgeCal := true } 0 [(K.rd_RIDGE_CAL_N, 1000), (K.cx_CLK_CMD_BUSY, 1), (K.tt_STATE 8, 2)] : State).clk.ridgeCal = true) ∧
    ((clkW { ridgeCal := true } 0 [(K.rd_RIDGE_CAL_N, 1000), (K.cx_CLK_CMD_BUSY, 1), (K.tt_STATE 8, 2)] : State).jobs (fun j => j == .ridge) = false) ∧
    ((clkW { ridgeCal := true } 0 [(K.rd_RIDGE_CAL_N, 1000), (K.cx_CLK_CMD_BUSY, 1), (K.tt_STATE 8, 2)] : State).tst 8 ≠ TS.waitCal) ∧
    (((true : Bool) = true ∧ (999 : Nat) < (clkW { ridgeCal := true } 0 [(K.rd_RIDGE_CAL_N, 1000), (K.cx_CLK_CMD_BUSY, 1), (K.tt_STATE 8, 2)] : State).n K.rd_RIDGE_CAL_N ∨ (clkW { ridgeCal := true } 0 [(K.rd_RIDGE_CAL_N, 1000), (K.cx_CLK_CMD_BUSY, 1), (K.tt_STATE 8, 2)] : State).n K.rd_RIDGE_CAL_N ≤ (999 : Nat) ∧ 5000 < (5000 : Int) ∨ (clkW { ridgeCal := true } 0 [(K.rd_RIDGE_CAL_N, 1000), (K.cx_CLK_CMD_BUSY, 1), (K.tt_STATE 8, 2)] : State).tmuBusy 8 = false)) := by decide +kernel

/-- The hypotheses of DutClocksAndRidge, clause 9, are met. -/
theorem test_meets_DutClocksAndRidge_9 :
    (timingOn (clkW { ridgeCal := true } 0 [(K.rd_RIDGE_CAL_N, 1000), (K.cx_CLK_CMD_BUSY, 1), (K.tt_STATE 8, 2)] : State) = true) ∧
    ((clkW { ridgeCal := true } 0 [(K.rd_RIDGE_CAL_N, 1000), (K.cx_CLK_CMD_BUSY, 1), (K.tt_STATE 8, 2)] : State).clk.ridgeCal = true) ∧
    ((clkW { ridgeCal := true } 0 [(K.rd_RIDGE_CAL_N, 1000), (K.cx_CLK_CMD_BUSY, 1), (K.tt_STATE 8, 2)] : State).tmuBusy 8 = true) ∧
    ((999 : Nat) < (clkW { ridgeCal := true } 0 [(K.rd_RIDGE_CAL_N, 1000), (K.cx_CLK_CMD_BUSY, 1), (K.tt_STATE 8, 2)] : State).n K.rd_RIDGE_CAL_N) := by decide +kernel

/-- The hypotheses of DutClocksAndRidge, clause 10, are met. -/
theorem test_meets_DutClocksAndRidge_10 :
    (timingOn (clkW { ridgeCal := true } 0 [(K.rd_RIDGE_CAL_N, 1000), (K.cx_CLK_CMD_BUSY, 1), (K.tt_STATE 8, 2)] : State) = true) ∧
    ((clkW { ridgeCal := true } 0 [(K.rd_RIDGE_CAL_N, 1000), (K.cx_CLK_CMD_BUSY, 1), (K.tt_STATE 8, 2)] : State).clk.ridgeCal = true) ∧
    ((clkW { ridgeCal := true } 0 [(K.rd_RIDGE_CAL_N, 1000), (K.cx_CLK_CMD_BUSY, 1), (K.tt_STATE 8, 2)] : State).jobs (fun j => j == .ridge) = false) ∧
    ((clkW { ridgeCal := true } 0 [(K.rd_RIDGE_CAL_N, 1000), (K.cx_CLK_CMD_BUSY, 1), (K.tt_STATE 8, 2)] : State).tst 8 ≠ TS.waitCal) ∧
    ((clkW { ridgeCal := true } 0 [(K.rd_RIDGE_CAL_N, 1000), (K.cx_CLK_CMD_BUSY, 1), (K.tt_STATE 8, 2)] : State).tmuBusy 8 = true) ∧
    ((clkW { ridgeCal := true } 0 [(K.rd_RIDGE_CAL_N, 1000), (K.cx_CLK_CMD_BUSY, 1), (K.tt_STATE 8, 2)] : State).n K.rd_RIDGE_CAL_N ≤ (1000 : Nat)) ∧
    ((5000 : Int) ≤ 5000) ∧
    (openKeys (clkW { ridgeCal := true } 0 [(K.rd_RIDGE_CAL_N, 1000), (K.cx_CLK_CMD_BUSY, 1), (K.tt_STATE 8, 2)] : State) [K.rd_RIDGE_PHASE, K.rd_RIDGE_EPS, K.rd_SKEW_TRIM, K.rd_RIDGE_SDEV, K.rd_RIDGE_CAL_TIME, K.rd_RIDGE_CAL_TEMP] = true) ∧
    ((0 : Int) = round125 (((1249999 : Int) - (clkW { ridgeCal := true } 0 [(K.rd_RIDGE_CAL_N, 1000), (K.cx_CLK_CMD_BUSY, 1), (K.tt_STATE 8, 2)] : State).g K.rd_RIDGE_PATH) % 1250000) % 1250000) := by decide +kernel

/-- The hypotheses of DutClocksAndRidge, clause 11, are met. -/
theorem test_meets_DutClocksAndRidge_11 :
    (domRuns ((fun (s : State) => { s with dict := { s.dict with outs := [{ st := 2, staged := [(K.rd_RIDGE_PHASE, .num 625)], job := some .ridge }] } }) (clkW { ridgeCal := true } 0 [(K.cx_CLK_CMD_BUSY, 1), (K.tt_STATE 8, 2)]) : State) .mgmt = true) ∧
    (timingOn ((fun (s : State) => { s with dict := { s.dict with outs := [{ st := 2, staged := [(K.rd_RIDGE_PHASE, .num 625)], job := some .ridge }] } }) (clkW { ridgeCal := true } 0 [(K.cx_CLK_CMD_BUSY, 1), (K.tt_STATE 8, 2)]) : State) = true) ∧
    (outAt ((fun (s : State) => { s with dict := { s.dict with outs := [{ st := 2, staged := [(K.rd_RIDGE_PHASE, .num 625)], job := some .ridge }] } }) (clkW { ridgeCal := true } 0 [(K.cx_CLK_CMD_BUSY, 1), (K.tt_STATE 8, 2)]) : State) (0 : Nat) = some ({ st := 2, staged := [(K.rd_RIDGE_PHASE, .num 625)], job := some .ridge } : Txn)) ∧
    (OnlyOut (0 : Nat) ({ st := 2, staged := [(K.rd_RIDGE_PHASE, .num 625)], job := some .ridge } : Txn) ((fun (s : State) => { s with dict := { s.dict with outs := [{ st := 2, staged := [(K.rd_RIDGE_PHASE, .num 625)], job := some .ridge }] } }) (clkW { ridgeCal := true } 0 [(K.cx_CLK_CMD_BUSY, 1), (K.tt_STATE 8, 2)]) : State)) ∧
    (({ st := 2, staged := [(K.rd_RIDGE_PHASE, .num 625)], job := some .ridge } : Txn).job = some .ridge) ∧
    (({ st := 2, staged := [(K.rd_RIDGE_PHASE, .num 625)], job := some .ridge } : Txn).kind = 0) ∧
    (({ st := 2, staged := [(K.rd_RIDGE_PHASE, .num 625)], job := some .ridge } : Txn).due ((fun (s : State) => { s with dict := { s.dict with outs := [{ st := 2, staged := [(K.rd_RIDGE_PHASE, .num 625)], job := some .ridge }] } }) (clkW { ridgeCal := true } 0 [(K.cx_CLK_CMD_BUSY, 1), (K.tt_STATE 8, 2)]) : State) = true) ∧
    (recheck (ctxOf ((fun (s : State) => { s with dict := { s.dict with outs := [{ st := 2, staged := [(K.rd_RIDGE_PHASE, .num 625)], job := some .ridge }] } }) (clkW { ridgeCal := true } 0 [(K.cx_CLK_CMD_BUSY, 1), (K.tt_STATE 8, 2)]) : State).fresh ((fun (s : State) => { s with dict := { s.dict with outs := [{ st := 2, staged := [(K.rd_RIDGE_PHASE, .num 625)], job := some .ridge }] } }) (clkW { ridgeCal := true } 0 [(K.cx_CLK_CMD_BUSY, 1), (K.tt_STATE 8, 2)]) : State).fresh ({ st := 2, staged := [(K.rd_RIDGE_PHASE, .num 625)], job := some .ridge } : Txn).values 0 0) = none) ∧
    ((∀ e ∈ ({ st := 2, staged := [(K.rd_RIDGE_PHASE, .num 625)], job := some .ridge } : Txn).values, e.1 ∈ [K.rd_RIDGE_PHASE, K.rd_RIDGE_EPS, K.rd_SKEW_TRIM, K.rd_RIDGE_SDEV, K.rd_RIDGE_CAL_TIME, K.rd_RIDGE_CAL_TEMP])) := by decide +kernel

/-- The hypotheses of DutClocksAndRidge, clause 12, are met. -/
theorem test_meets_DutClocksAndRidge_12 :
    ((5000 : Nat) ≤ 1000000) := by decide +kernel

/-- The hypotheses of HostQueues, clause 1, are met. -/
theorem test_meets_HostQueues_1 :
    (domRuns (hostW [] 0 { qcfg := { num := 5, sizes := 0xFFFF0001, irq := 0x80000000 } } [] : State) .pcie = true) ∧
    (barOn (0 : FnId) (hostW [] 0 { qcfg := { num := 5, sizes := 0xFFFF0001, irq := 0x80000000 } } [] : State) = true) ∧
    (createCheck (0 : FnId) (hostW [] 0 { qcfg := { num := 5, sizes := 0xFFFF0001, irq := 0x80000000 } } [] : State) = Status.OK) := by decide +kernel

/-- The hypotheses of HostQueues, clause 2, are met. -/
theorem test_meets_HostQueues_2 :
    (domRuns (hostW [(5, queueX none)] 0 { qcfg := { num := 5, sizes := 0xFFFF0001 } } [] : State) .pcie = true) ∧
    (barOn (0 : FnId) (hostW [(5, queueX none)] 0 { qcfg := { num := 5, sizes := 0xFFFF0001 } } [] : State) = true) ∧
    (createCheck (0 : FnId) (hostW [(5, queueX none)] 0 { qcfg := { num := 5, sizes := 0xFFFF0001 } } [] : State) ≠ Status.OK) := by decide +kernel

/-- The hypotheses of HostQueues, clause 3, are met. -/
theorem test_meets_HostQueues_3 :
    (domRuns (hostW [(5, queueX none)] 0 { qcfg := { num := 5 } } [] : State) .pcie = true) ∧
    (barOn (0 : FnId) (hostW [(5, queueX none)] 0 { qcfg := { num := 5 } } [] : State) = true) ∧
    (ownsQueue (0 : FnId) ((hostW [(5, queueX none)] 0 { qcfg := { num := 5 } } [] : State).fnr (0 : FnId)).qcfg.num.toNat (hostW [(5, queueX none)] 0 { qcfg := { num := 5 } } [] : State) = true) ∧
    ((hostW [(5, queueX none)] 0 { qcfg := { num := 5 } } [] : State).queue? ((hostW [(5, queueX none)] 0 { qcfg := { num := 5 } } [] : State).fnr (0 : FnId)).qcfg.num.toNat = some (queueX none : Queue)) ∧
    ((queueX none : Queue).bound = none) := by decide +kernel

/-- The hypotheses of HostQueues, clause 4, are met. -/
theorem test_meets_HostQueues_4 :
    (domRuns (hostW [(5, queueX none)] 32 { qcfg := { num := 5 } } [(K.pcie_NUM_VFS, 32)] |> (fun (s : State) => { s with host := { s.host with vfEnable := true } }) : State) .pcie = true) ∧
    (barOn (32 : FnId) (hostW [(5, queueX none)] 32 { qcfg := { num := 5 } } [(K.pcie_NUM_VFS, 32)] |> (fun (s : State) => { s with host := { s.host with vfEnable := true } }) : State) = true) ∧
    (ownsQueue (32 : FnId) ((hostW [(5, queueX none)] 32 { qcfg := { num := 5 } } [(K.pcie_NUM_VFS, 32)] |> (fun (s : State) => { s with host := { s.host with vfEnable := true } }) : State).fnr (32 : FnId)).qcfg.num.toNat (hostW [(5, queueX none)] 32 { qcfg := { num := 5 } } [(K.pcie_NUM_VFS, 32)] |> (fun (s : State) => { s with host := { s.host with vfEnable := true } }) : State) = false) := by decide +kernel

/-- The hypotheses of HostQueues, clause 5, are met. -/
theorem test_meets_HostQueues_5 :
    (domRuns (hostW [(5, queueX none)] 32 { qcfg := { num := 5 } } [(K.pcie_NUM_VFS, 32)] |> (fun (s : State) => { s with host := { s.host with vfEnable := true } }) : State) .pcie = true) ∧
    (barOn (32 : FnId) (hostW [(5, queueX none)] 32 { qcfg := { num := 5 } } [(K.pcie_NUM_VFS, 32)] |> (fun (s : State) => { s with host := { s.host with vfEnable := true } }) : State) = true) ∧
    (ownsQueue (32 : FnId) ((hostW [(5, queueX none)] 32 { qcfg := { num := 5 } } [(K.pcie_NUM_VFS, 32)] |> (fun (s : State) => { s with host := { s.host with vfEnable := true } }) : State).fnr (32 : FnId)).qcfg.num.toNat (hostW [(5, queueX none)] 32 { qcfg := { num := 5 } } [(K.pcie_NUM_VFS, 32)] |> (fun (s : State) => { s with host := { s.host with vfEnable := true } }) : State) = false) := by decide +kernel

/-- The hypotheses of HostQueues, clause 6, are met. -/
theorem test_meets_HostQueues_6 :
    (domRuns (hostW [(5, { st := .deleting })] 0 {} [] : State) .pcie = true) ∧
    ((hostW [(5, { st := .deleting })] 0 {} [] : State).queue? (5 : QueueId) = some ({ st := .deleting } : Queue)) ∧
    (({ st := .deleting } : Queue).st = .deleting) ∧
    (flightsOf (hostW [(5, { st := .deleting })] 0 {} [] : State) (5 : QueueId) = []) := by decide +kernel

/-- The hypotheses of HostQueues, clause 7, are met. -/
theorem test_meets_HostQueues_7 :
    (domRuns (hostW [(5, { st := .error, sqBase := 4096, sqHead := 1 })] 0 { qcfg := { num := 5 } } [] : State) .pcie = true) ∧
    (barOn (0 : FnId) (hostW [(5, { st := .error, sqBase := 4096, sqHead := 1 })] 0 { qcfg := { num := 5 } } [] : State) = true) ∧
    (ownsQueue (0 : FnId) ((hostW [(5, { st := .error, sqBase := 4096, sqHead := 1 })] 0 { qcfg := { num := 5 } } [] : State).fnr (0 : FnId)).qcfg.num.toNat (hostW [(5, { st := .error, sqBase := 4096, sqHead := 1 })] 0 { qcfg := { num := 5 } } [] : State) = true) ∧
    ((hostW [(5, { st := .error, sqBase := 4096, sqHead := 1 })] 0 { qcfg := { num := 5 } } [] : State).queue? ((hostW [(5, { st := .error, sqBase := 4096, sqHead := 1 })] 0 { qcfg := { num := 5 } } [] : State).fnr (0 : FnId)).qcfg.num.toNat = some ({ st := .error, sqBase := 4096, sqHead := 1 } : Queue)) := by decide +kernel

/-- The hypotheses of HostQueues, clause 8, are met. -/
theorem test_meets_HostQueues_8 :
    (domRuns (hostW [(5, queueX none)] 0 {} [] : State) .pcie = true) ∧
    (barOn (0 : FnId) (hostW [(5, queueX none)] 0 {} [] : State) = true) ∧
    (ownsQueue (0 : FnId) (5 : QueueId) (hostW [(5, queueX none)] 0 {} [] : State) = true) ∧
    ((hostW [(5, queueX none)] 0 {} [] : State).queue? (5 : QueueId) = some (queueX none : Queue)) ∧
    ((queueX none : Queue).st = .active) := by decide +kernel

/-- The hypotheses of HostQueues, clause 9, are met. -/
theorem test_meets_HostQueues_9 :
    (domRuns (hostW [(5, { cqSize := 4, cqHead := 2, cqTail := 0 })] 0 {} [] : State) .pcie = true) ∧
    (barOn (0 : FnId) (hostW [(5, { cqSize := 4, cqHead := 2, cqTail := 0 })] 0 {} [] : State) = true) ∧
    (ownsQueue (0 : FnId) (5 : QueueId) (hostW [(5, { cqSize := 4, cqHead := 2, cqTail := 0 })] 0 {} [] : State) = true) ∧
    ((hostW [(5, { cqSize := 4, cqHead := 2, cqTail := 0 })] 0 {} [] : State).queue? (5 : QueueId) = some ({ cqSize := 4, cqHead := 2, cqTail := 0 } : Queue)) ∧
    (({ cqSize := 4, cqHead := 2, cqTail := 0 } : Queue).st = .active) := by decide +kernel

/-- The hypotheses of HostQueues, clause 10, are met. -/
theorem test_meets_HostQueues_10 :
    (domRuns (hostW [] 0 {} [] : State) .pcie = true) ∧
    (barOn (0 : FnId) (hostW [] 0 {} [] : State) = true) ∧
    (((hostW [] 0 {} [] : State).queue? (8191 : QueueId)).all (fun z => !ownsQueue (0 : FnId) (8191 : QueueId) (hostW [] 0 {} [] : State) || z.st != .active) = true) := by decide +kernel

/-- The hypotheses of HostQueues, clause 11, are met. -/
theorem test_meets_HostQueues_11 :
    (domRuns (hostW [(8191, { st := .deleting })] 0 {} [] : State) .pcie = true) ∧
    (barOn (0 : FnId) (hostW [(8191, { st := .deleting })] 0 {} [] : State) = true) ∧
    (((hostW [(8191, { st := .deleting })] 0 {} [] : State).queue? (8191 : QueueId)).all (fun z => !ownsQueue (0 : FnId) (8191 : QueueId) (hostW [(8191, { st := .deleting })] 0 {} [] : State) || z.st != .active) = true) := by decide +kernel

/-- The hypotheses of HostFlow, clause 1, are met. -/
theorem test_meets_HostFlow_1 :
    (domRuns (hostW [(5, { cqSize := 4, sqTail := 1, fetch := 1 })] 0 {} [] : State) .pcie = true) ∧
    ((hostW [(5, { cqSize := 4, sqTail := 1, fetch := 1 })] 0 {} [] : State).queue? (5 : QueueId) = some ({ cqSize := 4, sqTail := 1, fetch := 1 } : Queue)) ∧
    (EntryGoes (5 : QueueId) ({ cqSize := 4, sqTail := 1, fetch := 1 } : Queue) (0x46 : BitVec 512) ([] : List (BitVec 128)) (hostW [(5, { cqSize := 4, sqTail := 1, fetch := 1 })] 0 {} [] : State)) := by decide +kernel

/-- The hypotheses of HostFlow, clause 2, are met. -/
theorem test_meets_HostFlow_2 :
    (domRuns (hostW [(5, { cqSize := 4, sqTail := 1, fetch := 1 })] 0 {} [] : State) .pcie = true) ∧
    ((hostW [(5, { cqSize := 4, sqTail := 1, fetch := 1 })] 0 {} [] : State).queue? (5 : QueueId) = some ({ cqSize := 4, sqTail := 1, fetch := 1 } : Queue)) ∧
    (({ cqSize := 4, sqTail := 1, fetch := 1 } : Queue).entry = none) ∧
    (0 < ({ cqSize := 4, sqTail := 1, fetch := 1 } : Queue).fetch) ∧
    (((SqE.sgl (0x246 : BitVec 512) = true ∧ ([0] : List (BitVec 128)) ≠ []) ∨ (SqE.fence (0x246 : BitVec 512) = true ∧ flightsOf (hostW [(5, { cqSize := 4, sqTail := 1, fetch := 1 })] 0 {} [] : State) (5 : QueueId) ≠ []))) := by decide +kernel

/-- The hypotheses of HostFlow, clause 3, are met. -/
theorem test_meets_HostFlow_3 :
    (domRuns ((fun (s : State) => s.setFn 0 { msixEnable := true, msix := [(3, 0)] }) (flightW [(5, { cqTail := 1, cqHead := 1, irq := 0x80000100 })] [{ tag := tag0, opcode := 0x41, head := 1 }] [⟨tag0, 0, 9⟩]) : State) .pcie = true) ∧
    (((fun (s : State) => s.setFn 0 { msixEnable := true, msix := [(3, 0)] }) (flightW [(5, { cqTail := 1, cqHead := 1, irq := 0x80000100 })] [{ tag := tag0, opcode := 0x41, head := 1 }] [⟨tag0, 0, 9⟩]) : State).host.compl.find? (fun z => z.tag == (tag0 : Tag)) = some (⟨tag0, 0, 9⟩ : Compl)) ∧
    (((fun (s : State) => s.setFn 0 { msixEnable := true, msix := [(3, 0)] }) (flightW [(5, { cqTail := 1, cqHead := 1, irq := 0x80000100 })] [{ tag := tag0, opcode := 0x41, head := 1 }] [⟨tag0, 0, 9⟩]) : State).host.flights.find? (fun z => z.tag == (tag0 : Tag)) = some ({ tag := tag0, opcode := 0x41, head := 1 } : Flight)) ∧
    (({ tag := tag0, opcode := 0x41, head := 1 } : Flight).dropped = false) ∧
    (((fun (s : State) => s.setFn 0 { msixEnable := true, msix := [(3, 0)] }) (flightW [(5, { cqTail := 1, cqHead := 1, irq := 0x80000100 })] [{ tag := tag0, opcode := 0x41, head := 1 }] [⟨tag0, 0, 9⟩]) : State).queue? (tag0 : Tag).queue = some ({ cqTail := 1, cqHead := 1, irq := 0x80000100 } : Queue)) ∧
    (({ cqTail := 1, cqHead := 1, irq := 0x80000100 } : Queue).st = .active) ∧
    (cqRoom ({ cqTail := 1, cqHead := 1, irq := 0x80000100 } : Queue) = true) ∧
    (((fun (s : State) => s.setFn 0 { msixEnable := true, msix := [(3, 0)] }) (flightW [(5, { cqTail := 1, cqHead := 1, irq := 0x80000100 })] [{ tag := tag0, opcode := 0x41, head := 1 }] [⟨tag0, 0, 9⟩]) : State).host.waiting.all (fun w => w.1 != (tag0 : Tag)) = true) := by decide +kernel

/-- The hypotheses of HostFlow, clause 4, are met. -/
theorem test_meets_HostFlow_4 :
    (domRuns ((fun (s : State) => { s with now := 800 }) (hostW [(5, { irq := 0x80010000, unsig := 1 })] 0 { msixEnable := true } []) : State) .pcie = true) ∧
    (((fun (s : State) => { s with now := 800 }) (hostW [(5, { irq := 0x80010000, unsig := 1 })] 0 { msixEnable := true } []) : State).queue? (5 : QueueId) = some ({ irq := 0x80010000, unsig := 1 } : Queue)) ∧
    (({ irq := 0x80010000, unsig := 1 } : Queue).ien = true) ∧
    (({ irq := 0x80010000, unsig := 1 } : Queue).itime ≠ 0) ∧
    (0 < ({ irq := 0x80010000, unsig := 1 } : Queue).unsig) ∧
    (({ irq := 0x80010000, unsig := 1 } : Queue).unsigAt + 800 * ({ irq := 0x80010000, unsig := 1 } : Queue).itime ≤ ((fun (s : State) => { s with now := 800 }) (hostW [(5, { irq := 0x80010000, unsig := 1 })] 0 { msixEnable := true } []) : State).now) ∧
    (({ irq := 0x80010000, unsig := 1 } : Queue).iv < vectors ({ irq := 0x80010000, unsig := 1 } : Queue).fn) ∧
    ((((fun (s : State) => { s with now := 800 }) (hostW [(5, { irq := 0x80010000, unsig := 1 })] 0 { msixEnable := true } []) : State).fnr ({ irq := 0x80010000, unsig := 1 } : Queue).fn).msixEnable = true) := by decide +kernel

/-- The hypotheses of HostFlow, clause 5, are met. -/
theorem test_meets_HostFlow_5 :
    (domRuns ((linkW [(5, { typ := .event })] 0 {} []).setSite 0 { evFifo := [1, 2] } : State) .pcie = true) ∧
    ((((linkW [(5, { typ := .event })] 0 {} []).setSite 0 { evFifo := [1, 2] } : State).site (0 : SiteId)).evFifo = (1 : BitVec 128) :: ([2] : List (BitVec 128))) ∧
    (((linkW [(5, { typ := .event })] 0 {} []).setSite 0 { evFifo := [1, 2] } : State).siteQueue (0 : SiteId) .event = some (5 : QueueId).val) ∧
    (((linkW [(5, { typ := .event })] 0 {} []).setSite 0 { evFifo := [1, 2] } : State).queue? (5 : QueueId) = some ({ typ := .event } : Queue)) ∧
    (cqRoom ({ typ := .event } : Queue) = true) ∧
    (((linkW [(5, { typ := .event })] 0 {} []).setSite 0 { evFifo := [1, 2] } : State).pwr.link = true) := by decide +kernel

/-- The hypotheses of HostFlow, clause 6, are met. -/
theorem test_meets_HostFlow_6 :
    (domRuns (flightW [(5, {})] [{ tag := tag0, opcode := 0x50, head := 1 }] [] : State) .pcie = true) ∧
    ((.csWrite 3 [0, 1] : DmaCut) ≠ .cqWrite) ∧
    ((flightW [(5, {})] [{ tag := tag0, opcode := 0x50, head := 1 }] [] : State).host.flights.any (fun x => x.tag == (tag0 : Tag)) = true) ∧
    ((flightW [(5, {})] [{ tag := tag0, opcode := 0x50, head := 1 }] [] : State).ended (tag0 : Tag) = false) := by decide +kernel

/-- The hypotheses of HostFlow, clause 7, are met. -/
theorem test_meets_HostFlow_7 :
    (domRuns (flightW [(5, {})] [{ tag := tag0, opcode := 0x42, head := 1 }] [] : State) .pcie = true) ∧
    ((flightW [(5, {})] [{ tag := tag0, opcode := 0x42, head := 1 }] [] : State).host.flights.any (fun x => x.tag == (tag0 : Tag)) = true) ∧
    ((flightW [(5, {})] [{ tag := tag0, opcode := 0x42, head := 1 }] [] : State).ended (tag0 : Tag) = false) := by decide +kernel

/-- The hypotheses of HostFlow, clause 8, are met. -/
theorem test_meets_HostFlow_8 :
    (domRuns (flightW [(5, {})] [{ tag := tag0, opcode := 0x41, head := 1 }] [⟨tag0, 0, 0⟩] : State) .pcie = true) ∧
    ((flightW [(5, {})] [{ tag := tag0, opcode := 0x41, head := 1 }] [⟨tag0, 0, 0⟩] : State).queue? (tag0 : Tag).queue = some ({} : Queue)) := by decide +kernel

/-- The hypotheses of HostLink, clause 1, are met. -/
theorem test_meets_HostLink_1 :
    (domRuns (hostW [] 0 { cmds := 2 ^ 63 + 5 } [] : State) .pcie = true) ∧
    (barOn (0 : FnId) (hostW [] 0 { cmds := 2 ^ 63 + 5 } [] : State) = true) ∧
    (reg64s.find? (fun z => z.1 == (16 : Nat)) = some ((16 : Nat), (.fnCmds : Reg64))) := by decide +kernel

/-- The hypotheses of HostLink, clause 2, are met. -/
theorem test_meets_HostLink_2 :
    (domRuns (hostW [] 0 { latch := [(4, 0x8000000000000005)] } [] : State) .pcie = true) ∧
    (barOn (0 : FnId) (hostW [] 0 { latch := [(4, 0x8000000000000005)] } [] : State) = true) ∧
    (reg64s.find? (fun z => z.1 == (0x1010 : Nat)) = some ((0x1010 : Nat), (.qCqBase : Reg64))) ∧
    (kget? ((hostW [] 0 { latch := [(4, 0x8000000000000005)] } [] : State).fnr (0 : FnId)).latch (reg64Key (.qCqBase : Reg64)) = some (0x8000000000000005 : BitVec 64)) := by decide +kernel

/-- The hypotheses of HostLink, clause 3, are met. -/
theorem test_meets_HostLink_3 :
    (domRuns (hostW [] 0 { qcfg := { sqBase := 0x8000000000000000 } } [] : State) .pcie = true) ∧
    (barOn (0 : FnId) (hostW [] 0 { qcfg := { sqBase := 0x8000000000000000 } } [] : State) = true) ∧
    (reg64s.find? (fun z => z.1 == (0x1008 : Nat)) = some ((0x1008 : Nat), (.qSqBase : Reg64))) := by decide +kernel

/-- The hypotheses of HostLink, clause 4, are met. -/
theorem test_meets_HostLink_4 :
    (domRuns (hostW [] 0 {} [] : State) .pcie = true) ∧
    (barOn (0 : FnId) (hostW [] 0 {} [] : State) = true) ∧
    ((0xC00C : Nat) % 4 = 0) ∧
    (reg64s.all (fun z => z.1 != (0xC00C : Nat) && z.1 + 4 != (0xC00C : Nat)) = true) ∧
    ((slotOf (0 : FnId) (0xC00C : Nat)).all (fun z => decide (z.2 < 0x1000)) = true) := by decide +kernel

/-- The hypotheses of HostLink, clause 5, are met. -/
theorem test_meets_HostLink_5 :
    (domRuns (hostW [] 0 {} [] : State) .pcie = true) ∧
    (barOn (0 : FnId) (hostW [] 0 {} [] : State) = true) ∧
    (((0 : FnId) = 0 ∨ (3 : Fin 4) = 0)) ∧
    ((4095 : Nat) < 4096) ∧
    ((4095 : Nat) + (1 : Nat) ≤ 4096) := by decide +kernel

/-- The hypotheses of HostLink, clause 6, are met. -/
theorem test_meets_HostLink_6 :
    (domRuns (hostW [] 0 {} [] : State) .pcie = true) ∧
    (cfgOn (hostW [] 0 {} [] : State) = true) ∧
    ((hostW [] 0 {} [] : State).fnOn (0 : FnId) = true) ∧
    ((.classCode : RegR) ∈ [.ids, .classCode, .devControl, .msixControl, .power, .aer, .serialNumber]) := by decide +kernel

/-- The hypotheses of HostLink, clause 7, are met. -/
theorem test_meets_HostLink_7 :
    (domRuns (objs [(K.bu_PHASE, 5)] : State) .pcie = true) ∧
    (cfgOn (objs [(K.bu_PHASE, 5)] : State) = false) ∧
    ((.ids : RegR) ∈ [.ids, .classCode, .devControl, .msixControl, .power, .aer, .serialNumber]) := by decide +kernel

/-- The hypotheses of HostLink, clause 8, are met. -/
theorem test_meets_HostLink_8 :
    (domRuns (hostW [] 0 {} [] : State) .pcie = true) ∧
    (barOn (0 : FnId) (hostW [] 0 {} [] : State) = true) := by decide +kernel

/-- The hypotheses of HostLink, clause 9, are met. -/
theorem test_meets_HostLink_9 :
    (domRuns (hostW [] 0 { heldLow := [(3, 0xFFFFF000)] } [] : State) .pcie = true) ∧
    (barOn (0 : FnId) (hostW [] 0 { heldLow := [(3, 0xFFFFF000)] } [] : State) = true) ∧
    (kget? ((hostW [] 0 { heldLow := [(3, 0xFFFFF000)] } [] : State).fnr (0 : FnId)).heldLow (reg64Key (.qSqBase : Reg64)) = some (0xFFFFF000 : BitVec 32)) := by decide +kernel

/-- The hypotheses of HostLink, clause 10, are met. -/
theorem test_meets_HostLink_10 :
    (domRuns (hostW [] 0 {} [] : State) .pcie = true) ∧
    (barOn (0 : FnId) (hostW [] 0 {} [] : State) = true) := by decide +kernel

/-- The hypotheses of HostLink, clause 11, are met. -/
theorem test_meets_HostLink_11 :
    (domRuns (hostW [] 0 {} [] : State) .pcie = true) ∧
    (barOn (0 : FnId) (hostW [] 0 {} [] : State) = true) ∧
    (((0 : FnId) = 0 ∨ (3 : Fin 4) = 0)) ∧
    ((4095 : Nat) + ([255] : List Byte).length ≤ 4096) ∧
    ((4095 : Nat) < 4096) ∧
    (((hostW [] 0 {} [] : State).fnr (0 : FnId)).slots[(3 : Fin 4)].busy = false) := by decide +kernel

/-- The hypotheses of HostLink, clause 12, are met. -/
theorem test_meets_HostLink_12 :
    (domRuns (hostW [] 0 {} [] : State) .pcie = true) ∧
    (cfgOn (hostW [] 0 {} [] : State) = true) := by decide +kernel

/-- The hypotheses of HostLink, clause 13, are met. -/
theorem test_meets_HostLink_13 :
    (domRuns (hostW [] 0 { msixPend := [0, 1], msix := [(7, 0)] } [] : State) .pcie = true) ∧
    (cfgOn (hostW [] 0 { msixPend := [0, 1], msix := [(7, 0)] } [] : State) = true) ∧
    ((hostW [] 0 { msixPend := [0, 1], msix := [(7, 0)] } [] : State).fnOn (0 : FnId) = true) ∧
    (((hostW [] 0 { msixPend := [0, 1], msix := [(7, 0)] } [] : State).fnr (0 : FnId)).d3hot = false) := by decide +kernel

/-- The hypotheses of HostLink, clause 14, are met. -/
theorem test_meets_HostLink_14 :
    (domRuns (hostW [] 0 {} [] : State) .pcie = true) ∧
    (cfgOn (hostW [] 0 {} [] : State) = true) ∧
    ((hostW [] 0 {} [] : State).fnOn (0 : FnId) = true) := by decide +kernel

/-- The hypotheses of HostLink, clause 15, are met. -/
theorem test_meets_HostLink_15 :
    (domRuns (hostW [] 0 { aerUnc := 0x30 } [] : State) .pcie = true) ∧
    (cfgOn (hostW [] 0 { aerUnc := 0x30 } [] : State) = true) ∧
    ((hostW [] 0 { aerUnc := 0x30 } [] : State).fnOn (0 : FnId) = true) := by decide +kernel

/-- The hypotheses of HostLink, clause 16, are met. -/
theorem test_meets_HostLink_16 :
    ((linkW [(5, queueX none)] 0 { msixPend := [1] } [] : State).pwr.link = true) := by decide +kernel

/-- The hypotheses of HostLink, clause 17, are met. -/
theorem test_meets_HostLink_17 :
    ((linkW [] 0 {} [] : State).pwr.link = true) := by decide +kernel

/-- The hypotheses of HostLink, clause 18, are met. -/
theorem test_meets_HostLink_18 :
    ((pwrW { on := true } 0 [(K.bu_PHASE, 1), (K.ck_REFCLK_STATE, 2), (K.cg_SOURCE 1, 1)] : State).pwr.on = true) ∧
    ((pwrW { on := true } 0 [(K.bu_PHASE, 1), (K.ck_REFCLK_STATE, 2), (K.cg_SOURCE 1, 1)] : State).pwr.perst = false) ∧
    (1 ≤ (pwrW { on := true } 0 [(K.bu_PHASE, 1), (K.ck_REFCLK_STATE, 2), (K.cg_SOURCE 1, 1)] : State).n K.bu_PHASE) ∧
    (refGood (pwrW { on := true } 0 [(K.bu_PHASE, 1), (K.ck_REFCLK_STATE, 2), (K.cg_SOURCE 1, 1)] : State) 1 = true) ∧
    ((pwrW { on := true } 0 [(K.bu_PHASE, 1), (K.ck_REFCLK_STATE, 2), (K.cg_SOURCE 1, 1)] : State).n (K.cg_SOURCE 1) = 1) ∧
    ((pwrW { on := true } 0 [(K.bu_PHASE, 1), (K.ck_REFCLK_STATE, 2), (K.cg_SOURCE 1, 1)] : State).pwr.link = false) ∧
    (Whole (pwrW { on := true } 0 [(K.bu_PHASE, 1), (K.ck_REFCLK_STATE, 2), (K.cg_SOURCE 1, 1)] : State) Src.PCIE_LINK_DOWN) := by decide +kernel

/-- The hypotheses of HostLink, clause 19, are met. -/
theorem test_meets_HostLink_19 :
    (domRuns (linkW [(5, queueX none)] 0 {} [] : State) .pcie = true) ∧
    (cfgOn (linkW [(5, queueX none)] 0 {} [] : State) = true) ∧
    ((linkW [(5, queueX none)] 0 {} [] : State).fnOn (0 : FnId) = true) := by decide +kernel

/-- The hypotheses of HostLink, clause 20, are met. -/
theorem test_meets_HostLink_20 :
    (domRuns (hostW [(5, queueX none)] 0 {} [] : State) .pcie = true) ∧
    (cfgOn (hostW [(5, queueX none)] 0 {} [] : State) = true) := by decide +kernel

/-- The hypotheses of HostLink, clause 21, are met. -/
theorem test_meets_HostLink_21 :
    (domRuns (hostW [] 32 { d3hot := true, msixEnable := true, msixPend := [0] } [] : State) .pcie = true) ∧
    (cfgOn (hostW [] 32 { d3hot := true, msixEnable := true, msixPend := [0] } [] : State) = true) := by decide +kernel

/-- The hypotheses of FaultEpisodes, clause 1, are met. -/
theorem test_meets_FaultEpisodes_1 :
    (domRuns (up0 : State) .coll = true) ∧
    ((up0 : State).flt.reports = []) ∧
    (((up0 : State).src (0x9105 : BitVec 16).toNat).active = false) ∧
    (sevOf (up0 : State) (0x9105 : BitVec 16).toNat = some (2 : Nat)) ∧
    (1 ≤ (2 : Nat)) ∧
    ((2 : Nat) ≤ 5) ∧
    (handling (up0 : State) = none) ∧
    (newRecord (up0 : State) = some (0 : Nat)) ∧
    ((0 : Nat) < 32) ∧
    ((Src.dfltSev (0x9105 : BitVec 16).toNat).isSome = true) ∧
    ((up0 : State).g K.fz_EPISODES < 4294967295) ∧
    ((up0 : State).g K.fz_RAISES < 18446744073709551615) := by decide +kernel

/-- The hypotheses of FaultEpisodes, clause 2, are met. -/
theorem test_meets_FaultEpisodes_2 :
    (domRuns (objs [(K.fz_HANDLING, 31), (K.ep_EP_STATE 31, 1), (K.ep_EP_NUM 31, 9)] : State) .coll = true) ∧
    ((objs [(K.fz_HANDLING, 31), (K.ep_EP_STATE 31, 1), (K.ep_EP_NUM 31, 9)] : State).flt.reports = []) ∧
    (((objs [(K.fz_HANDLING, 31), (K.ep_EP_STATE 31, 1), (K.ep_EP_NUM 31, 9)] : State).src (0x9105 : BitVec 16).toNat).active = false) ∧
    (sevOf (objs [(K.fz_HANDLING, 31), (K.ep_EP_STATE 31, 1), (K.ep_EP_NUM 31, 9)] : State) (0x9105 : BitVec 16).toNat = some (2 : Nat)) ∧
    (1 ≤ (2 : Nat)) ∧
    ((2 : Nat) ≤ 5) ∧
    (handling (objs [(K.fz_HANDLING, 31), (K.ep_EP_STATE 31, 1), (K.ep_EP_NUM 31, 9)] : State) = some (31 : Nat)) ∧
    ((31 : Nat) < 32) ∧
    ((Src.dfltSev (0x9105 : BitVec 16).toNat).isSome = true) ∧
    ((objs [(K.fz_HANDLING, 31), (K.ep_EP_STATE 31, 1), (K.ep_EP_NUM 31, 9)] : State).g K.fz_RAISES < 18446744073709551615) := by decide +kernel

/-- The hypotheses of FaultEpisodes, clause 3, are met. -/
theorem test_meets_FaultEpisodes_3 :
    (domRuns (objs [(K.fx_SEV_RULE 63, 2 ^ 63 + 0x9105 * 2 ^ 16 + 0x9105)] : State) .coll = true) ∧
    ((objs [(K.fx_SEV_RULE 63, 2 ^ 63 + 0x9105 * 2 ^ 16 + 0x9105)] : State).flt.reports = []) ∧
    (((objs [(K.fx_SEV_RULE 63, 2 ^ 63 + 0x9105 * 2 ^ 16 + 0x9105)] : State).src (0x9105 : BitVec 16).toNat).active = false) ∧
    (sevOf (objs [(K.fx_SEV_RULE 63, 2 ^ 63 + 0x9105 * 2 ^ 16 + 0x9105)] : State) (0x9105 : BitVec 16).toNat = some 0) ∧
    ((Src.dfltSev (0x9105 : BitVec 16).toNat).isSome = true) ∧
    ((objs [(K.fx_SEV_RULE 63, 2 ^ 63 + 0x9105 * 2 ^ 16 + 0x9105)] : State).g K.fz_RAISES < 18446744073709551615) := by decide +kernel

/-- The hypotheses of FaultEpisodes, clause 4, are met. -/
theorem test_meets_FaultEpisodes_4 :
    (domRuns (up0 : State) .coll = true) ∧
    (((up0 : State).src (0x9105 : BitVec 16).toNat).broken = false) := by decide +kernel

/-- The hypotheses of FaultEpisodes, clause 5, are met. -/
theorem test_meets_FaultEpisodes_5 :
    (domRuns (fltW { srcs := [(0x9105, { active := true, broken := true })] } 0 [] : State) .coll = true) ∧
    (((fltW { srcs := [(0x9105, { active := true, broken := true })] } 0 [] : State).src (0x9105 : BitVec 16).toNat).broken = true) := by decide +kernel

/-- The hypotheses of FaultEpisodes, clause 6, are met. -/
theorem test_meets_FaultEpisodes_6 :
    (domRuns (objs [(K.fz_HANDLING, 31), (K.ep_EP_STATE 31, 1), (K.ep_EP_SEVERITY 31, 1), (K.ep_EP_NUM 31, 9)] : State) .coll = true) ∧
    (handling (objs [(K.fz_HANDLING, 31), (K.ep_EP_STATE 31, 1), (K.ep_EP_SEVERITY 31, 1), (K.ep_EP_NUM 31, 9)] : State) = some (31 : Nat)) ∧
    ((objs [(K.fz_HANDLING, 31), (K.ep_EP_STATE 31, 1), (K.ep_EP_SEVERITY 31, 1), (K.ep_EP_NUM 31, 9)] : State).flt.tests.all (fun t => t.ep != (objs [(K.fz_HANDLING, 31), (K.ep_EP_STATE 31, 1), (K.ep_EP_SEVERITY 31, 1), (K.ep_EP_NUM 31, 9)] : State).n (K.ep_EP_NUM (31 : Nat)) || t.deferred) = true) ∧
    ((objs [(K.fz_HANDLING, 31), (K.ep_EP_STATE 31, 1), (K.ep_EP_SEVERITY 31, 1), (K.ep_EP_NUM 31, 9)] : State).flt.retiring.all (fun r => r.ep != (objs [(K.fz_HANDLING, 31), (K.ep_EP_STATE 31, 1), (K.ep_EP_SEVERITY 31, 1), (K.ep_EP_NUM 31, 9)] : State).n (K.ep_EP_NUM (31 : Nat))) = true) := by decide +kernel

/-- The hypotheses of FaultEpisodes, clause 7, are met. -/
theorem test_meets_FaultEpisodes_7 :
    (domRuns (objs [(K.ep_EP_STATE 31, 2), (K.ep_EP_NUM 31, 9)] : State) .coll = true) ∧
    ((9 : BitVec 32) ≠ 0xFFFFFFFF) ∧
    (epRecord (objs [(K.ep_EP_STATE 31, 2), (K.ep_EP_NUM 31, 9)] : State) (9 : BitVec 32).toNat = some (31 : Nat)) ∧
    (epState (objs [(K.ep_EP_STATE 31, 2), (K.ep_EP_NUM 31, 9)] : State) (31 : Nat) = 2) ∧
    (causeActive (objs [(K.ep_EP_STATE 31, 2), (K.ep_EP_NUM 31, 9)] : State) (31 : Nat) = false) := by decide +kernel

/-- The hypotheses of FaultEpisodes, clause 8, are met. -/
theorem test_meets_FaultEpisodes_8 :
    (domRuns (objs [(K.ep_EP_STATE 31, 1), (K.ep_EP_NUM 31, 9)] : State) .coll = true) ∧
    ((9 : BitVec 32) ≠ 0xFFFFFFFF) ∧
    (epRecord (objs [(K.ep_EP_STATE 31, 1), (K.ep_EP_NUM 31, 9)] : State) (9 : BitVec 32).toNat = some (31 : Nat)) ∧
    ((epState (objs [(K.ep_EP_STATE 31, 1), (K.ep_EP_NUM 31, 9)] : State) (31 : Nat) = 1 ∨ (epState (objs [(K.ep_EP_STATE 31, 1), (K.ep_EP_NUM 31, 9)] : State) (31 : Nat) = 2 ∧ causeActive (objs [(K.ep_EP_STATE 31, 1), (K.ep_EP_NUM 31, 9)] : State) (31 : Nat) = true))) := by decide +kernel

/-- The hypotheses of FaultEpisodes, clause 9, are met. -/
theorem test_meets_FaultEpisodes_9 :
    (domRuns (up0 : State) .coll = true) ∧
    ((9 : BitVec 32) ≠ 0xFFFFFFFF) ∧
    (epRecord (up0 : State) (9 : BitVec 32).toNat = none) := by decide +kernel

/-- The hypotheses of SelfTests, clause 1, are met. -/
theorem test_meets_SelfTests_1 :
    (domRuns (fltW { stCmd := some (0, 255, true) } 0 [(K.stc_ST_BUSY, 1)] : State) .coll = true) ∧
    ((fltW { stCmd := some (0, 255, true) } 0 [(K.stc_ST_BUSY, 1)] : State).flt.stCmd = some ((0 : Nat), (255 : Nat), (true : Bool))) ∧
    (runitOf (0 : Nat) (255 : Nat) = some (.chan 255 : RUnit)) ∧
    (unitInUse (fltW { stCmd := some (0, 255, true) } 0 [(K.stc_ST_BUSY, 1)] : State) (.chan 255 : RUnit) = false) ∧
    (testDead (fltW { stCmd := some (0, 255, true) } 0 [(K.stc_ST_BUSY, 1)] : State) (.chan 255 : RUnit) = false) ∧
    (((true : Bool) && (false : Bool) && retired (fltW { stCmd := some (0, 255, true) } 0 [(K.stc_ST_BUSY, 1)] : State) (.chan 255 : RUnit)) = false) := by decide +kernel

/-- The hypotheses of SelfTests, clause 2, are met. -/
theorem test_meets_SelfTests_2 :
    (domRuns (fltW { stCmd := some (2, 9, true) } 0 [(K.stc_ST_BUSY, 1), (K.rt_RETIRE 31, 2 ^ 31 + 2 * 2 ^ 28 + 0xFF * 2 ^ 16 + 9)] : State) .coll = true) ∧
    ((fltW { stCmd := some (2, 9, true) } 0 [(K.stc_ST_BUSY, 1), (K.rt_RETIRE 31, 2 ^ 31 + 2 * 2 ^ 28 + 0xFF * 2 ^ 16 + 9)] : State).flt.stCmd = some ((2 : Nat), (9 : Nat), true)) ∧
    (runitOf (2 : Nat) (9 : Nat) = some (.tmu 9 : RUnit)) ∧
    (unitInUse (fltW { stCmd := some (2, 9, true) } 0 [(K.stc_ST_BUSY, 1), (K.rt_RETIRE 31, 2 ^ 31 + 2 * 2 ^ 28 + 0xFF * 2 ^ 16 + 9)] : State) (.tmu 9 : RUnit) = false) ∧
    (testDead (fltW { stCmd := some (2, 9, true) } 0 [(K.stc_ST_BUSY, 1), (K.rt_RETIRE 31, 2 ^ 31 + 2 * 2 ^ 28 + 0xFF * 2 ^ 16 + 9)] : State) (.tmu 9 : RUnit) = false) ∧
    (retireEntry (fltW { stCmd := some (2, 9, true) } 0 [(K.stc_ST_BUSY, 1), (K.rt_RETIRE 31, 2 ^ 31 + 2 * 2 ^ 28 + 0xFF * 2 ^ 16 + 9)] : State) (.tmu 9 : RUnit) = some (31 : Nat)) := by decide +kernel

/-- The hypotheses of SelfTests, clause 3, are met. -/
theorem test_meets_SelfTests_3 :
    (domRuns (fltW { tests := [{ src := 0x9105, ep := 9, sev := 2, at_ := 0, sites := 0 }] } 0 [(K.fz_HANDLING, 31), (K.ep_EP_NUM 31, 9)] : State) .coll = true) ∧
    (handling (fltW { tests := [{ src := 0x9105, ep := 9, sev := 2, at_ := 0, sites := 0 }] } 0 [(K.fz_HANDLING, 31), (K.ep_EP_NUM 31, 9)] : State) = some (31 : Nat)) ∧
    (liveTest (fltW { tests := [{ src := 0x9105, ep := 9, sev := 2, at_ := 0, sites := 0 }] } 0 [(K.fz_HANDLING, 31), (K.ep_EP_NUM 31, 9)] : State) (31 : Nat) (0x9105 : BitVec 16).toNat = some ({ src := 0x9105, ep := 9, sev := 2, at_ := 0, sites := 0 } : Test)) ∧
    (testWaits (fltW { tests := [{ src := 0x9105, ep := 9, sev := 2, at_ := 0, sites := 0 }] } 0 [(K.fz_HANDLING, 31), (K.ep_EP_NUM 31, 9)] : State) (0x9105 : BitVec 16).toNat = false) := by decide +kernel

/-- The hypotheses of SelfTests, clause 4, are met. -/
theorem test_meets_SelfTests_4 :
    (domRuns (fltW { tests := [{ src := 0x9105, ep := 9, sev := 2, at_ := 0, sites := 0 }] } 0 [(K.fz_HANDLING, 31), (K.ep_EP_NUM 31, 9)] : State) .coll = true) ∧
    (handling (fltW { tests := [{ src := 0x9105, ep := 9, sev := 2, at_ := 0, sites := 0 }] } 0 [(K.fz_HANDLING, 31), (K.ep_EP_NUM 31, 9)] : State) = some (31 : Nat)) ∧
    (liveTest (fltW { tests := [{ src := 0x9105, ep := 9, sev := 2, at_ := 0, sites := 0 }] } 0 [(K.fz_HANDLING, 31), (K.ep_EP_NUM 31, 9)] : State) (31 : Nat) (0x9105 : BitVec 16).toNat = some ({ src := 0x9105, ep := 9, sev := 2, at_ := 0, sites := 0 } : Test)) ∧
    (testWaits (fltW { tests := [{ src := 0x9105, ep := 9, sev := 2, at_ := 0, sites := 0 }] } 0 [(K.fz_HANDLING, 31), (K.ep_EP_NUM 31, 9)] : State) (0x9105 : BitVec 16).toNat = false) := by decide +kernel

/-- The hypotheses of SelfTests, clause 5, are met. -/
theorem test_meets_SelfTests_5 :
    (domRuns (fltW { tests := [{ src := 0xC009, ep := 9, sev := 2, at_ := 0, sites := 0, deferred := true }] } 0 [] : State) .coll = true) ∧
    (((handling (fltW { tests := [{ src := 0xC009, ep := 9, sev := 2, at_ := 0, sites := 0, deferred := true }] } 0 [] : State)).bind (fun k => liveTest (fltW { tests := [{ src := 0xC009, ep := 9, sev := 2, at_ := 0, sites := 0, deferred := true }] } 0 [] : State) k (0xC009 : BitVec 16).toNat)) = none) ∧
    ((fltW { tests := [{ src := 0xC009, ep := 9, sev := 2, at_ := 0, sites := 0, deferred := true }] } 0 [] : State).flt.tests.find? (fun z => z.src == (0xC009 : BitVec 16).toNat && z.deferred) = some ({ src := 0xC009, ep := 9, sev := 2, at_ := 0, sites := 0, deferred := true } : Test)) ∧
    (testWaits (fltW { tests := [{ src := 0xC009, ep := 9, sev := 2, at_ := 0, sites := 0, deferred := true }] } 0 [] : State) (0xC009 : BitVec 16).toNat = false) := by decide +kernel

/-- The hypotheses of SelfTests, clause 6, are met. -/
theorem test_meets_SelfTests_6 :
    (domRuns (fltW { tests := [{ src := 0x9105, ep := 9, sev := 2, at_ := 0, sites := 0 }] } 1 [(K.fz_HANDLING, 31), (K.ep_EP_NUM 31, 9), (K.fy_SELFTEST_WAIT, 0)] : State) .coll = true) ∧
    (handling (fltW { tests := [{ src := 0x9105, ep := 9, sev := 2, at_ := 0, sites := 0 }] } 1 [(K.fz_HANDLING, 31), (K.ep_EP_NUM 31, 9), (K.fy_SELFTEST_WAIT, 0)] : State) = some (31 : Nat)) ∧
    (liveTest (fltW { tests := [{ src := 0x9105, ep := 9, sev := 2, at_ := 0, sites := 0 }] } 1 [(K.fz_HANDLING, 31), (K.ep_EP_NUM 31, 9), (K.fy_SELFTEST_WAIT, 0)] : State) (31 : Nat) (0x9105 : BitVec 16).toNat = some ({ src := 0x9105, ep := 9, sev := 2, at_ := 0, sites := 0 } : Test)) ∧
    (({ src := 0x9105, ep := 9, sev := 2, at_ := 0, sites := 0 } : Test).at_ + (fltW { tests := [{ src := 0x9105, ep := 9, sev := 2, at_ := 0, sites := 0 }] } 1 [(K.fz_HANDLING, 31), (K.ep_EP_NUM 31, 9), (K.fy_SELFTEST_WAIT, 0)] : State).n K.fy_SELFTEST_WAIT / 1250000 ≤ (fltW { tests := [{ src := 0x9105, ep := 9, sev := 2, at_ := 0, sites := 0 }] } 1 [(K.fz_HANDLING, 31), (K.ep_EP_NUM 31, 9), (K.fy_SELFTEST_WAIT, 0)] : State).now) := by decide +kernel

/-- The hypotheses of SelfTests, clause 7, are met. -/
theorem test_meets_SelfTests_7 :
    (domRuns (fltW { tests := [{ src := 0xC009, ep := 9, sev := 2, at_ := 0, sites := 0, deferred := true }] } 0 [] : State) .coll = true) ∧
    ((fltW { tests := [{ src := 0xC009, ep := 9, sev := 2, at_ := 0, sites := 0, deferred := true }] } 0 [] : State).flt.tests.find? (fun t => t.src == (0xC009 : BitVec 16).toNat && t.deferred) = some ({ src := 0xC009, ep := 9, sev := 2, at_ := 0, sites := 0, deferred := true } : Test)) ∧
    (testWaits (fltW { tests := [{ src := 0xC009, ep := 9, sev := 2, at_ := 0, sites := 0, deferred := true }] } 0 [] : State) (0xC009 : BitVec 16).toNat = false) := by decide +kernel

/-- The hypotheses of SelfTests, clause 8, are met. -/
theorem test_meets_SelfTests_8 :
    (domRuns (fltW { retiring := [⟨2, 9, none, 4⟩] } 0 [] : State) .coll = true) ∧
    ((fltW { retiring := [⟨2, 9, none, 4⟩] } 0 [] : State).flt.retiring = [(⟨2, 9, none, 4⟩ : Retiring)]) ∧
    ((fltW { retiring := [⟨2, 9, none, 4⟩] } 0 [] : State).flt.wants = []) ∧
    (runitOf (⟨2, 9, none, 4⟩ : Retiring).kind (⟨2, 9, none, 4⟩ : Retiring).unit = some (.tmu 9 : RUnit)) ∧
    ((List.range 32).find? (fun m => !((fltW { retiring := [⟨2, 9, none, 4⟩] } 0 [] : State).n (K.rt_RETIRE m)).testBit 31) = some (0 : Nat)) := by decide +kernel

/-- The hypotheses of SelfTests, clause 9, are met. -/
theorem test_meets_SelfTests_9 :
    (domRuns (up0 : State) .coll = true) ∧
    (unitInUse (up0 : State) (.engine 7 : RUnit) = false) ∧
    ((up0 : State).flt.stCmd = none) := by decide +kernel

/-- The hypotheses of SelfTests, clause 10, are met. -/
theorem test_meets_SelfTests_10 :
    (domRuns (up0 : State) .coll = true) ∧
    (unitInUse (up0 : State) (.spar 15 : RUnit) = false) ∧
    ((up0 : State).flt.stCmd = none) := by decide +kernel

/-- The hypotheses of SelfTests, clause 11, are met. -/
theorem test_meets_SelfTests_11 :
    (domRuns (fltW { stCmd := some (0, 255, false) } 0 [] : State) .coll = true) ∧
    ((unitInUse (fltW { stCmd := some (0, 255, false) } 0 [] : State) (.tmu 9 : RUnit) = true ∨ (fltW { stCmd := some (0, 255, false) } 0 [] : State).flt.stCmd.isSome = true)) := by decide +kernel

/-- The hypotheses of SelfTests, clause 12, are met. -/
theorem test_meets_SelfTests_12 :
    (domRuns (up0 : State) .mgmt = true) ∧
    ((up0 : State).g K.mg_LOCKSTEP_ERRORS < 4294967295) := by decide +kernel

/-- The hypotheses of SelfTests, clause 13, are met. -/
theorem test_meets_SelfTests_13 :
    (domRuns (objs [(K.spd_PRIORITY_PORT 3, 1)] : State) .mgmt = true) ∧
    ((15 : BitVec 4) ≠ 0) ∧
    ((15 : BitVec 4) ≠ 0) ∧
    ((objs [(K.spd_PRIORITY_PORT 3, 1)] : State).g (K.spd_COLLISIONS (3 : Fin 4)) < 4294967295) := by decide +kernel

/-- The hypotheses of SelfTests, clause 14, are met. -/
theorem test_meets_SelfTests_14 :
    (domRuns (mgmtW { spad := [(32767, 0x01020304)] } 0 [] : State) .mgmt = true) ∧
    ((15 : BitVec 4) ≠ 0) := by decide +kernel

/-- The hypotheses of SelfTests, clause 15, are met. -/
theorem test_meets_SelfTests_15 :
    (domRuns (mgmtW { spad := [(32767, 0x01020304)] } 0 [] : State) .mgmt = true) := by decide +kernel

/-- The hypotheses of SelfTests, clause 16, are met. -/
theorem test_meets_SelfTests_16 :
    (domRuns (up0 : State) .mgmt = true) ∧
    (0x30000000 ≤ (0x30003FFF : BitVec 32).toNat) ∧
    ((0x30003FFF : BitVec 32).toNat < 0x30004000) := by decide +kernel

/-- The hypotheses of SelfTests, clause 17, are met. -/
theorem test_meets_SelfTests_17 :
    (domRuns (up0 : State) .mgmt = true) ∧
    ((0x10000 ≤ (0x40014000 : BitVec 32).toNat ∧ (0x40014000 : BitVec 32).toNat < 0x10000000 ∨ 0x10040000 ≤ (0x40014000 : BitVec 32).toNat ∧ (0x40014000 : BitVec 32).toNat < 0x20000000 ∨ 0x20080000 ≤ (0x40014000 : BitVec 32).toNat ∧ (0x40014000 : BitVec 32).toNat < 0x30000000 ∨ 0x30004000 ≤ (0x40014000 : BitVec 32).toNat ∧ (0x40014000 : BitVec 32).toNat < 0x40000000 ∨ 0x40014000 ≤ (0x40014000 : BitVec 32).toNat)) := by decide +kernel

/-- The hypotheses of SelfTests, clause 18, are met. -/
theorem test_meets_SelfTests_18 :
    (domRuns (up0 : State) .mgmt = true) ∧
    (((0x30000000 : BitVec 32).toNat < 0x20000000 ∨ 0x20020000 ≤ (0x30000000 : BitVec 32).toNat)) := by decide +kernel

/-- The hypotheses of SelfTests, clause 19, are met. -/
theorem test_meets_SelfTests_19 :
    (domRuns (up0.setSpt 3 { todo := [7, 8] } : State) .mgmt = true) ∧
    ((up0.setSpt 3 { todo := [7, 8] } : State).mgmt.spt[(3 : Fin 4)].todo = (7 : Nat) :: ([8] : List Nat)) ∧
    (([8] : List Nat) ≠ []) := by decide +kernel

/-- The hypotheses of SelfTests, clause 20, are met. -/
theorem test_meets_SelfTests_20 :
    (domRuns (up0.setSpt 3 { todo := [7, 8], defers := 14 } : State) .mgmt = true) ∧
    ((up0.setSpt 3 { todo := [7, 8], defers := 14 } : State).mgmt.spt[(3 : Fin 4)].defers < 15) ∧
    ((up0.setSpt 3 { todo := [7, 8], defers := 14 } : State).g (K.spd_SPT_DEFERRED (3 : Fin 4)) < 4294967295) := by decide +kernel

/-- The hypotheses of SensorsAndSupply, clause 1, are met. -/
theorem test_meets_SensorsAndSupply_1 :
    (domRuns (objs [(K.th_WARN_LIMIT 23, 100000), (K.th_CRIT_LIMIT 23, 200000)] : State) .mgmt = true) ∧
    ((objs [(K.th_WARN_LIMIT 23, 100000), (K.th_CRIT_LIMIT 23, 200000)] : State).g (K.th_WARN_LIMIT (23 : Fin 24)) < (200001 : Int)) ∧
    ((objs [(K.th_WARN_LIMIT 23, 100000), (K.th_CRIT_LIMIT 23, 200000)] : State).g (K.th_CRIT_LIMIT (23 : Fin 24)) < (200001 : Int)) := by decide +kernel

/-- The hypotheses of SensorsAndSupply, clause 2, are met. -/
theorem test_meets_SensorsAndSupply_2 :
    (domRuns (fltW { srcs := [(Src.IIN_LIMIT, { active := true })] } 800000000 [(K.vi_IIN_LIMIT, 0)] : State) .mgmt = true) ∧
    ((0 : Int) ≤ (fltW { srcs := [(Src.IIN_LIMIT, { active := true })] } 800000000 [(K.vi_IIN_LIMIT, 0)] : State).g K.vi_IIN_LIMIT) ∧
    (kgetD (fltW { srcs := [(Src.IIN_LIMIT, { active := true })] } 800000000 [(K.vi_IIN_LIMIT, 0)] : State).mgmt.sensAt 78 0 + 800000000 ≤ (fltW { srcs := [(Src.IIN_LIMIT, { active := true })] } 800000000 [(K.vi_IIN_LIMIT, 0)] : State).now) ∧
    (((fltW { srcs := [(Src.IIN_LIMIT, { active := true })] } 800000000 [(K.vi_IIN_LIMIT, 0)] : State).src Src.IIN_LIMIT).broken = false) := by decide +kernel

/-- The hypotheses of SensorsAndSupply, clause 3, are met. -/
theorem test_meets_SensorsAndSupply_3 :
    (domRuns (up0 : State) .mgmt = true) := by decide +kernel

/-- The hypotheses of SensorsAndSupply, clause 4, are met. -/
theorem test_meets_SensorsAndSupply_4 :
    (domRuns (up0 : State) .mgmt = true) := by decide +kernel

/-- The hypotheses of SensorsAndSupply, clause 5, are met. -/
theorem test_meets_SensorsAndSupply_5 :
    (domRuns (objs [(K.vi_IIN, 1000)] : State) .mgmt = true) := by decide +kernel

/-- The hypotheses of SensorsAndSupply, clause 6, are met. -/
theorem test_meets_SensorsAndSupply_6 :
    ((objs [(K.hm_DIMM_PRESENT, 255)] : State).g K.hm_DIMM_PRESENT ≠ 0) := by decide +kernel

/-- The hypotheses of SensorsAndSupply, clause 7, are met. -/
theorem test_meets_SensorsAndSupply_7 :
    ((mgmtW { erase := some false } 0 [] : State).g K.pw_PFW_ACTIVE = 0) ∧
    ((mgmtW { erase := some false } 0 [] : State).g K.pw_PFW_COUNT < 4294967295) := by decide +kernel

/-- The hypotheses of SensorsAndSupply, clause 8, are met. -/
theorem test_meets_SensorsAndSupply_8 :
    (((objs [(K.pw_PFW_ACTIVE, 1)] : State).src Src.VIN_PFW).broken = false) := by decide +kernel

/-- The hypotheses of SensorsAndSupply, clause 10, are met. -/
theorem test_meets_SensorsAndSupply_10 :
    (((up0 : State).src Src.VIN_LOW).broken = false) := by decide +kernel

/-- The hypotheses of SensorsAndSupply, clause 11, are met. -/
theorem test_meets_SensorsAndSupply_11 :
    (((fltW { srcs := [(Src.VIN_HIGH, { active := true })] } 0 [] : State).src Src.VIN_HIGH).broken = false) := by decide +kernel

/-- The hypotheses of NorStore, clause 1, are met. -/
theorem test_meets_NorStore_1 :
    (domRuns (mgmtW { spares := [(1, 32)] } 0 [(K.nr_NOR_COPIES, 3)] : State) .mgmt = true) ∧
    (domRuns (mgmtW { spares := [(1, 32)] } 0 [(K.nr_NOR_COPIES, 3)] : State) .nor = true) ∧
    (32 ≤ kgetD (mgmtW { spares := [(1, 32)] } 0 [(K.nr_NOR_COPIES, 3)] : State).mgmt.spares (1 : Fin 2).val 0) ∧
    (((mgmtW { spares := [(1, 32)] } 0 [(K.nr_NOR_COPIES, 3)] : State).n K.nr_NOR_COPIES).testBit (1 : Fin 2) = true) := by decide +kernel

/-- The hypotheses of NorStore, clause 2, are met. -/
theorem test_meets_NorStore_2 :
    (domRuns (mgmtW { spares := [(1, 31)], erase := some false } 0 [] : State) .mgmt = true) ∧
    (domRuns (mgmtW { spares := [(1, 31)], erase := some false } 0 [] : State) .nor = true) ∧
    (kgetD (mgmtW { spares := [(1, 31)], erase := some false } 0 [] : State).mgmt.spares (1 : Fin 2).val 0 < 32) ∧
    ((mgmtW { spares := [(1, 31)], erase := some false } 0 [] : State).g K.nr_RETIRED < 255) := by decide +kernel

/-- The hypotheses of NorStore, clause 3, are met. -/
theorem test_meets_NorStore_3 :
    (domRuns (mgmtW { erase := some true } 0 [] : State) .mgmt = true) ∧
    (domRuns (mgmtW { erase := some true } 0 [] : State) .nor = true) ∧
    ((mgmtW { erase := some true } 0 [] : State).mgmt.erase = some (true : Bool)) ∧
    (pfw (mgmtW { erase := some true } 0 [] : State) = false) := by decide +kernel

/-- The hypotheses of NorStore, clause 4, are met. -/
theorem test_meets_NorStore_4 :
    (domRuns (objs [(K.pw_PFW_ACTIVE, 1)] : State) .mgmt = true) ∧
    (domRuns (objs [(K.pw_PFW_ACTIVE, 1)] : State) .nor = true) ∧
    (pfw (objs [(K.pw_PFW_ACTIVE, 1)] : State) = true) := by decide +kernel

/-- The hypotheses of NorStore, clause 5, are met. -/
theorem test_meets_NorStore_5 :
    (domRuns (mgmtW { pcommits := List.replicate 3001 0 } 0 [] : State) .mgmt = true) ∧
    (3000 < (mgmtW { pcommits := List.replicate 3001 0 } 0 [] : State).pcommitsHour) ∧
    ((mgmtW { pcommits := List.replicate 3001 0 } 0 [] : State).mgmt.budgetAt = none) := by decide +kernel

/-- The hypotheses of NorStore, clause 6, are met. -/
theorem test_meets_NorStore_6 :
    (domRuns (mgmtW { rewrite := [(0, 3)] } 0 [] : State) .mgmt = true) ∧
    (domRuns (mgmtW { rewrite := [(0, 3)] } 0 [] : State) .nor = true) ∧
    (pfw (mgmtW { rewrite := [(0, 3)] } 0 [] : State) = false) ∧
    (norUp (mgmtW { rewrite := [(0, 3)] } 0 [] : State) = true) ∧
    (noneMarking (mgmtW { rewrite := [(0, 3)] } 0 [] : State) = true) ∧
    (norShare (mgmtW { rewrite := [(0, 3)] } 0 [] : State) = true) ∧
    (((.rewrite : Compact) = .tail ∧ 16384 < tailPages (mgmtW { rewrite := [(0, 3)] } 0 [] : State).mgmt ∨ (.rewrite : Compact) = .age ∧ aged (mgmtW { rewrite := [(0, 3)] } 0 [] : State) = true ∨ (.rewrite : Compact) = .space ∧ (mgmtW { rewrite := [(0, 3)] } 0 [] : State).b K.nr_LOW_SPACE = true ∨ (.rewrite : Compact) = .rewrite ∧ (mgmtW { rewrite := [(0, 3)] } 0 [] : State).mgmt.rewrite ≠ [])) := by decide +kernel

/-- The hypotheses of NorStore, clause 7, are met. -/
theorem test_meets_NorStore_7 :
    (domRuns (up0 : State) .mgmt = true) ∧
    (domRuns (up0 : State) .nor = true) ∧
    (pfw (up0 : State) = false) ∧
    (norUp (up0 : State) = true) ∧
    (noneMarking (up0 : State) = true) ∧
    (norShare (up0 : State) = true) := by decide +kernel

/-- The hypotheses of NorStore, clause 8, are met. -/
theorem test_meets_NorStore_8 :
    (domRuns (up0 : State) .mgmt = true) ∧
    (domRuns (up0 : State) .nor = true) ∧
    (pfw (up0 : State) = false) ∧
    (norShare (up0 : State) = true) := by decide +kernel

/-- The hypotheses of NorStore, clause 9, are met. -/
theorem test_meets_NorStore_9 :
    (domRuns (objs [(K.pw_PFW_ACTIVE, 1)] : State) .mgmt = true) ∧
    (domRuns (objs [(K.pw_PFW_ACTIVE, 1)] : State) .nor = true) ∧
    (((.other : ScrubFind) = .clean ∨ pfw (objs [(K.pw_PFW_ACTIVE, 1)] : State) = true ∨ norShare (objs [(K.pw_PFW_ACTIVE, 1)] : State) = false ∨ ((.other : ScrubFind) = .journal ∧ (norUp (objs [(K.pw_PFW_ACTIVE, 1)] : State) = false ∨ noneMarking (objs [(K.pw_PFW_ACTIVE, 1)] : State) = false)))) := by decide +kernel

/-- The hypotheses of NorStore, clause 10, are met. -/
theorem test_meets_NorStore_10 :
    (domRuns (objs [(K.pw_PFW_ACTIVE, 1)] : State) .mgmt = true) ∧
    (domRuns (objs [(K.pw_PFW_ACTIVE, 1)] : State) .nor = true) ∧
    ((pfw (objs [(K.pw_PFW_ACTIVE, 1)] : State) = true ∨ norUp (objs [(K.pw_PFW_ACTIVE, 1)] : State) = false ∨ noneMarking (objs [(K.pw_PFW_ACTIVE, 1)] : State) = false ∨ norShare (objs [(K.pw_PFW_ACTIVE, 1)] : State) = false ∨ (.tail : Compact) = .tail ∧ tailPages (objs [(K.pw_PFW_ACTIVE, 1)] : State).mgmt ≤ 16384 ∨ (.tail : Compact) = .age ∧ aged (objs [(K.pw_PFW_ACTIVE, 1)] : State) = false ∨ (.tail : Compact) = .space ∧ (objs [(K.pw_PFW_ACTIVE, 1)] : State).b K.nr_LOW_SPACE = false ∨ (.tail : Compact) = .rewrite ∧ (objs [(K.pw_PFW_ACTIVE, 1)] : State).mgmt.rewrite = [])) := by decide +kernel

/-- The hypotheses of FirmwareAndKeys, clause 1, are met. -/
theorem test_meets_FirmwareAndKeys_1 :
    (domRuns (objs [(K.lcy_LIFECYCLE, 2), (K.fwm_SLOT_STATE_A 1, 2)] : State) .mgmt = true) ∧
    (lcDenied (objs [(K.lcy_LIFECYCLE, 2), (K.fwm_SLOT_STATE_A 1, 2)] : State) = false) ∧
    (pfw (objs [(K.lcy_LIFECYCLE, 2), (K.fwm_SLOT_STATE_A 1, 2)] : State) = false) := by decide +kernel

/-- The hypotheses of FirmwareAndKeys, clause 2, are met. -/
theorem test_meets_FirmwareAndKeys_2 :
    (domRuns (objs [(K.lcy_LIFECYCLE, 2), (K.fwm_SLOT_STATE_A 1, 3)] : State) .mgmt = true) ∧
    (lcDenied (objs [(K.lcy_LIFECYCLE, 2), (K.fwm_SLOT_STATE_A 1, 3)] : State) = false) := by decide +kernel

/-- The hypotheses of FirmwareAndKeys, clause 3, are met. -/
theorem test_meets_FirmwareAndKeys_3 :
    (domRuns (mgmtW { running := 1, slots := #v[{}, { booted := true }] } 0 [(K.lcy_LIFECYCLE, 2), (K.fwm_SLOT_STATE_A 1, 3), (K.fwm_SLOT_SVN_A 1, 3)] : State) .mgmt = true) ∧
    (lcDenied (mgmtW { running := 1, slots := #v[{}, { booted := true }] } 0 [(K.lcy_LIFECYCLE, 2), (K.fwm_SLOT_STATE_A 1, 3), (K.fwm_SLOT_SVN_A 1, 3)] : State) = false) ∧
    (pfw (mgmtW { running := 1, slots := #v[{}, { booted := true }] } 0 [(K.lcy_LIFECYCLE, 2), (K.fwm_SLOT_STATE_A 1, 3), (K.fwm_SLOT_SVN_A 1, 3)] : State) = false) ∧
    (slotState (mgmtW { running := 1, slots := #v[{}, { booted := true }] } 0 [(K.lcy_LIFECYCLE, 2), (K.fwm_SLOT_STATE_A 1, 3), (K.fwm_SLOT_SVN_A 1, 3)] : State) (runningSlot (mgmtW { running := 1, slots := #v[{}, { booted := true }] } 0 [(K.lcy_LIFECYCLE, 2), (K.fwm_SLOT_STATE_A 1, 3), (K.fwm_SLOT_SVN_A 1, 3)] : State)) = 3) ∧
    (((mgmtW { running := 1, slots := #v[{}, { booted := true }] } 0 [(K.lcy_LIFECYCLE, 2), (K.fwm_SLOT_STATE_A 1, 3), (K.fwm_SLOT_SVN_A 1, 3)] : State).slot (runningSlot (mgmtW { running := 1, slots := #v[{}, { booted := true }] } 0 [(K.lcy_LIFECYCLE, 2), (K.fwm_SLOT_STATE_A 1, 3), (K.fwm_SLOT_SVN_A 1, 3)] : State))).booted = true) := by decide +kernel

/-- The hypotheses of FirmwareAndKeys, clause 4, are met. -/
theorem test_meets_FirmwareAndKeys_4 :
    (domRuns (objs [(K.lcy_LIFECYCLE, 2), (K.fwm_SLOT_STATE_A 1, 2)] : State) .mgmt = true) ∧
    (lcDenied (objs [(K.lcy_LIFECYCLE, 2), (K.fwm_SLOT_STATE_A 1, 2)] : State) = false) := by decide +kernel

/-- The hypotheses of FirmwareAndKeys, clause 5, are met. -/
theorem test_meets_FirmwareAndKeys_5 :
    (domRuns (objs [(K.lcy_LIFECYCLE, 2)] : State) .mgmt = true) ∧
    (lcDenied (objs [(K.lcy_LIFECYCLE, 2)] : State) = false) ∧
    (pfw (objs [(K.lcy_LIFECYCLE, 2)] : State) = false) ∧
    (¬(slotState (objs [(K.lcy_LIFECYCLE, 2)] : State) (runningSlot (objs [(K.lcy_LIFECYCLE, 2)] : State)) = 3 ∧ ((objs [(K.lcy_LIFECYCLE, 2)] : State).slot (runningSlot (objs [(K.lcy_LIFECYCLE, 2)] : State))).booted = true)) := by decide +kernel

/-- The hypotheses of FirmwareAndKeys, clause 6, are met. -/
theorem test_meets_FirmwareAndKeys_6 :
    (domRuns (objs [(K.lcy_LIFECYCLE, 4)] : State) .mgmt = true) ∧
    (lcDenied (objs [(K.lcy_LIFECYCLE, 4)] : State) = true) ∧
    ((.erase : Instr) ∈ [.activate, .confirm, .cancel, .erase]) := by decide +kernel

/-- The hypotheses of FirmwareAndKeys, clause 7, are met. -/
theorem test_meets_FirmwareAndKeys_7 :
    (domRuns (objs [(K.lcy_LIFECYCLE, 2), (K.pw_PFW_ACTIVE, 1)] : State) .mgmt = true) ∧
    (lcDenied (objs [(K.lcy_LIFECYCLE, 2), (K.pw_PFW_ACTIVE, 1)] : State) = false) ∧
    (pfw (objs [(K.lcy_LIFECYCLE, 2), (K.pw_PFW_ACTIVE, 1)] : State) = true) ∧
    ((.confirm : Instr) ∈ [.activate, .confirm]) := by decide +kernel

/-- The hypotheses of FirmwareAndKeys, clause 8, are met. -/
theorem test_meets_FirmwareAndKeys_8 :
    (domRuns (mgmtW { confirmEnd := some 0 } 0 [(K.fwm_SLOT_STATE_A 0, 3)] : State) .mgmt = true) ∧
    ((mgmtW { confirmEnd := some 0 } 0 [(K.fwm_SLOT_STATE_A 0, 3)] : State).mgmt.confirmEnd = some (0 : Nat)) ∧
    ((0 : Nat) ≤ (mgmtW { confirmEnd := some 0 } 0 [(K.fwm_SLOT_STATE_A 0, 3)] : State).now) := by decide +kernel

/-- The hypotheses of FirmwareAndKeys, clause 9, are met. -/
theorem test_meets_FirmwareAndKeys_9 :
    (domRuns (objs [(K.lcy_LIFECYCLE, 2)] : State) .mgmt = true) ∧
    (pfw (objs [(K.lcy_LIFECYCLE, 2)] : State) = false) ∧
    ((List.replicate 248 0 : List Byte).length = 248) ∧
    (lcTransition ((objs [(K.lcy_LIFECYCLE, 2)] : State).n K.lcy_LIFECYCLE) (field (List.replicate 248 0 : List Byte) 6 1) = false) := by decide +kernel

/-- The hypotheses of FirmwareAndKeys, clause 10, are met. -/
theorem test_meets_FirmwareAndKeys_10 :
    (domRuns (objs [(K.lcy_LIFECYCLE, 2)] : State) .mgmt = true) ∧
    (pfw (objs [(K.lcy_LIFECYCLE, 2)] : State) = false) ∧
    (([0, 0, 0, 0, 0, 0, 3] ++ List.replicate 241 0 : List Byte).length = 248) ∧
    (lcTransition ((objs [(K.lcy_LIFECYCLE, 2)] : State).n K.lcy_LIFECYCLE) (field ([0, 0, 0, 0, 0, 0, 3] ++ List.replicate 241 0 : List Byte) 6 1) = true) := by decide +kernel

/-- The hypotheses of FirmwareAndKeys, clause 11, are met. -/
theorem test_meets_FirmwareAndKeys_11 :
    (domRuns (objs [(K.kk_KEY_STATE, 1)] : State) .mgmt = true) ∧
    (pfw (objs [(K.kk_KEY_STATE, 1)] : State) = false) ∧
    ((objs [(K.kk_KEY_STATE, 1)] : State).g K.kk_KEY_STATE = 1) ∧
    ((objs [(K.kk_KEY_STATE, 1)] : State).g K.lcy_TAMPER_ACTIVE = 0) ∧
    ((List.replicate 96 1 : List Byte).length = 96) := by decide +kernel

/-- The hypotheses of FirmwareAndKeys, clause 12, are met. -/
theorem test_meets_FirmwareAndKeys_12 :
    (domRuns (objs [(K.kk_KEY_STATE, 1)] : State) .mgmt = true) ∧
    ((objs [(K.kk_KEY_STATE, 1)] : State).g K.kk_KEY_STATE = 1) ∧
    ((objs [(K.kk_KEY_STATE, 1)] : State).mgmt.keyEnd ≤ (objs [(K.kk_KEY_STATE, 1)] : State).now) := by decide +kernel

/-- The hypotheses of FirmwareAndKeys, clause 13, are met. -/
theorem test_meets_FirmwareAndKeys_13 :
    ((objs [(K.kk_KEY_STATE, 2), (K.sk_SEAL_STATE, 1)] : State).g K.lcy_TAMPER_ACTIVE = 0) ∧
    ((objs [(K.kk_KEY_STATE, 2), (K.sk_SEAL_STATE, 1)] : State).g K.lcy_TAMPER_COUNT < 4294967295) := by decide +kernel

/-- The hypotheses of Resets, clause 1, are met. -/
theorem test_meets_Resets_1 :
    ((pwrW { on := true, link := true } 0 [(K.bu_PHASE, 6)] : State).pwr.on = true) ∧
    ((pwrW { on := true, link := true } 0 [(K.bu_PHASE, 6)] : State).pwr.perst = false) := by decide +kernel

/-- The hypotheses of Resets, clause 2, are met. -/
theorem test_meets_Resets_2 :
    ((pwrW { on := true, perst := true, hold := true } 7 [(K.bu_PHASE, 3)] : State).pwr.hold = true) ∧
    ((pwrW { on := true, perst := true, hold := true } 7 [(K.bu_PHASE, 3)] : State).phase = 3) := by decide +kernel

/-- The hypotheses of Resets, clause 3, are met. -/
theorem test_meets_Resets_3 :
    ((pwrW { on := true, perst := true } 7 [(K.bu_PHASE, 2)] : State).pwr.hold = false) := by decide +kernel

/-- The hypotheses of Resets, clause 4, are met. -/
theorem test_meets_Resets_4 :
    (domRuns (pwrW { on := true } 5 [(K.bu_PHASE, 6), (K.cg_GROUP_STATE 0, 0)] : State) .mgmt = true) := by decide +kernel

/-- The hypotheses of Resets, clause 5, are met. -/
theorem test_meets_Resets_5 :
    (domRuns (pwrW { on := true } 5 [(K.bu_PHASE, 6), (K.cg_GROUP_STATE 0, 0)] : State) .mgmt = true) ∧
    (resetBusy (pwrW { on := true } 5 [(K.bu_PHASE, 6), (K.cg_GROUP_STATE 0, 0)] : State) = false) := by decide +kernel

/-- The hypotheses of Resets, clause 6, are met. -/
theorem test_meets_Resets_6 :
    (domRuns (pwrW { on := true } 5 [(K.bu_PHASE, 6), (K.fwm_SLOT_STATE_A 1, 1)] : State) .mgmt = true) ∧
    (resetBusy (pwrW { on := true } 5 [(K.bu_PHASE, 6), (K.fwm_SLOT_STATE_A 1, 1)] : State) = true) := by decide +kernel

/-- The hypotheses of Resets, clause 7, are met. -/
theorem test_meets_Resets_7 :
    ((pwrW { on := true, reset := some (2, 3) } 3 [(K.bu_PHASE, 6)] : State).pwr.reset = some (2, (3 : Nat))) ∧
    ((3 : Nat) ≤ (pwrW { on := true, reset := some (2, 3) } 3 [(K.bu_PHASE, 6)] : State).now) := by decide +kernel

/-- The hypotheses of Resets, clause 8, are met. -/
theorem test_meets_Resets_8 :
    ((pwrW { on := true, reset := some (1, 3) } 3 [(K.bu_PHASE, 6)] : State).pwr.reset = some (1, (3 : Nat))) ∧
    ((3 : Nat) ≤ (pwrW { on := true, reset := some (1, 3) } 3 [(K.bu_PHASE, 6)] : State).now) := by decide +kernel

/-- The hypotheses of BringUp, clause 1, are met. -/
theorem test_meets_BringUp_1 :
    ((State.reset : State).pwr.on = false) := by decide +kernel

/-- The hypotheses of BringUp, clause 2, are met. -/
theorem test_meets_BringUp_2 :
    ((pwrW { on := true } 9 [(K.ck_MTR_STATE, 2)] : State).pwr.on = true) ∧
    ((pwrW { on := true } 9 [(K.ck_MTR_STATE, 2)] : State).phase = 0) := by decide +kernel

/-- The hypotheses of BringUp, clause 3, are met. -/
theorem test_meets_BringUp_3 :
    ((pwrW { on := true, done := [3] } 9 [(K.bu_PHASE, 3)] : State).phase = 3) ∧
    ((pwrW { on := true, done := [3] } 9 [(K.bu_PHASE, 3)] : State).pwr.done.contains 3 = true) ∧
    ((pwrW { on := true, done := [3] } 9 [(K.bu_PHASE, 3)] : State).pwr.hold = false) ∧
    ((pwrW { on := true, done := [3] } 9 [(K.bu_PHASE, 3)] : State).pwr.perst = false) := by decide +kernel

/-- The hypotheses of BringUp, clause 4, are met. -/
theorem test_meets_BringUp_4 :
    (((fun (s : State) => { s with mem := { s.mem with hbmUp := true } }) (pwrW { on := true, done := [4, 5], train := some [1] } 9 [(K.bu_PHASE, 4)]) : State).phase = 4) ∧
    (((fun (s : State) => { s with mem := { s.mem with hbmUp := true } }) (pwrW { on := true, done := [4, 5], train := some [1] } 9 [(K.bu_PHASE, 4)]) : State).pwr.done.contains 4 = true) ∧
    (((fun (s : State) => { s with mem := { s.mem with hbmUp := true } }) (pwrW { on := true, done := [4, 5], train := some [1] } 9 [(K.bu_PHASE, 4)]) : State).pwr.done.contains 5 = true) ∧
    (((fun (s : State) => { s with mem := { s.mem with hbmUp := true } }) (pwrW { on := true, done := [4, 5], train := some [1] } 9 [(K.bu_PHASE, 4)]) : State).mem.hbmUp = true) ∧
    (((fun (s : State) => { s with mem := { s.mem with hbmUp := true } }) (pwrW { on := true, done := [4, 5], train := some [1] } 9 [(K.bu_PHASE, 4)]) : State).pwr.train = some ([1] : List Byte)) := by decide +kernel

/-- The hypotheses of BringUp, clause 5, are met. -/
theorem test_meets_BringUp_5 :
    ((pwrW { on := true, link := true, done := [6] } 9 [(K.bu_PHASE, 5)] : State).phase = 5) ∧
    ((pwrW { on := true, link := true, done := [6] } 9 [(K.bu_PHASE, 5)] : State).pwr.done.contains 6 = true) ∧
    ((pwrW { on := true, link := true, done := [6] } 9 [(K.bu_PHASE, 5)] : State).g K.mg_BOOTS < 4294967295) := by decide +kernel

/-- The hypotheses of BringUp, clause 6, are met. -/
theorem test_meets_BringUp_6 :
    (domRuns (pwrW { on := true } 0 [(K.bu_PHASE, 2), (K.fwm_SLOT_STATE_A 0, 4)] : State) .mgmt = true) ∧
    ((pwrW { on := true } 0 [(K.bu_PHASE, 2), (K.fwm_SLOT_STATE_A 0, 4)] : State).phase = 2) ∧
    ((pwrW { on := true } 0 [(K.bu_PHASE, 2), (K.fwm_SLOT_STATE_A 0, 4)] : State).pwr.on = true) ∧
    ((pwrW { on := true } 0 [(K.bu_PHASE, 2), (K.fwm_SLOT_STATE_A 0, 4)] : State).pwr.fw = false) ∧
    ((pwrW { on := true } 0 [(K.bu_PHASE, 2), (K.fwm_SLOT_STATE_A 0, 4)] : State).pwr.noSlot = false) ∧
    (slotState (pwrW { on := true } 0 [(K.bu_PHASE, 2), (K.fwm_SLOT_STATE_A 0, 4)] : State) 0 ≠ 3) ∧
    (slotState (pwrW { on := true } 0 [(K.bu_PHASE, 2), (K.fwm_SLOT_STATE_A 0, 4)] : State) 1 ≠ 3) ∧
    ((pwrW { on := true } 0 [(K.bu_PHASE, 2), (K.fwm_SLOT_STATE_A 0, 4)] : State).mgmt.mirror ≤ (pwrW { on := true } 0 [(K.bu_PHASE, 2), (K.fwm_SLOT_STATE_A 0, 4)] : State).n K.rk_FUSED_SVN) ∧
    ((((pwrW { on := true } 0 [(K.bu_PHASE, 2), (K.fwm_SLOT_STATE_A 0, 4)] : State).slot 0).image.length < 257)) ∧
    ((((pwrW { on := true } 0 [(K.bu_PHASE, 2), (K.fwm_SLOT_STATE_A 0, 4)] : State).slot 1).image.length < 257)) := by decide +kernel

/-- The hypotheses of BringUp, clause 7, are met. -/
theorem test_meets_BringUp_7 :
    (domRuns (pwrW { on := true } 0 [(K.bu_PHASE, 2), (K.fwm_SLOT_STATE_A 0, 4)] : State) .mgmt = true) ∧
    ((pwrW { on := true } 0 [(K.bu_PHASE, 2), (K.fwm_SLOT_STATE_A 0, 4)] : State).phase = 2) ∧
    ((pwrW { on := true } 0 [(K.bu_PHASE, 2), (K.fwm_SLOT_STATE_A 0, 4)] : State).pwr.on = true) ∧
    ((pwrW { on := true } 0 [(K.bu_PHASE, 2), (K.fwm_SLOT_STATE_A 0, 4)] : State).pwr.fw = false) ∧
    ((pwrW { on := true } 0 [(K.bu_PHASE, 2), (K.fwm_SLOT_STATE_A 0, 4)] : State).pwr.noSlot = false) ∧
    (slotState (pwrW { on := true } 0 [(K.bu_PHASE, 2), (K.fwm_SLOT_STATE_A 0, 4)] : State) 0 = 4) ∧
    (slotState (pwrW { on := true } 0 [(K.bu_PHASE, 2), (K.fwm_SLOT_STATE_A 0, 4)] : State) 1 = 0) ∧
    ((pwrW { on := true } 0 [(K.bu_PHASE, 2), (K.fwm_SLOT_STATE_A 0, 4)] : State).n K.fwm_ACTIVE_SLOT = 0) ∧
    ((pwrW { on := true } 0 [(K.bu_PHASE, 2), (K.fwm_SLOT_STATE_A 0, 4)] : State).mgmt.mirror ≤ (pwrW { on := true } 0 [(K.bu_PHASE, 2), (K.fwm_SLOT_STATE_A 0, 4)] : State).n K.rk_FUSED_SVN) := by decide +kernel

/-- The hypotheses of BringUp, clause 8, are met. -/
theorem test_meets_BringUp_8 :
    ((pwrW { on := true, noSlot := true } 0 [(K.bu_PHASE, 2)] : State).phase = 2) ∧
    ((pwrW { on := true, noSlot := true } 0 [(K.bu_PHASE, 2)] : State).pwr.noSlot = true) := by decide +kernel

/-- The hypotheses of BringUp, clause 9, are met. -/
theorem test_meets_BringUp_9 :
    (domRuns ((fun (s : State) => { s with mgmt := { s.mgmt with pages := 5 } }) (pwrW { on := true } 0 [(K.bu_PHASE, 3)]) : State) .mgmt = true) ∧
    (((fun (s : State) => { s with mgmt := { s.mgmt with pages := 5 } }) (pwrW { on := true } 0 [(K.bu_PHASE, 3)]) : State).phase = 3) ∧
    (((fun (s : State) => { s with mgmt := { s.mgmt with pages := 5 } }) (pwrW { on := true } 0 [(K.bu_PHASE, 3)]) : State).pwr.done.contains 3 = false) := by decide +kernel

/-- The hypotheses of BringUp, clause 10, are met. -/
theorem test_meets_BringUp_10 :
    (domRuns (pwrW { on := true } 0 [(K.bu_PHASE, 4)] : State) .mgmt = true) ∧
    ((pwrW { on := true } 0 [(K.bu_PHASE, 4)] : State).phase = 4) ∧
    ((pwrW { on := true } 0 [(K.bu_PHASE, 4)] : State).pwr.done.contains 4 = false) := by decide +kernel

/-- The hypotheses of BringUp, clause 11, are met. -/
theorem test_meets_BringUp_11 :
    (domRuns (pwrW { on := true } 0 [(K.bu_PHASE, 4)] : State) .mgmt = true) ∧
    ((pwrW { on := true } 0 [(K.bu_PHASE, 4)] : State).phase = 4) ∧
    ((pwrW { on := true } 0 [(K.bu_PHASE, 4)] : State).pwr.done.contains 4 = false) := by decide +kernel

/-- The hypotheses of BringUp, clause 12, are met. -/
theorem test_meets_BringUp_12 :
    (domRuns (pwrW { on := true } 0 [(K.bu_PHASE, 4)] : State) .mgmt = true) ∧
    ((pwrW { on := true } 0 [(K.bu_PHASE, 4)] : State).phase = 4) ∧
    ((pwrW { on := true } 0 [(K.bu_PHASE, 4)] : State).pwr.done.contains 5 = false) := by decide +kernel

/-- The hypotheses of BringUp, clause 13, are met. -/
theorem test_meets_BringUp_13 :
    (domRuns (pwrW { on := true } 0 [(K.bu_PHASE, 5)] : State) .mgmt = true) ∧
    ((pwrW { on := true } 0 [(K.bu_PHASE, 5)] : State).phase = 5) ∧
    ((pwrW { on := true } 0 [(K.bu_PHASE, 5)] : State).pwr.done.contains 6 = false) := by decide +kernel

end Sys2Proof
end

section
/-! The reasoning rules of a queue command: how its row reaches its unit, and what a refusal leaves of the state. -/
namespace Sys2Proof.Proofs
open Sys2Proof Sys2Proof.Machine Sys2Proof.Laws

/-! ### A queue command reaches its unit -/

/-- A queue command comes when its domain runs and it is the command's turn (R595). -/
theorem comes_some_iff (s : State) (tag : Tag) (d : Dom) (c : Instr) :
    comes s (some tag) d c = true ↔ domRuns s d = true ∧ s.turn tag c = true := by
  simp [comes]

theorem served_of_domRuns {s : State} {d : Dom} (h : domRuns s d = true) (c : Instr)
    (f : State → Host.Outcome State Fault Refusal) : s.served d c f = f s :=
  if_pos h

theorem queued_of_comes {s : State} {tag : Tag} {d : Dom} {c : Instr} (h : comes s (some tag) d c = true)
    (f : State → Host.Outcome State Fault Refusal) : s.queued tag d c f = f (s.take tag) := by
  obtain ⟨hrun, hturn⟩ := (comes_some_iff s tag d c).mp h
  exact (served_of_domRuns hrun c _).trans (if_pos hturn)

theorem inRange_of_true {ok : Bool} (h : ok = true) (s : State) (tag : Tag) (f : State → State) :
    s.inRange tag ok f = f s :=
  if_pos h

/-- The state in which the unit finds a queue command that it has taken. -/
def taken (s : State) (tag : Tag) : State := (s.take tag).fresh

/-- The row of a queue command that comes with its operands in their ranges acts on the state in which it is taken (R586). -/
theorem queued_inRange_of_comes {s : State} {tag : Tag} {d : Dom} {c : Instr} {ok : Bool} (h : comes s (some tag) d c = true)
    (hok : ok = true) (act : State → State) :
    s.queued tag d c (fun s => .next (s.fresh.inRange tag ok act)) = .next (act (taken s tag)) := by
  rw [queued_of_comes h, inRange_of_true hok, taken]

@[simp] theorem take_mem (s : State) (tag : Tag) : (s.take tag).mem = s.mem := rfl
@[simp] theorem take_compl (s : State) (tag : Tag) : (s.take tag).host.compl = s.host.compl := rfl
@[simp] theorem take_waiting (s : State) (tag : Tag) : (s.take tag).host.waiting = s.host.waiting := rfl
@[simp] theorem taken_seg? (s : State) (tag : Tag) (n : Nat) : (taken s tag).seg? n = s.seg? n := rfl

/-! ### What a refusal leaves -/

/-- A queue command ends with a status and result 0; no segment changes and nothing more is copied to the host. -/
def Refused (s t : State) (tag : Tag) (status : Nat) : Prop :=
  t.mem.segs = s.mem.segs ∧ t.host.waiting = s.host.waiting ∧ Completed s t tag status 0

@[simp] theorem leaveMover_segs (j : MoverJob) (s : State) : (leaveMover j s).mem.segs = s.mem.segs := rfl
@[simp] theorem leaveMover_host (j : MoverJob) (s : State) : (leaveMover j s).host = s.host := rfl
@[simp] theorem refuse_waiting (s : State) (tag : Tag) (status : Nat) :
    (s.refuse tag status).host.waiting = s.host.waiting := rfl

/-- The shape that every refusal of SEG_WRITE and SEG_READ has: the command gives up its place at the mover and is refused. -/
theorem refused_leaveMover_taken (s : State) (tag : Tag) (status : Nat) :
    Refused s ((leaveMover (.copy tag) (taken s tag)).refuse tag status) tag status := by
  refine ⟨?_, ?_, ?_⟩
  · simp [taken]
  · simp [taken]
  · simp [Completed, taken]

end Sys2Proof.Proofs
end

section
/-! SEG_WRITE and SEG_READ of up to 65,536 items at the mover: the order of their checks (R64, R586, R774). -/
namespace Sys2Proof.Proofs
open Sys2Proof Sys2Proof.Machine Sys2Proof.Laws

/-! ### The rows act -/

theorem count_inRange {count : Nat} (hlow : 1 ≤ count) (hhigh : count ≤ 65536) :
    (decide (1 ≤ count) && decide (count ≤ 65536)) = true := by
  simp [hlow, hhigh]

theorem exec_segWrite_of_comes {s : State} {tag : Tag} {n : SegId} {first count : Nat} {data : List Byte}
    (h : comes s (some tag) .timing (.segWrite tag n first count data) = true) (hlow : 1 ≤ count) (hhigh : count ≤ 65536) :
    exec (.segWrite tag n first count data) s = .next (segWrite tag n first count data (taken s tag)) :=
  queued_inRange_of_comes h (count_inRange hlow hhigh) _

theorem exec_segRead_of_comes {s : State} {tag : Tag} {n : SegId} {first count : Nat} {c : MoverCheck}
    (h : comes s (some tag) .timing (.segRead tag n first ⟨count, c⟩) = true) (hlow : 1 ≤ count) (hhigh : count ≤ 65536) :
    exec (.segRead tag n first ⟨count, c⟩) s = .next (segRead tag n first count c (taken s tag)) :=
  queued_inRange_of_comes h (count_inRange hlow hhigh) _

/-! ### The checks, in their order -/

/-- A segment that is FREE, or not OPEN, is refused before the index and the count are looked at. -/
theorem segWrite_of_not_opened {s : State} {n : SegId} (h : (s.seg? n).all (fun x => x.st != .opened) = true)
    (tag : Tag) (first count : Nat) (data : List Byte) :
    segWrite tag n first count data s = (leaveMover (.copy tag) s).refuse tag Status.SEG_STATE := by
  unfold segWrite
  cases hseg : s.seg? n with
  | none => rfl
  | some x =>
    have hst : x.st ≠ .opened := by simpa [hseg] using h
    exact if_pos hst

theorem segWrite_of_beyond {s : State} {n : SegId} {x : Seg} {first count : Nat} (hseg : s.seg? n = some x)
    (hst : x.st = .opened) (hlen : x.len < first + count) (tag : Tag) (data : List Byte) :
    segWrite tag n first count data s = (leaveMover (.copy tag) s).refuse tag Status.Q_FIELD := by
  simp [segWrite, hseg, hst, hlen]

theorem segRead_of_free {s : State} {n : SegId} (hseg : s.seg? n = none) (tag : Tag) (first count : Nat) (c : MoverCheck) :
    segRead tag n first count c s = (leaveMover (.copy tag) s).refuse tag Status.SEG_BAD_NUMBER := by
  simp [segRead, hseg]

theorem segRead_of_beyond {s : State} {n : SegId} {x : Seg} {first count : Nat} (hseg : s.seg? n = some x)
    (hlen : x.len < first + count) (tag : Tag) (c : MoverCheck) :
    segRead tag n first count c s = (leaveMover (.copy tag) s).refuse tag Status.Q_FIELD := by
  simp [segRead, hseg, hlen]

/-! ### The refusals -/

/-- A row whose meaning is to give up its place at the mover and refuse its command answers a state in which it is refused. -/
theorem exists_refused {s : State} {i : Instr} {t : State} {tag : Tag} {status : Nat} (hexec : exec i s = .next t)
    (hrefuse : t = (leaveMover (.copy tag) (taken s tag)).refuse tag status) :
    ∃ t, exec i s = .next t ∧ Refused s t tag status :=
  ⟨t, hexec, hrefuse ▸ refused_leaveMover_taken s tag status⟩

/-- Settles O16: each of the four refusals is one branch of the unit's checks on the state in which it takes the command. -/
theorem segBeyondLengthRefused : Obligations.SegBeyondLengthRefused := by
  refine ⟨?writeBeyond, ?readBeyond, ?writeState, ?readFree⟩
  case writeBeyond =>
    intro tag n first count data x s hcomes hseg hst hlow hhigh hlen
    exact exists_refused (exec_segWrite_of_comes hcomes hlow hhigh)
      (segWrite_of_beyond ((taken_seg? s tag n).trans hseg) hst hlen tag data)
  case readBeyond =>
    intro tag n first count c x s hcomes hseg hlow hhigh hlen
    exact exists_refused (exec_segRead_of_comes hcomes hlow hhigh)
      (segRead_of_beyond ((taken_seg? s tag n).trans hseg) hlen tag c)
  case writeState =>
    intro tag n first count data s hcomes hst hlow hhigh
    exact exists_refused (exec_segWrite_of_comes hcomes hlow hhigh)
      (segWrite_of_not_opened (by rwa [taken_seg?]) tag first count data)
  case readFree =>
    intro tag n first count c s hcomes hseg hlow hhigh
    exact exists_refused (exec_segRead_of_comes hcomes hlow hhigh)
      (segRead_of_free ((taken_seg? s tag n).trans hseg) tag first count c)

end Sys2Proof.Proofs
end

section
/-! CS_WRITE over the window of a site that is not IDLE: the control-store unit refuses it and stores nothing (R119). -/
namespace Sys2Proof.Proofs
open Sys2Proof Sys2Proof.Machine Sys2Proof.Laws

/-! ### What taking a command and reading its buffer leave -/

@[simp] theorem taken_od (s : State) (tag : Tag) : (taken s tag).od = s.od := rfl
@[simp] theorem taken_g (s : State) (tag : Tag) (k : Nat) : (taken s tag).g k = s.g k := rfl
@[simp] theorem taken_mem (s : State) (tag : Tag) : (taken s tag).mem = s.mem := rfl
@[simp] theorem taken_compl (s : State) (tag : Tag) : (taken s tag).host.compl = s.host.compl := rfl
@[simp] theorem fromHost_compl (s : State) (tag : Tag) (n : Nat) : (s.fromHost tag n).host.compl = s.host.compl := rfl

/-! ### The unit is busy -/

theorem csBusy_iff (s : State) (addr count : Nat) :
    csBusy s addr count = true ↔
      ∃ i, s.st i ≠ SS.idle ∧ s.n (K.sq_WIN_BASE i) < addr + count ∧ addr ≤ s.n (K.sq_WIN_LIMIT i) := by
  simp [csBusy, allSites, and_assoc]

/-- Whether a range is busy depends on the objects of the state only. -/
theorem csBusy_congr {s t : State} (hod : t.od = s.od) (addr count : Nat) : csBusy t addr count = csBusy s addr count := by
  rw [Bool.eq_iff_iff, csBusy_iff, csBusy_iff]
  simp only [State.st, State.n, State.g, hod]

/-! ### The refusal, before a word is looked at -/

theorem exec_csWrite_of_comes {s : State} {tag : Tag} {addr : Nat} {words : List MWord}
    (h : comes s (some tag) .timing (.csWrite tag addr words) = true) (hlow : 1 ≤ words.length) (hhigh : words.length ≤ 4096) :
    exec (.csWrite tag addr words) s = .next (csWrite tag addr words (taken s tag)) :=
  queued_inRange_of_comes h (by simp [hlow, hhigh]) _

/-- A range inside the customer region passes the range check (R112), so the window check decides. -/
theorem csStore_of_busy {s : State} {addr : Nat} {words : List MWord} (hlow : 0x2000 ≤ addr)
    (hhigh : addr + words.length ≤ 0x20000) (hbusy : csBusy s addr words.length = true) :
    csStore addr words s = (s.p K.cs_CS_LAST_STATUS Status.CS_BUSY, Status.CS_BUSY, 0) := by
  have hrange : ¬(addr < 0x2000 ∨ 0x20000 < addr + words.length) := by omega
  simp only [csStore, if_neg hrange, if_pos hbusy]

/-- The words are read from the buffer of the host all the same. -/
theorem csWrite_of_busy {s : State} {addr : Nat} {words : List MWord} (hlow : 0x2000 ≤ addr)
    (hhigh : addr + words.length ≤ 0x20000) (hbusy : csBusy s addr words.length = true) (tag : Tag) :
    csWrite tag addr words s =
      ((s.fromHost tag (20 * words.length)).p K.cs_CS_LAST_STATUS Status.CS_BUSY).refuse tag Status.CS_BUSY := by
  have hread : csBusy (s.fromHost tag (20 * words.length)) addr words.length = true :=
    (csBusy_congr (fromHost_od s tag _) addr _).trans hbusy
  rw [csWrite, csStore_of_busy hlow hhigh hread, State.refuse]

/-- Settles O24: the window of the site makes the range busy, also in the state in which the unit has taken the command, and the
refusal writes CS_LAST_STATUS and the completion only. -/
theorem csWriteOverWindowIsBusy : Obligations.CsWriteOverWindowIsBusy := by
  intro tag addr words i s hcomes hst hbase hlimit hone hmax hlow hhigh
  have hbusy : csBusy s addr words.length = true := (csBusy_iff s addr _).mpr ⟨i, hst, hbase, hlimit⟩
  have hrefuse := csWrite_of_busy hlow hhigh ((csBusy_congr (taken_od s tag) addr _).trans hbusy) tag
  refine ⟨_, (exec_csWrite_of_comes hcomes hone hmax).trans (congrArg _ hrefuse), ?mem, ?status, ?objects, ?completed⟩
  case mem => simp
  case status => simp [g_p_self]
  case objects =>
    intro k hk
    have hne : k ≠ K.cs_CS_LAST_STATUS := List.ne_of_not_mem_cons hk
    simp [g_p_ne _ _ hne]
  case completed => simp [Completed]

end Sys2Proof.Proofs
end

section
/-! The TMU commands of the host: what an arming and the end of an arming change of the objects and of the TMUs' records, and
how the command is answered (R408, R410, R427, R428). -/
namespace Sys2Proof.Proofs
open Sys2Proof Sys2Proof.Machine Sys2Proof.Laws

/-! ### Object keys of different indices -/

theorem ob_ne_of_index {i j : Nat} (h : i ≠ j) {c d : Nat} (hc : c < 256) (hd : d < 256) : Objects.ob i c ≠ Objects.ob j d := by
  unfold Objects.ob
  omega

theorem ob_ne_of_sub (i : Nat) {c d : Nat} (h : c ≠ d) : Objects.ob i c ≠ Objects.ob i d := by
  unfold Objects.ob
  omega

theorem mem_resultKeys {u : TmuId} {k : Nat} (h : k ∈ resultKeys u) :
    ∃ j c, j < 80 ∧ c < 256 ∧ k = Objects.ob (0x4850 + j) c := by
  simp only [resultKeys, stopKeys, List.mem_flatMap, List.mem_map, List.mem_range] at h
  obtain ⟨stop, hstop, j, hj, rfl⟩ := h
  exact ⟨8 * u.val + stop, j + 1, by omega, by omega, by rw [Nat.add_assoc]⟩

/-- No object of an index below or above those of the stops is a result. -/
theorem ob_not_mem_resultKeys {i c : Nat} (hi : i < 0x4850 ∨ 0x48A0 ≤ i) (hc : c < 256) (u : TmuId) :
    Objects.ob i c ∉ resultKeys u := by
  intro hmem
  obtain ⟨j, d, hj, hd, heq⟩ := mem_resultKeys hmem
  exact ob_ne_of_index (by omega) hc hd heq

/-- The counts of missed samples of a TMU's stops. -/
def missedKeys (u : TmuId) : List Nat := (List.range 8).map (fun k => K.tv_MISSED (8 * u.val + k))

theorem missed_mem_missedKeys (u : TmuId) (k : Fin 8) : K.tv_MISSED (8 * u.val + k.val) ∈ missedKeys u :=
  List.mem_map.mpr ⟨k.val, List.mem_range.mpr k.isLt, rfl⟩

theorem ob_not_mem_missedKeys {i c : Nat} (hi : i < 0x4850) (hc : c < 256) (u : TmuId) : Objects.ob i c ∉ missedKeys u := by
  intro hmem
  obtain ⟨k, -, heq⟩ := List.mem_map.mp hmem
  exact ob_ne_of_index (by omega) (by decide) hc heq

/-! ### What the parts of the state keep -/

/-- From one state to another only objects of a list and the record of one TMU change, and no queue command ends. -/
structure TmuFrame (u : TmuId) (ks : List Nat) (s t : State) : Prop where
  objects : OtherObjects ks s t
  records : OtherTmus u s t
  compl : t.host.compl = s.host.compl

namespace TmuFrame
variable {u : TmuId} {ks : List Nat} {s t r : State}

theorem of_eq (hod : t.od = s.od) (htmus : t.tmus = s.tmus) (hcompl : t.host.compl = s.host.compl) : TmuFrame u ks s t where
  objects k _ := by rw [State.g, hod, State.g]
  records v _ := by rw [State.tmu, htmus, State.tmu]
  compl := hcompl

theorem refl (s : State) : TmuFrame u ks s s := of_eq rfl rfl rfl

theorem trans (h : TmuFrame u ks s t) (h' : TmuFrame u ks t r) : TmuFrame u ks s r where
  objects k hk := (h'.objects k hk).trans (h.objects k hk)
  records v hv := (h'.records v hv).trans (h.records v hv)
  compl := h'.compl.trans h.compl

theorem p {k : Nat} (hk : k ∈ ks) (v : Int) (s : State) : TmuFrame u ks s (s.p k v) where
  objects _ hj := g_p_ne s v (ne_of_mem_of_not_mem hk hj).symm
  records _ _ := rfl
  compl := rfl

theorem setTmu (x : Tmu) (s : State) : TmuFrame u ks s (s.setTmu u x) where
  objects _ _ := rfl
  records v hv := Vector.getElem_set_ne u.isLt v.isLt (fun he => hv (Fin.ext he.symm))
  compl := rfl

theorem foldl {α : Type} {f : State → α → State} (l : List α) (hf : ∀ s, ∀ x ∈ l, TmuFrame u ks s (f s x)) :
    ∀ s, TmuFrame u ks s (l.foldl f s) := by
  induction l with
  | nil => exact refl
  | cons x l ih =>
    intro s
    exact (hf s x List.mem_cons_self).trans (ih (fun s y hy => hf s y (List.mem_cons_of_mem x hy)) (f s x))

theorem zero {l : List Nat} (hl : ∀ k ∈ l, k ∈ ks) (s : State) : TmuFrame u ks s (s.zero l) :=
  foldl l (fun s k hk => p (hl k hk) 0 s) s

theorem cnt32 {k : Nat} (hk : k ∈ ks) (s : State) : TmuFrame u ks s (s.cnt32 k) := by
  unfold State.cnt32 State.count
  split
  · exact p hk _ s
  · exact (p hk _ s).trans (of_eq rfl rfl rfl)

theorem raise (c : Nat) (s : State) : TmuFrame u ks s (s.raise c) :=
  of_eq (raise_od s c) (raise_tmus s c) (congrArg HostIf.compl (raise_host s c))

end TmuFrame

/-! ### The start of an arming -/

theorem zero_g (l : List Nat) (j : Nat) : ∀ s : State, (s.zero l).g j = if j ∈ l then 0 else s.g j := by
  induction l with
  | nil => intro s; rfl
  | cons k l ih =>
    intro s
    have hcons : (s.zero (k :: l)).g j = if j ∈ l then 0 else (s.p k 0).g j := ih (s.p k 0)
    rw [hcons, g_p]
    by_cases hl : j ∈ l <;> by_cases hk : j = k <;> simp [hl, hk]

/-- The objects that the start of an arming writes besides the results. -/
def armKeys (u : TmuId) : List Nat :=
  [K.tt_SAMPLES_DONE u, K.tt_END_STATUS u, K.tt_OUT_OF_LIMITS u, K.tt_STATE u, K.tt_CAL_HOLD u, K.tt_CAL_WAITS u]

/-- The objects that every arming clears. -/
def clearedKeys (u : TmuId) : List Nat := [K.tt_SAMPLES_DONE u, K.tt_END_STATUS u, K.tt_OUT_OF_LIMITS u]

theorem yieldTmu_frame {u : TmuId} {ks : List Nat} (hk : K.tt_CAL_HOLD u ∈ ks) (s : State) :
    TmuFrame u ks s (yieldTmu u s) := by
  unfold yieldTmu
  split
  · split
    · exact (TmuFrame.p hk 1 s).trans (.of_eq rfl rfl rfl)
    · exact .refl s
  · exact .refl s

theorem yieldTmu_g_ne {u : TmuId} {j : Nat} (hj : j ≠ K.tt_CAL_HOLD u) (s : State) : (yieldTmu u s).g j = s.g j :=
  (yieldTmu_frame (u := u) (List.mem_singleton_self _) s).objects j (by simpa using hj)

/-- The TMU is held for calibration exactly when the arming waits for it (R428). -/
theorem yieldTmu_calHold (u : TmuId) (s : State) : (yieldTmu u s).b (K.tt_CAL_HOLD u) = armWaits s u := by
  unfold yieldTmu armWaits
  split
  · split
    · next hfirst =>
      have hheld : ((s.p (K.tt_CAL_HOLD u) 1).g (K.tt_CAL_HOLD u) != 0) = true := by rw [g_p_self]; rfl
      rw [hfirst, Bool.or_true]
      exact hheld
    · next hfirst => simp [hfirst]
  · simp

/-- The state of an arming that has cleared what it clears (R410). -/
def armClears (u : TmuId) (s : State) : State :=
  let s := (yieldTmu u s).zero (clearedKeys u)
  if s.b (K.tc_ACCUM u) then s else s.zero (resultKeys u)

theorem tmuArm_eq (u : TmuId) (s : State) :
    tmuArm u s =
      if (armClears u s).b (K.tt_CAL_HOLD u) then
        (((armClears u s).sat32 (K.tt_CAL_WAITS u)).p (K.tt_STATE u) TS.waitCal).setTmu u
          { waitAt := (armClears u s).now, undo := undoKept (armClears u s) u }
      else ((armClears u s).p (K.tt_STATE u) TS.armed).setTmu u
          { startAt := (armClears u s).now, undo := undoKept (armClears u s) u } := rfl

theorem armClears_accum (u : TmuId) (s : State) :
    ((yieldTmu u s).zero (clearedKeys u)).b (K.tc_ACCUM u) = s.b (K.tc_ACCUM u) := by
  have hclear : K.tc_ACCUM u ∉ clearedKeys u := by
    simp only [clearedKeys, List.mem_cons, List.not_mem_nil, or_false, not_or]
    refine ⟨?_, ?_, ?_⟩ <;> exact ob_ne_of_index (by omega) (by decide) (by decide)
  have hhold : K.tc_ACCUM u ≠ K.tt_CAL_HOLD u := ob_ne_of_index (by omega) (by decide) (by decide)
  rw [State.b, zero_g, if_neg hclear, yieldTmu_g_ne hhold, State.b]

/-- An object after the clears: 0 where the arming clears it. -/
theorem armClears_g (u : TmuId) (s : State) (j : Nat) :
    (armClears u s).g j =
      if (s.b (K.tc_ACCUM u) = false ∧ j ∈ resultKeys u) ∨ j ∈ clearedKeys u then 0 else (yieldTmu u s).g j := by
  simp only [armClears, armClears_accum]
  by_cases haccum : s.b (K.tc_ACCUM u) = true
  · simp [haccum, zero_g]
  · simp only [haccum, if_false, zero_g, true_and, Bool.false_eq_true]
    by_cases hj : j ∈ resultKeys u <;> simp [hj]

theorem armClears_calHold (u : TmuId) (s : State) : (armClears u s).b (K.tt_CAL_HOLD u) = armWaits s u := by
  have hresult : K.tt_CAL_HOLD u ∉ resultKeys u := ob_not_mem_resultKeys (by omega) (by decide) u
  have hclear : K.tt_CAL_HOLD u ∉ clearedKeys u := by
    simp only [clearedKeys, List.mem_cons, List.not_mem_nil, or_false, not_or]
    refine ⟨?_, ?_, ?_⟩ <;> exact ob_ne_of_sub _ (by decide)
  have hkept : (armClears u s).g (K.tt_CAL_HOLD u) = (yieldTmu u s).g (K.tt_CAL_HOLD u) := by
    rw [armClears_g, if_neg (by simp [hresult, hclear])]
  rw [State.b, hkept]
  exact yieldTmu_calHold u s

/-- An arming writes no other object after its clears than STATE and CAL_WAITS. -/
theorem tmuArm_g_ne {u : TmuId} {j : Nat} (hstate : j ≠ K.tt_STATE u) (hwaits : j ≠ K.tt_CAL_WAITS u) (s : State) :
    (tmuArm u s).g j = (armClears u s).g j := by
  rw [tmuArm_eq]
  split
  · exact (g_p_ne _ _ hstate).trans (g_p_ne _ _ hwaits)
  · exact g_p_ne _ _ hstate

theorem tmuArm_tst (u : TmuId) (s : State) :
    (tmuArm u s).tst u = if armWaits s u then TS.waitCal else TS.armed := by
  rw [tmuArm_eq, armClears_calHold]
  split
  · exact congrArg Int.toNat (g_p_self _ _ _)
  · exact congrArg Int.toNat (g_p_self _ _ _)

theorem tmuArm_cleared {u : TmuId} {j : Nat} (hj : j ∈ clearedKeys u) (s : State) : (tmuArm u s).g j = 0 := by
  have hkeys := hj
  simp only [clearedKeys, List.mem_cons, List.not_mem_nil, or_false] at hkeys
  have hstate : j ≠ K.tt_STATE u := by
    rcases hkeys with rfl | rfl | rfl <;> exact ob_ne_of_sub _ (by decide)
  have hwaits : j ≠ K.tt_CAL_WAITS u := by
    rcases hkeys with rfl | rfl | rfl <;> exact ob_ne_of_sub _ (by decide)
  rw [tmuArm_g_ne hstate hwaits, armClears_g, if_pos (.inr hj)]

/-- A result object after an arming: as before where the TMU accumulates, else 0. -/
theorem tmuArm_result {u : TmuId} {j : Nat} (hj : j ∈ resultKeys u) (s : State) :
    (tmuArm u s).g j = if s.b (K.tc_ACCUM u) then s.g j else 0 := by
  have hne : ∀ c < 256, j ≠ Objects.ob (0x4840 + u) c := fun c hc he =>
    ob_not_mem_resultKeys (.inl (by omega)) hc u (he ▸ hj)
  have hclear : j ∉ clearedKeys u := by
    simp only [clearedKeys, List.mem_cons, List.not_mem_nil, or_false, not_or]
    exact ⟨hne _ (by decide), hne _ (by decide), hne _ (by decide)⟩
  rw [tmuArm_g_ne (hne _ (by decide)) (hne _ (by decide)), armClears_g, yieldTmu_g_ne (hne _ (by decide))]
  cases s.b (K.tc_ACCUM u) <;> simp [hj, hclear]

theorem tmuArm_frame {u : TmuId} {ks : List Nat} (harm : armKeys u ⊆ ks) (hresults : resultKeys u ⊆ ks) (s : State) :
    TmuFrame u ks s (tmuArm u s) := by
  have hkey : ∀ {k}, k ∈ armKeys u → k ∈ ks := fun hk => harm hk
  have hyield : TmuFrame u ks s ((yieldTmu u s).zero (clearedKeys u)) :=
    (yieldTmu_frame (hkey (by simp [armKeys])) s).trans
      (.zero (fun k hk => hkey (List.mem_append_left [K.tt_STATE u, K.tt_CAL_HOLD u, K.tt_CAL_WAITS u] hk)) _)
  have hclears : TmuFrame u ks s (armClears u s) := by
    simp only [armClears]
    split
    · exact hyield
    · exact hyield.trans (.zero (fun _ hk => hresults hk) _)
  rw [tmuArm_eq]
  split
  · exact ((hclears.trans (.p (hkey (by simp [armKeys])) _ _)).trans (.p (hkey (by simp [armKeys])) _ _)).trans (.setTmu _ _)
  · exact (hclears.trans (.p (hkey (by simp [armKeys])) _ _)).trans (.setTmu _ _)

/-! ### The end of an arming -/

/-- The objects that the end of an arming writes besides the counts of missed samples. -/
def endKeys (u : TmuId) : List Nat := [K.tt_STATE u, K.tt_END_STATUS u, K.tt_CAL_WAIT_MAX u]

theorem missStop_frame {u : TmuId} {ks : List Nat} (hmissed : missedKeys u ⊆ ks) (k : Fin 8) (s : State) :
    TmuFrame u ks s (missStop u k s) := by
  have hcount : TmuFrame u ks s (s.cnt32 (K.tv_MISSED (8 * u.val + k.val))) :=
    .cnt32 (hmissed (missed_mem_missedKeys u k)) s
  simp only [missStop]
  split
  · exact hcount
  · exact (hcount.trans (.setTmu _ _)).trans (.raise _ _)

theorem missAll_frame {u : TmuId} {ks : List Nat} (hmissed : missedKeys u ⊆ ks) (s : State) : TmuFrame u ks s (missAll u s) :=
  .foldl _ (fun s _ _ => missStop_frame hmissed _ s) s

theorem countSkips_frame {u : TmuId} {ks : List Nat} (hmissed : missedKeys u ⊆ ks) (s : State) :
    TmuFrame u ks s (countSkips u s) :=
  (TmuFrame.setTmu _ s).trans (.foldl _ (fun s _ _ => missAll_frame hmissed s) _)

/-- Without a skipped gate nothing is counted. -/
theorem countSkips_g_of_none {u : TmuId} {s : State} (hskips : (s.tmu u).skips = 0) (j : Nat) : (countSkips u s).g j = s.g j := by
  simp only [countSkips, hskips, List.range_zero, List.foldl_nil]
  rfl

theorem waitGates_frame {u : TmuId} {ks : List Nat} (s : State) : TmuFrame u ks s (waitGates u s) := by
  simp only [waitGates]
  split
  · split
    · exact .setTmu _ s
    · exact .refl s
  · exact .refl s

theorem waitEnds_of_not_waiting {u : TmuId} {s : State} (hwait : s.tst u ≠ TS.waitCal) : waitEnds u s = s :=
  if_neg hwait

theorem waitEnds_frame {u : TmuId} {ks : List Nat} (hmax : K.tt_CAL_WAIT_MAX u ∈ ks) (s : State) :
    TmuFrame u ks s (waitEnds u s) := by
  simp only [waitEnds]
  split
  · split
    · exact (waitGates_frame s).trans (.p hmax _ _)
    · exact waitGates_frame s
  · exact .refl s

theorem oweBlock_frame {u : TmuId} {ks : List Nat} (s : State) : TmuFrame u ks s (oweBlock u s) := by
  unfold oweBlock
  split
  · exact .of_eq rfl rfl rfl
  · exact .refl s

theorem tmuEndSeen_frame {u : TmuId} {ks : List Nat} (complete : Bool) (s : State) :
    TmuFrame u ks s (tmuEndSeen u complete s) := by
  unfold tmuEndSeen
  split
  · exact .refl s
  · split
    · exact .of_eq rfl rfl rfl
    · exact .refl s

/-- The wait is over and the skipped gates have been counted. -/
def endCounts (u : TmuId) (s : State) : State := countSkips u (waitEnds u s)

/-- The bank is owed a block where the arming is complete. -/
def endOwes (u : TmuId) (status : Nat) (s : State) : State := if status = 1 then oweBlock u s else s

theorem tmuEnd_eq (u : TmuId) (status : Nat) (s : State) :
    tmuEnd u status s =
      let e := ((endOwes u status (endCounts u s)).p (K.tt_STATE u) TS.done).p (K.tt_END_STATUS u) status
      tmuEndSeen u (status == 1) (e.setTmu u { undo := (e.tmu u).undo }) := rfl

theorem endOwes_frame {u : TmuId} {ks : List Nat} (status : Nat) (s : State) : TmuFrame u ks s (endOwes u status s) := by
  unfold endOwes
  split
  · exact oweBlock_frame s
  · exact .refl s

theorem endCounts_frame {u : TmuId} {ks : List Nat} (hmax : K.tt_CAL_WAIT_MAX u ∈ ks) (hmissed : missedKeys u ⊆ ks) (s : State) :
    TmuFrame u ks s (endCounts u s) :=
  (waitEnds_frame hmax s).trans (countSkips_frame hmissed _)

theorem tmuEnd_frame {u : TmuId} {ks : List Nat} (hend : endKeys u ⊆ ks) (hmissed : missedKeys u ⊆ ks) (status : Nat) (s : State) :
    TmuFrame u ks s (tmuEnd u status s) := by
  have hkey : ∀ {k}, k ∈ endKeys u → k ∈ ks := fun hk => hend hk
  have hcounts : TmuFrame u ks s (endCounts u s) := endCounts_frame (hkey (by simp [endKeys])) hmissed s
  have howes := hcounts.trans (endOwes_frame status _)
  have hstate := howes.trans (.p (hkey (k := K.tt_STATE u) (by simp [endKeys])) TS.done _)
  have hstatus := hstate.trans (.p (hkey (k := K.tt_END_STATUS u) (by simp [endKeys])) status _)
  rw [tmuEnd_eq]
  exact (hstatus.trans (.setTmu _ _)).trans (tmuEndSeen_frame _ _)

/-- An object after the end of an arming. -/
theorem tmuEnd_g (u : TmuId) (status : Nat) (s : State) (j : Nat) :
    (tmuEnd u status s).g j =
      if j = K.tt_END_STATUS u then (status : Int) else if j = K.tt_STATE u then (TS.done : Int) else (endCounts u s).g j := by
  have hseen := fun t : State => (tmuEndSeen_frame (u := u) (ks := []) (status == 1) t).objects j List.not_mem_nil
  have howes := (endOwes_frame (u := u) (ks := []) status (endCounts u s)).objects j List.not_mem_nil
  rw [tmuEnd_eq, ← howes, ← g_p, ← g_p]
  exact hseen _

theorem tmuEnd_tst (u : TmuId) (status : Nat) (s : State) : (tmuEnd u status s).tst u = TS.done := by
  have hne : K.tt_STATE u ≠ K.tt_END_STATUS u := ob_ne_of_sub _ (by decide)
  rw [State.tst, State.n, tmuEnd_g, if_neg hne, if_pos rfl]
  rfl

theorem tmuEnd_endStatus (u : TmuId) (status : Nat) (s : State) : (tmuEnd u status s).g (K.tt_END_STATUS u) = status := by
  rw [tmuEnd_g, if_pos rfl]

/-- Only a wait for calibration raises the longest wait. -/
theorem tmuEnd_calWaitMax {u : TmuId} {s : State} (hwait : s.tst u ≠ TS.waitCal) (status : Nat) :
    (tmuEnd u status s).g (K.tt_CAL_WAIT_MAX u) = s.g (K.tt_CAL_WAIT_MAX u) := by
  have hstatus : K.tt_CAL_WAIT_MAX u ≠ K.tt_END_STATUS u := ob_ne_of_sub _ (by decide)
  have hstate : K.tt_CAL_WAIT_MAX u ≠ K.tt_STATE u := ob_ne_of_sub _ (by decide)
  rw [tmuEnd_g, if_neg hstatus, if_neg hstate, endCounts, waitEnds_of_not_waiting hwait]
  exact (countSkips_frame (List.Subset.refl _) s).objects _ (ob_not_mem_missedKeys (by omega) (by decide) u)

/-- Without a skipped gate and without a wait for calibration no sample is missed. -/
theorem tmuEnd_missed {u : TmuId} {s : State} (hskips : (s.tmu u).skips = 0) (hwait : s.tst u ≠ TS.waitCal) (status k : Nat) :
    (tmuEnd u status s).g (K.tv_MISSED (8 * u.val + k)) = s.g (K.tv_MISSED (8 * u.val + k)) := by
  have hstatus : K.tv_MISSED (8 * u.val + k) ≠ K.tt_END_STATUS u := ob_ne_of_index (by omega) (by decide) (by decide)
  have hstate : K.tv_MISSED (8 * u.val + k) ≠ K.tt_STATE u := ob_ne_of_index (by omega) (by decide) (by decide)
  rw [tmuEnd_g, if_neg hstatus, if_neg hstate, endCounts, waitEnds_of_not_waiting hwait, countSkips_g_of_none hskips]

/-! ### The command comes, and is answered -/

/-- The state in which a unit finds a command that a submission queue or a write of a command object delivers. -/
def found (s : State) : Option Tag → State
  | some tag => taken s tag
  | none => s.fresh

theorem either_of_comes {s : State} {o : Option Tag} {d : Dom} {c : Instr} (h : comes s o d c = true)
    (act : State → State) : s.either o d c (fun s => .next (act s.fresh)) = .next (act (found s o)) := by
  cases o with
  | some tag => exact queued_of_comes h (fun s => .next (act s.fresh))
  | none =>
    have hruns : domRuns s d = true := by simpa [comes] using h
    exact served_of_domRuns hruns c (fun s => .next (act s.fresh))

theorem exec_tmuArm_of_comes {s : State} {o : Option Tag} {u : TmuId} (h : comes s o .timing (.tmuArm o u) = true) :
    exec (.tmuArm o u) s = .next (tmuAnswer o (tmuHostCmd true u (found s o))) :=
  either_of_comes h (fun s => tmuAnswer o (tmuHostCmd true u s))

theorem exec_tmuDisarm_of_comes {s : State} {o : Option Tag} {u : TmuId} (h : comes s o .timing (.tmuDisarm o u) = true) :
    exec (.tmuDisarm o u) s = .next (tmuAnswer o (tmuHostCmd false u (found s o))) :=
  either_of_comes h (fun s => tmuAnswer o (tmuHostCmd false u s))

@[simp] theorem found_od (s : State) (o : Option Tag) : (found s o).od = s.od := by cases o <;> rfl
@[simp] theorem found_tmus (s : State) (o : Option Tag) : (found s o).tmus = s.tmus := by cases o <;> rfl
@[simp] theorem found_compl (s : State) (o : Option Tag) : (found s o).host.compl = s.host.compl := by cases o <;> rfl
@[simp] theorem found_g (s : State) (o : Option Tag) (k : Nat) : (found s o).g k = s.g k := by rw [State.g, found_od, State.g]
@[simp] theorem found_n (s : State) (o : Option Tag) (k : Nat) : (found s o).n k = s.n k := by rw [State.n, found_g, State.n]
@[simp] theorem found_b (s : State) (o : Option Tag) (k : Nat) : (found s o).b k = s.b k := by rw [State.b, found_g, State.b]
@[simp] theorem found_tst (s : State) (o : Option Tag) (u : TmuId) : (found s o).tst u = s.tst u := found_n s o _
@[simp] theorem found_tmu (s : State) (o : Option Tag) (u : TmuId) : (found s o).tmu u = s.tmu u := by
  rw [State.tmu, found_tmus, State.tmu]
@[simp] theorem found_tmuBusy (s : State) (o : Option Tag) (u : TmuId) : (found s o).tmuBusy u = s.tmuBusy u := by
  rw [State.tmuBusy, found_tst, State.tmuBusy]
@[simp] theorem found_armWaits (s : State) (o : Option Tag) (u : TmuId) : armWaits (found s o) u = armWaits s u := by
  cases o <;> rfl

theorem found_frame {u : TmuId} {ks : List Nat} (s : State) (o : Option Tag) : TmuFrame u ks s (found s o) :=
  .of_eq (found_od s o) (found_tmus s o) (found_compl s o)

@[simp] theorem tmuAnswer_tmus (o : Option Tag) (r : Nat × State) : (tmuAnswer o r).tmus = r.2.tmus := by cases o <;> rfl

/-- The answer writes no object but TMU_CMD_STATUS. -/
theorem tmuAnswer_g_ne {k : Nat} (hk : k ≠ K.tk_TMU_CMD_STATUS) (o : Option Tag) (r : Nat × State) :
    (tmuAnswer o r).g k = r.2.g k := by
  cases o with
  | some tag => rfl
  | none => exact g_p_ne r.2 _ hk

theorem tmuAnswered_tmuAnswer {s : State} {r : Nat × State} (hcompl : r.2.host.compl = s.host.compl) (o : Option Tag) :
    TmuAnswered s (tmuAnswer o r) o r.1 := by
  cases o with
  | some tag =>
    refine ⟨?_, nofun⟩
    rintro _ ⟨⟩
    exact congrArg (· ++ [⟨tag, r.1, 0⟩]) hcompl
  | none => exact ⟨nofun, fun _ => ⟨g_p_self r.2 _ _, hcompl⟩⟩

/-- The answer to a command that has acted within a frame: TMU_CMD_STATUS may change as well. -/
theorem tmuAnswer_of_frame {u : TmuId} {ks : List Nat} {s : State} {r : Nat × State} (h : TmuFrame u ks s r.2)
    (hk : K.tk_TMU_CMD_STATUS ∈ ks) (o : Option Tag) :
    OtherTmus u s (tmuAnswer o r) ∧ TmuAnswered s (tmuAnswer o r) o r.1 ∧ OtherObjects ks s (tmuAnswer o r) := by
  refine ⟨fun v hv => ?_, tmuAnswered_tmuAnswer h.compl o, fun j hj => ?_⟩
  · rw [State.tmu, tmuAnswer_tmus]
    exact h.records v hv
  · rw [tmuAnswer_g_ne (ne_of_mem_of_not_mem hk hj).symm]
    exact h.objects j hj

theorem tt_ne_cmdStatus (u : TmuId) {c : Nat} (hc : c < 256) : Objects.ob (0x4840 + u) c ≠ K.tk_TMU_CMD_STATUS :=
  ob_ne_of_index (by omega) hc (by decide)

theorem tmuAnswer_tst (o : Option Tag) (r : Nat × State) (u : TmuId) : (tmuAnswer o r).tst u = r.2.tst u := by
  rw [State.tst, State.n, tmuAnswer_g_ne (tt_ne_cmdStatus u (by decide)), State.tst, State.n]

/-! ### The host's command -/

theorem tmuHostCmd_of_not_owner {s : State} {u : TmuId} (howner : s.n (K.tmo_OWNER u) ≠ 0x80) (arm : Bool) :
    tmuHostCmd arm u s = (Status.TMU_NOT_OWNER, s) :=
  if_pos howner

theorem tmuHostCmd_arm_of_rest {s : State} {u : TmuId} (howner : s.n (K.tmo_OWNER u) = 0x80) (hbusy : s.tmuBusy u = false) :
    tmuHostCmd true u s = (Status.OK, tmuArm u s) := by
  simp [tmuHostCmd, howner, hbusy]

theorem tmuHostCmd_arm_of_busy {s : State} {u : TmuId} (howner : s.n (K.tmo_OWNER u) = 0x80) (hbusy : s.tmuBusy u = true) :
    tmuHostCmd true u s = (Status.TMU_STATE, s) := by
  simp [tmuHostCmd, howner, hbusy]

/-- The ARM of a TMU at rest that the host owns acts on the state in which it is found. -/
theorem exec_tmuArm_of_rest {s : State} {o : Option Tag} {u : TmuId} (h : comes s o .timing (.tmuArm o u) = true)
    (howner : s.n (K.tmo_OWNER u) = 0x80) (hbusy : s.tmuBusy u = false) :
    exec (.tmuArm o u) s = .next (tmuAnswer o (Status.OK, tmuArm u (found s o))) := by
  rw [exec_tmuArm_of_comes h, tmuHostCmd_arm_of_rest (by rwa [found_n]) (by rwa [found_tmuBusy])]

/-- What the host's DISARM makes of a TMU that it owns: an arming in progress ends, and a TMU at rest stays as it is (R408). -/
def disarmed (u : TmuId) (s : State) : State := if s.tmuBusy u then tmuEnd u 2 s else s

theorem tmuHostCmd_disarm {s : State} {u : TmuId} (howner : s.n (K.tmo_OWNER u) = 0x80) :
    tmuHostCmd false u s = (Status.OK, disarmed u s) := by
  simp [tmuHostCmd, howner, disarmed]

/-- The DISARM of a TMU that the host owns acts on the state in which it is found. -/
theorem exec_tmuDisarm_of_owner {s : State} {o : Option Tag} {u : TmuId} (h : comes s o .timing (.tmuDisarm o u) = true)
    (howner : s.n (K.tmo_OWNER u) = 0x80) :
    exec (.tmuDisarm o u) s = .next (tmuAnswer o (Status.OK, disarmed u (found s o))) := by
  rw [exec_tmuDisarm_of_comes h, tmuHostCmd_disarm (by rwa [found_n])]

theorem disarmed_tst (u : TmuId) (s : State) : (disarmed u s).tst u = if s.tmuBusy u then TS.done else s.tst u := by
  rw [disarmed, apply_ite (State.tst · u), tmuEnd_tst]

theorem disarmed_endStatus (u : TmuId) (s : State) :
    (disarmed u s).g (K.tt_END_STATUS u) = if s.tmuBusy u then 2 else s.g (K.tt_END_STATUS u) := by
  rw [disarmed, apply_ite (State.g · (K.tt_END_STATUS u)), tmuEnd_endStatus]
  rfl

theorem disarmed_calWaitMax {u : TmuId} {s : State} (hwait : s.tst u ≠ TS.waitCal) :
    (disarmed u s).g (K.tt_CAL_WAIT_MAX u) = s.g (K.tt_CAL_WAIT_MAX u) := by
  rw [disarmed, apply_ite (State.g · (K.tt_CAL_WAIT_MAX u)), tmuEnd_calWaitMax hwait, ite_self]

theorem disarmed_missed {u : TmuId} {s : State} (hskips : (s.tmu u).skips = 0) (hwait : s.tst u ≠ TS.waitCal) (k : Nat) :
    (disarmed u s).g (K.tv_MISSED (8 * u.val + k)) = s.g (K.tv_MISSED (8 * u.val + k)) := by
  rw [disarmed, apply_ite (State.g · (K.tv_MISSED (8 * u.val + k))), tmuEnd_missed hskips hwait, ite_self]

theorem disarmed_frame {u : TmuId} {ks : List Nat} (hend : endKeys u ⊆ ks) (hmissed : missedKeys u ⊆ ks) (s : State) :
    TmuFrame u ks s (disarmed u s) := by
  unfold disarmed
  split
  · exact tmuEnd_frame hend hmissed 2 s
  · exact .refl s

/-- A command whose meaning is a refusal changes no record and no object but the status of TMU_CMD. -/
theorem exists_tmuRefused {s : State} {i : Instr} {o : Option Tag} {r : Nat × State} {status : Nat}
    (hexec : exec i s = .next (tmuAnswer o r)) (hrefuse : r = (status, found s o)) :
    ∃ t, exec i s = .next t ∧ t.tmus = s.tmus ∧ OtherObjects [K.tk_TMU_CMD_STATUS] s t ∧ TmuAnswered s t o status := by
  subst hrefuse
  refine ⟨_, hexec, ?records, ?objects, tmuAnswered_tmuAnswer (found_compl s o) o⟩
  case records => exact (tmuAnswer_tmus o _).trans (found_tmus s o)
  case objects => exact fun k hk => (tmuAnswer_g_ne (List.ne_of_not_mem_cons hk) o _).trans (found_g s o k)

/-- Settles O38: each command is one branch of the host's command on the state in which it is found; an accepted one writes the
objects of its arming or of the end of it, and the answer adds TMU_CMD_STATUS. -/
theorem tmuHostCommands : Obligations.TmuHostCommands := by
  refine ⟨?arm, ?armNotOwner, ?armBusy, ?disarm, ?disarmNotOwner⟩
  case arm =>
    intro o u s hcomes howner hbusy
    have harm : armKeys u ⊆ armKeys u ++ [K.tk_TMU_CMD_STATUS] ++ resultKeys u := by simp
    have hframe := (found_frame s o).trans (tmuArm_frame harm (List.subset_append_right _ _) (found s o))
    have hcleared : ∀ c < 256, Objects.ob (0x4840 + u) c ∈ clearedKeys u →
        (tmuAnswer o (Status.OK, tmuArm u (found s o))).g (Objects.ob (0x4840 + u) c) = 0 := fun c hc hmem =>
      (tmuAnswer_g_ne (tt_ne_cmdStatus u hc) o _).trans (tmuArm_cleared hmem _)
    obtain ⟨hrecords, hanswer, hobjects⟩ := tmuAnswer_of_frame (r := (Status.OK, tmuArm u (found s o))) hframe (by simp) o
    refine ⟨_, exec_tmuArm_of_rest hcomes howner hbusy, ?samples, ?status, ?limits, ?results, ?state, hrecords, hanswer, hobjects⟩
    case samples => exact hcleared _ (by decide) (by simp [clearedKeys])
    case status => exact hcleared _ (by decide) (by simp [clearedKeys])
    case limits => exact hcleared _ (by decide) (by simp [clearedKeys])
    case results =>
      intro k hk
      have hne : k ≠ K.tk_TMU_CMD_STATUS := fun he =>
        ob_not_mem_resultKeys (.inr (Nat.le_refl _)) (by decide) u (he ▸ hk)
      rw [tmuAnswer_g_ne hne, tmuArm_result hk, found_b, found_g]
    case state => rw [tmuAnswer_tst, tmuArm_tst, found_armWaits]
  case armNotOwner =>
    intro o u s hcomes howner
    exact exists_tmuRefused (exec_tmuArm_of_comes hcomes) (tmuHostCmd_of_not_owner (by rwa [found_n]) true)
  case armBusy =>
    intro o u s hcomes howner hbusy
    exact exists_tmuRefused (exec_tmuArm_of_comes hcomes) (tmuHostCmd_arm_of_busy (by rwa [found_n]) (by rwa [found_tmuBusy]))
  case disarm =>
    intro o u s hcomes howner
    have hend : endKeys u ⊆ endKeys u ++ [K.tk_TMU_CMD_STATUS] ++ missedKeys u := by simp
    have hframe := (found_frame s o).trans (disarmed_frame hend (List.subset_append_right _ _) (found s o))
    obtain ⟨hrecords, hanswer, hobjects⟩ := tmuAnswer_of_frame (r := (Status.OK, disarmed u (found s o))) hframe (by simp) o
    refine ⟨_, exec_tmuDisarm_of_owner hcomes howner, hanswer, hrecords, ?state, ?status, ?longest, ?missed, hobjects⟩
    case state => rw [tmuAnswer_tst, disarmed_tst, found_tmuBusy, found_tst]
    case status => rw [tmuAnswer_g_ne (tt_ne_cmdStatus u (by decide)), disarmed_endStatus, found_tmuBusy, found_g]
    case longest =>
      intro hwait
      rw [tmuAnswer_g_ne (tt_ne_cmdStatus u (by decide)), disarmed_calWaitMax (by rwa [found_tst]), found_g]
    case missed =>
      intro hskips hwait k hk
      have hk8 : k < 8 := List.mem_range.mp hk
      have hne : K.tv_MISSED (8 * u.val + k) ≠ K.tk_TMU_CMD_STATUS := ob_ne_of_index (by omega) (by decide) (by decide)
      rw [tmuAnswer_g_ne hne, disarmed_missed (by rwa [found_tmu]) (by rwa [found_tst]), found_g]
  case disarmNotOwner =>
    intro o u s hcomes howner
    exact exists_tmuRefused (exec_tmuDisarm_of_comes hcomes) (tmuHostCmd_of_not_owner (by rwa [found_n]) false)

end Sys2Proof.Proofs
end
